-- ==== Sys2Proof/Word.lean ====
section
/-! DEFINITION. The byte, the byte string, and the canonical sparse table that every indexed family of objects of
the device is held in. -/

namespace Sys2Proof

/-- One byte, as the host, the wire and the flash hold it. -/
abbrev Byte := BitVec 8

/-- A string of bytes, lowest address (or first on the wire) first. -/
abbrev Bytes := List Byte

/-- A family of like objects by number: pairs of number and value, numbers strictly rising, no value equal to the
family's default. An unlisted number holds the default. -/
abbrev Tab (α : Type) := List (Nat × α)

end Sys2Proof
end

