-- ==== Sys2Proof/Events.lean ====
section
/-! DEFINITION. The operands of the commands: descriptors, frames and deliveries as the board, the host, the modem and
the partner device present them. -/

namespace Sys2Proof

/-- An ACI command descriptor (R73) as the device reads it from a function's command ring, less its OPCODE, which is
the row itself. `fn` is the function whose ring holds it: 0 for PF0, 1 to 16 for the VFs. `inl` holds bytes 16-63 and
`buf` the bytes that a DMA read of the host buffer gives. -/
structure Aci where
  fn : Fin 17
  tagWord : BitVec 16
  byte4 : Byte
  byte5 : Byte
  len : BitVec 16
  buffer : BitVec 64
  inl : Bytes
  buf : Bytes
  deriving DecidableEq, Repr

/-- What the board presents at an M1 entry: what the entry samples and finds. -/
structure BootInput where
  /-- PAIR_ID strap as sampled (R662). -/
  pairId : Bool
  /-- VBAT was present since the last supply (R46). -/
  vbatKept : Bool
  /-- REFCLK present and in tolerance at each tile 0-7, and at the RC die (R672). -/
  refclkTile : BitVec 8
  refclkRc : Bool
  deriving DecidableEq, Repr

/-- One reading of the sensors and rail monitors (R679, R682). Temperatures are in 1/16 degree C. -/
structure SensorReading where
  /-- The eight sensors of the core die, of the RC die and of all tiles, and the four of the Reservoir. -/
  core : List Int
  rc : List Int
  tiles : List Int
  reservoir : List Int
  /-- Package power over the last millisecond, in W. -/
  watts : Nat
  /-- Rails 0-9 at their sense lands, in mV. -/
  railMv : List Nat
  deriving DecidableEq, Repr

/-- The first 256-byte cell of a received frame, or the whole frame with its FCS if it is shorter (R194), with what the
PCS knows of it. -/
structure RxFrame where
  bytes : Bytes
  /-- The frame ends within this cell. -/
  ends : Bool
  /-- The preemptable MAC receives it (R168). -/
  preemptable : Bool
  /-- PCS timestamp on the port's time base, in units of 2^-16 ns (R116). -/
  stamp : Nat
  /-- Of a frame that goes on: its whole length as received, FCS included, which the policer and the check of the IP length go
  by (R197, R258; log entry 35). -/
  len : Nat := 0
  deriving DecidableEq, Repr

/-- The end of a received frame: the bytes after its first cell, and what the FCS, the MAC merge and the FEC found since
the port's last frame (R167, R190). -/
structure RxEnd where
  preemptable : Bool
  rest : Bytes
  fcsOk : Bool
  /-- Fragments that the MAC merge took for it, an assembly that failed, and SMDs that were wrong. -/
  frags : Nat
  assemblyErr : Bool
  smdErrs : Nat
  /-- RS(544,514) codewords corrected and uncorrectable, and corrected symbols of each lane of the port. -/
  fecCorrected : Nat
  fecUncorrected : Nat
  fecSymbols : List Nat
  deriving DecidableEq, Repr

/-- An ECC error found when a cell is read for egress (R248). -/
structure CellEcc where
  cell : BitVec 20
  uncorrectable : Bool
  /-- The frame's egress had begun. -/
  begun : Bool
  deriving DecidableEq, Repr

/-- A decoded radio frame as the modem hands it to the mesh (R366, R369, R374). -/
structure AirFrame where
  domain : Fin 64
  /-- Index of its cell in the image's Cells section, and the slot number. -/
  cell : Nat
  slot : Nat
  /-- Member site whose header delivery came first. -/
  site : Fin 96
  /-- Frame instant and end on air on TB0, in ns. -/
  instantNs : Nat
  endNs : Nat
  freq : Nat
  phy : Nat
  /-- The PHY code with the options that the frame's PHR gives (R396). -/
  rxPhy : Nat := phy
  copies : Nat
  /-- Decoder reliability, 0 to 255 (R369, R440). -/
  reliability : Nat
  /-- Received signal strength in dBm and mean SNR in 0.25 dB. -/
  rssi : Int
  snrQdb : Int
  /-- Of each copy of a LOFDM frame: site, mean SNR and received power on each data subcarrier, in 0.25 dB (R358). -/
  heard : List (Nat × Int × List Int)
  /-- The PSDU, with its FCS. -/
  psdu : Bytes
  deriving DecidableEq, Repr

/-- A preamble as a baseband lane detects it (R339, R348). -/
structure Detect where
  domain : Fin 64
  /-- Index of the cell in the image's Cells section, and of the entry of its channel set. -/
  cell : Nat
  entry : Nat
  /-- Frame instant on TB0 in ns, and preamble correlation. -/
  instantNs : Nat
  corr : Nat
  /-- The antenna of the band whose samples the context takes. -/
  antenna : Nat
  /-- Mean power of each 32 samples of the context before the loop froze, as the PRU sent them, in 1/1000 dBFS; none when all were
  blanked (R311, R342). -/
  gainPeriods : List (Option Int)
  rssi : Int
  snrQdb : Int
  /-- Received power of a LOFDM frame on each data subcarrier, in 0.25 dBm. -/
  power : List Int
  deriving DecidableEq, Repr

/-- One symbol, or chip, of a decision-feedback equaliser (R345): the inputs of the feedforward taps, newest first, and the point
that the output is held against: the preamble's, or the one decided. -/
structure DfeStep where
  inputs : List (Int × Int)
  ref : Int × Int
  deriving DecidableEq, Repr

/-- What a context's equaliser takes with the soft values of a part (R345): symbols of the SHR preamble and those from the
start-of-frame delimiter on; or the subcarriers of the training symbol, as received, and the pilots of each symbol. -/
inductive EqInput where
  | none
  | dfe (preamble body : List DfeStep)
  | carriers (training : List (Int × Int)) (pilots : List (List (Int × Int)))
  deriving DecidableEq, Repr

/-- Soft values as a context delivers them, with what its equaliser has taken for them. -/
structure Soft where
  values : List Int
  eq : EqInput := .none
  deriving DecidableEq, Repr

/-- A header as the decoders give it (R350, R344). -/
inductive HeaderWord where
  /-- The header of a LOFDM frame, which its soft values give (R369, R372). -/
  | lofdm
  /-- The PHR of a standard PHY: PSDU length, whether it announces only what the device supports, and of MR-FSK the FEC, interleaving,
  whitening and FCS options as bits 10 to 14 of a PHY code (R396). -/
  | phr (len : Nat) (supported : Bool) (options : Nat := 0)
  deriving DecidableEq, Repr

/-! ### Messages of the Pair Link (R541)

The payloads of every message but HELLO and KEY are defined by the Ablen release and are not an interface, so these
operands hold what a message says. -/

/-- An ARBITRATE message (R541, R561): a mismatch of a port in an epoch, or the report of a self-check. -/
inductive ArbMsg where
  | notice (epoch port : Nat)
  | report (fault : Bool)
  deriving DecidableEq, Repr

/-- An EQUINOX message (R541, R579, R580). -/
inductive EqxMsg where
  | agree
  | abort
  deriving DecidableEq, Repr

/-- What an offset sample brings (R111): the offsetFromMaster that the PTP instance has formed, or the 10 MHz cycles counted since
the source was selected (FREQ_10M). A captured edge of PPS_IN brings its own. -/
inductive OffsetSample where
  | fromMaster
  | cycles (n : Nat)
  deriving DecidableEq, Repr

/-- Where a PTP message is sent: an Ethernet multicast address, or a UDP one with its port (R125, R128). -/
inductive PtpDest where
  | ethernet (mac : Nat)
  | udp4 (addr port : Nat)
  | udp6 (addr port : Nat)
  deriving DecidableEq, Repr

/-- A PTP message as it leaves: its destination and its octets from the PTP header on. -/
structure PtpFrame where
  dest : PtpDest
  msg : Bytes
  deriving DecidableEq, Repr

/-- A firmware effect (R548). -/
inductive FwEffect where
  /-- A PTP message that a port sends. -/
  | ptp (port : Nat) (f : PtpFrame)
  /-- An accepted join: handle, EUI-64, the request's IE, the response's body, and the handle that a node claimed and did
  not get. -/
  | join (d handle eui : Nat) (ie body : Bytes) (moved : Option Nat)
  /-- A refused join and its RESULT. -/
  | refuse (d eui result : Nat)
  /-- A loading update: downlink or uplink, and the map's ID, rate and bits. -/
  | loading (d handle : Nat) (down : Bool) (id rate : Nat) (bits : List Nat)
  /-- The link reports and the distribution reports of an accepted frame. -/
  | reports (d handle : Nat) (link dist : List Bytes)
  /-- A block of a node image (R614): slot, owner, byte offset and bytes. -/
  | imageBlock (slot owner off : Nat) (data : Bytes)
  /-- Lease records in force in the sender's MRAM (R554): domain, KEY_EPOCH and LEASE_END. -/
  | leases (l : List (Nat × Nat × Nat))
  deriving DecidableEq, Repr

/-- A shared measurement (R549). -/
inductive Measure where
  /-- A servo sample of a base, in units of 2^-16 ns. -/
  | offset (tb : Nat) (theta : Int)
  /-- The one-way delay of a site, in ns. -/
  | delay (site ns : Nat)
  deriving DecidableEq, Repr

/-- A learn or move, or the removal of an aged entry (R550). -/
inductive LearnMsg where
  | learn (mac vlan port : Nat) (move : Bool)
  | aged (mac vlan : Nat)
  deriving DecidableEq, Repr

/-- A frame read from an inject ring (R101). -/
structure Injected where
  fn : Nat
  lookup : Bool
  queue : Nat
  launch : Option Nat
  frame : Bytes
  deriving DecidableEq, Repr

end Sys2Proof
end

