-- ==== Sys2Proof/Syntax.lean ====
section
/-! DEFINITION. The commands the block takes: one constructor of `Instr` for each row of spec/opcode_table.json, in
the table's order. The device has no instruction encoding of a processor's kind, so the operands are the fields that
the spec gives each register write, ACI descriptor, pin event or internal event. -/

namespace Sys2Proof

/-- The commands of the block: one constructor for each row of the table, in its order. -/
inductive Instr where
  -- SYS commands
  | sysWarmReset (r : Aci)
  | sysShutdown (r : Aci)
  | sysConfigClear (r : Aci)
  | sysSetShares (r : Aci)
  | sysWellAssign (r : Aci)
  | sysRingConfig (r : Aci)
  | tenantReset (r : Aci)
  | unknownOpcode (opcode : BitVec 16) (r : Aci)
  -- PORT commands
  | portSetSpeed (r : Aci)
  | portSetCutThrough (r : Aci)
  | portSetPreempt (r : Aci)
  | portSetRadio (r : Aci)
  | portRingPair (r : Aci)
  | portGetStatus (r : Aci)
  | portOpticsMap (r : Aci)
  | portOpticsIo (r : Aci) (ack : Bool) (data : Bytes)
  | portMdioIo (r : Aci) (data : BitVec 16)
  -- TABLE commands
  | tableCommit (r : Aci)
  | tableStatus (r : Aci)
  | tableVrfConfig (r : Aci)
  | tablePortL2 (r : Aci)
  | tableVlanWrite (r : Aci)
  | tableIntfWrite (r : Aci)
  | tableMacWrite (r : Aci)
  | tableMacRead (r : Aci)
  | tableMacFlush (r : Aci)
  | tableNexthopWrite (r : Aci)
  | tableRouteWrite (r : Aci)
  | tableRuleWrite (r : Aci)
  | tableMirrorWrite (r : Aci)
  -- QOS commands
  | qosSetLimits (r : Aci)
  | qosSetSched (r : Aci)
  | qosSetShaper (r : Aci)
  | qosSetLaunch (r : Aci)
  | qosSetClassMap (r : Aci)
  | qosPolicerWrite (r : Aci)
  | qosQueueFlush (r : Aci)
  | qosQueueStatus (r : Aci)
  | qosCisternStatus (r : Aci)
  -- TIME commands
  | timeBaseConfig (r : Aci)
  | timeGet (r : Aci)
  | timeStep (r : Aci)
  | timePtpConfig (r : Aci)
  | timePortConfig (r : Aci)
  | timePpsConfig (r : Aci)
  | timeSynceConfig (r : Aci)
  | timeSetTenantBase (r : Aci)
  -- RADIO commands
  | radioSiteConfig (r : Aci)
  | radioDwellConfig (r : Aci)
  | radioSiteStatus (r : Aci)
  | radioFloorRead (r : Aci)
  | radioDwellRead (r : Aci)
  | radioSiteReset (r : Aci)
  | radioLoadingConfig (r : Aci)
  | radioMapRead (r : Aci)
  -- SCHED commands
  | schedDomainAllot (r : Aci)
  | schedSiteAllot (r : Aci)
  | schedLoadImage (r : Aci)
  | schedActivate (r : Aci)
  | schedDeactivate (r : Aci)
  | schedUnload (r : Aci)
  | schedStatus (r : Aci)
  -- NODE commands
  | nodeDomainAssign (r : Aci)
  | nodeDomainConfig (r : Aci)
  | nodeDomainStatus (r : Aci)
  | nodeRead (r : Aci)
  | nodeWrite (r : Aci)
  | nodeRemove (r : Aci)
  | nodeSend (r : Aci)
  | nodeDomainRekey (r : Aci)
  | nodeDistStart (r : Aci)
  | nodeDistStop (r : Aci)
  -- KEY commands
  | keyTenantRootCreate (r : Aci)
  | keyDomainKeyCreate (r : Aci)
  | keyImport (r : Aci)
  | keyDestroy (r : Aci)
  | keySlotAssign (r : Aci)
  | keySlotStatus (r : Aci)
  | keyReadPublic (r : Aci)
  | keyCacheShares (r : Aci)
  | keyMapRead (r : Aci)
  -- PAIR commands
  | pairConfig (r : Aci)
  | pairGetStatus (r : Aci)
  | pairEquinox (r : Aci)
  | pairLaneTrim (r : Aci)
  | pairClear (r : Aci)
  | pairResync (r : Aci)
  -- BIST commands
  | bistRun (r : Aci)
  | bistStatus (r : Aci)
  | bistConfig (r : Aci)
  -- UPDATE commands
  | updateOpen (r : Aci)
  | updateStatus (r : Aci)
  | updateInstall (r : Aci)
  | updateAbort (r : Aci)
  | updateBankInfo (r : Aci)
  | updateNodeImageDrop (r : Aci)
  -- OBSERVE commands
  | observeSnapshot (r : Aci)
  | observeCounters (r : Aci)
  | observeTraceConfig (r : Aci)
  -- register accesses
  | modeReqSafe (word : BitVec 32)
  | modeReqWarm (word : BitVec 32)
  | mboxEnable (f : Fin 17) (word : BitVec 32)
  | cmdTail (f : Fin 17) (count : BitVec 16)
  | rspHead (f : Fin 17) (count : BitVec 16)
  | puntTail (f : Fin 17) (n : Fin 64) (count : BitVec 16)
  | injTail (f : Fin 17) (n : Fin 64) (count : BitVec 16)
  | wellEnable (f : Fin 17) (slot : Fin 1024) (word : BitVec 32)
  | drainDone (f : Fin 17) (slot : Fin 1024) (word : BitVec 32)
  | drainClose (f : Fin 17) (slot : Fin 1024) (word : BitVec 32)
  | snapTake (word : BitVec 32)
  | rtcLoad (word : BitVec 32)
  | rtcLoRead
  | rtcHiRead
  | epochLoRead
  | tempPeakRead
  | registerWrite (f : Fin 17) (bar : Fin 4) (offset : BitVec 32) (width : Fin 9) (value : BitVec 32)
  -- PCIe and JTAG
  | msixUnmask (f : Fin 17) (v : Fin 256)
  | functionLevelReset (f : Fin 17)
  | pciePerst
  | jtagIdcode
  | jtagSample (cells : BitVec 140)
  | jtagBypass (code : BitVec 4)
  -- resets and boot
  | resetNLow
  | powerFailWarning
  | powerFailDrainDone
  | railOutOfRange (rails : BitVec 10)
  | bootStart (b : BootInput)
  | processorsLoaded
  | bootSelfTestDone (failed : List (Nat × Nat))
  | bootComplete
  | pairingWaitExpiry
  | migrationDone
  | migrationStepError
  | migrationTimeout
  | lkgReached
  -- faults
  | processorFault (p : Fin 9)
  | processorReloadDone (p : Fin 9)
  | bscFault
  | dataLevelFault (level : Fin 4) (number : Nat) (cause : Fin 7)
  | blockResetDone (level : Fin 4) (number : Nat) (ok : Bool)
  | coreDieFault (reservoir : Bool) (cause : Fin 7)
  | worldViolation (region : Fin 256) (master : Nat) (write : Bool) (addr : BitVec 64)
  | commandDmaTimeout (f : Fin 17) (ring : Bool) (addr : BitVec 64)
  -- host rings and Wells
  | msixModerationTimer (f : Fin 17)
  | wellEntryWrite (w : Fin 1024) (badParity : Bool)
  | pacedEntryDue (key : Nat)
  | injectFrameRead (f : Fin 17) (n : Fin 64) (descs : List Bytes) (frame : Bytes)
  | puntCellArrival (f : Fin 17) (n : Fin 64)
  -- forwarding
  | frameRx (p : Fin 256) (frame : RxFrame)
  | rxFrameEnd (p : Fin 256) (fin : RxEnd)
  | maintenanceSlot (pipe : Fin 8)
  | generationBoundary
  | cyclePlanStart
  /-- `inProgress`: a preemptable frame is still being sent, and an express frame has become eligible (R261). -/
  | egressSelect (p : Fin 256) (inProgress : Bool) (ecc : Option CellEcc)
  | launchTimeReached (q : Fin 32768)
  | launchHoldStart (q : Fin 32768)
  -- ports and optics
  | linkUp (p : Fin 256)
  | linkDown (p : Fin 256) (reason : Fin 8)
  | preemptVerifyTimeout (p : Fin 256)
  | preemptVerifyResponse (p : Fin 256)
  | opticsProbe (cage : Fin 128) (present : Bool)
  | opticsFlagPoll (cage : Fin 128) (flags : List (Nat × Byte))
  /-- The levels of SDA that the recovery of R185 finds, in the order it looks; high after the last. -/
  | i2cStretchTimeout (bus : Fin 16) (sda : List Bool)
  | activeInRise
  -- time
  | offsetSample (tb : Fin 8) (x : OffsetSample)
  | sourceLost (tb : Fin 8)
  | ppsInEdge
  | freq10mLost
  | ppsOutEdge
  | ptpMessageRx (inst : Fin 8) (p : Fin 256) (msg : Bytes)
  | ptpSyncTx (p : Fin 256)
  -- schedule
  | slotBoundary (d : Fin 64)
  | imageActivation (d : Fin 64)
  | deactivateDone (d : Fin 64)
  | imageLoadDone (d : Fin 64) (dmaOk : Bool) (image : Bytes)
  /-- The issue instant of a transmit cell in a slot: the slot's number, and the cell's index in the Cells section. -/
  | txIssue (d : Fin 64) (slot : Nat) (cell : Nat)
  /-- `id` numbers the acknowledgement as the domain planned it. -/
  | ackIssue (d : Fin 64) (id : Nat)
  -- radio and modem
  /-- A RoE data frame as received, without FCS, and its PCS timestamp in ns. -/
  | roeUplinkFrame (p : Fin 256) (frame : Bytes) (stampNs : Nat)
  | detection (site : Fin 96) (d : Detect)
  /-- `id` numbers the transmission. -/
  | headerDecision (id : Nat) (header : HeaderWord)
  /-- Part 0 is the header, part k + 1 codeword k; `blanks` are the LOFDM symbols first received with this part whose FFT windows held
  blanked samples, the header symbol being 0, and how many (R341). -/
  | softValuesDelivered (id : Nat) (site : Fin 96) (part : Nat) (blanks : List (Nat × Nat)) (soft : Soft)
  | codewordReady (id : Nat) (cw : Nat)
  /-- The hard decisions and iterations of a codeword; of a standard PHY the PSDU's bits, with `iters` 0 for a PSDU without
  FEC. -/
  | decodeDone (id : Nat) (cw : Nat) (bits : List Bool) (iters : Nat) (reliability : Nat)
  | decodeAbandon (id : Nat) (cw : Nat)
  -- mesh
  | securedFrameRx (a : AirFrame)
  /-- The acknowledgement that the watch of R420 received, if any. -/
  | downlinkAckRx (handle : Nat) (ack : Option AirFrame)
  | joinRequest (a : AirFrame)
  | joinTimeout (handle : Nat)
  | borderPacket (d : Fin 64) (packet : Bytes)
  | reasmTimeout (handle : Nat) (tag : Nat)
  | nodeSendDeadline (fn : Fin 17) (tag : Nat)
  | distEnd (d : Fin 64)
  | nodeStoreScrub (handle : Nat) (uncorrectable : Bool)
  -- MRAM
  | mramCommitDone
  | keyStoreCommit
  | journalCompaction
  -- radio front end
  | echoSend (site : Fin 96)
  /-- An antenna (0, 1 L; 2, 3 H; 4 V) over the last second: unblanked samples, those at the limit, and the median noise
  power of the band's bins in units of 1/1000 dBFS (R310). -/
  | gainDecision (site : Fin 96) (antenna : Fin 5) (total clipped : Nat) (medianMdb : Int)
  /-- Mean power of each bin that yields a value, of antenna 0's samples as the PRU sent them, in 0.25 dBm at the antenna where its gain
  is 30 dB (R311, R315). -/
  | floorPeriod (site : Fin 96) (band : Fin 3) (powers : List (Nat × Int))
  | floorWindowEnd (site : Fin 96) (band : Fin 3)
  | tunerStepIssue (site : Fin 96) (band : Fin 3)
  /-- The body of HELLO and the source address of its frame. -/
  | dcwHello (site : Fin 96) (body : Bytes) (mac : Nat)
  | dcwReady (site : Fin 96) (body : Bytes)
  | dcwAck (site : Fin 96) (body : Bytes)
  | dcwTunerReport (site : Fin 96) (band : Fin 3) (body : Bytes)
  | dcwStatus (site : Fin 96) (body : Bytes)
  /-- The body, and the PCS timestamps of the ECHO as sent and of the reply as received, in ns. -/
  | dcwEchoReply (site : Fin 96) (body : Bytes) (sentNs rxNs : Nat)
  | dcwPruAlarm (site : Fin 96) (body : Bytes)
  | dcwRetryTimeout (site : Fin 96) (wseq : Nat)
  | pruLoadTimeout (site : Fin 96) (stage : Fin 4)
  | statusTimeout (site : Fin 96)
  | basebandLaneFault (lane : Fin 104)
  | basebandLaneRetestDone (lane : Fin 104) (pass : Bool)
  | linkHoldExpiry (site : Fin 96)
  -- pair
  | pairHello (payload : Bytes)
  /-- The sender's mode, SYNCED and fault flags, and the highest CSEQ it has received in order. -/
  | pairHeartbeat (mode : Fin 8) (synced faults : Bool) (cseq : BitVec 32)
  /-- The digests of the ports whose digest is not 0, of one epoch. -/
  | pairDigest (epoch : Nat) (digests : List (Fin 256 × BitVec 64))
  | pairArbitrate (m : ArbMsg)
  | pairEquinoxMsg (m : EqxMsg)
  | pairCommand (opcode : BitVec 16) (r : Aci) (release : Nat)
  /-- The partner's status of a carried command, at its check or, of an ACCEPTED command, its final one (R547). -/
  | pairCheck (fn : Fin 17) (tag : BitVec 12) (final : Bool) (status : BitVec 16) (sub : Byte)
  | pairEffect (release : Nat) (e : FwEffect)
  | pairMeasure (release : Nat) (m : Measure)
  | pairLearn (release : Nat) (pipe : Fin 8) (m : LearnMsg)
  | pairRetire (release : Nat) (cell : BitVec 20) (port : Fin 256)
  | pairSeed (release : Nat) (seed : BitVec 128)
  | pairInject (release : Nat) (x : Injected)
  | pairKey (payload : Bytes)
  | pairState (payload : Bytes)
  | pairCellResend
  | pairLinkTimeout
  | pairLaneFail (lane : Fin 8)
  | compareEpoch
  | selfCheckDone (fault : Bool)
  | selfCheckTimeout
  | syncPhaseDone
  | syncConvergeTimeout
  | activeInFall
  | takeoverWaitExpiry
  | partnerAliveLost
  | activeConflict
  | backoffExpiry
  | equinoxNotice
  | equinoxDecision
  | equinoxEnter
  | radioStartHold
  | equinoxSwap
  | equinoxConfirmTimeout
  | equinoxComplete
  | equinoxAbort
  -- self-test
  | pipeTestStart
  | pipeTestDone (pass : Bool)
  | bistRunDone (pass : Bool)
  -- Service Port
  | astOpen (frame : Bytes)
  | astData (frame : Bytes)
  | astEnd (frame : Bytes)
  | astAbort (frame : Bytes)
  | astAckTimer
  | sessionTimeout
  | installDone
  -- observation
  | snapshotPeriodExpiry
  | snapshotPublished
  | traceFrameSend
  | traceSampleTimer
  | sensorRead (v : SensorReading)
  -- lanes, links, pins and functions
  | laneLockLost (lane : Fin 512)
  | laneLockAcquired (lane : Fin 512)
  | pairLinkUp
  | refclkLost (tile : Fin 9)
  | pciePerstRelease
  | busMasterEnable (f : Fin 17) (bit : Bool)
  | servicePortModeTimer
  | servicePortForeignFrame (frame : Bytes)
  deriving DecidableEq, Repr

end Sys2Proof
end

