-- ==== Sys2Proof/Config.lean ====
section
/-! DEFINITION. What the spec leaves open or leaves to a published standard whose value no statement needs: opaque
constants without a body. Nothing in Lean can evaluate one or prove a value of it (log entries 2 and 3). -/

namespace Sys2Proof

/-- What a subcarrier of a LOFDM symbol carries: nothing; the point (re + j im) / √norm; or tone i of P1,
√(104/12) × exp(jπ i² / 12) (R348, R352). -/
inductive Tone where
  | zero
  | point (re im : Int) (norm : Nat)
  | chirp (i : Nat)
  deriving DecidableEq, Repr

/-- What a downlink burst carries: a PSDU of a standard PHY, or the symbols of a LOFDM frame, each with its 128 subcarriers from
-64 up. -/
inductive Modulated where
  | psdu (b : Bytes)
  | symbols (l : List (List Tone))
  deriving DecidableEq, Repr

/-- The regions that the BSC marks secure (R490). -/
inductive SecureArea where
  | fuses
  | drbg
  | bootRecord
  | keyStore
  | cleanMark
  | bscSram
  | regionMap
  | ownershipMap
  deriving DecidableEq, Repr

end Sys2Proof

namespace Sys2Proof.Config

/-- A fresh unconstrained number for each draw: the state's draw counter is the argument. -/
opaque freeNat : Nat → Nat

/-- The DRBG's output octets (R507): the draw counter and how many octets. -/
opaque drbg : Nat → Nat → Bytes

/-- AES-CMAC (RFC 4493): key and message. -/
opaque cmac : Bytes → Bytes → Bytes

/-- AES-CCM* decryption with an eight-octet MIC: key, nonce, associated data, message with MIC; none when the MIC fails. -/
opaque ccmOpen : Bytes → Bytes → Bytes → Bytes → Option Bytes

/-- AES-CCM* encryption: octets of the MIC, key, nonce, associated data, message; the result carries the MIC. -/
opaque ccmSeal : Nat → Bytes → Bytes → Bytes → Bytes → Bytes

/-- AES-256-GCM decryption: key, IV, associated data, ciphertext with tag; none when the tag fails. -/
opaque gcmOpen : Bytes → Bytes → Bytes → Bytes → Option Bytes

/-- AES-256-GCM encryption. -/
opaque gcmSeal : Bytes → Bytes → Bytes → Bytes → Bytes

/-- SHA-256 and SHA-384 digests. -/
opaque sha256 : Bytes → Bytes
opaque sha384 : Bytes → Bytes

/-- ECDSA verification on P-256: public key, digest, signature. -/
opaque ecdsa256 : Bytes → Bytes → Bytes → Bool

/-- ECDSA verification on P-384 under Calinven signing key i: key number, digest, signature. -/
opaque ecdsa384 : Nat → Bytes → Bytes → Bool

/-- ECDSA verification on P-384 under a stored public key: key, digest, signature. -/
opaque verify384 : Bytes → Bytes → Bytes → Bool

/-- X25519: scalar and u-coordinate. -/
opaque x25519 : Bytes → Bytes → Bytes

/-- ECDH on P-256: private scalar and peer point. -/
opaque ecdh256 : Bytes → Bytes → Bytes

/-- The public point of a P-256 private scalar. -/
opaque p256Public : Bytes → Bytes

/-- The Device Root of this device (R492), which fuses hold and no one reads. -/
opaque deviceRoot : Bytes

/-- The clockIdentity of the device's PTP clocks (IEEE 1588), eight octets. -/
opaque clockIdentity : Bytes

/-- The Image Key KI of stepping B (R602), and the SHA-384 digests of the four Calinven signing keys. -/
opaque imageKey : Bytes
opaque signKeyDigest : Nat → Bytes

/-- SOURCE of the trace records of a TYPE (R652), which the spec does not give. -/
opaque traceSource : Nat → Nat

/-- Cells that a message of the Pair Link takes beyond its first (R540, R541): type and CSEQ. The payloads of all but
HELLO and KEY are the release's own. -/
opaque pairCells : Nat → Nat → Nat

/-- Output of a generator of R551: AES-128 under the pair seed of a counter block of generator number and output number. -/
opaque pairOutput : Bytes → Nat → Nat → Nat

/-- The latency in ps that the PCS of a port mode adds to its timestamps, of egress (true) or ingress (R116, log entry 96). -/
opaque pcsLatencyPs : Nat → Bool → Int

/-- How many radio requests the holding area of R24 takes. -/
opaque holdingMax : Nat

/-- BASE, PAGES, READ_MASK and WRITE_MASK of entry i of the region map (R489), and what it spans of the areas that R490 names. The
spec gives no region its addresses. -/
opaque regionBase : Nat → Nat
opaque regionPages : Nat → Nat
opaque regionRead : Nat → Nat
opaque regionWrite : Nat → Nat
opaque regionArea : Nat → Option SecureArea

/-- SECURE of the MRAM controller in the block ownership map, which both worlds share (R488; log entry 128). -/
opaque mramSecure : Bool

/-- One block of AES-256: key and block (R497). -/
opaque aes256 : Bytes → Bytes → Bytes

/-- What a slot whose TAG fails holds as TAG (R498): slot number and GEN. -/
opaque brokenTag : Nat → Nat → Bytes

/-- clockClass of the radio ports while TB0 is LOCKED and instance 0 is not enabled, which R127 does not state. -/
opaque lockedRadioClass : Nat

/-- The RoE subType values that IEEE 1914.3 gives native time-domain data and control packets (R293). PRESUMED (log entry 122). -/
def roeData : Nat := 0x10
def roeControl : Nat := 0

/-- The useful 128 samples of a LOFDM symbol, whose power is brought from that of so many subcarriers to that of 104 (R346, R348). -/
opaque idft : List Tone → Nat → List (Int × Int)

/-- The raised-cosine edge of two samples: which of them, the sample that ends the symbol before, and the one that begins the next. -/
opaque edge : Nat → Int × Int → Int × Int → Int × Int

/-- One sample of the downlink stream, from samples that are interpolated by a factor: factor, remainder of the launch instant in the
sample grid, samples, and which one (R298, R346). -/
opaque interpolate : Nat → Nat → List (Int × Int) → Nat → Int × Int

/-- One sample of a PSDU under a standard PHY: PSDU, PHY code, remainder of the launch instant in the sample grid, and which one. -/
opaque stdSample : Bytes → Nat → Nat → Nat → Int × Int

/-- A NODE_READ meets 16 failed tries of the sequence lock (R443): by the draw counter. -/
opaque snapshotFails : Nat → Bool

/-- What the decoders leave open (log entry 124): which way a hard decision falls on 0, and which way a quotient is rounded that is
not whole. -/
opaque hardZero : Nat → Bool
opaque roundsUp : Int → Int → Bool

/-- Symbols a second of a PHY code of the standard PHYs. -/
opaque symbolRate : Nat → Nat

/-- Number formats of the equalisers, which R345 leaves open (log entry 109): a tap as detection resets it, by PHY code, feedback
or not, and its number; the output of the taps in units of the reference, from the exact sum; and the increment of a tap for the
product of error and input times 2^-n. -/
opaque tapStart : Nat → Bool → Nat → Int × Int
opaque dfeScale : Int → Int
opaque tapIncrement : Int → Nat → Int

/-- Values that SUN MR-OFDM sends for channel estimation and as pilots (IEEE 802.15.4-2020): PHY code and subcarrier; PHY code,
symbol and number of the pilot, with the place of its subcarrier. -/
opaque ofdmTraining : Nat → Nat → Int
opaque ofdmPilot : Nat → Nat → Nat → Nat × Int

/-- The unit of the CSL phase and period fields in ns under a PHY code (IEEE 802.15.4, ten symbol periods). -/
opaque cslUnitNs : Nat → Nat

/-- Air time in ns of a PSDU of so many bytes under a PHY code of the standard PHYs (R344, R396); bytes and code. -/
opaque stdAirNs : Nat → Nat → Nat

/-- Occupied bandwidth in Hz of a PHY code of the standard PHYs. -/
opaque stdBandwidth : Nat → Nat

/-- A standard PHY's code names a mode that the standard defines and R344 supports, on a band: band and code. -/
opaque stdSupported : Nat → Nat → Bool

end Sys2Proof.Config
end

