-- ==== Sys2Proof/Machine/AciTypes.lean ====
section
/-! DEFINITION. A command as the MGC works on it, and its answer (R73, R74, R80). -/

namespace Sys2Proof.Machine

/-- A command whose descriptor has been read: the function, the header fields and the payload bytes. -/
structure Req where
  fn : Nat
  opcode : Nat
  /-- TAG, plus 4,096 for each Function Level Reset of the function before the descriptor was read (R103; log entry 91). -/
  tag : Nat
  fence : Bool
  len : Nat
  buffer : Nat
  /-- The payload, LENGTH bytes, inline or from the host buffer. -/
  pl : Bytes
  /-- The partner carried it to this device, the standby (R545). -/
  carried : Bool := false
  /-- The instant at which the device read it, in ns on its function's base (R82, R429). -/
  readAt : Nat := 0
  deriving DecidableEq, Repr

/-- STATUS, SUBCODE and results of a command (R80). -/
structure Reply where
  status : Nat := 0
  sub : Nat := 0
  results : Bytes := []
  /-- The results lie in the command's host buffer (R73). -/
  inBuffer : Bool := false
  /-- The command is not answered yet: its response follows a later event. -/
  deferred : Bool := false
  deriving DecidableEq, Repr

/-- A command that has been read and waits for an earlier one of its function (R78), with what the board answers to an access
that it makes: an acknowledgement and data. -/
structure Waiting where
  req : Req
  ack : Bool := false
  data : Bytes := []
  deriving DecidableEq, Repr

/-- The first failure of a command's checks, STATUS and SUBCODE; none when it passes. -/
abbrev Chk := Option (Nat × Nat)

end Sys2Proof.Machine
end

