-- ==== Sys2Proof/Machine/Operands.lean ====
section
/-! DEFINITION. Operand fields: little-endian fields of descriptors, payloads, images and entries (R5), signed fields,
bit fields, and the same for network-order headers. -/

namespace Sys2Proof.Machine

/-- Byte `i` of a string as a number; zero beyond its end. -/
def byteAt (b : Bytes) (i : Nat) : Nat := (b.getD i 0).toNat

/-- A little-endian number (R5). -/
def leNat : Bytes → Nat
  | [] => 0
  | x :: xs => x.toNat + 256 * leNat xs

/-- A big-endian number, as network headers hold it. -/
def beNat (b : Bytes) : Nat := b.foldl (fun acc x => acc * 256 + x.toNat) 0

/-- `n` bytes from byte `off`, padded with zeros beyond the end. -/
def slice (b : Bytes) (off n : Nat) : Bytes :=
  let x := (b.drop off).take n
  x ++ List.replicate (n - x.length) 0

/-- The little-endian number of `n` bytes from byte `off`. -/
def leAt (b : Bytes) (off n : Nat) : Nat := leNat ((b.drop off).take n)

/-- The big-endian number of `n` bytes from byte `off`. -/
def beAt (b : Bytes) (off n : Nat) : Nat := beNat (slice b off n)

/-- Two's complement reading of a `w`-bit number. -/
def toSigned (w v : Nat) : Int := if 2 ^ (w - 1) ≤ v then (v : Int) - 2 ^ w else v

/-- Two's complement writing of an integer in `w` bits. -/
def ofSigned (w : Nat) (v : Int) : Nat := (v % ((2 ^ w : Nat) : Int)).toNat

/-- The signed little-endian number of `n` bytes from byte `off`. -/
def sleAt (b : Bytes) (off n : Nat) : Int := toSigned (8 * n) (leAt b off n)

/-- Bits [lo + w - 1 : lo] of a number. -/
def bits (v lo w : Nat) : Nat := v / 2 ^ lo % 2 ^ w

/-- Bit `i` of a number. -/
def bit (v i : Nat) : Bool := v / 2 ^ i % 2 == 1

/-- `n` little-endian bytes of a number. -/
def leBytes : Nat → Nat → Bytes
  | 0, _ => []
  | n + 1, v => BitVec.ofNat 8 v :: leBytes n (v / 256)

/-- `n` big-endian bytes of a number. -/
def beBytes (n v : Nat) : Bytes := (leBytes n v).reverse

/-- `n` little-endian bytes of a signed number. -/
def sleBytes (n : Nat) (v : Int) : Bytes := leBytes n (ofSigned (8 * n) v)

/-- A number as 0 or 1. -/
def b2n (b : Bool) : Nat := if b then 1 else 0

/-- A string cut or padded with zeros to `n` bytes. -/
def fit (n : Nat) (b : Bytes) : Bytes := slice b 0 n

/-- A field of an inline payload, by the descriptor's byte number (16 up). -/
def Req.f (r : Req) (off n : Nat) : Nat := leAt r.pl (off - 16) n

/-- The same, signed. -/
def Req.fs (r : Req) (off n : Nat) : Int := sleAt r.pl (off - 16) n

/-- Bits [lo + w - 1 : lo] of byte `off` of an inline payload. -/
def Req.fb (r : Req) (off lo w : Nat) : Nat := bits (r.f off 1) lo w

/-- Bit `i` of byte `off` of an inline payload. -/
def Req.fl (r : Req) (off i : Nat) : Bool := bit (r.f off 1) i

/-- A field of a payload in the host buffer, from the buffer's start. -/
def Req.b (r : Req) (off n : Nat) : Nat := leAt r.pl off n

/-- The same, signed. -/
def Req.bs (r : Req) (off n : Nat) : Int := sleAt r.pl off n

/-- Bits [lo + w - 1 : lo] of byte `off` of a payload in the host buffer. -/
def Req.bb (r : Req) (off lo w : Nat) : Nat := bits (r.b off 1) lo w

/-- Bit `i` of byte `off` of a payload in the host buffer. -/
def Req.bl (r : Req) (off i : Nat) : Bool := bit (r.b off 1) i

/-- All bits of `mask` in byte `off` of a string are zero. -/
def maskZero (b : Bytes) (m : Nat × Nat) : Bool := byteAt b m.1 &&& m.2 == 0

/-- Bytes `lo` to `hi` of a string are all zero. -/
def rangeZero (b : Bytes) (lo hi : Nat) : Bool := ((b.drop lo).take (hi + 1 - lo)).all (· == 0)

end Sys2Proof.Machine
end

