-- ==== Sys2Proof/Machine/Flags.lean ====
section
/-! DEFINITION. Flags, latches, counts and checks: the access codes of registers (R7, R10), wrapping and saturating
counts (R12), and the check codes that the spec names (CRC-32, CRC-32C, CRC-64, CRC-8, inverted sums). -/

namespace Sys2Proof.Machine

/-- W1C: a 1 written clears the bit (R7). -/
def w1c (b : Bool) (word : Nat) (i : Nat) : Bool := b && !bit word i

/-- A counter of `w` bits, `n` further on (R12). -/
def wrapAdd (w v n : Nat) : Nat := (v + n) % 2 ^ w

/-- A saturating counter of `w` bits (R12). -/
def satAdd (w v n : Nat) : Nat := min (v + n) (2 ^ w - 1)

/-- A value held within limits. -/
def clampInt (lo hi v : Int) : Int := if v < lo then lo else if hi < v then hi else v

/-- A number held within limits. -/
def clampNat (lo hi v : Nat) : Nat := if v < lo then lo else if hi < v then hi else v

/-- One step of a reflected CRC. -/
def crcBit (poly c : Nat) : Nat := if c % 2 == 1 then (c / 2) ^^^ poly else c / 2

/-- Eight steps. -/
def crcByte (poly c : Nat) (b : Byte) : Nat :=
  let c := c ^^^ b.toNat
  crcBit poly (crcBit poly (crcBit poly (crcBit poly (crcBit poly (crcBit poly (crcBit poly (crcBit poly c)))))))

/-- A reflected CRC of `w` bits with all-ones preset and final inversion. -/
def crcRefl (w poly : Nat) (b : Bytes) : Nat := (b.foldl (crcByte poly) (2 ^ w - 1)) ^^^ (2 ^ w - 1)

/-- The CRC-32 of IEEE 802.3. -/
def crc32 (b : Bytes) : Nat := crcRefl 32 0xEDB88320 b

/-- CRC-32C (Castagnoli). -/
def crc32c (b : Bytes) : Nat := crcRefl 32 0x82F63B78 b

/-- The ones' complement sum of 16-bit words in network order (IPv4, TCP, UDP checksums). -/
def onesSum : Bytes → Nat
  | a :: b :: rest =>
    let s := a.toNat * 256 + b.toNat + onesSum rest
    s % 65536 + s / 65536
  | [a] => a.toNat * 256
  | [] => 0

/-- The integer quotient rounded toward zero. -/
def truncDiv (a b : Int) : Int := Int.tdiv a b

/-- Sum of a list of numbers. -/
def sumNat (l : List Nat) : Nat := l.foldl (· + ·) 0

end Sys2Proof.Machine
end

