-- ==== Sys2Proof/Machine/Counters.lean ====
section
/-! DEFINITION. Every counter of the counter snapshot window: its block, its place in the window and its width
(R645, with the counter tables of R190, R243, R284, R336, R381, R434, R486, R528, R593, R625 and R653). -/

namespace Sys2Proof.Machine

/-- Block 1, in window order. -/
inductive PortCtr where
  | rxOctets | rxFramesOk | rxFcsErr | rxRunt | rxFragment | rxOversize | rxPause | rxRadioForeign | txOctets
  | txFrames | txStomped | txOversizeDrop | txLinkDownDrop | mmFragRx | mmFragTx | mmHold | mmAssemblyOk
  | mmAssemblyErr | mmSmdErr | linkDownEvents | fecCorrectedCw | fecUncorrectedCw | cellEccDrop | pairMismatch
  | equinoxLoss
  deriving DecidableEq, Repr

/-- Block 2. -/
inductive LaneCtr where
  | fecSymbolErr | lockLoss
  deriving DecidableEq, Repr

/-- Block 4. -/
inductive PipeCtr where
  | ipHdrDrop | vlanDrop | samePortDrop | macDrop | unknownDrop | noRouteDrop | nhDrop | puntNoringDrop | learnDrop
  | learnFail | macMoves | staticViolation | aged | macLearned | d2dPuntDrop | noCellDrop | ingressReserveDrop
  deriving DecidableEq, Repr

/-- Block 7. -/
inductive QueueCtr where
  | txFrames | txOctets | dropGreen | dropYellow | dropRed | flushed | lateDrop | lateSent | launchFarDrop | cells
  deriving DecidableEq, Repr

/-- Block 11. -/
inductive SiteCtr where
  | ulFrames | dlFrames | ulGapSamples | ulBlankedSamples | ulLatePkt | dlUnderrun | dlLate | dcwRetries | pruLoads
  | txRangeRefused | tunerSteps | detections | ctxOverflow | hdrFail | mapUnknown | psduLenErr | symbolsErased
  | combLate | fhDelayMaxNs | cwDecoded | iterations | cwFailed | convFrames
  deriving DecidableEq, Repr

/-- Block 13. -/
inductive DomainCtr where
  | combCopies1 | combCopies2 | combCopies3 | combCopies4 | tooLongDefer | tooLongDrop | ackSent | ackLate
  | ackConflict | rxWrongNode | cslTrains | cslTooWide | trapDecode | trapKeyed | trapRecal | trapFronthaul
  | slotsSkipped | slotsHeld | activations | joinClosed | joinMalformed | joinAuthFail | joinBadKey | joinQueueDrop
  | joinTimeout | rxBadIndex | rxDup | leaseWait | borderDrop | noNodeDrop | noRouteDrop | dlqFullDrop | dlqFlushed
  | txRetryDrop | reasmDrop | eventNowell
  deriving DecidableEq, Repr

/-- Block 18. -/
inductive DeviceCtr where
  | ppsInEarly | decOverrun | keyCommits | journalRecords | pairUnexplained | pairArbitrations | pairTakeovers
  | equinoxSwaps | equinoxAborts | equinoxSkips | fwMismatch | pairDivergedCmds | syncFlush | syncForced
  | pairCellResent | svcRxFrames | svcTxFrames | svcForeign | svcAuthFail | astDiscardedBlocks | traceRecords
  | traceLost | snapshots | bistRuns | bistFails | pipeTests
  deriving DecidableEq, Repr

/-- A counter: block, instance and place. -/
inductive Ctr where
  | port (p : Nat) (c : PortCtr)
  | lane (l : Nat) (c : LaneCtr)
  | ringSwitchLoss (k : Nat)
  | pipe (p : Nat) (c : PipeCtr)
  | ruleHits (r : Nat)
  /-- MIRROR_DROP (skip = false) or MIRROR_SKIP of a session. -/
  | mirror (m : Nat) (skip : Bool)
  | queue (q : Nat) (c : QueueCtr)
  /-- POL_GREEN, POL_YELLOW, POL_RED, POL_DROP: `c` 0 to 3. -/
  | policer (p : Nat) (c : Nat)
  /-- CELL_ECC_CORRECTED or CELL_ECC_UNCORRECTED of a logical bank. -/
  | bank (b : Nat) (uncorrected : Bool)
  | freeCells
  | site (n : Nat) (c : SiteCtr)
  /-- DWELL_REFUSED or DWELL_KEYED_US of a meter. -/
  | meter (m : Nat) (keyed : Bool)
  | domain (d : Nat) (c : DomainCtr)
  | worldViolations (m : Nat)
  | aesJobs (e : Nat)
  /-- ECC_JOBS (reason 0) and ECC_REJECTED by reason 1 to 6. -/
  | ecc (e : Nat) (reason : Nat)
  /-- NK_CACHE_HIT or NK_CACHE_MISS of a tenant. -/
  | nkCache (t : Nat) (miss : Bool)
  | device (c : DeviceCtr)
  deriving DecidableEq, Repr

/-- The directory of the window: block number, instances, counters per instance, window offset (R645). -/
def ctrBlocks : List (Nat × Nat × Nat × Nat) :=
  [(1, 256, 25, 0x10000), (2, 512, 2, 0x1D000), (3, 16, 1, 0x1F000), (4, 8, 17, 0x20000), (5, 16384, 1, 0x21000),
   (6, 16, 2, 0x41000), (7, 32768, 10, 0x42000), (8, 65536, 4, 0x2C2000), (9, 128, 2, 0x4C2000), (10, 1, 1, 0x4C3000),
   (11, 96, 23, 0x4C4000), (12, 74016, 2, 0x4C9000), (13, 64, 36, 0x5EB000), (14, 16, 1, 0x5F0000),
   (15, 32, 1, 0x5F1000), (16, 8, 7, 0x5F2000), (17, 16, 2, 0x5F3000), (18, 1, 26, 0x5F4000)]

/-- Instances, counters per instance and window offset of a block; none for a number that names no block. -/
def ctrBlock (b : Nat) : Option (Nat × Nat × Nat) :=
  (ctrBlocks.find? fun e => e.1 == b).map (·.2)

/-- The window slot (offset / 8) of counter `idx` of instance `inst` of block `b` (R645). -/
def ctrSlotAt (b inst idx : Nat) : Nat :=
  match ctrBlock b with
  | some (_, per, off) => off / 8 + inst * per + idx
  | none => 0

/-- Block, instance and index of a counter. -/
def Ctr.place : Ctr → Nat × Nat × Nat
  | .port p c => (1, p, c.ctorIdx)
  | .lane l c => (2, l, c.ctorIdx)
  | .ringSwitchLoss k => (3, k, 0)
  | .pipe p c => (4, p, c.ctorIdx)
  | .ruleHits r => (5, r, 0)
  | .mirror m skip => (6, m, if skip then 1 else 0)
  | .queue q c => (7, q, c.ctorIdx)
  | .policer p c => (8, p, c % 4)
  | .bank b u => (9, b, if u then 1 else 0)
  | .freeCells => (10, 0, 0)
  | .site n c => (11, n, c.ctorIdx)
  | .meter m k => (12, m, if k then 1 else 0)
  | .domain d c => (13, d, c.ctorIdx)
  | .worldViolations m => (14, m, 0)
  | .aesJobs e => (15, e, 0)
  | .ecc e r => (16, e, r % 7)
  | .nkCache t m => (17, t, if m then 1 else 0)
  | .device c => (18, 0, c.ctorIdx)

/-- The window slot of a counter. -/
def Ctr.slot (c : Ctr) : Nat := ctrSlotAt c.place.1 c.place.2.1 c.place.2.2

/-- The width of a counter in bits, as its table gives it. -/
def Ctr.width : Ctr → Nat
  | .port _ c =>
    match c with
    | .rxOctets | .rxFramesOk | .txOctets | .txFrames | .fecCorrectedCw | .fecUncorrectedCw => 64
    | _ => 32
  | .lane _ c => match c with | .fecSymbolErr => 64 | .lockLoss => 32
  | .ruleHits _ => 64
  | .queue _ c => match c with | .txFrames | .txOctets => 64 | .cells => 20 | _ => 32
  | .policer _ _ => 64
  | .freeCells => 21
  | .site _ c =>
    match c with
    | .ulFrames | .dlFrames | .ulGapSamples | .ulBlankedSamples | .detections | .symbolsErased | .cwDecoded
    | .iterations | .convFrames => 64
    | _ => 32
  | .meter _ k => if k then 64 else 32
  | .domain _ c =>
    match c with
    | .combCopies1 | .combCopies2 | .combCopies3 | .combCopies4 | .ackSent => 64
    | _ => 32
  | .aesJobs _ => 64
  | .nkCache _ _ => 64
  | .device c => match c with | .pairCellResent | .svcRxFrames | .svcTxFrames => 64 | _ => 32
  | _ => 32

end Sys2Proof.Machine
end

