-- ==== Sys2Proof/Machine/ElecTypes.lean ====
section
/-! DEFINITION. The state types of the pins, the supplies, the POWER and IDENT blocks and JTAG
(spec/16_electrical.md). -/

namespace Sys2Proof.Machine

/-- Signal pins: inputs as last presented by the board, outputs as driven. -/
structure Pins where
  pairIdPin : Bool := false
  /-- PAIR_ID as sampled at the latest M1 entry (R662). -/
  pairId : Bool := false
  activeIn : Bool := false
  aliveIn : Bool := false
  activeOut : Bool := false
  aliveOut : Bool := false
  /-- BYPASS_HOLD[k]. -/
  bypassHold : Tab Bool := []
  ppsOut : Bool := false
  /-- THERMTRIP_N driven low. -/
  thermtrip : Bool := false
  /-- REFCLK0-7 and REFCLK_RC present and within 200 ppm (R672). -/
  refclkTile : BitVec 8 := 0xFF
  refclkRc : Bool := true
  /-- GPIO pulses that R185 gave on a reset line, newest first. -/
  gpioPulses : List Nat := []
  /-- The 10 MHz input is present (R131). -/
  freq10m : Bool := true
  deriving DecidableEq, Repr

/-- The POWER block (R682). -/
structure Power where
  railInRange : BitVec 10 := 0x3FF
  railFault : BitVec 10 := 0
  warnActive : Bool := false
  hbmWarnActive : Bool := false
  tempCore : BitVec 16 := 0
  tempRc : BitVec 16 := 0
  tempReservoir : BitVec 16 := 0
  tempPeak : BitVec 16 := 0
  /-- A reading has come since TEMP_PEAK was last read or the M1 entry. -/
  peakAny : Bool := false
  warnC : Nat := 100
  hbmWarnC : Nat := 90
  warnHit : Bool := false
  hbmWarnHit : Bool := false
  tripSeen : Bool := false
  watts : BitVec 16 := 0
  railMv : List Nat := []
  deriving DecidableEq, Repr

/-- The fuses (R492, R602, R681). -/
structure Fuses where
  /-- Bit i: Calinven signing key i is revoked. -/
  revoked : BitVec 4 := 0
  rootProgrammed : Bool := true
  serial : BitVec 64 := 0
  serviceMac : BitVec 48 := 0
  deriving DecidableEq, Repr

/-- JTAG: the instruction register and the boundary register (R684). -/
structure Jtag where
  ir : BitVec 4 := 1
  boundary : BitVec 140 := 0
  deriving DecidableEq, Repr

end Sys2Proof.Machine
end

