-- ==== Sys2Proof/Machine/UpdTypes.lean ====
section
/-! DEFINITION. The state types of the boot flash, the running set, the Service Port and its sessions
(spec/14_update.md). -/

namespace Sys2Proof.Machine

/-- A valid commit record of a bank (R598). -/
structure CommitRec where
  seq : Nat
  digest : Bytes
  len : Nat
  deriving DecidableEq, Repr

/-- One bank of the boot flash (R597): its commit record, none when it is not valid, and the bundle's bytes. -/
structure FlashBank where
  rec_ : Option CommitRec := none
  data : Bytes := []
  deriving DecidableEq, Repr

/-- The set that runs, as its bundle's header and matrix row give it (R54, R599 to R601). -/
structure ImageSet where
  major : Nat
  minor : Nat
  setVersion : Nat
  /-- Accepted range of Kalxus FORMAT_MINOR. -/
  kalxusMin : Nat
  kalxusMax : Nat
  blobFrom : List Nat
  partners : List Nat
  signKey : Nat
  revoke : Nat
  /-- PRU images: MODEL, HW_REV and bytes. -/
  pru : List (Nat × Nat × Bytes)
  /-- Measurement digest D, and the Measured Root derived from it (R51). -/
  digest : Bytes
  /-- The set holds a component of TYPE 8 (R611). -/
  steps : Bool
  deriving DecidableEq, Repr

/-- A transfer session (R603 to R608). -/
structure Session where
  number : Nat
  /-- KIND 1: a node image. -/
  node : Bool
  /-- Target bank of KIND 0: false A. -/
  bank : Bool := false
  slot : Nat := 0
  owner : Nat := 16
  total : Nat
  /-- Private and public key of the device. -/
  priv : Bytes
  pub : Bytes
  /-- TOOL_PUB, the key KT and the tool's address, once bound. -/
  bound : Option (Bytes × Bytes × Bytes) := none
  /-- 1 awaiting OPEN, 2 transferring, 3 received, 4 installing (R619). -/
  state : Nat := 1
  /-- Blocks and bytes received in order. -/
  blocks : Nat := 0
  bytes : Nat := 0
  /-- Blocks that the latest ACK acknowledged. -/
  acked : Nat := 0
  /-- The UPDATE_INSTALL that runs, with IGNORE_PARTNER. -/
  install : Option (Nat × Nat × Bool) := none
  deriving DecidableEq, Repr

/-- A node image that UPDATE_INSTALL has made usable (R614): owner and bytes. -/
structure NodeImage where
  owner : Nat
  data : Bytes
  deriving DecidableEq, Repr

/-- The Service Port (R595, R596) and its session. -/
structure Service where
  /-- Mode tried or in use: 0 1000BASE-X, 1 to 3 SGMII at 10, 100, 1,000 Mbit/s; and whether a link is up. -/
  mode : Nat := 0
  linkUp : Bool := false
  session : Option Session := none
  /-- LAST_END (R619). -/
  lastEnd : Nat := 0
  /-- The node image that arrives: slot, owner and bytes so far; on a standby, as carried (R614). -/
  stage : Option (Nat × Nat × Bytes) := none
  /-- Frames sent, newest first: destination address and payload from OP on. -/
  sent : List (Bytes × Bytes) := []
  deriving DecidableEq, Repr

end Sys2Proof.Machine
end

