-- ==== Sys2Proof/Machine/HostTypes.lean ====
section
/-! DEFINITION. The state types of the modes, the boot records, the mailboxes, the host rings, the Wells and MSI-X
(spec/02_modes_and_start.md, spec/03_host_interface.md, spec/01_architecture.md). -/

namespace Sys2Proof.Machine

/-- The eight modes (R39). -/
inductive Mode where
  | m0 | m1 | m2 | m3 | m4 | m5 | m6 | m7
  deriving DecidableEq, Repr

/-- One response descriptor as written into a function's response ring (R74). -/
structure Resp where
  slot : Nat
  phase : Bool
  tag : Nat
  status : Nat
  sub : Nat
  inBuffer : Bool
  results : Bytes
  deriving DecidableEq, Repr

/-- A command that is in flight, or ACCEPTED without its completion event (R76, R79). -/
structure CmdRef where
  tag : Nat
  opcode : Nat
  fence : Bool
  /-- Of a KEY command: the key slot that it names (R78). -/
  object : Nat := 0
  /-- It is carried in a pair (R545), and this device answers it. -/
  carried : Bool := false
  own : Bool := true
  /-- Once ACCEPTED: the completion Well as it was then (R95). -/
  well : Option Nat := none
  deriving DecidableEq, Repr

/-- The mailbox registers of one function (R71), the doorbell counts (R72) and what its rings hold. -/
structure Mbox where
  enable : Bool := false
  rspIrqEn : Bool := false
  errIrqEn : Bool := false
  dmaError : Bool := false
  doorbellError : Bool := false
  configError : Bool := false
  cmdBase : BitVec 64 := 0
  cmdLog2 : BitVec 4 := 0
  rspBase : BitVec 64 := 0
  rspLog2 : BitVec 4 := 0
  cmdHead : BitVec 16 := 0
  rspTail : BitVec 16 := 0
  complWell : BitVec 10 := 0
  complValid : Bool := false
  rspVector : BitVec 8 := 0
  errVector : BitVec 8 := 0
  modCount : BitVec 8 := 1
  modTimeUs : BitVec 16 := 0
  busyCount : BitVec 32 := 0
  /-- The host's counts as last taken (R72). -/
  cmdTail : BitVec 16 := 0
  rspHead : BitVec 16 := 0
  /-- Responses written since the response vector was last raised (MBOX_MOD). -/
  unraised : Nat := 0
  /-- Commands read and not yet answered; their number is INFLIGHT. -/
  inflight : List CmdRef := []
  /-- Commands answered ACCEPTED whose completion event is not yet made. -/
  accepted : List CmdRef := []
  /-- Commands in flight that have not started, oldest first: FENCE or an earlier command of their group holds them (R78). -/
  waiting : List Waiting := []
  /-- Function Level Resets so far (log entry 91). -/
  life : Nat := 0
  /-- Responses written since ENABLE, newest first. -/
  responses : List Resp := []
  /-- Responses that wait for Bus Master Enable, newest first, with their tags (R67). -/
  heldRsp : List (Nat × Reply) := []
  /-- TENANT_RESET holds the reading of the command ring (R35). -/
  tenantHeld : Bool := false
  deriving DecidableEq, Repr

/-- A frame on its way to a punt ring (R99, R100). -/
structure PuntFrame where
  bytes : Bytes
  reason : Nat
  /-- Ingress port, or 0x8000 + site. -/
  source : Nat
  rule : Nat
  /-- Ingress PCS timestamp in ns, when valid. -/
  stamp : Option Nat
  /-- The pipe whose crossing reserve it takes (R249). -/
  pipe : Nat := 0
  /-- Bytes already arrived. -/
  arrived : Nat := 0
  deriving DecidableEq, Repr

/-- A punt descriptor as completed by the device (R99), with the buffer's bytes. -/
structure PuntDesc where
  slot : Nat
  phase : Bool
  length : Nat
  sof : Bool
  eof : Bool
  discard : Bool
  reason : Nat
  source : Nat
  frameLen : Nat
  stamp : Option Nat
  rule : Nat
  data : Bytes
  deriving DecidableEq, Repr

/-- One punt or inject ring of a function (R71, R98 to R102). -/
structure Ring where
  configured : Bool := false
  enable : Bool := false
  log2 : Nat := 0
  bufUnits : Nat := 0
  vector : Nat := 0
  irqEn : Bool := false
  base : Nat := 0
  /-- PUNT_HEAD or INJ_HEAD. -/
  head : BitVec 16 := 0
  /-- PUNT_TAIL or INJ_TAIL as last taken. -/
  tail : BitVec 16 := 0
  truncDrop : BitVec 32 := 0
  nobufDrop : BitVec 32 := 0
  injError : BitVec 32 := 0
  /-- Frames that cross the die-to-die interface for this ring, oldest first. -/
  frames : List PuntFrame := []
  /-- Buffers written for the frame in hand, oldest first. -/
  bufs : List Bytes := []
  /-- The frame in hand is dropped; its later cells are discarded (R100). -/
  dropping : Bool := false
  /-- Descriptors written back, newest first. -/
  written : List PuntDesc := []
  /-- INJ_STATUS values written, newest first: slot and code. -/
  statuses : List (Nat × Nat) := []
  deriving DecidableEq, Repr

/-- A Well entry (R88), less SEQ and POISON while it is staged. -/
structure WellEntry where
  seq : Nat
  poison : Bool := false
  source : Nat
  type : Nat
  timeS : Nat
  timeNs : Nat
  body : Bytes
  deriving DecidableEq, Repr

/-- A Well's control block (R87), its two banks, its staging FIFO and its waiting entries. -/
structure Well where
  enable : Bool := false
  notice : Bool := false
  log2 : Nat := 7
  vector : Nat := 0
  timeBase : Nat := 0
  bank0 : BitVec 64 := 0
  bank1 : BitVec 64 := 0
  mark : BitVec 16 := 1
  fillBank : Bool := false
  /-- Entries of the fill bank, newest first; their number is FILL_COUNT. -/
  fill : List WellEntry := []
  /-- Entries of the closed, undrained bank, newest first; their number is READY_COUNT. -/
  ready : List WellEntry := []
  readyGen : BitVec 16 := 0
  levelHit : Bool := false
  closeRefused : Bool := false
  overwritten : Bool := false
  lost : BitVec 32 := 0
  poisoned : BitVec 32 := 0
  total : BitVec 32 := 0
  nextSeq : BitVec 32 := 0
  creditOut : Nat := 0
  /-- Entries that the Pump has still to write, oldest first. -/
  staged : List WellEntry := []
  /-- Entries of a credit Well that wait for credit or for ENABLE, oldest first (R92). -/
  waiting : List WellEntry := []
  deriving DecidableEq, Repr

/-- Who owns a Well and by which slot (R85, R86): tenant, slot, fault role. -/
structure WellOwner where
  tenant : Nat
  slot : Nat
  fault : Bool
  deriving DecidableEq, Repr

/-- One entry of a function's MSI-X table with its pending bit (R97). -/
structure MsixVec where
  addr : BitVec 64 := 0
  data : BitVec 32 := 0
  masked : Bool := true
  pending : Bool := false
  deriving DecidableEq, Repr

/-- State of an entry that is written at most once a second (R697). -/
structure Paced where
  /-- Well, source, type and body of the entry; the event count goes to `countAt`. -/
  well : Nat
  source : Nat
  type : Nat
  body : Bytes
  /-- Offset in the body and width in bytes of the event count; width 0 for an entry with no count. -/
  countAt : Nat
  countLen : Nat
  /-- Events since the previous entry of the key was written. -/
  events : Nat
  /-- The second after the latest entry is still running. -/
  running : Bool
  deriving DecidableEq, Repr

/-- The entry of a tenant that TENANT_RESET has reset, held until its fault Well is enabled (R31). -/
structure Notice where
  tenant : Nat
  source : Nat
  type : Nat
  body : Bytes
  deriving DecidableEq, Repr

/-- The host interface. -/
structure HostIf where
  /-- Mailbox of each function 0-16. -/
  mbox : Tab Mbox := []
  /-- Punt and inject rings, by 64 x function + number. -/
  punt : Tab Ring := []
  inject : Tab Ring := []
  /-- Wells 0-1023. -/
  wells : Tab Well := []
  /-- MSI-X vectors by 256 x function + vector. -/
  msix : Tab MsixVec := []
  /-- MSI-X messages sent, newest first: function and vector. -/
  messages : List (Nat × Nat) := []
  /-- The function whose turn it is at MGC0 and at MGC1, which serve their functions round-robin (R33, R78). -/
  turn0 : Nat := 0
  turn1 : Nat := 9
  /-- Bus Master Enable of each function (R67). -/
  busMaster : Tab Bool := []
  /-- Paced entries by key (R697). -/
  paced : Tab (Option Paced) := []
  /-- PF0's PCIe endpoint is held in reset by PCIE_PERST_N (R665). -/
  perst : Bool := false
  /-- The data that the last register read, or JTAG shift, gave. -/
  readData : Nat := 0
  /-- A VF's TENANT_RESET entry that waits for the host to enable the tenant's fault Well (R31). -/
  tenantNotice : List Notice := []
  /-- Responses that the device wrote last before a reset that a command began, with their functions, and the body of the
  MODE_CHANGE entry of T3: they lie in host memory, and the rings and Wells that took them are gone (R62, R63). -/
  parting : List (Nat × Resp) := []
  partingEntry : Bytes := []
  deriving DecidableEq, Repr

/-- One entry of the region map (R489). SECURE is set for the areas that R490 names and for no other. -/
structure Region where
  base : Nat
  pages : Nat
  area : Option SecureArea
  readMask : Nat
  writeMask : Nat
  deriving DecidableEq, Repr

/-- The two maps that the BSC writes and locks at step 4 of the boot chain (R51, R488 to R490): SECURE of the blocks 0-26 of R526,
and the entries. -/
structure WorldMaps where
  blocks : List Bool := []
  regions : List Region := []
  locked : Bool := false
  deriving DecidableEq, Repr

/-- Registers of the MODE block (R41) and what the mode machinery holds. -/
structure Modes where
  mode : Mode
  inTransition : Bool := false
  standbyHeld : Bool := false
  synced : Bool := false
  unclean : Bool := false
  safeCause : Nat := 0
  reqResult : Nat := 0
  /-- RESET_CAUSE, in the always-on domain. -/
  resetCause : BitVec 8
  /-- BOOT_STATUS: the running bank (false A). -/
  bank : Bool := false
  blobVersion : Nat := 0
  setVersion : Nat := 0
  /-- The set that runs, once a bank has booted (R51). -/
  running : Option ImageSet := none
  /-- BANK_REJECTED entries of this M1 BOOT (R624): bank, reason and TRIED. -/
  rejected : List (Nat × Nat × Nat) := []
  /-- The blob in force is of an older version, from which M2 MIGRATE converts it (R56, R610). -/
  migrating : Bool := false
  /-- The store was rewrapped in this M1 BOOT (R501): how many Tenant Root slots, and the slots marked UNUSABLE. -/
  rewrapped : Option (Nat × List Nat) := none
  /-- The block ownership map and the region map, which every M1 entry clears and unlocks. -/
  maps : WorldMaps := {}
  startMs : Nat := 0
  /-- Duration counter at the latest M1 entry that START_MS counts from. -/
  entryAt : Nat := 0
  /-- Mode-change entries that wait for the processors to be loaded (R44). -/
  noted : List Bytes := []
  /-- Bases that the latest warm reset moved to HOLDOVER, with the state left: their entries wait for the processors (R155). -/
  holdovers : List (Nat × Nat) := []
  /-- Boot step reached: 0 at the M1 entry, 1 before step 5, 2 slices tested, 3 processors loaded, 4 waiting for ACTIVE_IN
  (T8, T9). -/
  bootStep : Nat := 0
  /-- Cause of M7 SAFE that the boot chain found before its end (T10), 0 none. -/
  bootSafe : Nat := 0
  /-- The cause that the blobs call for in this M1 BOOT: CONFIG_INVALID or SETTINGS_VERSION (R51, R58); then no blob is in force. -/
  blobCause : Nat := 0
  /-- Causes of the core-die faults of this M1 BOOT, whose LEVEL_FAULT entries wait for the MGCs (R695). -/
  dieFaults : List Nat := []
  /-- In M0: a main rail went out of range, so that the rails must rise before T4 (R42). -/
  railsLost : Bool := false
  /-- Rails, RESET_N and PFW_N let T4 be taken: false after SYS_SHUTDOWN until a new edge (R63). -/
  armed : Bool := true
  /-- The set running has become last known good (R53). -/
  lkg : Bool := false
  deriving DecidableEq, Repr

/-- Boot record of one bank, in MRAM (R53). -/
structure BootRec where
  tried : Nat := 0
  lkg : Bool := false
  failed : Bool := false
  deriving DecidableEq, Repr

/-- The processors of R21: 0 BSC, 1 MGC0, 2 MGC1, 3 TMC, 4-7 MCC0-3, 8 PRC. -/
structure Processors where
  loaded : Bool := false
  /-- Processors being reloaded. -/
  reloading : List Nat := []
  /-- Radio requests held while an MCC reloads, oldest first (R24): a join request (true) or a frame with reports. -/
  held : List (Bool × AirFrame) := []
  /-- Requests dropped because the holding area was full (R24). -/
  heldLost : Nat := 0
  deriving DecidableEq, Repr

end Sys2Proof.Machine
end

