-- ==== Sys2Proof/Machine/RadioTypes.lean ====
section
/-! DEFINITION. The state types of sites, front-end control and dwell meters (spec/08_radio_sites.md), of images and the
schedule engine (spec/10_schedule_engine.md), and of the modem (spec/09_modem.md). -/

namespace Sys2Proof.Machine

/-! ### Sites -/

/-- A PHY code with the frequency of its channel above it: the operating mode of MR-FSK is a row of the table of the band that holds the
frequency (R396). -/
def phyCode (freq phy : Nat) : Nat := phy % 65536 + 65536 * freq

/-- Settings of a site (R330). -/
structure SiteCfg where
  bandEn : Nat := 7
  gainFixed : Nat := 0
  tunerEn : Bool := true
  fixedGain : List Nat := [0, 0, 0]
  /-- FLOOR_REF per band as written; 0x8000 is the default. -/
  floorRef : List Nat := [0x8000, 0x8000, 0x8000]
  marginQdb : Nat := 24
  rlAlarm : Nat := 24
  rlTarget : Nat := 56
  blank : Bytes := [0, 0, 0, 0, 0, 0, 0, 0, 0, 0, 0, 0, 0, 0, 0, 0]
  deriving DecidableEq, Repr

/-- Dwell plan of a site and band (R317, R331). -/
structure DwellPlan where
  f0 : Nat := 0
  spacing : Nat := 1000
  count : Nat := 0
  wMs : Nat := 1000
  budget : Nat := 1000000
  oop : Nat := 1000000
  deriving DecidableEq, Repr

/-- The states of R325. -/
inductive SiteState where
  | down | loading | syncing | inService | fault
  deriving DecidableEq, Repr

/-- A DCW word that waits for its ACK (R303): WSEQ, the word, how often it was sent, and whether it belongs to a load. -/
structure DcwWait where
  wseq : Nat
  word : Bytes
  sends : Nat
  deriving DecidableEq, Repr

/-- Noise floor of one band (R315): per bin the minimum of the running window and of the one before, in 0.25 dBm, the
floors at the last window end, and its seconds. -/
structure Floor where
  running : Tab (Option Int) := []
  previous : Tab (Option Int) := []
  floors : Tab (Option Int) := []
  elevated : Nat := 0
  endS : Nat := 0
  deriving DecidableEq, Repr

/-- Mismatch and tuner state of one band (R313, R314). -/
structure Tuner where
  /-- Latest RL in 0.25 dB. -/
  rl : Option Int := none
  low : Nat := 0
  high : Nat := 0
  alarm : Bool := false
  dirUp : Bool := true
  /-- RL at the latest step. -/
  stepped : Option Int := none
  /-- A report has come since the latest step. -/
  mayStep : Bool := true
  /-- Duration count at the latest step. -/
  stepAt : Option Nat := none
  deriving DecidableEq, Repr

/-- One uplink stream (R295, R297): the newest sample received as an absolute index; of the frames of the last 1 ms the first and the
last sample and the PCS ingress timestamp; and frames that are missing, by their first sample's index. -/
structure UlStream where
  newest : Option Nat := none
  stamps : List (Nat × Nat × Nat) := []
  missing : List Nat := []
  deriving DecidableEq, Repr

/-- What the device knows of a site and its PRU. -/
structure Site where
  state : SiteState := .down
  /-- Reason of the latest SITE_OUT. -/
  reason : Nat := 0
  /-- Load progress in the steps of R323: 0 none, 1 waits for HELLO, 2 sends blocks, 3 waits for READY, 4 configured,
  5 has been in service since the load. -/
  step : Nat := 0
  failures : Nat := 0
  loads : Nat := 0
  /-- IMAGE_BLOCK words sent of the load in progress. -/
  sentBlocks : Nat := 0
  model : Nat := 0
  hwRev : Nat := 0
  romVer : Nat := 0
  serial : Nat := 0
  mac : Nat := 0
  nf : List Int := [0, 0, 0]
  imageVer : Nat := 0
  tempC : Int := 0
  synthLock : Nat := 0
  overtemp : Bool := false
  ptpLocked : Bool := false
  ptpOffset : Int := 0
  /-- One-way delay in ns, and the token of the ECHO in flight with its sending time in 2^-16 ns. -/
  delayNs : Nat := 0
  echo : Option (Nat × Nat) := none
  echoToken : Nat := 0
  /-- Gain of each antenna (L0, L1, H0, H1, V0) in 0.5 dB: the latest GAIN_SET since the M1 entry. -/
  gains : List Nat := [60, 60, 60, 60, 60]
  /-- The GAIN_SETs of each antenna, newest first, with their ACT in TB0 ns, back to the one in force (R311). -/
  gainSets : Tab (List (Nat × Nat)) := []
  /-- Frequency of the latest applied TX_TUNE of each band; none when unknown (R306, R322, R417). -/
  tuned : Tab (Option Nat) := []
  /-- Keyed spans issued and not over, by band: start and end in TB0 ns (R307, R417). -/
  keyed : List (Nat × Nat × Nat) := []
  /-- WSEQ of the latest TX_TUNE of each band (R424). -/
  tuneSeq : Tab (Option Nat) := []
  /-- Downlink data frames that wait for their sending time (R298): start of their span and sending time in TB0 ns, and
  the bytes. -/
  dl : List (Nat × Nat × Bytes) := []
  tuners : Tab Tuner := []
  floors : Tab Floor := []
  /-- Uplink streams by flowID. -/
  streams : Tab UlStream := []
  wseq : BitVec 16 := 0
  /-- DCW frames sent since link-up (R300). -/
  order : BitVec 32 := 0
  waiting : List DcwWait := []
  /-- Second of TB0 that FH_DELAY_MAX_NS gathers (R376). -/
  fhSec : Nat := 0
  /-- The link is held down by R289. -/
  held : Bool := false
  deriving DecidableEq, Repr

/-! ### Images -/

/-- A cells record (R393). -/
structure Cell where
  type : Nat
  ackReq : Bool
  grouped : Bool
  site : Nat
  band : Nat
  ctx : Nat
  start : Nat
  len : Nat
  node : Nat
  chset : Nat
  chOffset : Nat
  group : Nat
  decPeak : Nat
  ackDelay : Nat
  power : Int
  keyed : Nat
  deriving DecidableEq, Repr

/-- A vectors record (R397). -/
structure Vect where
  site : Nat
  ctx : Nat
  txBands : Nat
  comb : Nat
  dwell : List Nat
  decPeak : Nat
  deriving DecidableEq, Repr

/-- A sites record (R391). -/
structure ImgSite where
  site : Nat
  bands : Nat
  fhMax : Nat
  deriving DecidableEq, Repr

/-- One slot: its cells, as indices of the Cells section with the records, and its vectors. -/
structure ImgSlot where
  cells : List (Nat × Cell)
  vects : List Vect
  deriving DecidableEq, Repr

/-- One entry of a channel set (R395). -/
structure Chan where
  freq : Nat
  phy : Nat
  band : Nat
  deriving DecidableEq, Repr

/-- The PHY code of a channel with its frequency. -/
def Chan.code (c : Chan) : Nat := phyCode c.freq c.phy

/-- A combiner-group record (R398). -/
structure Group where
  members : Nat
  ackMember : Nat
  sites : List Nat
  alignUs : Nat
  deadlineUs : Nat
  deriving DecidableEq, Repr

/-- A CSL record (R399). -/
structure CslRec where
  node : Nat
  periodMs : Nat
  site : Nat
  phaseNs : Nat
  chset : Nat
  baseUs : Nat
  driftPpb : Nat
  deriving DecidableEq, Repr

/-- A routes record (R400). -/
structure RouteRec where
  node : Nat
  hops : List Nat
  nHops : Nat
  site : Nat
  deriving DecidableEq, Repr

/-- A Kalxus image as parsed (R388 to R400). -/
structure Image where
  domain : Nat
  tenant : Nat
  serial : Nat
  slotUnits : Nat
  k : Nat
  tb : Nat
  guard : Nat
  keySlot : Nat
  asnOrigin : Nat
  sites : List ImgSite
  slots : List ImgSlot
  chsets : List (List Chan)
  groups : List Group
  csls : List CslRec
  routes : List RouteRec
  /-- The dwell plans of its sites at its load, by 3 x site + band (R409). -/
  plans : Tab DwellPlan := []
  deriving DecidableEq, Repr

/-- One image bank (R402). -/
inductive Bank where
  | empty
  /-- Loading, for the command of a function and tag, with its IMAGE_LEN. -/
  | loading (fn tag len : Nat)
  | loaded (i : Image)
  deriving DecidableEq, Repr

/-- An acknowledgement that waits for its issue instant (R419), keyed by an id. -/
structure AckPlan where
  id : Nat
  cell : Nat
  handle : Nat
  site : Nat
  band : Nat
  freq : Nat
  phy : Nat
  power : Int
  /-- Span on air in ns on the domain's base (R135, R143). -/
  startNs : Nat
  endNs : Nat
  seqNo : Nat
  /-- The duration counter when its frame passed authentication. -/
  authAt : Nat := 0
  /-- Its issue instant has been dealt with; the plan stays so that a later one is seen to clash with it. -/
  issued : Bool := false
  deriving DecidableEq, Repr

/-- A pending activation (R411): boundary in ns on the domain's base, the bank, and the command's function and tag. -/
structure Activation where
  at_ : Nat
  bank : Bool
  fn : Nat
  tag : Nat
  deriving DecidableEq, Repr

/-- The schedule engine's state for one domain. -/
structure SchedDomain where
  decShare : Nat := 0
  imageMib : Nat := 0
  bankA : Bank := .empty
  bankB : Bank := .empty
  /-- The active bank: false A, true B. -/
  active : Option Bool := none
  activation : Option Activation := none
  /-- The bank that was active latest, and the bank loaded latest, since the M1 entry. -/
  lastActive : Option Bool := none
  /-- The bank that was active before, and the instant of the domain's base from which it has not been: frames of its last
  slots may still be on their way (R411, R412). -/
  previous : Option Bool := none
  activeFrom : Nat := 0
  lastLoaded : Bool := false
  /-- Function and tag of the command that loaded that bank. -/
  loadCmd : Option (Nat × Nat) := none
  /-- SCHED_DEACTIVATE commands that wait for the next slot boundary, and the slot in which the first was read. -/
  stopping : List Req := []
  stopSlot : Nat := 0
  /-- Slot number of the running slot. -/
  slot : Nat := 0
  /-- Traps counted when it began (SLOT record of the Trace Port, R652). -/
  trapsAt : Nat := 0
  /-- No action whose instant lies before this, in ns on the domain's base, is issued (R140, R141). -/
  notBefore : Nat := 0
  /-- The latest action instant issued, and the end of the hold that a backward step began (R141). -/
  last : Option Nat := none
  hold : Option Nat := none
  /-- Transmit cells whose issue instant has been dealt with: the action's instant in ns on the domain's base, and the cell. -/
  issued : List (Nat × Nat) := []
  /-- Keyed time used in each slot by site x 3 + band, or 1,000 + cell, in us, by the slot's start in ns on the domain's base (R423). -/
  used : Tab (Tab Nat) := []
  /-- Sites under trap 4, with successive measurements within FH_MAX_US (R423). -/
  late : Tab (Option Nat) := []
  /-- Cells whose detections trap 1 has ended: slot and cell. -/
  ended : List (Nat × Nat) := []
  /-- Decoder cycles made ready in the latest tick of a cell: tick and cycles, by cell. -/
  ready : Tab (Nat × Nat) := []
  acks : List AckPlan := []
  ackIds : Nat := 0
  deriving DecidableEq, Repr

/-- A site plan (R384, R428). -/
structure SitePlan where
  slotUnits : Nat
  log2Wheel : Nat
  ctx : List Nat
  comb : List Nat
  dwellShare : List Nat
  /-- Owner of wheel position p on band b at 3p + b; 255 for none. -/
  owners : List Nat
  deriving DecidableEq, Repr

/-! ### Modem -/

/-- A loading map with its rate (R356). -/
structure LoadMap where
  id : Nat
  rate : Nat
  /-- Bits on data subcarriers 0-95. -/
  bits : List Nat
  deriving DecidableEq, Repr

/-- The maps of a node and what R359 and R361 keep of it. -/
structure NodeMaps where
  ulCur : Option LoadMap := none
  ulPrev : Option LoadMap := none
  dlCur : Option LoadMap := none
  /-- The ID given latest in each direction, which the next one follows when there is no current map. -/
  lastUl : Nat := 0
  lastDl : Nat := 0
  /-- Channel frequency and band of the latest frame. -/
  freq : Nat := 0
  band : Nat := 0
  /-- Updates sent and not acknowledged, oldest first: downlink (true) or uplink, and the map. -/
  pending : List (Bool × LoadMap) := []
  /-- Duration count of the last accepted update, and of the last update of each direction. -/
  acceptedAt : Option Nat := none
  ulAt : Option Nat := none
  dlAt : Option Nat := none
  /-- Frames heard, newest first, at most four of a site: site, mean SNR and received power on each data subcarrier, in
  0.25 dB. -/
  heard : List (Nat × Int × List Int) := []
  /-- Mean SNR at the last update of each direction, 0.25 dB. -/
  snrUl : Option Int := none
  snrDl : Option Int := none
  deriving DecidableEq, Repr

/-- Loading policy of a domain (R379). -/
structure LoadPolicy where
  marginQdb : Nat := 12
  minRate : Nat := 0
  maxRate : Nat := 3
  holdS : Nat := 60
  deltaQdb : Nat := 12
  deriving DecidableEq, Repr

/-- A decision-feedback equaliser (R345): its taps, 16 bits in each part, the decisions fed back, newest first, and whether the
start-of-frame delimiter has come. -/
structure Dfe where
  ff : List (Int × Int)
  fb : List (Int × Int)
  past : List (Int × Int) := []
  tracking : Bool := false
  deriving DecidableEq, Repr

/-- The equaliser of a context (R345): none; a DFE; or one coefficient per subcarrier from the training symbol, with what the pilots
of each symbol show against it. -/
inductive Equaliser where
  | off
  | dfe (d : Dfe)
  | carriers (coefficients : List (Int × Int)) (turns : List (Int × Int))
  deriving DecidableEq, Repr

/-- One copy of a transmission at a member site, with the context it holds (R339, R340, R371). Instants are on TB0. -/
structure Copied where
  site : Nat
  /-- Index of its own cell in the image's Cells section: the one whose context it holds. -/
  cell : Nat := 0
  instant : Nat
  corr : Nat
  /-- Its header's end on air, and the digital gain in 1/2000 dB (R342). -/
  headerEnd : Nat
  gain : Int := 0
  /-- The antenna of the band whose samples the context takes. -/
  antenna : Nat := 0
  equaliser : Equaliser := .off
  /-- The context is still held. -/
  held : Bool := true
  /-- Duration count at which the header's soft values came (R372). -/
  headerAt : Option Nat := none
  /-- The header's soft values. -/
  header : List Int := []
  /-- Soft values of each codeword, by codeword number, and the codewords delivered, in time or late. -/
  soft : Tab (List Int) := []
  delivered : List Nat := []
  /-- LOFDM symbols that are erased whole, the header symbol being 0 (R341). -/
  erased : List Nat := []
  /-- Received power on the P2 subcarriers and the mean SNR, in 0.25 dB (R358), RSSI in dBm. -/
  power : List Int := []
  snr : Int := 0
  rssi : Int := 0
  deriving DecidableEq, Repr

/-- A transmission being received (R371, R372). -/
structure Recv where
  id : Nat
  domain : Nat
  /-- Index of the cell in the image's Cells section, the cell, and the slot of its window. -/
  cell : Nat
  rec_ : Cell
  slot : Nat
  /-- End of the cell's window on TB0. -/
  windowEnd : Nat
  entry : Chan
  alignUs : Nat
  deadlineUs : Option Nat
  /-- The member sites of its group, or its own site. -/
  sites : List Nat := []
  /-- Air instants that have been resolved, each with its value of the duration counter (R143). -/
  resolved : List (Nat × Nat) := []
  copies : List Copied
  /-- The header word as decided (LOFDM), or 0 of a standard PHY. -/
  header : Option Nat := none
  /-- Members that the header decision fixed (R372). -/
  members : List Nat := []
  /-- PSDU length, codeword length, rate and number of codewords. -/
  len : Nat := 0
  n : Nat := 0
  rate : Nat := 0
  ncw : Nat := 0
  /-- The PHY code with the options that its PHR gives (R396). -/
  rxPhy : Nat := 0
  /-- Bits of a LOFDM symbol: B of R351. -/
  load : Nat := 0
  /-- End of each codeword's last symbol, and of the frame, on TB0. -/
  ends : List Nat := []
  frameEnd : Nat := 0
  /-- Information bits decoded, by codeword. -/
  done : List (Nat × List Bool) := []
  reliability : Nat := 255
  /-- Codewords queued for a decoder: number, duration count of the ready instant, and the sum of the soft values (R368, R372). -/
  queued : List (Nat × Nat × List Int) := []
  /-- Its frame is decoded or lost, and contexts are held that have values to deliver yet (R340), or codewords are queued. -/
  finished : Bool := false
  deriving DecidableEq, Repr

/-- Sites, meters, schedule and modem. -/
structure Radio where
  sites : Tab Site := []
  /-- Baseband lane of each site; `none` for no lane. An unlisted site has the lane of its own number (R288). -/
  lanes : Tab (Option (Option Nat)) := []
  badLanes : List Nat := []
  /-- Models and hardware revisions of the PRU images staged, with their lengths (R323). -/
  pruImages : List (Nat × Nat × Bytes) := []
  /-- Charges of each meter by sub-window, in counts of 0.625 ns (R318). -/
  meters : Tab (Tab Nat) := []
  plans : Tab (Option SitePlan) := []
  domains : Tab SchedDomain := []
  policies : Tab LoadPolicy := []
  maps : Tab NodeMaps := []
  recvs : List Recv := []
  recvIds : Nat := 0
  /-- Frames decoded that wait for the mesh. -/
  decoded : List AirFrame := []
  /-- LDPC decoder cores that failed self-test (R633). -/
  badCores : Nat := 0
  /-- Digital gain of the most recently released context of a watch entry, in 1/2000 dB (R342). -/
  gains : Tab Int := []
  deriving DecidableEq, Repr

end Sys2Proof.Machine
end

