-- ==== Sys2Proof/Machine/MeshTypes.lean ====
section
/-! DEFINITION. The state types of domains, nodes and mesh services (spec/11_mesh_nodes.md) and of the key store
(spec/12_security.md). -/

namespace Sys2Proof.Machine

/-! ### Node Records -/

/-- A downlink MAC frame that waits in a queue (R463): the MPDU without FCS. -/
structure DlFrame where
  id : Nat
  mpdu : Bytes
  /-- Number of the packet it belongs to. -/
  packet : Nat
  attempts : Nat := 0
  /-- The NODE_SEND command it belongs to: function and tag. -/
  cmd : Option (Nat × Nat) := none
  /-- The loading update that it carries: downlink (true) or uplink, and the map (R360). -/
  update : Option (Bool × LoadMap) := none
  deriving DecidableEq, Repr

/-- One link of a record; site 0xFF for none. `minute` is the 60 s period in which `frames` counts. -/
structure Link where
  site : Nat := 0xFF
  rssi : Int := 0
  snr : Int := 0
  frames : Nat := 0
  reliability : Nat := 0
  minute : Nat := 0
  deriving DecidableEq, Repr

/-- One command entry of a record (R440, R468): 0 free, 1 pending, 2 done. `age` orders the entries. -/
structure CmdEntry where
  id : Nat := 0
  state : Nat := 0
  final : Nat := 0
  attempts : Nat := 0
  age : Nat := 0
  deriving DecidableEq, Repr

/-- A Node Record (R440), with the engine's own notes on the node. -/
structure NodeRec where
  eui : Nat
  domain : Nat
  /-- 1 JOINING, 2 JOINED. -/
  state : Nat
  sleepy : Bool := false
  router : Bool := false
  rxCounter : Nat := 0
  keyIndex : Nat := 0
  class_ : Nat := 0
  parent : Nat := 0
  parentValid : Bool := false
  joinS : Nat := 0
  heardS : Nat := 0
  heardMs : Nat := 0
  fw : Nat := 0
  cslPeriodUs : Nat := 0
  cslAnchorNs : Nat := 0
  links : List Link := [{}, {}, {}, {}]
  queue : List DlFrame := []
  dlqLimit : Nat := 16
  cmds : List CmdEntry := [{}, {}, {}, {}]
  rxFrames : Nat := 0
  txFrames : Nat := 0
  txRetries : Nat := 0
  authFail : Nat := 0
  replay : Nat := 0
  linkSeq : Nat := 0
  distId : Nat := 0
  distGens : Nat := 0
  distDone : Bool := false
  hostTag : Bytes := List.replicate 32 0
  /-- The hidden sequence number (R443). -/
  seqNo : Nat := 0
  /-- A join that is a rejoin (R450). -/
  rejoin : Bool := false
  /-- End on air, in ns on the domain's base, of the latest authenticated frame, from which CSL timing counts (R421). -/
  cslFrom : Nat := 0
  /-- Whether a CSL IE has come since the join. -/
  cslKnown : Bool := false
  /-- Restored from the resume table (R457). -/
  resumed : Bool := false
  /-- Noise of each of the 24 groups as last reported (R458, R459). -/
  noise : Option Bytes := none
  /-- Instants of the replays and authentication failures of the last 60 s, and of the last AUTH_ALARM, in counts of the
  duration counter. -/
  failAt : List Nat := []
  alarmAt : Option Nat := none
  /-- Site, instant, end on air and octets of the frame accepted latest, by which a copy of it is known (R455). -/
  lastRx : Option (Nat × Nat × Nat × Bytes) := none
  /-- When the latest join response was sent, in ns on the domain's base (R450). -/
  joinSent : Option Nat := none
  deriving DecidableEq, Repr

/-! ### Domains -/

/-- Settings of NODE_DOMAIN_CONFIG (R477). Wells are kept as numbers; none for a Well that is not the function's. -/
structure DomainCfg where
  joinOpen : Bool
  retryLimit : Nat
  panId : Nat
  deviceEui : Nat
  pfx : Nat
  mtu : Nat
  fragPayload : Nat
  eventWell : Option Nat
  linkWell : Option Nat
  joinSpreadS : Nat
  joinWaitS : Nat
  dlqDefault : Nat
  deriving DecidableEq, Repr

/-- A NODE_SEND that is not finished (R465 to R469). -/
structure SendCmd where
  fn : Nat
  tag : Nat
  handle : Nat
  cmdId : Nat
  /-- DEADLINE in ns on the domain's base. -/
  deadline : Nat
  frames : Nat
  acked : Nat := 0
  attempts : Nat := 0
  /-- Duplicates that wait for the same completion (R468). -/
  dups : List (Nat × Nat) := []
  deriving DecidableEq, Repr

/-- A running distribution (R472, R484). -/
structure Dist where
  fn : Nat
  tag : Nat
  id : Nat
  /-- NODE_IMAGE and its bytes. -/
  slot : Nat
  image : Bytes
  blockSize : Nat
  maxIndex : Nat
  /-- TARGET_CLASS. -/
  target : Nat
  endNs : Nat
  /-- Blocks sent. -/
  sent : Nat := 0
  targets : List Nat
  done : List Nat := []
  deriving DecidableEq, Repr

/-- A MAC payload for a node, or for the broadcast queue (none), that is to be secured; one that waits in the border
function waits for an outbound counter (R456). -/
structure Held where
  handle : Option Nat
  payload : Bytes
  /-- The payload begins with payload IEs. -/
  ies : Bool := false
  cmd : Option (Nat × Nat) := none
  update : Option (Bool × LoadMap) := none
  packet : Nat
  deriving DecidableEq, Repr

/-- A join response that waits: handle (none for a refusal), EUI-64 and MPDU. -/
structure JoinResp where
  handle : Option Nat
  eui : Nat
  mpdu : Bytes
  deriving DecidableEq, Repr

/-- What the mesh holds of one domain. -/
structure MeshDomain where
  cfg : Option DomainCfg := none
  /-- Next outbound counter (R456). -/
  outCounter : Nat := 0
  /-- A lease write is staged. -/
  leaseStaged : Bool := false
  /-- The epoch of an advance whose commit is staged (R454). -/
  nextEpoch : Option Nat := none
  bcast : List DlFrame := []
  joinQ : List JoinResp := []
  held : List Held := []
  /-- Next datagram tag; none before the first (R462, R551). -/
  dgTag : Option Nat := none
  macSeq : Nat := 0
  dist : Option Dist := none
  distIds : Nat := 0
  /-- NODE_DOMAIN_REKEY commands that wait for the MRAM commit (R483). -/
  rekeys : List Req := []
  deriving DecidableEq, Repr

/-- A reassembly (R464): datagram size, and pieces by offset. -/
structure Reasm where
  size : Nat
  /-- Duration count at the first fragment. -/
  since : Nat
  pieces : List (Nat × Bytes)
  deriving DecidableEq, Repr

/-- A frame on air that waits for the node's acknowledgement (R420). -/
structure Await where
  domain : Nat
  handle : Nat
  frame : Nat
  /-- The cell that sent it, and the channel that is watched (R420). -/
  cell : Nat
  site : Nat
  band : Nat
  freq : Nat
  phy : Nat
  /-- The watch of its acknowledgement, in ns on the domain's base (R143, R420). -/
  opens : Nat
  closes : Nat
  deriving DecidableEq, Repr

/-- The Node Store and the mesh. -/
structure Mesh where
  /-- Records by handle; an unlisted handle is FREE. -/
  nodes : Tab (Option NodeRec) := []
  domains : Tab MeshDomain := []
  /-- The bar list: domain and EUI-64 (R481). -/
  barred : List (Nat × Nat) := []
  sends : List SendCmd := []
  /-- Reassemblies by handle x 65,536 + datagram tag. -/
  reasm : Tab (Option Reasm) := []
  awaits : List Await := []
  nextFrame : Nat := 0
  nextPacket : Nat := 0
  /-- The node-key cache: domain, EUI-64 and epoch, with the tenant, most recently used first (R504). -/
  cache : List (Nat × Nat × Nat × Nat) := []
  /-- Node images that are usable, by NODE_IMAGE (R614). -/
  nodeImages : Tab (Option NodeImage) := []
  cacheShares : List Nat := [1024, 1024, 1024, 1024, 1024, 1024, 1024, 1024, 1024, 1024, 1024, 1024, 1024, 1024, 1024, 1024]
  deriving DecidableEq, Repr

/-! ### Keys -/

/-- One key slot (R497): WRAPPED with the value it wraps beside it, and `tagOk`, which says that TAG verifies; `State.slotRecord`
gives the 128 bytes. -/
structure KeySlot where
  kind : Nat := 0
  unusable : Bool := false
  owner : Nat := 16
  parent : Nat := 0xFFF
  gen : Nat := 0
  parentGen : Nat := 0
  value : Bytes := []
  wrapped : Bytes := []
  tagOk : Bool := true
  deriving DecidableEq, Repr

/-- A change of the key store that is staged (R511). -/
inductive KeyOp where
  | root (t : Nat) (value : Bytes)
  | domainKey (d t : Nat)
  | import_ (slot kind owner : Nat) (value : Bytes)
  | destroy (slot : Nat)
  | assign (slot owner : Nat)
  /-- The UNUSABLE mark of R498. -/
  | mark (slot : Nat)
  deriving DecidableEq, Repr

/-- A staged change and the response that follows its commit. -/
structure KeyStage where
  op : KeyOp
  reply : Option Req
  deriving DecidableEq, Repr

/-- The key store in force, what is staged, and WRAP_DIGEST and SEQ of its area. -/
structure KeyStore where
  slots : Tab KeySlot := []
  staged : List KeyStage := []
  wrapDigest : Bytes := []
  seq : Nat := 0
  /-- Duration count at which the last commit began. -/
  commitAt : Option Nat := none
  deriving DecidableEq, Repr

/-- KEY_EPOCH and LEASE_END of a domain in MRAM (R513). -/
structure Lease where
  epoch : Nat := 0
  leaseEnd : Nat := 0
  deriving DecidableEq, Repr

/-- One entry of the node resume table (R457). -/
structure Resume where
  eui : Nat
  rxCounter : Nat
  handle : Nat
  domain : Nat
  sleepy : Bool
  router : Bool
  deriving DecidableEq, Repr

end Sys2Proof.Machine
end

