-- ==== Sys2Proof/Machine/ObsTypes.lean ====
section
/-! DEFINITION. The state types of self-test, snapshots and the Trace Port (spec/15_selftest_and_observation.md). -/

namespace Sys2Proof.Machine

/-- One sample of OBSERVE_TRACE_CONFIG (R654): block, index, instance and PERIOD_US. -/
structure TraceSample where
  block : Nat
  index : Nat
  inst : Nat
  periodUs : Nat
  deriving DecidableEq, Repr

/-- Settings of OBSERVE_TRACE_CONFIG (R654). -/
structure TraceCfg where
  enable : Bool := false
  fwEn : Bool := false
  modeEn : Bool := false
  slotEn : Bool := false
  fwLevel : Nat := 0
  dest : Bytes := [0, 0, 0, 0, 0, 0]
  rtcPeriodMs : Nat := 0
  samples : List TraceSample := []
  deriving DecidableEq, Repr

/-- The settings that are a device's own (R50, R566): lane trims in 1/64 UI and the trace configuration. -/
structure OwnCfg where
  trims : Tab Int := []
  trace : TraceCfg := {}
  deriving DecidableEq, Repr

/-- Snapshots (R643, R644). -/
structure Snap where
  busy : Bool := false
  valid : Bool := false
  ignored : Bool := false
  seq : BitVec 32 := 0
  /-- Time of the capture beat, and the lag of firmware-kept counters, of the published copy. -/
  timeS : Nat := 0
  timeNs : Nat := 0
  lagUs : Nat := 0
  period : BitVec 16 := 0
  /-- The published counters, and those being copied with their time. -/
  published : Tab Nat := []
  taken : Tab Nat := []
  takenS : Nat := 0
  takenNs : Nat := 0
  /-- OBSERVE_SNAPSHOT commands that wait for the copy. -/
  waiting : List Req := []
  deriving DecidableEq, Repr

/-- A test by command that runs (R639): KIND, SLICE and the function and tag of its command. -/
structure BistRun where
  kind : Nat
  slice : Nat
  fn : Nat
  tag : Nat
  /-- Duration count at which it began. -/
  since : Nat
  deriving DecidableEq, Repr

/-- Self-test: slices marked unusable since the M1 entry and those that a spare replaced (R630, R640). -/
structure Bist where
  unusable : List (Nat × Nat) := []
  /-- KIND, slice and spare. -/
  spared : List (Nat × Nat × Nat) := []
  running : List BistRun := []
  deriving DecidableEq, Repr

/-- The Trace Port (R650 to R654): records that wait, oldest first, frames sent, newest first, and records discarded since
the latest LOST record. -/
structure Trace where
  records : List Bytes := []
  sent : List Bytes := []
  seq : BitVec 32 := 0
  lost : Nat := 0
  /-- Duration count at which each sample was taken latest: 0 the RTC, i + 1 sample i. -/
  sampledAt : Tab Nat := []
  deriving DecidableEq, Repr

end Sys2Proof.Machine
end

