-- ==== Sys2Proof/Machine/FwdTypes.lean ====
section
/-! DEFINITION. The state types of pipes, tables and forwarding, and of the Cistern, queues, policers and shapers
(spec/06_forwarding.md, spec/07_cistern_and_qos.md). -/

namespace Sys2Proof.Machine

/-- One VLAN (R234). Port sets are masks: bit p is port p. -/
structure Vlan where
  tenant : Nat
  learn : Bool
  flood : Bool
  ageLimit : Nat
  members : Nat
  untagged : Nat
  deriving DecidableEq, Repr

/-- One interface (R235). -/
structure Intf where
  port : Nat
  tenant : Nat
  vlan : Nat
  mac : Nat
  mtu : Nat
  excFn : Nat
  excRing : Nat
  excEn : Bool
  deriving DecidableEq, Repr

/-- One next hop (R239): type 0 DROP, 1 PORT, 2 BORDER, 3 PUNT. -/
structure NextHop where
  type : Nat
  tenant : Nat
  intf : Nat
  dstMac : Nat
  domain : Nat
  deriving DecidableEq, Repr

/-- One rule (R241). Owner 16 is PF0. -/
structure Rule where
  owner : Nat
  addrSel : Bool
  value : Bytes
  mask : Bytes
  action : Nat
  setExpress : Bool
  expressQ : Nat
  puntFn : Nat
  puntRing : Nat
  reason : Nat
  redirect : Nat
  mirror : Option Nat
  policer : Option Nat
  deriving DecidableEq, Repr

/-- One mirror session (R242). -/
structure Mirror where
  enable : Bool := false
  direction : Nat := 0
  destPunt : Bool := false
  destPort : Nat := 0
  serviceQ : Nat := 0
  puntRing : Nat := 0
  sampleN : Nat := 1
  truncate : Nat := 0
  ports : Nat := 0
  /-- The LFSR (R226). -/
  lfsr : Nat := 0
  deriving DecidableEq, Repr

/-- The chip-wide tables of one generation (R219). -/
structure Tables where
  vlans : Tab (Option Vlan) := []
  intfs : Tab (Option Intf) := []
  nexthops : Tab (Option NextHop) := []
  /-- Next hop of each prefix, by `routeKey`. -/
  routes : Tab (Option Nat) := []
  rules : Tab (Option Rule) := []
  mirrors : Tab Mirror := []
  deriving DecidableEq, Repr

/-- One entry of a pipe's MAC table (R204). -/
structure MacEntry where
  mac : Nat
  vlan : Nat
  port : Nat
  static : Bool
  drop : Bool
  age : Nat
  deriving DecidableEq, Repr

/-- A learn or move request, or an age refresh (R209, R211). -/
structure LearnReq where
  mac : Nat
  vlan : Nat
  port : Nat
  move : Bool
  deriving DecidableEq, Repr

/-- A host write to a table, with the entry it leaves (R219). -/
inductive TableWrite where
  | vlan (n : Nat) (v : Option Vlan)
  | intf (n : Nat) (v : Option Intf)
  /-- Static MAC entry: port and DROP; none deletes it. -/
  | mac (mac vlan : Nat) (v : Option (Nat × Bool))
  | nexthop (n : Nat) (v : Option NextHop)
  | route (key : Nat) (v : Option Nat)
  | rule (n : Nat) (v : Option Rule)
  | mirror (n : Nat) (v : Mirror)
  deriving DecidableEq, Repr

/-- A committed generation that waits for its boundary: the function, the tag and opcode of the command that committed
it, none for the removals of TENANT_RESET, and its writes. -/
structure PendingGen where
  fn : Nat
  cmd : Option (Nat × Nat)
  writes : List TableWrite
  /-- Maintenance slots that its writes and their relocations take in each pipe (R195). -/
  slots : List Nat
  /-- The tenant whose TENANT_RESET ends at this boundary. -/
  reset : Option Nat := none
  deriving DecidableEq, Repr

/-- Settings of one VRF (R232). -/
structure Vrf where
  injectPipe : Option Nat := none
  routeQuota : Nat := 16384
  hopQuota : Nat := 4096
  ruleQuota : Nat := 1024
  deriving DecidableEq, Repr

/-- Settings of TABLE_PORT_L2 (R233). -/
structure PortL2 where
  pvid : Nat := 1
  learn : Bool := true
  untagged : Bool := true
  tagged : Bool := true
  deriving DecidableEq, Repr

/-- A packet that crosses to the border function (R216): its pipe, its domain, and its bytes. -/
structure Border where
  pipe : Nat
  domain : Nat
  packet : Bytes
  deriving DecidableEq, Repr

/-- The pipes and the tables. -/
structure Fwd where
  tables : Tables := {}
  /-- MAC tables: pipe x 262,144 + bucket x 4 + way. -/
  macs : Tab (Option MacEntry) := []
  /-- Victim counter of each pipe (R206). -/
  victim : Tab Nat := []
  /-- Learn queue of each pipe, oldest first, at most 256 (R209), and the age refreshes that wait (R211). -/
  learnQ : Tab (List LearnReq) := []
  refresh : Tab (List LearnReq) := []
  /-- The bucket that the ageing sweep of each pipe visits next, and its plan number modulo 64 (R195, R212). -/
  sweepAt : Tab Nat := []
  planNo : Tab Nat := []
  generation : BitVec 32 := 0
  /-- Staged writes, oldest first, with the function that staged them (R219). -/
  staged : List (Nat × TableWrite) := []
  /-- Functions whose staged writes rely on an object that another generation removed (R222). -/
  stale : List Nat := []
  pendingGens : List PendingGen := []
  vrf : Tab Vrf := []
  portL2 : Tab PortL2 := []
  /-- Of each pipe: committed writes that are placed and wait for their boundary, and maintenance slots of the next plan that the
  last learn request still takes (R195). -/
  placed : Tab Nat := []
  owed : Tab Nat := []
  /-- Packets that cross to the border function, oldest first (R216). -/
  border : List Border := []
  deriving DecidableEq, Repr

/-- A frame or copy on an egress queue. -/
structure QItem where
  /-- The stored frame it belongs to. -/
  id : Nat
  /-- The bytes as they leave, without FCS; of a frame still being received, the bytes so far. -/
  bytes : Bytes
  /-- Cells charged to the queue (R251). -/
  cells : Nat
  complete : Bool := true
  /-- Of a frame still being received: MAX_FRAME of its ingress port, and its length as it will leave, FCS included, by what FRAME_RX
  says of it. -/
  maxLen : Nat := 0
  total : Nat := 0
  /-- Bytes that the fragments of a preempted frame have taken, at the least (R169). -/
  cut : Nat := 0
  cutThrough : Bool := false
  /-- Launch time in nanoseconds on the port's base. -/
  launch : Option Nat := none
  /-- It has reached the head of its queue, where R147 is judged once. -/
  judged : Bool := false
  /-- The launch time has come (R263), and the frame is late (R146). -/
  due : Bool := false
  late : Bool := false
  /-- Bytes to keep of a truncated mirror copy, 0 for all. -/
  truncate : Nat := 0
  /-- Transparent clock: ingress port and its PCS timestamp in 2^-16 ns (R119, R120). -/
  tc : Option (Nat × Nat) := none
  /-- Egress timestamp, on the ingress port's base in 2^-16 ns, of a frame whose egress has begun (R120). -/
  left : Option Int := none
  /-- The one-step Sync of a radio port, which takes its timestamp as it leaves (R127). -/
  sync : Bool := false
  /-- It ends with the complement of the correct FCS (R165, R166, R248). -/
  stomp : Bool := false
  deriving DecidableEq, Repr

/-- A frame stored in the Cistern: its cells and how many queue entries or transmissions hold it (R252). -/
structure Stored where
  cells : Nat
  holders : Nat
  /-- Of its cells, those retired (R248). -/
  lost : Nat := 0
  deriving DecidableEq, Repr

/-- A punt that waits for the frame's end: function, ring, reason, rule, and the length of a truncated copy (0 for all). -/
structure PuntHead where
  fn : Nat
  ring : Nat
  reason : Nat
  rule : Nat
  truncate : Nat := 0
  /-- The first cell as it leaves, of a mirror copy of an egress frame; else as received (R225). -/
  front : Option Bytes := none
  deriving DecidableEq, Repr

/-- A received frame whose last byte has not arrived. -/
structure RxHand where
  id : Nat
  bytes : Bytes
  /-- Egress queues that hold it. -/
  queues : List Nat
  punts : List PuntHead
  /-- Copies that cross to the border function: domain and the IP packet's bytes so far. -/
  borders : List (Nat × Bytes)
  /-- PCS timestamp in 2^-16 ns. -/
  stamp : Nat
  /-- MAX_FRAME in force when it began (R172). -/
  top : Nat
  deriving DecidableEq, Repr

/-- Limits of one queue in cells (R250). -/
structure QLimits where
  limit : Nat
  yellow : Nat
  red : Nat
  deriving DecidableEq, Repr

/-- Settings and state of one queue. -/
structure Queue where
  items : List QItem := []
  launchEn : Bool := false
  launchLate : Bool := false
  deriving DecidableEq, Repr

/-- A shaper (R265): credit in units of 10^-5 byte. -/
structure Shaper where
  enable : Bool := false
  rate : Nat := 1
  burst : Nat := 64
  credit : Int := 0
  deriving DecidableEq, Repr

/-- A port's scheduler (R261, R262, R277). -/
structure Sched where
  overhead : Int := 20
  /-- Weights and deficits of members 0-15, the bundles, and 16, the service group. -/
  weights : List Nat := [1, 1, 1, 1, 1, 1, 1, 1, 1, 1, 1, 1, 1, 1, 1, 1, 1]
  deficits : List Nat := [0, 0, 0, 0, 0, 0, 0, 0, 0, 0, 0, 0, 0, 0, 0, 0, 0]
  /-- The member whose turn is open, or the next member when `open_` is false. -/
  turn : Nat := 0
  open_ : Bool := false
  /-- Queue and frame being sent, and the preemptable one that an express frame interrupted. -/
  sending : Option (Nat × QItem) := none
  preempted : Option (Nat × QItem) := none
  /-- New settings of preemption, or ADMIN_UP 0, act at the next frame boundary (R172, R174). -/
  preDue : Bool := false
  downDue : Bool := false
  deriving DecidableEq, Repr

/-- A tenant's class map (R256). -/
structure ClassMap where
  trust : Nat := 0
  default : Nat := 0
  pcp : List Nat := [0, 1, 2, 3, 4, 5, 6, 6]
  dscp : List Nat := (List.range 64).map fun d => min (d / 8) 6
  deriving DecidableEq, Repr

/-- A policer (R257 to R260): bucket levels in units of 10^-5 byte. -/
structure Policer where
  enable : Bool := false
  trTcm : Bool := false
  aware : Bool := false
  dscpSrc : Bool := false
  owner : Nat := 16
  yellowAct : Nat := 0
  redAct : Nat := 0
  demote : Nat := 0
  cir : Nat := 0
  pir : Nat := 0
  cbs : Nat := 0
  ebs : Nat := 0
  /-- C bucket, and the E or P bucket. -/
  tc : Nat := 0
  te : Nat := 0
  deriving DecidableEq, Repr

/-- The Cistern and the queues. -/
structure Qos where
  /-- Logical banks removed for want of a spare, and spares in use (R247). -/
  banksRemoved : Nat := 0
  sparesUsed : Nat := 0
  /-- Physical bank of each logical bank that a spare serves (R247). -/
  bankMap : Tab Nat := []
  /-- Logical addresses of retired cells (R248). -/
  retired : List Nat := []
  stored : Tab (Option Stored) := []
  nextId : Nat := 0
  /-- A received frame in hand, by 2 x port, + 1 for the preemptable MAC. -/
  rx : Tab (Option RxHand) := []
  /-- Limits set by QOS_SET_LIMITS; an unlisted queue has the factory limits (R254) or those of R273. -/
  limits : Tab (Option QLimits) := []
  queues : Tab Queue := []
  /-- Shapers: level x 32,768 + index. -/
  shapers : Tab Shaper := []
  scheds : Tab Sched := []
  maps : Tab ClassMap := []
  policers : Tab Policer := []
  /-- Frames sent, newest first: port and bytes with FCS. -/
  sent : List (Nat × Bytes) := []
  deriving DecidableEq, Repr

end Sys2Proof.Machine
end

