-- ==== Sys2Proof/Machine/PairTypes.lean ====
section
/-! DEFINITION. The state types of the pair: the Pair Link, carried items, digests, arbitration, synchronisation and
Equinox (spec/13_pair.md). -/

namespace Sys2Proof.Machine

/-- Settings of PAIR_CONFIG (R587). -/
structure PairCfg where
  pairingEn : Bool := false
  equinoxEn : Bool := true
  unexplainedLimit : Nat := 8
  hours : Nat := 24
  anchor : Nat := 0
  deriving DecidableEq, Repr

/-- A carried host command (R545): release epoch E, where it was read, and the two statuses of its check. -/
structure Carried where
  req : Req
  epoch : Nat
  /-- Read from this device's own ring, so that this device writes the response. -/
  own : Bool
  mine : Option (Nat × Nat) := none
  partner : Option (Nat × Nat) := none
  deriving DecidableEq, Repr

/-- The final status of a carried ACCEPTED command on each device (R547). -/
structure Final where
  fn : Nat
  tag : Nat
  opcode : Nat
  /-- STATUS, SUBCODE and RESULT of this device. -/
  mine : Option (Nat × Nat × Bytes) := none
  partner : Option (Nat × Nat) := none
  /-- This device writes the completion event. -/
  own : Bool := true
  /-- The completion Well when the command was ACCEPTED (R95). -/
  well : Option Nat := none
  deriving DecidableEq, Repr

/-- An item that takes effect at its release epoch on both devices (R545 to R555). -/
inductive Release where
  /-- A learn or move of a pipe (R550). -/
  | learn (pipe : Nat) (r : LearnReq)
  /-- The removal of an aged entry of a pipe: MAC and VLAN (R550). -/
  | aged (pipe mac vlan : Nat)
  /-- A retired cell and the port that read it (R553). -/
  | retire (cell port : Nat)
  /-- An injected frame (R555). -/
  | inject (x : Injected)
  /-- A firmware effect (R548). -/
  | effect (e : FwEffect)
  /-- A shared measurement (R549). -/
  | measure (m : Measure)
  /-- A pair seed (R551). -/
  | seed (v : Bytes)
  deriving DecidableEq, Repr

/-- A message that the device has sent on the Pair Link (R541). -/
inductive PairMsg where
  | hello
  | heartbeat
  /-- The digests of an epoch. -/
  | digest (epoch : Nat)
  | arbitrate (m : ArbMsg)
  | equinox (m : EqxMsg)
  /-- A carried command: opcode, function, tag and release epoch. -/
  | command (opcode fn tag release : Nat)
  /-- A status: function, tag, final, STATUS and SUBCODE. -/
  | check (fn tag : Nat) (final : Bool) (status sub : Nat)
  /-- Any item with its release epoch: EFFECT, MEASURE, LEARN, RETIRE, SEED or INJECT. -/
  | item (release : Nat) (r : Release)
  /-- A Tenant Root: tenant, IV, ciphertext and tag. -/
  | key (tenant : Nat) (iv sealed : Bytes)
  /-- Synchronisation copy, whose content the release defines. -/
  | state
  deriving DecidableEq, Repr

/-- The partner's HELLO (R543). -/
structure Hello where
  pairId : Bool
  mode : Nat
  stepping : Nat
  major : Nat
  minor : Nat
  setVersion : Nat
  pub : Bytes
  deriving DecidableEq, Repr

/-- A self-check that runs (R561): the implicated slices by KIND and number, and the two reports. -/
structure SelfCheck where
  slices : List (Nat × Nat)
  ports : List Nat
  mine : Option Bool := none
  partner : Option Bool := none
  deriving DecidableEq, Repr

/-- The frame of an epoch and port in sending order (R557): the stored frame's number, and the bytes that enter the digest
once they are known. -/
structure DigestFrame where
  id : Nat
  data : Option Bytes := none
  deriving DecidableEq, Repr

/-- What of a device is usable for R637: pipes, how many LDPC cores, the combiner, and the sites with a baseband lane. -/
structure Usable where
  pipes : List Nat
  cores : Nat
  combiner : Bool
  sites : List Nat
  deriving DecidableEq, Repr

/-- The pair. -/
structure Pair where
  /-- The Pair Link (R539): up, and lanes that have failed since it came up. -/
  linkUp : Bool := false
  laneFailed : BitVec 8 := 0
  /-- The partner's latest HELLO since the M1 entry, and whether one has come since the link came up. -/
  peer : Option Hello := none
  helloRx : Bool := false
  /-- The pair has formed, or the reason for which it was refused (R565). -/
  formed : Bool := false
  refused : Nat := 0
  peerMode : Nat := 0
  peerSynced : Bool := false
  /-- On the active: the phase of synchronisation that the standby has reached, 6 synced. -/
  peerPhase : Nat := 0
  /-- Cells sent in this direction, and those not acknowledged: first CSEQ and number of cells of each message. -/
  cseq : BitVec 32 := 0
  unacked : List (BitVec 32 × Nat) := []
  /-- Messages sent, newest first. -/
  sent : List PairMsg := []
  /-- KEY messages sent since link-up, and successive KEY messages whose tag failed (R543). -/
  keySent : Nat := 0
  keyFails : Nat := 0
  /-- Carried commands that wait, oldest first. -/
  carried : List Carried := []
  /-- Final statuses of carried ACCEPTED commands that wait for each other. -/
  finals : List Final := []
  /-- Tenant Roots that PAIR_KEY has carried, until the command that uses them is released (R502). -/
  rootKeys : Tab (Option Bytes) := []
  /-- Items that wait for their release epoch, oldest first. -/
  releases : List (Nat × Release) := []
  /-- On the standby: shadow effects without a carried effect, and carried effects without a shadow one (R548). -/
  shadow : List FwEffect := []
  arrived : List FwEffect := []
  /-- The pair seed, and how many outputs each generator has given (R551). -/
  seed : Bytes := []
  generated : Tab Nat := []
  /-- LEASE_END of each domain that the partner has committed (R554). -/
  peerLease : Tab (Option Nat) := []
  /-- Own frames by 256 x epoch + port, and the partner's digests by epoch (R557, R558). -/
  frames : Tab (List DigestFrame) := []
  digests : Tab (Option (List (Nat × Nat))) := []
  /-- The next own epoch whose digests are sent, and successive epochs whose digests agreed. -/
  nextDigest : Nat := 0
  agreed : Nat := 0
  /-- The self-check that runs, if any; PAIR_UNEXPLAINED since PAIR_CLEAR; LAST_ARB: RESULT, SLICE_KIND and SLICE. -/
  check : Option SelfCheck := none
  unexplained : BitVec 16 := 0
  lastArb : Nat × Nat × Nat := (0, 0, 0)
  /-- Ports of the latest outcome in which both devices stayed, and the compared epochs left of its 64 (R564). -/
  watched : List Nat := []
  watchLeft : Nat := 0
  /-- PAIR_LATCH. -/
  alert : Bool := false
  syncLost : Bool := false
  partnerLost : Bool := false
  tookOver : Bool := false
  /-- SYNC_PHASE, and the phase with which synchronisation goes on once the partner's HELLO is accepted (R570). -/
  phase : Nat := 0
  resumeAt : Nat := 2
  /-- Duration count at M5 entry; SYNC_TIME and TAKEOVER_TIME. -/
  m5At : Nat := 0
  syncMs : Nat := 0
  takeoverUs : Nat := 0
  /-- CAPACITY_MISMATCH has been written since phase 3 began (R637). -/
  mismatchTold : Bool := false
  /-- A back-off runs, and ACTIVE_IN has risen in it (R572). -/
  backoff : Option Nat := none
  backoffRise : Bool := false
  /-- Equinox: holds, the swap agreed with TB0 seconds of Ts and nanoseconds of Tx, the mode left for M6 was M4, and t0 has
  passed (R576 to R580). -/
  hold : Bool := false
  skipNext : Bool := false
  agreement : Option (Nat × Nat) := none
  wasActive : Bool := false
  swapped : Bool := false
  /-- Ports whose EQUINOX_LOSS the running swap has counted. -/
  lossPorts : Nat := 0
  /-- Duration count until which radio starts are held (R577). -/
  radioHold : Option Nat := none
  /-- PAIR EPOCH_HI as copied by the latest read of EPOCH_LO. -/
  epochHi : Nat := 0
  /-- Tests of pipes in service (R635): the pipe under test or in rejoin, and the next pipe. -/
  testing : Option Nat := none
  rejoining : Option Nat := none
  nextPipe : Nat := 0
  /-- What of the active is usable, as its synchronisation copy says (R637). -/
  peerUsable : Option Usable := none
  deriving DecidableEq, Repr

end Sys2Proof.Machine
end

