-- ==== Sys2Proof/Machine/PortTypes.lean ====
section
/-! DEFINITION. The state types of lanes, ports, ring pairs and optics (spec/05_ports_and_lanes.md). -/

namespace Sys2Proof.Machine

/-- Settings of a port that the configuration blob holds (R171, R174, R175). -/
structure PortCfg where
  mode : Nat := 0
  firstLane : Nat := 0
  adminUp : Bool := true
  anEn : Bool := false
  maxFrame : Nat := 1522
  preEnable : Bool := true
  preVerify : Bool := true
  addFrag : Nat := 0
  verifyMs : Nat := 10
  /-- The site whose radio port this is (R175). -/
  site : Option Nat := none
  deriving DecidableEq, Repr

/-- One entry of the cage map (R181). -/
structure Cage where
  master : Nat
  muxAddr : Nat
  muxChannel : Nat
  resetGpio : Nat
  firstPort : Nat
  portCount : Nat
  fast : Bool
  muxResetGpio : Nat
  deriving DecidableEq, Repr

/-- Running state of a port. -/
structure PortSt where
  linkUp : Bool := false
  localFault : Bool := false
  remoteFault : Bool := false
  /-- Preemption is active (R169), and verify frames sent without answer. -/
  preActive : Bool := false
  verifyTries : Nat := 0
  /-- In block reset (R30), alone or with its pipe. -/
  inReset : Bool := false
  /-- Left out of service until the next entry to M1 BOOT. -/
  outOfService : Bool := false
  /-- Express launch frames for which the MAC merge has begun to hold the preemptable MAC (R267). -/
  mmHolds : List Nat := []
  deriving DecidableEq, Repr

/-- State of one I2C bus (R185). -/
inductive BusState where
  | untried | inService | outOfService | recovering
  deriving DecidableEq, Repr

/-- What firmware knows of a cage's module (R182, R185). -/
structure CageSt where
  present : Bool := false
  fault : Bool := false
  /-- The module state machine has reached ModuleReady (R182). -/
  ready : Bool := false
  /-- The data paths that are active: port and mode. -/
  paths : List (Nat × Nat) := []
  /-- BANK and PAGE that the module has selected, where firmware knows them (R183). -/
  page : Option (Nat × Nat) := none
  /-- Flag bytes already reported: address and value. -/
  flags : List (Nat × Byte) := []
  deriving DecidableEq, Repr

/-- Ports, lanes, rings and optics. -/
structure Ports where
  st : Tab PortSt := []
  laneLocked : Tab Bool := []
  laneReset : Tab Bool := []
  laneOut : Tab Bool := []
  pipeReset : Tab Bool := []
  pipeOut : Tab Bool := []
  passThrough : Tab Bool := []
  /-- Cut-through pairs whose change waits for its response: ingress x 256 + egress, and what still holds (R173). -/
  cutWait : List (Nat × Bool) := []
  buses : Tab BusState := []
  cages : Tab CageSt := []
  /-- The device drives its I2C and MDIO masters (R187). -/
  driving : Bool := false
  /-- Accesses made on the I2C and MDIO buses, newest first: master or cage, write, address, data. -/
  busLog : List (Nat × Bool × Nat × Bytes) := []
  deriving DecidableEq, Repr

end Sys2Proof.Machine
end

