-- ==== Sys2Proof/Machine/TimeTypes.lean ====
section
/-! DEFINITION. The state types of the time bases, PTP, PPS, SyncE and the RTC (spec/04_time.md). -/

namespace Sys2Proof.Machine

/-- The four states of a base (R109). -/
inductive BaseState where
  | free | acquiring | locked | holdover
  deriving DecidableEq, Repr

/-- One time base (R104 to R110). -/
structure Base where
  /-- Value in units of 2^-16 ns: SECONDS, NANOSECONDS and FRACTION together. -/
  t : Nat := 0
  /-- Remainder of the advance below 2^-16 ns, in units of 2^-16 x 2^-16 x 10^-12 ns. -/
  rem : Nat := 0
  /-- FREQ_PPT and the integral state I, in units of 2^-16 parts per 10^12. -/
  freq : Int := 0
  integ : Int := 0
  state : BaseState := .free
  /-- Consecutive samples within LOCK_NS. -/
  lockCount : Nat := 0
  everLocked : Bool := false
  saturated : Bool := false
  steps : BitVec 16 := 0
  /-- Last offset sample, in units of 2^-16 ns. -/
  lastTheta : Int := 0
  /-- FREQ_10M: the source was lost; the base's value when the source was selected, moved by the host's steps since (log entry 118);
  the cycles counted by the latest count, and the core clocks since then. -/
  sourceLost : Bool := false
  selectedAt : Int := 0
  cycles : Nat := 0
  seen : Nat := 0
  /-- TIME_STEP has acted in this clock (R115). -/
  stepped : Bool := false
  deriving DecidableEq, Repr

/-- Settings of TIME_BASE_CONFIG (R112). -/
structure BaseCfg where
  source : Nat := 0
  stepMode : Nat := 0
  kp : Nat := 4000
  ki : Nat := 250
  stepNs : Nat := 1000000
  lockNs : Nat := 100
  deriving DecidableEq, Repr

/-- Settings of TIME_PORT_CONFIG (R118). -/
structure PortTime where
  tb : Nat := 0
  tcEn : Bool := false
  ingressPs : Int := 0
  egressPs : Int := 0
  asymmetryPs : Int := 0
  deriving DecidableEq, Repr

/-- Settings of TIME_PTP_CONFIG (R128). -/
structure PtpCfg where
  enable : Bool := false
  profile : Nat := 0
  transport : Nat := 0
  domainNumber : Nat := 0
  priority1 : Nat := 0
  priority2 : Nat := 0
  clockClass : Nat := 0
  slaveOnly : Bool := false
  macNonfwd : Bool := false
  logSync : Int := 0
  logAnnounce : Int := 0
  logDelayReq : Int := 0
  localPriority : Nat := 128
  utcOffset : Int := 37
  ports : List Nat := []
  masterOnly : List Nat := []
  deriving DecidableEq, Repr

/-- State of one PTP port of an instance (IEEE 1588, as R125 lists it). -/
inductive PtpRole where
  | listening | master | slave | passive
  deriving DecidableEq, Repr

/-- What a PTP port holds: its role, the latest Announce it has heard, and its sequence numbers. -/
structure PtpPort where
  role : PtpRole := .listening
  /-- The Announce dataset as a comparable string of octets (R125, default BMCA), empty for none. -/
  announce : Bytes := []
  /-- Core clocks that the Announce has left before it times out. -/
  announceFor : Nat := 0
  syncSeq : BitVec 16 := 0
  lastSyncSeq : BitVec 16 := 0
  syncHeard : Bool := false
  announceSeq : BitVec 16 := 0
  /-- A two-step Sync that awaits its Follow_Up. -/
  twoStep : Bool := false
  /-- Arrival of the latest Sync less its corrections, and, once its origin timestamp is known, less that too; in 2^-16 ns. -/
  arrival : Int := 0
  syncDelay : Int := 0
  /-- The next Delay_Req or Pdelay_Req: its number, and the timestamp of the latest one sent. -/
  reqSeq : BitVec 16 := 0
  reqAt : Int := 0
  /-- A two-step Pdelay_Resp that awaits its follow-up: what it leaves of the round trip. -/
  round : Option Int := none
  /-- meanPathDelay, and offsetFromMaster as last formed, in 2^-16 ns. -/
  pathDelay : Int := 0
  offset : Int := 0
  deriving DecidableEq, Repr

/-- Settings of TIME_PPS_CONFIG (R133). -/
structure PpsCfg where
  outTb : Nat := 0
  outEn : Bool := false
  inTb : Nat := 0
  inReport : Bool := false
  outOffsetNs : Int := 0
  outWidthUs : Nat := 1
  deriving DecidableEq, Repr

/-- Settings of one SyncE output (R134). -/
structure SynceCfg where
  enable : Bool := false
  freq : Bool := false
  lane : Nat := 0
  deriving DecidableEq, Repr

/-- The RTC block (R151, R153). -/
structure Rtc where
  count : BitVec 64 := 0
  shadow : BitVec 64 := 0
  frozen : Bool := false
  loadLo : BitVec 32 := 0
  loadHi : BitVec 32 := 0
  loadPending : Bool := false
  /-- Core-clock counts gathered towards the next 32,768 Hz tick, times 32,768. -/
  phase : Nat := 0
  deriving DecidableEq, Repr

/-- Time. -/
structure Time where
  bases : Tab Base := []
  /-- The duration counter (R143) in counts of the 1.6 GHz core clock, 0.625 ns each. -/
  duration : Nat := 0
  ptpPorts : Tab PtpPort := []
  /-- PTP messages the device sent, newest first: port and message. -/
  ptpSent : List (Nat × PtpFrame) := []
  /-- PPS_IN: the duration count at the last accepted edge, and whether there is one; below 0 once the pair clock has been taken
  over (R538). -/
  ppsInAt : Option Int := none
  /-- Core clocks for which PPS_OUT stays high. -/
  ppsHighFor : Nat := 0
  rtc : Rtc := {}
  deriving DecidableEq, Repr

end Sys2Proof.Machine
end

