-- ==== Sys2Proof/Machine/State.lean ====
section
/-! DEFINITION. The state of the block: everything the spec gives the device, as plain data, with the queue of
commands that wait, and the state after reset. -/

namespace Sys2Proof.Machine

/-- Owner of a domain: tenant, HANDLE_BASE and MAX_NODES (R437). -/
structure DomainOwner where
  tenant : Nat
  base : Nat
  max : Nat
  deriving DecidableEq, Repr

/-- Every setting that the configuration blob stores (R50), as it is in force in the running device. -/
structure Cfg where
  /-- Shares of commands in flight: PF0, then tenants 0-15 (R76, R83). -/
  shares : List Nat := [1024, 192, 192, 192, 192, 192, 192, 192, 192, 192, 192, 192, 192, 192, 192, 192, 192]
  /-- Punt and inject ring quotas of each tenant (R83). -/
  puntQuota : List Nat := [4, 4, 4, 4, 4, 4, 4, 4, 4, 4, 4, 4, 4, 4, 4, 4]
  injQuota : List Nat := [4, 4, 4, 4, 4, 4, 4, 4, 4, 4, 4, 4, 4, 4, 4, 4]
  /-- Well ownership; an unlisted Well is PF0's (R85). -/
  wells : Tab (Option WellOwner) := []
  ports : Tab PortCfg := []
  /-- Cut-through pairs by 256 x ingress + egress (R173). -/
  cutThrough : Tab Bool := []
  /-- Ring pairs: East and West port (R177). -/
  rings : Tab (Option (Nat × Nat)) := []
  /-- The cage map (R181). -/
  cages : Tab (Option Cage) := []
  bases : Tab BaseCfg := []
  portTime : Tab PortTime := []
  ptp : Tab PtpCfg := []
  pps : PpsCfg := {}
  synce : Tab SynceCfg := []
  tenantBase : Tab Nat := []
  /-- The tenant and the handle range of each assigned domain (R437). -/
  domainOwner : Tab (Option DomainOwner) := []
  sites : Tab SiteCfg := []
  /-- Dwell plans by 3 x site + band. -/
  dwell : Tab DwellPlan := []
  pair : PairCfg := {}
  /-- PIPE_TEST_MIN (R641). -/
  pipeTestMin : Nat := 60
  own : OwnCfg := {}
  deriving DecidableEq, Repr

/-- A configuration blob in MRAM (R50, R56, R58, R512). -/
structure Blob where
  seq : Nat
  version : Nat
  /-- The integrity check passes. -/
  ok : Bool := true
  cfg : Cfg
  deriving DecidableEq, Repr

/-- A staged MRAM commit (R509, R510): what it writes when its commit word is written. -/
inductive Commit where
  /-- A journal record: the settings after it (R512), and the response that follows it. -/
  | journal (c : Cfg) (reply : Option (Req × Reply))
  /-- Lease records under one UNIT (R513): domain, KEY_EPOCH and LEASE_END. -/
  | lease (l : List (Nat × Lease))
  deriving DecidableEq, Repr

/-- MRAM and fuses. -/
structure Nvm where
  fuses : Fuses := {}
  bootA : BootRec := {}
  bootB : BootRec := {}
  cleanMark : Bool := false
  /-- The blob in force, and an older blob that is retained (R56, R58). -/
  blob : Option Blob := none
  oldBlob : Option Blob := none
  /-- Settings of the latest journal record, and how many records the journal holds (R512). -/
  journal : Option Cfg := none
  journalUsed : Nat := 0
  /-- Commits staged and not yet in force, oldest first. -/
  staged : List Commit := []
  keys : KeyStore := {}
  leases : Tab Lease := []
  resume : List Resume := []
  /-- The boot flash: banks A and B (R597). -/
  flashA : FlashBank := {}
  flashB : FlashBank := {}
  deriving DecidableEq, Repr

/-- Why a step stops with a fault: never. Every command of this block ends in a next state, because the spec gives
each of them an effect or says that it is discarded; the type has no constructor. -/
inductive Fault where
  deriving DecidableEq, Repr

/-- Why a step refuses a command. -/
inductive Refusal where
  /-- Raised by an arm of `exec` that has no meaning yet; safe, since nothing can be proved of such a command. -/
  | notModelled (mnemonic : String)
  deriving DecidableEq, Repr

/-- The state of the device, and the queue of commands that wait for it. -/
structure State where
  ms : Modes
  host : HostIf
  /-- Settings in force. -/
  cfg : Cfg
  nv : Nvm
  procs : Processors
  time : Time
  ports : Ports
  fwd : Fwd
  qos : Qos
  radio : Radio
  mesh : Mesh
  pins : Pins
  power : Power
  jtag : Jtag
  pair : Pair
  svc : Service
  snap : Snap
  bist : Bist
  trace : Trace
  /-- Every counter and gauge of the snapshot window, by window slot. -/
  ctr : Tab Nat
  /-- The model's own: how many free values have been drawn (log entry 3). -/
  draws : Nat
  /-- Commands that wait, first in, first out. -/
  pending : List Instr
  deriving DecidableEq, Repr

/-- VLAN 1 as it exists from M1 entry, less the radio ports (R234). -/
def vlanOne : Vlan :=
  { tenant := 0, learn := true, flood := true, ageLimit := 300, members := 2 ^ 256 - 1, untagged := 2 ^ 256 - 1 }

/-- The device after reset: the state at the entry to M1 BOOT by a power-on with nothing kept (R41, R46, R48):
the MODE_CHANGE entry of that T4 waits for the MGCs (R44, R694). -/
def State.reset : State where
  ms := { mode := .m1, resetCause := 1, unclean := true, noted := [[0, 1, 4, 0, 0, 0, 0, 0, 0]] }
  host := {}
  cfg := {}
  nv := {}
  procs := {}
  time := {}
  ports := {}
  fwd := { tables := { vlans := [(1, some vlanOne)] } }
  qos := {}
  radio := {}
  mesh := {}
  pins := {}
  power := {}
  jtag := {}
  pair := {}
  svc := {}
  snap := {}
  bist := {}
  trace := {}
  ctr := []
  draws := 0
  pending := []

end Sys2Proof.Machine
end

