-- ==== Sys2Proof/Machine/Ops.lean ====
section
/-! DEFINITION. The named operations over the state: the canonical sparse table, counters, time, MSI-X, Wells (R88 to
R95), paced entries (R697), and the accessors of indexed objects. -/

namespace Sys2Proof.Machine

/-! ### The sparse table -/

/-- The value at a number: the first entry of that number, else the default. -/
def tget {α : Type} (d : α) : Tab α → Nat → α
  | [], _ => d
  | (k, v) :: t, n => if k = n then v else tget d t n

/-- Insert or replace in order. -/
def tput {α : Type} : Tab α → Nat → α → Tab α
  | [], n, v => [(n, v)]
  | (k, w) :: t, n, v => if n < k then (n, v) :: (k, w) :: t else if n = k then (n, v) :: t else (k, w) :: tput t n v

/-- Set the value at a number; the default is not listed. -/
def tset {α : Type} [DecidableEq α] (d : α) (t : Tab α) (n : Nat) (v : α) : Tab α :=
  if v = d then t.filter (fun e => e.1 != n) else tput t n v

/-- Change the value at a number. -/
def tmod {α : Type} [DecidableEq α] (d : α) (t : Tab α) (n : Nat) (f : α → α) : Tab α := tset d t n (f (tget d t n))

/-- The table of a list of entries. -/
def listTab {α : Type} [DecidableEq α] (d : α) (l : List (Nat × α)) : Tab α := l.foldl (fun t e => tset d t e.1 e.2) []

/-- Numbers strictly rising. -/
def risingFrom {α : Type} : Nat → Tab α → Bool
  | _, [] => true
  | n, (k, _) :: t => decide (n ≤ k) && risingFrom (k + 1) t

/-- The canonical form: numbers strictly rising, no default listed. -/
def twf {α : Type} [DecidableEq α] (d : α) (t : Tab α) : Bool := risingFrom 0 t && t.all (fun e => decide (e.2 ≠ d))

/-! ### Counters -/

/-- Current value of a counter. -/
def State.counter (s : State) (c : Ctr) : Nat := tget 0 s.ctr c.slot

/-- Add to a counter, wrapping at its width (R12). -/
def State.count (s : State) (c : Ctr) (n : Nat := 1) : State :=
  { s with ctr := tset 0 s.ctr c.slot (wrapAdd c.width (s.counter c) n) }

/-- Count where a condition holds. -/
def State.countIf (s : State) (b : Bool) (c : Ctr) : State := if b then s.count c else s

/-- Set a gauge. -/
def State.gauge (s : State) (c : Ctr) (v : Nat) : State := { s with ctr := tset 0 s.ctr c.slot (v % 2 ^ c.width) }

/-! ### Free values -/

/-- A fresh free value, and the state with the draw counted (log entry 3). -/
def State.draw (s : State) : Nat × State := (Config.freeNat s.draws, { s with draws := s.draws + 1 })

/-- `n` octets of the DRBG (R507), and the state with the draw counted. -/
def State.drawOctets (s : State) (n : Nat) : Bytes × State :=
  (fit n (Config.drbg s.draws n), { s with draws := s.draws + 1 })

/-! ### Time -/

def State.base (s : State) (b : Nat) : Base := tget {} s.time.bases b

def State.modBase (s : State) (b : Nat) (f : Base → Base) : State :=
  { s with time := { s.time with bases := tmod {} s.time.bases b f } }

def State.baseCfg (s : State) (b : Nat) : BaseCfg := tget {} s.cfg.bases b

/-- Value of a base in whole nanoseconds, FRACTION ignored (R137). -/
def State.ns (s : State) (b : Nat) : Nat := (s.base b).t / 65536

/-- SECONDS and NANOSECONDS of a base. -/
def State.now (s : State) (b : Nat) : Nat × Nat := (s.ns b / 1000000000, s.ns b % 1000000000)

/-! ### Modes -/

/-- The mode as MODE_STATUS numbers it. -/
def Mode.num : Mode → Nat
  | .m0 => 0 | .m1 => 1 | .m2 => 2 | .m3 => 3 | .m4 => 4 | .m5 => 5 | .m6 => 6 | .m7 => 7

/-- M3 to M6, in which forwarding and radio work run (R39); not once PFW_N has fallen (R49). -/
def State.inService (s : State) : Bool :=
  match s.ms.mode with
  | .m3 | .m4 | .m5 | .m6 => !s.ms.inTransition
  | _ => false

/-- The ring pass-through runs (R39). -/
def State.passMode (s : State) : Bool :=
  match s.ms.mode with
  | .m1 | .m2 | .m7 => true
  | _ => false

/-- M7 SAFE with cause NO_IMAGE (R55). -/
def State.noImage (s : State) : Bool := s.ms.mode == .m7 && s.ms.safeCause == 3

/-- The endpoint answers: the device is out of M0, PCIE_PERST_N is high and REFCLK_RC is present (R52, R665, R672). -/
def State.answers (s : State) : Bool := s.ms.mode != .m0 && !s.host.perst && s.pins.refclkRc

/-- In a pair, the device whose outputs reach the world: M4, or M6 with ACTIVE_OUT high; and M3 while its standby
synchronises from phase 3 on, from which carried items apply on both devices (R566). -/
def State.leads (s : State) : Bool :=
  s.ms.mode == .m4 || (s.ms.mode == .m6 && s.pins.activeOut) || (s.ms.mode == .m3 && decide (3 ≤ s.pair.peerPhase))

/-- In a pair, the other device: M5, or M6 with ACTIVE_OUT low. -/
def State.follows (s : State) : Bool := s.ms.mode == .m5 || (s.ms.mode == .m6 && !s.pins.activeOut)

/-! ### The Pair Link -/

/-- Compare epoch of a pair clock value (R537). -/
def epochOf (clock : Nat) : Nat := 5 * clock / 131072

/-- The duration counter's epoch, which in a pair is the pair clock's (R538). -/
def State.epoch (s : State) : Nat := epochOf s.time.duration

/-- Change the pair's state. -/
def State.modPair (s : State) (f : Pair → Pair) : State := { s with pair := f s.pair }

/-- TYPE of a message (R541). -/
def PairMsg.type : PairMsg → Nat
  | .hello => 0x0D
  | .heartbeat => 0x01
  | .digest _ => 0x02
  | .arbitrate _ => 0x03
  | .equinox _ => 0x04
  | .command _ _ _ _ => 0x05
  | .check _ _ _ _ _ => 0x06
  | .item _ r =>
    match r with
    | .effect _ => 0x07
    | .measure _ => 0x08
    | .learn _ _ | .aged _ _ _ => 0x09
    | .retire _ _ => 0x0A
    | .seed _ => 0x0B
    | .inject _ => 0x0C
  | .key _ _ _ => 0x0E
  | .state => 0x0F

/-- Cells of a message: HELLO and KEY fit one; what the others take is the release's own (R541). -/
def PairMsg.cells (m : PairMsg) (cseq : Nat) : Nat :=
  match m with
  | .hello | .key _ _ _ => 1
  | _ => 1 + Config.pairCells m.type cseq

/-- Send a message on the Pair Link, while it is up (R540, R542). -/
def State.pairSend (s : State) (m : PairMsg) : State :=
  if s.pair.linkUp then
    let n := m.cells s.pair.cseq.toNat
    s.modPair fun p => { p with sent := m :: p.sent, cseq := p.cseq + BitVec.ofNat 32 n,
                                unacked := p.unacked ++ [(p.cseq, n)] }
  else s

/-- Insert an item behind those of its release epoch (R540: ITEM). -/
def insertRelease (l : List (Nat × Release)) (e : Nat) (r : Release) : List (Nat × Release) :=
  l.takeWhile (fun x => decide (x.1 ≤ e)) ++ [(e, r)] ++ l.dropWhile (fun x => decide (x.1 ≤ e))

/-- Let an item take effect on both devices, `delay` epochs on (R545 to R555). -/
def State.carry (s : State) (delay : Nat) (r : Release) : State :=
  let e := s.epoch + delay
  (s.modPair fun p => { p with releases := insertRelease p.releases e r }).pairSend (.item e r)

/-- What a firmware effect concerns: two effects of one key are one effect of the two devices. -/
def effectKey : FwEffect → Nat × Nat × Nat
  | .ptp p _ => (0, p, 0)
  | .join d _ eui _ _ _ => (1, d, eui)
  | .refuse d eui _ => (1, d, eui)
  | .loading _ h down _ _ _ => (2, h, b2n down)
  | .reports d h _ _ => (3, d, h)
  | .imageBlock slot _ off _ => (4, slot, off)
  | .leases _ => (5, 0, 0)

/-- A shadow effect of the standby's firmware, or a carried one, meets its counterpart: a difference counts in
FW_MISMATCH (R548). One without counterpart waits for it. -/
def State.meetEffect (s : State) (shadow : Bool) (e : FwEffect) : State :=
  let other := if shadow then s.pair.arrived else s.pair.shadow
  match other.find? fun x => effectKey x == effectKey e with
  | some x =>
    let s := s.modPair fun p =>
      if shadow then { p with arrived := p.arrived.erase x } else { p with shadow := p.shadow.erase x }
    if x = e then s
    else { s with ctr := tset 0 s.ctr (Ctr.device .fwMismatch).slot (wrapAdd 32 (s.counter (.device .fwMismatch)) 1) }
  | none => s.modPair fun p =>
      if shadow then { p with shadow := p.shadow ++ [e] } else { p with arrived := p.arrived ++ [e] }

/-- A firmware effect (R548): alone it is applied; the active carries it, 16 epochs on; the standby computes it in shadow,
from the join epoch on. -/
def State.firmware (s : State) (e : FwEffect) (apply : State → State) : State :=
  if s.leads then s.carry 16 (.effect e)
  else if s.follows then if 4 ≤ s.pair.phase then s.meetEffect true e else s
  else apply s

/-- A measurement (R549): alone it is applied; the active carries it for both devices, 16 epochs on (log entry 51); the
standby takes only carried ones. -/
def State.measure (s : State) (m : Measure) (apply : State → State) : State :=
  if s.leads then s.carry 16 (.measure m) else if s.follows then s else apply s

/-- The next output of a generator under the pair seed (R551): 0 the downlink LOFDM SEED, 1 the first datagram tags. -/
def State.generate (s : State) (gen : Nat) : Nat × State :=
  let n := tget 0 s.pair.generated gen
  (Config.pairOutput s.pair.seed gen n, s.modPair fun p => { p with generated := tset 0 p.generated gen (n + 1) })

/-! ### Functions, mailboxes and MSI-X -/

def State.mbox (s : State) (f : Nat) : Mbox := tget {} s.host.mbox f

def State.modMbox (s : State) (f : Nat) (g : Mbox → Mbox) : State :=
  { s with host := { s.host with mbox := tmod {} s.host.mbox f g } }

def State.busMaster (s : State) (f : Nat) : Bool := tget false s.host.busMaster f

/-- Vectors of a function (R97). -/
def vectorCount (f : Nat) : Nat := if f = 0 then 256 else 32

/-- Ask for a vector: a masked or unreachable vector becomes pending, any other is sent (R97). A source that asks again
while its vector is pending adds no second message, and a number beyond the function's count names no vector. A message that Bus
Master Enable keeps back is pending, and leaves when its vector is next unmasked or asked for (DESIGN CHOICE, log entry 93). -/
def State.raise (s : State) (f v : Nat) : State :=
  let k := 256 * f + v
  let e := tget {} s.host.msix k
  if vectorCount f ≤ v then s
  else if e.masked || !s.busMaster f then
    { s with host := { s.host with msix := tset {} s.host.msix k { e with pending := true } } }
  else { s with host := { s.host with messages := (f, v) :: s.host.messages, msix := tset {} s.host.msix k { e with pending := false } } }

/-- Set an error bit of MBOX_STATUS and raise the error vector when ERR_IRQ_EN is set (R71). -/
def State.mboxError (s : State) (f : Nat) (g : Mbox → Mbox) : State :=
  let s := s.modMbox f g
  if (s.mbox f).errIrqEn then s.raise f (s.mbox f).errVector.toNat else s

/-! ### Wells -/

def State.well (s : State) (w : Nat) : Well := tget {} s.host.wells w

def State.setWell (s : State) (w : Nat) (x : Well) : State :=
  { s with host := { s.host with wells := tset {} s.host.wells w x } }

/-- The tenant that owns a Well, none for PF0 (R85). -/
def State.wellOwner (s : State) (w : Nat) : Option WellOwner := if w < 4 then none else tget none s.cfg.wells w

/-- The function that owns a Well. -/
def State.wellFn (s : State) (w : Nat) : Nat :=
  match s.wellOwner w with
  | none => 0
  | some o => o.tenant + 1

/-- The Well that a function names: a Well number from PF0, a slot from a VF; none where no Well is assigned. -/
def State.wellAt (s : State) (f slot : Nat) : Option Nat :=
  if f = 0 then some slot
  else (s.cfg.wells.find? fun e =>
    match e.2 with
    | some o => o.tenant + 1 == f && o.slot == slot
    | none => false).map (·.1)

/-- The tenant of a domain (R437). -/
def State.domainTenant (s : State) (d : Nat) : Option Nat := (tget none s.cfg.domainOwner d).map (·.tenant)

/-- The fault Well of a tenant. -/
def State.faultWell (s : State) (t : Nat) : Option Nat :=
  (s.cfg.wells.find? fun e =>
    match e.2 with
    | some o => o.tenant == t && o.fault
    | none => false).map (·.1)

/-- Entries per bank. -/
def Well.size (w : Well) : Nat := 2 ^ w.log2

/-- Most entries that wait for a credit Well (R92). -/
def maxWaiting : Nat := 4096

/-- Wells 0-3 are credit Wells (R85). -/
def isCredit (w : Nat) : Bool := decide (w < 4)

/-- Move waiting entries of an enabled credit Well to the staging FIFO while credit lasts (R92). -/
def Well.spend (w : Well) : Well :=
  let n := w.size - w.creditOut
  { w with
    staged := w.staged ++ w.waiting.take n
    creditOut := w.creditOut + (w.waiting.take n).length
    waiting := w.waiting.drop n }

/-- An entry made for a Well whose owner's DMA is allowed (`bm`) or not, at a time on the Well's base (R67, R88, R92): without DMA
it is treated as for a disabled Well, but takes its SEQ in an enabled one (log entry 88). -/
def Well.make (credit bm : Bool) (w : Well) (now : Nat × Nat) (source type : Nat) (body : Bytes) : Well :=
  let e : WellEntry := { seq := w.nextSeq.toNat, source := source, type := type, timeS := now.1, timeNs := now.2,
                         body := fit 14 body }
  let numbered := { w with nextSeq := w.nextSeq + 1 }
  if w.enable && bm then
    let w := numbered
    if credit then
      if w.waiting.isEmpty && decide (w.creditOut < w.size) then
        { w with staged := w.staged ++ [e], creditOut := w.creditOut + 1 }
      else if w.waiting.length < maxWaiting then { w with waiting := w.waiting ++ [e] }
      else { w with lost := w.lost + 1 }
    else { w with staged := w.staged ++ [e] }
  else
    let w := if w.enable then numbered else w
    if credit && decide (w.waiting.length < maxWaiting) then { w with waiting := w.waiting ++ [e] }
    else { w with lost := w.lost + 1 }

/-- What a standby writes itself (R582): SOURCE 1, 2, 3, 4 and 12, and LINK_UP and LINK_DOWN; and the entries of its own
transfer session, SOURCE 11 (R606, R626; log entry 52). -/
def standbyWrites (source type : Nat) : Bool := [1, 2, 3, 4, 11, 12].contains source || type == 0x0601 || type == 0x0602

/-- Put an entry into a Well (R88): SOURCE, TYPE and the body's bytes 18-31. -/
def State.putEntry (s : State) (w source type : Nat) (body : Bytes) : State :=
  let x := s.well w
  s.setWell w (x.make (isCredit w) (s.busMaster (s.wellFn w)) (s.now x.timeBase) source type body)

/-- Write an entry to a Well (R88); in a pair every entry but those of R582 is the active device's. -/
def State.produce (s : State) (w source type : Nat) (body : Bytes) : State :=
  if s.follows && !standbyWrites source type then s else s.putEntry w source type body

/-- An entry to the PF0 alarm Well. -/
def State.alarm (s : State) (source type : Nat) (body : Bytes) : State := s.produce 1 source type body

/-- An entry to a tenant's fault Well, when it has one. -/
def State.toFaultWell (s : State) (t source type : Nat) (body : Bytes) : State :=
  match s.faultWell t with
  | some w => s.produce w source type body
  | none => s

/-- Close the fill bank (R89, R90): the other bank is drained, or its generation is overwritten first. -/
def Well.close (w : Well) : Well :=
  { w with ready := w.fill, fill := [], readyGen := w.readyGen + 1, fillBank := !w.fillBank }

/-- Discard the undrained generation (R90). -/
def Well.overwrite (w : Well) : Well :=
  { w with lost := w.lost + BitVec.ofNat 32 w.ready.length, overwritten := true, ready := [] }

/-- The LEVEL in force (R87): 0 acts as 1, more than the bank size as the bank size. -/
def Well.level (w : Well) : Nat := min (max w.mark.toNat 1) w.size

/-- DONE and CLOSE of a Well that was disabled, or enabled anew, start the banks afresh (R87, R92). -/
def Well.start (w : Well) (credit : Bool) : Well :=
  let w := { w with fillBank := false, fill := [], ready := [], readyGen := 0, total := 0, nextSeq := 0,
                    staged := [], creditOut := 0 }
  if credit then
    let numbered := (w.waiting.zip (List.range w.waiting.length)).map fun p => { p.1 with seq := p.2 }
    ({ w with waiting := numbered, nextSeq := BitVec.ofNat 32 numbered.length }).spend
  else w

/-- ENABLE cleared (R92, R96): entries already written stay; those of a credit Well not yet written wait again, those
of an overwrite Well are lost. -/
def Well.stop (w : Well) (credit : Bool) : Well :=
  if credit then { w with enable := false, waiting := w.staged ++ w.waiting, staged := [] }
  else { w with enable := false, lost := w.lost + BitVec.ofNat 32 w.staged.length, staged := [] }

/-! ### Paced entries (R697) -/

/-- Number of the key of a paced entry: the entry's TYPE and an object number. -/
def paceKey (type obj : Nat) : Nat := type * 2 ^ 40 + obj

/-- Write a paced entry now, with its event count in place. -/
def State.writePaced (s : State) (p : Paced) (n : Nat) : State :=
  s.produce p.well p.source p.type
    (p.body.take p.countAt ++ leBytes p.countLen (min n (2 ^ (8 * p.countLen) - 1)) ++ p.body.drop (p.countAt + p.countLen))

/-- An event of a paced entry: written at once at the first event, else held for the end of the running second. -/
def State.pace (s : State) (obj well source type : Nat) (body : Bytes) (countAt countLen : Nat) : State :=
  let k := paceKey type (well * 2 ^ 17 + obj)
  let old := tget none s.host.paced k
  let busy := match old with | some p => p.running | none => false
  let prior := match old with | some p => p.events | none => 0
  let p : Paced := { well := well, source := source, type := type, body := fit 14 body, countAt := countAt,
                     countLen := countLen, events := prior + 1, running := true }
  if busy then { s with host := { s.host with paced := tset none s.host.paced k (some p) } }
  else
    let s := s.writePaced p p.events
    { s with host := { s.host with paced := tset none s.host.paced k (some { p with events := 0 }) } }

/-! ### Settings -/

/-- No blob is in force, so a setting is applied and not stored (R696). With cause 2 or 7 it is stored, whatever became of the blobs
(DESIGN CHOICE, log entry 131). -/
def State.unstored (s : State) : Bool :=
  s.ms.mode == .m7 && (s.ms.safeCause == 4 || s.ms.safeCause == 5)

/-- Apply a setting that the configuration blob stores: at once to the running device, and by a journal record
(R50, R512, R696). -/
def State.store (s : State) (f : Cfg → Cfg) : State :=
  let s := { s with cfg := f s.cfg }
  if s.unstored then s else { s with nv := { s.nv with staged := s.nv.staged ++ [.journal s.cfg none] } }

/-! ### Ports -/

def State.portCfg (s : State) (p : Nat) : PortCfg := tget {} s.cfg.ports p

def State.portSt (s : State) (p : Nat) : PortSt := tget {} s.ports.st p

def State.modPort (s : State) (p : Nat) (f : PortSt → PortSt) : State :=
  { s with ports := { s.ports with st := tmod {} s.ports.st p f } }

/-- The site whose radio port this is. -/
def State.portSite (s : State) (p : Nat) : Option Nat := (s.portCfg p).site

/-- The radio port of a site. -/
def State.sitePort (s : State) (site : Nat) : Option Nat :=
  (s.cfg.ports.find? fun e => e.2.site == some site).map (·.1)

/-- Ring pair and side of a port: false East, true West. -/
def State.ringOf (s : State) (p : Nat) : Option (Nat × Bool) :=
  (s.cfg.rings.findSome? fun e =>
    match e.2 with
    | some (ea, we) => if ea = p then some (e.1, false) else if we = p then some (e.1, true) else none
    | none => none)

/-- Lanes and lane rate in Gbit/s of a mode (R158). -/
def modeLanes : Nat → Nat × Nat
  | 1 => (1, 10) | 2 => (1, 25) | 3 => (1, 50) | 4 => (2, 50) | 5 => (1, 100) | 6 => (4, 50) | 7 => (2, 100)
  | 8 => (8, 50) | 9 => (4, 100) | 10 => (8, 100) | _ => (0, 0)

/-- The mode runs RS(544,514) (R158); the others have no FEC. -/
def modeFec (m : Nat) : Bool := decide (3 ≤ m) && decide (m ≤ 10)

/-- Line rate of a mode in Mbit/s (R158). -/
def modeSpeed (m : Nat) : Nat := (modeLanes m).1 * (modeLanes m).2 * 1000

/-- Device lane numbers of a port. -/
def State.portLanes (s : State) (p : Nat) : List Nat :=
  let c := s.portCfg p
  (List.range (modeLanes c.mode).1).map fun i => 64 * (p / 32) + c.firstLane + i

end Sys2Proof.Machine
end

