-- ==== Sys2Proof/Machine/Aci.lean ====
section
/-! DEFINITION. The mailbox (R71 to R84, R95): reading a descriptor, the order of checks of R80, the response, the
ACCEPTED response and the completion event, and the carrying of setting commands in M4 ACTIVE (R545). -/

namespace Sys2Proof.Machine

/-- Status codes of R80. -/
def stOk : Nat := 0x0000
def stAccepted : Nat := 0x0001
def stBadOpcode : Nat := 0x0010
def stBadParam : Nat := 0x0011
def stBadLength : Nat := 0x0012
def stBusy : Nat := 0x0020
def stNoResource : Nat := 0x0021
def stDenied : Nat := 0x0030
def stNotInMode : Nat := 0x0031
def stRetries : Nat := 0x0040
def stDeadline : Nat := 0x0041
def stContract : Nat := 0x0050
def stSignature : Nat := 0x0051
def stIntegrity : Nat := 0x0052
def stVersion : Nat := 0x0053
def stStale : Nat := 0x0060
def stDiverged : Nat := 0x0070
def stInternal : Nat := 0x00FF

/-- The opcodes of this release (R689, R690): group and how many, from 1 up. -/
def definedOps : List Nat :=
  [0x0101, 0x0102, 0x0103, 0x0104, 0x0105, 0x0106, 0x0110] ++
    [(2, 9), (3, 13), (4, 9), (5, 8), (6, 8), (7, 7), (8, 10), (9, 9), (10, 6), (11, 3), (12, 6), (13, 3)].flatMap
      fun g => (List.range g.2).map fun i => 256 * g.1 + i + 1

/-- A check: fails with the status and subcode when the condition holds. -/
def failIf (c : Bool) (st sub : Nat) : Chk := if c then some (st, sub) else none

/-- The first failure of a list of checks. -/
def firstOf : List Chk → Chk
  | [] => none
  | some e :: _ => some e
  | none :: l => firstOf l

/-- BAD_PARAM with a subcode when the condition holds. -/
def badIf (c : Bool) (sub : Nat) : Chk := failIf c stBadParam sub

/-- What the catalogue (R690) and a command's chapter say of it. -/
structure AciSpec where
  op : Nat
  /-- The payload lengths that the opcode takes, for the payload at hand. -/
  lenOk : Nat → Bytes → Bool := fun n _ => n == 0
  /-- More than 24 bytes of results: a host buffer is given whatever the length (R73). -/
  buffer : Bool := false
  /-- The payload of such a command lies inline all the same (R524). -/
  inlinePl : Bool := false
  pf0Only : Bool := true
  modes : List Mode
  carried : Bool := false
  /-- Of a carried command: the request at hand is answered by the device that reads it, and not carried (R546). -/
  isLocal : Req → State → Bool := fun _ _ => false
  /-- Reserved bits of the payload: byte offset in the payload and mask. -/
  rsv : Bytes → List (Nat × Nat) := fun _ => []
  /-- BAD_PARAM on the parameters, before anything that depends on an object (R80 step 4). -/
  par : Req → State → Chk := fun _ _ => none
  /-- A VF owns the domain, node, queue or Well that it names (R16). A VF that names a foreign one in a command of PF0 learns
  nothing of it: DENIED comes before the checks on the object, with subcode 0x01 (log entry 7). -/
  owned : Req → State → Bool := fun _ _ => true
  /-- BAD_PARAM that depends on the named object, then BUSY, then NO_RESOURCE. -/
  avail : Req → State → Chk := fun _ _ => none
  /-- DENIED other than subcodes 0x01 of a PF0-only command and 0x02 of R16. -/
  denied : Req → State → Chk := fun _ _ => none
  /-- NOT_IN_MODE conditions beyond the list of modes. -/
  modeOk : Req → State → Bool := fun _ _ => true
  /-- A status later in the table of R80 that is fixed at the check. -/
  late : Req → State → Chk := fun _ _ => none
  /-- The command is answered ACCEPTED and needs a completion Well (R95). -/
  accepts : Req → State → Bool := fun _ _ => false
  effect : Req → State → State × Reply
  /-- What the board answers to an access that the command makes: an acknowledgement and data. -/
  board : Bool × Bytes := (false, [])

/-- The payload of a descriptor: LENGTH bytes, inline when at most 48 and no buffer is in use, else from the buffer. -/
def payload (a : Aci) (buffer : Bool) : Bytes :=
  if a.len.toNat ≤ 48 && !buffer then fit a.len.toNat a.inl else fit a.len.toNat a.buf

/-- The command that a descriptor holds. -/
def reqOf (op : Nat) (buffer : Bool) (a : Aci) : Req :=
  { fn := a.fn.val, opcode := op, tag := a.tagWord.toNat % 4096, fence := bit a.byte4.toNat 0, len := a.len.toNat,
    buffer := a.buffer.toNat, pl := payload a buffer }

/-! ### Reading a descriptor -/

/-- The processor that serves a function: 1 MGC0, 2 MGC1 (R21). -/
def mgcOf (f : Nat) : Nat := if f ≤ 8 then 1 else 2

/-- The MGC of a function has failed and is being reloaded: it writes no response and no completion event until it runs (R22, R23). -/
def State.mgcDown (s : State) (f : Nat) : Bool := s.procs.reloading.contains (mgcOf f)

/-- The mode lets the function's command ring be read (R39, R52, R55, R579). -/
def State.modeReads (s : State) (f : Nat) : Bool :=
  match s.ms.mode with
  | .m0 | .m6 => false
  | .m1 | .m2 => f == 0 && s.procs.loaded
  | .m3 | .m4 | .m5 => true
  | .m7 => f == 0 || !s.noImage

/-- Ring entries: 2^LOG2. -/
def Mbox.cmdSize (m : Mbox) : Nat := 2 ^ m.cmdLog2.toNat
def Mbox.rspSize (m : Mbox) : Nat := 2 ^ m.rspLog2.toNat

/-- Commands in flight that this device answers; on the standby the carried ones are the active device's. -/
def Mbox.mine (m : Mbox) : List CmdRef := m.inflight.filter (·.own)

/-- Responses that lie in the ring or have a slot reserved in it (R77). -/
def Mbox.rspUsed (m : Mbox) : Nat := (m.rspTail - m.rspHead).toNat + m.mine.length + m.heldRsp.length

/-- A descriptor of this function lies ready to be read (R67, R72, R77, R84). -/
def State.readable (s : State) (f : Nat) : Bool :=
  let m := s.mbox f
  s.answers && !s.ms.inTransition && s.modeReads f && m.enable && s.busMaster f && !m.tenantHeld && m.cmdTail != m.cmdHead &&
    decide (m.rspUsed < m.rspSize) && !s.mgcDown f

/-- The functions that an MGC serves before `f` in this round: from the one whose turn it is (R33, R78). -/
def State.before (s : State) (f : Nat) : List Nat :=
  let turn := if f ≤ 8 then s.host.turn0 else s.host.turn1
  let all := if f ≤ 8 then List.range 9 else (List.range 8).map (· + 9)
  ((all.filter fun g => decide (turn ≤ g)) ++ all.filter fun g => decide (g < turn)).takeWhile (· != f)

/-- The device reads a descriptor of this function now: one lies ready, and it is the function's turn at its MGC. -/
def State.canRead (s : State) (f : Nat) : Bool := s.readable f && !(s.before f).any s.readable

/-- The descriptor at CMD_HEAD is read, and the turn goes to the next function. -/
def State.takeDesc (s : State) (f : Nat) : State :=
  let s := s.modMbox f fun m => { m with cmdHead := m.cmdHead + 1 }
  { s with host := if f ≤ 8 then { s.host with turn0 := (f + 1) % 9 } else { s.host with turn1 := if f < 16 then f + 1 else 9 } }

/-- The key slot that a KEY command names (R518 to R524), past the last slot where it names none; 0 for another command. -/
def Req.object (r : Req) : Nat :=
  if r.opcode = 0x0901 then byteAt r.pl 0 % 16
  else if r.opcode = 0x0902 then 32 + byteAt r.pl 0 % 64
  else if 0x0903 ≤ r.opcode ∧ r.opcode ≤ 0x0907 then leAt r.pl 0 2 % 4096
  else if r.opcode / 256 = 9 then 4096
  else 0

/-- The command among those in flight. -/
def Req.ref (r : Req) : CmdRef := { tag := r.tag, opcode := r.opcode, fence := r.fence, object := r.object }

/-- Of two commands of a function, the later may not start before the response of the earlier: one of them carries FENCE, or
they are of one opcode group and, of KEY commands, name one slot (R78, R511; log entry 8). -/
def CmdRef.blocks (a b : CmdRef) : Bool := a.fence || b.fence || (a.opcode / 256 == b.opcode / 256 && a.object == b.object)

/-- A command of the function in flight keeps a new one from starting. -/
def State.fenced (s : State) (r : Req) : Bool := (s.mbox r.fn).mine.any fun c => c.blocks r.ref

/-- SHARE of a function (R76). -/
def State.share (s : State) (f : Nat) : Nat := s.cfg.shares.getD f 0

/-- A tag in flight, or ACCEPTED without its completion event (R79). -/
def State.tagInUse (s : State) (f tag : Nat) : Bool :=
  (s.mbox f).mine.any (·.tag % 4096 == tag) || (s.mbox f).accepted.any fun c => c.own && c.tag % 4096 == tag

/-- The completion Well is set and belongs to the function (R95). -/
def State.completionWell (s : State) (f : Nat) : Option Nat :=
  let m := s.mbox f
  if !m.complValid then none
  else
    match s.wellAt f m.complWell.toNat with
    | some w => if s.wellFn w = f then some w else none
    | none => none

/-- Steps 1 to 3 of R80 on the descriptor's own fields and length (step 1, BAD_OPCODE, is `unknownOpcode`), and the bytes 16-63
that no payload uses: a non-zero one past LENGTH is refused as a reserved field, for every command, and a BUFFER that the command
does not use is not looked at (DESIGN CHOICE, log entry 92). -/
def descCheck (c : AciSpec) (a : Aci) (s : State) : Chk :=
  let long := decide (48 < a.len.toNat) || c.buffer
  firstOf [
    badIf (decide (4096 ≤ a.tagWord.toNat)) 0x02,
    badIf (a.byte4.toNat / 2 != 0 || a.byte5 != 0) 0x01,
    badIf (s.tagInUse a.fn.val (a.tagWord.toNat % 4096)) 0x03,
    failIf (!c.lenOk a.len.toNat (payload a (c.buffer && !c.inlinePl))) stBadLength 0x01,
    failIf (long && (a.buffer == 0 || a.buffer.toNat % 64 != 0)) stBadLength 0x02,
    badIf (long && !c.inlinePl && !a.inl.all (· == 0)) 0x01,
    badIf ((!long || c.inlinePl) && !(a.inl.drop a.len.toNat).all (· == 0)) 0x01]

/-- The mode lets the command run: the catalogue's list, M1 only after processor load, NO_IMAGE (R55, R690), and not a
carried command on the standby (R546). -/
def AciSpec.modeAccepts (c : AciSpec) (r : Req) (s : State) : Bool :=
  c.modes.contains s.ms.mode && !(c.carried && !c.isLocal r s && s.ms.mode == .m5) && (s.ms.mode != .m1 || s.procs.loaded) &&
    (!s.noImage || decide (c.op / 256 = 0x0C) || c.op == 0x0101) && c.modeOk r s

/-- Records that the journal holds (R512). -/
def journalSize : Nat := 65536

/-- Journal records staged and not yet committed. -/
def State.journalStaged (s : State) : Nat :=
  (s.nv.staged.filter fun c => match c with | .journal _ _ => true | .lease _ => false).length

/-- The journal is full and an older blob is retained, so that no compaction can make room (R512). -/
def State.journalStuck (s : State) : Bool :=
  decide (journalSize ≤ s.nv.journalUsed + s.journalStaged) && s.nv.oldBlob.isSome

/-- The command changes a setting that the configuration blob holds, which takes a journal record (R512). -/
def AciSpec.stores (c : AciSpec) (r : Req) (s : State) : Bool := decide (s.journalStaged < (c.effect r s).1.journalStaged)

/-- BAD_PARAM, BUSY and NO_RESOURCE of the named object, with the BUSY of a journal that is full in its place (R80, R512). -/
def AciSpec.free (c : AciSpec) (r : Req) (s : State) : Chk :=
  match c.avail r s with
  | none => failIf (s.journalStuck && c.stores r s) stBusy 0x02
  | some e => if e.1 = stNoResource ∧ s.journalStuck ∧ c.stores r s then some (stBusy, 0x02) else some e

/-- Step 4 of R80, and BUSY and NO_RESOURCE of the named object. -/
def AciSpec.objects (c : AciSpec) (r : Req) (s : State) : Chk :=
  firstOf [
    badIf (!(c.rsv r.pl).all (maskZero r.pl)) 0x01,
    c.par r s,
    failIf (r.fn != 0 && !c.owned r s) stDenied (if c.pf0Only then 0x01 else 0x02),
    c.free r s]

/-- Steps 4 to 6 of R80, and the statuses later in its table that a chapter fixes at the check. -/
def AciSpec.check (c : AciSpec) (r : Req) (s : State) : Chk :=
  firstOf [
    c.objects r s,
    failIf (r.fn != 0 && c.pf0Only) stDenied 0x01,
    c.denied r s,
    failIf (!c.modeAccepts r s) stNotInMode 0,
    c.late r s,
    failIf (c.accepts r s && !r.carried && (s.completionWell r.fn).isNone) stNoResource 0x01]

/-! ### Answering -/

/-- Write a response descriptor (R74), and raise the response vector as MBOX_MOD sets (R71, R75). -/
def State.writeResponse (s : State) (f tag : Nat) (y : Reply) : State :=
  let m := s.mbox f
  if !s.busMaster f then s.modMbox f fun m => { m with heldRsp := (tag, y) :: m.heldRsp }
  else
    let n := m.rspTail.toNat
    let resp : Resp :=
      { slot := n % m.rspSize, phase := n / m.rspSize % 2 == 0, tag := tag % 4096, status := y.status, sub := y.sub,
        inBuffer := y.inBuffer || decide (24 < y.results.length), results := y.results }
    let due := m.rspIrqEn && decide (max m.modCount.toNat 1 ≤ m.unraised + 1)
    let s := s.modMbox f fun m =>
      { m with rspTail := m.rspTail + 1, responses := resp :: m.responses,
               unraised := if due then 0 else m.unraised + 1,
               busyCount := if y.status = stBusy then m.busyCount + 1 else m.busyCount }
    if due then s.raise f m.rspVector.toNat else s

/-- The response of a command that was in flight: it leaves the count (R76); an ACCEPTED one keeps its tag (R79). A command whose
MGC has failed stays in flight for the INTERNAL of the reload (R23). -/
def State.answer (s : State) (r : Req) (y : Reply) : State :=
  match if s.mgcDown r.fn then none else (s.mbox r.fn).inflight.find? fun c => c.tag == r.tag && c.opcode == r.opcode with
  | some ref =>
    let s := s.modMbox r.fn fun m =>
      { m with inflight := m.inflight.erase ref,
               accepted := if y.status = stAccepted then { ref with well := s.completionWell r.fn } :: m.accepted else m.accepted }
    if ref.own then s.writeResponse r.fn r.tag y else s
  | none => s

/-- The response of a command whose answer was deferred, if it is still in flight. -/
def State.answerLater (s : State) (r : Req) (y : Reply) : State := s.answer r y

/-- Write a completion event (R95): TAG, STATUS, SUBCODE, OPCODE and RESULT. When the function has no completion Well any more,
the one that the command was ACCEPTED for counts a lost entry (DESIGN CHOICE, log entry 130). -/
def State.completionEvent (s : State) (f tag opcode status sub : Nat) (result : Bytes) (well : Option Nat := none) : State :=
  match s.completionWell f, well with
  | some w, _ => s.putEntry w 0 0x0001
      (leBytes 2 (tag % 4096) ++ leBytes 2 status ++ leBytes 1 sub ++ [0] ++ leBytes 2 opcode ++ fit 6 result)
  | none, some w => let x := s.well w; s.setWell w { x with lost := x.lost + 1 }
  | none, none => s

/-- The device is one of a pair in service. -/
def State.paired (s : State) : Bool := s.leads || s.follows

/-- Record a final status of a carried ACCEPTED command until the other device's is known (R547). -/
def State.noteFinal (s : State) (ref : CmdRef) (f status sub : Nat) (result : Bytes) : State :=
  let old := s.pair.finals.find? fun x => x.fn == f && x.tag % 4096 == ref.tag % 4096
  let partner := match old with | some x => x.partner | none => none
  let x : Final := { fn := f, tag := ref.tag, opcode := ref.opcode, mine := some (status, sub, result), partner := partner, own := ref.own,
                     well := ref.well }
  (s.modPair fun p => { p with finals := p.finals.filter (fun y => !(y.fn == f && y.tag % 4096 == ref.tag % 4096)) ++ [x] }).pairSend
    (.check f (ref.tag % 4096) true status sub)

/-- An ACCEPTED command has its final status (R95): its completion event is written, once; of a carried command in a pair,
when both devices have theirs (R547). A tag that holds no ACCEPTED command makes none, and while the MGC is reloaded none is made
(R23). -/
def State.complete (s : State) (f tag opcode status sub : Nat) (result : Bytes := []) : State :=
  match if s.mgcDown f then none else (s.mbox f).accepted.find? fun c => c.tag == tag && c.opcode == opcode with
  | some ref =>
    let s := s.modMbox f fun m => { m with accepted := m.accepted.erase ref }
    if ref.carried && s.paired then s.noteFinal ref f status sub result
    else s.completionEvent f tag opcode status sub result ref.well
  | none => s

/-- The results of an ACCEPTED response (R82): DEADLINE on the function's base, and the command's own bytes 20-31. -/
def deadlineResults (base ns : Nat) (rest : Bytes := []) : Bytes :=
  leBytes 6 (ns / 1000000000) ++ leBytes 4 (ns % 1000000000) ++ leBytes 1 base ++ [0] ++ fit 12 rest

/-- The base of a function's deadlines: the tenant's selected base, TB0 for PF0 (R82, R107). -/
def State.deadlineBase (s : State) (f : Nat) : Nat := if f = 0 then 0 else tget 0 s.cfg.tenantBase (f - 1)

/-- A partner is synchronised, so that setting commands are carried (R545). -/
def State.carries (s : State) : Bool := s.leads && s.ms.mode != .m6

/-- Carry a command: both devices check it 64 epochs on (R545). -/
def State.carryCommand (s : State) (r : Req) : State :=
  let e := s.epoch + 64
  (s.modPair fun p => { p with carried := p.carried ++ [{ req := r, epoch := e, own := true }] }).pairSend
    (.command r.opcode r.fn (r.tag % 4096) e)

/-- Let the response of a setting wait for its journal record, the last commit staged (R512). -/
def State.replyAfterCommit (s : State) (r : Req) (y : Reply) : State :=
  match s.nv.staged.getLast? with
  | some (.journal c _) => { s with nv := { s.nv with staged := s.nv.staged.dropLast ++ [.journal c (some (r, y))] } }
  | _ => s.answer r y

/-- Run a command that has passed its checks: effect, then response. A setting that the configuration blob holds is
answered after its journal record is committed (R512). A command that has a host buffer leaves its results there (R73). -/
def AciSpec.run (c : AciSpec) (r : Req) (s : State) : State :=
  let p := c.effect r s
  let y := { p.2 with inBuffer := c.buffer && p.2.status == stOk && !p.2.results.isEmpty }
  let setting := decide (s.journalStaged < p.1.journalStaged)
  if p.2.deferred then p.1
  else if setting then p.1.replyAfterCommit r y
  else p.1.answer r y

/-- The command that a descriptor of the function holds, as it stands among those of the function. -/
def AciSpec.req (c : AciSpec) (a : Aci) (s : State) : Req :=
  let r := reqOf c.op (c.buffer && !c.inlinePl) a
  { r with tag := r.tag + 4096 * (s.mbox a.fn.val).life, readAt := s.ns (s.deadlineBase a.fn.val) }

/-- The parameters' own checks (R80 step 4). -/
def AciSpec.params (c : AciSpec) (r : Req) (s : State) : Chk :=
  firstOf [badIf (!(c.rsv r.pl).all (maskZero r.pl)) 0x01, c.par r s]

/-- What a command meets whose function has no share left (R76): a failure of step 4 comes before BUSY (R80). -/
def AciSpec.overShare (c : AciSpec) (r : Req) (s : State) : Nat × Nat :=
  match c.objects r s with
  | some (st, sub) => if st = stBadParam then (st, sub) else (stBusy, 0x01)
  | none => (stBusy, 0x01)

/-- The partner gets the command first (R545): a carried command on the active device of a synchronised pair. -/
def AciSpec.carries (c : AciSpec) (r : Req) (s : State) : Bool := c.carried && !c.isLocal r s && s.carries

/-- A command in flight starts: in M4 ACTIVE a carried one waits for its release epoch, 64 epochs on, with its checks (R545). -/
def AciSpec.start (c : AciSpec) (r : Req) (carry : Bool) (s : State) : State :=
  if carry then s.carryCommand r
  else
    match c.check r s with
    | some e => s.answer r { status := e.1, sub := e.2 }
    | none => c.run r s

/-- The device reads the descriptor at CMD_HEAD and works on the command (R72 to R80). Where the ring cannot be read now, the
descriptor stays in the ring and nothing happens. A command that an earlier one holds back is in flight and waits (R78). One within
its function's share starts whatever the number in flight in all (DESIGN CHOICE, log entry 130). -/
def AciSpec.exec (c : AciSpec) (a : Aci) (s : State) : State :=
  let f := a.fn.val
  let r := c.req a s
  if !s.canRead f then s
  else
    let s := s.takeDesc f
    match descCheck c a s with
    | some e => s.writeResponse f r.tag { status := e.1, sub := e.2 }
    | none =>
      if s.share f ≤ (s.mbox f).mine.length then
        let e := c.overShare r s
        s.writeResponse f r.tag { status := e.1, sub := e.2 }
      else if s.fenced r then
        s.modMbox f fun m => { m with inflight := r.ref :: m.inflight
                                      waiting := m.waiting ++ [{ req := r, ack := c.board.1, data := c.board.2 }] }
      else
        match c.params r s with
        | some e => s.writeResponse f r.tag { status := e.1, sub := e.2 }
        | none =>
          let carry := c.carries r s
          c.start r carry (s.modMbox f fun m => { m with inflight := { r.ref with carried := carry } :: m.inflight })

/-- OK with no results. -/
def okReply : Reply := {}

/-- OK with results. -/
def okWith (b : Bytes) : Reply := { results := b }

/-- ACCEPTED with a deadline `after` ns on the function's base (R82). -/
def State.acceptReply (s : State) (f after : Nat) (rest : Bytes := []) : Reply :=
  { status := stAccepted
    results := deadlineResults (s.deadlineBase f) (s.ns (s.deadlineBase f) + after) rest }

/-- ACCEPTED with a deadline `after` ns from the reading of the command (R429). -/
def State.acceptRead (s : State) (r : Req) (after : Nat) (rest : Bytes := []) : Reply :=
  { status := stAccepted, results := deadlineResults (s.deadlineBase r.fn) (r.readAt + after) rest }

/-- The modes lists of the catalogue. -/
def modesAll : List Mode := [.m1, .m2, .m3, .m4, .m5, .m6, .m7]
def modesSet : List Mode := [.m3, .m4, .m7]
def modesRun : List Mode := [.m3, .m4]
def modesRead : List Mode := [.m3, .m4, .m5, .m7]
def modesRead345 : List Mode := [.m3, .m4, .m5]

/-- A payload of exactly `n` bytes. -/
def lenIs (n : Nat) : Nat → Bytes → Bool := fun k _ => k == n

/-- A VF names its own tenant. -/
def ownTenant (r : Req) (t : Nat) : Bool := r.fn == 0 || r.fn == t + 1

end Sys2Proof.Machine
end

