-- ==== Sys2Proof/Machine/HostRings.lean ====
section
/-! DEFINITION. The host interface: the mailbox control and doorbells (R71, R72), Well control (R85 to R94), MSI-X
(R97), punt rings (R98 to R100), Function Level Reset and PCIe resets (R67, R103, R665), and the SYS commands of
spec/03_host_interface.md. -/

namespace Sys2Proof.Machine

/-! ### Mailbox registers -/

/-- The ring bases and sizes can be used: 4 KiB aligned, LOG2 6 to 12 (R71). -/
def Mbox.validRings (m : Mbox) : Bool :=
  m.cmdBase.toNat % 4096 == 0 && m.rspBase.toNat % 4096 == 0 && decide (6 ≤ m.cmdLog2.toNat) &&
    decide (m.cmdLog2.toNat ≤ 12) && decide (6 ≤ m.rspLog2.toNat) && decide (m.rspLog2.toNat ≤ 12)

/-- A write to MBOX_CTRL (R71, R84): setting ENABLE restarts the counts, or fails with CONFIG_ERROR. -/
def State.writeMboxCtrl (s : State) (f : Nat) (word : Nat) : State :=
  let m := s.mbox f
  let s := s.modMbox f fun m => { m with rspIrqEn := bit word 1, errIrqEn := bit word 2 }
  if bit word 0 && !m.enable then
    if m.validRings then
      s.modMbox f fun m => { m with enable := true, cmdHead := 0, rspTail := 0, cmdTail := 0, rspHead := 0,
                                    unraised := 0, responses := [] }
    else s.mboxError f fun m => { m with enable := false, configError := true }
  else s.modMbox f fun m => { m with enable := bit word 0 }

/-- A CMD_TAIL doorbell (R72, R84). -/
def State.ringCmd (s : State) (f : Nat) (n : BitVec 16) : State :=
  let m := s.mbox f
  if (n - m.cmdHead).toNat ≤ m.cmdSize then s.modMbox f fun m => { m with cmdTail := n }
  else s.mboxError f fun m => { m with doorbellError := true }

/-- An RSP_HEAD doorbell (R72). -/
def State.ringRsp (s : State) (f : Nat) (n : BitVec 16) : State :=
  let m := s.mbox f
  if (m.rspTail - n).toNat ≤ m.rspSize then s.modMbox f fun m => { m with rspHead := n }
  else s.mboxError f fun m => { m with doorbellError := true }

def ringKey (f n : Nat) : Nat := 64 * f + n

def State.puntRing (s : State) (f n : Nat) : Ring := tget {} s.host.punt (ringKey f n)
def State.injRing (s : State) (f n : Nat) : Ring := tget {} s.host.inject (ringKey f n)
def State.modPunt (s : State) (f n : Nat) (g : Ring → Ring) : State :=
  { s with host := { s.host with punt := tmod {} s.host.punt (ringKey f n) g } }
def State.modInj (s : State) (f n : Nat) (g : Ring → Ring) : State :=
  { s with host := { s.host with inject := tmod {} s.host.inject (ringKey f n) g } }

/-- A punt or inject doorbell (R72): discarded when it would leave the ring overfull or behind the device, or the ring is not enabled
(DESIGN CHOICE, log entry 130). -/
def Ring.doorbell (x : Ring) (used : Nat) (n : BitVec 16) : Option Ring :=
  if x.enable && decide (used ≤ (n - x.head).toNat) && decide ((n - x.head).toNat ≤ 2 ^ x.log2) then some { x with tail := n } else none

def State.ringPunt (s : State) (f n : Nat) (c : BitVec 16) : State :=
  match (s.puntRing f n).doorbell (s.puntRing f n).bufs.length c with
  | some x => s.modPunt f n fun _ => x
  | none => s.mboxError f fun m => { m with doorbellError := true }

def State.ringInj (s : State) (f n : Nat) (c : BitVec 16) : State :=
  match (s.injRing f n).doorbell 0 c with
  | some x => s.modInj f n fun _ => x
  | none => s.mboxError f fun m => { m with doorbellError := true }

/-! ### Well control -/

/-- The Well that a function's write reaches: its own Well, or for PF0 a Well that PF0 owns (R85). -/
def State.wellWrite (s : State) (f slot : Nat) : Option Nat :=
  match s.wellAt f slot with
  | some w => if s.wellFn w = f then some w else none
  | none => none

/-- A write to WELL_CTRL (R87, R92, R96, R97). -/
def State.writeWellCtrl (s : State) (w : Nat) (word : Nat) : State :=
  let x := s.well w
  let vec := bits word 8 8
  let x := { x with notice := bit word 2, vector := if vec < vectorCount (s.wellFn w) then vec else 0 }
  let x := if x.enable then x else { x with log2 := max 7 (bits word 3 4), timeBase := bits word 16 3 }
  let s' :=
    if bit word 0 then s.setWell w (if x.enable then x else { x with enable := true }.start (isCredit w))
    else s.setWell w (if x.enable then x.stop (isCredit w) else x)
  -- R31: a tenant's entry held back by TENANT_RESET is written when its fault Well is enabled
  match s.wellOwner w with
  | some o =>
    match if bit word 0 && o.fault then s.host.tenantNotice.find? (·.tenant == o.tenant) else none with
    | some n =>
      let t := s'.produce w n.source n.type n.body
      { t with host := { t.host with tenantNotice := t.host.tenantNotice.filter (·.tenant != o.tenant) } }
    | none => s'
  | none => s'

/-- DONE in a write to DRAIN (R91): it drains the closed bank of its generation and returns the credits. -/
def Well.done (w : Well) (credit : Bool) (gen : Nat) : Well :=
  if w.readyGen.toNat = gen then
    let w' := { w with ready := [], creditOut := w.creditOut - w.ready.length }
    if credit && w.enable then w'.spend else w'
  else w

/-- CLOSE in a write to DRAIN (R89, R90). -/
def Well.closeReq (w : Well) : Well :=
  if w.fill.isEmpty then w else if w.ready.isEmpty then w.close else { w with closeRefused := true }

/-- A write to DRAIN (R91): DONE acts first, then CLOSE. -/
def State.writeDrain (s : State) (w : Nat) (word : Nat) : State :=
  let x := s.well w
  let x := if bit word 0 then x.done (isCredit w) (bits word 16 16) else x
  let x := if bit word 1 then x.closeReq else x
  s.setWell w x

/-- A write to LATCH: W1C (R7, R87). -/
def State.writeLatch (s : State) (w : Nat) (word : Nat) : State :=
  let x := s.well w
  s.setWell w { x with levelHit := w1c x.levelHit word 0, closeRefused := w1c x.closeRefused word 1,
                       overwritten := w1c x.overwritten word 2 }

/-- The Pump writes one staged entry into the fill bank (R89 to R94). -/
def Well.pump (w : Well) (bad : Bool) : Well :=
  match w.staged with
  | [] => w
  | e :: rest =>
    let w := { w with staged := rest, fill := { e with poison := bad } :: w.fill, total := w.total + 1,
                      poisoned := if bad then w.poisoned + 1 else w.poisoned }
    let w := if w.fill.length = w.level then { w with levelHit := true } else w
    if w.size ≤ w.fill.length then (if w.ready.isEmpty then w else w.overwrite).close else w

/-- The write raises LEVEL_HIT anew under LEVEL notice, so that the Well's vector is sent (R94). -/
def Well.notices (w : Well) : Bool :=
  !w.staged.isEmpty && !w.notice && !w.levelHit && decide (w.fill.length + 1 = w.level)

/-! ### Events of the host interface -/

def execMboxEnable (f : Fin 17) (word : BitVec 32) (s : State) : Host.Outcome State Fault Refusal :=
  .next (if s.answers then s.writeMboxCtrl f.val word.toNat else s)

def execCmdTail (f : Fin 17) (count : BitVec 16) (s : State) : Host.Outcome State Fault Refusal :=
  .next (if s.answers then s.ringCmd f.val count else s)

def execRspHead (f : Fin 17) (count : BitVec 16) (s : State) : Host.Outcome State Fault Refusal :=
  .next (if s.answers then s.ringRsp f.val count else s)

def execPuntTail (f : Fin 17) (n : Fin 64) (count : BitVec 16) (s : State) : Host.Outcome State Fault Refusal :=
  .next (if s.answers then s.ringPunt f.val n.val count else s)

def execInjTail (f : Fin 17) (n : Fin 64) (count : BitVec 16) (s : State) : Host.Outcome State Fault Refusal :=
  .next (if s.answers then s.ringInj f.val n.val count else s)

def execWellEnable (f : Fin 17) (slot : Fin 1024) (word : BitVec 32) (s : State) :
    Host.Outcome State Fault Refusal :=
  .next (match s.wellWrite f.val slot.val with
    | some w => if s.answers then s.writeWellCtrl w word.toNat else s
    | none => s)

/-- DRAIN_DONE: a write to DRAIN with DONE; CLOSE in the same write acts after it (R91). -/
def execDrainDone (f : Fin 17) (slot : Fin 1024) (word : BitVec 32) (s : State) :
    Host.Outcome State Fault Refusal :=
  .next (match s.wellWrite f.val slot.val with
    | some w => if s.answers then s.writeDrain w word.toNat else s
    | none => s)

/-- DRAIN_CLOSE: a write to DRAIN with CLOSE (R89, R90). -/
def execDrainClose (f : Fin 17) (slot : Fin 1024) (word : BitVec 32) (s : State) :
    Host.Outcome State Fault Refusal :=
  .next (match s.wellWrite f.val slot.val with
    | some w => if s.answers then s.writeDrain w word.toNat else s
    | none => s)

/-- MSIX_UNMASK (R97): the vector is unmasked and a message pending on it is sent. -/
def State.unmask (s : State) (f v : Nat) : State :=
  let k := 256 * f + v
  let e := tget {} s.host.msix k
  let s' := { s with host := { s.host with msix := tset {} s.host.msix k { e with masked := false, pending := false } } }
  if e.pending then
    if s.busMaster f then { s' with host := { s'.host with messages := (f, v) :: s'.host.messages } }
    else { s with host := { s.host with msix := tset {} s.host.msix k { e with masked := false } } }
  else s'

def execMsixUnmask (f : Fin 17) (v : Fin 256) (s : State) : Host.Outcome State Fault Refusal :=
  .next (if s.answers && decide (v.val < vectorCount f.val) then s.unmask f.val v.val else s)

/-- MSIX_MODERATION_TIMER (R71): TIME_US after a pending response the vector is raised; 0 disables the timer. -/
def execMsixModerationTimer (f : Fin 17) (s : State) : Host.Outcome State Fault Refusal :=
  let m := s.mbox f.val
  .next (if m.rspIrqEn && m.unraised != 0 && m.modTimeUs != 0 then
      (s.modMbox f.val fun m => { m with unraised := 0 }).raise f.val m.rspVector.toNat
    else s)

/-- WELL_ENTRY_WRITE (R67, R89, R90, R93, R94): without Bus Master Enable of its function the Well is not written. -/
def execWellEntryWrite (w : Fin 1024) (badParity : Bool) (s : State) : Host.Outcome State Fault Refusal :=
  let x := s.well w.val
  let s' := s.setWell w.val (x.pump badParity)
  .next (if !s.busMaster (s.wellFn w.val) then s
    else if x.notices then s'.raise (s.wellFn w.val) x.vector else s')

/-- PACED_ENTRY_DUE (R697): one second after an entry of the key, the next one is written when events came since. -/
def execPacedEntryDue (key : Nat) (s : State) : Host.Outcome State Fault Refusal :=
  .next (match tget none s.host.paced key with
    | some p =>
      if !p.running then s
      else if p.events = 0 then
        { s with host := { s.host with paced := tset none s.host.paced key (some { p with running := false }) } }
      else
        let s := s.writePaced p p.events
        { s with host := { s.host with paced := tset none s.host.paced key (some { p with events := 0 }) } }
    | none => s)

/-- COMMAND_DMA_TIMEOUT (R81, R84, R693): after four attempts the access has failed. -/
def execCommandDmaTimeout (f : Fin 17) (ring : Bool) (addr : BitVec 64) (s : State) :
    Host.Outcome State Fault Refusal :=
  .next (if (s.mbox f.val).enable || !(s.mbox f.val).inflight.isEmpty then
      (s.mboxError f.val fun m => { m with enable := false, dmaError := true }).alarm 0 0x0002
        (leBytes 1 f.val ++ leBytes 1 (b2n ring) ++ leBytes 8 addr.toNat)
    else s)

/-! ### Punt rings -/

/-- Bytes of one buffer. -/
def Ring.bufSize (x : Ring) : Nat := 256 * x.bufUnits

/-- Buffers posted and not used by a completed or open buffer (R100). -/
def Ring.freeBufs (x : Ring) : Nat := (x.tail - x.head).toNat - x.bufs.length

/-- Write back the buffers of the frame in hand: complete, or returned unused with DISCARD (R99, R100). -/
def Ring.writeBack (x : Ring) (p : PuntFrame) (discard : Bool) : Ring :=
  let n := x.bufs.length
  let desc (i : Nat) (d : Bytes) : PuntDesc :=
    let c := (x.head + BitVec.ofNat 16 i).toNat
    let last := !discard && i + 1 == n
    { slot := c % 2 ^ x.log2, phase := c / 2 ^ x.log2 % 2 == 0, length := d.length, sof := i == 0, eof := last,
      discard := discard, reason := p.reason, source := p.source, frameLen := if last then p.bytes.length else 0,
      stamp := p.stamp, rule := p.rule, data := d }
  { x with head := x.head + BitVec.ofNat 16 n, bufs := [],
           written := ((List.range n).zip x.bufs).foldl (fun acc q => desc q.1 q.2 :: acc) x.written }

/-- Add a cell to the open buffer, or open the next one. -/
def Ring.addCell (x : Ring) (p : PuntFrame) (cell : Bytes) : Ring :=
  if p.arrived % x.bufSize = 0 then { x with bufs := x.bufs ++ [cell] }
  else { x with bufs := x.bufs.dropLast ++ [x.bufs.getLastD [] ++ cell] }

/-- The next cell of the frame at the head of the ring's frames (R100): written to a buffer, or the frame dropped. The
second result says that a frame was completed. -/
def Ring.cell (x : Ring) : Ring × Bool :=
  match x.frames with
  | [] => (x, false)
  | p :: rest =>
    let cell := (p.bytes.drop p.arrived).take 256
    let last := decide (p.bytes.length ≤ p.arrived + 256)
    let next (x : Ring) : Ring :=
      if last then { x with frames := rest, dropping := false }
      else { x with frames := { p with arrived := p.arrived + 256 } :: rest }
    if x.dropping then (next x, false)
    else if p.arrived % x.bufSize = 0 && x.freeBufs = 0 then
      if p.arrived = 0 then (next { x with nobufDrop := x.nobufDrop + 1, dropping := true }, false)
      else (next { x.writeBack p true with truncDrop := x.truncDrop + 1, dropping := true }, false)
    else
      let x := x.addCell p cell
      if last then (next (x.writeBack p false), true) else (next x, false)

/-- PUNT_CELL_ARRIVAL (R19, R20, R99, R100): cells that come while Bus Master Enable is 0 wait for it (DESIGN CHOICE, log entry 94). -/
def execPuntCellArrival (f : Fin 17) (n : Fin 64) (s : State) : Host.Outcome State Fault Refusal :=
  let x := s.puntRing f.val n.val
  .next (if x.configured && s.busMaster f.val then
      let y := x.cell
      let s' := s.modPunt f.val n.val fun _ => y.1
      if y.2 && x.irqEn then s'.raise f.val x.vector else s'
    else s)

/-! ### Function Level Reset and the endpoint -/

/-- The Wells of a function. -/
def State.wellsOf (s : State) (f : Nat) : List Nat :=
  (s.host.wells.map (·.1)).filter fun w => s.wellFn w == f

/-- A Function Level Reset of one function (R103). Bus Master Enable and the MSI-X table stay as they are (DESIGN CHOICE, log entry 95). -/
def State.flrOne (s : State) (f : Nat) : State :=
  let s := s.modMbox f fun m =>
    { m with enable := false, cmdTail := m.cmdHead, heldRsp := [], accepted := [], unraised := 0, life := m.life + 1 }
  let s := (s.wellsOf f).foldl (fun s w => s.setWell w ((s.well w).stop (isCredit w))) s
  let stop (x : Ring) : Ring := { x with enable := false, tail := x.head, frames := [], bufs := [], dropping := false }
  { s with host := { s.host with
      punt := s.host.punt.map fun e => if e.1 / 64 = f then (e.1, stop e.2) else e
      inject := s.host.inject.map fun e => if e.1 / 64 = f then (e.1, stop e.2) else e } }

/-- The responses of commands in flight are dropped, after the commands take effect (R103): a carried command goes on
and answers nothing. -/
def State.dropResponses (s : State) (f : Nat) : State :=
  let s := s.modMbox f fun m => { m with inflight := [] }
  s.modPair fun p =>
    { p with carried := p.carried.map fun c => if c.req.fn = f then { c with own := false } else c,
             finals := p.finals.map fun c => if c.fn = f then { c with own := false } else c }

/-- Function Level Reset of a function: of PF0, it acts on every VF as well (R103). -/
def State.flr (s : State) (f : Nat) : State :=
  (if f = 0 then List.range 17 else [f]).foldl (fun s f => (s.flrOne f).dropResponses f) s

def execFunctionLevelReset (f : Fin 17) (s : State) : Host.Outcome State Fault Refusal :=
  .next (if s.answers then s.flr f.val else s)

/-- PCIE_PERST (R665): the endpoint is held in reset, as a Function Level Reset of PF0; the mode is unchanged. -/
def execPciePerst (s : State) : Host.Outcome State Fault Refusal :=
  .next (if s.host.perst then s else
    let s := s.flr 0
    { s with host := { s.host with perst := true, busMaster := [], msix := [] } })

/-- PCIE_PERST_RELEASE (R52, R665): link training starts and the endpoint answers again. -/
def execPciePerstRelease (s : State) : Host.Outcome State Fault Refusal :=
  .next { s with host := { s.host with perst := false } }

/-- BUS_MASTER_ENABLE (R67): the function's DMA is gated, or restored; responses held meanwhile are then written, and
waiting entries of its credit Wells are staged. -/
def execBusMasterEnable (f : Fin 17) (b : Bool) (s : State) : Host.Outcome State Fault Refusal :=
  .next (if !s.answers then s else
    let f := f.val
    let s := { s with host := { s.host with busMaster := tset false s.host.busMaster f b } }
    if !b then s
    else
      let held := (s.mbox f).heldRsp.reverse
      let s := s.modMbox f fun m => { m with heldRsp := [] }
      let s := held.foldl (fun s h => s.writeResponse f h.1 h.2) s
      if f = 0 then
        [0, 1, 2, 3].foldl (fun s w => let x := s.well w; s.setWell w (if x.enable then x.spend else x)) s
      else s)

/-! ### SYS_SET_SHARES, SYS_WELL_ASSIGN, SYS_RING_CONFIG -/

/-- Share of function `f` in the buffer of R83. -/
def shareAt (r : Req) (f : Nat) : Nat := bits (r.b (2 * f) 2) 0 13

def sysSetSharesSpec : AciSpec where
  op := 0x0104
  lenOk := lenIs 50
  modes := modesAll
  carried := true
  rsv := fun _ => (List.range 17).map fun f => (2 * f + 1, 0xE0)
  par := fun r _ =>
    let shares := (List.range 17).map (shareAt r)
    badIf (decide (shares.getD 0 0 < 64) || decide (4096 < shares.getD 0 0) ||
      (shares.drop 1).any (fun n => decide (4032 < n)) || decide (4096 < sumNat shares)) 0x04
  effect := fun r s =>
    (s.store fun c => { c with
        shares := (List.range 17).map (shareAt r)
        puntQuota := (List.range 16).map fun t => r.bb (34 + t) 0 4
        injQuota := (List.range 16).map fun t => r.bb (34 + t) 4 4 }, okReply)

def execSysSetShares (r : Aci) (s : State) : Host.Outcome State Fault Refusal := .next (sysSetSharesSpec.exec r s)

/-- The Well that a tenant's slot holds. -/
def State.slotUsed (s : State) (t slot : Nat) : Bool := (s.wellAt (t + 1) slot).isSome

def sysWellAssignSpec : AciSpec where
  op := 0x0105
  lenOk := lenIs 8
  modes := modesRead
  carried := true
  rsv := fun _ => [(1, 0xFC), (2, 0xE0), (4, 0xFE), (5, 0xFF), (6, 0xFF), (7, 0xFF)]
  par := fun r _ =>
    let w := bits (r.f 16 2) 0 10
    let o := r.fb 18 0 5
    badIf (decide (w < 4) || decide (16 < o) || (o == 16 && (r.f 19 1 != 0 || r.fl 20 0))) 0x04
  owned := fun r s => s.wellFn (bits (r.f 16 2) 0 10) == r.fn
  avail := fun r s =>
    let w := bits (r.f 16 2) 0 10
    let o := r.fb 18 0 5
    failIf ((s.well w).enable || (o != 16 && s.slotUsed o (r.f 19 1))) stBusy 0x02
  effect := fun r s =>
    let w := bits (r.f 16 2) 0 10
    let o := r.fb 18 0 5
    let fault := r.fl 20 0
    let clear (t : Tab (Option WellOwner)) : Tab (Option WellOwner) :=
      if fault then t.map fun e => (e.1, e.2.map fun x => if x.tenant = o then { x with fault := false } else x) else t
    let owner : Option WellOwner := if o = 16 then none else some { tenant := o, slot := r.f 19 1, fault := fault }
    (s.store fun c => { c with wells := tset none (clear c.wells) w owner }, okReply)

def execSysWellAssign (r : Aci) (s : State) : Host.Outcome State Fault Refusal := .next (sysWellAssignSpec.exec r s)

/-- Rings of a direction that a function may configure (R83, R98). -/
def State.ringQuota (s : State) (f : Nat) (inj : Bool) : Nat :=
  if f = 0 then 64 else if inj then s.cfg.injQuota.getD (f - 1) 0 else s.cfg.puntQuota.getD (f - 1) 0

/-- The layout that SYS_RING_CONFIG gives a ring. -/
def ringLayout (r : Req) : Ring :=
  { configured := true, enable := true, log2 := r.fb 17 0 4, bufUnits := r.fb 18 0 7, vector := r.f 19 1,
    irqEn := r.fl 20 0, base := r.f 24 8 }

/-- A punt ring disabled (R98): a frame partly written, or partly dropped, completes; those behind it do not start
and are counted nowhere (DESIGN CHOICE, log entry 130). -/
def Ring.disable (x : Ring) : Ring :=
  { x with enable := false, frames := (x.frames.take 1).filter fun p => p.arrived != 0 || x.dropping }

/-- The frame in hand of a disabled ring runs to its end; the second result says that a frame was completed (R98, R100). -/
def Ring.finish (x : Ring) : Ring × Bool :=
  match x.frames with
  | [] => (x, false)
  | p :: _ => (List.range (p.bytes.length / 256 + 1)).foldl (fun a _ => if a.1.frames.isEmpty then a else let y := a.1.cell; (y.1, a.2 || y.2)) (x, false)

def sysRingConfigSpec : AciSpec where
  op := 0x0106
  lenOk := lenIs 16
  pf0Only := false
  modes := modesAll
  rsv := fun _ => [(1, 0xF0), (2, 0x80), (4, 0xFE), (5, 0xFF), (6, 0xFF), (7, 0xFF)]
  par := fun r _ =>
    let log2 := r.fb 17 0 4
    let units := r.fb 18 0 7
    badIf (decide (log2 < 6) || (if r.fl 16 6 then units != 0 else units == 0 || decide (64 < units)) ||
      decide (vectorCount r.fn ≤ r.f 19 1) || r.f 24 8 % 4096 != 0) 0x04
  avail := fun r s =>
    let inj := r.fl 16 6
    let x := if inj then s.injRing r.fn (r.fb 16 0 6) else s.puntRing r.fn (r.fb 16 0 6)
    let n := ringLayout r
    firstOf [
      failIf (r.fl 16 7 && x.enable && (x.log2 != n.log2 || x.bufUnits != n.bufUnits || x.base != n.base))
        stBusy 0x02,
      failIf (decide (s.ringQuota r.fn inj ≤ r.fb 16 0 6)) stNoResource 0x02]
  modeOk := fun r s => s.ms.mode != .m6 && (r.fn == 0 || (s.ms.mode != .m1 && s.ms.mode != .m2))
  effect := fun r s =>
    let inj := r.fl 16 6
    let on := r.fl 16 7
    let n := ringLayout r
    let set (x : Ring) : Ring :=
      if on then
        if x.enable then { x with vector := n.vector, irqEn := n.irqEn }
        else
          let y := x.finish.1
          { n with truncDrop := y.truncDrop, nobufDrop := y.nobufDrop, injError := y.injError, written := y.written }
      else if inj then { x with enable := false, tail := x.head } else x.disable
    let old := s.puntRing r.fn (r.fb 16 0 6)
    let s := if inj then s.modInj r.fn (r.fb 16 0 6) set else s.modPunt r.fn (r.fb 16 0 6) set
    (if on && !inj && !old.enable && old.irqEn && old.finish.2 then s.raise r.fn old.vector else s, okReply)

def execSysRingConfig (r : Aci) (s : State) : Host.Outcome State Fault Refusal := .next (sysRingConfigSpec.exec r s)

/-- UNKNOWN_OPCODE (R80, R689): a descriptor whose opcode is not defined completes with BAD_OPCODE. It never starts, so no fence
holds it (log entry 8). A defined opcode is not this command. -/
def execUnknownOpcode (opcode : BitVec 16) (r : Aci) (s : State) : Host.Outcome State Fault Refusal :=
  let f := r.fn.val
  .next (if !s.canRead f || definedOps.contains opcode.toNat then s
    else (s.takeDesc f).writeResponse f (r.tagWord.toNat % 4096)
      { status := stBadOpcode })

end Sys2Proof.Machine
end

