-- ==== Sys2Proof/Machine/Parse.lean ====
section
/-! DEFINITION. Frames: parsing (R196, R197), the rule key (R241), the rewriting of tags and routed headers (R201,
R215), the transparent clock's correction (R119 to R123) and the frame check sequence. -/

namespace Sys2Proof.Machine

/-- What the parser finds in the first 256 bytes of a frame. -/
structure Parsed where
  dst : Nat := 0
  src : Nat := 0
  /-- An outer tag, and an inner one. -/
  tagged : Bool := false
  double : Bool := false
  pcp : Nat := 0
  dei : Bool := false
  vid : Nat := 0
  etype : Nat := 0
  /-- Offset of what follows the EtherType. -/
  l3 : Nat := 14
  /-- 0 none, 4, 6. -/
  ip : Nat := 0
  /-- The IPv4 version and IHL are valid, and the IPv4 header passes its checksum (R197). -/
  ipOk : Bool := true
  dscp : Nat := 0
  ttl : Nat := 0
  /-- IP packet length in bytes. -/
  ipLen : Nat := 0
  proto : Nat := 0
  /-- Addresses as 128-bit numbers; IPv4 in the top 32 bits (R229). -/
  ipSrc : Nat := 0
  ipDst : Nat := 0
  l4 : Nat := 0
  l4Src : Nat := 0
  l4Dst : Nat := 0
  /-- IPv6 extension headers were found. -/
  ext : Bool := false
  deriving DecidableEq, Repr

/-- A field of `n` bytes of the first 256, zero where it lies beyond them or beyond the frame (R196). -/
def fieldAt (b : Bytes) (off n : Nat) : Nat := if off + n ≤ min b.length 256 then beAt b off n else 0

/-- Extension header types the parser knows: hop-by-hop, routing, fragment, destination options. -/
def isExt (h : Nat) : Bool := h == 0 || h == 43 || h == 44 || h == 60

/-- Walk at most four extension headers: next header, offset, whether the packet is a non-first fragment, at whose header the walk
ends, and whether a fifth header stands there. -/
def extWalk (b : Bytes) : Nat → Nat → Nat → Bool → Nat × Nat × Bool × Bool
  | 0, nh, off, frag => (nh, off, frag, isExt nh)
  | n + 1, nh, off, frag =>
    if isExt nh then
      let len := if nh = 44 then 8 else 8 * (fieldAt b (off + 1) 1 + 1)
      if nh = 44 ∧ bits (fieldAt b (off + 2) 2) 3 13 ≠ 0 then (fieldAt b off 1, off + len, true, false)
      else extWalk b n (fieldAt b off 1) (off + len) frag
    else (nh, off, frag, false)

/-- Ports of TCP and UDP, and the type of ICMPv6 (R196, R241). -/
def Parsed.withL4 (p : Parsed) (b : Bytes) (absent : Bool) : Parsed :=
  if absent then p
  else if p.proto = 6 || p.proto = 17 then { p with l4Src := fieldAt b p.l4 2, l4Dst := fieldAt b (p.l4 + 2) 2 }
  else if p.ip = 6 && p.proto = 58 then { p with l4Dst := fieldAt b p.l4 1 }
  else p

/-- The IPv4 header at `p.l3`; with an IHL below 5 the frame is no IPv4 frame to the parser (R196), and its header is bad (R197). -/
def Parsed.withV4 (p : Parsed) (b : Bytes) : Parsed :=
  let o := p.l3
  let ihl := fieldAt b o 1 % 16
  let hdr := slice b o (4 * ihl)
  let ok := fieldAt b o 1 / 16 == 4 && decide (o + 4 * ihl ≤ b.length) && onesSum hdr == 0xFFFF
  if ihl < 5 then { p with ipOk := false } else
  let p := { p with
    ip := 4
    ipOk := ok
    dscp := fieldAt b (o + 1) 1 / 4
    ipLen := fieldAt b (o + 2) 2
    ttl := fieldAt b (o + 8) 1
    proto := fieldAt b (o + 9) 1
    ipSrc := fieldAt b (o + 12) 4 * 2 ^ 96
    ipDst := fieldAt b (o + 16) 4 * 2 ^ 96
    l4 := o + 4 * ihl }
  p.withL4 b (fieldAt b (o + 6) 2 % 8192 != 0)

/-- The IPv6 header at `p.l3`. -/
def Parsed.withV6 (p : Parsed) (b : Bytes) : Parsed :=
  let o := p.l3
  let w := extWalk b 4 (fieldAt b (o + 6) 1) (o + 40) false
  let p := { p with
    ip := 6
    dscp := fieldAt b o 2 / 64 % 64
    ipLen := fieldAt b (o + 4) 2 + 40
    ttl := fieldAt b (o + 7) 1
    proto := w.1
    ipSrc := fieldAt b (o + 8) 16
    ipDst := fieldAt b (o + 24) 16
    l4 := w.2.1
    ext := isExt (fieldAt b (o + 6) 1) }
  p.withL4 b (w.2.2.1 || w.2.2.2)

/-- What follows the last EtherType. -/
def Parsed.withL3 (p : Parsed) (b : Bytes) : Parsed :=
  if p.etype = 0x0800 then p.withV4 b else if p.etype = 0x86DD then p.withV6 b else p

/-- Parse a frame (R196). -/
def parseFrame (b : Bytes) : Parsed :=
  let e := fieldAt b 12 2
  let p : Parsed := { dst := fieldAt b 0 6, src := fieldAt b 6 6, etype := e }
  if e = 0x8100 || e = 0x88A8 then
    let tci := fieldAt b 14 2
    let e2 := fieldAt b 16 2
    let p := { p with tagged := true, pcp := tci / 8192, dei := bit tci 12, vid := tci % 4096, etype := e2, l3 := 18 }
    if e2 = 0x8100 then
      let e3 := fieldAt b 20 2
      let p := { p with double := true, etype := e3, l3 := 22 }
      if e3 = 0x8100 then p else p.withL3 b
    else p.withL3 b
  else p.withL3 b

/-- A group address. -/
def isGroup (mac : Nat) : Bool := bit mac 40

/-- An IP multicast destination. -/
def Parsed.ipMulticast (p : Parsed) : Bool :=
  (p.ip == 4 && p.ipDst / 2 ^ 124 == 0xE) || (p.ip == 6 && p.ipDst / 2 ^ 120 == 0xFF)

/-- The header of a routed frame fails the checks of R197; `len` is the frame length without FCS. -/
def Parsed.badHeader (p : Parsed) (len : Nat) : Bool := !p.ipOk || decide (len < p.l3 + p.ipLen)

/-- The 48-byte rule key (R241); `vlan` and `port` are zero for an injected frame. -/
def ruleKey (p : Parsed) (port tenant vlan : Nat) (routed injected src : Bool) : Bytes :=
  leBytes 1 port ++
  leBytes 1 (tenant % 16 + 16 * b2n (p.ip == 4) + 32 * b2n (p.ip == 6) + 64 * b2n routed + 128 * b2n p.tagged) ++
  leBytes 2 (vlan + 4096 * p.pcp + 32768 * b2n injected) ++ leBytes 2 p.etype ++ leBytes 1 p.proto ++
  leBytes 1 p.dscp ++ leBytes 2 p.l4Src ++ leBytes 2 p.l4Dst ++ beBytes 6 p.dst ++ beBytes 6 p.src ++
  beBytes 16 (if src then p.ipSrc else p.ipDst) ++ List.replicate 8 0

/-- Every compared bit of the key equals the value (R241). -/
def keyMatches (key value mask : Bytes) : Bool :=
  (key.zip (value.zip mask)).all fun e => (e.1 ^^^ e.2.1) &&& e.2.2 == 0

/-! ### Rewriting -/

/-- The two addresses of a frame, and what follows its outer tag or its addresses. -/
def addresses (b : Bytes) : Bytes := b.take 12

/-- A bridged copy as it leaves a port (R201). -/
def bridgeTags (b : Bytes) (p : Parsed) (vlan : Nat) (untag : Bool) : Bytes :=
  let keep := p.tagged && p.vid != 0
  let body := if p.tagged then b.drop 16 else b.drop 12
  if untag then addresses b ++ body
  else if keep then b
  else addresses b ++ beBytes 2 0x8100 ++ beBytes 2 (p.pcp * 8192 + vlan) ++ body

/-- Replace one byte. -/
def setByte (b : Bytes) (i : Nat) (v : Nat) : Bytes := b.take i ++ leBytes 1 v ++ b.drop (i + 1)

/-- Replace a big-endian 16-bit word. -/
def setWord (b : Bytes) (i : Nat) (v : Nat) : Bytes := b.take i ++ beBytes 2 v ++ b.drop (i + 2)

/-- The incremental update of a ones' complement checksum over changed words. -/
def sumUpdate (old : Nat) (before after : Bytes) : Nat :=
  let inv (b : Bytes) : Bytes := b.map fun x => x ^^^ 0xFF
  0xFFFF - onesSum (beBytes 2 (0xFFFF - old % 65536) ++ inv before ++ after)

/-- The IP packet of a frame with its TTL or hop limit one lower (R215). -/
def lowerTtl (packet : Bytes) (v4 : Bool) : Bytes :=
  if v4 then
    let q := setByte packet 8 ((byteAt packet 8 + 255) % 256)
    setWord q 10 (sumUpdate (beAt packet 10 2) (slice packet 8 2) (slice q 8 2))
  else setByte packet 7 ((byteAt packet 7 + 255) % 256)

/-- A routed frame as it leaves (R215): new addresses, tagged with `tci` or untagged, TTL one lower. -/
def routedFrame (b : Bytes) (p : Parsed) (dst src : Nat) (tci : Option Nat) : Bytes :=
  let tag := match tci with | some v => beBytes 2 0x8100 ++ beBytes 2 v | none => []
  beBytes 6 dst ++ beBytes 6 src ++ tag ++ beBytes 2 p.etype ++ lowerTtl (b.drop p.l3) (p.ip == 4)

/-! ### Transparent clock -/

/-- Offset of the PTP header of a frame in one of the forms of R119. -/
def ptpOffset (p : Parsed) : Option Nat :=
  if p.etype = 0x88F7 then some p.l3
  else if p.ip != 0 && p.proto = 17 && p.l4Dst = 319 && !p.ext then some (p.l4 + 8)
  else none

/-- A Sync or Delay_Req of versionPTP major 2. -/
def isPtpEvent (b : Bytes) (off : Nat) : Bool := decide (byteAt b off % 16 ≤ 1) && byteAt b (off + 1) % 16 == 2

/-- The sum of correctionField and residence time, held at its largest value (R123). -/
def addCorrection (cf residence : Int) : Int :=
  let top : Int := 0x7FFFFFFFFFFFFFFF
  if cf = top || top < cf + residence then top else cf + residence

/-- Add residence time (2^-16 ns, below zero where the base was stepped back meanwhile) to a frame's correctionField and update its UDP checksum (R120). -/
def addResidence (b : Bytes) (residence : Int) : Bytes :=
  let p := parseFrame b
  match ptpOffset p with
  | none => b
  | some off =>
    if isPtpEvent b off then
      let old := slice b (off + 8) 8
      let new := beBytes 8 (ofSigned 64 (addCorrection (toSigned 64 (beNat old)) residence))
      let b' := b.take (off + 8) ++ new ++ b.drop (off + 16)
      if p.etype = 0x88F7 then b'
      else
        let sum := beAt b (p.l4 + 6) 2
        if p.ip = 4 && sum = 0 then b' else setWord b' (p.l4 + 6) (sumUpdate sum old new)
    else b

/-- A frame with correctionField and UDP checksum taken as zero, where it is one of R119's (R557). -/
def clearResidence (b : Bytes) : Bytes :=
  let p := parseFrame b
  match ptpOffset p with
  | none => b
  | some off =>
    if isPtpEvent b off then
      let b' := b.take (off + 8) ++ [0, 0, 0, 0, 0, 0, 0, 0] ++ b.drop (off + 16)
      if p.etype = 0x88F7 then b' else setWord b' (p.l4 + 6) 0
    else b

/-- A timestamp in 2^-16 ns as PTP writes it: 48-bit seconds, 32-bit nanoseconds; what lies below a nanosecond goes into the
correctionField. -/
def ptpStamp (v : Int) : Bytes := beBytes 6 ((v / 65536).toNat / 1000000000) ++ beBytes 4 ((v / 65536).toNat % 1000000000)

/-- A one-step Sync over Ethernet as it leaves at `v`: its correctionField and its originTimestamp (R127). -/
def stampSync (b : Bytes) (v : Int) : Bytes :=
  b.take 22 ++ (sleBytes 8 (v % 65536)).reverse ++ slice b 30 18 ++ ptpStamp v ++ b.drop 58

/-- A frame with its FCS, or with the bitwise complement of it (R165). -/
def withFcs (b : Bytes) (stomp : Bool) : Bytes := b ++ leBytes 4 (if stomp then 0xFFFFFFFF - crc32 b else crc32 b)

end Sys2Proof.Machine
end

