-- ==== Sys2Proof/Machine/Qos.lean ====
section
/-! DEFINITION. The Cistern and the queues: cells and limits (R246 to R254), admission (R251 to R253), launch heads
(R144 to R148), the scheduler (R261 to R263, R268), shapers (R265), policers (R257 to R259) and flushing (R271). -/

namespace Sys2Proof.Machine

/-! ### Cells and limits -/

/-- Usable cells C (R247). -/
def State.usable (s : State) : Nat := 8192 * (128 - s.qos.banksRemoved)

/-- ASSIGNABLE (R250). -/
def State.assignable (s : State) : Nat := s.usable - 16384 - 2048

/-- The factory limit of a bundle queue (R254). -/
def State.bundleLimit (s : State) : Nat :=
  if s.assignable < 999424 then (s.assignable / 256 - 768) / 112 else 28

/-- Factory limit of a queue of an ordinary port (R254), or the limit on a radio port (R273). -/
def State.factoryLimit (s : State) (q : Nat) : Nat :=
  let k := q % 128
  if (s.portSite (q / 128)).isSome then (if k = 7 then 64 else if k = 6 then 1024 else 0)
  else if k < 8 then 64 else if k < 120 then s.bundleLimit else 32

/-- Limits in force of a queue. -/
def State.qLimits (s : State) (q : Nat) : QLimits :=
  let n := s.factoryLimit q
  match tget none s.qos.limits q with
  | some l => if (s.portSite (q / 128)).isSome then { limit := n, yellow := n, red := n } else l
  | none => { limit := n, yellow := n, red := n }

/-- Sum of the factory limits of a port's queues. -/
def State.portFactorySum (s : State) (p : Nat) : Nat :=
  if (s.portSite p).isSome then 1088 else 768 + 112 * s.bundleLimit

/-- Sum of Q_LIMIT over all queues, with limits as set in `t`. -/
def State.limitSum (s : State) (t : Tab (Option QLimits)) : Nat :=
  let base := sumNat ((List.range 256).map s.portFactorySum)
  let own := t.filter fun e => (s.portSite (e.1 / 128)).isNone
  base + sumNat (own.map fun e => match e.2 with | some l => l.limit | none => 0)
    - sumNat (own.map fun e => s.factoryLimit e.1)

def State.queue (s : State) (q : Nat) : Queue := tget {} s.qos.queues q

def State.sched (s : State) (p : Nat) : Sched := tget {} s.qos.scheds p

def State.modSched (s : State) (p : Nat) (f : Sched → Sched) : State :=
  { s with qos := { s.qos with scheds := tmod {} s.qos.scheds p f } }

/-- Cells charged to a queue: its entries, and its frame that is being sent (R251). -/
def State.qCells (s : State) (q : Nat) : Nat :=
  let c := s.sched (q / 128)
  let out (o : Option (Nat × QItem)) : Nat := match o with | some (k, x) => if k = q then x.cells else 0 | none => 0
  sumNat ((s.queue q).items.map (·.cells)) + out c.sending + out c.preempted

/-- Cells of a length in bytes (R246). -/
def cellsOf (len : Nat) : Nat := (len + 255) / 256

/-- Cells of the frames stored, those retired apart. -/
def State.storedCells (s : State) : Nat :=
  sumNat (s.qos.stored.map fun e => match e.2 with | some x => x.cells - x.lost | none => 0)

/-- Cells of frames of a pipe on their way across the die-to-die interface, punted or for the border function (R249). -/
def State.crossing (s : State) (pipe : Nat) : Nat :=
  sumNat ((s.host.punt.flatMap fun e => e.2.frames).map fun f => if f.pipe = pipe then cellsOf (f.bytes.length + 4) else 0) +
  sumNat (s.fwd.border.map fun x => if x.pipe = pipe then cellsOf (x.packet.length + 18) else 0)

/-- Cells of frames in hand that no queue holds and that are to cross. -/
def State.inHand (s : State) : Nat :=
  sumNat (s.qos.rx.map fun e => match e.2 with
    | some h => if h.queues.isEmpty && !(h.punts.isEmpty && h.borders.isEmpty) then cellsOf h.bytes.length else 0
    | none => 0)

/-- Cells free now (R283): no frame holds them and they are not retired. -/
def State.freeCells (s : State) : Nat :=
  s.usable - s.storedCells - sumNat ((List.range 8).map s.crossing) - s.inHand - s.qos.retired.length

/-- Keep the gauges of a queue and of the Cistern (R284). -/
def State.gaugeQueue (s : State) (q : Nat) : State := (s.gauge (.queue q .cells) (s.qCells q)).gauge .freeCells s.freeCells

/-- Queues of a member of the weighted group, best first: bundle 0-15, or 16 the service group. -/
def memberQueues (p m : Nat) : List Nat :=
  if m < 16 then (List.range 7).map fun k => 128 * p + 8 + 7 * m + (6 - k)
  else (List.range 8).map fun k => 128 * p + (127 - k)

/-- The member of the weighted group that a queue belongs to. -/
def memberOf (q : Nat) : Nat := min 16 ((q % 128 - 8) / 7)

/-- A member's deficit is 0 when it has no frame left (R262). -/
def State.clearDeficit (s : State) (q : Nat) : State :=
  let p := q / 128
  let m := memberOf q
  if 8 ≤ q % 128 ∧ (s.sched p).deficits.getD m 0 ≠ 0 ∧ (memberQueues p m).all (fun k => (s.queue k).items.isEmpty) = true then
    s.modSched p fun c => { c with deficits := c.deficits.set m 0 }
  else s

/-- Set a queue's frames. -/
def State.setItems (s : State) (q : Nat) (l : List QItem) : State :=
  { s with qos := { s.qos with queues := tmod {} s.qos.queues q fun x => { x with items := l } } }.clearDeficit q

/-- One holder of a stored frame lets it go; its cells are freed with the last (R252). -/
def State.letGo (s : State) (id : Nat) : State :=
  match tget none s.qos.stored id with
  | some x =>
    let y : Option Stored := if x.holders ≤ 1 then none else some { x with holders := x.holders - 1 }
    { s with qos := { s.qos with stored := tset none s.qos.stored id y } }
  | none => s

/-- The port and its pipe are in service. -/
def State.portUsable (s : State) (p : Nat) : Bool :=
  let x := s.portSt p
  !x.inReset && !x.outOfService && !tget false s.ports.pipeReset (p / 32) && !tget false s.ports.pipeOut (p / 32)

/-! ### Launch heads -/

/-- The base of a port. -/
def State.portTb (s : State) (p : Nat) : Nat := (tget {} s.cfg.portTime p : PortTime).tb

/-- What becomes of a frame at the head of a launch queue. -/
inductive HeadFate where
  /-- It stays, and waits for its time, or for the port. -/
  | stays
  /-- Its launch time is more than 1 s ahead as it reaches the head (R147). -/
  | far
  /-- Its launch time has passed (R146). -/
  | late
  deriving DecidableEq, Repr

/-- The fate of a frame at the head of a launch queue at `now` ns (R146, R147). -/
def headFate (now : Nat) (x : QItem) : HeadFate :=
  match x.launch with
  | none => .stays
  | some t =>
    if x.due then .stays
    else if !x.judged && decide (now + 1000000000 < t) then .far
    else if t < now then .late
    else .stays

/-- Settle the head of a queue: frames too far ahead or late are dropped or marked until one stays (R146, R147); where the link is
down, a frame whose time has passed is discarded as R161 says. The list is the queue's entries. -/
def State.settleList (s : State) (q now : Nat) (late up : Bool) : List QItem → State
  | [] => s.setItems q []
  | x :: rest =>
    let gone (s : State) : State := (s.letGo x.id).settleList q now late up rest
    match headFate now x with
    | .stays => s.setItems q ({ x with judged := true } :: rest)
    | .far => gone (s.count (.queue q .launchFarDrop))
    | .late =>
      if !up then gone (s.count (.port (q / 128) .txLinkDownDrop))
      else if late then s.setItems q ({ x with judged := true, due := true, late := true } :: rest)
      else gone (s.count (.queue q .lateDrop))

/-- Settle a launch queue. -/
def State.settle (s : State) (q : Nat) : State :=
  let x := s.queue q
  if x.launchEn then
    (s.settleList q (s.ns (s.portTb (q / 128))) x.launchLate (s.portSt (q / 128)).linkUp x.items).gaugeQueue q
  else s

/-- After a step of the base a frame that was late is judged anew (R115, R148). -/
def QItem.unlate (i : QItem) : QItem := if i.late then { i with due := false, late := false } else i

/-- Settle every launch queue of the ports of a base, after a step of it (R115, R148). -/
def State.settleBase (s : State) (tb : Nat) : State :=
  (s.qos.queues.filter fun e => e.2.launchEn && s.portTb (e.1 / 128) == tb).foldl
    (fun s e => (s.setItems e.1 ((s.queue e.1).items.map QItem.unlate)).settle e.1) s

/-! ### Admission -/

/-- Count a copy refused at admission: colour 0 green, 1 yellow, 2 red. -/
def dropCtr (colour : Nat) : QueueCtr := if colour = 0 then .dropGreen else if colour = 1 then .dropYellow else .dropRed

/-- The limit of a colour. -/
def QLimits.of (l : QLimits) (colour : Nat) : Nat := if colour = 0 then l.limit else if colour = 1 then l.yellow else l.red

/-- The frame fits the queue under the limit of its colour (R251). -/
def State.fits (s : State) (q cells colour : Nat) : Bool := decide (s.qCells q + cells ≤ (s.qLimits q).of colour)

/-- No free cell although a queue is under its limit (R253). -/
def State.noCell (s : State) (cells : Nat) : Bool := decide (2048 < s.qos.retired.length) && decide (s.freeCells < cells)

/-- Cells that an entry needs beyond those its frame has: a frame is stored once (R252). -/
def State.newCells (s : State) (x : QItem) : Nat :=
  x.cells - match tget none s.qos.stored x.id with | some y => y.cells | none => 0

/-- Put a frame on a queue and charge it. -/
def State.append (s : State) (q : Nat) (x : QItem) : State :=
  let st : Stored := match tget none s.qos.stored x.id with | some y => y | none => { cells := 0, holders := 0 }
  let st := { st with holders := st.holders + 1, cells := max st.cells x.cells }
  let s := { s with qos := { s.qos with stored := tset none s.qos.stored x.id (some st) } }
  let old := (s.queue q).items
  let s := (s.setItems q (old ++ [x])).gaugeQueue q
  if old.isEmpty then s.settle q else s

/-- Check a frame against one queue (R251): admitted, or refused and counted. `pipe` is the pipe of the lookup. -/
def State.takeIn (s : State) (pipe q colour : Nat) (x : QItem) : State × Bool :=
  if !s.fits q x.cells colour then (s.count (.queue q (dropCtr colour)), false)
  else if s.noCell (s.newCells x) then (s.count (.pipe pipe .noCellDrop), false)
  else (s.append q x, true)

/-- A fresh number for a stored frame. -/
def State.newId (s : State) : Nat × State :=
  (s.qos.nextId, { s with qos := { s.qos with nextId := s.qos.nextId + 1 } })

/-! ### Shapers -/

def shaperKey (level index : Nat) : Nat := level * 32768 + index

def State.shaper (s : State) (level index : Nat) : Shaper := tget {} s.qos.shapers (shaperKey level index)

/-- The shaper has credit for a charged length (R265). -/
def Shaper.has (x : Shaper) (len : Nat) : Bool := !x.enable || decide (((min len x.burst * 100000 : Nat) : Int) ≤ x.credit)

def State.chargeShaper (s : State) (level index len : Nat) : State :=
  let x := s.shaper level index
  if x.enable then
    let y := { x with credit := x.credit - ((len * 100000 : Nat) : Int) }
    { s with qos := { s.qos with shapers := tset {} s.qos.shapers (shaperKey level index) y } }
  else s

/-- Frame length of an entry as it leaves, FCS included (R265; log entry 31). -/
def QItem.len (x : QItem) : Nat := if x.complete then x.bytes.length + 4 else x.total

/-- The length that R268 counts: of a frame cut through, MAX_FRAME. -/
def QItem.mostLen (x : QItem) : Nat := if x.complete then x.len else x.maxLen

/-- Charged length L' (R265). -/
def State.charged (s : State) (p : Nat) (x : QItem) : Nat := ((x.len : Int) + (s.sched p).overhead).toNat.max 1

/-- Index of the bundle shaper of a bundle queue. -/
def bundleIndex (q : Nat) : Nat := q / 128 * 16 + (q % 128 - 8) / 7

/-! ### The scheduler -/

/-- The port is a radio port, whose queues no shaper or launch acts on (R273). -/
def State.isRadio (s : State) (p : Nat) : Bool := (s.portSite p).isSome

/-- Time to send `len` bytes fits before `t` (ns) at the port's rate: compared without rounding. -/
def State.sendsBefore (s : State) (p len t : Nat) : Bool :=
  let now := (s.base (s.portTb p)).t
  decide (now ≤ t * 65536) && decide (len * 8000 * 65536 ≤ (t * 65536 - now) * modeSpeed (s.portCfg p).mode)

/-- Launch times of the launches of a port's express queues that have not been made (R268). -/
def State.expressLaunches (s : State) (p : Nat) : List Nat :=
  (List.range 8).flatMap fun k =>
    let x := s.queue (128 * p + k)
    if x.launchEn then x.items.filterMap (·.launch) else []

/-- The MAC merge holds the preemptable MAC of a port (R267): an express launch frame for which it began to is still to be sent. -/
def State.mmHold (s : State) (p : Nat) : Bool :=
  (s.portSt p).mmHolds.any fun id =>
    ((List.range 8).any fun k => (s.queue (128 * p + k)).items.any fun i => i.id == id) ||
      match (s.sched p).sending with | some (_, i) => i.id == id | none => false

/-- Radio starts are held around a swap (R577). -/
def State.radioHeld (s : State) : Bool :=
  match s.pair.radioHold with
  | some t => decide (s.time.duration < t)
  | none => false

/-- The head frame of a queue, when the queue is eligible (R263, R268). -/
def State.eligible (s : State) (q : Nat) : Option QItem :=
  let p := q / 128
  let k := q % 128
  let x := s.queue q
  match x.items with
  | [] => none
  | i :: _ =>
    let len := s.charged p i
    let shaped := s.isRadio p || ((x.launchEn || (s.shaper 0 q).has len) &&
      (k < 8 || 120 ≤ k || (s.shaper 1 (bundleIndex q)).has len))
    let launched := !x.launchEn || i.launch.isNone || i.due
    let room := x.launchEn || 8 ≤ k || (s.expressLaunches p).all fun t => s.sendsBefore p (i.mostLen + 20) t
    let held := s.isRadio p && k < 8 && s.radioHeld
    if (i.complete || i.cutThrough) && shaped && launched && room && !held then some i else none

/-- The first eligible queue of a list. -/
def State.firstEligible (s : State) : List Nat → Option (Nat × QItem)
  | [] => none
  | q :: l => match s.eligible q with | some i => some (q, i) | none => s.firstEligible l

/-- Express queues of a port, strict from 7 down. -/
def State.selectExpress (s : State) (p : Nat) : Option (Nat × QItem) :=
  s.firstEligible ((List.range 8).map fun k => 128 * p + (7 - k))

/-- One visit of a member (R262): `fresh` is a new turn. The result is the deficit after it, and the frame chosen. -/
def State.visit (s : State) (p m deficit : Nat) (fresh : Bool) : Nat × Option (Nat × QItem) :=
  match s.firstEligible (memberQueues p m) with
  | none => (deficit, none)
  | some (q, i) =>
    let d := if fresh then deficit + (s.sched p).weights.getD m 0 * 1024 else deficit
    let len := s.charged p i
    if len ≤ d then (d - len, some (q, i)) else (d, none)

/-- What the weighted choice leaves: the deficits, the member and the frame. -/
structure Choice where
  deficits : List Nat
  turn : Nat
  /-- The turn stays with the member (R262). -/
  stays : Bool
  found : Option (Nat × QItem)
  deriving DecidableEq, Repr

/-- Visit members in turn (R262); weight 0 members are passed over. -/
def State.visitAll (s : State) (p : Nat) : List (Nat × Bool) → List Nat → Choice
  | [], d => { deficits := d, turn := (s.sched p).turn, stays := false, found := none }
  | (m, fresh) :: rest, d =>
    if (s.sched p).weights.getD m 0 = 0 then s.visitAll p rest d
    else
      let v := s.visit p m (d.getD m 0) fresh
      let d := d.set m v.1
      match v.2 with
      | some f => { deficits := d, turn := m, stays := true, found := some f }
      | none => s.visitAll p rest d

/-- The order of visits: the open turn goes on, then each member from the next, as often as the longest frame can need
(13 rounds add at least 13,312 bytes; log entry 32). -/
def Sched.order (c : Sched) : List (Nat × Bool) :=
  let ring := (List.range 17).map fun i => ((c.turn + 1 + i) % 17, true)
  (if c.open_ then [(c.turn, false)] else []) ++ (List.replicate 13 ring).flatten

/-- The weighted choice (R262). -/
def State.weighted (s : State) (p : Nat) : Choice :=
  let c := s.sched p
  let w := s.visitAll p c.order c.deficits
  match w.found with
  | some _ => w
  | none =>
    { w with found := ((List.range 17).filter fun m => c.weights.getD m 0 == 0).findSome? fun m =>
        s.firstEligible (memberQueues p m) }

/-- Digests are kept: the pair has formed and both devices are in service (R557). -/
def State.digests (s : State) : Bool := s.pair.formed && (s.leads || s.follows)

/-- The egress MAC takes the first byte of a frame: it belongs to this epoch's digest of its port (R558). -/
def State.noteStart (s : State) (p id : Nat) : State :=
  if s.digests then
    let k := 256 * s.epoch + p
    s.modPair fun x => { x with frames := tmod [] x.frames k fun l => l ++ [{ id := id }] }
  else s

/-- What of a frame enters the digest (R557): length, the flag of a stomped FCS, and the bytes, with correctionField and UDP
checksum zero where the device added residence time. -/
def digestData (i : QItem) : Bytes :=
  leBytes 2 i.bytes.length ++ leBytes 1 (b2n i.stomp) ++ (if i.tc.isSome then clearResidence i.bytes else i.bytes)

/-- The bytes of a frame that has been sent are known. -/
def State.noteSent (s : State) (p : Nat) (i : QItem) : State :=
  s.modPair fun x => { x with frames := x.frames.map fun e =>
    if e.1 % 256 = p then
      (e.1, e.2.map fun f => if f.id = i.id ∧ f.data.isNone then { f with data := some (digestData i) } else f)
    else e }

/-- Remove the head of a queue and start sending it (R261, R265): deficits and shapers are charged; a late launch frame
is counted. -/
def State.start (s : State) (q : Nat) (i : QItem) : State :=
  let p := q / 128
  let k := q % 128
  let len := s.charged p i
  let s := s.setItems q ((s.queue q).items.drop 1)
  let s := if !s.isRadio p then
      let s := if (s.queue q).launchEn then s else s.chargeShaper 0 q len
      let s := if 8 ≤ k && k < 120 then s.chargeShaper 1 (bundleIndex q) len else s
      if 8 ≤ k then s.chargeShaper 2 p len else s
    else s
  let s := if i.late then s.count (.queue q .lateSent) else s
  ((s.modSched p fun c => { c with sending := some (q, i) }).settle q).noteStart p i.id

/-- Record a frame that has been sent: counters and the bytes on the wire (R190, R284). -/
def State.emit (s : State) (q : Nat) (i : QItem) : State :=
  let p := q / 128
  let wire := withFcs i.bytes i.stomp
  let s := (s.count (.port p .txFrames)).count (.port p .txOctets) wire.length
  let s := (s.count (.queue q .txFrames)).count (.queue q .txOctets) wire.length
  let s := if i.stomp then s.count (.port p .txStomped) else s
  ({ s with qos := { s.qos with sent := (p, wire) :: s.qos.sent } }).noteSent p i

/-- The ingress timestamp of a frame in 2^-16 ns (R116): the port's correction is added to what the PCS gives, its built-in latency
included (log entry 96). -/
def State.rxStamp (s : State) (p raw : Nat) : Nat :=
  ((raw : Int) + truncDiv ((tget {} s.cfg.portTime p : PortTime).ingressPs * 65536) 1000).toNat

/-- The egress timestamp of a frame that begins to leave at `t` (R116): the latency that the mode's PCS adds, which is not stated (log
entry 96), and the port's correction. -/
def State.txStamp (s : State) (p : Nat) (t : Nat) : Int :=
  (t : Int) + truncDiv ((Config.pcsLatencyPs (s.portCfg p).mode true + (tget {} s.cfg.portTime p : PortTime).egressPs) * 65536) 1000

/-- A PTP instance of the device terminates a message that comes in on a port (R119, R125): the port is a member of an enabled
instance, of the message's transport and domain. Management messages are not for it. -/
def State.terminates (s : State) (p : Nat) (b : Bytes) : Bool :=
  let x := parseFrame b
  match ptpOffset x with
  | none => false
  | some off =>
    let transport := if x.etype = 0x88F7 then 0 else if x.ip = 4 then 1 else 2
    s.cfg.ptp.any fun e => e.2.enable && e.2.ports.contains p && e.2.transport == transport &&
      e.2.domainNumber == byteAt b (off + 4) && byteAt b off % 16 != 13

/-- The egress timestamp of a frame that begins to leave: of a Sync its own (R127), else on its ingress port's base (R120). -/
def State.leaves (s : State) (p : Nat) (i : QItem) : QItem :=
  if i.sync then { i with bytes := stampSync i.bytes (s.txStamp p (s.base (s.portTb p)).t) } else
  match i.tc with
  | some (inPort, _) => { i with left := some (s.txStamp p (s.base (s.portTb inPort)).t) }
  | none => i

/-- The transparent clock: a frame whose egress has begun, as it is serialised (R119, R120). -/
def State.corrected (s : State) (p : Nat) (i : QItem) : QItem :=
  match i.tc, i.left with
  | some (inPort, stamp), some out =>
    let c := (tget {} s.cfg.portTime inPort : PortTime)
    let e := (tget {} s.cfg.portTime p : PortTime)
    if c.tcEn && e.tcEn && !s.terminates inPort i.bytes then { i with bytes := addResidence i.bytes (out - stamp) } else i
  | _, _ => i

/-- The frame that was being sent has ended: its charge and its cells are released, and with an express launch frame its hold
(R267). A preempted frame goes on, but not under a hold. A cut-through frame whose last byte has not arrived is still
being sent. -/
def State.finish (s : State) (p : Nat) : State :=
  match (s.sched p).sending with
  | some (q, i) =>
    if !i.complete then s
    else
      let back := (s.sched p).preempted
      let s := if i.launch.isSome then s.modPort p fun x => { x with mmHolds := x.mmHolds.filter (· != i.id) } else s
      let held := (s.modSched p fun c => { c with sending := none }).mmHold p
      let s := (s.letGo i.id).modSched p fun c => { c with sending := if held then none else back, preempted := if held then back else none }
      s.gaugeQueue q
  | none => s

/-- Release a frame that never leaves: dropped from the head of a queue. -/
def State.discardHead (s : State) (q : Nat) (i : QItem) : State :=
  (((s.setItems q ((s.queue q).items.drop 1)).letGo i.id).settle q).gaugeQueue q

/-- Choose the next frame of a port (R261): express, or the weighted group. The state carries the new deficits. -/
def State.choose (s : State) (p : Nat) (expressOnly : Bool) : State × Option (Nat × QItem) :=
  match s.selectExpress p with
  | some f => (s, some f)
  | none =>
    if expressOnly || s.isRadio p then (s, none)
    else
      let w := s.weighted p
      let t := s.modSched p fun c => { c with deficits := w.deficits, turn := w.turn, open_ := w.stays }
      match w.found with
      | some (q, i) => if (s.shaper 2 p).has (s.charged p i) then (t, some (q, i)) else (s, none)
      | none => (t, none)

/-- A cell of a stored frame is retired. -/
def State.loseCell (s : State) (id : Nat) : State :=
  { s with qos := { s.qos with stored := tmod none s.qos.stored id fun x => x.map fun y => { y with lost := min y.cells (y.lost + 1) } } }

/-- Count a cell as retired, once (R248, R253), with its alarm entries (R285). -/
def State.retireCell (s : State) (cell port : Nat) : State :=
  if s.qos.retired.contains cell then s
  else
    let s := { s with qos := { s.qos with retired := cell :: s.qos.retired } }
    let n := min s.qos.retired.length 65535
    let s := s.alarm 7 0x0711 (leBytes 3 cell ++ leBytes 1 port ++ leBytes 2 n)
    let s := if s.qos.retired.length = 2049 then s.alarm 7 0x0712 (leBytes 3 0 ++ leBytes 1 0 ++ leBytes 2 n) else s
    s.gauge .freeCells s.freeCells

/-- An ECC error of a cell read for egress (R248); in a pair a retired cell is retired by both at a release epoch
(R553). -/
def State.cellError (s : State) (p id : Nat) (e : CellEcc) : State :=
  let s := s.count (.bank (e.cell.toNat / 8192) e.uncorrectable)
  if !e.uncorrectable then s
  else if s.leads || s.follows then s.carry 16 (.retire e.cell.toNat p)
  else (if s.qos.retired.contains e.cell.toNat then s else s.loseCell id).retireCell e.cell.toNat p

/-! ### Flushing -/

/-- Flush one queue (R271): every frame enqueued is removed and counted; the frame being sent goes on. -/
def State.flushQueue (s : State) (q : Nat) : State :=
  let l := (s.queue q).items
  if l.isEmpty then s
  else
    let s := (l.foldl (fun s i => s.letGo i.id) (s.setItems q [])).count (.queue q .flushed) l.length
    s.gaugeQueue q

/-- Queues of a port that hold a frame. -/
def State.busyQueues (s : State) (p : Nat) : List Nat :=
  (s.qos.queues.filter fun e => e.1 / 128 == p && !e.2.items.isEmpty).map (·.1)

/-- Flush every queue of a port (R172, R271). -/
def State.flushPort (s : State) (p : Nat) : State := (s.busyQueues p).foldl (fun s q => s.flushQueue q) s

/-- Flush a tenant's bundle queues on every port (R35, R271). -/
def State.flushTenant (s : State) (t : Nat) : State :=
  let l := (s.qos.queues.filter fun e => 8 + 7 * t ≤ e.1 % 128 && e.1 % 128 < 15 + 7 * t).map (·.1)
  l.foldl (fun s q => s.flushQueue q) s

/-! ### Policers -/

/-- One cycle plan's gain of a policer (R258). -/
def Policer.gain (x : Policer) : Policer :=
  if !x.enable then x
  else
    let u := 100000
    if x.trTcm then { x with tc := min (x.tc + x.cir) (x.cbs * u), te := min (x.te + x.pir) (x.ebs * u) }
    else
      let extra := x.tc + x.cir - x.cbs * u
      { x with tc := min (x.tc + x.cir) (x.cbs * u), te := min (x.te + extra) (x.ebs * u) }

/-- The pre-colour of a frame (R259). -/
def Policer.pre (x : Policer) (p : Parsed) : Nat :=
  if !x.aware then 0
  else if x.dscpSrc then
    (if p.ip = 0 then 0 else if p.dscp / 2 % 4 = 3 then 2 else if p.dscp / 2 % 4 = 2 then 1 else 0)
  else if p.tagged && p.dei then 1 else 0

/-- The colour given, and the buckets after it (RFC 2697, RFC 2698, R258). -/
def Policer.colour (x : Policer) (pre len : Nat) : Nat × Policer :=
  let b := len * 100000
  if x.trTcm then
    if pre = 2 || x.te < b then (2, x)
    else if pre = 1 || x.tc < b then (1, { x with te := x.te - b })
    else (0, { x with te := x.te - b, tc := x.tc - b })
  else
    if pre = 0 && b ≤ x.tc then (0, { x with tc := x.tc - b })
    else if pre ≤ 1 && b ≤ x.te then (1, { x with te := x.te - b })
    else (2, x)

def State.policer (s : State) (n : Nat) : Policer := tget {} s.qos.policers n

/-- What a policer does with a frame: the state, its colour, whether it is dropped and by how many classes it is
lowered. -/
def State.police (s : State) (n : Nat) (p : Parsed) (len : Nat) : State × Nat × Bool × Nat :=
  let x := s.policer n
  if !x.enable then (s, 0, false, 0)
  else
    let r := x.colour (x.pre p) len
    let s := { s with qos := { s.qos with policers := tset {} s.qos.policers n r.2 } }
    let s := s.count (.policer n r.1)
    let act := if r.1 = 1 then x.yellowAct else if r.1 = 2 then x.redAct else 0
    if act = 1 then (s.count (.policer n 3), r.1, true, 0) else (s, r.1, false, if act = 2 then x.demote else 0)

end Sys2Proof.Machine
end

