-- ==== Sys2Proof/Machine/Radio.lean ====
section
/-! DEFINITION. Sites: their entries and state changes (R323 to R327), Dellon Control Words (R300 to R305), loading a PRU,
downlink bursts (R298, R306 to R309), steps of TB0 (R308) and the dwell meters (R317 to R321). -/

namespace Sys2Proof.Machine

def State.site (s : State) (n : Nat) : Site := tget {} s.radio.sites n

def State.modSite (s : State) (n : Nat) (f : Site → Site) : State :=
  { s with radio := { s.radio with sites := tmod {} s.radio.sites n f } }

def State.siteCfg (s : State) (n : Nat) : SiteCfg := tget {} s.cfg.sites n

def State.domain (s : State) (d : Nat) : SchedDomain := tget {} s.radio.domains d

def State.modDomain (s : State) (d : Nat) (f : SchedDomain → SchedDomain) : State :=
  { s with radio := { s.radio with domains := tmod {} s.radio.domains d f } }

/-! ### Images and the domains that name a site -/

/-- The image in a bank, when one is loaded. -/
def Bank.image : Bank → Option Image
  | .loaded i => some i
  | _ => none

/-- The bank of a side: false A, true B. -/
def SchedDomain.bank (d : SchedDomain) (b : Bool) : Bank := if b then d.bankB else d.bankA

def SchedDomain.setBank (d : SchedDomain) (b : Bool) (x : Bank) : SchedDomain :=
  if b then { d with bankB := x } else { d with bankA := x }

/-- The loaded images of a domain. -/
def SchedDomain.images (d : SchedDomain) : List Image := [d.bankA.image, d.bankB.image].filterMap id

/-- The active image of a domain. -/
def SchedDomain.activeImage (d : SchedDomain) : Option Image :=
  match d.active with
  | some b => (d.bank b).image
  | none => none

/-- The image that something received belongs to, `at_` being its instant on the domain's base by an image: the one active
before, for what lies before the change (R411, R412), else the active one. -/
def SchedDomain.imageFor (d : SchedDomain) (at_ : Image → Nat) : Option Image :=
  match d.previous.bind fun b => (d.bank b).image with
  | some j => if at_ j < d.activeFrom then some j else d.activeImage
  | none => d.activeImage

def Image.names (i : Image) (site : Nat) : Bool := i.sites.any (·.site == site)

/-- Domains with a loaded image that names the site. -/
def State.domainsNaming (s : State) (site : Nat) : List Nat :=
  (s.radio.domains.filter fun e => e.2.images.any (·.names site)).map (·.1)

/-- The site is named by a loaded image of some domain. -/
def State.siteLoaded (s : State) (site : Nat) : Bool := !(s.domainsNaming site).isEmpty

/-- A domain with an active image names the site. -/
def State.siteActive (s : State) (site : Nat) : Bool :=
  s.radio.domains.any fun e =>
    match e.2.activeImage with
    | some i => i.names site
    | none => false

/-! ### Entries -/

/-- Body of a site entry (R327). -/
def siteBody (site band reason channel : Nat) (value : Int) : Bytes :=
  leBytes 1 site ++ leBytes 1 band ++ leBytes 1 reason ++ [0] ++ leBytes 2 channel ++ sleBytes 4 value

/-- The Wells for faults of a site (R31): the alarm Well, and the fault Well of every tenant that owns a domain whose
loaded image names the site. -/
def State.siteWells (s : State) (site : Nat) : List Nat :=
  1 :: ((List.range 16).filter fun t => (s.domainsNaming site).any fun d => s.domainTenant d == some t).filterMap s.faultWell

/-- A site entry (R327). -/
def State.siteEvent (s : State) (type site band reason : Nat) (channel : Nat := 0) (value : Int := 0) : State :=
  (s.siteWells site).foldl (fun s w => s.produce w 8 type (siteBody site band reason channel value)) s

/-! ### The baseband lane of a site (R288) -/

/-- The lane that serves a site; none for no lane. -/
def State.laneOf (s : State) (site : Nat) : Option Nat :=
  match tget none s.radio.lanes site with
  | some l => l
  | none => some site

/-- The modes that serve radio (R323, R326). -/
def State.radioMode (s : State) : Bool := s.ms.mode == .m3 || s.ms.mode == .m4 || s.ms.mode == .m5 || s.ms.mode == .m6

/-! ### Dellon Control Words -/

/-- A DCW word (R301): opcode, band (3 for none), instant of a timed word, ACK_REQ, WSEQ and body. -/
def dcwWord (op band : Nat) (act : Option Nat) (ack : Bool) (wseq : Nat) (body : Bytes) : Bytes :=
  let a := act.getD 0
  leBytes 1 op ++ leBytes 1 (band + 4 * b2n act.isSome + 8 * b2n ack) ++ leBytes 2 wseq ++
    leBytes 2 (a / 1000000000) ++ leBytes 4 (a % 1000000000) ++ leBytes 2 body.length ++ body

/-- The source address of what the device sends to a site (R293). -/
def siteSource (site : Nat) : Bytes := [0x02, 0x00, 0xC0, 0x00, 0x00] ++ leBytes 1 site

/-- A RoE frame to the PRU of a site (R293), less its FCS. -/
def roeFrame (mac site subType flow ordering : Nat) (payload : Bytes) : Bytes :=
  beBytes 6 mac ++ siteSource site ++ [0xFC, 0x3D] ++ leBytes 1 subType ++
    leBytes 1 flow ++ beBytes 2 payload.length ++ beBytes 4 ordering ++ payload

/-- An untagged RoE packet (R293). -/
def isRoe (b : Bytes) : Bool := beAt b 12 2 == 0xFC3D

/-- A RoE packet of data of a stream (R293, R294). -/
def isRoeData (b : Bytes) : Bool := isRoe b && byteAt b 14 == Config.roeData && decide (1 ≤ byteAt b 15) && decide (byteAt b 15 ≤ 5)

/-- A RoE packet of a stream that a PRU sends, or of DCW (R176, R293, R294). -/
def isSiteRoe (b : Bytes) : Bool := isRoeData b || (isRoe b && byteAt b 14 == Config.roeControl && byteAt b 15 == 0xFF)

/-- Put a frame on express queue 6 or 7 of the site's radio port (R273, R298); true when it is admitted. -/
def State.toRadioPort (s : State) (site queue : Nat) (frame : Bytes) (sync : Bool := false) : State × Bool :=
  match s.sitePort site with
  | some p =>
    if (s.portSt p).linkUp then
      let n := s.newId
      n.2.takeIn (p / 32) (128 * p + queue) 0 { id := n.1, bytes := frame, cells := cellsOf (frame.length + 4), sync := sync }
    else (s, false)
  | none => (s, false)

/-- Send a word in a DCW frame of its own (R300); true when the port takes it. -/
def State.putWord (s : State) (site : Nat) (word : Bytes) : State × Bool :=
  let x := s.site site
  let r := s.toRadioPort site 7 (roeFrame x.mac site Config.roeControl 0xFF x.order.toNat word)
  (if r.2 then r.1.modSite site fun x => { x with order := x.order + 1 } else r.1, r.2)

/-- Send a new word; with ACK_REQ it waits for its ACK (R303). The answer is the WSEQ it takes. -/
def State.sendDcw (s : State) (site op band : Nat) (act : Option Nat) (ack : Bool) (body : Bytes) : State × Nat :=
  let x := s.site site
  let n := x.wseq.toNat
  let word := dcwWord op band act ack n body
  let s := s.modSite site fun x =>
    { x with wseq := x.wseq + 1
             waiting := if ack then x.waiting ++ [{ wseq := n, word := word, sends := 1 }] else x.waiting }
  ((s.putWord site word).1, n)

/-- OPCODE and BAND of a word. -/
def wordOp (w : Bytes) : Nat := byteAt w 0
def wordBand (w : Bytes) : Nat := byteAt w 1 % 4

/-! ### Contexts (R339, R340, R342) -/

/-- The key of a watch entry at a site. -/
def watchKey (site freq phy : Nat) : Nat := (site * 2 ^ 32 + freq) * 65536 + phy

/-- Contexts are released: each leaves its digital gain to its watch entry. -/
def State.releaseGains (s : State) (r : Recv) : State :=
  { s with radio := { s.radio with gains := (r.copies.filter (·.held)).foldl (fun t c =>
      tset 0 t (watchKey c.site r.entry.freq r.entry.phy) c.gain) s.radio.gains } }

def State.recv (s : State) (id : Nat) : Option Recv := s.radio.recvs.find? (·.id == id)

def State.setRecv (s : State) (r : Recv) : State :=
  { s with radio := { s.radio with recvs := s.radio.recvs.map fun x => if x.id = r.id then r else x } }

/-- A transmission is over and its contexts are free. -/
def State.endRecv (s : State) (r : Recv) : State :=
  let s := s.releaseGains r
  { s with radio := { s.radio with recvs := s.radio.recvs.filter (·.id != r.id) } }

/-- The transmission as it is now; one that is over stays while a context is held or a codeword is queued. -/
def State.settleRecv (s : State) (r : Recv) : State :=
  if r.finished && !(r.copies.any (·.held)) && r.queued.isEmpty then s.endRecv r else s.setRecv r

/-- The frame is decoded or lost: a context stays until it has delivered its last values (R340). -/
def State.finishRecv (s : State) (r : Recv) : State := s.settleRecv { r with finished := true, queued := [] }

/-- The transmissions that answer a test end. -/
def State.endRecvs (s : State) (p : Recv → Bool) : State := (s.radio.recvs.filter p).foldl State.endRecv s

/-- A transmission loses the contexts that a test names. What their sites have delivered counts (R374); when nothing more of it can be
decoded it is over, but for the codewords queued. -/
def State.loseContext (which : Copied → Bool) (s : State) (r : Recv) : State :=
  let gone := r.copies.filter fun c => which c && c.held
  if gone.isEmpty then s
  else
    let s := s.releaseGains { r with copies := gone }
    let r := { r with copies := r.copies.map fun c => if which c then { c with held := false } else c }
    let given := if r.header.isSome then decide (r.ncw ≤ r.queued.length + r.done.length) else r.copies.any (·.headerAt.isSome)
    if r.copies.any (·.held) || (!r.finished && (r.deadlineUs.isSome || given)) then s.setRecv r
    else s.settleRecv { r with finished := true }

/-- A site leaves service: its contexts go. -/
def State.loseContexts (s : State) (site : Nat) : State := s.radio.recvs.foldl (State.loseContext (·.site == site)) s

/-! ### Site states (R325, R326) -/

/-- What a site loses when its PRU restarts or its link goes. -/
def Site.clear (x : Site) : Site :=
  { x with step := 0, sentBlocks := 0, waiting := [], echo := none, tuned := [], tuneSeq := [], keyed := [], dl := [],
           streams := [], tuners := x.tuners.map fun t => (t.1, { t.2 with mayStep := true, stepped := none }),
           ptpLocked := false, synthLock := 0, overtemp := false }

/-- The site goes to DOWN, with SITE_OUT when it was in service; a site in FAULT stays there (R325, R326). -/
def State.siteOut (s : State) (site reason : Nat) : State :=
  let x := s.site site
  let served := x.state == .inService
  let s := s.modSite site fun x =>
    { x.clear with state := if x.state = .fault then .fault else .down, reason := if served then reason else x.reason }
  if served then (s.loseContexts site).siteEvent 0x0802 site 0xFF reason else s

/-- Reason 5 (R326): the TB0 copy is not locked any more. -/
def State.siteUnlocked (s : State) (site : Nat) : State :=
  (s.modSite site fun x => { x with state := .syncing, reason := 5 }).loseContexts site |>.siteEvent 0x0802 site 0xFF 5

/-- The site enters FAULT (R325). -/
def State.siteFault (s : State) (site number : Nat) : State :=
  if (s.site site).state = .fault then s
  else (s.modSite site fun x => { x.clear with state := .fault }).siteEvent 0x0804 site 0xFF number

/-- FAULT and the count of failed attempts are cleared (R325, R335); without a baseband lane the site stays in FAULT. -/
def State.siteFresh (s : State) (site : Nat) : State :=
  if (s.laneOf site).isNone then s
  else s.modSite site fun x => { x with state := if x.state = .fault then .down else x.state, failures := 0 }

/-- The link of a radio port comes up (R323, R325): loading starts with the wait for HELLO, unless the site is in FAULT. -/
def State.siteLinkUp (s : State) (p : Nat) : State :=
  match s.portSite p with
  | some site =>
    let serves := s.ms.mode == .m3 || s.ms.mode == .m4 || s.ms.mode == .m5
    if (s.site site).state = .fault || !serves || (s.laneOf site).isNone then s
    else s.modSite site fun x => { x.clear with state := .loading, step := 1, order := 0 }
  | none => s

/-! ### Loading a PRU (R323) -/

/-- Bytes of an IMAGE_BLOCK. -/
def blockBytes : Nat := 8192

/-- The staged PRU image for a site's PRU. -/
def State.pruImage (s : State) (site : Nat) : Option Bytes :=
  let x := s.site site
  (s.radio.pruImages.find? fun e => e.1 == x.model && e.2.1 == x.hwRev).map (·.2.2)

/-- IMAGE_BLOCK words that are not answered. -/
def Site.unanswered (x : Site) : Nat := (x.waiting.filter fun w => wordOp w.word == 0x01).length

/-- Send image blocks while at most 16 are unanswered and the port takes them. -/
def State.sendBlocks (s : State) (site : Nat) (image : Bytes) : Nat → State
  | 0 => s
  | n + 1 =>
    let x := s.site site
    let off := x.sentBlocks * blockBytes
    if image.length ≤ off || 16 ≤ x.unanswered then s
    else
      let body := leBytes 4 off ++ (image.drop off).take blockBytes
      match s.sitePort site with
      | some p =>
        if s.fits (128 * p + 7) (cellsOf (body.length + 12 + 26)) 0 || x.unanswered == 0 then
          ((s.sendDcw site 0x01 3 none true body).1.modSite site fun x => { x with sentBlocks := x.sentBlocks + 1 }).sendBlocks
            site image n
        else s
      | none => s

/-- Go on with the blocks, and with IMAGE_END once every block is answered. -/
def State.goOnLoading (s : State) (site : Nat) : State :=
  match s.pruImage site with
  | none => s
  | some image =>
    let s := s.sendBlocks site image 16
    let x := s.site site
    if x.step = 2 && decide (image.length ≤ x.sentBlocks * blockBytes) && x.unanswered == 0 then
      let body := leBytes 4 image.length ++ fit 48 (Config.sha384 image)
      (s.modSite site fun x => { x with step := 3 }).sendDcw site 0x02 3 none true body |>.1
    else s

/-- Band of antenna 0 to 4 and its ANT (R310): L 0, L 1, H 0, H 1, V 0. -/
def antennaBand (a : Nat) : Nat := a / 2
def antennaNo (a : Nat) : Nat := a % 2

/-- The analogue gain of an antenna in 0.5 dB at an instant of TB0: of the latest GAIN_SET whose ACT has come, or 30 dB. -/
def Site.gainAt (x : Site) (a t : Nat) : Nat := (((tget [] x.gainSets a).find? fun e => decide (e.1 ≤ t)).map (·.2)).getD 60

/-- The scale in 0.5 dB that the baseband lane gives an antenna's samples at an instant: the inverse of every change of its gain
from 30 dB on, each from its ACT (R311). -/
def Site.scale (x : Site) (a t : Nat) : Int := 60 - (x.gainAt a t : Int)

/-- A GAIN_SET joins those of its antenna; what no later sample can ask for goes. -/
def Site.noteGain (x : Site) (a now act gain : Nat) : Site :=
  let l := (act, gain) :: tget [] x.gainSets a
  { x with gains := x.gains.set a gain,
           gainSets := tset [] x.gainSets a (l.filter (fun e => decide (now < e.1)) ++ (l.filter fun e => decide (e.1 ≤ now)).take 1) }

/-- Send GAIN_SET for an antenna: timed 2 ms ahead, or untimed at a reload (R310, R323), when it acts on receipt. -/
def State.sendGain (s : State) (site a gain : Nat) (timed : Bool) : State :=
  let act := if timed then some (s.ns 0 + 2000000) else none
  let s := s.modSite site fun x => x.noteGain a (s.ns 0) (act.getD (s.ns 0 + x.delayNs)) gain
  (s.sendDcw site 0x11 (antennaBand a) act true (leBytes 1 (antennaNo a) ++ leBytes 1 gain ++ [0, 0])).1

/-- The gain that R323 step 4 sends. -/
def State.loadGain (s : State) (site a : Nat) : Nat :=
  let c := s.siteCfg site
  if bit c.gainFixed (antennaBand a) then c.fixedGain.getD (antennaBand a) 0 else (s.site site).gains.getD a 60

/-- RX_CONFIG and BLANK_CONFIG. -/
def State.sendSettings (s : State) (site : Nat) : State :=
  let c := s.siteCfg site
  let s := (s.sendDcw site 0x10 3 none true (leBytes 1 c.bandEn ++ [0, 0, 0])).1
  (s.sendDcw site 0x50 3 none true (fit 16 c.blank)).1

/-- The settings that follow READY (R323 step 4). -/
def State.configurePru (s : State) (site : Nat) : State :=
  (List.range 5).foldl (fun s a => s.sendGain site a (s.loadGain site a) false) (s.sendSettings site)

/-! ### Dwell meters -/

/-- Number of the meter of a site, band and dwell channel. -/
def meterNo (site band ch : Nat) : Nat := (3 * site + band) * 257 + ch

def State.plan (s : State) (site band : Nat) : DwellPlan := tget {} s.cfg.dwell (3 * site + band)

/-- The dwell channel of a frequency (R317): halves rounded up, 256 out of plan. -/
def DwellPlan.channel (p : DwellPlan) (f : Nat) : Nat :=
  let c := (2 * ((f : Int) - p.f0) + p.spacing) / (2 * p.spacing)
  if decide (0 ≤ c) && decide (c < p.count) && decide (2 * ((f : Int) - (p.f0 + c * p.spacing)).natAbs ≤ p.spacing) then c.toNat
  else 256

/-- Budget of a channel in us. -/
def DwellPlan.limit (p : DwellPlan) (ch : Nat) : Nat := if ch = 256 then p.oop else p.budget

/-- Counts of the duration counter in a second. -/
def secCounts : Nat := 1600000000

/-- Counts of the duration counter in a microsecond. -/
def usCounts : Nat := 1600

/-- Sub-window length S in counts (R318). -/
def DwellPlan.sub (p : DwellPlan) : Nat := (p.wMs * 1000 + 255) / 256 * usCounts

/-- The value of the duration counter at which a base reads an instant (R143), at the base's present rate. -/
def State.durationAt (s : State) (tb ns : Nat) : Nat :=
  let b := s.base tb
  let unit : Int := 65536 * 1000000000000
  let num := ((ns : Int) * 65536 - b.t) * 8 * unit
  let den := 5 * 65536 * (unit + b.freq)
  ((s.time.duration : Int) + -((-num) / den)).toNat

/-- U in counts for a burst of `d` us at duration count `t` (R319): whole sub-windows from the one that holds
t + d - W to the one that holds t. -/
def State.dwellUsed (s : State) (site band ch t d : Nat) : Nat :=
  let p := s.plan site band
  let lo := (t + d * usCounts - p.wMs * 1000 * usCounts) / p.sub
  let hi := t / p.sub
  sumNat (((tget [] s.radio.meters (meterNo site band ch)).filter fun e => decide (lo ≤ e.1) && decide (e.1 ≤ hi)).map (·.2))

/-- Charge counts [a, b) to the sub-windows they overlap, split at their edges (R318). -/
def chargeSpan (sub a b : Nat) (t : Tab Nat) : Nat → Tab Nat
  | 0 => t
  | n + 1 =>
    if b ≤ a then t
    else
      let e := min b ((a / sub + 1) * sub)
      chargeSpan sub e b (tmod 0 t (a / sub) (· + (e - a))) n

/-- Admit and charge a burst, or refuse it (R319): keyed time `d` us at duration count `t`. Sub-windows that no window
can reach any more are dropped from the table. -/
def State.dwellCheck (s : State) (site band freq t d : Nat) : State × Bool :=
  let p := s.plan site band
  let ch := p.channel freq
  let m := meterNo site band ch
  if s.dwellUsed site band ch t d + d * usCounts ≤ p.limit ch * usCounts then
    let old := (tget [] s.radio.meters m).filter fun e => decide (s.time.duration / p.sub ≤ e.1 + 600)
    let new := chargeSpan p.sub t (t + d * usCounts) old (d * usCounts / p.sub + 2)
    (({ s with radio := { s.radio with meters := tset [] s.radio.meters m new } }).count (.meter m true) d, true)
  else
    let s := s.count (.meter m false)
    ((s.siteWells site).foldl (fun s w => s.pace m w 8 0x0809 (siteBody site band 0 ch 0) 6 4) s, false)

/-! ### Downlink bursts -/

/-- Downlink rate of a band in kS/s, and samples per packet (R290). -/
def dlRate (band : Nat) : Nat := if band = 0 then 2500 else if band = 1 then 5000 else 240
def dlPacket (band : Nat) : Nat := if band = 2 then 48 else 500

/-- Samples of a burst of so many ns on air. -/
def burstSamples (band airNs : Nat) : Nat := (airNs * dlRate band + 999999) / 1000000

/-- Keyed time in us of so many samples (R309). -/
def keyedUs (band samples : Nat) : Nat := (samples * 1000 + dlRate band - 1) / dlRate band

/-- Index within its second of the sample that starts a burst at an instant of TB0 (R298), and its instant. -/
def gridIndex (band ns : Nat) : Nat := ns % 1000000000 * dlRate band / 1000000
def gridNs (band ns : Nat) : Nat := ns / 1000000000 * 1000000000 + gridIndex band ns * 1000000 / dlRate band

/-- A burst to send: site, band, frequency, PHY code, power in 0.25 dBm, start on TB0 in ns, samples and the frame. -/
structure Burst where
  site : Nat
  band : Nat
  freq : Nat
  phy : Nat
  power : Int
  start : Nat
  samples : Nat
  /-- What it carries, each part with its air time in ns. -/
  carries : List (Nat × Modulated)
  deriving DecidableEq, Repr

/-- The burst needs TX_TUNE (R306, R417). -/
def State.needsTune (s : State) (site band freq : Nat) : Bool := tget none (s.site site).tuned band != some freq

/-- The 80 us before an instant overlap a keyed span of the band (R417). -/
def State.tuneClash (s : State) (site band start : Nat) : Bool :=
  (s.site site).keyed.any fun k => k.1 == band && decide (k.2.1 < start) && decide (start < k.2.2 + 80000)

/-- Send TX_TUNE where it is needed. -/
def State.tuneFor (s : State) (b : Burst) : State :=
  if s.needsTune b.site b.band b.freq then
    let r := s.sendDcw b.site 0x20 b.band (some (gridNs b.band b.start - 80000)) false (leBytes 4 b.freq ++ [0, 0, 0, 0])
    r.1.modSite b.site fun x =>
      { x with tuned := tset none x.tuned b.band (some b.freq), tuneSeq := tset none x.tuneSeq b.band (some r.2) }
  else s

/-- A downlink sample in three bytes: both components 12 bits, from -2,047 to 2,047, so that none is blanked (R291). -/
def packSample (x : Int × Int) : Bytes :=
  let i := (clampInt (-2047) 2047 x.1 % 4096).toNat
  let q := (clampInt (-2047) 2047 x.2 % 4096).toNat
  leBytes 1 (i % 256) ++ leBytes 1 (i / 256 + 16 * (q % 16)) ++ leBytes 1 (q / 16)

/-- The subcarriers whose mean power a LOFDM symbol has: those with a point, and 104 of P1 (R348). -/
def symbolPower (l : List Tone) : Nat :=
  if l.any fun t => match t with | .chirp _ => true | _ => false then 104
  else (l.filter fun t => match t with | .point _ _ _ => true | _ => false).length

/-- Symbols of 128 samples, each behind its cyclic prefix of 16, with the two samples at each edge shaped over those that go on from the
symbol before (R346, R348). -/
def symbolStream (before : List (Int × Int)) : List (List (Int × Int)) → List (Int × Int)
  | [] => (List.range 2).map fun i => Config.edge i (before.getD i (0, 0)) (0, 0)
  | u :: l =>
    let x := u.drop 112 ++ u
    (List.range 2).map (fun i => Config.edge i (before.getD i (0, 0)) (x.getD i (0, 0))) ++ x.drop 2 ++ symbolStream u l

/-- `n` downlink samples of one part of a burst: LOFDM at 1.25 MS/s is interpolated by 2 in band L and by 4 in band H (R346). -/
def partSamples (band code rem n : Nat) : Modulated → List (Int × Int)
  | .psdu b => (List.range n).map (Config.stdSample b code rem)
  | .symbols l =>
    let useful (t : List Tone) : List (Int × Int) := (List.range 128).map fun i => (Config.idft t (symbolPower t)).getD i (0, 0)
    let x := symbolStream [] (l.map useful)
    (List.range n).map (Config.interpolate (if band = 0 then 2 else 4) rem x)

/-- The samples of a burst that starts at `t0`, from `t` ns on. -/
def burstWave (band code t0 : Nat) : Nat → List (Nat × Modulated) → List (Int × Int)
  | _, [] => []
  | t, (air, m) :: l =>
    partSamples band code ((t0 + t) % 1000000000 * dlRate band % 1000000) (burstSamples band (t + air) - burstSamples band t) m ++
      burstWave band code t0 (t + air) l

/-- The data frames of a burst with their sending times: 400 us before the PRU needs them, by the one-way delay. -/
def burstFrames (mac delay : Nat) (b : Burst) : List (Nat × Nat × Bytes) :=
  let per := dlPacket b.band
  let rate := dlRate b.band
  let wave := fit (3 * b.samples) ((burstWave b.band (phyCode b.freq b.phy) b.start 0 b.carries).flatMap packSample)
  (List.range ((b.samples + per - 1) / per)).map fun k =>
    let abs := b.start / 1000000000 * (rate * 1000) + gridIndex b.band b.start + k * per
    let at_ := abs * 1000000 / rate
    (b.start, at_ - 400000 - delay,
      roeFrame mac b.site Config.roeData (0x11 + 2 * b.band) (abs / (rate * 1000) % 32 * 2 ^ 27 + abs % (rate * 1000))
        ((wave.drop (3 * k * per)).take (3 * per)))

/-- Send an admitted burst (R306, R308): TX_TUNE, TX_KEY, and its frames at their times. -/
def State.sendBurst (s : State) (b : Burst) : State :=
  let s := s.tuneFor b
  let act := gridNs b.band b.start
  let s := (s.sendDcw b.site 0x21 b.band (some act) false (leBytes 4 b.samples ++ sleBytes 2 b.power ++ [0, 0])).1
  let x := s.site b.site
  s.modSite b.site fun x' =>
    { x' with keyed := x'.keyed.filter (fun k => decide (s.ns 0 ≤ k.2.2)) ++ [(b.band, act, act + keyedUs b.band b.samples * 1000)]
              dl := x.dl ++ burstFrames x.mac x.delayNs b }

/-- One downlink frame leaves for the site's port; it counts when the queue takes it. -/
def State.sendDl (site : Nat) (s : State) (frame : Bytes) : State :=
  let r := s.toRadioPort site 6 frame
  if r.2 then r.1.count (.site site .dlFrames) else r.1

/-- Put on queue 6 every data frame of a site whose sending time has come (R298). -/
def State.releaseDl (s : State) (site : Nat) : State :=
  let now := s.ns 0
  let due := (s.site site).dl.filter fun f => decide (f.2.1 ≤ now)
  if due.isEmpty then s
  else
    let s := s.modSite site fun x => { x with dl := x.dl.filter fun f => decide (now < f.2.1) }
    (due.map (·.2.2)).foldl (State.sendDl site) s

/-- A step of TB0 from `t1` to `t2` as it meets one site: its PRU is told, and what is keyed or queued in between goes. -/
def State.pruStep (t1 t2 : Nat) (s : State) (n : Nat) : State :=
  let x := s.site n
  if x.state = .inService ∨ x.state = .syncing then
    let s := (s.sendDcw n 0x40 3 none true (sleBytes 8 ((t2 : Int) - t1))).1
    s.modSite n fun x =>
      { x with keyed := x.keyed.filter fun k => !(decide (t1 < k.2.1) && decide (k.2.1 ≤ t2))
               dl := x.dl.filter fun f => !(decide (t1 < f.1) && decide (f.1 ≤ t2)) }
  else s

/-- A step of TB0 (R142, R308): TIME_STEP to every PRU whose image runs, and the spans not begun whose start lies at or
before the stepped time are cancelled. -/
def State.pruStepped (s : State) (t1 t2 : Nat) : State :=
  (s.radio.sites.map (·.1)).foldl (State.pruStep t1 t2) s

end Sys2Proof.Machine
end

