-- ==== Sys2Proof/Machine/Slots.lean ====
section
/-! DEFINITION. Slots and Seasons (R137, R387), the activation of an image (R411 to R413), and what a step of a base does
to the slots of its domains (R140, R141). -/

namespace Sys2Proof.Machine

/-- The base of a domain: its tenant's selected base (R135). -/
def State.domainTb (s : State) (d : Nat) : Nat :=
  match s.domainTenant d with
  | some t => tget 0 s.cfg.tenantBase t
  | none => 0

/-- Slot length in ns (R383). -/
def Image.slotNs (i : Image) : Nat := i.slotUnits * 250000

/-- Season length in ns. -/
def Image.seasonNs (i : Image) : Nat := i.slotNs * 2 ^ i.k

/-- A domain has an active image or an activation pending. -/
def SchedDomain.scheduled (d : SchedDomain) : Bool := d.active.isSome || d.activation.isSome

/-- Some domain of the tenant has an active image or an activation pending (R136). -/
def State.tenantScheduled (s : State) (t : Nat) : Bool :=
  s.radio.domains.any fun e => s.domainTenant e.1 == some t && e.2.scheduled

/-- The bank that a load goes to (R402): the one that is not active. With none active, the bank other than the one active
latest, else the first empty bank, else A (log entry 40). -/
def SchedDomain.loadSide (d : SchedDomain) : Bool :=
  match d.active, d.lastActive with
  | some b, _ => !b
  | none, some b => !b
  | none, none =>
    match d.bankA, d.bankB with
    | .empty, _ => false
    | _, .empty => true
    | _, _ => false

/-- The bank that SCHED_ACTIVATE names: the loaded bank that is not active; of two, the one loaded latest. -/
def SchedDomain.readySide (d : SchedDomain) : Option Bool :=
  let ok (b : Bool) : Bool := d.active != some b && (d.bank b).image.isSome
  if ok d.lastLoaded then some d.lastLoaded else if ok (!d.lastLoaded) then some (!d.lastLoaded) else none

/-- The bank that SCHED_STATUS reports beside the active one. -/
def SchedDomain.otherSide (d : SchedDomain) : Bool :=
  match d.active, d.activation with
  | some b, _ => !b
  | none, some a => a.bank
  | none, none =>
    match d.bankA, d.bankB with
    | _, .loading _ _ _ => true
    | .loading _ _ _, _ => false
    | _, .loaded _ => true
    | .loaded _, _ => false
    | .empty, .empty => true

/-- The image that slot instants from `ns` on belong to: the pending one from its boundary, else the active one. -/
def SchedDomain.imageAt (d : SchedDomain) (ns : Nat) : Option Image :=
  match d.activation with
  | some a => if a.at_ ≤ ns then (d.bank a.bank).image else d.activeImage
  | none => d.activeImage

/-- Air instants are kept on TB0; an instant of a domain's base on TB0 (R138). -/
def State.toTb0 (s : State) (d ns : Nat) : Nat := ((ns : Int) + s.ns 0 - s.ns (s.domainTb d)).toNat

/-- A symbol of a PHY in ns. -/
def symbolNs (phy : Nat) : Nat := if phy % 16 = 4 then 115200 else if phy % 16 = 3 then 16000 else 1000000000 / Config.symbolRate phy

/-- The cell's window ends before the frame's last symbol would begin (R340): of a frame whose header is not decided, before its header
has ended. -/
def Recv.pastWindow (r : Recv) : Bool :=
  if r.header.isSome then decide (r.windowEnd < r.frameEnd - symbolNs r.entry.code)
  else r.copies.all fun c => decide (r.windowEnd < c.headerEnd)

/-- The contexts of transmissions whose cell's window has ended, with no header yet decided and too early for one, are freed (R340). -/
def State.endWindows (s : State) (d : Nat) : State :=
  s.endRecvs fun r => r.domain == d && decide (r.windowEnd ≤ s.ns 0) && r.header.isNone && r.pastWindow

/-- The receive windows of a domain end at an instant of its base at the latest; the contexts of frames that go on past it are freed
(R340, R412). -/
def State.cutWindows (s : State) (d at_ : Nat) : State :=
  let fin := s.toTb0 d at_
  let s := { s with radio := { s.radio with recvs := s.radio.recvs.map fun (r : Recv) =>
    if r.domain = d then { r with windowEnd := min r.windowEnd fin } else r } }
  s.endRecvs fun r => r.domain == d && r.windowEnd == fin && !r.finished && r.pastWindow

/-- The pending activation takes place (R411, R412): the receive windows of the old image end, the banks change roles, acknowledgements
of the old image that have not been issued go, and the completion event carries OK. -/
def State.activate (s : State) (d : Nat) : State :=
  let x := s.domain d
  match x.activation with
  | some a =>
    let s := (s.cutWindows d a.at_).modDomain d fun x => { x with
      active := some a.bank, lastActive := some a.bank, activation := none, previous := x.active, activeFrom := a.at_,
      acks := x.acks.filter (·.issued) }
    (s.count (.domain d .activations)).complete a.fn a.tag 0x0704 stOk 0
  | none => s

/-- A pending activation is cancelled: STALE_GENERATION 0x50 in its completion event (R413). -/
def State.cancelActivation (s : State) (d : Nat) : State :=
  match (s.domain d).activation with
  | some a => (s.modDomain d fun x => { x with activation := none }).complete a.fn a.tag 0x0704 stStale 0x50
  | none => s

/-- A SLOTS entry to the fault Well of the domain's tenant (R150). -/
def State.slotsEntry (s : State) (d tb skipped held : Nat) : State :=
  match s.domainTenant d with
  | some t => s.toFaultWell t 5 0x0505
      (leBytes 1 tb ++ [0] ++ leBytes 4 skipped ++ leBytes 4 held ++ leBytes 1 d ++ [0, 0, 0])
  | none => s

/-- A pending activation whose boundary a step has passed takes place; the new image starts in the slot that contains `t2` (R140). -/
def State.activatePassed (s : State) (d t2 : Nat) : State :=
  match (s.domain d).activation with
  | some a =>
    if a.at_ ≤ t2 then
      let s := s.activate d
      match (s.domain d).activeImage with
      | some i => s.modDomain d fun x => { x with slot := t2 / i.slotNs, notBefore := max x.notBefore (t2 + 1) }
      | none => s
    else s
  | none => s

/-- Slot boundaries above `t1` and up to `t2` (R140): those of the active image until the pending one's Season boundary, and of that
image from there. -/
def SchedDomain.passedBy (x : SchedDomain) (t1 t2 : Nat) : Nat :=
  let of (i : Option Image) (a b : Nat) : Nat := match i with | some i => b / i.slotNs - a / i.slotNs | none => 0
  match x.activation with
  | some a =>
    if a.at_ ≤ t2 then of x.activeImage t1 (max (a.at_ - 1) t1) + of (x.bank a.bank).image (max (a.at_ - 1) t1) t2
    else of x.activeImage t1 t2
  | none => of x.activeImage t1 t2

/-- A domain's slots after its base has stepped from `t1` to `t2` ns (R140, R141): forward, the boundaries passed are skipped and a
pending activation among them takes place; backward, the domain holds until the latest instant that it had issued is passed again,
whether or not an image is active. -/
def State.slotsStep (s : State) (tb t1 t2 d : Nat) : State :=
  let x := s.domain d
  if t1 < t2 then
    if x.activeImage.isNone && !(x.activation.any fun a => decide (a.at_ ≤ t2)) then s
    else
      let s := match x.activeImage with
        | some i => s.modDomain d fun x => { x with slot := t2 / i.slotNs, notBefore := max x.notBefore (t2 + 1) }
        | none => s
      let n := x.passedBy t1 t2
      ((s.count (.domain d .slotsSkipped) n).slotsEntry d tb n 0).activatePassed d t2
  else
    let last := x.last.getD 0
    let holds := x.last.isSome && decide (t2 ≤ last)
    let s := s.modDomain d fun x =>
      { x with previous := none, notBefore := if holds then last + 1 else 0, hold := if holds then some last else none }
    match x.activeImage with
    | none => s
    | some i =>
      (s.modDomain d fun x => { x with slot := t2 / i.slotNs }).slotsEntry d tb 0 (if holds then last / i.slotNs - t2 / i.slotNs else 0)

/-- A base has stepped: every domain that runs on it follows. -/
def State.slotsStepped (s : State) (tb t1 t2 : Nat) : State :=
  ((s.radio.domains.map (·.1)).filter fun d => s.domainTb d == tb).foldl (fun s d => s.slotsStep tb t1 t2 d) s

end Sys2Proof.Machine
end

