-- ==== Sys2Proof/Machine/Image.lean ====
section
/-! DEFINITION. Kalxus images: their form and structure (R388 to R401, R403) and the bytes of their records. -/

namespace Sys2Proof.Machine

/-! ### Air time -/

/-- Codewords sent and bits of a LOFDM frame (R351): information bits per codeword for a length and rate. -/
def ldpcKb : Nat → Nat
  | 0 => 12 | 1 => 16 | 2 => 18 | _ => 20

/-- K of R353 and R363 for a codeword length and rate. -/
def ldpcK (n rate : Nat) : Nat := ldpcKb rate * (n / 24)

/-- Codeword length of a PSDU (R351). -/
def lofdmN (len rate : Nat) : Nat := if 8 * len ≤ ldpcK 768 rate then 768 else 1536

/-- Codewords, coded bits sent and data symbols of a frame under codeword length `n` (R351). -/
def lofdmNcw (n len rate : Nat) : Nat := (8 * len + ldpcK n rate - 1) / ldpcK n rate

def lofdmT (n len rate : Nat) : Nat :=
  let ncw := lofdmNcw n len rate
  ncw * n - (ncw * ldpcK n rate - 8 * len)

/-- N_data for B bits per symbol. -/
def lofdmNdata (n len rate b : Nat) : Nat := (lofdmT n len rate + b - 1) / b

/-- Air time of a LOFDM frame in ns (R354). -/
def lofdmNs (len rate b : Nat) : Nat := (3 + lofdmNdata (lofdmN len rate) len rate b) * 115200

/-- Air time in ns of a PSDU under a PHY code, LOFDM with LOAD_MODE 1 at rate 1/2 (R404). -/
def airNs (phy len : Nat) : Nat :=
  if phy % 16 = 4 then lofdmNs len 0 96 else if phy % 16 = 3 then (6 + len) * 32000 else Config.stdAirNs len phy

/-- A of a channel set (R404) in ns. -/
def chsetA (c : List Chan) : Nat := c.foldl (fun a e => max a (airNs e.code 64)) 0

/-! ### Records -/

/-- Record sizes of the sections (R390). -/
def recSizes : List Nat := [8, 16, 32, 16, 520, 16, 24, 40, 1, 1]

/-- Offset and length of section `i`. -/
def secAt (b : Bytes) (i : Nat) : Nat × Nat := (leAt b (48 + 8 * i) 4, leAt b (52 + 8 * i) 4)

/-- The records of a section. -/
def records (b : Bytes) (i : Nat) : List Bytes :=
  let x := secAt b i
  let n := recSizes.getD i 1
  (List.range (x.2 / n)).map fun k => slice b (x.1 + k * n) n

def parseSite (r : Bytes) : ImgSite := { site := byteAt r 0 % 128, bands := byteAt r 1 % 8, fhMax := leAt r 2 2 }

def parseCell (r : Bytes) : Cell :=
  { type := byteAt r 0 % 16, ackReq := bit (byteAt r 0) 4, grouped := bit (byteAt r 0) 5, site := byteAt r 1 % 128,
    band := byteAt r 2 % 4, ctx := byteAt r 3 % 128, start := leAt r 4 2, len := leAt r 6 2, node := leAt r 8 4 % 2 ^ 17,
    chset := leAt r 12 2 % 4096, chOffset := byteAt r 14, group := leAt r 16 2, decPeak := leAt r 18 3 % 2 ^ 20,
    ackDelay := leAt r 22 2, power := sleAt r 24 2, keyed := leAt r 26 2 }

def parseVect (r : Bytes) : Vect :=
  { site := byteAt r 0 % 128, ctx := byteAt r 1 % 128, txBands := byteAt r 2 % 8, comb := byteAt r 2 / 8 % 8,
    dwell := [leAt r 4 2, leAt r 6 2, leAt r 8 2], decPeak := leAt r 10 3 % 2 ^ 20 }

/-- A channel set; COUNT above 64 is read as 65 here, and refused by the contract. -/
def parseChset (r : Bytes) : List Chan :=
  (List.range (min (byteAt r 0) 65)).map fun e =>
    { freq := leAt r (8 + 8 * e) 4, phy := leAt r (12 + 8 * e) 2, band := byteAt r (14 + 8 * e) % 4 }

def parseGroup (r : Bytes) : Group :=
  { members := byteAt r 0 % 8, ackMember := byteAt r 0 / 8 % 4, sites := [byteAt r 1, byteAt r 2, byteAt r 3, byteAt r 4],
    alignUs := byteAt r 5, deadlineUs := leAt r 6 2 }

def parseCsl (r : Bytes) : CslRec :=
  { node := leAt r 0 4 % 2 ^ 17, periodMs := leAt r 4 2, site := byteAt r 6 % 128, phaseNs := leAt r 8 8,
    chset := leAt r 16 2 % 4096, baseUs := leAt r 18 2, driftPpb := leAt r 20 2 }

def parseRoute (r : Bytes) : RouteRec :=
  { node := leAt r 0 4 % 2 ^ 17, nHops := byteAt r 4 % 16, site := byteAt r 5 % 128,
    hops := (List.range 8).map fun h => leAt r (8 + 4 * h) 4 % 2 ^ 17 }

/-- The whole image as parsed. -/
def parseImage (b : Bytes) : Image :=
  let cells := (records b 2).map parseCell
  let vects := (records b 3).map parseVect
  { domain := byteAt b 6 % 64, tenant := byteAt b 7 % 16, serial := leAt b 12 4, slotUnits := leAt b 16 2,
    k := byteAt b 18 % 32, tb := byteAt b 19 % 8, guard := leAt b 20 2, keySlot := leAt b 22 2 % 4096,
    asnOrigin := leAt b 24 8, sites := (records b 0).map parseSite,
    slots := (records b 1).map fun r =>
      let cf := leAt r 0 4
      let n := leAt r 4 2
      { cells := ((List.range n).map (· + cf)).zip ((cells.drop cf).take n)
        vects := (vects.drop (leAt r 8 4)).take (byteAt r 12 % 128) }
    chsets := (records b 4).map parseChset, groups := (records b 5).map parseGroup, csls := (records b 6).map parseCsl,
    routes := (records b 7).map parseRoute }

/-! ### Structure (R403 step 4) -/

/-- Numbers strictly rising, or rising or equal. -/
def rising : List Nat → Bool
  | a :: b :: l => decide (a < b) && rising (b :: l)
  | _ => true

def notFalling : List Nat → Bool
  | a :: b :: l => decide (a ≤ b) && notFalling (b :: l)
  | _ => true

/-- Section bounds, alignment and record sizes (R388, R390). -/
def sectionsOk (b : Bytes) (len : Nat) : Bool :=
  len % 8 == 0 && decide (360 ≤ len) && decide (len ≤ 268435456) &&
    ((List.range 10).all fun i =>
      let x := secAt b i
      x.1 % 8 == 0 && x.2 % recSizes.getD i 1 == 0 && (x.2 == 0 || (decide (256 ≤ x.1) && decide (x.1 + x.2 ≤ len - 104))) &&
        (decide (i < 8) || x.2 == 0))

/-- The locating indices of the Slots section (R392, R403), and the order of the records (R390). -/
def structureOk (b : Bytes) (len : Nat) : Bool :=
  sectionsOk b len &&
    (let i := parseImage b
     let nCells := (secAt b 2).2 / 32
     let nVects := (secAt b 3).2 / 16
     ((records b 1).all fun r =>
       decide (leAt r 0 4 + leAt r 4 2 ≤ nCells) &&
         decide (leAt r 8 4 + byteAt r 12 % 128 ≤ nVects)) &&
     decide (1 ≤ i.sites.length) && decide (i.sites.length ≤ 96) && rising (i.sites.map (·.site)) &&
     decide (i.chsets.length ≤ 4096) && decide (i.groups.length ≤ 65535) && rising (i.csls.map (·.node)) &&
     rising (i.routes.map (·.node)) &&
     i.slots.all fun x => notFalling (x.cells.map (·.2.start)) && rising (x.vects.map (·.site)))

/-! ### Reserved fields (R403 step 5) -/

/-- Every byte of a range under a full mask. -/
def fullMasks (lo hi : Nat) : List (Nat × Nat) := (List.range (hi + 1 - lo)).map fun i => (lo + i, 0xFF)

/-- Reserved bits of the records of each section, by byte and mask. -/
def recMasks : Nat → List (Nat × Nat)
  | 0 => [(0, 0x80), (1, 0xF8)] ++ fullMasks 4 7
  | 1 => [(6, 0xFF), (7, 0xFF), (12, 0x80)] ++ fullMasks 13 15
  | 2 => [(0, 0xC0), (1, 0x80), (2, 0xFC), (3, 0x80), (10, 0xFE), (11, 0xFF), (13, 0xF0), (15, 0xFF), (20, 0xF0),
          (21, 0xFF)] ++ fullMasks 28 31
  | 3 => [(0, 0x80), (1, 0x80), (2, 0xC0), (3, 0xFF), (12, 0xF0)] ++ fullMasks 13 15
  | 4 => fullMasks 1 7
  | 5 => [(0, 0xE0)] ++ fullMasks 8 15
  | 6 => [(2, 0xFE), (3, 0xFF), (6, 0x80), (7, 0xFF), (17, 0xF0), (22, 0xFF), (23, 0xFF)]
  | 7 => [(2, 0xFE), (3, 0xFF), (4, 0xF0), (5, 0x80), (6, 0xFF), (7, 0xFF)] ++
      (List.range 8).flatMap fun h => [(10 + 4 * h, 0xFE), (11 + 4 * h, 0xFF)]
  | _ => []

/-- The entries of a channel set: reserved bits of those in use, and every byte of the others (R395). -/
def chsetMasks (r : Bytes) : List (Nat × Nat) :=
  (List.range 64).flatMap fun e =>
    if e < byteAt r 0 then [(14 + 8 * e, 0xFC), (15 + 8 * e, 0xFF)] else fullMasks (8 + 8 * e) (15 + 8 * e)

/-- Reserved bits of the header (R389). -/
def headerMasks : List (Nat × Nat) :=
  [(6, 0xC0), (7, 0xF0), (18, 0xE0), (19, 0xF8), (23, 0xF0)] ++ fullMasks 32 47 ++ fullMasks 128 255

/-- Every reserved field of the image is zero. -/
def reservedOk (b : Bytes) (len : Nat) : Bool :=
  headerMasks.all (maskZero b) && rangeZero b (len - 8) (len - 1) &&
    (List.range 8).all fun i => (records b i).all fun r =>
      (recMasks i).all (maskZero r) && (i != 4 || (chsetMasks r).all (maskZero r))

end Sys2Proof.Machine
end

