-- ==== Sys2Proof/Machine/Lofdm.lean ====
section
/-! DEFINITION. Loaded OFDM: the scrambler, the header word and its code, the LDPC codes, the coded bits of a frame, loading
maps, and the choice of a map (R346 to R366). -/

namespace Sys2Proof.Machine

/-! ### The scrambler -/

/-- One step of the LFSR of R351 on 7 bits: its output, and the next state. -/
def lfsr7 (x : Nat) : Bool × Nat :=
  let f := bit x 6 != bit x 3
  (f, x * 2 % 128 + b2n f)

/-- The outputs of `n` steps. -/
def lfsrBits : Nat → Nat → List Bool
  | 0, _ => []
  | n + 1, x => (lfsr7 x).1 :: lfsrBits n (lfsr7 x).2

/-- Bits of octets, least significant first, and back. -/
def bitsOf (b : Bytes) : List Bool := b.flatMap fun x => (List.range 8).map fun i => bit x.toNat i

def natOf : List Bool → Nat
  | [] => 0
  | x :: l => b2n x + 2 * natOf l

def bytesOf : Nat → List Bool → Bytes
  | 0, _ => []
  | n + 1, l => leBytes 1 (natOf (l.take 8)) ++ bytesOf n (l.drop 8)

/-- Exclusive or, bit by bit. -/
def xorBits (a b : List Bool) : List Bool := (a.zip b).map fun p => p.1 != p.2

/-! ### The header (R349, R350) -/

/-- HCRC of bits 33 to 0, in sending order. -/
def hcrc (h : Nat) : Nat :=
  (List.range 34).foldl (fun r i => if bit r 7 != bit h i then (r * 2 % 256) ^^^ 0x07 else r * 2 % 256) 0xFF

/-- The eight bits of HCRC as header bits 34 on: the register's most significant bit first. -/
def hcrcField (h : Nat) : Nat := natOf ((List.range 8).map fun i => bit (hcrc h) (7 - i))

/-- Fields of a header word. -/
def hdrMap (h : Nat) : Nat := bits h 0 8
def hdrLen (h : Nat) : Nat := bits h 8 11
def hdrCw (h : Nat) : Nat := if bit h 19 then 1536 else 768
def hdrRate (h : Nat) : Nat := bits h 20 2
def hdrLoad (h : Nat) : Nat := bits h 22 3
def hdrSeed (h : Nat) : Nat := bits h 25 7

/-- A header is valid (R350). -/
def hdrOk (h : Nat) : Bool :=
  bits h 34 8 == hcrcField h && bits h 32 2 == 0 && bits h 42 6 == 0 && hdrSeed h != 0 && decide (hdrLoad h ≤ 4) &&
    ((hdrMap h == 0) == (hdrLoad h != 0))

/-- The header word of a frame. -/
def hdrWord (map len n rate load seed : Nat) : Nat :=
  let h := map + 2 ^ 8 * len + 2 ^ 19 * b2n (n == 1536) + 2 ^ 20 * rate + 2 ^ 22 * load + 2 ^ 25 * seed
  h + 2 ^ 34 * hcrcField h

/-- Parity of the taps of a convolutional generator over the newest seven bits. -/
def parityOf (x : Nat) : Bool := ((List.range 7).filter (bit x)).length % 2 == 1

/-- The coded header: g0 (133 octal) then g1 (171 octal) of each step; bit 6 of the register is the newest bit. -/
def convCode : Nat → List Bool → List Bool
  | _, [] => []
  | st, b :: l =>
    let r := b2n b * 64 + st / 2
    parityOf (r &&& 0o133) :: parityOf (r &&& 0o171) :: convCode r l

def hdrCoded (h : Nat) : List Bool := convCode 0 ((List.range 48).map (bit h))

/-! ### The LDPC codes (R363 to R366) -/

/-- c of a rate. -/
def ldpcC : Nat → Nat
  | 0 => 5 | 1 => 7 | 2 => 11 | _ => 13

/-- Non-zero blocks E of a rate. -/
def ldpcE : Nat → Nat
  | 0 => 61 | 1 => 65 | 2 => 67 | _ => 69

/-- The base matrix: the shift at a row and column, none for a zero block. -/
def ldpcH (rate z i j : Nat) : Option Nat :=
  let kb := ldpcKb rate
  let mb := 24 - kb
  if j < kb then
    if (((i : Int) - j) % (mb : Int)).toNat < 3 then some ((ldpcC rate * (i + 1) * (2 * j + 1) + 3 * j * j) % z) else none
  else if j = kb then
    if i = 0 ∨ i = mb - 1 then some 1 else if i = mb / 2 then some 0 else none
  else
    let t := j - kb
    if i + 1 = t ∨ i = t then some 0 else none

/-- A block of Z bits as a number, bit r in place r, under a circulant of shift s. -/
def rotate (z x s : Nat) : Nat := x / 2 ^ s + x % 2 ^ s * 2 ^ (z - s)

/-- Block j of a codeword. -/
def blockOf (z w j : Nat) : Nat := w / 2 ^ (z * j) % 2 ^ z

/-- Row i of the syndrome of a codeword. -/
def syndromeRow (rate z w i : Nat) : Nat :=
  (List.range 24).foldl (fun acc j => match ldpcH rate z i j with
    | some t => acc ^^^ rotate z (blockOf z w j) t
    | none => acc) 0

/-- Every parity check is zero. -/
def syndromeOk (rate z w : Nat) : Bool := (List.range (24 - ldpcKb rate)).all fun i => syndromeRow rate z w i == 0

/-- λ[i] of the encoder. -/
def ldpcLambda (rate z u i : Nat) : Nat :=
  (List.range (ldpcKb rate)).foldl (fun acc j => match ldpcH rate z i j with
    | some t => acc ^^^ rotate z (blockOf z u j) t
    | none => acc) 0

/-- Parity blocks from p_t on, after p_(t-1) (R365). -/
def ldpcChain (rate z u p0 : Nat) : Nat → Nat → Nat → List Nat
  | 0, _, _ => []
  | n + 1, t, prev =>
    let p := ldpcLambda rate z u (t - 1) ^^^ prev ^^^ (if t - 1 = (24 - ldpcKb rate) / 2 then p0 else 0)
    p :: ldpcChain rate z u p0 n (t + 1) p

/-- The parity blocks of an information word. -/
def ldpcParity (rate z u : Nat) : List Nat :=
  let mb := 24 - ldpcKb rate
  let p0 := (List.range mb).foldl (fun acc i => acc ^^^ ldpcLambda rate z u i) 0
  let p1 := ldpcLambda rate z u 0 ^^^ rotate z p0 1
  p0 :: p1 :: ldpcChain rate z u p0 (mb - 2) 2 p1

/-- The codeword of an information word. -/
def ldpcEncode (rate z u : Nat) : Nat :=
  let kb := ldpcKb rate
  u + ((List.range (24 - kb)).zip (ldpcParity rate z u)).foldl (fun acc p => acc + p.2 * 2 ^ (z * (kb + p.1))) 0

/-! ### Soft values and decoders (R350, R366, R369, R373) -/

/-- Soft values of several copies: added, and the sum limited once to ±127; one that is missing is 0 (R372, R373). -/
def addSoft (l : List (List Int)) : List Int :=
  (List.range (l.foldl (fun m x => max m x.length) 0)).map fun i => clampInt (-127) 127 (l.foldl (fun a x => a + x.getD i 0) 0)

/-- A hard decision: a positive value favours a 0 bit (R352); which way 0 falls is left open. -/
def hardBit (i : Nat) (v : Int) : Bool := if v = 0 then Config.hardZero i else decide (v < 0)

/-- A quotient, rounded one way or the other where it is not whole. -/
def divRound (a b : Int) : Int := a / b + (if a % b = 0 then 0 else if Config.roundsUp a b then 1 else 0)

/-- The larger of two metrics, one of them of no path. -/
def maxOpt (a b : Option Int) : Option Int :=
  match a, b with
  | some x, some y => some (if x < y then y else x)
  | some x, none => some x
  | none, b => b

/-- The metric of a step of the header's code whose register is `r`, from the soft values of its two coded bits. -/
def stepMetric (r : Nat) (v : Int × Int) : Int :=
  (if parityOf (r &&& 0o133) then -v.1 else v.1) + if parityOf (r &&& 0o171) then -v.2 else v.2

/-- One step of the forward metrics of the 64 states. -/
def forward (v : Int × Int) (a : List (Option Int)) : List (Option Int) :=
  (List.range 64).map fun t => maxOpt ((a.getD (2 * t % 64) none).map (· + stepMetric (2 * t) v))
    ((a.getD ((2 * t + 1) % 64) none).map (· + stepMetric (2 * t + 1) v))

/-- One step of the backward metrics: state `t` goes on with bit 0 or 1. -/
def backward (v : Int × Int) (b : List (Option Int)) : List (Option Int) :=
  (List.range 64).map fun t => maxOpt ((b.getD (t / 2) none).map (· + stepMetric t v))
    ((b.getD (32 + t / 2) none).map (· + stepMetric (64 + t) v))

/-- The soft output of a step for its bit: the best path with 0 less the best path with 1. -/
def softOut (v : Int × Int) (a b : List (Option Int)) : Int :=
  let best (u : Nat) : Option Int := (List.range 64).foldl (fun m t =>
    match a.getD t none, b.getD (32 * u + t / 2) none with
    | some x, some y => maxOpt m (some (x + stepMetric (64 * u + t) v + y))
    | _, _ => m) none
  (best 0).getD 0 - (best 1).getD 0

/-- The soft outputs of the steps, and the backward metrics before them. -/
def maxLogMap : List (Int × Int) → List (Option Int) → List Int × List (Option Int)
  | [], _ => ([], List.replicate 64 (some 0))
  | v :: l, a =>
    let r := maxLogMap l (forward v a)
    (softOut v a r.2 :: r.1, backward v r.2)

/-- The header word that max-log-MAP decoding gives (R369): the code starts in state zero and may end in any (R350; log entry 124). -/
def headerOf (soft : List Int) : Nat :=
  let steps := (List.range 48).map fun i => (soft.getD (2 * i) 0, soft.getD (2 * i + 1) 0)
  natOf ((maxLogMap steps (some 0 :: List.replicate 63 none)).1.zipIdx.map fun x => hardBit x.2 x.1)

/-- Min-sum: the posteriors of each block column, and the messages of each check by layer and column (R366). -/
structure MinSum where
  post : List (List Int)
  msgs : Tab (List Int) := []

/-- The messages of one check: of each, the sign and three quarters of the smallest magnitude of the others. -/
def checkRow (q : List Int) : List Int :=
  (List.range q.length).map fun k =>
    let others := q.eraseIdx k
    let m := divRound (3 * (others.foldl (fun m v => min m (v.natAbs : Int)) 127)) 4
    if (others.filter fun v => decide (v < 0)).length % 2 = 1 then -m else m

/-- The columns of a base row, each with its shift. -/
def layerCols (rate z i : Nat) : List (Nat × Nat) := (List.range 24).filterMap fun j => (ldpcH rate z i j).map fun t => (j, t)

/-- Layer `i`: the messages of its Z checks, 8 bits, and the posteriors, 10 bits, both saturating. -/
def MinSum.layer (rate z : Nat) (x : MinSum) (i : Nat) : MinSum :=
  let cols := layerCols rate z i
  let post (j p : Nat) : Int := (x.post.getD j []).getD p 0
  let old (j r : Nat) : Int := (tget [] x.msgs (24 * i + j)).getD r 0
  let rows := (List.range z).map fun r => checkRow (cols.map fun c => clampInt (-127) 127 (post c.1 ((r + c.2) % z) - old c.1 r))
  let new (k r : Nat) : Int := (rows.getD r []).getD k 0
  { post := (List.range 24).map fun j => match cols.findIdx? (·.1 == j) with
      | none => x.post.getD j []
      | some k =>
        let t := (cols.getD k (0, 0)).2
        (List.range z).map fun p =>
          let r := (p + z - t % z) % z
          clampInt (-512) 511 (post j p - old j r + new k r)
    msgs := cols.zipIdx.foldl (fun m c => tset [] m (24 * i + c.1.1) ((List.range z).map (new c.2))) x.msgs }

/-- Hard decisions of the posteriors. -/
def MinSum.hard (x : MinSum) : List Bool := x.post.flatten.zipIdx.map fun v => hardBit v.2 v.1

/-- Iterations until the syndrome is zero, at most so many more: the bits, the iterations done, and whether it is zero. -/
def MinSum.run (rate z : Nat) : Nat → Nat → MinSum → List Bool × Nat × Bool
  | 0, k, x => (x.hard, k, false)
  | n + 1, k, x =>
    let y := (List.range (24 - ldpcKb rate)).foldl (MinSum.layer rate z) x
    if syndromeOk rate z (natOf y.hard) then (y.hard, k + 1, true) else y.run rate z n (k + 1)

/-- The layered, normalised min-sum decode of a codeword's soft values (R366). -/
def minSum (rate z : Nat) (soft : List Int) : List Bool × Nat × Bool :=
  MinSum.run rate z 24 0 { post := (List.range 24).map fun j => (List.range z).map fun p => soft.getD (z * j + p) 0 }

/-- Cycles of a codeword at a number of iterations (R367). -/
def ldpcCycles (rate n iters : Nat) : Nat := iters * (ldpcE rate * (n / 24) / 32) + 40

/-! ### The coded bits of a frame (R351) -/

/-- Cut a list in pieces of `k`, the last padded with zeros. -/
def pieces (k : Nat) : Nat → List Bool → List (List Bool)
  | 0, _ => []
  | n + 1, l => (l.take k ++ List.replicate (k - (l.take k).length) false) :: pieces k n (l.drop k)

/-- Bits on each data subcarrier of a LOAD_MODE 1 to 4. -/
def loadBits (mode : Nat) : Nat := if mode = 1 then 1 else if mode = 2 then 2 else if mode = 3 then 4 else 6

/-- The coded bits of the data symbols of a PSDU: codewords in order, the last without its shortened bits, and the fill of
the last symbol. -/
def dataBits (psdu : Bytes) (n rate b seed : Nat) : List Bool :=
  let z := n / 24
  let k := ldpcK n rate
  let len := 8 * psdu.length
  let ncw := lofdmNcw n psdu.length rate
  let t := lofdmT n psdu.length rate
  let fill := lofdmNdata n psdu.length rate b * b - t
  let scr := lfsrBits (len + fill) seed
  let info := pieces k ncw (xorBits (bitsOf psdu) scr)
  let word (i : Nat) (l : List Bool) : List Bool :=
    let w := ldpcEncode rate z (natOf l)
    let all := (List.range n).map (bit w)
    if i + 1 = ncw then (all.take k).take (k - (ncw * k - len)) ++ all.drop k else all
  ((List.range ncw).zip info).flatMap (fun p => word p.1 p.2) ++ scr.drop len

/-! ### Loading maps (R347, R356) -/

/-- Entry of a map for a number of bits. -/
def mapEntry : Nat → Nat
  | 0 => 0 | 1 => 1 | 2 => 2 | 4 => 3 | _ => 4

/-- The 48 octets of a map. -/
def LoadMap.bytes (m : LoadMap) : Bytes :=
  (List.range 48).flatMap fun i => leBytes 1 (mapEntry (m.bits.getD (2 * i) 0) + 16 * mapEntry (m.bits.getD (2 * i + 1) 0))

/-- Subcarrier index of data subcarrier `d` (R347): -52 to 52 without DC and the pilots. -/
def dataCarriers : List Int :=
  ((List.range 105).map fun (i : Nat) => (i : Int) - 52).filter fun k => k != 0 && !([-46, -33, -20, -7, 7, 20, 33, 46].contains k)

/-! ### The symbols of a frame (R347, R348, R350 to R353) -/

/-- Values of P2: 1 - 2c for successive outputs c of the LFSR on 9 bits with feedback from bits 8 and 4 (R348). -/
def p2From : Nat → Nat → List Int
  | 0, _ => []
  | n + 1, x =>
    let f := bit x 8 != bit x 4
    (if f then -1 else 1) :: p2From n (x * 2 % 512 + b2n f)

/-- The subcarriers used, and those that are pilots (R346). -/
def usedCarriers : List Int := ((List.range 105).map fun (i : Nat) => (i : Int) - 52).filter (· != 0)
def pilotCarriers : List Int := [-46, -33, -20, -7, 7, 20, 33, 46]

/-- P2 on the used subcarriers, from state 0x1FF. -/
def p2Values : List Int := p2From 104 0x1FF

/-- P2 on a subcarrier; 0 where it is not used. -/
def p2At (k : Int) : Int := ((usedCarriers.zip p2Values).find? (·.1 == k)).elim 0 (·.2)

/-- The pilots of symbol `m`, the header symbol being 0: P2's value by 1 - 2q, q being output m of the scrambler from 0x7F (R353). -/
def pilotSign (m : Nat) : Int := if (lfsrBits (m + 1) 0x7F).getD m false then -1 else 1
def pilotAt (m : Nat) (k : Int) : Int := p2At k * pilotSign m

/-- A level of a Gray-coded axis from its label bits, the first bit first (R352). -/
def grayLevel : List Bool → Int
  | [a] => if a then 1 else -1
  | [a, b] => if a then (if b then 1 else 3) else (if b then -1 else -3)
  | [a, b, c] => if a then (if b then (if c then 3 else 1) else (if c then 5 else 7))
                 else (if b then (if c then -3 else -1) else (if c then -5 else -7))
  | _ => 0

/-- The constellation point of a label, of unit mean power; a subcarrier without bits is sent as zero (R351, R352). -/
def constellation (l : List Bool) : Tone :=
  match l.length with
  | 0 => .zero
  | 1 => .point (grayLevel l) 0 1
  | n => .point (grayLevel (l.take (n / 2))) (grayLevel (l.drop (n / 2))) (if n = 2 then 2 else if n = 4 then 10 else 42)

/-- The points of one symbol: subcarrier d takes its number of bits, in ascending order of d. -/
def takePoints : List Nat → List Bool → List Tone
  | [], _ => []
  | n :: ns, l => constellation (l.take n) :: takePoints ns (l.drop n)

/-- The points of `n` data symbols. -/
def dataPoints (bits : List Nat) : Nat → List Bool → List (List Tone)
  | 0, _ => []
  | n + 1, l => takePoints bits l :: dataPoints bits n (l.drop (sumNat bits))

/-- A whole symbol from a value for each subcarrier, -64 to 63. -/
def wholeSymbol (f : Int → Tone) : List Tone := (List.range 128).map fun (i : Nat) => f ((i : Int) - 64)

/-- Symbol `m` with its data points and its pilots. -/
def dataSymbol (m : Nat) (points : List Tone) : List Tone :=
  wholeSymbol fun k => if pilotCarriers.contains k then .point (pilotAt m k) 0 1
    else ((dataCarriers.zip points).find? (·.1 == k)).elim .zero (·.2)

/-- P1: twelve tones, on every eighth subcarrier. -/
def p1Symbol : List Tone :=
  let tones : List Int := [-48, -40, -32, -24, -16, -8, 8, 16, 24, 32, 40, 48]
  wholeSymbol fun k => if tones.contains k then .chirp (tones.idxOf k) else .zero

def p2Symbol : List Tone := wholeSymbol fun k => if p2At k = 0 then .zero else .point (p2At k) 0 1

/-- The header symbol: coded bit i on data subcarrier 13 i mod 96, so that subcarrier d takes bit 37 d mod 96 (R350). -/
def headerSymbol (h : Nat) : List Tone :=
  let c := hdrCoded h
  dataSymbol 0 ((List.range 96).map fun d => constellation [c.getD (37 * d % 96) false])

/-- The symbols of a frame: P1, P2, the header symbol and the data symbols (R348). -/
def lofdmSymbols (psdu : Bytes) (map rate load : Nat) (bits : List Nat) (seed : Nat) : List (List Tone) :=
  let n := lofdmN psdu.length rate
  let points := dataPoints bits (lofdmNdata n psdu.length rate (sumNat bits)) (dataBits psdu n rate (sumNat bits) seed)
  p1Symbol :: p2Symbol :: headerSymbol (hdrWord map psdu.length n rate load seed) ::
    ((List.range points.length).zip points).map fun x => dataSymbol (x.1 + 1) x.2

/-! ### The choice of a map (R358) -/

/-- Thresholds in 0.25 dB for 1, 2, 4 and 6 bits at a rate. -/
def mapThresholds : Nat → List (Nat × Int)
  | 0 => [(6, 64), (4, 42), (2, 18), (1, 6)]
  | 1 => [(6, 74), (4, 50), (2, 26), (1, 12)]
  | 2 => [(6, 78), (4, 54), (2, 30), (1, 16)]
  | _ => [(6, 84), (4, 60), (2, 34), (1, 20)]

/-- Numerator and denominator of a rate. -/
def rateOf : Nat → Nat × Nat
  | 0 => (1, 2) | 1 => (2, 3) | 2 => (3, 4) | _ => (5, 6)

/-- The bits that a margin over the threshold allows: signal `s` is a sum over `n` frames, noise and margin in 0.25 dB. -/
def bitsFor (rate n : Nat) (s noise margin : Int) : Nat :=
  match (mapThresholds rate).find? fun t => decide ((n : Int) * (noise + margin + t.2) ≤ s) with
  | some t => t.1
  | none => 0

/-- The map of one rate. -/
def mapAt (rate n : Nat) (margin : Int) (sig noise : List Int) : List Nat :=
  (sig.zip noise).map fun p => bitsFor rate n p.1 p.2 margin

/-- The chosen rate and bits (R358): of equal values the lower rate; none when the chosen B is below 24. -/
def chooseMap (p : LoadPolicy) (n : Nat) (sig noise : List Int) : Option (Nat × List Nat) :=
  let cand := ((List.range 4).filter fun r => decide (p.minRate ≤ r) && decide (r ≤ p.maxRate)).map fun r =>
    (r, mapAt r n p.marginQdb sig noise)
  let value (c : Nat × List Nat) : Nat := sumNat c.2 * (rateOf c.1).1 * (12 / (rateOf c.1).2)
  let best := cand.foldl (fun b c => match b with
    | none => some c
    | some x => if value x < value c then some c else b) none
  best.bind fun c => if sumNat c.2 < 24 then none else some c

end Sys2Proof.Machine
end

