-- ==== Sys2Proof/Machine/Equaliser.lean ====
section
/-! DEFINITION. The equalisers of the contexts (R345): decision-feedback equalisers trained by LMS, and the coefficients of the
subcarriers with the tracking of the pilots (R348, R353). -/

namespace Sys2Proof.Machine

/-! ### Complex numbers -/

def cAdd (a b : Int × Int) : Int × Int := (a.1 + b.1, a.2 + b.2)
def cSub (a b : Int × Int) : Int × Int := (a.1 - b.1, a.2 - b.2)
def cMul (a b : Int × Int) : Int × Int := (a.1 * b.1 - a.2 * b.2, a.1 * b.2 + a.2 * b.1)
def cConj (a : Int × Int) : Int × Int := (a.1, -a.2)
def cSum (l : List (Int × Int)) : Int × Int := l.foldl cAdd (0, 0)

/-! ### Decision feedback -/

/-- Feedforward and feedback taps of a PHY code; none without a DFE: MR-FSK below 50 ksym/s, and OFDM. -/
def dfeShape (phy : Nat) : Option (Nat × Nat) :=
  match phy % 16 with
  | 0 => if 50000 ≤ Config.symbolRate phy then some (8, 4) else none
  | 1 | 3 => some (12, 6)
  | _ => none

/-- A part of a tap has 16 bits. -/
def tap16 (a : Int × Int) : Int × Int := (clampInt (-32768) 32767 a.1, clampInt (-32768) 32767 a.2)

/-- The equaliser as a detection leaves it. -/
def startEqualiser (phy : Nat) : Equaliser :=
  match dfeShape phy with
  | some x => .dfe { ff := (List.range x.1).map fun i => tap16 (Config.tapStart phy false i),
                     fb := (List.range x.2).map fun i => tap16 (Config.tapStart phy true i) }
  | none => if phy % 16 = 2 ∨ phy % 16 = 4 then .carriers [] [] else .off

/-- A tap after an LMS step of 2^-n towards or away from error times input. -/
def lmsTap (n : Nat) (sign : Int) (e tap x : Int × Int) : Int × Int :=
  let g := cMul e (cConj x)
  tap16 (tap.1 + Config.tapIncrement (sign * g.1) n, tap.2 + Config.tapIncrement (sign * g.2) n)

/-- One symbol or chip, with step 2^-n: the output less the decisions fed back, the error against the reference, and every tap
moved by LMS. -/
def Dfe.step (n : Nat) (d : Dfe) (x : DfeStep) : Dfe :=
  let sum := cSub (cSum (d.ff.zipWith cMul x.inputs)) (cSum (d.fb.zipWith cMul d.past))
  let e := cSub x.ref (Config.dfeScale sum.1, Config.dfeScale sum.2)
  let zero : Int × Int := (0, 0)
  { d with ff := (List.range d.ff.length).map fun i => lmsTap n 1 e (d.ff.getD i zero) (x.inputs.getD i zero),
           fb := (List.range d.fb.length).map fun i => lmsTap n (-1) e (d.fb.getD i zero) (d.past.getD i zero),
           past := (x.ref :: d.past).take d.fb.length }

/-- The SHR preamble trains with step 2^-5; from the start-of-frame delimiter on the decisions track with step 2^-8. -/
def Dfe.run (d : Dfe) (preamble body : List DfeStep) : Dfe :=
  let d := if d.tracking then d else preamble.foldl (Dfe.step 5) d
  let d := body.foldl (Dfe.step 8) d
  { d with tracking := d.tracking || !body.isEmpty }

/-! ### Subcarriers -/

/-- The value that a training symbol carries on its i-th used subcarrier: P2 of LOFDM. -/
def trainingValue (phy i : Nat) : Int := if phy % 16 = 4 then p2Values.getD i 0 else Config.ofdmTraining phy i

/-- The i-th pilot of symbol m: the place of its subcarrier among the used ones, and its value. -/
def pilotOf (phy m i : Nat) : Nat × Int :=
  let k := pilotCarriers.getD i 0
  if phy % 16 = 4 then (usedCarriers.idxOf k, pilotAt m k) else Config.ofdmPilot phy m i

/-- What the pilots of symbol m show against the coefficients: the turn of the symbol, as a sum whose angle is the phase that
its values are turned back by. -/
def pilotTurn (phy : Nat) (coefficients : List (Int × Int)) (m : Nat) (pilots : List (Int × Int)) : Int × Int :=
  cSum ((List.range pilots.length).map fun i =>
    let v := pilotOf phy m i
    cMul (pilots.getD i (0, 0)) (cConj (cMul (v.2, 0) (coefficients.getD v.1 (0, 0)))))

/-- The equaliser of a context takes what comes with its soft values. -/
def Equaliser.run (phy : Nat) (x : Equaliser) (i : EqInput) : Equaliser :=
  match x, i with
  | .dfe d, .dfe p b => .dfe (d.run p b)
  | .carriers c t, .carriers y rows =>
    let c := if c.isEmpty then (List.range y.length).map fun k => cMul (trainingValue phy k, 0) (y.getD k (0, 0)) else c
    .carriers c (rows.foldl (fun t row => t ++ [pilotTurn phy c t.length row]) t)
  | x, _ => x

end Sys2Proof.Machine
end

