-- ==== Sys2Proof/Machine/MacTable.lean ====
section
/-! DEFINITION. The MAC tables of the pipes: bucket functions (R205), lookup, insert with relocation (R206), learning,
moves, refresh and ageing (R207 to R212). -/

namespace Sys2Proof.Machine

/-- The string of R205. -/
def macString (mac vlan : Nat) : Bytes := beBytes 6 mac ++ leBytes 2 vlan

/-- The two buckets of a key (R205). -/
def macH0 (mac vlan : Nat) : Nat := crc32 (macString mac vlan) % 65536
def macH1 (mac vlan : Nat) : Nat := crc32c (macString mac vlan) % 65536

abbrev MacTab := Tab (Option MacEntry)

/-- Number of a way of a bucket of a pipe. -/
def macSlot (pipe bucket way : Nat) : Nat := pipe * 262144 + bucket * 4 + way

/-- The way of a bucket that holds a key. -/
def MacTab.inBucket (m : MacTab) (pipe bucket mac vlan : Nat) : Option Nat :=
  ((List.range 4).map (macSlot pipe bucket)).find? fun k =>
    match tget none m k with
    | some e => e.mac == mac && e.vlan == vlan
    | none => false

/-- The slot that holds a key: both buckets are read (R207). -/
def MacTab.lookup (m : MacTab) (pipe mac vlan : Nat) : Option Nat :=
  match m.inBucket pipe (macH0 mac vlan) mac vlan with
  | some k => some k
  | none => m.inBucket pipe (macH1 mac vlan) mac vlan

/-- A free way of a bucket. -/
def MacTab.freeWay (m : MacTab) (pipe bucket : Nat) : Option Nat :=
  ((List.range 4).map (macSlot pipe bucket)).find? fun k => (tget none m k).isNone

/-- The walk of R206: fuel is the steps left, `path` the relocations so far, newest first, as the slot that each entry
leaves; the result holds the free slot found with the path, and the victim counter. -/
def MacTab.walk (m : MacTab) (pipe : Nat) : Nat → Nat → Nat → List Nat → Option (Nat × List Nat) × Nat
  | 0, victim, _, _ => (none, victim)
  | n + 1, victim, b, path =>
    let from_ := macSlot pipe b (victim % 4)
    match tget none m from_ with
    | none => (none, victim + 1)
    | some v =>
      let h0 := macH0 v.mac v.vlan
      let h1 := macH1 v.mac v.vlan
      if h0 = h1 then m.walk pipe n (victim + 1) b path
      else
        let b2 := if b = h1 then h0 else h1
        match m.freeWay pipe b2 with
        | some k => (some (k, from_ :: path), victim + 1)
        | none => m.walk pipe n (victim + 1) b2 (from_ :: path)

/-- Move the entries of a path, last first: each into the slot that is free; the first slot of the path ends free. -/
def MacTab.relocate (m : MacTab) : Nat → List Nat → MacTab × Nat
  | free, [] => (m, free)
  | free, k :: rest =>
    let v := tget none m k
    MacTab.relocate (tset none (tset none m free v) k none) k rest

/-- Insert or update a key (R206); none when it fails. The second result is the victim counter. -/
def MacTab.insert (m : MacTab) (pipe victim : Nat) (e : MacEntry) : Option MacTab × Nat :=
  match m.lookup pipe e.mac e.vlan with
  | some k => (some (tset none m k (some e)), victim)
  | none =>
    match m.freeWay pipe (macH0 e.mac e.vlan) with
    | some k => (some (tset none m k (some e)), victim)
    | none =>
      match m.freeWay pipe (macH1 e.mac e.vlan) with
      | some k => (some (tset none m k (some e)), victim)
      | none =>
        match m.walk pipe 8 victim (macH0 e.mac e.vlan) [] with
        | (some (free, path), v) =>
          let r := MacTab.relocate m free path
          (some (tset none r.1 r.2 (some e)), v)
        | (none, v) => (none, v)

/-- AGE_NOW (R211): bits [15:0] of the whole seconds of the duration counter. -/
def State.ageNow (s : State) : Nat := s.time.duration / 1600000000 % 65536

def State.macLookup (s : State) (pipe mac vlan : Nat) : Option MacEntry :=
  match MacTab.lookup s.fwd.macs pipe mac vlan with
  | some k => tget none s.fwd.macs k
  | none => none

/-- Learned entries of a pipe. -/
def State.learnedOf (s : State) (pipe : Nat) : Nat :=
  (s.fwd.macs.filter fun e =>
    e.1 / 262144 == pipe && (match e.2 with | some x => !x.static | none => false)).length

/-- Keep MAC_LEARNED (R243). -/
def State.gaugeLearned (s : State) (pipe : Nat) : State := s.gauge (.pipe pipe .macLearned) (s.learnedOf pipe)

/-- A pipe event (R244), paced per pipe and TYPE (R697). -/
def State.pipeEvent (s : State) (type pipe : Nat) : State := s.pace pipe 1 7 type (leBytes 1 pipe) 0 0

def State.learnQ (s : State) (pipe : Nat) : List LearnReq := tget [] s.fwd.learnQ pipe

/-- Put a learn or move request on the queue of a pipe (R209). -/
def State.queueLearn (s : State) (pipe : Nat) (r : LearnReq) : State :=
  let q := s.learnQ pipe
  if q.any fun x => x.mac == r.mac && x.vlan == r.vlan then s
  else if 256 ≤ q.length then (s.count (.pipe pipe .learnDrop)).pipeEvent 0x0702 pipe
  else { s with fwd := { s.fwd with learnQ := tset [] s.fwd.learnQ pipe (q ++ [r]) } }

/-- A learn or move that the pipe decides: queued, in M4 released 64 epochs on (R550), in M5 discarded (R550). -/
def State.decideLearn (s : State) (pipe : Nat) (r : LearnReq) : State :=
  if s.leads then s.carry 64 (.learn pipe r) else if s.follows then s else s.queueLearn pipe r

/-- Source lookup of a received frame (R208, R209, R211): `may` holds when port and VLAN learn and the source is
unicast. -/
def State.sourceLookup (s : State) (pipe port mac vlan : Nat) (may : Bool) : State :=
  match s.macLookup pipe mac vlan with
  | none => if may then s.decideLearn pipe { mac := mac, vlan := vlan, port := port, move := false } else s
  | some e =>
    if e.static then if e.port = port then s else s.count (.pipe pipe .staticViolation)
    else if e.port ≠ port ∧ may then s.decideLearn pipe { mac := mac, vlan := vlan, port := port, move := true }
    else if e.age ≠ s.ageNow then
      let q := tget [] s.fwd.refresh pipe
      let r : LearnReq := { mac := mac, vlan := vlan, port := port, move := false }
      let q := if q.contains r then q else q ++ [r]
      { s with fwd := { s.fwd with refresh := tset [] s.fwd.refresh pipe q } }
    else s

/-- Serve one learn or move request in a maintenance slot (R206, R209, R210). -/
def State.serveLearn (s : State) (pipe : Nat) (r : LearnReq) : State :=
  let e : MacEntry := { mac := r.mac, vlan := r.vlan, port := r.port, static := false, drop := false, age := s.ageNow }
  match s.macLookup pipe r.mac r.vlan with
  | some old =>
    if old.static then s
    else
      let s' := { s with fwd := { s.fwd with macs := (MacTab.insert s.fwd.macs pipe 0 e).1.getD s.fwd.macs } }
      if r.move && old.port != r.port then s'.count (.pipe pipe .macMoves) else s'
  | none =>
    let x := MacTab.insert s.fwd.macs pipe (tget 0 s.fwd.victim pipe) e
    let s := { s with fwd := { s.fwd with victim := tset 0 s.fwd.victim pipe x.2 } }
    match x.1 with
    | some m => ({ s with fwd := { s.fwd with macs := m } }).gaugeLearned pipe
    | none => (s.count (.pipe pipe .learnFail)).pipeEvent 0x0701 pipe

/-- Set the stamp of an entry that a source hit has found old (R211). -/
def State.serveRefresh (s : State) (pipe : Nat) (r : LearnReq) : State :=
  match MacTab.lookup s.fwd.macs pipe r.mac r.vlan with
  | some k =>
    let e := (tget none s.fwd.macs k).map fun e => if e.static then e else { e with age := s.ageNow }
    { s with fwd := { s.fwd with macs := tset none s.fwd.macs k e } }
  | none => s

/-- A learned entry has reached its VLAN's limit (R212). -/
def State.aged (s : State) (e : MacEntry) : Bool :=
  match tget none s.fwd.tables.vlans e.vlan with
  | some v => !e.static && decide (v.ageLimit ≠ 0) && decide (v.ageLimit ≤ (s.ageNow + 65536 - e.age) % 65536)
  | none => false

/-- Remove an aged entry of a pipe, which counts in AGED. -/
def State.removeAged (s : State) (pipe mac vlan : Nat) : State :=
  match MacTab.lookup s.fwd.macs pipe mac vlan with
  | some k =>
    match tget none s.fwd.macs k with
    | some e =>
      if e.static then s
      else (({ s with fwd := { s.fwd with macs := tset none s.fwd.macs k none } }).count (.pipe pipe .aged)).gaugeLearned
        pipe
    | none => s
  | none => s

/-- One way of a bucket in the sweep: an aged entry is removed, in a pair as a carried item. -/
def State.sweepWay (pipe b : Nat) (s : State) (w : Nat) : State :=
  match tget none s.fwd.macs (macSlot pipe b w) with
  | some e =>
    if s.aged e then
      if s.leads then s.carry 64 (.aged pipe e.mac e.vlan) else if s.follows then s else s.removeAged pipe e.mac e.vlan
    else s
  | none => s

/-- The ageing sweep visits the next bucket of a pipe (R212). -/
def State.sweepBucket (s : State) (pipe : Nat) : State :=
  let b := tget 0 s.fwd.sweepAt pipe
  let s := { s with fwd := { s.fwd with sweepAt := tset 0 s.fwd.sweepAt pipe ((b + 1) % 65536) } }
  (List.range 4).foldl (State.sweepWay pipe b) s

/-- Maintenance slots that the insert of a key takes: one, and of a path of relocations a read, a write and a clear each (R206, R207). -/
def MacTab.keySlots (m : MacTab) (pipe victim mac vlan : Nat) : Nat :=
  let h0 := macH0 mac vlan
  if (MacTab.lookup m pipe mac vlan).isSome || (MacTab.freeWay m pipe h0).isSome || (MacTab.freeWay m pipe (macH1 mac vlan)).isSome
  then 1
  else match (MacTab.walk m pipe 8 victim h0 []).1 with
    | some (_, path) => 1 + 3 * path.length
    | none => 1

/-- Maintenance slots that a request takes. -/
def State.learnSlots (s : State) (pipe : Nat) (r : LearnReq) : Nat :=
  MacTab.keySlots s.fwd.macs pipe (tget 0 s.fwd.victim pipe) r.mac r.vlan

/-- Serve requests of a pipe, the oldest first, with `n` slots: what is left of them, the requests left, and the slots that the
last one still takes in the next plan. -/
def State.serveAll (pipe : Nat) : State → Nat → List LearnReq → State × Nat × List LearnReq × Nat
  | s, n, [] => (s, n, [], 0)
  | s, n, r :: rest =>
    if n = 0 then (s, 0, r :: rest, 0)
    else
      let k := s.learnSlots pipe r
      if n < k then (s.serveLearn pipe r, 0, rest, k - n) else State.serveAll pipe (s.serveLearn pipe r) (n - k) rest

/-- Slots that a generation takes in a pipe. -/
def PendingGen.need (g : PendingGen) (pipe : Nat) : Nat := g.slots.getD pipe 0

/-- Slots that the generations that wait for their boundary still take in a pipe (R195, R219). -/
def State.toPlace (s : State) (pipe : Nat) : Nat :=
  sumNat (s.fwd.pendingGens.map (·.need pipe)) - tget 0 s.fwd.placed pipe

/-- The six maintenance slots of a plan in one pipe (R195): host writes first in slots 0 and 1, then learning; learning
first in slots 2 to 5, then host writes; then refresh, then the sweep, which has slot 5 of one plan in 64. -/
def State.maintenance (s : State) (pipe : Nat) : State :=
  let plan := tget 0 s.fwd.planNo pipe
  let s := { s with fwd := { s.fwd with planNo := tset 0 s.fwd.planNo pipe ((plan + 1) % 64) } }
  let sweepFirst := if plan = 0 then 1 else 0
  let w := s.toPlace pipe
  let early := 2 - min 2 w
  let late := 4 - sweepFirst
  let owed := tget 0 s.fwd.owed pipe
  let r := State.serveAll pipe s (early + late - owed) (s.learnQ pipe)
  let learn := early + late - r.2.1
  let place := min 2 w + min (late - (learn - min early learn)) (w - min 2 w)
  let left := 6 - sweepFirst - learn - place
  let s := { r.1 with fwd := { r.1.fwd with
    learnQ := tset [] r.1.fwd.learnQ pipe r.2.2.1
    owed := tset 0 r.1.fwd.owed pipe (owed - (early + late) + r.2.2.2)
    placed := tset 0 r.1.fwd.placed pipe (tget 0 r.1.fwd.placed pipe + place) } }
  let f := tget [] s.fwd.refresh pipe
  let s := { s with fwd := { s.fwd with refresh := tset [] s.fwd.refresh pipe (f.drop left) } }
  let s := (f.take left).foldl (fun s r => s.serveRefresh pipe r) s
  (List.range (sweepFirst + (left - f.length))).foldl (fun s _ => s.sweepBucket pipe) s

end Sys2Proof.Machine
end

