-- ==== Sys2Proof/Machine/PortOps.lean ====
section
/-! DEFINITION. Shared operations on ports, links and ring pairs (spec/05_ports_and_lanes.md, R59, R60, R180). -/

namespace Sys2Proof.Machine

/-- The serving cage of a port (R181): the first valid cage whose ports hold it. -/
def State.portCage (s : State) (p : Nat) : Option Nat :=
  (s.cfg.cages.find? fun e =>
    match e.2 with
    | some c => decide (c.firstPort ≤ p) && decide (p < c.firstPort + c.portCount)
    | none => false).map (·.1)

/-- A port event (R189): PORT, CAGE, REASON, DETAIL. -/
def State.portEvent (s : State) (type port cage reason : Nat) (detail : Nat := 0) : State :=
  s.alarm 6 type (leBytes 1 port ++ leBytes 1 cage ++ leBytes 1 reason ++ leBytes 1 detail)

/-- The cage number of a port's own events: 0x7F for none. -/
def State.portCageNo (s : State) (p : Nat) : Nat := (s.portCage p).getD 0x7F

/-- The link of a port goes down (R160, R189): the event, the counter, preemption off, its site out of service (R27) for its own
reason (R326). -/
def State.takeDownFor (s : State) (p reason siteReason : Nat) : State :=
  if (s.portSt p).linkUp then
    let s := s.modPort p fun x => { x with linkUp := false, preActive := false, verifyTries := 0, mmHolds := [] }
    let s := s.count (.port p .linkDownEvents)
    let s := s.portEvent 0x0602 p (s.portCageNo p) reason
    match s.portSite p with
    | some site => s.siteOut site siteReason
    | none => s
  else s

/-- A link that goes down for a cause outside the device, or is taken down by the device (R326). -/
def State.takeDown (s : State) (p reason : Nat) : State := s.takeDownFor p reason (if 1 ≤ reason ∧ reason ≤ 5 then 1 else 2)

/-- Preemption is evaluated afresh on a port (R168, R169): inactive, then active at once without VERIFY, or after the
verify procedure, whose first frame is sent. -/
def State.preemptEval (s : State) (p : Nat) : State :=
  let c := s.portCfg p
  s.modPort p fun x =>
    let on := x.linkUp && c.preEnable && c.site.isNone
    { x with preActive := on && !c.preVerify, verifyTries := if on && c.preVerify then 1 else 0 }

/-- At a frame boundary of a port, with no frame in progress, its new settings act (R172, R174). -/
def State.frameBoundary (s : State) (p : Nat) : State :=
  let c := s.sched p
  if c.sending.isSome || !(c.preDue || c.downDue) then s
  else
    let s := s.modSched p fun c => { c with preDue := false, downDue := false }
    let s := if c.preDue then s.preemptEval p else s
    if c.downDue && !(s.portCfg p).adminUp then s.takeDown p 6 else s

/-- Every lane of a port is locked, and none of them is removed or in block reset (R630). -/
def State.lanesLocked (s : State) (p : Nat) : Bool :=
  (s.portLanes p).all fun l =>
    tget false s.ports.laneLocked l && !tget false s.ports.laneOut l && !tget false s.ports.laneReset l

/-- The port's MAC and PCS passed self-test (R630). -/
def State.macPassed (s : State) (p : Nat) : Bool := !s.bist.unusable.contains (7, p)

/-- The module that serves the port is ready, where one is present (R186). -/
def State.moduleReady (s : State) (p : Nat) : Bool :=
  match s.portCage p with
  | some c => let x := tget {} s.ports.cages c; !x.present || x.ready
  | none => true

/-- The link of a port comes up (R160, R169, R186, R299). -/
def State.bringUp (s : State) (p : Nat) : State :=
  let c := s.portCfg p
  let held := match c.site with | some n => (s.site n).held | none => false
  if s.inService && c.adminUp && !held && decide (c.mode ≠ 0) && s.portUsable p && s.macPassed p && s.lanesLocked p && s.moduleReady p && !(s.portSt p).linkUp then
    let s := s.modPort p fun x => { x with linkUp := true, localFault := false, remoteFault := false }
    let s := s.portEvent 0x0601 p (s.portCageNo p) 0
    (s.preemptEval p).siteLinkUp p
  else s

/-! ### Ring pairs -/

/-- A named pair whose pass-through cannot run (R59): no REFCLK at its tile, or a lane of either port removed by self-test. -/
def State.ringBroken (s : State) (ew : Nat × Nat) : Bool :=
  !s.pins.refclkTile.getLsbD (ew.1 / 32) ||
    (s.portLanes ew.1 ++ s.portLanes ew.2).any fun l => s.bist.unusable.contains (6, l)

/-- A port of the pair, or its pipe, is in block reset or removed (R39, R180, R632). -/
def State.ringReset (s : State) (ew : Nat × Nat) : Bool := !s.portUsable ew.1 || !s.portUsable ew.2

/-- The level that BYPASS_HOLD[k] takes (R39, R59); low from the fall of PFW_N on (R49). -/
def State.holdLevel (s : State) (k : Nat) : Bool :=
  match tget none s.cfg.rings k with
  | some ew => s.ms.mode != .m0 && !s.ms.inTransition && !s.ringBroken ew
  | none => false

/-- Whether pair `k` is passed through (R39, R59, R180). -/
def State.passLevel (s : State) (k : Nat) : Bool :=
  match tget none s.cfg.rings k with
  | some ew => !s.ringBroken ew && (s.passMode || (s.inService && s.ringReset ew))
  | none => false

/-- Drive the holds and the pass-throughs as the rules state now; nothing is counted (set-up, M0). -/
def State.setRings (s : State) : State :=
  let holds := (List.range 16).foldl (fun t k => tset false t k (s.holdLevel k)) s.pins.bypassHold
  let pass := (List.range 16).foldl (fun t k => tset false t k (s.passLevel k)) s.ports.passThrough
  { s with pins := { s.pins with bypassHold := holds }, ports := { s.ports with passThrough := pass } }

/-- One ring pair of a switch from `s` to `t`: where its pass-through changes, the frames lost are counted, their number free
within the bound (log entry 3). -/
def State.switchRing (s t acc : State) (k : Nat) : State :=
  match tget none s.cfg.rings k with
  | some ew =>
    if tget false s.ports.passThrough k = tget false t.ports.passThrough k then acc
    else
      let d := acc.draw
      d.2.count (.ringSwitchLoss k) (d.1 % (2 * (s.portLanes ew.1).length + 1))
  | none => acc

/-- Switch the rings between forwarding and pass-through (R60, R180): each pair that switches loses at most one frame per
lane per direction; how many is left open and is a free value within that bound. -/
def State.switchRings (s : State) : State :=
  let t := s.setRings
  (List.range 16).foldl (s.switchRing t) t

/-- Every BYPASS_HOLD low (R49, R63, R65). -/
def State.dropHolds (s : State) : State := { s with pins := { s.pins with bypassHold := [] } }

/-! ### I2C buses -/

/-- SDA levels seen, in order; high after the last. -/
def sdaNext : List Bool → Bool × List Bool
  | [] => (true, [])
  | b :: l => (b, l)

/-- Nine clocks: stop at the first high level (R185). -/
def nineClocks : Nat → List Bool → List Bool
  | 0, l => l
  | n + 1, l =>
    let x := sdaNext l
    if x.1 then x.2 else nineClocks n x.2

/-- The first loop of `recover` (R185): IN_SERVICE within three attempts. -/
def recoverLoop : Nat → List Bool → Bool × List Bool
  | 0, l => (false, l)
  | n + 1, l =>
    let a := sdaNext l
    if a.1 then (true, a.2)
    else
      let b := sdaNext (nineClocks 9 a.2)
      if b.1 then (true, b.2) else recoverLoop n b.2

/-- What the recovery of a bus leaves: its state, and the cages it reset and marked. -/
structure Recovery where
  inService : Bool
  reset : List Nat := []
  marked : List Nat := []
  pulses : List Nat := []
  deriving DecidableEq, Repr

/-- One channel of the multiplexer (R185). -/
def recoverChannel (acc : Recovery × List Bool) (e : Nat × Cage) : Recovery × List Bool :=
  let a := sdaNext acc.2
  if a.1 then (acc.1, a.2)
  else
    let b := sdaNext (nineClocks 9 a.2)
    let reset := !b.1 && e.2.resetGpio != 0xFF
    let c := if reset then sdaNext b.2 else (b.1, b.2)
    let r := if reset then { acc.1 with reset := acc.1.reset ++ [e.1], pulses := acc.1.pulses ++ [e.2.resetGpio] } else acc.1
    (if c.1 then r else { r with marked := r.marked ++ [e.1], pulses := r.pulses ++ [e.2.muxResetGpio] }, c.2)

/-- The cages of a bus, by channel. -/
def State.busCages (s : State) (bus : Nat) : List (Nat × Cage) :=
  (List.range 8).filterMap fun ch =>
    s.cfg.cages.findSome? fun e =>
      match e.2 with
      | some c => if c.master = bus ∧ c.muxChannel = ch then some (e.1, c) else none
      | none => none

/-- `recover(bus)` of R185 over the levels of SDA that it finds. -/
def State.recovery (s : State) (bus : Nat) (sda : List Bool) : Recovery :=
  let a := recoverLoop 3 sda
  if a.1 then { inService := true }
  else
    match (s.busCages bus).head? with
    | none => { inService := false }
    | some c =>
      if c.2.muxResetGpio = 0xFF then { inService := false }
      else
        let b := sdaNext a.2
        if !b.1 then { inService := false, pulses := [c.2.muxResetGpio] }
        else ((s.busCages bus).foldl recoverChannel ({ inService := true, pulses := [c.2.muxResetGpio] }, b.2)).1

def State.cageSt (s : State) (c : Nat) : CageSt := tget {} s.ports.cages c
def State.modCage (s : State) (c : Nat) (f : CageSt → CageSt) : State :=
  { s with ports := { s.ports with cages := tmod {} s.ports.cages c f } }

/-- Ports that a cage serves. -/
def Cage.portsOf (c : Cage) : List Nat := (List.range c.portCount).map fun i => c.firstPort + i

/-- A cage whose module the recovery has reset: its ports go down, and it is no longer ready. -/
def State.resetCage (s : State) (c : Nat) : State :=
  match tget none s.cfg.cages c with
  | some x => x.portsOf.foldl (fun s p => s.takeDown p 7) (s.modCage c fun y => { y with ready := false, paths := [], page := none })
  | none => s

/-- Firmware brings the module of a cage to ModuleReady, and activates its data path for the mode of each port (R182, R186). -/
def State.moduleUp (s : State) (c : Nat) : State :=
  match tget none s.cfg.cages c with
  | some x => s.modCage c fun y => { y with ready := true, paths := x.portsOf.map fun p => (p, (s.portCfg p).mode) }
  | none => s

/-- The data path of a port follows its mode, where its module is ready (R182). -/
def State.repath (s : State) (p : Nat) : State :=
  match s.portCage p with
  | some c => if (s.cageSt c).ready then s.moduleUp c else s
  | none => s

/-- A cage that the recovery marks as the fault, with its entry. -/
def State.markCage (bus : Nat) (s : State) (c : Nat) : State :=
  match tget none s.cfg.cages c with
  | some x => (s.modCage c fun y => { y with fault := true }).portEvent 0x0606 x.firstPort c bus
  | none => s

/-- Run the recovery of a bus and apply what it does (R185, R186). A bus that it brings back is in recovery until the next cycle
plan (log entry 22). -/
def State.recoverBus (s : State) (bus : Nat) (sda : List Bool) : State :=
  let r := s.recovery bus sda
  let s := { s with
    ports := { s.ports with buses := tset .untried s.ports.buses bus (if r.inService then .recovering else .outOfService) }
    pins := { s.pins with gpioPulses := r.pulses.reverse ++ s.pins.gpioPulses } }
  let s := r.marked.foldl (State.markCage bus) (r.reset.foldl State.resetCage s)
  if r.inService then s else s.portEvent 0x0606 0 0x7F bus

/-- The device may drive its I2C and MDIO masters (R187). -/
def State.mayDrive (s : State) : Bool :=
  match s.ms.mode with
  | .m3 | .m4 => true
  | .m1 | .m2 | .m7 => !s.pins.activeIn && s.procs.loaded
  | _ => false

/-- A bus that is used for the first time since the masters are driven, if any cage hangs on it: the recovery runs first (R185).
The levels of SDA that it finds are the board's, so they are free (log entry 22). -/
def State.wakeBus (s : State) (b : Nat) : State :=
  if (s.busCages b).isEmpty || tget .untried s.ports.buses b != .untried then s
  else
    let z := s.draw
    z.2.recoverBus b ((List.range 64).map fun i => bit z.1 i)

/-- The recoveries in progress end (R185; log entry 22). -/
def State.busesBack (s : State) : State :=
  { s with ports := { s.ports with buses := s.ports.buses.map fun e => (e.1, if e.2 = .recovering then .inService else e.2) } }

/-- Begin or stop driving the masters as R187 states; each time it begins, every bus of the map is recovered first. -/
def State.setDriving (s : State) : State :=
  if s.mayDrive = s.ports.driving then s
  else if s.mayDrive then
    let s := { s with ports := { s.ports with driving := true, buses := [] } }
    (List.range 16).foldl State.wakeBus s
  else { s with ports := { s.ports with driving := false, buses := [] } }

end Sys2Proof.Machine
end

