-- ==== Sys2Proof/Machine/Forward.lean ====
section
/-! DEFINITION. The lookup sequence (R198 to R203, R213 to R218, R225 to R227, R255, R256) and the events of received
and injected frames, of egress and of the cycle plan. -/

namespace Sys2Proof.Machine

/-! ### Tables -/

/-- Number of a route: VRF, family, length and prefix, a 128-bit number with an IPv4 prefix in its top 32 bits. -/
def routeKey (tenant : Nat) (v6 : Bool) (len pfx : Nat) : Nat := ((tenant * 2 + b2n v6) * 256 + len) * 2 ^ 128 + pfx

/-- The top `len` bits of an address. -/
def topBits (addr len : Nat) : Nat := addr / 2 ^ (128 - len) * 2 ^ (128 - len)

/-- The next hop of the longest matching prefix (R214): lengths from `len` down. -/
def Tables.routeFrom (t : Tables) (tenant : Nat) (v6 : Bool) (addr : Nat) : Nat → Option Nat
  | 0 => tget none t.routes (routeKey tenant v6 0 0)
  | len + 1 =>
    match tget none t.routes (routeKey tenant v6 (len + 1) (topBits addr (len + 1))) with
    | some n => some n
    | none => t.routeFrom tenant v6 addr len

def Tables.route (t : Tables) (tenant : Nat) (p : Parsed) : Option Nat :=
  t.routeFrom tenant (p.ip == 6) p.ipDst (if p.ip = 6 then 128 else 32)

/-- The interface of a (port, VLAN). -/
def Tables.intfAt (t : Tables) (port vlan : Nat) : Option Intf :=
  t.intfs.findSome? fun e =>
    match e.2 with
    | some x => if x.port = port ∧ x.vlan = vlan then some x else none
    | none => none

/-- The lowest rule that matches and may act on frames of the owning tenant (R217, R218). -/
def Tables.ruleFor (t : Tables) (tenant : Nat) (key : Bool → Bytes) : Option (Nat × Rule) :=
  t.rules.findSome? fun e =>
    match e.2 with
    | some r =>
      if (r.owner = 16 ∨ r.owner = tenant) ∧ keyMatches (key r.addrSel) r.value r.mask = true then some (e.1, r) else none
    | none => none

/-! ### Punts -/

/-- A frame of `n` bytes finds no room in its part of the crossing reserve (R20, R249). -/
def State.noCrossing (s : State) (pipe n : Nat) : Bool := decide (1024 < s.crossing pipe + cellsOf n)

/-- Send a frame to a punt ring. A ring that is not enabled drops it (R203, R217); a full part of the crossing reserve
drops it (R20, R249); in M5 STANDBY it is discarded at the interface (R555). -/
def State.punt (s : State) (pipe fn ring : Nat) (f : PuntFrame) : State :=
  if s.ms.mode == .m5 then s
  else
    let x := s.puntRing fn ring
    if !x.enable then s.count (.pipe pipe .puntNoringDrop)
    else if s.noCrossing pipe (f.bytes.length + 4) then s.count (.pipe pipe .d2dPuntDrop)
    else s.modPunt fn ring fun x => { x with frames := x.frames ++ [{ f with pipe := pipe }] }

/-- Send packets to the border function (R216); a full part of the crossing reserve drops a packet whole (R20, R249). -/
def State.crossBorder (s : State) (pipe : Nat) (l : List (Nat × Bytes)) : State :=
  l.foldl (fun s e =>
    if s.noCrossing pipe (e.2.length + 18) then s.count (.pipe pipe .d2dPuntDrop)
    else { s with fwd := { s.fwd with border := s.fwd.border ++ [{ pipe := pipe, domain := e.1, packet := e.2 }] } }) s

/-! ### The result of steps 3 to 6 -/

/-- One copy to leave: egress port and the bytes as they leave, less what has not arrived. -/
structure Copy where
  port : Nat
  bytes : Bytes
  deriving DecidableEq, Repr

/-- What the lookup makes of a frame. -/
structure Verdict where
  copies : List Copy := []
  /-- The counter of the drop, when nothing is forwarded. -/
  drop : Option PipeCtr := none
  punts : List PuntHead := []
  /-- Domain and IP packet for the border function (R216). -/
  border : Option (Nat × Bytes) := none
  deriving DecidableEq, Repr

/-- Ports of a mask. -/
def portsOf (mask : Nat) : List Nat := (List.range 256).filter fun p => bit mask p

/-- A punt to the exception ring of an interface (R203), or the drop of one that has none enabled. -/
def excPunt (x : Option Intf) (reason : Nat) (v : Verdict) : Verdict :=
  match x with
  | some i =>
    if i.excEn then { v with punts := v.punts ++ [{ fn := i.excFn, ring := i.excRing, reason := reason, rule := 0 }] }
    else { v with drop := some .puntNoringDrop }
  | none => { v with drop := some .puntNoringDrop }

/-- Bridge a frame (R201). -/
def State.bridge (s : State) (pipe port vlan : Nat) (v : Vlan) (p : Parsed) (b : Bytes) : Verdict :=
  let copy (q : Nat) : Copy := { port := q, bytes := bridgeTags b p vlan (bit v.untagged q) }
  let flood : Verdict :=
    { copies := ((portsOf v.members).filter fun q => q != port && (s.portSite q).isNone).map copy }
  if isGroup p.dst then flood
  else
    match s.macLookup pipe p.dst vlan with
    | some e =>
      if e.drop then { drop := some .macDrop }
      else if e.port = port then { drop := some .samePortDrop }
      else { copies := [copy e.port] }
    | none => if v.flood then flood else { drop := some .unknownDrop }

/-- The tag of a routed frame on its egress port (R215): none when the port is in the VLAN's UNTAGGED set. The spec states
no PCP or DEI of it; `pcp` is a free value. -/
def Tables.routedTag (t : Tables) (i : Intf) (pcp : Nat) : Option Nat :=
  match tget none t.vlans i.vlan with
  | some v => if bit v.untagged i.port then none else some (pcp % 16 * 4096 + i.vlan)
  | none => some (pcp % 16 * 4096 + i.vlan)

/-- Route a frame in a VRF (R214 to R216) with the control check of R203: `ing` is the ingress interface, none for an
injected frame, which skips the check. IP multicast is not routed (R215): an injected one, which no VLAN bridges, is dropped as
without a route (DESIGN CHOICE, log entry 97). -/
def State.routeIn (s : State) (tenant : Nat) (ing : Option Intf) (p : Parsed) (b : Bytes) (free : Nat) : Verdict :=
  let t := s.fwd.tables
  match (if p.ip = 0 ∨ p.ipMulticast then none else t.route tenant p) with
  | none => { drop := some .noRouteDrop }
  | some n =>
    match tget none t.nexthops n with
    | none => { drop := some .noRouteDrop }
    | some h =>
      if ing.isSome && decide (p.ttl ≤ 1) then excPunt ing 0x01 {}
      else if h.type = 0 then { drop := some .nhDrop }
      else if h.type = 3 then excPunt ing 0x04 {}
      else if h.type = 2 then
        -- a domain that has left the hop's tenant is none of its own any more (DESIGN CHOICE, log entry 106)
        if s.domainTenant h.domain != some tenant then { drop := some .nhDrop } else { border := some (h.domain, lowerTtl (b.drop p.l3) (p.ip == 4)) }
      else
        match tget none t.intfs h.intf with
        | none => { drop := some .noRouteDrop }
        | some i =>
          if ing.isSome && decide (i.mtu < p.ipLen) then excPunt ing 0x03 {}
          else { copies := [{ port := i.port, bytes := routedFrame b p h.dstMac i.mac (t.routedTag i free) }] }

/-- ARP, or ICMPv6 types 133 to 137 (R203). -/
def Parsed.control (p : Parsed) : Bool :=
  p.etype == 0x0806 || (p.ip == 6 && p.proto == 58 && decide (133 ≤ p.l4Dst) && decide (p.l4Dst ≤ 137))

/-- Broadcast. -/
def isBroadcast (mac : Nat) : Bool := mac == 2 ^ 48 - 1

/-- The class of a frame in its tenant's map (R256); routed and injected frames count as untagged. -/
def ClassMap.pick (m : ClassMap) (p : Parsed) (asUntagged : Bool) : Nat :=
  let byPcp := if p.tagged && !asUntagged then m.pcp.getD p.pcp 0 else m.default
  if m.trust = 0 then (if p.ip = 0 then byPcp else m.dscp.getD p.dscp 0)
  else if m.trust = 1 then byPcp else m.default

/-! ### Mirroring -/

/-- One step of the Galois LFSR with taps 0x80200003 (R226). -/
def lfsrStep (x : Nat) : Nat := if x % 2 == 1 then (x / 2) ^^^ 0x80200003 else x / 2

/-- A candidate of a session: an ingress copy of the frame as received, or an egress copy. -/
structure Candidate where
  session : Nat
  bytes : Bytes
  deriving DecidableEq, Repr

/-- The candidates of a frame in order (R227): the rule's session, then port sessions in ascending number. -/
def Tables.candidates (t : Tables) (rule : Option Nat) (inPort : Option Nat) (b : Bytes) (copies : List Copy) :
    List Candidate :=
  let own := match rule with
    | some n => if (tget {} t.mirrors n).enable then [{ session := n, bytes := b }] else []
    | none => []
  own ++ t.mirrors.flatMap fun e =>
    let m := e.2
    if !m.enable then []
    else
      let ing : List Candidate := match inPort with
        | some p => if bit m.ports p && m.direction != 1 then [{ session := e.1, bytes := b }] else []
        | none => []
      let egr : List Candidate :=
        if m.direction = 0 then []
        else (copies.filter fun c => bit m.ports c.port).map fun c => { session := e.1, bytes := c.bytes }
      ing ++ egr

/-- Advance a session's LFSR; whether the candidate is copied (R226). -/
def State.sample (s : State) (n : Nat) : State × Bool :=
  let m := tget {} s.fwd.tables.mirrors n
  let x := lfsrStep m.lfsr
  let t := s.fwd.tables
  ({ s with fwd := { s.fwd with tables := { t with mirrors := tset {} t.mirrors n { m with lfsr := x } } } },
    x % m.sampleN == 0)

/-- Make a mirror copy (R225, R252): on its service queue, or for a PF0 punt ring with REASON 0. -/
def State.mirrorCopy (s : State) (pipe id len : Nat) (x : QItem) (n : Nat) (b : Bytes) : State × Option Nat × Option PuntHead :=
  let m := tget {} s.fwd.tables.mirrors n
  if m.destPunt then (s, none, some { fn := 0, ring := m.puntRing, reason := 0, rule := 0, truncate := m.truncate, front := some b })
  else
    let q := 128 * m.destPort + 120 + m.serviceQ
    let cells := cellsOf (if m.truncate = 0 then len else min len m.truncate)
    let b := if x.complete && m.truncate != 0 then b.take (m.truncate - 4) else b
    let r := s.takeIn pipe q 0 { x with id := id, bytes := b, cells := cells, truncate := m.truncate, launch := none,
                                        cutThrough := false, tc := none }
    (if r.2 then r.1 else r.1.count (.mirror n false), if r.2 then some q else none, none)

/-- Take the candidates in turn: at most four copies, further sessions are skipped and counted (R227). -/
def State.mirrorAll (s : State) (pipe id len : Nat) (x : QItem) : List Candidate → Nat → List Nat → List PuntHead →
    State × List Nat × List PuntHead
  | [], _, qs, ps => (s, qs, ps)
  | c :: rest, made, qs, ps =>
    if 4 ≤ made then (s.count (.mirror c.session true)).mirrorAll pipe id len x rest made qs ps
    else
      let r := s.sample c.session
      if !r.2 then r.1.mirrorAll pipe id len x rest made qs ps
      else
        let y := r.1.mirrorCopy pipe id len x c.session c.bytes
        y.1.mirrorAll pipe id len x rest (made + 1) (qs ++ y.2.1.toList) (ps ++ y.2.2.toList)

/-! ### Steps 6 to 9 -/

/-- A frame at step 6: where it came from, its parse, what steps 3 to 5 made of it, and how its copies are charged. -/
structure Looked where
  pipe : Nat
  inPort : Option Nat
  tenant : Nat
  vlan : Nat
  routed : Bool
  parsed : Parsed
  bytes : Bytes
  verdict : Verdict
  /-- Frame length as received, for the policer (R258); the length that admission and a mirror copy are charged for (R251, R252),
  and its cells. -/
  len : Nat
  room : Nat
  cells : Nat
  item : QItem
  deriving DecidableEq, Repr

/-- Apply the winning rule's action (R217). -/
def Looked.act (l : Looked) (r : Option (Nat × Rule)) : Verdict :=
  match r with
  | none => l.verdict
  | some (n, r) =>
    let p : PuntHead := { fn := r.puntFn, ring := r.puntRing, reason := r.reason, rule := n }
    if r.action = 1 then {}
    else if r.action = 2 then { punts := [p] }
    else if r.action = 3 then { l.verdict with punts := l.verdict.punts ++ [p] }
    else if r.action = 4 then { copies := [{ port := r.redirect, bytes := l.bytes }] }
    else l.verdict

/-- Cut-through of an ordered pair, ingress x 256 + egress, as it holds now: a change waits for its response (R173). -/
def State.cutNow (s : State) (pair : Nat) : Bool :=
  match s.ports.cutWait.find? fun e => e.1 == pair with
  | some e => e.2
  | none => tget false s.cfg.cutThrough pair

/-- The frame may cut through to a queue (R164). -/
def State.cutOk (s : State) (l : Looked) (q : Nat) : Bool :=
  match l.inPort with
  | none => false
  | some p =>
    let e := q / 128
    let other (o : Option (Nat × QItem)) : Bool := match o with | some (k, _) => k != q | none => true
    s.cutNow (256 * p + e) && !isGroup l.parsed.dst && (s.queue q).items.isEmpty &&
      other (s.sched e).sending && other (s.sched e).preempted &&
      decide (modeSpeed (s.portCfg e).mode ≤ modeSpeed (s.portCfg p).mode)

/-- Enqueue one copy (step 9; R164, R251, R255). Nothing forwarded leaves a radio port (R176, R273). -/
def State.enqueueCopy (s : State) (l : Looked) (q colour : Nat) (c : Copy) : State × Option Nat :=
  if s.isRadio c.port then (s.count (.queue q (dropCtr colour)), none)
  else
    let total := if l.item.maxLen < l.item.total then l.item.maxLen else l.item.total + c.bytes.length - l.item.bytes.length
    let x : QItem := { l.item with bytes := c.bytes, total := total, cells := l.cells, launch := if (s.queue q).launchEn then l.item.launch else none,
                                   cutThrough := s.cutOk l q }
    let r := s.takeIn l.pipe q colour x
    (r.1, if r.2 then some q else none)

/-- What is left to do at the frame's end: the queues that hold it, its punts and its border packets. -/
structure Handed where
  queues : List Nat
  punts : List PuntHead
  borders : List (Nat × Bytes)
  deriving DecidableEq, Repr

/-- The ACL rule that a lookup hits counts. -/
def State.hitRule (s : State) (r : Option (Nat × Rule)) : State :=
  match r with
  | some (n, _) => s.count (.ruleHits n)
  | none => s

/-- The policer of the rule hit, if it names one. -/
def State.policeHit (s : State) (l : Looked) (r : Option (Nat × Rule)) : State × Nat × Bool × Nat :=
  match r with
  | some (_, r) => match r.policer with | some n => s.police n l.parsed l.len | none => (s, 0, false, 0)
  | none => (s, 0, false, 0)

/-- The drop counter of a verdict. -/
def State.countDrop (s : State) (pipe : Nat) (c : Option PipeCtr) : State :=
  match c with
  | some c => s.count (.pipe pipe c)
  | none => s

/-- One copy of a verdict goes to its queue; the queues that took one are gathered. -/
def copyOut (l : Looked) (queueOf : Nat → Nat) (colour : Nat) (acc : State × List Nat) (c : Copy) :
    State × List Nat :=
  let x := acc.1.enqueueCopy l (queueOf c.port) colour c
  (x.1, acc.2 ++ x.2.toList)

/-- Steps 6 to 9 of R198. -/
def State.lookedUp (s : State) (l : Looked) : State × Handed :=
  let key (src : Bool) : Bytes :=
    ruleKey l.parsed (l.inPort.getD 0) l.tenant l.vlan l.routed l.inPort.isNone src
  let r := s.fwd.tables.ruleFor l.tenant key
  let s := s.hitRule r
  let v := l.act r
  let pol := s.policeHit l r
  let s := pol.1
  let colour := pol.2.1
  let v := if pol.2.2.1 then ({} : Verdict) else v
  let express : Option Nat := match r with | some (_, r) => if r.setExpress then some r.expressQ else none | none => none
  let m : ClassMap := tget {} s.qos.maps l.tenant
  let class_ := m.pick l.parsed (l.routed || l.inPort.isNone) - pol.2.2.2
  let queueOf (p : Nat) : Nat := 128 * p + (match express with | some e => e | none => 8 + 7 * l.tenant + class_)
  let mir := s.mirrorAll l.pipe l.item.id l.room l.item
    (s.fwd.tables.candidates (r.bind fun e => e.2.mirror) l.inPort l.bytes v.copies) 0 [] []
  let s := mir.1.countDrop l.pipe v.drop
  let e := v.copies.foldl (copyOut l queueOf colour) (s, mir.2.1)
  (e.1, { queues := e.2, punts := v.punts ++ mir.2.2, borders := v.border.toList })

/-- The first cell of a received frame of length `len` at an ordinary port: steps 2 to 5, then 6 to 9 (R198 to R203). `room`
is the length that admission reserves for (R251). -/
def State.forwardRx (s : State) (p : Nat) (b : Bytes) (len room : Nat) (item : QItem) : State × Handed :=
  let none_ : Handed := { queues := [], punts := [], borders := [] }
  let pipe := p / 32
  let x := parseFrame b
  let l2 : PortL2 := tget {} s.fwd.portL2 p
  let plain := !x.tagged || x.vid == 0
  let vlan := if plain then l2.pvid else x.vid
  let t := s.fwd.tables
  let intf := t.intfAt p vlan
  let vdrop := (s.count (.pipe pipe .vlanDrop), none_)
  if (plain && !l2.untagged) || (!plain && !l2.tagged) then vdrop
  else
    match tget none t.vlans vlan with
    | none => vdrop
    | some v =>
      if !bit v.members p && intf.isNone then vdrop
      else
        let routed := (match intf with | some i => x.dst == i.mac | none => false) && !x.ipMulticast
        if routed && x.badHeader (len - 4) then (s.count (.pipe pipe .ipHdrDrop), none_)
        else
          let may := l2.learn && v.learn && !isGroup x.src
          let s := s.sourceLookup pipe p x.src vlan may
          let d := if routed then s.draw else (0, s)
          let s := d.2
          let tenant := match intf with | some i => if routed then i.tenant else v.tenant | none => v.tenant
          let res := if routed then s.routeIn tenant intf x b d.1 else s.bridge pipe p vlan v x b
          let res := if intf.isSome && x.control then
              excPunt intf 0x02 (if x.etype = 0x0806 && isBroadcast x.dst then s.bridge pipe p vlan v x b else {})
            else res
          s.lookedUp { pipe := pipe, inPort := some p, tenant := tenant, vlan := vlan, routed := routed, parsed := x,
                       bytes := b, verdict := res, len := len, room := room, cells := cellsOf room, item := item }

/-! ### Reception -/

def rxKey (p : Nat) (pre : Bool) : Nat := 2 * p + b2n pre

/-- FRAME_RX (R159, R176, R194, R198): the first cell of a frame is written and the frame is looked up. Where the mode
does not forward, or the port is down, the data is discarded and not counted (R40). One shorter than 64 bytes is looked up
too: it may be cut through (R166), and is discarded at its end otherwise (R167; DEDUCED, log entry 98). -/
def execFrameRx (p : Fin 256) (frame : RxFrame) (s : State) : Host.Outcome State Fault Refusal :=
  let p := p.val
  .next (if !s.inService || !(s.portSt p).linkUp || !s.portUsable p then s else
    let b := frame.bytes.take 256
    let c := s.portCfg p
    let stamp := s.rxStamp p frame.stamp
    let n := s.newId
    let s := n.2
    let hold (s : State) (h : Handed) : State :=
      let r : RxHand := { id := n.1, bytes := b, queues := h.queues, punts := h.punts, borders := h.borders,
                          stamp := stamp, top := c.maxFrame }
      { s with qos := { s.qos with rx := tset none s.qos.rx (rxKey p frame.preemptable) (some r) } }
    let nothing : Handed := { queues := [], punts := [], borders := [] }
    let e := (parseFrame b).etype
    if e = 0x8808 then hold ((s.count (.port p .rxPause)).countIf (s.isRadio p) (.port p .rxRadioForeign)) nothing
    else if s.isRadio p then hold (if isSiteRoe b then s else s.count (.port p .rxRadioForeign)) nothing
    else
      let room := if frame.ends then b.length else c.maxFrame
      let item : QItem := { id := n.1, bytes := b, cells := cellsOf room, complete := false,
                            maxLen := c.maxFrame, total := if frame.ends then b.length else frame.len, tc := some (p, stamp) }
      let r := s.forwardRx p b (if frame.ends then b.length else frame.len) room item
      hold r.1 r.2)

/-- Update every entry of a frame on its queues, and the one being sent. -/
def State.mapItem (s : State) (id : Nat) (queues : List Nat) (f : QItem → QItem) : State :=
  queues.foldl (fun s q =>
    let one (i : QItem) : QItem := if i.id = id then f i else i
    let s := s.setItems q ((s.queue q).items.map one)
    let s := s.modSched (q / 128) fun c => { c with
      sending := c.sending.map fun x => (x.1, one x.2), preempted := c.preempted.map fun x => (x.1, one x.2) }
    s.gaugeQueue q) s

/-- Discard a frame from every queue on which its egress has not begun. -/
def State.dropFrame (s : State) (id : Nat) (queues : List Nat) : State :=
  queues.foldl (fun s q =>
    let l := (s.queue q).items
    let n := (l.filter fun i => i.id == id).length
    let s := s.setItems q (l.filter fun i => i.id != id)
    let s := (List.replicate n id).foldl (fun s i => s.letGo i) s
    (s.settle q).gaugeQueue q) s

/-- The whole frame without FCS, as an entry's bytes complete it: front as rewritten, then what followed the first cell;
a truncated copy keeps TRUNCATE bytes with its new FCS (R225). -/
def completeBytes (front rest : Bytes) (truncate : Nat) : Bytes :=
  let b := front ++ rest
  let b := b.take (b.length - 4)
  if truncate = 0 then b else b.take (truncate - 4)

/-- Deliver the punts and border packets of a good frame. -/
def State.deliver (s : State) (p : Nat) (h : RxHand) (rest : Bytes) : State :=
  let s := h.punts.foldl (fun s x =>
    s.punt (p / 32) x.fn x.ring { bytes := completeBytes (x.front.getD h.bytes) rest x.truncate, reason := x.reason, source := p,
                                  rule := x.rule, stamp := some (h.stamp / 65536) }) s
  s.crossBorder (p / 32) (h.borders.map fun e => (e.1, completeBytes e.2 rest 0))

/-- A frame that is being cut through ends: its bytes are complete, all but the FCS, or of one too long its first `keep` (R165); it is
charged its true cells (R251). A stomp that an ECC error asked for stays (R248). -/
def State.endedCut (s : State) (q : Nat) (i : QItem) (rest : Bytes) (keep : Option Nat) (cells : Nat) (stomp : Bool) : QItem :=
  let whole := i.bytes ++ rest
  s.corrected (q / 128) { i with bytes := whole.take (keep.getD (whole.length - 4)), complete := true, cells := cells,
                                 stomp := i.stomp || stomp }

/-- The frame that a queue is cutting through, sent or preempted meanwhile, ends. -/
def State.endCutQueue (id : Nat) (rest : Bytes) (keep : Option Nat) (cells : Nat) (stomp : Bool) (s : State) (q : Nat) : State :=
  let p := q / 128
  let mine (o : Option (Nat × QItem)) : Option QItem := match o with
    | some (k, i) => if k = q ∧ i.id = id ∧ i.cutThrough ∧ !i.complete then some (s.endedCut q i rest keep cells stomp) else none
    | none => none
  let out (s : State) (j : QItem) : State :=
    (if (s.portSt p).linkUp then s.emit q j else s.count (.port p .txLinkDownDrop)).gaugeQueue q
  match mine (s.sched p).sending, mine (s.sched p).preempted with
  | some j, _ => out (s.modSched p fun c => { c with sending := some (q, j) }) j
  | none, some j => out (s.modSched p fun c => { c with preempted := some (q, j) }) j
  | none, none => s

/-- End a cut-through frame whose egress has begun: it is sent, with a stomped FCS when `stomp` (R165, R166). -/
def State.endCut (s : State) (id : Nat) (queues : List Nat) (rest : Bytes) (keep : Option Nat) (cells : Nat) (stomp : Bool) : State :=
  queues.foldl (State.endCutQueue id rest keep cells stomp) s

/-- MAC merge and FEC counts of a frame's end (R190); a mode without RS(544,514) has no codewords (R158). -/
def State.countRx (s : State) (p : Nat) (fin : RxEnd) : State :=
  let s := s.count (.port p .mmFragRx) fin.frags
  let s := if fin.assemblyErr then s.count (.port p .mmAssemblyErr)
    else if fin.frags = 0 then s else s.count (.port p .mmAssemblyOk)
  let s := s.count (.port p .mmSmdErr) fin.smdErrs
  if !modeFec (s.portCfg p).mode then s else
  let s := s.count (.port p .fecCorrectedCw) fin.fecCorrected
  let s := s.count (.port p .fecUncorrectedCw) fin.fecUncorrected
  ((s.portLanes p).zip fin.fecSymbols).foldl (fun s e => s.count (.lane e.1 .fecSymbolErr) e.2) s

/-- RX_FRAME_END (R162, R165 to R167, R251): the frame is judged by its size and FCS; a stored one is completed or
discarded, a cut-through one in egress ends. Where forwarding does not run, the data is discarded and not counted (R40, R49). -/
def execRxFrameEnd (p : Fin 256) (fin : RxEnd) (s : State) : Host.Outcome State Fault Refusal :=
  let p := p.val
  let key := rxKey p fin.preemptable
  .next (match if s.inService then tget none s.qos.rx key else none with
    | none => s
    | some h =>
      let s := { s with qos := { s.qos with rx := tset none s.qos.rx key none } }
      let len := h.bytes.length + fin.rest.length
      let top := h.top
      let ok := fin.fcsOk && !fin.assemblyErr && (fin.fecUncorrected == 0 || !modeFec (s.portCfg p).mode)
      let s := (s.countRx p fin).count (.port p .rxOctets) len
      let cells := cellsOf (min len top)
      let size (y : Stored) : Stored := { y with cells := cells }
      let s := { s with qos := { s.qos with stored := tmod none s.qos.stored h.id fun x => x.map size } }
      let bad (s : State) (keep : Option Nat) : State := (s.endCut h.id h.queues fin.rest keep cells true).dropFrame h.id h.queues
      let merged := fin.preemptable && (fin.assemblyErr || fin.frags != 0)
      if len < 64 then bad (if ok then s.count (.port p .rxRunt) else s.countIf (!merged) (.port p .rxFragment)) none
      else if top < len then bad (s.count (.port p .rxOversize)) (some (top - 4))
      else if !ok then bad (s.count (.port p .rxFcsErr)) none
      else
        let s := s.count (.port p .rxFramesOk)
        let s := s.endCut h.id h.queues fin.rest none cells false
        let s := s.mapItem h.id h.queues fun i =>
          if i.complete then i
          else { i with bytes := completeBytes i.bytes fin.rest i.truncate, complete := true, cutThrough := false,
                        cells := cellsOf (if i.truncate = 0 then len else min len i.truncate) }
        s.deliver p h fin.rest)

/-! ### Injection -/

/-- Inject a frame by lookup in the VRF of a function (R102, R198, R216): padded, looked up in the pipe that INJECT_PIPE
names. SOURCE of a frame that is punted is 0 where the host injected it (DESIGN CHOICE, log entry 99). -/
def State.injectLookup (s : State) (tenant : Nat) (frame : Bytes) (source : Nat := 0) (launch : Option Nat := none) : State :=
  let v : Vrf := tget {} s.fwd.vrf tenant
  let pipe := v.injectPipe.getD (tenant % 8)
  let b := if frame.length < 60 then fit 60 frame else frame
  let n := s.newId
  let d := n.2.draw
  let s := d.2
  let x := parseFrame b
  if x.badHeader b.length then s.count (.pipe pipe .ipHdrDrop)
  else
    let cells := cellsOf (b.length + 4)
    let res := s.routeIn tenant none x b d.1
    let r := s.lookedUp { pipe := pipe, inPort := none, tenant := tenant, vlan := 0, routed := true, parsed := x,
                          bytes := b, verdict := res, len := b.length + 4, room := b.length + 4, cells := cells,
                          item := { id := n.1, bytes := b, cells := cells, launch := launch } }
    let s := r.2.punts.foldl (fun s h => s.punt pipe h.fn h.ring
      { bytes := if h.truncate = 0 then h.front.getD b else (h.front.getD b).take (h.truncate - 4), reason := h.reason, source := source, rule := h.rule,
        stamp := none }) r.1
    s.crossBorder pipe r.2.borders

/-- The VRF of a function's injected frames (R102): its tenant's; PF0's frames go to the provider's, tenant 0 (R15). -/
def vrfOf (fn : Nat) : Nat := fn - 1

/-- Inject a frame that has passed R102. -/
def State.inject (s : State) (x : Injected) : State :=
  let b := if x.frame.length < 60 then fit 60 x.frame else x.frame
  if x.lookup then s.injectLookup (vrfOf x.fn) b 0 x.launch
  else
    let q := x.queue
    let n := s.newId
    let launch := if (n.2.queue q).launchEn then x.launch else none
    if s.isRadio (q / 128) then n.2.count (.queue q .dropGreen) else
    (n.2.takeIn (q / 4096) q 0 { id := n.1, bytes := b, cells := cellsOf (b.length + 4), launch := launch }).1

/-- SOF, EOF, LOOKUP and LAUNCH of an inject descriptor (R101). -/
def injFlag (d : Bytes) (i : Nat) : Bool := bit (byteAt d 10) i

/-- Reserved fields of a descriptor, and those that only SOF may set, are zero, and LENGTH is in its range (R101, R102; a LENGTH out of
range takes the code of a reserved field: DESIGN CHOICE, log entry 99). -/
def injReservedOk (d : Bytes) : Bool :=
  decide (1 ≤ leAt d 8 2) && decide (leAt d 8 2 ≤ 16384) && byteAt d 10 / 16 == 0 && byteAt d 11 == 0 && !bit (byteAt d 13) 7 && rangeZero d 14 15 && rangeZero d 26 29 &&
    byteAt d 31 == 0 && (injFlag d 0 || (!injFlag d 2 && !injFlag d 3 && rangeZero d 12 25))

/-- A queue that a function may inject on (R102): PF0 any; a VF its own bundle. -/
def injOwns (fn q : Nat) : Bool :=
  fn == 0 || (decide (8 ≤ q % 128) && decide (q % 128 < 120) && (q % 128 - 8) / 7 + 1 == fn)

/-- The refusal of R102, 0 for none: the first that applies in this order; a second SOF is a refusal 5 (DESIGN CHOICE, log entry
130). -/
def State.injStatus (s : State) (fn : Nat) (descs : List Bytes) (frame : Bytes) : Nat :=
  let d := descs.headD []
  let lookup := injFlag d 2
  let q := bits (leAt d 12 2) 0 15
  if frame.length < 14 then 1
  else if !lookup && decide ((s.portCfg (q / 128)).maxFrame - 4 < frame.length) then 2
  else if !lookup && !injOwns fn q then 3
  else if !lookup && fn != 0 && injFlag d 3 && !(s.queue q).launchEn then 4
  else if !injFlag d 0 || (descs.drop 1).any (injFlag · 0) || !descs.all injReservedOk then 5
  else 0

/-- The descriptors of one frame: up to the first with EOF (R101). -/
def injDescs : List Bytes → List Bytes
  | [] => []
  | d :: l => if injFlag d 1 then [d] else d :: injDescs l

/-- LENGTH of an inject descriptor (R101). -/
def injLen (d : Bytes) : Nat := leAt d 8 2

/-- INJECT_FRAME_READ (R101, R102, R555): one frame whose descriptors lie before INJ_TAIL is read; only the active device
reads, and in M4 the frame is injected 64 epochs on. It ends at its first EOF, and is as long as its descriptors' LENGTH says. One
that does not begin with SOF takes the descriptors up to its EOF with it, and a refused frame too is a completed one to IRQ_EN
(DESIGN CHOICE, log entry 99). -/
def execInjectFrameRead (f : Fin 17) (n : Fin 64) (descs : List Bytes) (frame : Bytes) (s : State) :
    Host.Outcome State Fault Refusal :=
  let f := f.val
  let x := s.injRing f n.val
  let descs := injDescs descs
  let k := descs.length
  let frame := fit (sumNat (descs.map injLen)) frame
  let may := match s.ms.mode with | .m3 | .m4 => true | _ => false
  .next (if !may || !x.enable || !s.busMaster f || k = 0 || (x.tail - x.head).toNat < k ||
      !injFlag (descs.getLastD []) 1 then s else
    let code := s.injStatus f descs frame
    let slot := x.head.toNat % 2 ^ x.log2
    let s := s.modInj f n.val fun x =>
      { x with head := x.head + BitVec.ofNat 16 k, statuses := (slot, code) :: x.statuses,
               injError := if code = 0 then x.injError else x.injError + 1 }
    let s := if x.irqEn then s.raise f x.vector else s
    if code ≠ 0 then s
    else
      let d := descs.headD []
      let y : Injected := { fn := f, lookup := injFlag d 2, queue := bits (leAt d 12 2) 0 15,
                            launch := if injFlag d 3 then some (leAt d 16 6 * 1000000000 + leAt d 22 4) else none,
                            frame := frame }
      if s.ms.mode == .m4 then s.carry 64 (.inject y) else s.inject y)

/-! ### Egress -/

/-- Start the chosen frame of a port: discarded when the link is down (R161) or the stored frame is too long (R163), hit
by an ECC error (R248), or sent. -/
def State.startFrame (s : State) (q : Nat) (i : QItem) (ecc : Option CellEcc) : State :=
  let p := q / 128
  if !(s.portSt p).linkUp then
    let s := s.start q i
    if i.complete then (s.count (.port p .txLinkDownDrop)).finish p else s
  else
    let unbegun := match ecc with | some e => e.uncorrectable && !e.begun | none => false
    let midway := match ecc with | some e => e.uncorrectable && e.begun | none => false
    let s := match ecc with | some e => s.cellError p i.id e | none => s
    if unbegun then (s.discardHead q i).count (.port p .cellEccDrop)
    else if (s.portCfg p).maxFrame < i.bytes.length + 4 ∧ i.complete then (s.discardHead q i).count (.port p .txOversizeDrop)
    else
      let j := s.leaves p { i with stomp := i.stomp || midway }
      let j := if i.complete then s.corrected p j else j
      let s := s.start q j
      if i.complete then s.emit q j else s

/-- The preemptable frame in progress can be split: what remains after a fragment of 64 x (1 + ADD_FRAG) bytes still makes a last
one (R169, R264). Each fragment ends at the first point that is allowed, so those before it took that many bytes each. -/
def State.canSplit (s : State) (p : Nat) (i : QItem) : Bool := decide (i.cut + 64 * (1 + (s.portCfg p).addFrag) + 64 ≤ i.len)

/-- The frame in progress is split: its fragment ends, and it waits (R169, R264). -/
def State.split (s : State) (p : Nat) : State :=
  (s.modSched p fun c =>
    { c with preempted := c.sending.map fun x => (x.1, { x.2 with cut := x.2.cut + 64 * (1 + (s.portCfg p).addFrag) }),
             sending := none }).count (.port p .mmFragTx)

/-- The launch time of the head has come, or comes in this cycle plan of 80 ns (log entry 5). -/
def State.launchComes (s : State) (q : Nat) (i : QItem) : Bool :=
  match i.launch with
  | some t => decide (t ≤ s.ns (s.portTb (q / 128)) + 80)
  | none => false

/-- The head of a launch queue becomes due where its launch time comes in this cycle plan. -/
def State.dueNow (s : State) (k : Nat) : State :=
  match (s.queue k).items with
  | j :: l =>
    if (s.queue k).launchEn && !j.due && s.launchComes k j && headFate (s.ns (s.portTb (k / 128))) j == .stays then
      s.setItems k ({ j with due := true } :: l)
    else s
  | [] => s

/-- Launch frames whose time comes as the port can begin a frame take part in its choice (R144, R146, R266; log entry 120). -/
def State.duesNow (s : State) (p : Nat) : State := (s.busyQueues p).foldl State.dueNow s

/-- The express frame that the port takes now. -/
def State.pickExpress (s : State) (p : Nat) : Option (Nat × QItem) := (s.duesNow p).selectExpress p

/-- The frame that the port takes now (R261). The state carries the new deficits. -/
def State.pick (s : State) (p : Nat) : State × Option (Nat × QItem) :=
  let c := (s.duesNow p).choose p (s.mmHold p)
  (s.modSched p fun _ => c.1.sched p, c.2)

/-- EGRESS_SELECT (R161, R163, R248, R261 to R264): the port can begin a frame, or an express frame may preempt the one in
progress. -/
def execEgressSelect (p : Fin 256) (inProgress : Bool) (ecc : Option CellEcc) (s : State) :
    Host.Outcome State Fault Refusal :=
  let p := p.val
  .next (if !s.inService || !s.portUsable p then s else
    match (s.sched p).sending with
    | some (q, i) =>
      if inProgress then
        if (s.portSt p).preActive && decide (8 ≤ q % 128) && (s.sched p).preempted.isNone && s.canSplit p i then
          match s.pickExpress p with
          | some (k, j) => (s.split p).startFrame k j ecc
          | none => s
        else s
      else if !i.complete then s
      else
        let s := (s.finish p).frameBoundary p
        match (s.sched p).sending with
        | some _ =>
          -- a preempted frame goes on unless another express frame is eligible
          match s.pickExpress p with
          | some (k, j) =>
            let back := (s.sched p).sending
            let s := s.modSched p fun c => { c with preempted := back, sending := none }
            s.startFrame k j ecc
          | none => s
        | none =>
          let c := s.pick p
          match c.2 with
          | some (k, j) => c.1.startFrame k j ecc
          | none => c.1
    | none =>
      let s := ((s.busyQueues p).foldl (fun s q => s.settle q) s)
      match (s.sched p).preempted with
      | some back =>
        match s.pickExpress p with
        | some (k, j) => s.startFrame k j ecc
        | none => if s.mmHold p then s else s.modSched p fun c => { c with sending := some back, preempted := none }
      | none =>
        let c := s.pick p
        match c.2 with
        | some (k, j) => c.1.startFrame k j ecc
        | none => c.1)

/-- The port can begin an express frame at this instant (R144): idle, or only a preemptable frame in progress. -/
def State.idleFor (s : State) (p k : Nat) : Bool :=
  match (s.sched p).sending with
  | none => k < 8 || (s.sched p).preempted.isNone
  | some (q, i) => k < 8 && (s.portSt p).preActive && decide (8 ≤ q % 128) && (s.sched p).preempted.isNone && s.canSplit p i

/-- The head of a launch queue becomes due where this is its launch time. -/
def State.dueHead (at_ : Nat) (s : State) (k : Nat) : State :=
  match (s.queue k).items with
  | j :: l => if (s.queue k).launchEn && j.launch == some at_ && !j.due then s.setItems k ({ j with due := true } :: l) else s
  | [] => s

/-- Launch queues of a port whose head has this launch time become due with it (R266). -/
def State.dueTogether (s : State) (p at_ : Nat) : State := (s.busyQueues p).foldl (State.dueHead at_) s

/-- The scheduler's choice as a launch time comes, on the base's value at that time: among the queues that it makes due, what R261
takes first (R266, R268). The state keeps the deficits alone. -/
def State.launchChoice (s : State) (p at_ : Nat) (express : Bool) : State × Option Nat :=
  let u := (s.dueTogether p at_).modBase (s.portTb p) fun b => { b with t := max b.t (at_ * 65536) }
  let c := if express then (u, u.selectExpress p) else u.choose p (u.mmHold p)
  (s.modSched p fun _ => c.1.sched p, c.2.map (·.1))

/-- LAUNCH_TIME_REACHED (R144 to R147, R161, R266): the head frame of a launch queue is sent, or found late; its cells read sound (one
in which an ECC error is found is taken by EGRESS_SELECT). -/
def execLaunchTimeReached (q : Fin 32768) (s : State) : Host.Outcome State Fault Refusal :=
  let q := q.val
  let p := q / 128
  .next (match (s.queue q).items with
    | [] => s
    | i :: rest =>
      if !(s.queue q).launchEn || i.due || !s.inService || !s.launchComes q i then s
      else if !(s.portSt p).linkUp then (s.discardHead q i).count (.port p .txLinkDownDrop)
      else if headFate (s.ns (s.portTb p)) i != .stays then s.settle q
      else
        let late (s : State) : State :=
          if (s.queue q).launchLate then s.setItems q ({ i with due := true, late := true } :: rest)
          else (s.discardHead q i).count (.queue q .lateDrop)
        if !s.idleFor p (q % 128) then late s
        else
          let c := s.launchChoice p (i.launch.getD 0) (q % 128 < 8)
          if c.2 = some q then
            let t := c.1.setItems q ({ i with due := true } :: rest)
            (if (t.sched p).sending.isSome then t.split p else t).startFrame q { i with due := true } none
          else late s)

/-- T - HOLD_LEAD has come, or comes in this cycle plan (R267; log entry 5): HOLD_LEAD is the time of 64 x (1 + ADD_FRAG) + 87 bytes
and 20 ns. -/
def State.holdComes (s : State) (p at_ : Nat) : Bool :=
  let now := (s.base (s.portTb p)).t
  decide ((at_ * 65536 - (now + 100 * 65536)) * modeSpeed (s.portCfg p).mode ≤ (64 * (1 + (s.portCfg p).addFrag) + 87) * 8000 * 65536)

/-- LAUNCH_HOLD_START (R267): at T - HOLD_LEAD the MAC merge holds the preemptable MAC; the preemptable frame in progress ends at its
next split point. -/
def execLaunchHoldStart (q : Fin 32768) (s : State) : Host.Outcome State Fault Refusal :=
  let p := q.val / 128
  .next (match (s.queue q.val).items with
    | i :: _ =>
      if (s.queue q.val).launchEn && decide (q.val % 128 < 8) && (s.portSt p).preActive && !(s.portSt p).mmHolds.contains i.id &&
          s.inService && i.launch.elim false (s.holdComes p) then
        let s := (s.modPort p fun x => { x with mmHolds := i.id :: x.mmHolds }).count (.port p .mmHold)
        match (s.sched p).sending with
        | some (k, j) => if decide (8 ≤ k % 128) && (s.sched p).preempted.isNone && s.canSplit p j then s.split p else s
        | none => s
      else s
    | [] => s)

/-- CYCLE_PLAN_START (R258, R265): every shaper and every policer bucket gains its rate. -/
def execCyclePlanStart (s : State) : Host.Outcome State Fault Refusal :=
  let gain (x : Shaper) : Shaper :=
    if x.enable then { x with credit := min (x.credit + (x.rate : Int)) ((x.burst * 100000 : Nat) : Int) } else x
  .next (if s.ms.mode == .m0 then s else
    { s with qos := { s.qos with
        shapers := s.qos.shapers.map fun e => (e.1, gain e.2)
        policers := s.qos.policers.map fun e => (e.1, e.2.gain) } })

/-- MAINTENANCE_SLOT (R195): clock 127 of a plan in one pipe. -/
def execMaintenanceSlot (pipe : Fin 8) (s : State) : Host.Outcome State Fault Refusal :=
  .next (if s.inService then s.maintenance pipe.val else s)

end Sys2Proof.Machine
end

