-- ==== Sys2Proof/Machine/Contract.lean ====
section
/-! DEFINITION. The contract (R404 to R410): the checks of a whole image against what PF0 has allotted, in the order of
R406, with the slot, site and band of the first failure. -/

namespace Sys2Proof.Machine

/-- A failure of the contract: subcode of R406, and slot_in, site and band where it concerns one. -/
structure Breach where
  sub : Nat
  slot : Option Nat := none
  site : Option Nat := none
  band : Option Nat := none
  deriving DecidableEq, Repr

/-- The cell receives (R394). -/
def Cell.rx (c : Cell) : Bool := c.type == 0 || c.type == 2 || c.type == 4

/-- The cell transmits (R394). -/
def Cell.tx (c : Cell) : Bool := c.type == 1 || c.type == 3 || c.type == 5 || c.type == 6 || c.type == 7

/-- The plan of a site. -/
def State.sitePlan (s : State) (site : Nat) : Option SitePlan := tget none s.radio.plans site

/-- What the plan allots a domain at a site, 0 without a plan. -/
def State.allotCtx (s : State) (site d : Nat) : Nat := match s.sitePlan site with | some p => p.ctx.getD d 0 | none => 0
def State.allotComb (s : State) (site d : Nat) : Nat := match s.sitePlan site with | some p => p.comb.getD d 0 | none => 0
def State.allotDwell (s : State) (site d : Nat) : Nat :=
  match s.sitePlan site with | some p => p.dwellShare.getD d 0 | none => 0

/-- The uplink hold H of a site in us (R405). -/
def SiteCfg.hold (c : SiteCfg) : Nat :=
  (List.range 4).foldl (fun h i => if byteAt c.blank (4 * i) % 8 = 0 then h else max h (byteAt c.blank (4 * i + 1))) 0

/-- FH_MAX_US of a site in an image; 0 where the image does not name it. -/
def Image.fhMax (i : Image) (site : Nat) : Nat :=
  match i.sites.find? (·.site == site) with
  | some x => x.fhMax
  | none => 0

/-- The group of a cell. -/
def Image.groupOf (i : Image) (c : Cell) : Option Group := if c.grouped then i.groups[c.group]? else none

/-- The site that sends a receive cell's acknowledgements (R404). -/
def Image.ackSite (i : Image) (c : Cell) : Nat :=
  match i.groupOf c with
  | some g => g.sites.getD g.ackMember 0
  | none => c.site

def Image.chset (i : Image) (c : Cell) : List Chan := i.chsets.getD c.chset []

/-- D_eff of a cell in us (R404). -/
def State.dEff (s : State) (i : Image) (c : Cell) : Nat :=
  match i.groupOf c with
  | some g => g.deadlineUs
  | none => i.fhMax c.site + (s.siteCfg c.site).hold + 32

/-- A transmit holding (R404): site, band, span in ns from the slot boundary, and its cell. -/
structure Holding where
  site : Nat
  band : Nat
  lo : Int
  hi : Int
  cell : Cell
  deriving DecidableEq, Repr

/-- The transmit holding of a cell; a cell of BAND 3, which row RECORD refuses, lies on no band. -/
def Image.holding (i : Image) (c : Cell) : Option Holding :=
  let us (n : Nat) : Int := (n : Int) * 1000
  if 2 < c.band then none
  else if c.tx then some { site := c.site, band := c.band, lo := us c.start - 80000, hi := us (c.start + c.len), cell := c }
  else if c.rx && c.ackReq then
    some { site := i.ackSite c, band := c.band, lo := us (c.start + c.ackDelay) - 80000
           hi := us (c.start + c.len + c.ackDelay) + chsetA (i.chset c), cell := c }
  else none

def Image.holdings (i : Image) (x : ImgSlot) : List Holding := x.cells.filterMap fun e => i.holding e.2

/-- The vector of a site in a slot. -/
def ImgSlot.vect (x : ImgSlot) (site : Nat) : Option Vect := x.vects.find? (·.site == site)

/-- Slots with their numbers. -/
def Image.numbered (i : Image) : List (Nat × ImgSlot) := (List.range i.slots.length).zip i.slots

/-- The first cell of an image that a test fails, as a breach. -/
def Image.firstCell (i : Image) (sub : Nat) (bad : Nat → Cell → Bool) : Option Breach :=
  i.numbered.findSome? fun e => (e.2.cells.find? fun c => bad e.1 c.2).map fun c =>
    { sub := sub, slot := some e.1, site := some c.2.site, band := some c.2.band }

/-- The first holding that a test fails. -/
def Image.firstHolding (i : Image) (sub : Nat) (bad : Nat → ImgSlot → Holding → Bool) : Option Breach :=
  i.numbered.findSome? fun e => ((i.holdings e.2).find? (bad e.1 e.2)).map fun h =>
    { sub := sub, slot := some e.1, site := some h.site, band := some h.band }

/-- The breach of a plain condition. -/
def breachIf (bad : Bool) (b : Breach) : Option Breach := if bad then some b else none

/-! ### The rows of R406 -/

def State.rowSlotLen (s : State) (i : Image) : Option Breach :=
  (i.sites.find? fun x => match s.sitePlan x.site with | some p => p.slotUnits != i.slotUnits | none => true).map fun x =>
    { sub := 0x50, site := some x.site }

def rowSeason (i : Image) : Option Breach :=
  breachIf (decide (i.k < 4) || decide (18 < i.k) || i.slots.length != 2 ^ i.k) { sub := 0x51 }

def State.rowBase (s : State) (d : Nat) (i : Image) : Option Breach :=
  breachIf (i.tb != tget 0 s.cfg.tenantBase i.tenant || s.domainTenant i.domain != some i.tenant || i.domain != d)
    { sub := 0x52 }

def State.rowSite (s : State) (d : Nat) (i : Image) : Option Breach :=
  let bad (site : Nat) : Bool := !i.names site || s.allotCtx site d == 0
  match i.firstCell 0x53 fun _ c => bad c.site with
  | some b => some b
  | none =>
    ((i.groups.flatMap fun g => (g.sites.take g.members).filter (· != 0xFF)) ++ i.csls.map (·.site) ++ i.routes.map (·.site)).findSome? fun n =>
      breachIf (bad n) { sub := 0x53, site := some n }

def rowGuard (i : Image) : Option Breach :=
  let l := i.slotUnits * 250
  breachIf (decide (i.guard < 100 + (l + 1999) / 2000) || decide (l < 4 * i.guard)) { sub := 0x54 }

def rowRecal (i : Image) : Option Breach := i.firstHolding 0x59 fun _ _ h => decide (h.lo < 0)

def rowWindow (i : Image) : Option Breach :=
  let l := i.slotUnits * 250
  i.numbered.findSome? fun e =>
    match e.2.cells.find? fun c =>
        c.2.len == 0 || decide (c.2.start < i.guard) || decide (l < c.2.start + c.2.len + i.guard) with
    | some c => some { sub := 0x55, slot := some e.1, site := some c.2.site, band := some c.2.band }
    | none => ((i.holdings e.2).find? fun h => decide (((l : Int) - i.guard) * 1000 < h.hi)).map fun h =>
      { sub := 0x55, slot := some e.1, site := some h.site, band := some h.band }

/-- Distinct watch entries at a site in a slot (R338). -/
def Image.watch (i : Image) (x : ImgSlot) (site : Nat) : List Chan :=
  ((x.cells.filter fun c => c.2.rx && c.2.site == site).flatMap fun c => i.chset c.2).eraseDups

def State.rowContexts (s : State) (d : Nat) (i : Image) : Option Breach :=
  i.numbered.findSome? fun e =>
    ((i.sites.map (·.site) ++ e.2.vects.map (·.site)).find? fun site =>
      let sum := sumNat ((e.2.cells.filter (·.2.site == site)).map (·.2.ctx))
      let v := match e.2.vect site with | some v => v.ctx | none => 0
      decide (v < sum) || decide (s.allotCtx site d < v) ||
        decide (16 * s.allotCtx site d < (i.watch e.2 site).length)).map fun site =>
      { sub := 0x56, slot := some e.1, site := some site }

/-- The wheel positions that slot_in j can take (R406): those p with p = j modulo the smaller of wheel and Season. -/
def SitePlan.positions (p : SitePlan) (k j : Nat) : List Nat :=
  let m := 2 ^ min p.log2Wheel k
  (List.range (2 ^ p.log2Wheel)).filter fun q => q % m == j % m

def State.rowTxOwner (s : State) (d : Nat) (i : Image) : Option Breach :=
  i.firstHolding 0x57 fun j x h =>
    let owned := match s.sitePlan h.site with
      | some p => (p.positions i.k j).all fun q => p.owners.getD (3 * q + h.band) 255 == d
      | none => false
    let declared := match x.vect h.site with | some v => bit v.txBands h.band | none => false
    !owned || !declared

/-- The later holding may overlap the earlier by its first 80 us (R407). -/
def exempt (a b : Holding) : Bool :=
  a.cell.tx && b.cell.tx && a.cell.chset == b.cell.chset && a.cell.chOffset == b.cell.chOffset &&
    decide (a.hi ≤ b.lo + 80000)

/-- Two holdings of one band at one site overlap. -/
def clashes (a b : Holding) : Bool :=
  a.site == b.site && a.band == b.band && decide (a.lo < b.hi) && decide (b.lo < a.hi) && !(exempt a b || exempt b a)

/-- The first holding of a list that clashes with an earlier one. -/
def firstClash : List Holding → Option Holding
  | [] => none
  | a :: l => match l.find? (clashes a) with | some b => some b | none => firstClash l

def rowTxOverlap (i : Image) : Option Breach :=
  i.numbered.findSome? fun e => (firstClash (i.holdings e.2)).map fun h =>
    { sub := 0x58, slot := some e.1, site := some h.site, band := some h.band }

/-- A group record breaks R398. -/
def Group.bad (g : Group) : Bool :=
  let used := g.sites.take g.members
  decide (g.members < 2) || decide (4 < g.members) || decide (g.members ≤ g.ackMember) || used.any (fun n => decide (95 < n)) ||
    used.eraseDups.length != used.length || (g.sites.drop g.members).any (· != 0xFF) || g.alignUs == 0 ||
    decide (50 < g.alignUs) || decide (g.deadlineUs < 20) || decide (1000 < g.deadlineUs)

/-- Two member cells of one slot agree in window, set and type. -/
def sameWindow (a b : Cell) : Bool := a.start == b.start && a.len == b.len && a.chset == b.chset && a.type == b.type

def State.rowCombiner (s : State) (d : Nat) (i : Image) : Option Breach :=
  match i.groups.find? Group.bad with
  | some _ => some { sub := 0x5A }
  | none =>
    i.numbered.findSome? fun e =>
      let grouped := e.2.cells.filter (·.2.grouped)
      match grouped.find? fun c => (grouped.any fun o => o.2.group == c.2.group && !sameWindow o.2 c.2) ||
          (match i.groupOf c.2 with | some g => !(g.sites.take g.members).contains c.2.site | none => false) with
      | some c => some { sub := 0x5A, slot := some e.1, site := some c.2.site, band := some c.2.band }
      | none =>
        (grouped.find? fun c =>
          let n := (grouped.filter (·.2.site == c.2.site)).length
          let v := match e.2.vect c.2.site with | some v => v.comb | none => 0
          decide (v < n) || decide (s.allotComb c.2.site d < n)).map fun c =>
        { sub := 0x5A, slot := some e.1, site := some c.2.site }

def rowKeyed (i : Image) : Option Breach :=
  i.numbered.findSome? fun e =>
    let hs := i.holdings e.2
    match hs.find? fun h =>
      let sum := sumNat ((hs.filter fun o => o.site == h.site && o.band == h.band).map (·.cell.keyed))
      let v := match e.2.vect h.site with | some v => v.dwell.getD h.band 0 | none => 0
      decide (v < sum) with
    | some h => some { sub := 0x5B, slot := some e.1, site := some h.site, band := some h.band }
    | none =>
    match e.2.cells.find? fun c => decide (c.2.len < c.2.keyed) ||
        (c.2.rx && c.2.ackReq && decide (c.2.keyed * 1000 < chsetA (i.chset c.2))) with
    | some c => some { sub := 0x5B, slot := some e.1, site := some c.2.site, band := some c.2.band }
    | none =>
      (e.2.vects.find? fun v => v.dwell.any fun n => decide (i.slotUnits * 250 < n)).map fun v =>
        { sub := 0x5B, slot := some e.1, site := some v.site }

/-- Frequencies that a holding of slot_in j can use (R409): of a transmit cell the hopped entries in any Season, of any
other every entry of its set. -/
def Image.freqs (i : Image) (j : Nat) (c : Cell) : List Nat :=
  let set := i.chset c
  if c.tx && c.type != 6 then
    let g := Nat.gcd (2 ^ i.k) set.length
    let r := (((j : Int) - i.asnOrigin + c.chOffset) % (g : Int)).toNat
    (((List.range set.length).zip set).filter fun e => e.1 % g == r).map (·.2.freq)
  else set.map (·.freq)

/-- The dwell plans in force, for the sites of an image. -/
def State.plansOf (s : State) (i : Image) : Tab DwellPlan :=
  i.sites.flatMap fun x => (List.range 3).map fun b => (3 * x.site + b, s.plan x.site b)

/-- The dwell plan of a site and band that the image was loaded under. -/
def Image.plan (i : Image) (site band : Nat) : DwellPlan := tget {} i.plans (3 * site + band)

/-- Dwell channels of a site and band that the image can use. -/
def Image.usedChannels (i : Image) (site band : Nat) : List Nat :=
  (i.numbered.flatMap fun e => ((i.holdings e.2).filter fun h => h.site == site && h.band == band).flatMap fun h =>
    (i.freqs e.1 h.cell).map (i.plan site band).channel).eraseDups

/-- h(j) of R409. -/
def Image.dwellDemand (i : Image) (site band ch : Nat) : List Nat :=
  i.numbered.map fun e => sumNat (((i.holdings e.2).filter fun h =>
    h.site == site && h.band == band && ((i.freqs e.1 h.cell).map (i.plan site band).channel).contains ch).map (·.cell.keyed))

/-- h(j) + ... + h(j + m - 1), going round the Season. -/
def wrapSum (h : List Nat) (j m : Nat) : Nat :=
  m / h.length * sumNat h + sumNat (((h ++ h).drop j).take (m % h.length))

def State.rowDwell (s : State) (d : Nat) (i : Image) : Option Breach :=
  let l := i.slotUnits * 250
  (i.sites.flatMap fun x => [(x.site, 0), (x.site, 1), (x.site, 2)]).findSome? fun sb =>
    let p := i.plan sb.1 sb.2
    let m := (p.wMs * 1000 + l - 1) / l + 1
    (i.usedChannels sb.1 sb.2).findSome? fun ch =>
      let h := i.dwellDemand sb.1 sb.2 ch
      ((List.range h.length).find? fun j =>
        if ch = 256 then decide (p.oop < wrapSum h j m)
        else decide (p.budget * s.allotDwell sb.1 d < 128 * wrapSum h j m)).map fun j =>
        { sub := 0x5C, slot := some j, site := some sb.1, band := some sb.2 }

/-- Decode spans that cover a tick of slot j (R404, R408): those of the slot and those carried over from the one before. -/
def State.decodeLoad (s : State) (i : Image) (j tick : Nat) : List Cell :=
  let l := i.slotUnits * 250
  let lo := 50 * tick
  let covers (c : Cell) (off : Nat) : Bool :=
    (c.rx || (c.tx && c.ackReq)) && decide (c.start < lo + off + 50) && decide (lo + off < c.start + c.len + s.dEff i c)
  let at_ (n : Nat) : List Cell := match i.slots[n]? with | some x => x.cells.map (·.2) | none => []
  (at_ j).filter (covers · 0) ++
    (at_ ((j + i.slots.length - 1) % i.slots.length)).filter (covers · l)

/-- Decoder cycles of one tick (R367, R408), less the cores that failed self-test (R633). -/
def State.tickCycles (s : State) : Nat := 60000 * (16 - s.radio.badCores)

def State.rowDecoder (s : State) (d : Nat) (i : Image) : Option Breach :=
  let ticks := i.slotUnits * 5
  if decide (s.tickCycles = 0) && i.slots.any (fun x => x.cells.any (·.2.rx)) then some { sub := 0x5D }
  else i.numbered.findSome? fun e =>
    (List.range ticks).findSome? fun t =>
      let cs := s.decodeLoad i e.1 t
      if (s.domain d).decShare * s.tickCycles < 1024 * sumNat (cs.map (·.decPeak)) then
        some { sub := 0x5D, slot := some e.1 }
      else (i.sites.find? fun x =>
        let n := sumNat ((cs.filter (·.site == x.site)).map (·.decPeak))
        decide ((match e.2.vect x.site with | some v => v.decPeak | none => 0) < n)).map fun x =>
          { sub := 0x5D, slot := some e.1, site := some x.site }

def State.rowAckTiming (s : State) (i : Image) : Option Breach :=
  i.firstCell 0x5E fun _ c =>
    c.ackReq && ((c.rx && decide (c.ackDelay < s.dEff i c + 110 + 460 + i.fhMax (i.ackSite c))) ||
      (c.tx && decide (c.ackDelay < 200)))

/-- Band edges in Hz (R290). -/
def bandEdges : Nat → Nat × Nat
  | 0 => (863000000, 928000000) | 1 => (2400000000, 2483500000) | _ => (169400000, 169475000)

/-- The reserved bits of a PHY code are zero (R396). -/
def phyReserved (phy : Nat) : Bool :=
  match phy % 16 with
  | 0 => decide (2 ^ 15 ≤ phy)
  | 1 => decide (2 ^ 6 ≤ phy)
  | 2 => decide (2 ^ 11 ≤ phy)
  | 3 | 4 => decide (16 ≤ phy)
  | _ => true

/-- The 868 MHz and 915 MHz frequency bands of IEEE 802.15.4-2020, and the centres of its 2.4 GHz channels 11 to 26 (R344; log
entry 123). -/
def in868or915 (freq : Nat) : Bool :=
  (decide (868000000 ≤ freq) && decide (freq ≤ 870000000)) || (decide (902000000 ≤ freq) && decide (freq ≤ 928000000))
def channel24 (freq : Nat) : Bool := ((List.range 16).map fun k => 2405000000 + 5000000 * k).contains freq

/-- The families, bands and modes that the device supports (R344). -/
def Chan.supported (c : Chan) : Bool :=
  match c.phy % 16 with
  | 0 => decide (c.band < 3) && decide (Config.symbolRate c.code ≤ 300000) && Config.stdSupported c.band c.code
  | 1 => c.band == 0 && in868or915 c.freq && Config.stdSupported c.band c.code
  | 2 => decide (c.band < 2) && decide (1 ≤ c.phy / 16 % 8) && decide (c.phy / 16 % 8 ≤ 4) && Config.stdSupported c.band c.code
  | 3 => c.band == 1 && channel24 c.freq
  | 4 => decide (c.band < 2)
  | _ => false

/-- Occupied bandwidth in Hz. -/
def Chan.bandwidth (c : Chan) : Nat := if c.phy % 16 = 4 then 1026000 else Config.stdBandwidth c.code

/-- An entry of a channel set that the PHY row refuses; a BAND of 3 is for row RECORD. -/
def Chan.bad (c : Chan) : Bool :=
  let e := bandEdges c.band
  let w := c.bandwidth
  decide (c.band < 3) && (phyReserved c.phy || !c.supported || decide (2 * c.freq < 2 * e.1 + w) || decide (2 * e.2 < 2 * c.freq + w))

def rowPhy (i : Image) : Option Breach :=
  match i.chsets.findSome? fun c => (c.take 64).find? Chan.bad with
  | some e => some { sub := 0x5F, band := some e.band }
  | none => i.firstCell 0x5F fun _ c => decide (c.band < 3) && (i.chset c).any fun e => decide (e.band < 3) && e.band != c.band

/-- A cells record with a value out of its range (R393). -/
def Image.badCell (i : Image) (c : Cell) : Bool :=
  decide (7 < c.type) || decide (95 < c.site) || decide (2 < c.band) || decide (64 < c.ctx) ||
    decide (i.chsets.length ≤ c.chset) || (if c.grouped then decide (i.groups.length ≤ c.group) else c.group != 0xFFFF) ||
    (!(c.type == 0 || c.type == 1 || c.type == 6) && c.node != 0) || (c.rx && c.chOffset != 0) ||
    (!c.ackReq && c.ackDelay != 0)

/-- A CSL record that the RECORD row refuses. -/
def Image.badCsl (i : Image) (r : CslRec) : Bool :=
  decide (r.periodMs < 250) || decide (16000 < r.periodMs) || decide (10000 < r.baseUs) || decide (i.chsets.length ≤ r.chset) ||
    !(i.slots.any fun x => x.cells.any fun c =>
      c.2.type == 6 && c.2.site == r.site &&
        (match (i.chsets.getD r.chset []).head? with | some e => e.band == c.2.band | none => false))

def rowRecord (i : Image) : Option Breach :=
  match i.firstCell 0x60 fun _ c => i.badCell c with
  | some b => some b
  | none =>
    match i.csls.find? i.badCsl with
    | some r => some { sub := 0x60, site := some r.site }
    | none =>
    match i.routes.find? fun r => decide (8 < r.nHops) || (r.hops.drop r.nHops).any (· != 0) with
    | some r => some { sub := 0x60, site := some r.site }
    | none =>
    match i.numbered.find? fun e => decide (4096 < e.2.cells.length) || decide (96 < e.2.vects.length) with
    | some e => some { sub := 0x60, slot := some e.1 }
    | none =>
    match i.numbered.findSome? fun e => (e.2.vects.find? fun v => decide (64 < v.ctx) || decide (4 < v.comb)).map fun v =>
        ({ sub := 0x60, slot := some e.1, site := some v.site } : Breach) with
    | some b => some b
    | none =>
    breachIf ((i.chsets.any fun c => c.isEmpty || decide (64 < c.length) || c.any fun e => decide (2 < e.band)) || (i.sites.any fun x => decide (95 < x.site)))
      { sub := 0x60 }

def rowFronthaul (i : Image) : Option Breach :=
  (i.sites.find? fun x => x.fhMax == 0 || decide (250 < x.fhMax)).map fun x => { sub := 0x61, site := some x.site }

/-- The first breach of a list of rows. -/
def firstBreach : List (Option Breach) → Option Breach
  | [] => none
  | some b :: _ => some b
  | none :: l => firstBreach l

/-- The contract checks of an image of domain `d`, in the order of R406. -/
def State.contract (s : State) (d : Nat) (i : Image) : Option Breach :=
  firstBreach [
    s.rowSlotLen i, rowSeason i, s.rowBase d i, s.rowSite d i, rowGuard i, rowRecal i, rowWindow i, s.rowContexts d i,
    s.rowTxOwner d i, rowTxOverlap i, s.rowCombiner d i, rowKeyed i, s.rowDwell d i, s.rowDecoder d i, s.rowAckTiming i,
    rowPhy i, rowRecord i, rowFronthaul i]

/-- Run the contract again on every loaded image of the domains of a list that a test selects (R405, R427, R428): the
first failure. -/
def State.recheck (s : State) (ds : List Nat) (which : Image → Bool) : Option Breach :=
  ds.findSome? fun d => ((s.domain d).images.filter which).findSome? fun i => s.contract d i

end Sys2Proof.Machine
end

