-- ==== Sys2Proof/Machine/Trace.lean ====
section
/-! DEFINITION. Trace records and their buffer (R652, R653, R654). -/

namespace Sys2Proof.Machine

/-- Records that the trace buffer of 256 KiB holds. -/
def traceSize : Nat := 8192

/-- A trace record (R652), stamped with TB0. -/
def State.traceBytes (s : State) (type : Nat) (body : Bytes) : Bytes :=
  leBytes 1 type ++ leBytes 1 (Config.traceSource type % 10) ++ [0, 0] ++ leBytes 6 (s.now 0).1 ++ leBytes 4 (s.now 0).2 ++ fit 18 body

/-- Make a trace record, while tracing is enabled and the Trace Port runs (R650, R653, R654). A full buffer discards it; the
first to fit afterwards follows a LOST record. -/
def State.traceRecord (s : State) (type : Nat) (body : Bytes) : State :=
  let t := s.trace
  if !s.cfg.own.trace.enable || !s.procs.loaded then s
  else
    let new := (if t.lost = 0 then [] else [s.traceBytes 5 (leBytes 4 t.lost)]) ++ [s.traceBytes type body]
    if t.records.length + new.length ≤ traceSize then
      ({ s with trace := { t with records := t.records ++ new, lost := 0 } }).count (.device .traceRecords) new.length
    else ({ s with trace := { t with lost := t.lost + 1 } }).count (.device .traceLost)

/-- Traps of a domain since the M1 entry, of all four codes. -/
def State.trapCount (s : State) (d : Nat) : Nat :=
  s.counter (.domain d .trapDecode) + s.counter (.domain d .trapKeyed) + s.counter (.domain d .trapRecal) +
    s.counter (.domain d .trapFronthaul)

/-- The SLOT record of a slot that has ended (R652, R654): slot_in, the actions issued in it, whose count the spec does not
define further (log entry 3), and its traps. -/
def State.traceSlot (s : State) (d slotIn traps : Nat) : State :=
  if s.cfg.own.trace.slotEn then
    let z := s.draw
    z.2.traceRecord 6 (leBytes 1 d ++ leBytes 4 slotIn ++ leBytes 4 z.1 ++ leBytes 4 traps)
  else s

end Sys2Proof.Machine
end

