-- ==== Sys2Proof/Machine/Schedule.lean ====
section
/-! DEFINITION. The SCHED commands (R425 to R433) and the slot events of the schedule engine (R137, R141, R340, R411,
R431). -/

namespace Sys2Proof.Machine

/-- A VF names a domain of its own tenant (R16); PF0 names any. -/
def State.ownsDomain (s : State) (fn d : Nat) : Bool := fn == 0 || s.domainTenant d == some (fn - 1)

/-- The status of a contract failure. -/
def breachChk : Option Breach → Chk
  | some b => some (stContract, b.sub)
  | none => none

/-! ### SCHED_DOMAIN_ALLOT -/

def schedDomainAllotSpec : AciSpec where
  op := 0x0701
  lenOk := lenIs 6
  modes := modesSet
  carried := true
  rsv := fun _ => [(0, 0xC0), (1, 0xFF), (3, 0xF8), (5, 0xFE)]
  par := fun r _ => badIf (decide (1024 < r.f 18 2) || decide (256 < r.f 20 2)) 0x50
  owned := fun r s => s.ownsDomain r.fn (r.fb 16 0 6)
  avail := fun r s =>
    let d := r.fb 16 0 6
    let others := (s.radio.domains.filter fun e => e.1 != d).map (·.2)
    failIf (decide (1024 < r.f 18 2 + sumNat (others.map (·.decShare))) ||
      decide (256 < r.f 20 2 + sumNat (others.map (·.imageMib)))) stNoResource 0x51
  late := fun r s =>
    let d := r.fb 16 0 6
    breachChk ((s.modDomain d fun x => { x with decShare := r.f 18 2 }).recheck [d] fun _ => true)
  effect := fun r s =>
    (s.modDomain (r.fb 16 0 6) fun x => { x with decShare := r.f 18 2, imageMib := r.f 20 2 }, okReply)

def execSchedDomainAllot (r : Aci) (s : State) : Host.Outcome State Fault Refusal := .next (schedDomainAllotSpec.exec r s)

/-! ### SCHED_SITE_ALLOT -/

/-- The plan that the buffer of R428 holds. -/
def planOf (r : Req) : SitePlan :=
  { slotUnits := r.b 2 2, log2Wheel := r.bb 4 0 4, ctx := (List.range 64).map fun d => r.bb (8 + d) 0 7,
    comb := (List.range 64).map fun d => r.bb (72 + d) 0 3, dwellShare := (List.range 64).map fun d => r.b (136 + d) 1,
    owners := (List.range (3 * 2 ^ r.bb 4 0 4)).map fun k => r.b (200 + k) 1 }

/-- A field of a plan out of its range (R384). -/
def SitePlan.bad (p : SitePlan) : Bool :=
  decide (p.slotUnits < 10) || decide (160 < p.slotUnits) || decide (8 < p.log2Wheel) || p.ctx.any (fun n => decide (64 < n)) ||
    p.comb.any (fun n => decide (4 < n)) || p.dwellShare.any (fun n => decide (128 < n)) ||
    p.owners.any fun n => decide (63 < n) && n != 255

def schedSiteAllotSpec : AciSpec where
  op := 0x0702
  lenOk := fun n b => n == 200 + 3 * 2 ^ (byteAt b 4 % 16)
  modes := modesSet
  carried := true
  rsv := fun _ => [(0, 0x80), (1, 0xFF), (4, 0xF0), (5, 0xFF), (6, 0xFF), (7, 0xFF)] ++
    ((List.range 64).map fun d => (8 + d, 0x80)) ++ (List.range 64).map fun d => (72 + d, 0xF8)
  par := fun r _ => badIf (decide (95 < r.bb 0 0 7) || (planOf r).bad) 0x50
  avail := fun r _ =>
    let p := planOf r
    failIf (decide (64 < sumNat p.ctx) || decide (4 < sumNat p.comb) || decide (128 < sumNat p.dwellShare)) stNoResource 0x51
  late := fun r s =>
    let site := r.bb 0 0 7
    let t := { s with radio := { s.radio with plans := tset none s.radio.plans site (some (planOf r)) } }
    breachChk (t.recheck (s.domainsNaming site) (·.names site))
  effect := fun r s =>
    ({ s with radio := { s.radio with plans := tset none s.radio.plans (r.bb 0 0 7) (some (planOf r)) } }, okReply)

def execSchedSiteAllot (r : Aci) (s : State) : Host.Outcome State Fault Refusal := .next (schedSiteAllotSpec.exec r s)

/-! ### SCHED_LOAD_IMAGE -/

/-- A bank is loading. -/
def Bank.busy : Bank → Bool
  | .loading _ _ _ => true
  | _ => false

/-- A load that its bank is taken from ends with STALE_GENERATION (log entry 125). -/
def Bank.endLoad (b : Bank) (s : State) : State :=
  match b with
  | .loading fn tag _ => s.complete fn tag 0x0703 stStale 0
  | _ => s

def schedLoadImageSpec : AciSpec where
  op := 0x0703
  lenOk := lenIs 16
  pf0Only := false
  modes := modesRun
  carried := true
  rsv := fun _ => [(0, 0xC0), (1, 0xFF), (2, 0xFF), (3, 0xFF)]
  par := fun r _ => badIf (decide (r.f 20 4 < 360) || decide (268435456 < r.f 20 4) || r.f 24 8 % 4096 != 0) 0x50
  owned := fun r s => s.ownsDomain r.fn (r.fb 16 0 6)
  avail := fun r s =>
    let x := s.domain (r.fb 16 0 6)
    firstOf [
      failIf (x.bankA.busy || x.bankB.busy || x.activation.isSome) stBusy 0x02,
      failIf (decide (x.imageMib * 2 ^ 20 < r.f 20 4)) stNoResource 0x50]
  accepts := fun _ _ => true
  effect := fun r s =>
    let d := r.fb 16 0 6
    let side := (s.domain d).loadSide
    (s.modDomain d fun x => x.setBank side (.loading r.fn r.tag (r.f 20 4)),
      s.acceptRead r (1000000000 + (r.f 20 4 * 20000000 + 1048575) / 1048576) (leBytes 1 (b2n side)))

def execSchedLoadImage (r : Aci) (s : State) : Host.Outcome State Fault Refusal := .next (schedLoadImageSpec.exec r s)

/-! ### SCHED_ACTIVATE, SCHED_DEACTIVATE, SCHED_UNLOAD, SCHED_STATUS -/

/-- The boundary that SCHED_ACTIVATE names, in ns. -/
def boundaryOf (r : Req) : Nat := r.f 20 6 * 1000000000 + r.f 26 4

/-- A base has been set or locked since its start; before that an activation waits for the base to reach its instant, however far
ahead it lies (R155; log entry 104). -/
def State.baseSet (s : State) (tb : Nat) : Bool := (s.base tb).steps != 0 || (s.base tb).everLocked

def schedActivateSpec : AciSpec where
  op := 0x0704
  lenOk := lenIs 14
  pf0Only := false
  modes := modesRun
  carried := true
  rsv := fun _ => [(0, 0xC0), (1, 0xFF), (2, 0xFF), (3, 0xFF)]
  par := fun r _ => badIf (decide (999999999 < r.f 26 4)) 0x50
  owned := fun r s => s.ownsDomain r.fn (r.fb 16 0 6)
  avail := fun r s =>
    let d := r.fb 16 0 6
    let now := s.ns (s.domainTb d)
    let t := boundaryOf r
    let x := s.domain d
    match x.readySide with
    | none => some (stBadParam, 0x51)
    | some b =>
      match (x.bank b).image with
      | none => some (stBadParam, 0x51)
      | some i => firstOf [
          badIf (t % i.seasonNs != 0) 0x52,
          badIf (decide (t < now + 100000000) || (s.baseSet (s.domainTb d) && decide (now + 30 * 86400 * 1000000000 < t))) 0x53]
  accepts := fun _ _ => true
  effect := fun r s =>
    let d := r.fb 16 0 6
    match (s.domain d).readySide with
    | none => (s, { status := stBadParam, sub := 0x51 })
    | some b =>
      let a : Activation := { at_ := boundaryOf r, bank := b, fn := r.fn, tag := r.tag }
      let t := (s.cancelActivation d).modDomain d fun x => { x with activation := some a }
      (t, s.acceptReply r.fn (boundaryOf r + 10000000 - s.ns (s.domainTb d)))

def execSchedActivate (r : Aci) (s : State) : Host.Outcome State Fault Refusal := .next (schedActivateSpec.exec r s)

def schedDeactivateSpec : AciSpec where
  op := 0x0705
  lenOk := lenIs 1
  pf0Only := false
  modes := modesRun
  carried := true
  rsv := fun _ => [(0, 0xC0)]
  owned := fun r s => s.ownsDomain r.fn (r.fb 16 0 6)
  effect := fun r s =>
    let d := r.fb 16 0 6
    let s := s.cancelActivation d
    if (s.domain d).active.isNone then (s, okReply)
    else
      let now := s.ns (s.domainTb d)
      let slot := match (s.domain d).activeImage with | some i => now / i.slotNs | none => 0
      (s.modDomain d fun x =>
        { x with stopping := x.stopping ++ [r], stopSlot := if x.stopping.isEmpty then slot else x.stopSlot },
        { okReply with deferred := true })

def execSchedDeactivate (r : Aci) (s : State) : Host.Outcome State Fault Refusal := .next (schedDeactivateSpec.exec r s)

def schedUnloadSpec : AciSpec where
  op := 0x0706
  lenOk := lenIs 1
  pf0Only := false
  modes := modesRun
  carried := true
  rsv := fun _ => [(0, 0x80)]
  owned := fun r s => s.ownsDomain r.fn (r.fb 16 0 6)
  avail := fun r s =>
    let x := s.domain (r.fb 16 0 6)
    let b := r.fl 16 6
    let pending := match x.activation with | some a => a.bank == b | none => false
    failIf (x.active == some b || pending) stBusy 0x02
  effect := fun r s =>
    let d := r.fb 16 0 6
    (((s.domain d).bank (r.fl 16 6)).endLoad (s.modDomain d fun x => x.setBank (r.fl 16 6) .empty), okReply)

def execSchedUnload (r : Aci) (s : State) : Host.Outcome State Fault Refusal := .next (schedUnloadSpec.exec r s)

/-- OTHER_STATE of a bank (R433). -/
def SchedDomain.otherState (x : SchedDomain) : Nat :=
  match x.bank x.otherSide with
  | .empty => 0
  | .loading _ _ _ => 1
  | .loaded _ => match x.activation with | some a => if a.bank = x.otherSide then 3 else 2 | none => 2

def serialOf : Option Image → Nat
  | some i => i.serial
  | none => 0

/-- SCHED_STATUS (R433). Bits 7 and 6 of byte 16, which R433 does not name, are taken as reserved (DESIGN CHOICE, log entry 129). -/
def schedStatusSpec : AciSpec where
  op := 0x0707
  lenOk := lenIs 1
  pf0Only := false
  modes := modesRead
  rsv := fun _ => [(0, 0xC0)]
  owned := fun r s => s.ownsDomain r.fn (r.fb 16 0 6)
  effect := fun r s =>
    let x := s.domain (r.fb 16 0 6)
    let act := match x.active with | none => 3 | some b => b2n b
    let at_ := match x.activation with | some a => a.at_ | none => 0
    (s, okWith (leBytes 1 (act + 4 * x.otherState) ++ [0, 0, 0] ++ leBytes 4 (serialOf x.activeImage) ++
      leBytes 4 (serialOf (x.bank x.otherSide).image) ++ leBytes 6 (at_ / 1000000000) ++ leBytes 4 (at_ % 1000000000) ++ [0, 0]))

def execSchedStatus (r : Aci) (s : State) : Host.Outcome State Fault Refusal := .next (schedStatusSpec.exec r s)

/-! ### Traps (R423, R435) -/

/-- Body of a schedule entry. -/
def trapBody (d code site band slotIn value : Nat) : Bytes :=
  leBytes 1 d ++ leBytes 1 code ++ leBytes 1 site ++ leBytes 1 band ++ leBytes 4 slotIn ++ leBytes 4 value ++ [0, 0]

/-- The Wells of a domain's entries: its tenant's fault Well and the PF0 alarm Well. -/
def State.domainWells (s : State) (d : Nat) : List Nat :=
  1 :: (match s.domainTenant d with | some t => (s.faultWell t).toList | none => [])

/-- slot_in of a slot of a domain. -/
def State.slotIn (s : State) (d slot : Nat) : Nat :=
  match (s.domain d).activeImage with
  | some i => slot % 2 ^ i.k
  | none => 0

/-- A trap entry of codes 1, 2, 3 and 5, paced per domain and code (R423, R697); `slot` is that of the cell. -/
def State.trapEntry (s : State) (d code site band slot : Nat) : State :=
  (s.domainWells d).foldl (fun s w => s.pace (8 * d + code) w 9 0x0901 (trapBody d code site band (s.slotIn d slot) 0) 8 4) s

/-- FH_EXCEEDED or FH_NORMAL. -/
def State.delayEntry (s : State) (type d site ns : Nat) : State :=
  (s.domainWells d).foldl (fun s w => s.produce w 9 type (trapBody d 4 site 0xFF (s.slotIn d (s.domain d).slot) ns)) s

/-- A measured one-way delay of a site, for one domain (R423 code 4). -/
def State.delayFor (s : State) (site ns d : Nat) : State :=
  let x := s.domain d
  match x.activeImage with
  | none => s
  | some i =>
    if !i.names site then s
    else
      let high := decide (i.fhMax site * 1000 < ns)
      match tget none x.late site with
      | none =>
        if high then (s.modDomain d fun x => { x with late := tset none x.late site (some 0) }).delayEntry 0x0902 d site ns else s
      | some n =>
        if high then s.modDomain d fun x => { x with late := tset none x.late site (some 0) }
        else if n + 1 < 10 then s.modDomain d fun x => { x with late := tset none x.late site (some (n + 1)) }
        else (s.modDomain d fun x => { x with late := tset none x.late site none }).delayEntry 0x0903 d site ns

/-- The same for every domain. -/
def State.delayMeasured (s : State) (site ns : Nat) : State :=
  (s.radio.domains.map (·.1)).foldl (fun s d => s.delayFor site ns d) s

/-! ### Slot events -/

/-- SLOT_BOUNDARY (R137, R141, R338, R340): the running slot becomes the one that the base has reached. -/
def execSlotBoundary (d : Fin 64) (s : State) : Host.Outcome State Fault Refusal :=
  let d := d.val
  let x := s.domain d
  .next (match x.activeImage with
    | none => s
    | some i =>
      let now := s.ns (s.domainTb d)
      let slot := now / i.slotNs
      if slot = x.slot then s
      else
        let holding := match x.hold with | some h => decide (now ≤ h) | none => false
        let held := match x.hold with | some h => min slot (h / i.slotNs) - x.slot | none => 0
        let s := s.traceSlot d (x.slot % i.slots.length) (s.trapCount d - x.trapsAt)
        let s := s.modDomain d fun y =>
          { y with slot := slot, trapsAt := s.trapCount d, hold := if holding then y.hold else none,
                   used := y.used.filter fun e => decide (slot * i.slotNs ≤ e.1 + i.slotNs) }
        let s := s.count (.domain d .slotsHeld) held
        s.endWindows d)

/-- IMAGE_ACTIVATION (R411): the base has reached the boundary of the pending activation. -/
def execImageActivation (d : Fin 64) (s : State) : Host.Outcome State Fault Refusal :=
  let d := d.val
  let now := s.ns (s.domainTb d)
  .next (match (s.domain d).activation with
    | some a =>
      if a.at_ ≤ now then
        let s := s.activate d
        match (s.domain d).activeImage with
        | some i => s.modDomain d fun x => { x with slot := now / i.slotNs }
        | none => s
      else s
    | none => s)

/-- The domain's cells are idle (R413, R431): no image is active; the image stays loaded, for frames received before. -/
def State.idleDomain (s : State) (d : Nat) : State :=
  let s := s.modDomain d fun x => { x with
    active := none, stopping := [], used := [], previous := x.active, activeFrom := s.ns (s.domainTb d),
    acks := x.acks.filter (·.issued) }
  s.endRecvs fun r => r.domain == d && r.header.isNone

/-- DEACTIVATE_DONE (R431): the first slot boundary after SCHED_DEACTIVATE. -/
def execDeactivateDone (d : Fin 64) (s : State) : Host.Outcome State Fault Refusal :=
  let d := d.val
  let x := s.domain d
  let reached := match x.activeImage with
    | some i => decide (x.stopSlot < s.ns (s.domainTb d) / i.slotNs)
    | none => true
  .next (if x.stopping.isEmpty || !reached then s
    else x.stopping.foldl (fun s r => s.answerLater r okReply) (s.idleDomain d))

end Sys2Proof.Machine
end

