-- ==== Sys2Proof/Machine/Records.lean ====
section
/-! DEFINITION. Node Records and their removal, the entries of spec/11_mesh_nodes.md, and NODE_SEND commands in progress
(R437 to R444, R465 to R469, R485). -/

namespace Sys2Proof.Machine

/-! ### Records -/

def State.meshDom (s : State) (d : Nat) : MeshDomain := tget {} s.mesh.domains d

def State.modMesh (s : State) (d : Nat) (f : MeshDomain → MeshDomain) : State :=
  { s with mesh := { s.mesh with domains := tmod {} s.mesh.domains d f } }

def State.node (s : State) (h : Nat) : Option NodeRec := tget none s.mesh.nodes h

def State.setNode (s : State) (h : Nat) (x : Option NodeRec) : State :=
  { s with mesh := { s.mesh with nodes := tset none s.mesh.nodes h x } }

def State.modNode (s : State) (h : Nat) (f : NodeRec → NodeRec) : State := s.setNode h ((s.node h).map f)

/-- An engine's write of a record moves the hidden sequence number by two (R443). -/
def State.engineWrite (s : State) (h : Nat) (f : NodeRec → NodeRec) : State :=
  s.modNode h fun n => { f n with seqNo := n.seqNo + 2 }

def State.owner (s : State) (d : Nat) : Option DomainOwner := tget none s.cfg.domainOwner d

/-- The short address of a handle of a domain (R439). -/
def State.shortAddr (s : State) (d h : Nat) : Nat := match s.owner d with | some o => h - o.base | none => 0

/-- The handle of a short address of a domain. -/
def State.handleOf (s : State) (d short : Nat) : Option Nat :=
  match s.owner d with
  | some o => if short < o.max then some (o.base + short) else none
  | none => none

/-- A handle lies in a domain's range (R437). -/
def State.inRange (s : State) (d h : Nat) : Bool :=
  match s.owner d with
  | some o => decide (o.base ≤ h) && decide (h < o.base + o.max)
  | none => false

/-- The domain whose range holds a handle. -/
def State.domainOfHandle (s : State) (h : Nat) : Option Nat := (List.range 64).find? fun d => s.inRange d h

/-- Handles of a domain's records, ascending. -/
def State.recordsOf (s : State) (d : Nat) : List Nat :=
  (s.mesh.nodes.filter fun e => match e.2 with | some n => n.domain == d | none => false).map (·.1)

/-- The handle of an EUI-64 in a domain. -/
def State.findEui (s : State) (d eui : Nat) : Option Nat :=
  (s.recordsOf d).find? fun h => match s.node h with | some n => n.eui == eui | none => false

/-- The record of a handle is JOINED. -/
def State.isJoined (s : State) (h : Nat) : Bool := match s.node h with | some n => n.state == 2 | none => false

/-- Value in ns of a domain's base, and of an air instant on TB0 there (R138). -/
def State.domainNs (s : State) (d : Nat) : Nat := s.ns (s.domainTb d)
def State.ofTb0 (s : State) (d t : Nat) : Nat := ((t : Int) + s.domainNs d - s.ns 0).toNat

/-! ### Entries (R485) -/

/-- Form A. -/
def nodeBody (handle d eui value : Nat) : Bytes := leBytes 3 handle ++ leBytes 1 d ++ leBytes 8 eui ++ leBytes 2 value

/-- An entry to a Well that the domain sets; counted in EVENT_NOWELL where none is. -/
def State.meshEntry (s : State) (d : Nat) (well : Option Nat) (type : Nat) (body : Bytes) : State :=
  match well with
  | some w => s.produce w 10 type body
  | none => s.count (.domain d .eventNowell)

/-- An entry to EVENT_WELL. -/
def State.meshEvent (s : State) (d type : Nat) (body : Bytes) : State :=
  s.meshEntry d ((s.meshDom d).cfg.bind (·.eventWell)) type body

/-- An entry to the PF0 alarm Well and the tenant's fault Well (R31). -/
def State.meshAlarm (s : State) (d type : Nat) (body : Bytes) : State :=
  let s := s.alarm 10 type body
  match s.domainTenant d with
  | some t => s.meshEntry d (s.faultWell t) type body
  | none => s

/-! ### Commands in progress (R465 to R469) -/

/-- An ACCEPTED command is forgotten, with no completion event (R38). -/
def State.forget (s : State) (f tag opcode : Nat) : State :=
  s.modMbox f fun m => { m with accepted := m.accepted.filter fun c => !(c.tag == tag && c.opcode == opcode) }

/-- Drop every frame of a command from the queues and from the border function. -/
def State.dropFrames (s : State) (fn tag : Nat) : State :=
  let keep (c : Option (Nat × Nat)) : Bool := c != some (fn, tag)
  let cut (n : NodeRec) : NodeRec :=
    if n.queue.all fun f => keep f.cmd then n else { n with queue := n.queue.filter fun f => keep f.cmd, seqNo := n.seqNo + 2 }
  { s with mesh := { s.mesh with
      nodes := s.mesh.nodes.map fun e => (e.1, e.2.map cut)
      domains := s.mesh.domains.map fun e => (e.1, { e.2 with held := e.2.held.filter fun x => keep x.cmd }) } }

/-- The final status of a NODE_SEND (R465, R468, R482): its completion event and those of its duplicates, and its command
entry done, with INTERNAL where the MGC has failed meanwhile (R23). -/
def State.endSend (s : State) (c : SendCmd) (status sub : Nat) : State :=
  let result := leBytes 1 (min c.attempts 255) ++ leBytes 1 (min c.acked 255)
  let s := { s with mesh := { s.mesh with sends := s.mesh.sends.filter fun x => !(x.fn == c.fn && x.tag == c.tag) } }
  let s := s.dropFrames c.fn c.tag
  let s := s.engineWrite c.handle fun n =>
    { n with cmds := n.cmds.map fun e =>
        if e.state = 1 ∧ e.id = c.cmdId then
          { e with state := 2, final := (if s.mgcDown c.fn then stInternal else status) % 256, attempts := min c.attempts 255 }
        else e }
  ((c.fn, c.tag) :: c.dups).foldl (fun s k => s.complete k.1 k.2 0x0807 status sub result) s

/-- The commands of a handle end with STALE_GENERATION. -/
def State.endSendsOf (s : State) (h sub : Nat) : State :=
  (s.mesh.sends.filter (·.handle == h)).foldl (fun s c => s.endSend c stStale sub) s

/-- The commands of a domain's records are forgotten at TENANT_RESET, with no completion event (R38, R469). -/
def State.forgetSends (s : State) (d : Nat) : State :=
  let mine (c : SendCmd) : Bool := match s.node c.handle with | some n => n.domain == d | none => false
  (s.mesh.sends.filter mine).foldl (fun s c =>
    let s := { s with mesh := { s.mesh with sends := s.mesh.sends.filter fun x => !(x.fn == c.fn && x.tag == c.tag) } }
    ((c.fn, c.tag) :: c.dups).foldl (fun s k => s.forget k.1 k.2 0x0807) (s.dropFrames c.fn c.tag)) s

/-- Empty the downlink queue of a node, counted in DLQ_FLUSHED by frames. -/
def State.flushNode (s : State) (d h : Nat) : State :=
  match s.node h with
  | some n => (s.engineWrite h fun n => { n with queue := [] }).count (.domain d .dlqFlushed) n.queue.length
  | none => s

/-- Every map of a node is cleared (R357). -/
def State.clearMaps (s : State) (h : Nat) : State := { s with radio := { s.radio with maps := tset {} s.radio.maps h {} } }

/-- A record is removed (R481, R442, R450, R454): its commands end, its queue is emptied, and REMOVED gives the cause. -/
def State.removeNode (s : State) (h value : Nat) : State :=
  match s.node h with
  | none => s
  | some n =>
    let s := (s.endSendsOf h 0x71).setNode h none
    let s := s.clearMaps h
    let s := { s with mesh := { s.mesh with
        reasm := s.mesh.reasm.filter fun e => e.1 / 65536 != h
        awaits := s.mesh.awaits.filter fun a => a.handle != h } }
    let s := s.modMesh n.domain fun m => { m with held := m.held.filter fun x => x.handle != some h }
    s.meshEvent n.domain 0x0A05 (nodeBody h n.domain n.eui value)

/-- Remove every record of a domain for a key advance, or for a Domain Key that is no longer VALID (R454, R500). -/
def State.removeRecords (s : State) (d : Nat) : State := (s.recordsOf d).foldl (fun s h => s.removeNode h 3) s

end Sys2Proof.Machine
end

