-- ==== Sys2Proof/Machine/Keys.lean ====
section
/-! DEFINITION. Key derivation (R492, R493), key slots and their states (R496 to R499), the crypto engines' counts and
rejections (R503 to R506), and the node-key cache (R504). -/

namespace Sys2Proof.Machine

/-- ASCII octets of a text. -/
def ascii (t : String) : Bytes := t.toList.map fun c => BitVec.ofNat 8 c.toNat

/-- KDF of R492: `n` bits under key `k`. -/
def kdf (k : Bytes) (label : String) (context : Bytes) (n : Nat) : Bytes :=
  fit (n / 8) ((List.range ((n + 127) / 128)).flatMap fun i =>
    fit 16 (Config.cmac k (leBytes 1 (i + 1) ++ ascii label ++ [0] ++ context ++ beBytes 2 n)))

/-! ### Engines -/

/-- The engine of a KIND that a draw picks among the `n` that self-test left in use (R630). -/
def State.engine (s : State) (kind n z : Nat) : Nat :=
  let l := (List.range n).filter fun i => !s.bist.unusable.contains (kind, i)
  l.getD (z % l.length) 0

/-- A job of an AES engine; which of the 32 takes it is open (log entry 3). -/
def State.aesJob (s : State) : State :=
  let d := s.draw
  d.2.count (.aesJobs (s.engine 9 32 d.1))

/-- A job of an ECC engine, with the reason of its rejection (0 none). -/
def State.eccJob (s : State) (reason : Nat) : State :=
  let d := s.draw
  let e := s.engine 10 8 d.1
  let s := d.2.count (.ecc e 0)
  if reason = 0 then s else s.count (.ecc e reason)

/-- A curve in short Weierstrass form with a = -3: field, order, b and octets of a coordinate. -/
structure Curve where
  p : Nat
  n : Nat
  b : Nat
  octets : Nat
  deriving DecidableEq, Repr

def p256 : Curve :=
  { p := 2 ^ 256 - 2 ^ 224 + 2 ^ 192 + 2 ^ 96 - 1
    n := 0xFFFFFFFF00000000FFFFFFFFFFFFFFFFBCE6FAADA7179E84F3B9CAC2FC632551
    b := 0x5AC635D8AA3A93E7B3EBBD55769886BC651D06B0CC53B0F63BCE3C3E27D2604B, octets := 32 }

def p384 : Curve :=
  { p := 2 ^ 384 - 2 ^ 128 - 2 ^ 96 + 2 ^ 32 - 1
    n := 0xFFFFFFFFFFFFFFFFFFFFFFFFFFFFFFFFFFFFFFFFFFFFFFFFC7634D81F4372DDF581A0DB248B0A77AECEC196ACCC52973
    b := 0xB3312FA7E23EE7E4988E056BE3F82D19181D9C6EFE8141120314088F5013875AC656398D8A2ED19D2A85C8EDD3EC2AEF
    octets := 48 }

/-- The reason for which a point is rejected (R506): coordinate, infinity, off the curve; 0 for none. -/
def Curve.rejects (c : Curve) (x y : Nat) : Nat :=
  if c.p ≤ x ∨ c.p ≤ y then 2
  else if x = 0 ∧ y = 0 then 3
  else if y * y % c.p = (x * x * x + (c.p - 3) * x + c.b) % c.p then 0
  else 4

/-- The same for an encoded point. -/
def Curve.pointReason (c : Curve) (b : Bytes) : Nat := c.rejects (beNat (slice b 0 c.octets)) (beNat (slice b c.octets c.octets))

/-- The reason for which a P-256 private scalar is rejected. -/
def scalarReason (k : Nat) : Nat := if k = 0 ∨ p256.n ≤ k then 1 else 0

/-- An ECDH P-256 job: the shared x-coordinate, or the reason of a rejection. -/
def ecdhP256 (k : Nat) (point : Bytes) : Nat × Bytes :=
  let a := scalarReason k
  let b := p256.pointReason point
  let z := fit 32 (Config.ecdh256 (beBytes 32 k) point)
  if a ≠ 0 then (a, []) else if b ≠ 0 then (b, []) else (0, z)

/-- An X25519 job (R506): reason 2 for u at or above 2^255 - 19, reason 5 for a result of zeros. -/
def x25519Job (scalar u : Bytes) : Nat × Bytes :=
  let v := leNat (fit 32 u) % 2 ^ 255
  let z := fit 32 (Config.x25519 scalar u)
  if 2 ^ 255 - 19 ≤ v then (2, []) else if z.all (· == 0) then (5, []) else (0, z)

/-- An ECDSA P-384 verification of a digest under a stored public key: reason 0 or 6. -/
def ecdsaP384 (key digest sig : Bytes) : Nat :=
  let r := beNat (slice sig 0 48)
  let t := beNat (slice sig 48 48)
  if r = 0 ∨ p384.n ≤ r ∨ t = 0 ∨ p384.n ≤ t then 6 else if Config.verify384 key digest sig then 0 else 6

/-- An X25519 scalar clamped as RFC 7748 states. -/
def clamp25519 (k : Bytes) : Bytes :=
  let b := fit 32 k
  leBytes 1 (byteAt b 0 / 8 * 8) ++ (b.drop 1).take 30 ++ leBytes 1 (byteAt b 31 % 64 + 64)

/-! ### Keys of the store (R493), and the record of a slot (R497) -/

/-- The Measured Root under a measurement digest. -/
def measuredRoot (digest : Bytes) : Bytes := kdf Config.deviceRoot "MR" digest 256

/-- The wrap key KW and the guard key KG of a Measured Root, and the wrap key of a slot under its parent's Tenant Root. -/
def wrapKey (mr : Bytes) : Bytes := kdf mr "WRAP" [] 256
def guardKey (mr : Bytes) : Bytes := kdf mr "GUARD" [] 256
def childWrapKey (root : Bytes) (n : Nat) : Bytes := kdf root "WRAP" (leBytes 2 n) 256

/-- AES-256 in CTR mode over the six blocks of a slot's value, with the counter blocks of R497: it wraps and unwraps. -/
def slotCtr (key : Bytes) (n gen : Nat) (v : Bytes) : Bytes :=
  (List.range 6).flatMap fun j =>
    List.zipWith (· ^^^ ·) (slice v (16 * j) 16)
      (fit 16 (Config.aes256 key (leBytes 2 n ++ leBytes 4 gen ++ List.replicate 9 0 ++ leBytes 1 j)))

/-! ### Slots -/

def State.keySlot (s : State) (n : Nat) : KeySlot := tget {} s.nv.keys.slots n

def State.setSlot (s : State) (n : Nat) (x : KeySlot) : State :=
  { s with nv := { s.nv with keys := { s.nv.keys with slots := tset {} s.nv.keys.slots n x } } }

/-- WRAPPED of the value of a slot: under KW of a digest for a Tenant Root, else under the slot's child wrap key. -/
def State.wrap (s : State) (digest : Bytes) (n : Nat) (x : KeySlot) : Bytes :=
  let key := if x.parent = 0xFFF then wrapKey (measuredRoot digest) else childWrapKey (s.keySlot x.parent).value n
  slotCtr key n x.gen (fit 96 x.value)

/-- A slot is written with a value, wrapped as the store now wraps. -/
def State.putKey (s : State) (n : Nat) (x : KeySlot) : State :=
  s.setSlot n { x with wrapped := s.wrap s.nv.keys.wrapDigest n x }

/-- The 128 bytes that hold a slot (R497): bytes 0-111, and the TAG over them and the slot number under KG. -/
def State.slotRecord (s : State) (n : Nat) : Bytes :=
  let x := s.keySlot n
  let b := leBytes 1 (x.kind + 128 * b2n x.unusable) ++ leBytes 1 x.owner ++ leBytes 2 x.parent ++ leBytes 4 x.gen ++
    leBytes 4 x.parentGen ++ leBytes 4 0 ++ fit 96 x.wrapped
  b ++ fit 16 (if x.tagOk then Config.cmac (guardKey (measuredRoot s.nv.keys.wrapDigest)) (b ++ leBytes 2 n)
    else Config.brokenTag n x.gen)

/-- A key-store bank has failed and no spare serves its 1,024 slots (R630; log entry 60). -/
def State.bankLost (s : State) (b : Nat) : Bool :=
  s.bist.unusable.contains (8, b) && !s.bist.spared.any fun x => x.1 == 8 && x.2.1 == b

/-- The four states of R499: 0 EMPTY, 1 VALID, 2 ORPHANED, 3 UNUSABLE. -/
def State.slotState (s : State) (n : Nat) : Nat :=
  let x := s.keySlot n
  if s.bankLost (n / 1024) then 3
  else if x.kind = 0 then 0
  else if x.unusable then 3
  else if x.kind = 1 then 1
  else
    let p := s.keySlot x.parent
    if p.kind = 1 ∧ !p.unusable ∧ !s.bankLost (x.parent / 1024) ∧ p.gen = x.parentGen then 1 else 2

/-- SLOT_UNUSABLE, SLOTS_ORPHANED and the like (R527), to the security Well and, of a slot, to its owner's fault Well. -/
def State.securityEntry (s : State) (type slot kind owner value : Nat) (flags : Nat := 0) : State :=
  let body := leBytes 2 slot ++ leBytes 1 kind ++ leBytes 1 owner ++ leBytes 1 flags ++ [0] ++ leBytes 8 value
  let s := s.produce 3 4 type body
  if (type = 0x0401 ∨ type = 0x0402) ∧ owner < 16 then s.toFaultWell owner 4 type body else s

/-- The entry for the slots under parent `p` that have been lost. -/
def State.tellLost (lost : List Nat) (s : State) (p : Nat) : State :=
  let k := (lost.filter fun n => (s.keySlot n).parent == p).length
  if k = 0 then s else s.securityEntry 0x0402 p 1 p k

/-- The records of a domain go with its key. -/
def State.dropLost (old s : State) (d : Nat) : State :=
  if old.slotState (32 + d) = 1 ∧ s.slotState (32 + d) ≠ 1 then s.removeRecords d else s

/-- The parent of every slot other than a Tenant Root is its owner's Tenant Root (R499). What a change of the store from
`old` orphans is reported per parent, and a domain whose Domain Key leaves VALID loses its records (R499, R500). -/
def State.settleKeys (old s : State) : State :=
  let lost := (old.nv.keys.slots.map (·.1)).filter fun n => old.slotState n == 1 && s.slotState n == 2
  (List.range 64).foldl (State.dropLost old) ((List.range 16).foldl (State.tellLost lost) s)

/-- A slot whose tag fails is marked UNUSABLE at once, and the mark is committed (R498). -/
def State.markUnusable (s : State) (n : Nat) : State :=
  let x := s.keySlot n
  let t := s.setSlot n { x with unusable := true }
  let st : KeyStage := { op := .mark n, reply := none }
  let t := { t with nv := { t.nv with keys := { t.nv.keys with staged := t.nv.keys.staged ++ [st] } } }
  s.settleKeys (t.securityEntry 0x0401 n x.kind x.owner 0)

/-- A read of a slot for use (R498, R499): its value when it is VALID and its tag verifies. -/
def State.useSlot (s : State) (n : Nat) : State × Option KeySlot :=
  if s.slotState n ≠ 1 then (s, none)
  else if (s.keySlot n).tagOk then (s, some (s.keySlot n))
  else (s.markUnusable n, none)

/-! ### Derived keys (R493) -/

/-- The Domain Key of a domain: derived from a Tenant Root and the GEN of slot 32 + d. -/
def deriveDomainKey (root : Bytes) (d gen : Nat) : Bytes := kdf root "DOMAIN" (leBytes 1 d ++ leBytes 4 gen) 128

/-- The domain's join private scalar. -/
def joinScalar (dk : Bytes) : Nat := beNat (kdf dk "JOIN" [] 320) % (p256.n - 1) + 1

/-- The node key of an EUI-64 and the broadcast key, at an epoch. -/
def deriveNodeKey (dk : Bytes) (eui epoch : Nat) : Bytes := kdf dk "NODE" (leBytes 8 eui ++ leBytes 4 epoch) 128
def deriveBcastKey (dk : Bytes) (epoch : Nat) : Bytes := kdf dk "BCAST" (leBytes 4 epoch) 128

/-- The node join key. -/
def deriveJoinKey (tjk : Bytes) (eui : Nat) : Bytes := kdf tjk "JK" (leBytes 8 eui) 128

/-- The import scalar of a tenant. -/
def importScalar (root : Bytes) (t : Nat) : Bytes := clamp25519 (kdf root "IMPORT" (leBytes 1 t) 256)

/-- KEY_EPOCH and LEASE_END of a domain, and the key index on air (R454). -/
def State.lease (s : State) (d : Nat) : Lease := tget {} s.nv.leases d
def keyIndexOf (epoch : Nat) : Nat := epoch % 255 + 1

/-- KEY_EPOCH of a domain: that of an advance from the instant at which it is staged (R454). -/
def State.epochOfDomain (s : State) (d : Nat) : Nat :=
  match (tget {} s.mesh.domains d : MeshDomain).nextEpoch with
  | some e => e
  | none => (s.lease d).epoch

def State.keyIndex (s : State) (d : Nat) : Nat := keyIndexOf (s.epochOfDomain d)

/-- Keep the first `n` entries of a tenant in the node-key cache. -/
def trimCache (t : Nat) : Nat → List (Nat × Nat × Nat × Nat) → List (Nat × Nat × Nat × Nat)
  | _, [] => []
  | n, e :: l =>
    if e.2.2.2 ≠ t then e :: trimCache t n l
    else match n with
      | 0 => trimCache t 0 l
      | m + 1 => e :: trimCache t m l

/-- Look a node key up in the cache (R504): a hit or a miss is counted, and the entry becomes the most recent. -/
def State.touchCache (s : State) (t d eui epoch : Nat) : State :=
  let e := (d, eui, epoch, t)
  let hit := s.mesh.cache.contains e
  let s := s.count (.nkCache t (!hit))
  { s with mesh := { s.mesh with cache := trimCache t (s.mesh.cacheShares.getD t 0) (e :: s.mesh.cache.filter (· != e)) } }

/-- The node key for an EUI-64 of a domain under the current epoch; none while the Domain Key is not VALID (R500). -/
def State.nodeKey (s : State) (d eui : Nat) : State × Option Bytes :=
  let u := s.useSlot (32 + d)
  match u.2, s.domainTenant d with
  | some k, some t =>
    let epoch := s.epochOfDomain d
    (u.1.touchCache t d eui epoch, some (deriveNodeKey k.value eui epoch))
  | _, _ => (u.1, none)

/-- The broadcast key of a domain. -/
def State.bcastKey (s : State) (d : Nat) : State × Option Bytes :=
  let u := s.useSlot (32 + d)
  (u.1, u.2.map fun k => deriveBcastKey k.value (s.epochOfDomain d))

/-- The schedule-signing key that an image names (R507). -/
def State.signingKey (s : State) (slot tenant : Nat) : State × Option Bytes :=
  let u := s.useSlot slot
  (u.1, match u.2 with
    | some k => if k.kind = 5 ∧ k.owner = tenant then some k.value else none
    | none => none)

end Sys2Proof.Machine
end

