-- ==== Sys2Proof/Machine/Lowpan.lean ====
section
/-! DEFINITION. The octets of the mesh: IEEE 802.15.4 MAC frames and their information elements, node addresses (R439),
header compression and fragments (R461, R462, R464; RFC 6282, RFC 4944, RFC 6554). -/

namespace Sys2Proof.Machine

/-! ### MAC frames -/

/-- FCS of two octets: the CRC of ITU-T with polynomial x^16 + x^12 + x^5 + 1, lowest order bit first. -/
def crc16 (b : Bytes) : Nat := b.foldl (crcByte 0x8408) 0

/-- A MAC frame as parsed, less its FCS. -/
structure MacFrame where
  ftype : Nat
  secured : Bool
  ackReq : Bool
  ies : Bool
  pan : Option Nat
  /-- Addresses: extended or not, and the value. -/
  dst : Option (Bool × Nat)
  src : Option (Bool × Nat)
  level : Nat
  keyMode : Nat
  counter : Nat
  keyIndex : Nat
  /-- Octets before the part that security covers. -/
  header : Bytes
  /-- Header IEs by element ID. -/
  hies : List (Nat × Bytes)
  /-- Payload IEs come first in the rest. -/
  payloadIes : Bool
  rest : Bytes
  deriving DecidableEq, Repr

/-- Octets of an address of a mode: 2 short, 3 extended. -/
def addrLen (mode : Nat) : Nat := if mode = 2 then 2 else if mode = 3 then 8 else 0

/-- Whether the destination and the source PAN ID are present, by the modes and PAN ID Compression of frame version 2. -/
def panPresent (dm sm : Nat) (comp : Bool) : Bool × Bool :=
  if dm = 0 then (sm = 0 && comp, sm != 0 && !comp)
  else if sm = 0 then (!comp, false)
  else if dm = 3 && sm = 3 then (!comp, false)
  else (true, !comp)

/-- Header IEs up to a termination: the list, whether payload IEs follow, and the octets used. -/
def headerIes : Nat → Bytes → Option (List (Nat × Bytes) × Bool × Nat)
  | 0, _ => none
  | n + 1, b =>
    if b.length < 2 then (if b.isEmpty then some ([], false, 0) else none)
    else
      let w := leAt b 0 2
      let len := w % 128
      let id := w / 128 % 256
      if bit w 15 || decide (b.length < 2 + len) then none
      else if id = 0x7E then some ([], true, 2 + len)
      else if id = 0x7F then some ([], false, 2 + len)
      else match headerIes n (b.drop (2 + len)) with
        | some (l, p, k) => some ((id, slice b 2 len) :: l, p, 2 + len + k)
        | none => none

/-- Parse a frame of version 2 without FCS. -/
def parseMac (b : Bytes) : Option MacFrame :=
  let fcf := leAt b 0 2
  let dm := bits fcf 10 2
  let sm := bits fcf 14 2
  let noSeq := bit fcf 8
  let pan := panPresent dm sm (bit fcf 6)
  let o1 := if noSeq then 2 else 3
  let o2 := o1 + (if pan.1 then 2 else 0)
  let o3 := o2 + addrLen dm
  let o4 := o3 + (if pan.2 then 2 else 0)
  let o5 := o4 + addrLen sm
  let sec := bit fcf 3
  let sc := byteAt b o5
  let kim := sc / 8 % 4
  let keyLen := if kim = 0 then 0 else if kim = 1 then 1 else if kim = 2 then 5 else 9
  let o6 := if sec then o5 + 5 + keyLen else o5
  if bits fcf 12 2 != 2 || dm == 1 || sm == 1 || decide (b.length < o6) then none
  else
    let iesOf := if bit fcf 9 then headerIes 32 (b.drop o6) else some ([], false, 0)
    iesOf.map fun h =>
      { ftype := fcf % 8, secured := sec, ackReq := bit fcf 5, ies := bit fcf 9
        pan := if pan.1 then some (leAt b o1 2) else if pan.2 then some (leAt b o3 2) else none
        dst := if dm = 0 then none else some (dm == 3, leAt b o2 (addrLen dm))
        src := if sm = 0 then none else some (sm == 3, leAt b o4 (addrLen sm))
        level := if sec then sc % 8 else 0, keyMode := kim, counter := leAt b (o5 + 1) 4, keyIndex := byteAt b (o5 + 5)
        header := b.take (o6 + h.2.2), hies := h.1, payloadIes := h.2.1, rest := b.drop (o6 + h.2.2) }

/-- Payload IEs of the octets they begin: group and content; and what follows their termination or end. -/
def payloadIes : Nat → Bytes → Option (List (Nat × Bytes) × Bytes)
  | 0, _ => none
  | n + 1, b =>
    if b.isEmpty then some ([], [])
    else if b.length < 2 then none
    else
      let w := leAt b 0 2
      let len := w % 2048
      let g := w / 2048 % 16
      if !bit w 15 || decide (b.length < 2 + len) then none
      else if g = 15 then some ([], b.drop (2 + len))
      else match payloadIes n (b.drop (2 + len)) with
        | some (l, r) => some ((g, slice b 2 len) :: l, r)
        | none => none

/-- The identifier that begins every Vendor Specific IE of the device's own protocol (R360). -/
def vendorId : Bytes := [0x02, 0x43, 0x56]

/-- Contents of the device's own IEs of a list, by SUBTYPE. -/
def vendorIes (l : List (Nat × Bytes)) (sub : Nat) : List Bytes :=
  (l.filter fun e => e.1 == 2 && e.2.take 3 == vendorId && byteAt e.2 3 == sub && decide (4 ≤ e.2.length)).map (·.2)

/-- A payload IE. -/
def payloadIe (group : Nat) (content : Bytes) : Bytes := leBytes 2 (content.length + 2048 * group + 32768) ++ content

/-- A Vendor Specific Payload IE of the device's own protocol: SUBTYPE and what follows it. -/
def vendorIe (sub : Nat) (body : Bytes) : Bytes := payloadIe 2 (vendorId ++ leBytes 1 sub ++ body)

/-- Termination IE of the header, before payload IEs. -/
def headerEnd1 : Bytes := [0x00, 0x3F]

/-- Termination IE of the payload IEs. -/
def payloadEnd : Bytes := [0x00, 0xF8]

/-- Frame control of a version 2 frame with PAN ID Compression. -/
def fcfOf (ftype : Nat) (sec ar comp ie : Bool) (dm sm : Nat) : Bytes :=
  leBytes 2 (ftype + 8 * b2n sec + 32 * b2n ar + 64 * b2n comp + 512 * b2n ie + 1024 * dm + 8192 + 16384 * sm)

/-- The device's short address in every domain (R439). -/
def deviceShort : Nat := 0xFFFD

/-- MHR of a secured frame from the device: to a short address, security level 6, key identifier mode 1 (R453). -/
def securedHeader (ftype seq pan dst counter keyIndex : Nat) (ar ies : Bool) : Bytes :=
  fcfOf ftype true ar true ies 2 2 ++ leBytes 1 seq ++ leBytes 2 pan ++ leBytes 2 dst ++ leBytes 2 deviceShort ++
    [0x0E] ++ leBytes 4 counter ++ leBytes 1 keyIndex ++ (if ies then headerEnd1 else [])

/-- An unsecured data frame from the device to an EUI-64, with one IE (R449). -/
def joinFrame (seq pan eui : Nat) (ie : Bytes) : Bytes :=
  fcfOf 1 false false true true 3 2 ++ leBytes 1 seq ++ leBytes 2 pan ++ leBytes 8 eui ++ leBytes 2 deviceShort ++
    headerEnd1 ++ ie

/-- The CCM* nonce (R453): EUI-64 of the sender, frame counter, security level. -/
def ccmNonce (eui counter level : Nat) : Bytes := beBytes 8 eui ++ beBytes 4 counter ++ leBytes 1 level

/-! ### Addresses -/

/-- Interface identifier of a short address (R439). -/
def shortIid (a : Nat) : Bytes := [0, 0, 0, 0xFF, 0xFE, 0] ++ beBytes 2 a

/-- Interface identifier of a MAC address: a short one, or the modified EUI-64. -/
def macIid (a : Bool × Nat) : Bytes :=
  if a.1 then
    let b := beBytes 8 a.2
    leBytes 1 (byteAt b 0 ^^^ 2) ++ b.drop 1
  else shortIid a.2

/-- An address of the domain. -/
def domainAddr (pfx a : Nat) : Bytes := beBytes 8 pfx ++ shortIid a

/-- The short address that an address of the domain names. -/
def shortOf (pfx : Nat) (a : Bytes) : Option Nat :=
  if a.take 8 == beBytes 8 pfx && (a.drop 8).take 6 == [0, 0, 0, 0xFF, 0xFE, 0] then some (beAt a 14 2) else none

/-- The link-local prefix of 64 bits. -/
def linkLocal64 : Bytes := [0xFE, 0x80, 0, 0, 0, 0, 0, 0]

/-- fe80::/10. -/
def isLinkLocal (a : Bytes) : Bool := byteAt a 0 == 0xFE && byteAt a 1 / 64 == 2

/-! ### Compression (R462) -/

/-- AC, AM and the octets in line of a unicast address. -/
def packAddr (pfx mac : Nat) (a : Bytes) : Nat × Nat × Bytes :=
  let ctx := a.take 8 == beBytes 8 pfx
  let iid := a.drop 8
  if ctx || a.take 8 == linkLocal64 then
    if iid == shortIid mac then (b2n ctx, 3, [])
    else if iid.take 6 == [0, 0, 0, 0xFF, 0xFE, 0] then (b2n ctx, 2, iid.drop 6)
    else (b2n ctx, 1, iid)
  else (0, 0, a)

/-- M, DAC, DAM and the octets in line of a destination. -/
def packDst (pfx mac : Nat) (a : Bytes) : Nat × Nat × Nat × Bytes :=
  if byteAt a 0 = 0xFF then
    if byteAt a 1 = 2 && rangeZero a 2 14 then (1, 0, 3, a.drop 15)
    else if rangeZero a 2 12 then (1, 0, 2, (a.drop 1).take 1 ++ a.drop 13)
    else if rangeZero a 2 10 then (1, 0, 1, (a.drop 1).take 1 ++ a.drop 11)
    else (1, 0, 0, a)
  else (0, packAddr pfx mac a)

/-- The IPHC octets of an IPv6 header; `nhc` when the next header is compressed too. -/
def packIp (pfx src dst : Nat) (nhc : Bool) (h : Bytes) : Bytes :=
  let w := beAt h 0 4
  let tc := w / 2 ^ 20 % 256
  let fl := w % 2 ^ 20
  let tc' := tc % 4 * 64 + tc / 4
  let tf := if tc = 0 && fl = 0 then (3, []) else if fl = 0 then (2, leBytes 1 tc')
    else if tc / 4 = 0 then (1, beBytes 3 (tc % 4 * 2 ^ 22 + fl)) else (0, beBytes 4 (tc' * 2 ^ 24 + fl))
  let hl := byteAt h 7
  let hlim := if hl = 1 then 1 else if hl = 64 then 2 else if hl = 255 then 3 else 0
  let sa := (h.drop 8).take 16
  let s := if sa.all (· == 0) then (1, 0, []) else packAddr pfx src sa
  let d := packDst pfx dst ((h.drop 24).take 16)
  leBytes 1 (96 + 8 * tf.1 + 4 * b2n nhc + hlim) ++
    leBytes 1 (64 * s.1 + 16 * s.2.1 + 8 * d.1 + 4 * d.2.1 + d.2.2.1) ++ tf.2 ++
    (if nhc then [] else (h.drop 6).take 1) ++ (if hlim = 0 then leBytes 1 hl else []) ++ s.2.2 ++ d.2.2.2

/-- UDP NHC: ports, checksum in line. -/
def packUdp (h : Bytes) : Bytes :=
  let s := beAt h 0 2
  let d := beAt h 2 2
  let p := if s / 16 = 0xF0B && d / 16 = 0xF0B then (3, leBytes 1 (s % 16 * 16 + d % 16))
    else if s / 256 = 0xF0 then (2, leBytes 1 s ++ beBytes 2 d)
    else if d / 256 = 0xF0 then (1, beBytes 2 s ++ leBytes 1 d) else (0, beBytes 2 s ++ beBytes 2 d)
  leBytes 1 (0xF0 + p.1) ++ p.2 ++ (h.drop 6).take 2

/-- Compressed headers of a packet, the octets of header that they stand for, and the rest. -/
def packPacket (pfx src dst : Nat) (b : Bytes) : Bytes × Nat × Bytes :=
  let udp := byteAt b 6 == 17 && decide (48 ≤ b.length) && beAt b 44 2 == b.length - 40
  if udp then (packIp pfx src dst true b ++ packUdp (b.drop 40), 48, b.drop 48) else (packIp pfx src dst false b, 40, b.drop 40)

/-- The outer header of an encapsulated packet (R461): fixed words, and its addresses. -/
def outerHeader (pfx first tc fl : Nat) : Bytes :=
  beBytes 4 (6 * 2 ^ 28 + tc * 2 ^ 20 + fl) ++ [0, 0, 43, 64] ++ domainAddr pfx deviceShort ++ domainAddr pfx first

/-- Compressed form of a packet in an outer header with an RFC 6554 routing header over `hops` (short addresses of HOP 0
on) to `dst`; its third part is what follows the headers. -/
def packRouted (pfx : Nat) (hops : List Nat) (dst tc fl : Nat) (b : Bytes) : Bytes × Nat × Bytes :=
  let first := hops.headD 0
  let list := hops.drop 1 ++ [dst]
  let inner := packPacket pfx deviceShort first b
  let routing := [3] ++ leBytes 1 hops.length ++ [0xEE, 0, 0, 0] ++ list.flatMap (beBytes 2)
  (packIp pfx deviceShort first true (outerHeader pfx first tc fl) ++ [0xE3] ++ leBytes 1 routing.length ++ routing ++
      [0xEE] ++ inner.1, 42 + routing.length + inner.2.1, inner.2.2)

/-! ### Fragments (RFC 4944) -/

/-- The FRAGN frames of what is left, from octet `off` of the packet. -/
def fragRest (limit size tag : Nat) : Nat → Nat → Bytes → List Bytes
  | 0, _, _ => []
  | n + 1, off, b =>
    if b.isEmpty then []
    else
      let k := if b.length + 5 ≤ limit then b.length else (limit - 5) / 8 * 8
      (beBytes 2 (0xE000 + size) ++ beBytes 2 tag ++ leBytes 1 (off / 8) ++ b.take k) ::
        fragRest limit size tag n (off + k) (b.drop k)

/-- MAC payloads of a compressed packet: one, or FRAG1 and FRAGN of at most `limit` octets. `size` is DATAGRAM_SIZE. Compressed headers
go whole into FRAG1, which ends at a multiple of eight octets of the packet, even where they leave no room (log entry 36). -/
def fragments (limit size tag : Nat) (c : Bytes × Nat × Bytes) : List Bytes :=
  if c.1.length + c.2.2.length ≤ limit then [c.1 ++ c.2.2]
  else
    let room := limit - 4 - c.1.length
    let full := (c.2.1 + room) / 8 * 8
    let k := if c.2.1 ≤ full then full - c.2.1 else (c.2.1 + 7) / 8 * 8 - c.2.1
    (beBytes 2 (0xC000 + size) ++ beBytes 2 tag ++ c.1 ++ c.2.2.take k) ::
      fragRest limit size tag c.2.2.length (c.2.1 + k) (c.2.2.drop k)

/-! ### Decompression (R464) -/

/-- An address from its mode: whether context or link-local prefix, the octets in line, and the elided identifier. -/
def unpackAddr (pfx : Nat) (ac am : Nat) (iid : Bytes) (b : Bytes) : Option (Bytes × Bytes) :=
  let p := if ac = 1 then beBytes 8 pfx else linkLocal64
  let n := if am = 0 then (if ac = 1 then 0 else 16) else if am = 1 then 8 else if am = 2 then 2 else 0
  if b.length < n then none
  else
    let x := b.take n
    some (if am = 0 then (if ac = 1 then List.replicate 16 0 else x)
      else if am = 1 then p ++ x else if am = 2 then p ++ [0, 0, 0, 0xFF, 0xFE, 0] ++ x else p ++ iid, b.drop n)

/-- A multicast destination. -/
def unpackMcast (pfx dac dam : Nat) (b : Bytes) : Option (Bytes × Bytes) :=
  let n := if dac = 1 then 6 else if dam = 0 then 16 else if dam = 1 then 6 else if dam = 2 then 4 else 1
  let z (k : Nat) : Bytes := List.replicate k 0
  if decide (b.length < n) || (dac == 1 && dam != 0) then none
  else
    let x := b.take n
    some (if dac = 1 then [0xFF] ++ x.take 2 ++ [64] ++ beBytes 8 pfx ++ x.drop 2
      else if dam = 0 then x
      else if dam = 1 then [0xFF] ++ x.take 1 ++ z 9 ++ x.drop 1
      else if dam = 2 then [0xFF] ++ x.take 1 ++ z 11 ++ x.drop 1
      else [0xFF, 2] ++ z 13 ++ x, b.drop n)

/-- Decompress the headers at the front of a string: `ip` an IPHC header, else an NHC header. The answer is the next
header value that names them, their octets with lengths for a packet of which `left` octets follow their first octet,
and what follows them. -/
def unpack (pfx : Nat) (src dst : Bytes) : Nat → Bool → Nat → Bytes → Option (Nat × Bytes × Bytes)
  | 0, _, _, _ => none
  | n + 1, true, left, b =>
    let b0 := byteAt b 0
    let b1 := byteAt b 1
    let cid := bit b1 7
    let tf := b0 / 8 % 4
    let o1 := if cid then 3 else 2
    let tfLen := if tf = 0 then 4 else if tf = 1 then 3 else if tf = 2 then 1 else 0
    let nhc := bit b0 2
    let o2 := o1 + tfLen
    let o3 := o2 + (if nhc then 0 else 1)
    let hl := b0 % 4
    let o4 := o3 + (if hl = 0 then 1 else 0)
    if b0 / 32 != 3 || decide (b.length < o4) || (cid && byteAt b 2 != 0) then none
    else
      let x := byteAt b o1
      let tc := if tf = 3 then 0 else if tf = 1 then x / 64 else x % 64 * 4 + x / 64
      let fl := if tf = 0 then beAt b (o1 + 1) 3 % 2 ^ 20 else if tf = 1 then beAt b o1 3 % 2 ^ 20 else 0
      let hop := if hl = 0 then byteAt b o3 else if hl = 1 then 1 else if hl = 2 then 64 else 255
      match unpackAddr pfx (b1 / 64 % 2) (b1 / 16 % 4) src (b.drop o4) with
      | none => none
      | some (sa, r1) =>
        let da := if bit b1 3 then unpackMcast pfx (b1 / 4 % 2) (b1 % 4) r1
          else if b1 / 4 % 2 = 1 && b1 % 4 = 0 then none else unpackAddr pfx (b1 / 4 % 2) (b1 % 4) dst r1
        match da with
        | none => none
        | some (da, r2) =>
          let more := if nhc then unpack pfx src dst n false (left - 40) r2 else some (byteAt b o2, [], r2)
          more.map fun m =>
            (41, beBytes 4 (6 * 2 ^ 28 + tc * 2 ^ 20 + fl) ++ beBytes 2 (left - 40) ++ leBytes 1 m.1 ++ leBytes 1 hop ++ sa ++ da ++
              m.2.1, m.2.2)
  | n + 1, false, left, b =>
    let x := byteAt b 0
    if b.isEmpty then none
    else if x / 8 = 30 then
      let p := x % 4
      let ports := if p = 0 then (beAt b 1 2, beAt b 3 2, 4) else if p = 1 then (beAt b 1 2, 0xF000 + byteAt b 3, 3)
        else if p = 2 then (0xF000 + byteAt b 1, beAt b 2 2, 3) else (0xF0B0 + byteAt b 1 / 16, 0xF0B0 + byteAt b 1 % 16, 1)
      let o := 1 + ports.2.2
      -- a checksum that is elided needs what no context of the device gives
      if bit x 2 || decide (b.length < o + 2) then none
      else some (17, beBytes 2 ports.1 ++ beBytes 2 ports.2.1 ++ beBytes 2 left ++ slice b o 2, b.drop (o + 2))
    else if x / 16 = 14 then
      let eid := x / 2 % 8
      if eid = 7 then (if x % 2 = 1 then none else unpack pfx src dst n true left (b.drop 1))
      else
        let nh := if eid = 0 then 0 else if eid = 1 then 43 else if eid = 2 then 44 else if eid = 3 then 60 else 135
        let o := if x % 2 = 1 then 1 else 2
        let len := byteAt b o
        let data := slice b (o + 1) len
        let pad := (8 - (2 + len) % 8) % 8
        let tail : Bytes := if pad = 0 then [] else if pad = 1 then [0] else [1] ++ leBytes 1 (pad - 2) ++ List.replicate (pad - 2) 0
        let size := 2 + len + pad
        if eid == 5 || eid == 6 || decide (b.length < o + 1 + len) then none
        else
          let r := b.drop (o + 1 + len)
          let more := if x % 2 = 1 then unpack pfx src dst n false (left - size) r else some (byteAt b 1, [], r)
          more.map fun m => (nh, leBytes 1 m.1 ++ leBytes 1 (size / 8 - 1) ++ data ++ tail ++ m.2.1, m.2.2)
    else none

/-- The front of a packet, with lengths for a packet of `size` octets in all (none: as long as what is there). -/
def unpackFront (pfx : Nat) (src dst : Bytes) (size : Option Nat) (b : Bytes) : Option Bytes :=
  if byteAt b 0 = 0x41 then some (b.drop 1)
  else
    match unpack pfx src dst 12 true 0 b with
    | none => none
    | some (_, h, r) =>
      let total := size.getD (h.length + r.length)
      (unpack pfx src dst 12 true total b).map fun m => m.2.1 ++ m.2.2

end Sys2Proof.Machine
end

