-- ==== Sys2Proof/Machine/Mesh.lean ====
section
/-! DEFINITION. Epochs and outbound counters, downlink queues and the border function's way down (R453 to R456, R460 to
R467), what becomes of a frame, distributions (R470 to R473) and the record as the host reads it (R440). -/

namespace Sys2Proof.Machine

/-! ### Epochs and outbound counters (R454, R456) -/

/-- Stage a lease record. -/
def State.stageLease (s : State) (l : List (Nat × Lease)) : State :=
  { s with nv := { s.nv with staged := s.nv.staged ++ [.lease l] } }

/-- KEY_ADVANCED (form K). -/
def advanceBody (d epoch cause : Nat) : Bytes :=
  [0, 0, 0] ++ leBytes 1 d ++ leBytes 4 epoch ++ leBytes 1 (keyIndexOf epoch) ++ leBytes 1 cause

/-- The epoch of a domain advances by one (R454): the records go, and the new epoch is staged with a fresh lease. -/
def State.advanceEpoch (s : State) (d cause : Nat) : State :=
  let e := (s.epochOfDomain d + 1) % 2 ^ 32
  let s := s.removeRecords d
  let s := { s with mesh := { s.mesh with cache := s.mesh.cache.filter fun x => x.1 != d } }
  let s := s.modMesh d fun m =>
    { m with nextEpoch := some e, leaseStaged := true, held := m.held.filter fun x => x.handle.isNone }
  (s.meshAlarm d 0x0A08 (advanceBody d e cause)).stageLease [(d, { epoch := e, leaseEnd := 65536 })]

/-- Highest LEASE_END: the counter 0xFFFF_FFFE is the last one used (log entry 47). -/
def leaseTop : Nat := 0xFFFFFFFF

/-- Stage the next lease when none is staged. -/
def State.wantLease (s : State) (d : Nat) : State :=
  let l := s.lease d
  if (s.meshDom d).leaseStaged || decide (leaseTop ≤ l.leaseEnd) then s
  else (s.modMesh d fun m => { m with leaseStaged := true }).stageLease
    [(d, { epoch := l.epoch, leaseEnd := min (l.leaseEnd + 65536) leaseTop })]

/-- Where the outbound counter stops: LEASE_END, in a pair the lower of the two devices (R456, R554). -/
def State.leaseLimit (s : State) (d : Nat) : Nat :=
  match if s.paired then tget none s.pair.peerLease d else none with
  | some p => min (s.lease d).leaseEnd p
  | none => (s.lease d).leaseEnd

/-- Take the next outbound counter; none while it stands at LEASE_END, or while an advance is not yet committed. -/
def State.takeCounter (s : State) (d : Nat) : State × Option Nat :=
  let m := s.meshDom d
  let l := s.lease d
  if m.nextEpoch.isSome then (s, none)
  else if 0xFFFFFFFE < m.outCounter then (s.advanceEpoch d 3, none)
  else if s.leaseLimit d ≤ m.outCounter then (if l.leaseEnd ≤ m.outCounter then s.wantLease d else s, none)
  else
    let s := s.modMesh d fun m => { m with outCounter := m.outCounter + 1 }
    (if l.leaseEnd - (m.outCounter + 1) < 16384 then s.wantLease d else s, some m.outCounter)

/-! ### Building frames (R453, R462) -/

/-- The next MAC sequence number of a domain. -/
def State.nextSeq (s : State) (d : Nat) : State × Nat :=
  (s.modMesh d fun m => { m with macSeq := (m.macSeq + 1) % 256 }, (s.meshDom d).macSeq)

/-- A frame number of the downlink frame store. -/
def State.newFrame (s : State) : State × Nat :=
  ({ s with mesh := { s.mesh with nextFrame := s.mesh.nextFrame + 1 } }, s.mesh.nextFrame)

def State.newPacket (s : State) : State × Nat :=
  ({ s with mesh := { s.mesh with nextPacket := s.mesh.nextPacket + 1 } }, s.mesh.nextPacket)

/-- A secured frame of the device under a key and counter. -/
def State.secured (s : State) (d : Nat) (c : DomainCfg) (key : Bytes) (counter ftype dst : Nat) (ar ies : Bool)
    (payload : Bytes) : State × Bytes :=
  let q := s.nextSeq d
  let h := securedHeader ftype q.2 c.panId dst counter (s.keyIndex d) ar ies
  (q.1.aesJob, h ++ Config.ccmSeal 8 key (ccmNonce c.deviceEui counter 6) h payload)

/-- Build a frame and queue it; false when it must wait for a counter. A frame whose node, key or configuration is gone is
dropped. -/
def State.buildFrame (s : State) (d : Nat) (x : Held) : State × Bool :=
  match (s.meshDom d).cfg with
  | none => (s, true)
  | some c =>
    let k := match x.handle with
      | some h => (match s.node h with | some n => s.nodeKey d n.eui | none => (s, none))
      | none => s.bcastKey d
    match k.2 with
    | none => (k.1, true)
    | some key =>
      let t := k.1.takeCounter d
      match t.2 with
      | none => (t.1, match x.handle with | some h => (t.1.node h).isNone | none => false)
      | some n =>
        let dst := match x.handle with | some h => t.1.shortAddr d h | none => 0xFFFF
        let f := t.1.secured d c key n 1 dst x.handle.isSome x.ies x.payload
        let id := f.1.newFrame
        let fr : DlFrame := { id := id.2, mpdu := f.2, packet := x.packet, cmd := x.cmd, update := x.update }
        (match x.handle with
          | some h => id.1.engineWrite h fun n => { n with queue := n.queue ++ [fr] }
          | none => id.1.modMesh d fun m => { m with bcast := m.bcast ++ [fr] }, true)

/-- Queue a frame, or let it wait in the border function (LEASE_WAIT). -/
def State.queueFrame (s : State) (d : Nat) (x : Held) : State :=
  let wait (s : State) : State := (s.modMesh d fun m => { m with held := m.held ++ [x] }).count (.domain d .leaseWait)
  if !(s.meshDom d).held.isEmpty then wait s
  else
    let r := s.buildFrame d x
    if r.2 then r.1 else wait r.1

/-- Frames that waited are built in order while counters last. -/
def State.releaseHeld (s : State) (d : Nat) : Nat → State
  | 0 => s
  | n + 1 =>
    match (s.meshDom d).held with
    | [] => s
    | x :: _ =>
      let r := s.buildFrame d x
      if r.2 then (r.1.modMesh d fun m => { m with held := m.held.drop 1 }).releaseHeld d n else r.1

/-- A lease record is in force (R454, R456, R510): a staged advance takes effect, and what waited goes on. -/
def State.leaseCommitted (s : State) (d : Nat) (l : Lease) : State :=
  let s := { s with nv := { s.nv with leases := tset {} s.nv.leases d l } }
  let m := s.meshDom d
  let more := s.nv.staged.any fun c => match c with | .lease x => x.any (·.1 == d) | .journal _ _ => false
  let s := s.modMesh d fun m =>
    { m with leaseStaged := more, nextEpoch := if m.nextEpoch = some l.epoch then none else m.nextEpoch,
             outCounter := if m.nextEpoch = some l.epoch then 0 else m.outCounter,
             rekeys := if m.nextEpoch = some l.epoch then [] else m.rekeys }
  let s := if m.nextEpoch = some l.epoch then m.rekeys.foldl (fun s r => s.answerLater r okReply) s else s
  s.releaseHeld d (s.meshDom d).held.length

/-! ### Downlink packets (R461 to R463) -/

/-- The hops of the routes record of a destination in the active image; none without a record. -/
def State.routeTo (s : State) (d h : Nat) : Option (List Nat) :=
  match (s.domain d).activeImage with
  | some i => (i.routes.find? (·.node == h)).map fun r => r.hops.take r.nHops
  | none => none

/-- Frames of a node's downlink queue, with those that wait for a counter. -/
def State.dlCount (s : State) (d h : Nat) : Nat :=
  (match s.node h with | some n => n.queue.length | none => 0) + ((s.meshDom d).held.filter fun x => x.handle == some h).length

/-- A packet made ready: the first hop, and its MAC payloads. -/
structure Plan where
  first : Nat
  payloads : List Bytes
  deriving DecidableEq, Repr

/-- DATAGRAM_SIZE of a compressed packet; above 2,047 octets the field of 11 bits is not stated (log entry 46). -/
def State.datagramSize (s : State) (n : Nat) : State × Nat :=
  if n < 2048 then (s, n) else
    let r := s.draw
    (r.2, r.1 % 2048)

/-- Take a datagram tag where the packet is fragmented, and cut it. -/
def State.cut (s : State) (d limit : Nat) (c : Bytes × Nat × Bytes) : State × List Bytes :=
  let z := s.datagramSize (c.2.1 + c.2.2.length)
  let g := match (z.1.meshDom d).dgTag with
    | some t => (t, z.1)
    | none => let g := z.1.generate 1; (g.1 % 65536, g.2)
  let l := fragments limit z.2 g.1 c
  (if l.length ≤ 1 then z.1 else g.2.modMesh d fun m => { m with dgTag := some ((g.1 + 1) % 65536) }, l)

/-- Compress and fragment a unicast packet by its route; none when there is no way to the node. -/
def State.planUnicast (s : State) (d h : Nat) (c : DomainCfg) (pkt : Bytes) : State × Option Plan :=
  let short := s.shortAddr d h
  let linked := match s.node h with | some n => n.links.any (·.site != 0xFF) | none => false
  let direct (s : State) : State × Option Plan :=
    let r := s.cut d c.fragPayload (packPacket c.pfx deviceShort short pkt)
    (r.1, some { first := h, payloads := r.2 })
  match s.routeTo d h with
  | some [] => direct s
  | none => if linked then direct s else (s, none)
  | some (f :: rest) =>
    -- traffic class and flow label of the outer header are not stated (log entry 3)
    let a := s.draw
    let b := a.2.draw
    let hops := (f :: rest).map (s.shortAddr d)
    let r := b.2.cut d c.fragPayload (packRouted c.pfx hops short (a.1 % 256) (b.1 % 2 ^ 20) pkt)
    (r.1, some { first := f, payloads := r.2 })

/-- Queue the frames of a packet to its first hop, or to the broadcast queue. -/
def State.queuePacket (s : State) (d : Nat) (hop : Option Nat) (cmd : Option (Nat × Nat)) (payloads : List Bytes) : State :=
  let p := s.newPacket
  payloads.foldl (fun s b => s.queueFrame d { handle := hop, payload := b, cmd := cmd, packet := p.2 }) p.1

/-- Octets of the frames that the downlink frame store holds, and its room of 4,096 MiB (R26; log entry 113). -/
def State.storeRoom (s : State) (l : List Bytes) : Bool :=
  let node (n : Option NodeRec) : Nat := match n with | some n => sumNat (n.queue.map (·.mpdu.length)) | none => 0
  let dom (m : MeshDomain) : Nat := sumNat (m.bcast.map (·.mpdu.length)) + sumNat (m.held.map (·.payload.length))
  decide (sumNat (s.mesh.nodes.map fun e => node e.2) + sumNat (s.mesh.domains.map fun e => dom e.2) + sumNat (l.map (·.length)) ≤ 2 ^ 32)

/-- A unicast packet on its way down (R461, R463). One whose first hop is FREE goes to no queue, and shows only as missing
acknowledgements. -/
def State.sendUnicast (s : State) (d h : Nat) (c : DomainCfg) (pkt : Bytes) : State :=
  let p := s.planUnicast d h c pkt
  match p.2 with
  | none => p.1.count (.domain d .noRouteDrop)
  | some q =>
    let limit := match p.1.node q.first with | some n => n.dlqLimit | none => 1024
    if limit < p.1.dlCount d q.first + q.payloads.length || !p.1.storeRoom q.payloads then p.1.count (.domain d .dlqFullDrop)
    else p.1.queuePacket d (some q.first) none q.payloads

/-- A multicast packet to the broadcast queue of 256 frames (R460). -/
def State.sendMulticast (s : State) (d : Nat) (c : DomainCfg) (pkt : Bytes) : State :=
  let r := s.cut d c.fragPayload (packPacket c.pfx deviceShort 0xFFFF pkt)
  let waiting := ((s.meshDom d).held.filter (·.handle.isNone)).length
  if 256 < (s.meshDom d).bcast.length + waiting + r.2.length || !s.storeRoom r.2 then r.1.count (.domain d .borderDrop)
  else r.1.queuePacket d none none r.2

/-- The border function takes a packet (R438, R460). -/
def State.borderDown (s : State) (d : Nat) (b : Bytes) : State :=
  let drop := s.count (.domain d .borderDrop)
  match (s.meshDom d).cfg with
  | none => drop
  | some c =>
    let len := 40 + beAt b 4 2
    let pkt := b.take len
    if byteAt b 0 / 16 != 6 || decide (c.mtu < len) || decide (b.length < len) || (b.length != len && decide (46 < b.length)) then drop
    else if byteAt pkt 24 = 0xFF then
      if byteAt pkt 25 = 2 || byteAt pkt 25 = 3 then s.sendMulticast d c pkt else drop
    else match (shortOf c.pfx (slice pkt 24 16)).bind (s.handleOf d) with
      | some h => if s.isJoined h then s.sendUnicast d h c pkt else drop.count (.domain d .noNodeDrop)
      | none => drop.count (.domain d .noNodeDrop)

/-! ### What becomes of a frame (R361, R463, R465) -/

/-- The map of an acknowledged loading update takes effect (R361). -/
def NodeMaps.accept (m : NodeMaps) (u : Bool × LoadMap) (now : Nat) : NodeMaps :=
  let m := { m with pending := m.pending.erase u, acceptedAt := some now }
  if u.1 then { m with dlCur := some u.2 } else { m with ulPrev := m.ulCur, ulCur := some u.2 }

def State.modMaps (s : State) (h : Nat) (f : NodeMaps → NodeMaps) : State :=
  { s with radio := { s.radio with maps := tmod {} s.radio.maps h f } }

/-- The update of a frame that is gone without an acknowledgement is not pending any more; the maps stay as they were (R361). -/
def State.dropUpdate (s : State) (h : Nat) (f : DlFrame) : State :=
  match f.update with
  | some u => s.modMaps h fun m => { m with pending := m.pending.erase u }
  | none => s

/-- A frame of a node's queue is acknowledged, or was sent where no acknowledgement is asked; the map that it carries takes effect by an
acknowledgement only (R361). -/
def State.delivered (s : State) (h : Nat) (f : DlFrame) (acked : Bool) : State :=
  let s := s.engineWrite h fun n => { n with queue := n.queue.filter fun x => x.id != f.id }
  let s := match f.update with
    | some u => if acked then s.modMaps h fun m => m.accept u s.time.duration else s.dropUpdate h f
    | none => s
  match f.cmd with
  | none => s
  | some k =>
    match s.mesh.sends.find? fun c => c.fn == k.1 && c.tag == k.2 with
    | none => s
    | some c =>
      let c := { c with acked := c.acked + 1 }
      let s := { s with mesh := { s.mesh with sends := s.mesh.sends.map fun x => if x.fn = c.fn ∧ x.tag = c.tag then c else x } }
      if c.frames ≤ c.acked then s.endSend c stOk 0 else s

/-- A frame has had all its attempts: it goes, with the later frames of its packet. -/
def State.exhausted (s : State) (d h : Nat) (f : DlFrame) : State :=
  let gone (x : DlFrame) : Bool := x.packet == f.packet
  let lost := match s.node h with | some n => (n.queue.filter gone).length | none => 0
  let held := ((s.meshDom d).held.filter fun x => x.packet == f.packet).length
  let s := s.engineWrite h fun n => { n with queue := n.queue.filter fun x => !gone x }
  let s := s.modMesh d fun m => { m with held := m.held.filter fun x => x.packet != f.packet }
  let s := s.count (.domain d .txRetryDrop) (lost + held)
  let s := s.dropUpdate h f
  match f.cmd with
  | none => s
  | some k =>
    match s.mesh.sends.find? fun c => c.fn == k.1 && c.tag == k.2 with
    | some c => s.endSend c stRetries 0
    | none => s

/-- A frame goes on air once more: its attempts, the record's counts, and those of its command with its entry. -/
def State.attempted (s : State) (h : Nat) (f : DlFrame) : State :=
  let s := s.engineWrite h fun n =>
    { n with queue := n.queue.map (fun x => if x.id = f.id then { x with attempts := x.attempts + 1 } else x)
             txFrames := if f.attempts = 0 then (n.txFrames + 1) % 2 ^ 32 else n.txFrames
             txRetries := if f.attempts = 0 then n.txRetries else (n.txRetries + 1) % 2 ^ 32 }
  match f.cmd with
  | none => s
  | some k =>
    let s := { s with mesh := { s.mesh with sends := s.mesh.sends.map fun (c : SendCmd) =>
        if c.fn = k.1 ∧ c.tag = k.2 then { c with attempts := c.attempts + 1 } else c } }
    match s.mesh.sends.find? fun c => c.fn == k.1 && c.tag == k.2 with
    | some c => s.engineWrite c.handle fun n =>
        { n with cmds := n.cmds.map fun e => if e.state = 1 ∧ e.id = c.cmdId then { e with attempts := min c.attempts 255 } else e }
    | none => s

/-- The frame of a number in a node's queue. -/
def State.dlFrame (s : State) (h id : Nat) : Option DlFrame :=
  match s.node h with
  | some n => n.queue.find? (·.id == id)
  | none => none

/-- RETRY_LIMIT of a domain. -/
def State.retryLimit (s : State) (d : Nat) : Nat := match (s.meshDom d).cfg with | some c => c.retryLimit | none => 0

/-! ### Distributions (R470 to R473) -/

/-- Generations of an image. -/
def Dist.ngen (x : Dist) : Nat := (x.image.length + 32 * x.blockSize - 1) / (32 * x.blockSize)

/-- The distribution ends: its completion event with nodes done and targeted (R484). -/
def State.endDist (s : State) (d status sub : Nat) : State :=
  match (s.meshDom d).dist with
  | none => s
  | some x =>
    (s.modMesh d fun m => { m with dist := none }).complete x.fn x.tag 0x0809 status sub
      (leBytes 3 x.done.length ++ leBytes 3 x.targets.length)

/-- COEFF of a coded block (R470). -/
def coeff (seed g e : Nat) : Nat :=
  if e < 32 then 2 ^ e
  else
    let step (x : Nat) : Nat :=
      let x := x ^^^ (x * 2 ^ 13 % 2 ^ 32)
      let x := x ^^^ (x / 2 ^ 17)
      x ^^^ (x * 2 ^ 5 % 2 ^ 32)
    let x := step (step (step (seed ^^^ ((g * 65536 + e) * 0x9E3779B9 % 2 ^ 32))))
    if x = 0 then 1 else x

/-- The XOR of the source blocks of a generation that the bits of COEFF choose. -/
def codedBlock (image : Bytes) (size g c : Nat) : Bytes :=
  ((List.range 32).filter (bit c)).foldl (fun acc i =>
    (acc.zip (slice image ((32 * g + i) * size) size)).map fun p => p.1 ^^^ p.2) (List.replicate size 0)

/-- The IE of the next block (R471). -/
def Dist.block (x : Dist) : Bytes :=
  let g := x.sent % x.ngen
  let e := x.sent / x.ngen
  let c := coeff (x.id * 0x10001) g e
  vendorIe 0x04 (leBytes 2 x.id ++ leBytes 4 x.image.length ++ leBytes 2 x.blockSize ++ leBytes 2 g ++ leBytes 2 e ++ leBytes 4 c ++
    codedBlock x.image x.blockSize g c)

/-- The record of a handle as the host reads it (R440); DLQ_HEAD is not stated beyond its place in the frame store, so
it is free (log entry 3). -/
def NodeRec.bytes (n : NodeRec) (short minute head : Nat) : Bytes :=
  let link (l : Link) : Bytes :=
    leBytes 1 l.site ++ sleBytes 1 l.rssi ++ sleBytes 2 l.snr ++ leBytes 2 (if l.minute = minute then l.frames else 0) ++
      leBytes 1 l.reliability ++ [0]
  let cmd (e : CmdEntry) : Bytes := leBytes 2 e.id ++ leBytes 1 e.state ++ leBytes 1 e.final ++ leBytes 1 e.attempts ++ [0, 0, 0]
  leBytes 8 n.eui ++ leBytes 1 n.domain ++ leBytes 1 (n.state + 8 * b2n n.sleepy + 16 * b2n n.router) ++ leBytes 2 short ++
      leBytes 4 n.rxCounter ++ leBytes 1 n.keyIndex ++ leBytes 1 n.class_ ++ [0, 0] ++
      leBytes 4 (n.parent + 2 ^ 17 * b2n n.parentValid) ++ leBytes 6 n.joinS ++ [0, 0] ++ leBytes 6 n.heardS ++
      leBytes 2 n.heardMs ++ leBytes 4 n.fw ++ leBytes 4 n.cslPeriodUs ++ leBytes 8 n.cslAnchorNs ++ n.links.flatMap link ++
      leBytes 4 head ++ leBytes 2 n.queue.length ++ leBytes 2 n.dlqLimit ++ n.cmds.flatMap cmd ++ leBytes 4 n.rxFrames ++
      leBytes 4 n.txFrames ++ leBytes 4 n.txRetries ++ leBytes 2 n.authFail ++ leBytes 2 n.replay ++ leBytes 1 n.linkSeq ++ [0] ++
      leBytes 2 n.distId ++ leBytes 2 n.distGens ++ leBytes 1 (b2n n.distDone) ++ List.replicate 9 0 ++ fit 32 n.hostTag ++
      List.replicate 64 0

end Sys2Proof.Machine
end

