-- ==== Sys2Proof/Machine/RadioCmds.lean ====
section
/-! DEFINITION. The front end of the sites: DCW words from PRUs, loading and faults of sites (R289, R303, R313, R314,
R323 to R326), uplink RoE frames (R295, R297, R376), gain and noise floor (R310, R315, R316), and the RADIO commands of
spec/08_radio_sites.md (R328 to R335). -/

namespace Sys2Proof.Machine

/-! ### Leaving service -/

/-- The device takes the link of a site's radio port down (R326); it comes up again by itself. -/
def State.bounce (s : State) (site : Nat) : State :=
  match s.sitePort site with
  | some p => s.takeDown p 8
  | none => s

/-- A site leaves service for a reason and its link is bounced. -/
def State.leave (s : State) (site reason : Nat) : State := (s.siteOut site reason).bounce site

/-- A load attempt fails (R324). -/
def State.loadFailed (s : State) (site number : Nat) : State :=
  let s := s.siteEvent 0x0803 site 0xFF number
  let s := s.modSite site fun x => { x with failures := x.failures + 1 }
  if 3 ≤ (s.site site).failures then (s.bounce site).siteFault site number else s.bounce site

/-- The site's image runs and its link serves it. -/
def State.siteRuns (s : State) (site : Nat) : Bool :=
  (s.site site).state == .inService || (s.site site).state == .syncing

/-! ### DCW words received (R302 to R305) -/

/-- The body of a word received, where its header names the opcode, its reserved bits are zero, and its length is right (R301, R304). -/
def dcwBody (op len : Nat) (word : Bytes) : Option Bytes :=
  let b := word.drop 12
  if byteAt word 0 == op && decide (byteAt word 1 < 16) && leAt word 10 2 == b.length && b.length == len then some b else none

/-- A received word that asks for it is answered by ACK with its WSEQ and a result (R303, R304). -/
def State.dcwAnswer (s : State) (site : Nat) (word : Bytes) (result : Nat) : State :=
  if bit (byteAt word 1) 3 then (s.sendDcw site 0x82 3 none false (leBytes 2 (leAt word 2 2) ++ leBytes 1 result ++ [0])).1 else s

/-- A word comes from a PRU (R304): one with any other opcode, a wrong length or a reserved field that is not zero is discarded. -/
def State.takeWord (s : State) (site op len : Nat) (word : Bytes) (clean : Bytes → Bool) (act : State → Bytes → State) : State :=
  match dcwBody op len word with
  | some b => if clean b then (act s b).dcwAnswer site word 0 else s.dcwAnswer site word 4
  | none => s.dcwAnswer site word 4

/-- DCW_HELLO (R323 step 1). -/
def execDcwHello (site : Fin 96) (word : Bytes) (mac : Nat) (s : State) : Host.Outcome State Fault Refusal :=
  let n := site.val
  .next (s.takeWord n 0x80 16 word (fun body => byteAt body 15 == 0) fun s body =>
      let first := (s.site n).state == .loading && (s.site n).step == 1
      let s := s.modSite n fun x =>
        { x with mac := mac % 2 ^ 48, model := leAt body 0 2, hwRev := byteAt body 2, romVer := byteAt body 3,
                 serial := leAt body 4 8, nf := [byteAt body 12, byteAt body 13, byteAt body 14] }
      if !first then s
      else if (s.pruImage n).isNone then (s.siteEvent 0x0803 n 0xFF 5).siteFault n 5
      else (s.modSite n fun x => { x with step := 2 }).goOnLoading n)

/-- DCW_READY (R323 step 4). -/
def execDcwReady (site : Fin 96) (word : Bytes) (s : State) : Host.Outcome State Fault Refusal :=
  let n := site.val
  .next (s.takeWord n 0x81 4 word (fun _ => true) fun s body =>
    if (s.site n).state != .loading || (s.site n).step != 3 then s
    else (s.modSite n fun x => { x with step := 4, state := .syncing, imageVer := leAt body 0 4 }).configurePru n)

/-- DCW_ACK (R303, R314, R322, R323). -/
def execDcwAck (site : Fin 96) (word : Bytes) (s : State) : Host.Outcome State Fault Refusal :=
  let n := site.val
  .next (s.takeWord n 0x82 4 word (fun body => byteAt body 3 == 0) fun s body =>
    let wseq := leAt body 0 2
    match (s.site n).waiting.find? (·.wseq == wseq) with
      | none => s
      | some w =>
        let s := s.modSite n fun x => { x with waiting := x.waiting.filter (·.wseq != wseq) }
        let s := if byteAt body 2 = 2 then s.count (.site n .txRangeRefused) else s
        let s :=
          if wordOp w.word = 0x30 ∧ byteAt body 2 = 3 then
            s.modSite n fun x => { x with tuners := tmod {} x.tuners (wordBand w.word) fun t =>
              { t with stepped := none, mayStep := false } }
          else s
        if (s.site n).step = 2 then s.goOnLoading n else s)

/-- Return loss of a report, taken into a band's tuner (R313, R314). -/
def Tuner.report (t : Tuner) (c : SiteCfg) (rl : Int) : Tuner :=
  let low := if rl < c.rlAlarm then t.low + 1 else 0
  let high := if (c.rlAlarm : Int) + 4 ≤ rl then t.high + 1 else 0
  let dir := match t.stepped with | some r => if r ≤ rl then t.dirUp else !t.dirUp | none => t.dirUp
  { t with rl := some rl, low := low, high := high, dirUp := dir, stepped := none, mayStep := true }

/-- DCW_TUNER_REPORT (R313, R314). -/
def execDcwTunerReport (site : Fin 96) (band : Fin 3) (word : Bytes) (s : State) : Host.Outcome State Fault Refusal :=
  let n := site.val
  .next (s.takeWord n 0x83 8 word (fun body => rangeZero body 5 7) fun s body =>
    let rl := sleAt body 0 2 - sleAt body 2 2
    if !s.siteRuns n || wordBand word != band.val then s
    else
      let t := (tget {} (s.site n).tuners band.val : Tuner).report (s.siteCfg n) rl
      let raise := !t.alarm && decide (3 ≤ t.low)
      let clear := t.alarm && decide (3 ≤ t.high)
      let t := { t with alarm := (t.alarm || raise) && !clear }
      let s := s.modSite n fun x => { x with tuners := tset {} x.tuners band.val t }
      if raise then s.siteEvent 0x0805 n band.val 0 0 rl else if clear then s.siteEvent 0x0806 n band.val 0 0 rl else s)

/-- The site enters service, after a load or after SYNCING (R323 step 5, R326 reason 5). -/
def State.enterService (s : State) (n : Nat) : State :=
  let loaded := (s.site n).step == 4
  let s := s.modSite n fun x =>
    { x with state := .inService, step := 5, failures := 0, loads := if loaded then min 255 (x.loads + 1) else x.loads }
  let s := if loaded then s.count (.site n .pruLoads) else s
  s.siteEvent 0x0801 n 0xFF 0

/-- DCW_STATUS (R323 step 5, R326, R336). -/
def execDcwStatus (site : Fin 96) (word : Bytes) (s : State) : Host.Outcome State Fault Refusal :=
  let n := site.val
  .next (s.takeWord n 0x84 20 word
    (fun body => decide (byteAt body 0 < 32) && rangeZero body 2 3 && rangeZero body 16 19) fun s body =>
      let b0 := byteAt body 0
      let s := s.modSite n fun x =>
        { x with ptpLocked := bit b0 0, synthLock := bits b0 1 3, overtemp := bit b0 4, tempC := sleAt body 1 1,
                 ptpOffset := sleAt body 4 4 }
      let s := (s.gauge (.site n .dlUnderrun) (leAt body 8 4)).gauge (.site n .dlLate) (leAt body 12 4)
      match (s.site n).state with
      | .syncing => if bit b0 0 then s.enterService n else s
      | .inService => if bit b0 0 then s else s.siteUnlocked n
      | _ => s)

/-- A one-way delay takes effect (R298, R326 reason 8, R423 code 4). -/
def State.applyDelay (s : State) (site ns : Nat) : State :=
  let s := (s.modSite site fun x => { x with delayNs := ns }).delayMeasured site ns
  if decide (250000 < ns) && (s.site site).state == .inService then s.leave site 8 else s

/-- DCW_ECHO_REPLY (R298, R326 reason 8, R423 code 4): half the round trip less the hold time. -/
def execDcwEchoReply (site : Fin 96) (word : Bytes) (sentNs rxNs : Nat) (s : State) : Host.Outcome State Fault Refusal :=
  let n := site.val
  .next (s.takeWord n 0x85 8 word (fun _ => true) fun s body =>
    if (s.site n).echo.map (·.1) != some (leAt body 0 4) then s
    else
      let delay := (rxNs - sentNs - leAt body 4 4) / 2
      (s.modSite n fun x => { x with echo := none }).measure (.delay n delay) fun s => s.applyDelay n delay)

/-- DCW_PRU_ALARM (R322, R324, R327, R424). -/
def execDcwPruAlarm (site : Fin 96) (word : Bytes) (s : State) : Host.Outcome State Fault Refusal :=
  let n := site.val
  .next (s.takeWord n 0x86 4 word (fun _ => true) fun s body =>
      let code := byteAt body 0
      let wseq := leAt body 1 2
      let s := s.siteEvent 0x080B n (if wordBand word = 3 then 0xFF else wordBand word) code
      let s := if code = 2 then s.count (.site n .txRangeRefused) else s
      -- a refused TX_TUNE leaves the band's channel unknown
      let s :=
        if code = 1 ∨ code = 2 then
          s.modSite n fun x => { x with tuned := x.tuned.filter fun e => tget none x.tuneSeq e.1 != some wseq }
        else s
      if decide (code = 6) && (s.site n).state == .loading then s.loadFailed n 3 else s)

/-! ### Timers of a site -/

/-- DCW_RETRY_TIMEOUT (R303): the word is repeated, or after the fourth send the site leaves service or its load fails. -/
def execDcwRetryTimeout (site : Fin 96) (wseq : Nat) (s : State) : Host.Outcome State Fault Refusal :=
  let n := site.val
  .next (match (s.site n).waiting.find? (·.wseq == wseq) with
    | none => s
    | some w =>
      if w.sends < 4 then
        let s := s.modSite n fun x => { x with waiting := x.waiting.map fun y => if y.wseq = wseq then { y with sends := y.sends + 1 } else y }
        ((s.putWord n w.word).1).count (.site n .dcwRetries)
      else
        match (s.site n).state with
        | .inService => s.leave n 3
        | .loading | .syncing => s.loadFailed n 2
        | _ => s)

/-- PRU_LOAD_TIMEOUT (R324): HELLO, the answer to the last block, READY or PTP_LOCKED is missing (stages 0 to 3). -/
def execPruLoadTimeout (site : Fin 96) (stage : Fin 4) (s : State) : Host.Outcome State Fault Refusal :=
  let n := site.val
  let x := s.site n
  let waits := x.step == stage.val + 1 && (x.state == .loading || x.state == .syncing)
  .next (if waits then s.loadFailed n (stage.val + 1) else s)

/-- STATUS_TIMEOUT (R326 reason 4). -/
def execStatusTimeout (site : Fin 96) (s : State) : Host.Outcome State Fault Refusal :=
  .next (if (s.site site.val).state = .inService then s.leave site.val 4 else s)

/-- ECHO_SEND (R298): once a second while the site's image runs. -/
def execEchoSend (site : Fin 96) (s : State) : Host.Outcome State Fault Refusal :=
  let n := site.val
  .next (if !s.siteRuns n then s
    else
      let token := ((s.site n).echoToken + 1) % 2 ^ 32
      let s := s.modSite n fun x => { x with echoToken := token, echo := some (token, (s.base 0).t) }
      (s.sendDcw n 0x41 3 none false (leBytes 4 token)).1)

/-- GAIN_DECISION (R310). -/
def gainStep (g total clipped : Nat) (medianMdb : Int) : Nat :=
  let v : Int :=
    if total < clipped * 100000 then (g : Int) - 12
    else if medianMdb < -66000 then (g : Int) + 2
    else if -54000 < medianMdb then (g : Int) - 2
    else g
  (clampInt 0 120 v).toNat

def execGainDecision (site : Fin 96) (antenna : Fin 5) (total clipped : Nat) (medianMdb : Int) (s : State) :
    Host.Outcome State Fault Refusal :=
  let n := site.val
  let a := antenna.val
  let old := (s.site n).gains.getD a 60
  let new := gainStep old total clipped medianMdb
  .next (if (s.site n).state != .inService || bit (s.siteCfg n).gainFixed (antennaBand a) || total == 0 || new == old then s
    else s.sendGain n a new true)

/-- Bins of a band (R290). -/
def bandBins (band : Nat) : Nat := if band = 0 then 6656 else if band = 1 then 8551 else 8

/-- The lower of two minima, one of them missing. -/
def minOpt (a b : Option Int) : Option Int :=
  match a, b with
  | some x, some y => some (if x < y then x else y)
  | some x, none => some x
  | none, b => b

/-- FLOOR_PERIOD (R311, R315): the powers of 10 ms, scaled as the samples of antenna 0 are, taken into the running minima. -/
def execFloorPeriod (site : Fin 96) (band : Fin 3) (powers : List (Nat × Int)) (s : State) : Host.Outcome State Fault Refusal :=
  let n := site.val
  .next (if (s.site n).state != .inService then s
    else
      let scale := 2 * (s.site n).scale (2 * band.val) (s.ns 0)
      s.modSite n fun x => { x with floors := tmod {} x.floors band.val fun f =>
      { f with running := powers.foldl (fun t e =>
        if e.1 < bandBins band.val then tset none t e.1 (minOpt (tget none t e.1) (some (e.2 + scale))) else t) f.running } })

/-- A floor is above FLOOR_REF + FLOOR_MARGIN (R316); in tenths of 0.25 dB. -/
def State.elevated (s : State) (site band : Nat) (floor : Int) : Bool :=
  let c := s.siteCfg site
  let ref : Int :=
    if c.floorRef.getD band 0x8000 = 0x8000 then -5364 + 10 * (s.site site).nf.getD band 0
    else 10 * toSigned 16 (c.floorRef.getD band 0x8000)
  decide (ref + 10 * c.marginQdb < 10 * floor)

/-- The end of a 10 s window (R315, R316). -/
def State.floorEnd (s : State) (site band : Nat) : State :=
  let f : Floor := tget {} (s.site site).floors band
  let bins := ((f.running.map (·.1)) ++ (f.previous.map (·.1))).eraseDups
  let floors := bins.foldl (fun t b =>
    tset none t b ((minOpt (tget none f.running b) (tget none f.previous b)).map (· + 8))) []
  let high := floors.filterMap fun e => match e.2 with | some v => if s.elevated site band v then some (e.1, v) else none | none => none
  let worst := (high.foldl (fun (acc : Nat × Option Int) e =>
    match acc.2 with | some v => if v < e.2 then (e.1, some e.2) else acc | none => (e.1, some e.2)) (0, none)).1
  let g : Floor :=
    { running := [], previous := f.running, floors := floors, elevated := high.length, endS := (s.now 0).1 }
  let s := s.modSite site fun x => { x with floors := tset {} x.floors band g }
  if f.elevated = 0 ∧ high.length ≠ 0 then s.siteEvent 0x0807 site band 0 worst high.length
  else if f.elevated ≠ 0 ∧ high.length = 0 then s.siteEvent 0x0808 site band 0
  else s

/-- An active image declares a transmit on a band of a site in the slot that its domain's base has reached (R314, R397). -/
def State.txDeclared (s : State) (site band : Nat) : Bool :=
  s.radio.domains.any fun e => match e.2.activeImage with
    | some i => match i.slots[s.ns (s.domainTb e.1) / i.slotNs % 2 ^ i.k]? with
      | some x => match x.vect site with | some v => bit v.txBands band | none => false
      | none => false
    | none => false

/-- TUNER_STEP_ISSUE (R314): at most once in 10 s while RL is below RL_TARGET, in a slot with no transmit declared. -/
def execTunerStepIssue (site : Fin 96) (band : Fin 3) (s : State) : Host.Outcome State Fault Refusal :=
  let n := site.val
  let b := band.val
  let c := s.siteCfg n
  let t : Tuner := tget {} (s.site n).tuners b
  let low := match t.rl with | some r => decide (r < c.rlTarget) | none => false
  let rested := match t.stepAt with | some d => decide (d + 16000000000 ≤ s.time.duration) | none => true
  .next (if (s.site n).state != .inService || !c.tunerEn || !low || !rested || !t.mayStep || s.txDeclared n b then s
    else
      let s := s.modSite n fun x => { x with tuners := tset {} x.tuners b { t with stepped := t.rl, mayStep := false, stepAt := some s.time.duration } }
      let s := (s.sendDcw n 0x30 b none true ((if t.dirUp then 0x01 else 0xFF) :: [0, 0, 0])).1
      s.count (.site n .tunerSteps))

/-! ### Baseband lanes (R289) -/

/-- The site that a lane serves. -/
def State.siteOfLane (s : State) (lane : Nat) : Option Nat := (List.range 96).find? fun n => s.laneOf n == some lane

/-- BASEBAND_LANE_FAULT: the site leaves service, and its link is held down for the slice. -/
def execBasebandLaneFault (lane : Fin 104) (s : State) : Host.Outcome State Fault Refusal :=
  .next (match s.siteOfLane lane.val with
    | some n =>
      let s := s.modSite n fun x => { x with held := true }
      s.leave n 6
    | none => s)

/-- The lowest spare lane that is free and usable. -/
def State.freeSpare (s : State) : Option Nat :=
  [96, 97, 98, 99, 100, 101, 102, 103].find? fun l => !s.radio.badLanes.contains l && (s.siteOfLane l).isNone

/-- BASEBAND_LANE_RETEST_DONE: the same lane, a spare, or FAULT. -/
def execBasebandLaneRetestDone (lane : Fin 104) (pass : Bool) (s : State) : Host.Outcome State Fault Refusal :=
  .next (if pass then s
    else
      let site := s.siteOfLane lane.val
      let s := { s with
        radio := { s.radio with badLanes := lane.val :: s.radio.badLanes.filter (· != lane.val) }
        bist := { s.bist with unusable := (3, lane.val) :: s.bist.unusable.filter (· != (3, lane.val)) } }
      match site with
      | none => s
      | some n =>
        match s.freeSpare with
        | some l =>
          let s := { s with radio := { s.radio with lanes := tset none s.radio.lanes n (some (some l)) } }
          let s := { s with bist := { s.bist with spared := (3, lane.val, l) :: s.bist.spared } }
          -- SLICE_SPARED (R656)
          (s.siteEvent 0x080A n 0xFF 0 0 l).alarm 12 0x0C02
            (leBytes 1 3 ++ [0] ++ leBytes 2 lane.val ++ leBytes 2 l ++ leBytes 1 1)
        | none =>
          let s := { s with radio := { s.radio with lanes := tset none s.radio.lanes n (some none) } }
          (s.modSite n fun x => { x with held := false }).siteFault n 6)

/-- LINK_HOLD_EXPIRY: 100 ms after the slice the link is let come up. -/
def execLinkHoldExpiry (site : Fin 96) (s : State) : Host.Outcome State Fault Refusal :=
  .next (s.modSite site.val fun x => { x with held := false })

/-! ### Uplink RoE frames (R295, R297, R312, R376) -/

/-- Uplink rate in S/s and samples per packet of a band (R290). -/
def ulRate (band : Nat) : Nat := if band = 0 then 76800000 else if band = 1 then 122880000 else 960000
def ulPacket (band : Nat) : Nat := if band = 2 then 96 else 768

/-- Band of an uplink flowID (R294). -/
def flowBand (flow : Nat) : Nat := if flow ≤ 2 then 0 else if flow ≤ 4 then 1 else 2

/-- The sample in three bytes (R291): none when it is blanked; one component at -2,048 reads as -2,047. -/
def sampleOf (a b c : Byte) : Option (Int × Int) :=
  let i := toSigned 12 (a.toNat + b.toNat % 16 * 256)
  let q := toSigned 12 (b.toNat / 16 + c.toNat * 16)
  if i = -2048 ∧ q = -2048 then none else some (max (-2047) i, max (-2047) q)

/-- Blanked samples of an uplink frame (R312). -/
def blankedIn : Bytes → Nat
  | a :: b :: c :: l => (if (sampleOf a b c).isNone then 1 else 0) + blankedIn l
  | _ => 0

/-- TB0 seconds resolved to the instant nearest the device's own (R295): `m` is SECONDS modulo 32, `now` and `frac` are in ns, `frac`
within its second. -/
def nearestSecond (now m frac : Nat) : Nat :=
  let sec := now / 1000000000
  let up := sec + (m + 32 - sec % 32) % 32
  if up < 32 ∨ up * 1000000000 + frac + up * 1000000000 + frac ≤ 2 * now + 32 * 1000000000 then up else up - 32

/-- Frames missing between the newest sample and a frame, of which those beyond the last 128 are given as a number (DESIGN CHOICE,
log entry 134). -/
def missingFrames (newest first per : Nat) : Nat × List Nat :=
  let g := (first - (newest + 1)) / per
  let t := min g 128
  (g - t, (List.range t).map fun i => first - (t - i) * per)

/-- ROE_UPLINK_FRAME. -/
def execRoeUplinkFrame (p : Fin 256) (frame : Bytes) (stampNs : Nat) (s : State) : Host.Outcome State Fault Refusal :=
  .next (match s.portSite p.val with
    | none => s
    | some n =>
      let flow := byteAt frame 15
      if !(s.portSt p.val).linkUp || !isRoeData frame then s
      else
        let band := flowBand flow
        let rate := ulRate band
        let per := ulPacket band
        let ord := beAt frame 18 4
        let first := nearestSecond (s.ns 0) (ord / 2 ^ 27) (ord % 2 ^ 27 * 1000000000 / rate) * rate + ord % 2 ^ 27
        let data := (frame.drop 22).take (beAt frame 16 2)
        let last := first + data.length / 3 - 1
        let x : UlStream := tget {} (s.site n).streams flow
        let s := s.count (.site n .ulFrames)
        let late := match x.newest with | some w => decide (first + rate / 1000 < w) | none => false
        if late then s.count (.site n .ulLatePkt)
        else
          let gap := match x.newest with | some w => if w + 1 < first then missingFrames w first per else (0, []) | none => (0, [])
          let newest := match x.newest with | some w => max w last | none => last
          let missing := (x.missing.filter (· != first)) ++ gap.2
          let gone := missing.filter fun m => decide (m + rate / 1000 < newest)
          let y : UlStream := { newest := some newest, stamps := (first, last, stampNs) :: x.stamps.filter (fun e => decide (newest ≤ e.2.1 + rate / 1000)),
                                missing := missing.filter fun m => decide (newest ≤ m + rate / 1000) }
          let s := s.modSite n fun z => { z with streams := tset {} z.streams flow y }
          let s := s.count (.site n .ulGapSamples) ((gone.length + gap.1) * per)
          s.count (.site n .ulBlankedSamples) (blankedIn data))

/-! ### The RADIO commands -/

/-- A VF names a site that a loaded image of one of its tenant's domains names (R328). -/
def State.ownsSite (s : State) (fn site : Nat) : Bool :=
  fn == 0 || (s.domainsNaming site).any fun d => s.domainTenant d == some (fn - 1)

/-- The settings that RADIO_SITE_CONFIG carries (R330). -/
def siteCfgOf (r : Req) : SiteCfg :=
  { bandEn := r.fb 17 0 3, gainFixed := r.fb 17 3 3, tunerEn := r.fl 17 6, fixedGain := [r.f 18 1, r.f 19 1, r.f 20 1],
    floorRef := [r.f 22 2, r.f 24 2, r.f 26 2], marginQdb := r.f 28 1, rlAlarm := r.f 29 1, rlTarget := r.f 30 1,
    blank := slice r.pl 16 16 }

/-- A fixed gain of an antenna that differs from its present one is sent. -/
def State.applyGain (n : Nat) (c : SiteCfg) (s : State) (a : Nat) : State :=
  if bit c.gainFixed (antennaBand a) && (s.site n).gains.getD a 60 != c.fixedGain.getD (antennaBand a) 0 then
    s.sendGain n a (c.fixedGain.getD (antennaBand a) 0) true
  else s

def radioSiteConfigSpec : AciSpec where
  op := 0x0601
  lenOk := lenIs 32
  modes := modesSet
  carried := true
  rsv := fun _ => [(0, 0x80), (1, 0x80), (5, 0xFF), (15, 0xFF), (16, 0xF0), (20, 0xF0), (24, 0xF0), (28, 0xF0)]
  par := fun r _ =>
    let c := siteCfgOf r
    firstOf [
      badIf (decide (95 < r.fb 16 0 7) || c.fixedGain.any (fun g => decide (120 < g)) || decide (c.marginQdb < 4) ||
        decide (120 < c.marginQdb) || decide (80 < c.rlAlarm) || decide (120 < c.rlTarget)) 0x40,
      badIf (decide (c.rlTarget < c.rlAlarm)) 0x41]
  late := fun r s =>
    let n := r.fb 16 0 7
    if (s.siteCfg n).hold < (siteCfgOf r).hold then
      let t := { s with cfg := { s.cfg with sites := tset {} s.cfg.sites n (siteCfgOf r) } }
      breachChk (t.recheck (s.domainsNaming n) (·.names n))
    else none
  effect := fun r s =>
    let n := r.fb 16 0 7
    let c := siteCfgOf r
    let s := s.store fun f => { f with sites := tset {} f.sites n c }
    if s.siteRuns n then
      let s := s.sendSettings n
      ((List.range 5).foldl (State.applyGain n c) s, okReply)
    else (s, okReply)

def execRadioSiteConfig (r : Aci) (s : State) : Host.Outcome State Fault Refusal := .next (radioSiteConfigSpec.exec r s)

/-- The plan that RADIO_DWELL_CONFIG carries (R331). -/
def dwellOf (r : Req) : DwellPlan :=
  { f0 := r.f 20 4, spacing := r.f 24 4, count := r.f 28 2, wMs := r.f 32 4, budget := r.f 36 4, oop := r.f 40 4 }

/-- The change empties the meters (R321). -/
def DwellPlan.moved (a b : DwellPlan) : Bool := a.f0 != b.f0 || a.spacing != b.spacing || a.count != b.count || a.wMs != b.wMs

/-- Sites that RADIO_DWELL_CONFIG names. -/
def dwellSites (r : Req) : List Nat := if r.fl 16 7 then List.range 96 else [r.fb 16 0 7]

/-- The meters of a site's band start afresh when its plan moves. -/
def State.replan (b : Nat) (p : DwellPlan) (s : State) (n : Nat) : State :=
  if (s.plan n b).moved p then
    { s with radio := { s.radio with meters := s.radio.meters.filter fun e => e.1 / 257 != 3 * n + b } }
  else s

def radioDwellConfigSpec : AciSpec where
  op := 0x0602
  lenOk := lenIs 28
  modes := modesSet
  carried := true
  rsv := fun _ => [(1, 0xFC), (2, 0xFF), (3, 0xFF), (14, 0xFF), (15, 0xFF)]
  par := fun r _ =>
    let p := dwellOf r
    firstOf [
      badIf (decide (95 < r.fb 16 0 7) || decide (2 < r.fb 17 0 2) || decide (p.spacing < 1000) || decide (10000000 < p.spacing) ||
        decide (256 < p.count) || p.wMs == 0 || decide (3600000 < p.wMs)) 0x40,
      badIf (decide (p.wMs * 1000 < p.budget) || decide (p.wMs * 1000 < p.oop)) 0x42]
  avail := fun r s =>
    failIf ((dwellSites r).any fun n => (s.plan n (r.fb 17 0 2)).moved (dwellOf r) && s.siteActive n) stBusy 0x02
  effect := fun r s =>
    let b := r.fb 17 0 2
    let s' := (dwellSites r).foldl (State.replan b (dwellOf r)) s
    (s'.store fun f => { f with dwell := (dwellSites r).foldl (fun t n => tset {} t (3 * n + b) (dwellOf r)) f.dwell }, okReply)

def execRadioDwellConfig (r : Aci) (s : State) : Host.Outcome State Fault Refusal := .next (radioDwellConfigSpec.exec r s)

def SiteState.num : SiteState → Nat
  | .down => 0 | .loading => 1 | .syncing => 2 | .inService => 3 | .fault => 4

/-- Latest RL of a band as a status byte. -/
def rlByte (t : Tuner) : Nat := match t.rl with | some r => (clampInt 0 255 r).toNat | none => 0

def radioSiteStatusSpec : AciSpec where
  op := 0x0603
  lenOk := lenIs 1
  pf0Only := false
  modes := modesRead
  rsv := fun _ => [(0, 0x80)]
  par := fun r _ => badIf (decide (95 < r.fb 16 0 7)) 0x40
  owned := fun r s => s.ownsSite r.fn (r.fb 16 0 7)
  effect := fun r s =>
    let n := r.fb 16 0 7
    let x := s.site n
    let t (b : Nat) : Tuner := tget {} x.tuners b
    let e (b : Nat) : Floor := tget {} x.floors b
    let high (b : Nat) : Nat := b2n (decide ((e b).elevated ≠ 0))
    let flags := b2n (t 0).alarm + 2 * b2n (t 1).alarm + 4 * b2n (t 2).alarm + 8 * high 0 + 16 * high 1 + 32 * high 2 +
      64 * b2n x.ptpLocked
    -- PORT of a site without a radio port is not stated (log entry 3)
    let port := match s.sitePort n with | some p => (p, s) | none => s.draw
    (port.2, okWith (leBytes 1 x.state.num ++ leBytes 1 x.reason ++ leBytes 1 ((s.laneOf n).getD 0xFF) ++
      leBytes 1 port.1 ++ leBytes 4 x.delayNs ++ leBytes 1 (x.gains.getD 0 0) ++ leBytes 1 (x.gains.getD 2 0) ++
      leBytes 1 (x.gains.getD 4 0) ++ sleBytes 1 x.tempC ++ leBytes 1 (rlByte (t 0)) ++ leBytes 1 (rlByte (t 1)) ++
      leBytes 1 (rlByte (t 2)) ++ leBytes 1 flags ++ leBytes 2 x.model ++ leBytes 1 x.hwRev ++ leBytes 1 x.loads ++
      sleBytes 4 x.ptpOffset))

def execRadioSiteStatus (r : Aci) (s : State) : Host.Outcome State Fault Refusal := .next (radioSiteStatusSpec.exec r s)

def radioFloorReadSpec : AciSpec where
  op := 0x0604
  lenOk := lenIs 4
  buffer := true
  pf0Only := false
  modes := modesRead
  par := fun r _ =>
    badIf (decide (95 < r.b 0 1) || decide (2 < r.b 1 1) || decide (bandBins (r.b 1 1) ≤ r.b 2 2)) 0x40
  owned := fun r s => s.ownsSite r.fn (r.b 0 1)
  effect := fun r s =>
    let f : Floor := tget {} (s.site (r.b 0 1)).floors (r.b 1 1)
    let n := min 4096 (bandBins (r.b 1 1) - r.b 2 2)
    let bin (i : Nat) : Bytes := match tget none f.floors (r.b 2 2 + i) with | some v => sleBytes 2 v | none => [0x00, 0x80]
    (s, okWith (leBytes 6 f.endS ++ leBytes 2 f.elevated ++ (List.range n).flatMap bin))

def execRadioFloorRead (r : Aci) (s : State) : Host.Outcome State Fault Refusal := .next (radioFloorReadSpec.exec r s)

def radioDwellReadSpec : AciSpec where
  op := 0x0605
  lenOk := lenIs 4
  pf0Only := false
  modes := modesRead
  par := fun r _ => badIf (decide (95 < r.f 16 1) || decide (2 < r.f 17 1) || decide (256 < r.f 18 2)) 0x40
  owned := fun r s => s.ownsSite r.fn (r.f 16 1)
  effect := fun r s =>
    let p := s.plan (r.f 16 1) (r.f 17 1)
    let u := s.dwellUsed (r.f 16 1) (r.f 17 1) (r.f 18 2) s.time.duration 0
    (s, okWith (leBytes 4 ((u + 1599) / 1600) ++ leBytes 4 (p.limit (r.f 18 2)) ++ leBytes 4 p.wMs ++
      leBytes 4 (s.counter (.meter (meterNo (r.f 16 1) (r.f 17 1) (r.f 18 2)) false))))

def execRadioDwellRead (r : Aci) (s : State) : Host.Outcome State Fault Refusal := .next (radioDwellReadSpec.exec r s)

def radioSiteResetSpec : AciSpec where
  op := 0x0606
  lenOk := lenIs 1
  modes := modesRun
  carried := true
  par := fun r s => badIf (decide (95 < r.f 16 1) || (s.sitePort (r.f 16 1)).isNone) 0x40
  avail := fun r s => failIf (s.laneOf (r.f 16 1)).isNone stNoResource 0x40
  effect := fun r s =>
    let n := r.f 16 1
    (((s.siteOut n 7).siteFresh n).bounce n, okReply)

def execRadioSiteReset (r : Aci) (s : State) : Host.Outcome State Fault Refusal := .next (radioSiteResetSpec.exec r s)

end Sys2Proof.Machine
end

