-- ==== Sys2Proof/Machine/Modem.lean ====
section
/-! DEFINITION. The modem: detections and contexts (R338 to R343), header decisions (R344, R350, R362, R377), joint combining
(R370 to R376), decoding (R366 to R369), loading maps (R357 to R361), and RADIO_LOADING_CONFIG and RADIO_MAP_READ. -/

namespace Sys2Proof.Machine

/-! ### Cells -/

/-- The cell of an index in a slot of an image. -/
def Image.cellIn (i : Image) (slot cell : Nat) : Option Cell :=
  match i.slots[slot % 2 ^ i.k]? with
  | some x => (x.cells.find? (·.1 == cell)).map (·.2)
  | none => none

/-- The domain serves cells of a type (R394, R438): a domain that is not configured serves none, and join cells are idle
while joining is closed. -/
def State.serves (s : State) (d : Nat) (c : Cell) : Bool :=
  match (s.meshDom d).cfg with
  | none => false
  | some m =>
    if c.type = 4 ∨ c.type = 5 then m.joinOpen
    else if c.type = 7 then (s.meshDom d).dist.isSome
    else true

/-- The window of a cell of a slot on TB0. -/
def State.cellWindow (s : State) (d : Nat) (i : Image) (slot : Nat) (c : Cell) : Nat × Nat :=
  let t := slot * i.slotNs + c.start * 1000
  (s.toTb0 d t, s.toTb0 d (t + c.len * 1000))

/-! ### Contexts (R339, R340, R342) -/

/-- Contexts in use by a cell of a slot at a site. -/
def State.contextsUsed (s : State) (d cell slot site : Nat) : Nat :=
  sumNat (s.radio.recvs.map fun r =>
    if r.domain = d ∧ r.slot = slot then (r.copies.filter fun c => c.cell == cell && c.site == site && c.held).length else 0)

/-- A step of the digital gain loop, in 1/2000 dB (R342). -/
def gainLoop (g : Int) (p : Option Int) : Int :=
  match p with
  | none => g
  | some m => clampInt (-24000) 120000 (g + clampInt (-12000) 12000 (-18000 - m))

/-! ### DETECTION -/

/-- The end on air of a frame's header: three LOFDM symbols, or the PHR of a standard PHY. -/
def headerNs (phy : Nat) : Nat := if phy % 16 = 4 then 345600 else airNs phy 0

/-- The end on air of a part. -/
def Recv.partEnd (r : Recv) (part : Nat) : Nat :=
  if part = 0 then r.copies.foldl (fun m c => max m c.headerEnd) 0 else r.ends.getD (part - 1) r.frameEnd

/-- The earliest frame instant of a transmission. -/
def Recv.instant (r : Recv) : Nat := r.copies.foldl (fun m c => min m c.instant) ((r.copies.headD { site := 0, instant := 0, corr := 0, headerEnd := 0 }).instant)

/-- The air instants of a transmission are resolved as they become known, each once (R143). -/
def State.resolve (s : State) (r : Recv) (l : List Nat) : Recv :=
  { r with resolved := r.resolved ++ ((l.filter fun t => !r.resolved.any (·.1 == t)).eraseDups.map fun t => (t, s.durationAt 0 t)) }

/-- The due instant of a part that ends on air at `t`, as a count of the duration counter (R143, R372); none without a group. -/
def State.dueAt (s : State) (r : Recv) (t : Nat) : Option Nat :=
  r.deadlineUs.map fun u => ((r.resolved.find? (·.1 == t)).elim (s.durationAt 0 t) (·.2)) + u * usCounts

/-- What the transmissions of one cell of a slot on one channel share: the domain, its image, the slot, the window's end, the channel
and the group. -/
structure Frame where
  domain : Nat
  image : Image
  slot : Nat
  windowEnd : Nat
  entry : Chan
  group : Option Group

/-- A transmission with its copies, under a number: combined with others of its group, or alone with no deadline (R370). -/
def Frame.recv (f : Frame) (c : Cell) (id : Nat) (resolved : List (Nat × Nat)) (combined : Bool) (copies : List Copied) : Recv :=
  let first := copies.headD { site := c.site, instant := 0, corr := 0, headerEnd := 0 }
  let g := if combined then f.group else none
  { id := id, domain := f.domain, cell := first.cell, rec_ := (f.image.cellIn f.slot first.cell).getD c, slot := f.slot,
    windowEnd := f.windowEnd, entry := f.entry, alignUs := g.elim 0 (·.alignUs), deadlineUs := g.map (·.deadlineUs), resolved := resolved,
    copies := copies, sites := g.elim [first.site] fun g => g.sites.take g.members, rxPhy := f.entry.code }

/-- A transmission of its own. -/
def State.newRecv (s : State) (f : Frame) (c : Cell) (copy : Copied) : State :=
  let r := f.recv c s.radio.recvIds [] false [copy]
  { s with radio := { s.radio with recvs := s.radio.recvs ++ [s.resolve r [copy.headerEnd]], recvIds := s.radio.recvIds + 1 } }

/-- Of copies of one member the one with the highest correlation, and of those the earliest. -/
def bestCopy (l : List Copied) (site : Nat) : Option Copied :=
  (l.filter (·.site == site)).foldl (fun b c => match b with
    | none => some c
    | some x => if x.corr < c.corr ∨ (x.corr = c.corr ∧ c.instant < x.instant) then some c else b) none

/-- Transmissions that copies form, in order of their instants (R371, R375): the earliest with those within ALIGN_US of it, the best of
each member; another copy of a member is decoded alone. The order in which they were detected does not enter. -/
def formed (align : Nat) : Nat → List Copied → List (Bool × List Copied)
  | 0, _ => []
  | _, [] => []
  | n + 1, a :: l =>
    let near := a :: l.filter fun c => decide (c.instant ≤ a.instant + align * 1000)
    let part := near.filter fun c => bestCopy near c.site == some c
    (true, part) :: ((near.filter fun c => !part.contains c).map fun c => (false, [c])) ++ formed align n (l.filter fun c => !near.contains c)

/-- Copies in order of their instants, of equal ones the lower site first. -/
def sortCopies (l : List Copied) : List Copied :=
  l.foldl (fun acc c => acc.takeWhile (fun x => decide (x.instant < c.instant) || (x.instant == c.instant && decide (x.site ≤ c.site))) ++
    c :: acc.dropWhile (fun x => decide (x.instant < c.instant) || (x.instant == c.instant && decide (x.site ≤ c.site)))) []

/-- The transmissions formed take the number of the one that their earliest copy was of, while it is free, or a new one. -/
def State.number (s : State) (f : Frame) (c : Cell) (old : List Recv) : List (Bool × List Copied) → List Recv → State
  | [], new => { s with radio := { s.radio with recvs := (s.radio.recvs.filter fun r => !(old.any (·.id == r.id))) ++ new } }
  | x :: l, new =>
    let was := (old.find? fun r => r.copies.any fun y => x.2.any fun z => y.site == z.site && y.instant == z.instant).map (·.id)
    let id := (was.filter fun n => !(new.any (·.id == n))).getD s.radio.recvIds
    let r := f.recv c id (old.flatMap (·.resolved)) x.1 x.2
    let s := if id = s.radio.recvIds then { s with radio := { s.radio with recvIds := s.radio.recvIds + 1 } } else s
    s.number f c old l (new ++ [s.resolve r [r.partEnd 0]])

/-- Transmissions of the group of a cell in its window and on its channel (R371). -/
def State.mates (s : State) (f : Frame) (c : Cell) : List Recv :=
  s.radio.recvs.filter fun r =>
    r.domain == f.domain && r.slot == f.slot && r.rec_.grouped && r.rec_.group == c.group && sameWindow r.rec_ c && r.entry == f.entry

/-- The combiner passed self-test; without it every copy is decoded alone, with no deadline (R630). -/
def State.combines (s : State) : Bool := !s.bist.unusable.contains (5, 0)

/-- Place a copy (R371, R372, R375): with those of its group whose header is not decided it forms transmissions afresh; of one whose header
is decided it is no member any more. -/
def State.placeCopy (s : State) (f : Frame) (c : Cell) (copy : Copied) : State :=
  match f.group with
  | none => s.newRecv f c copy
  | some g =>
    if !s.combines then s.newRecv f c copy
    else
      let mates := s.mates f c
      let decided := fun (r : Recv) => r.header.isSome || r.finished
      match mates.find? fun r => decided r && r.deadlineUs.isSome && decide (((r.instant : Int) - copy.instant).natAbs ≤ g.alignUs * 1000) with
      | some r =>
        if r.copies.any (·.site == copy.site) then s.newRecv f c copy
        else s.setRecv { r with copies := r.copies ++ [copy] }
      | none =>
        let old := mates.filter fun r => !decided r
        let copies := sortCopies (old.flatMap (·.copies) ++ [copy])
        s.number f c old (formed g.alignUs copies.length copies) []

/-- The watch of an acknowledgement that a transmit cell keeps at an instant of TB0 (R420). -/
def State.ackWatch (s : State) (d cell site instant : Nat) : Option Await :=
  s.mesh.awaits.find? fun w => w.domain == d && w.cell == cell && w.site == site &&
    decide (w.opens ≤ s.ofTb0 d instant) && decide (s.ofTb0 d instant < w.closes)

/-- The channel on which a cell hears at an instant: an entry of a receive cell's set, or the one on which a transmit cell watches for an
acknowledgement. -/
def State.hears (s : State) (d : Nat) (i : Image) (x : Detect) (c : Cell) : Option Chan :=
  if c.rx then (i.chset c)[x.entry]?
  else if c.ackReq then (s.ackWatch d x.cell c.site x.instantNs).map fun w => { freq := w.freq, phy := w.phy, band := w.band }
  else none

/-- The window of a cell ends at the boundary of the activation that ended its image at the latest (R412). -/
def SchedDomain.windowEnd (x : SchedDomain) (s : State) (d instant fin : Nat) : Nat :=
  if x.previous.isSome ∧ s.ofTb0 d instant < x.activeFrom then min fin (s.toTb0 d x.activeFrom) else fin

/-- DETECTION (R311, R338, R339, R342, R345, R371, R418, R420). -/
def execDetection (site : Fin 96) (d : Detect) (s : State) : Host.Outcome State Fault Refusal :=
  let n := site.val
  let dom := d.domain.val
  .next (match (s.domain dom).imageFor fun _ => s.ofTb0 dom d.instantNs with
    | none => s
    | some i =>
      let slot := s.ofTb0 dom d.instantNs / i.slotNs
      match i.cellIn slot d.cell with
      | none => s
      | some c =>
        let w := s.cellWindow dom i slot c
        match s.hears dom i d c with
        | none => s
        | some e =>
          if (s.site n).state != .inService || c.site != n || !s.serves dom c ||
              decide (d.instantNs < w.1) || decide (w.2 ≤ d.instantNs) || (s.domain dom).ended.contains (slot, d.cell) then s
          else
            let s := s.count (.site n .detections)
            if c.ctx ≤ s.contextsUsed dom d.cell slot n then s.count (.site n .ctxOverflow)
            else
              let a := 2 * e.band + (if e.band = 2 then 0 else d.antenna % 2)
              let seen := d.gainPeriods.map fun p => p.map (· + 500 * (s.site n).scale a d.instantNs)
              let g := seen.foldl gainLoop (tget 0 s.radio.gains (watchKey n e.freq e.phy))
              let f : Frame := { domain := dom, image := i, slot := slot, windowEnd := (s.domain dom).windowEnd s dom d.instantNs w.2,
                                 entry := e, group := i.groupOf c }
              s.placeCopy f c
                { site := n, cell := d.cell, instant := d.instantNs, corr := d.corr, antenna := a, headerEnd := d.instantNs + headerNs e.code,
                  gain := g, equaliser := startEqualiser e.code, power := d.power, snr := d.snrQdb, rssi := d.rssi })

/-! ### SOFT_VALUES_DELIVERED -/

/-- A context has delivered every codeword. -/
def Recv.complete (r : Recv) (c : Copied) : Bool := (List.range r.ncw).all fun k => c.delivered.contains k

/-- The symbols with more than 8 blanked samples in their FFT windows (R341). -/
def erasedSymbols (blanks : List (Nat × Nat)) : List Nat := (blanks.filter fun b => decide (8 < b.2)).map (·.1)

/-- A soft value of a symbol with up to 8 blanked samples of 128, which are zero, under noise that is scaled by 128 / (128 - nb) (R341). -/
def scaledFor (nb : Nat) (v : Int) : Int := if nb = 0 then v else divRound (v * (128 - nb)) 128

/-- The soft values of a codeword as a copy gives them, from -127 to 127 (R341, R373). Of LOFDM, whose bits fill the data symbols in order
(R351), a symbol that is erased gives 0, and one with fewer blanked samples is scaled. Of a single-carrier PHY, a value whose chip or
symbol spans a blanked sample is 0; there `blanks` numbers the values. -/
def Recv.values (r : Recv) (c : Copied) (cw : Nat) (blanks : List (Nat × Nat)) (l : List Int) : List Int :=
  let nb (k : Nat) : Nat := (blanks.find? (·.1 == k)).elim 0 (·.2)
  l.zipIdx.map fun v => clampInt (-127) 127 (
    if r.entry.phy % 16 = 4 then
      let k := 1 + (cw * r.n + v.2) / r.load
      if c.erased.contains k then 0 else scaledFor (nb k) v.1
    else if r.entry.phy % 16 = 2 ∨ nb v.2 = 0 then v.1 else 0)

/-- The soft values of a header as a copy gives them: of LOFDM, symbol 0. -/
def Recv.headerValues (r : Recv) (c : Copied) (blanks : List (Nat × Nat)) (l : List Int) : List Int :=
  let nb := (blanks.find? (·.1 == 0)).elim 0 (·.2)
  l.map fun v => clampInt (-127) 127 (if r.entry.phy % 16 = 4 then (if c.erased.contains 0 then 0 else scaledFor nb v) else v)

/-- A context that is held equalises what comes with its soft values (R345). -/
def Recv.equalise (r : Recv) (site : Nat) (i : EqInput) : Recv :=
  { r with copies := r.copies.map fun y => if y.site = site ∧ y.held then { y with equaliser := y.equaliser.run r.entry.phy i } else y }

/-- A part comes from a context. One that is late is discarded. The values of a codeword count when their site is a member. -/
def Recv.take (r : Recv) (c : Copied) (part : Nat) (late : Bool) (now : Nat) (blanks : List (Nat × Nat)) (values : List Int) : Copied :=
  if part = 0 then
    if late || r.header.isSome || c.headerAt.isSome then c else { c with headerAt := some now, header := r.headerValues c blanks values }
  else if r.header.isNone || decide (r.ncw < part) then c
  else
    { c with delivered := (part - 1) :: c.delivered.filter (· != part - 1)
             soft := if late || r.finished || !r.members.contains c.site then c.soft
                     else tset [] c.soft (part - 1) (r.values c (part - 1) blanks values) }

/-- The uplink rate of a stream's band in S/s, and the sample that an instant ends in. -/
def lastSample (rate ns : Nat) : Nat := (ns * rate + 999999999) / 1000000000 - 1

/-- The fronthaul delay of a frame at a site (R376): from the last sample of the frame to the ingress timestamp of the packet that
carries it; the highest of each second is kept. -/
def State.frameDelay (s : State) (site band antenna ns : Nat) : State :=
  let n := lastSample (ulRate band) ns
  match (tget {} (s.site site).streams (antenna + 1) : UlStream).stamps.find? fun e => decide (e.1 ≤ n) && decide (n ≤ e.2.1) with
  | some e =>
    let delay := e.2.2 - n * 1000000000 / ulRate band
    let sec := (s.now 0).1
    let old := if (s.site site).fhSec = sec then s.counter (.site site .fhDelayMaxNs) else 0
    (s.modSite site fun z => { z with fhSec := sec }).gauge (.site site .fhDelayMaxNs) (max old delay)
  | none => s

/-- SOFT_VALUES_DELIVERED (R340, R341, R345, R372, R374): a context that has delivered its last values is free. -/
def execSoftValuesDelivered (id : Nat) (site : Fin 96) (part : Nat) (blanks : List (Nat × Nat)) (soft : Soft) (s : State) :
    Host.Outcome State Fault Refusal :=
  .next (match s.recv id with
    | none => s
    | some r =>
      let r := r.equalise site.val soft.eq
      match r.copies.find? (·.site == site.val) with
      | none => s
      | some c =>
        if !c.held || (s.site site.val).state != .inService then s
        else
          let erased := if r.entry.phy % 16 = 4 then erasedSymbols blanks else []
          let s := s.count (.site site.val .symbolsErased) erased.length
          let late := match s.dueAt r (r.partEnd part) with | some t => decide (t < s.time.duration) | none => false
          let s := if late then s.count (.site site.val .combLate) else s
          let s := if part ≠ 0 ∧ part = r.ncw then s.frameDelay site.val r.entry.band c.antenna (c.instant + (r.frameEnd - r.instant)) else s
          let c := r.take { c with erased := c.erased ++ erased } part late s.time.duration blanks soft.values
          let free := if r.header.isSome then r.complete c else r.finished && part == 0
          let s := if free then s.releaseGains { r with copies := [c] } else s
          s.settleRecv { r with copies := r.copies.map fun y => if y.site = c.site then { c with held := !free } else y })

/-! ### HEADER_DECISION -/

/-- The member whose header came first: of equal instants the lowest site. -/
def Recv.firstSite (r : Recv) : Nat :=
  (r.copies.foldl (fun (b : Option (Nat × Nat)) c => match c.headerAt, b with
    | none, b => b
    | some t, none => some (t, c.site)
    | some t, some x => if t < x.1 ∨ (t = x.1 ∧ c.site < x.2) then some (t, c.site) else b) none).elim 0 (·.2)

/-- Bits on each data subcarrier of a received LOFDM frame; none for a map that is not the node's, or of a cell that is not dedicated
(R355, R362). -/
def State.loadOf (s : State) (c : Cell) (h : Nat) : Option (List Nat) :=
  if hdrLoad h ≠ 0 then some (List.replicate 96 (loadBits (hdrLoad h)))
  else if c.type ≠ 0 ∧ c.type ≠ 1 then none
  else
    let m : NodeMaps := tget {} s.radio.maps c.node
    ([m.ulCur, m.ulPrev].filterMap id |>.find? (·.id == hdrMap h)).map (·.bits)

/-- The transmission with its header decided: codewords, their ends and the frame's end (R351, R372). -/
def Recv.decided (r : Recv) (h len n rate ncw load : Nat) (ends : List Nat) (frameEnd : Nat) : Recv :=
  { r with header := some h, members := (r.copies.filter (·.headerAt.isSome)).map (·.site), len := len, n := n, rate := rate, ncw := ncw,
           load := load, ends := ends, frameEnd := frameEnd }

/-- Ends of the codewords of a LOFDM frame: each at its last symbol. -/
def lofdmEnds (instant n len rate b : Nat) : List Nat :=
  let t := lofdmT n len rate
  (List.range (lofdmNcw n len rate)).map fun c => instant + (3 + (min ((c + 1) * n) t + b - 1) / b) * 115200

/-- The header's soft values: of every member that has delivered them, added, and limited once (R372, R373). -/
def Recv.headerSum (r : Recv) : List Int := addSoft ((r.copies.filter (·.headerAt.isSome)).map (·.header))

/-- The PHY code of an entry with the options of a received PHR: those of MR-FSK are read from it (R396). -/
def Chan.heard (e : Chan) (options : Nat) : Nat :=
  if e.phy % 16 = 0 then phyCode e.freq (e.phy % 1024 + 1024 * (options % 32)) else e.code

/-- HEADER_DECISION of a transmission that at least one member's header has reached. -/
def State.decideHeader (s : State) (r : Recv) (w : HeaderWord) : State :=
  let site := r.firstSite
  let lose (c : SiteCtr) : State := (s.endRecv r).count (.site site c)
  let start := r.instant
  match w with
  | .lofdm =>
    let h := headerOf r.headerSum
    let len := hdrLen h
    if r.entry.phy % 16 != 4 || !hdrOk h then lose .hdrFail
    else if len < 5 then lose .psduLenErr
    else match s.loadOf r.rec_ h with
      | none => lose .mapUnknown
      | some bits =>
        let b := sumNat bits
        let n := hdrCw h
        if b = 0 then lose .mapUnknown
        else
          let ends := lofdmEnds start n len (hdrRate h) b
          let fin := start + (3 + lofdmNdata n len (hdrRate h) b) * 115200
          if r.windowEnd < fin - 115200 then s.endRecv r
          else s.setRecv (s.resolve (r.decided h len n (hdrRate h) ends.length b ends fin) (ends ++ [fin]))
  | .phr len supported options =>
    let code := r.entry.heard options
    let top := if r.entry.phy % 16 = 3 then 127 else 2047
    if r.entry.phy % 16 = 4 || !supported then lose .hdrFail
    else if len < 5 || top < len then lose .psduLenErr
    else
      let fin := start + airNs code len
      if r.windowEnd < fin - symbolNs code then s.endRecv r
      else s.setRecv (s.resolve { r.decided 0 len (8 * len) 0 1 0 [fin] fin with rxPhy := code } [fin])

/-- Every member whose site is in service has delivered its header (R372, R375, R418). -/
def State.headersIn (s : State) (r : Recv) : Bool :=
  r.copies.any (·.headerAt.isSome) &&
    r.sites.all fun n => (s.site n).state != .inService || r.copies.any fun c => c.site == n && c.headerAt.isSome

/-- The header's due instant has come. -/
def State.headerDue (s : State) (r : Recv) : Bool :=
  match s.dueAt r (r.partEnd 0) with | some t => decide (t ≤ s.time.duration) | none => false

/-- HEADER_DECISION (R340, R344, R350, R362, R371, R372, R377): when every member's header has come, or at the due instant. With none
by then nothing is decoded, and each context is free once its header comes (log entry 114). -/
def execHeaderDecision (id : Nat) (header : HeaderWord) (s : State) : Host.Outcome State Fault Refusal :=
  .next (match s.recv id with
    | none => s
    | some r =>
      if r.header.isSome || r.finished || !(s.headersIn r || s.headerDue r) then s
      else if r.copies.any (·.headerAt.isSome) then s.decideHeader r header
      else s.settleRecv { r with finished := true })

/-! ### CODEWORD_READY -/

/-- The copies of the members (R372). -/
def Recv.present (r : Recv) : List Copied := r.copies.filter fun c => r.members.contains c.site

/-- The codeword's soft values: members added, an undelivered one as 0, and limited once to ±127 (R372, R373). -/
def Recv.sum (r : Recv) (cw : Nat) : List Int := addSoft (r.present.map fun c => tget [] c.soft cw)

/-- Trap 1 ends the cell's detections for the rest of its window and frees its contexts (R423): what they have not delivered is lost, and
the codewords queued stay. -/
def State.endCell (s : State) (d cell slot : Nat) : State :=
  let s := (s.radio.recvs.filter fun r => r.domain == d && r.slot == slot).foldl (State.loseContext (·.cell == cell)) s
  s.modDomain d fun x => { x with ended := (x.ended.filter fun e => decide (slot ≤ e.1 + 1)) ++ [(slot, cell)] }

/-- Cycles that a cell has made ready in the running tick, with one codeword more (R367, R408, R423). -/
def State.chargeTick (s : State) (r : Recv) : State :=
  let d := r.domain
  let tick := s.domainNs d / 50000
  let cost := if r.entry.phy % 16 = 4 then ldpcCycles r.rate r.n 24 else 0
  let x := s.domain d
  let old := tget (0, 0) x.ready r.cell
  let sum := (if old.1 = tick then old.2 else 0) + cost
  let s := s.modDomain d fun x => { x with ready := tset (0, 0) x.ready r.cell (tick, sum) }
  if r.rec_.decPeak < sum && !(x.ended.contains (r.slot, r.cell)) then
    ((s.count (.domain d .trapDecode)).trapEntry d 1 r.rec_.site r.rec_.band r.slot).endCell d r.cell r.slot
  else s

/-- CODEWORD_READY (R368, R372, R373): every member has delivered the codeword, or its due instant has come; the sum of what was delivered
is queued. -/
def execCodewordReady (id : Nat) (cw : Nat) (s : State) : Host.Outcome State Fault Refusal :=
  .next (match s.recv id with
    | none => s
    | some r =>
      let all := r.present.all fun c => c.delivered.contains cw
      let due := match s.dueAt r (r.partEnd (cw + 1)) with | some t => decide (t ≤ s.time.duration) | none => false
      if r.header.isNone || r.finished || decide (r.ncw ≤ cw) || (r.queued.any (·.1 == cw)) || (r.done.any (·.1 == cw)) || !(all || due) then s
      else
        let at_ := match s.dueAt r (r.partEnd (cw + 1)) with | some t => min t s.time.duration | none => s.time.duration
        let r' := { r with queued := r.queued ++ [(cw, at_, r.sum cw)] }
        (s.setRecv r').chargeTick r')

/-! ### Loading maps -/

def State.policy (s : State) (d : Nat) : LoadPolicy := tget {} s.radio.policies d

/-- The site with the highest mean SNR of the frames heard; of equal ones the lowest. -/
def NodeMaps.best (m : NodeMaps) : Option Nat :=
  let mean (n : Nat) : Int × Nat :=
    let l := (m.heard.filter (·.1 == n)).map (·.2.1)
    (l.foldl (· + ·) 0, l.length)
  ((m.heard.map (·.1)).eraseDups).foldl (fun b n => match b with
    | none => some n
    | some x =>
      let a := mean n
      let c := mean x
      if c.1 * a.2 < a.1 * c.2 ∨ (c.1 * a.2 = a.1 * c.2 ∧ n < x) then some n else b) none

/-- A copy of a decoded frame is remembered: four at most of a site. -/
def NodeMaps.hear (m : NodeMaps) (freq band : Nat) (l : List (Nat × Int × List Int)) : NodeMaps :=
  let add (h : List (Nat × Int × List Int)) (e : Nat × Int × List Int) : List (Nat × Int × List Int) :=
    e :: ((h.filter (·.1 == e.1)).take 3 ++ h.filter (·.1 != e.1))
  { m with heard := l.foldl add m.heard, freq := freq, band := band }

/-- The noise-floor bin that holds a frequency given in units of 1/128 Hz. -/
def binOf (band : Nat) (f128 : Int) : Nat := ((f128 - 128 * (bandEdges band).1) / 1250000).toNat

/-- Insertion sort, for a median. -/
def insertInt (x : Int) : List Int → List Int
  | [] => [x]
  | y :: l => if x ≤ y then x :: y :: l else y :: insertInt x l

/-- The lower median. -/
def medianInt (l : List Int) : Option Int :=
  let a := l.foldl (fun acc x => insertInt x acc) []
  a[(a.length - 1) / 2]?

/-- Noise on each data subcarrier at a site (R358); none when the band has no estimate at all. -/
def State.siteNoise (s : State) (site band freq : Nat) : Option (List Int) :=
  let f : Floor := tget {} (s.site site).floors band
  (medianInt (f.floors.filterMap (·.2))).map fun med =>
    dataCarriers.map fun k => (tget none f.floors (binOf band ((freq : Int) * 128 + k * 1250000))).getD med

/-- Noise as the node reports it: 24 groups of four subcarriers (R458). -/
def nodeNoise (b : Bytes) : List Int := (List.range 96).map fun d => -640 + 2 * (byteAt b (d / 4) : Int)

/-- The next MAP_ID after `cur`, skipping the previous uplink map's (R357). -/
def nextMapId (cur : Nat) (prev : Option LoadMap) : Nat :=
  let n := cur % 255 + 1
  match prev with
  | some p => if p.id = n then n % 255 + 1 else n
  | none => n

/-- The map in force, with uniform loading where there is none. -/
def inForce (m : Option LoadMap) : Nat × List Nat :=
  match m with
  | some x => (x.rate, x.bits)
  | none => (0, List.replicate 96 1)

/-- The new map differs enough to be sent (R359). -/
def mapDiffers (old : Nat × List Nat) (new : Nat × List Nat) : Bool :=
  old.1 != new.1 || decide (8 ≤ ((old.2.zip new.2).filter fun p => p.1 != p.2).length)

/-- Mean SNR at the best site. -/
def NodeMaps.meanSnr (m : NodeMaps) : Int :=
  match m.best with
  | none => 0
  | some n =>
    let l := (m.heard.filter (·.1 == n)).map (·.2.1)
    truncDiv (l.foldl (· + ·) 0) l.length

/-- Queue a loading update for its node (R360). -/
def State.applyLoading (s : State) (d h : Nat) (down : Bool) (m : LoadMap) : State :=
  let p := s.newPacket
  let now := s.time.duration
  let s := p.1.modMaps h fun x =>
    if down then { x with pending := x.pending ++ [(down, m)], lastDl := m.id, dlAt := some now, snrDl := some x.meanSnr }
    else { x with pending := x.pending ++ [(down, m)], lastUl := m.id, ulAt := some now, snrUl := some x.meanSnr }
  let ie := vendorIe 0x01 (leBytes 1 (b2n down + 2 * m.rate) ++ leBytes 1 m.id ++ m.bytes)
  s.queueFrame d { handle := some h, payload := ie, ies := true, update := some (down, m), packet := p.2 }

/-- Send a loading update (R360), a firmware effect (R548), when its node's queue has room. -/
def State.sendUpdate (s : State) (d h : Nat) (down : Bool) (m : LoadMap) : State :=
  match s.node h with
  | none => s
  | some n =>
    if n.dlqLimit ≤ s.dlCount d h then s
    else s.firmware (.loading d h down m.id m.rate m.bits) fun s => s.applyLoading d h down m

/-- One direction of a node's maps (R358, R359). The ID follows that of the current map, or the latest given while an update waits
(DEDUCED, log entry 135). -/
def State.remap (s : State) (d h : Nat) (down : Bool) (n : Nat) (sig noise : List Int) : State :=
  let p := s.policy d
  let m : NodeMaps := tget {} s.radio.maps h
  let cur := if down then m.dlCur else m.ulCur
  match chooseMap p n sig noise with
  | none => if down then s.modMaps h fun x => { x with dlCur := none } else s.modMaps h fun x => { x with ulCur := none }
  | some c =>
    let at_ := if down then m.dlAt else m.ulAt
    let held := match at_ with | some t => decide (t + p.holdS * secCounts ≤ s.time.duration) | none => true
    let moved := match if down then m.snrDl else m.snrUl with
      | some v => decide (p.deltaQdb ≤ (m.meanSnr - v).natAbs)
      | none => false
    if held && (mapDiffers (inForce cur) c || moved) then
      let last := if down then m.lastDl else m.lastUl
      let base := match cur with | some x => if m.pending.any (·.1 == down) then last else x.id | none => last
      s.sendUpdate d h down { id := nextMapId base m.ulPrev, rate := c.1, bits := c.2 }
    else s

/-- The MCC computes the node's maps again (R358, R359). The node's own transmit power against the device's is not known
to the spec's text, so the downlink level differs from the uplink one by a free value (log entry 3). -/
def State.remapNode (s : State) (h : Nat) : State :=
  match s.node h with
  | none => s
  | some n =>
    let m : NodeMaps := tget {} s.radio.maps h
    match m.best with
    | none => s
    | some site =>
      let own := m.heard.filter (·.1 == site)
      let sig := (List.range 96).map fun d => (own.map fun e => e.2.2.getD d 0).foldl (· + ·) 0
      let s := match s.siteNoise site m.band m.freq with
        | some noise => s.remap n.domain h false own.length sig noise
        | none => s
      match n.noise with
      | none => s.modMaps h fun x => { x with dlCur := none }
      | some b =>
        let z := s.draw
        z.2.remap n.domain h true own.length (sig.map fun x => x + own.length * ((z.1 : Int) % 1024 - 512)) (nodeNoise b)

/-- FLOOR_WINDOW_END (R315, R316, R359). -/
def execFloorWindowEnd (site : Fin 96) (band : Fin 3) (s : State) : Host.Outcome State Fault Refusal :=
  let s' := s.floorEnd site.val band.val
  .next ((s'.radio.maps.filter fun e => e.2.best == some site.val && e.2.band == band.val).foldl (fun s e => s.remapNode e.1) s')

/-! ### DECODE_DONE -/

/-- The PSDU of decoded codewords (R351). -/
def Recv.psdu (r : Recv) : Bytes :=
  let info := (List.range r.ncw).flatMap fun k => match r.done.find? (·.1 == k) with | some e => e.2 | none => []
  if r.entry.phy % 16 = 4 then
    bytesOf r.len (xorBits (info.take (8 * r.len)) (lfsrBits (8 * r.len) (hdrSeed (r.header.getD 0))))
  else bytesOf r.len (info.take (8 * r.len))

/-- The counter of frames by the copies they were decoded from. -/
def copiesCtr : Nat → DomainCtr
  | 0 | 1 => .combCopies1 | 2 => .combCopies2 | 3 => .combCopies3 | _ => .combCopies4

/-- A decoded frame of a node, under a map: what a LOFDM frame shows of it is remembered, and its maps are computed again; the first under
the new uplink map drops the one before (R358, R359, R361). -/
def State.heardFrom (s : State) (h freq band : Nat) (lofdm : Bool) (heard : List (Nat × Int × List Int)) (under : Option Nat) : State :=
  let newUl (m : NodeMaps) : Bool := under.isSome && m.ulCur.map (·.id) == under
  (if lofdm then s.modMaps h fun m => { m.hear freq band heard with ulPrev := if newUl m then none else m.ulPrev } else s).remapNode h

/-- The frame is decoded: it goes to the mesh, and its node's maps are computed again when its cell names the node. -/
def State.frameDecoded (s : State) (r : Recv) (domain : Fin 64) (site : Fin 96) : State :=
  let main := (r.present.find? (·.site == site.val)).getD { site := site.val, instant := r.instant, corr := 0, headerEnd := 0 }
  let lofdm := r.entry.phy % 16 == 4
  let heard := if lofdm then r.present.map fun c => (c.site, c.snr, c.power) else []
  let a : AirFrame := { domain := domain, cell := r.cell, slot := r.slot, site := site, instantNs := r.instant, endNs := r.frameEnd,
                        freq := r.entry.freq, phy := r.entry.phy, rxPhy := r.rxPhy, copies := r.present.length, reliability := r.reliability,
                        rssi := main.rssi, snrQdb := main.snr, heard := heard, psdu := r.psdu }
  let s := (s.finishRecv r).count (.domain r.domain (copiesCtr r.present.length))
  let s := { s with radio := { s.radio with decoded := s.radio.decoded ++ [a] } }
  if r.rec_.type = 0 ∨ r.rec_.type = 1 then
    s.heardFrom r.rec_.node r.entry.freq r.entry.band lofdm heard ((r.header.filter fun h => lofdm && hdrLoad h == 0).map hdrMap)
  else s

/-- The soft values of a codeword with its shortened bits, which enter with +127 (R351, R366). -/
def Recv.filled (r : Recv) (cw : Nat) (soft : List Int) : List Int :=
  let k := ldpcK r.n r.rate
  let short := if cw + 1 = r.ncw then r.ncw * k - 8 * r.len else 0
  (List.range r.n).map fun i => if i < k - short then soft.getD i 0 else if i < k then 127 else soft.getD (i - short) 0

/-- A decode of a codeword (R366): its bits, its iterations, and whether its syndrome is zero. -/
def Recv.decode (r : Recv) (cw : Nat) (soft : List Int) : List Bool × Nat × Bool := minSum r.rate (r.n / 24) (r.filled cw soft)

/-- The convolutional code that a frame is under: MR-FSK with FEC, MR-O-QPSK, MR-OFDM. -/
def Recv.coded (r : Recv) : Bool := (r.rxPhy % 16 == 0 && bit r.rxPhy 10) || r.rxPhy % 16 == 1 || r.rxPhy % 16 == 2

/-- Decoder cores for a frame: of the LDPC decoders those that passed self-test (R367, R633), 8 for the convolutional codes (R369); a frame
without a code needs none. -/
def State.cores (s : State) (r : Recv) : Option Nat :=
  if r.entry.phy % 16 = 4 then some (16 - s.radio.badCores) else if r.coded then some 8 else none

/-- A codeword waits before another: by ready instant, then site, then detection instant (R368). -/
def waitsBefore (a b : Nat × Nat × Nat × Nat × Nat) : Bool :=
  decide (a.1 < b.1) || (a.1 == b.1 && (decide (a.2.1 < b.2.1) || (a.2.1 == b.2.1 && (decide (a.2.2.1 < b.2.2.1) ||
    (a.2.2.1 == b.2.2.1 && (decide (a.2.2.2.1 < b.2.2.2.1) || (a.2.2.2.1 == b.2.2.2.1 && decide (a.2.2.2.2 < b.2.2.2.2))))))))

/-- A queued codeword has a core: fewer that are not done wait before it than there are cores. -/
def State.begun (s : State) (r : Recv) (cw : Nat) : Bool :=
  match s.cores r, r.queued.find? (·.1 == cw) with
  | _, none => false
  | none, some _ => true
  | some n, some q =>
    let lofdm (x : Recv) : Bool := x.entry.phy % 16 == 4
    let ahead := s.radio.recvs.map fun x => (x.queued.filter fun p =>
      lofdm x == lofdm r && (s.cores x).isSome &&
        waitsBefore (p.2.1, x.firstSite, x.instant, x.id, p.1) (q.2.1, r.firstSite, r.instant, r.id, cw)).length
    decide (sumNat ahead < n)

/-- DECODE_DONE (R366, R368, R369, R374, R359) of a codeword that has a core. The bits and the reliability of a convolutional decode, and of
a frame without a code the bits, are those that its PHY's decoder gives. -/
def execDecodeDone (id : Nat) (cw : Nat) (bits : List Bool) (_iters : Nat) (reliability : Nat) (s : State) :
    Host.Outcome State Fault Refusal :=
  .next (match s.recv id with
    | none => s
    | some r =>
      match r.queued.find? (·.1 == cw) with
      | none => s
      | some q =>
        if !s.begun r cw then s
        else
          let site := r.firstSite
          let lofdm := r.entry.phy % 16 == 4
          let x := r.decode cw q.2.2
          let r := { r with queued := r.queued.filter (·.1 != cw) }
          if lofdm && !x.2.2 then (s.finishRecv r).count (.site site .cwFailed)
          else
            let s := if lofdm then (s.count (.site site .cwDecoded)).count (.site site .iterations) x.2.1
              else if r.coded then s.count (.site site .convFrames) else s
            let info := if lofdm then x.1.take (ldpcK r.n r.rate) else bits
            let sure := if lofdm || r.coded then reliability else q.2.2.foldl (fun m v => min m v.natAbs) 127
            let r := { r with done := r.done ++ [(cw, info)], reliability := min r.reliability sure }
            if r.finished then s.settleRecv r
            else if r.done.length < r.ncw then s.setRecv r
            else if h : r.domain < 64 ∧ site < 96 then (s.setRecv r).frameDecoded r ⟨r.domain, h.1⟩ ⟨site, h.2⟩
            else s.finishRecv r)

/-- DECODE_ABANDON (R368): a codeword that no core has begun 100 us after its ready instant. -/
def execDecodeAbandon (id : Nat) (cw : Nat) (s : State) : Host.Outcome State Fault Refusal :=
  .next (match s.recv id with
    | none => s
    | some r =>
      if (r.queued.any fun e => e.1 == cw && decide (e.2.1 + 100 * usCounts ≤ s.time.duration)) && !s.begun r cw then
        (s.finishRecv r).count (.device .decOverrun)
      else s)

/-! ### RADIO_LOADING_CONFIG and RADIO_MAP_READ -/

def radioLoadingConfigSpec : AciSpec where
  op := 0x0607
  lenOk := lenIs 8
  pf0Only := false
  modes := modesRun
  carried := true
  rsv := fun _ => [(0, 0xC0), (2, 0xF0), (6, 0xFF), (7, 0xFF)]
  par := fun r _ =>
    badIf (decide (40 < r.f 17 1) || decide (r.fb 18 2 2 < r.fb 18 0 2) || decide (r.f 19 1 < 10) || decide (r.f 20 2 < 4) ||
      decide (80 < r.f 20 2)) 0x40
  owned := fun r s => s.ownsDomain r.fn (r.fb 16 0 6)
  effect := fun r s =>
    let p : LoadPolicy := { marginQdb := r.f 17 1, minRate := r.fb 18 0 2, maxRate := r.fb 18 2 2, holdS := r.f 19 1, deltaQdb := r.f 20 2 }
    ({ s with radio := { s.radio with policies := tset {} s.radio.policies (r.fb 16 0 6) p } }, okReply)

def execRadioLoadingConfig (r : Aci) (s : State) : Host.Outcome State Fault Refusal := .next (radioLoadingConfigSpec.exec r s)

/-- A VF names a handle in the range of one of its tenant's domains. -/
def State.ownsHandle (s : State) (fn h : Nat) : Bool :=
  fn == 0 || (match s.domainOfHandle h with | some d => s.domainTenant d == some (fn - 1) | none => false)

/-- The octets of a map that may be absent. -/
def mapOrZero (m : Option LoadMap) : Bytes := match m with | some x => x.bytes | none => List.replicate 48 0

def mapIdOf (m : Option LoadMap) : Nat := match m with | some x => x.id | none => 0
def mapRateOf (m : Option LoadMap) : Nat := match m with | some x => x.rate | none => 0

def radioMapReadSpec : AciSpec where
  op := 0x0608
  lenOk := lenIs 4
  buffer := true
  pf0Only := false
  modes := modesRead
  rsv := fun _ => [(2, 0xFE), (3, 0xFF)]
  owned := fun r s => s.ownsHandle r.fn (r.b 0 4 % 2 ^ 17)
  avail := fun r s => badIf (s.node (r.b 0 4 % 2 ^ 17)).isNone 0x44
  effect := fun r s =>
    let m : NodeMaps := tget {} s.radio.maps (r.b 0 4 % 2 ^ 17)
    -- seconds since an update that never was are not stated (log entry 3)
    let z := s.draw
    let since := match m.acceptedAt with
      | some t => (s, min ((s.time.duration - t) / secCounts) (2 ^ 32 - 1))
      | none => (z.2, z.1)
    (since.1, okWith (leBytes 1 (mapIdOf m.ulCur) ++ leBytes 1 (mapIdOf m.ulPrev) ++ leBytes 1 (mapIdOf m.dlCur) ++
      leBytes 1 (mapRateOf m.ulCur + 4 * mapRateOf m.dlCur + 16 * b2n (!m.pending.isEmpty)) ++ leBytes 4 since.2 ++ mapOrZero m.ulCur ++
      mapOrZero m.ulPrev ++ mapOrZero m.dlCur ++ List.replicate 8 0))

def execRadioMapRead (r : Aci) (s : State) : Host.Outcome State Fault Refusal := .next (radioMapReadSpec.exec r s)

end Sys2Proof.Machine
end

