-- ==== Sys2Proof/Machine/Air.lean ====
section
/-! DEFINITION. Transmit cells (R394, R414 to R418, R421, R422), acknowledgements (R419), and the loading of an image
(R403). -/

namespace Sys2Proof.Machine

/-! ### Air times -/

/-- The loading that the device sends a frame with: map ID, rate, LOAD_MODE and the bits of each data subcarrier. -/
structure Load where
  map : Nat
  rate : Nat
  mode : Nat
  bits : List Nat
  deriving DecidableEq, Repr

/-- Bits of a symbol (R351). -/
def Load.b (l : Load) : Nat := sumNat l.bits

/-- LOAD_MODE 1 at rate 1/2. -/
def uniform : Load := { map := 0, rate := 0, mode := 1, bits := List.replicate 96 1 }

/-- The loading of a unicast frame to a node (R357, R361). -/
def State.loadTo (s : State) (h : Nat) : Load :=
  match (tget {} s.radio.maps h : NodeMaps).dlCur with
  | some m => { map := m.id, rate := m.rate, mode := 0, bits := m.bits }
  | none => uniform

/-- Octets of FCS of a PHY code (R396). -/
def fcsLen (phy : Nat) : Nat := if phy % 16 = 0 && bit phy 14 then 4 else 2

/-- The PSDU of an MPDU: with its FCS. -/
def psduOf (phy : Nat) (mpdu : Bytes) : Bytes :=
  if fcsLen phy = 4 then mpdu ++ leBytes 4 (crc32 mpdu) else mpdu ++ leBytes 2 (crc16 mpdu)

/-- Air time in ns of a PSDU of so many octets. -/
def airOf (phy : Nat) (l : Load) (len : Nat) : Nat := if phy % 16 = 4 then lofdmNs len l.rate l.b else airNs phy len

/-- What the modulator takes of a PSDU: of LOFDM the symbols under a seed. -/
def modulated (phy : Nat) (l : Load) (seed : Nat) (psdu : Bytes) : Modulated :=
  if phy % 16 = 4 then .symbols (lofdmSymbols psdu l.map l.rate l.mode l.bits seed) else .psdu psdu

/-! ### The checks of a transmit action -/

/-- Keyed time used in a slot, by its start, under a key: 3 x site + band, or 1,000 + cell. -/
def SchedDomain.usedAt (x : SchedDomain) (start key : Nat) : Nat := tget 0 (tget [] x.used start) key

/-- Whom a trap names, and what an action would use. -/
structure Action where
  d : Nat
  slot : Nat
  cell : Nat
  rec_ : Cell
  site : Nat
  band : Nat
  freq : Nat
  phy : Nat
  power : Int
  /-- Start and length on air, in ns on TB0. -/
  start : Nat
  air : Nat
  carries : List (Nat × Modulated)
  deriving DecidableEq, Repr

/-- A site under trap 4 refuses every action of the domain (R423). -/
def State.fronthaulTrap (s : State) (d site : Nat) : Bool := (tget none (s.domain d).late site).isSome

/-- The site can send on a band (R418). -/
def State.canSend (s : State) (site band : Nat) : Bool :=
  (s.site site).state == .inService && bit (s.siteCfg site).bandEn band

/-- The checks of R416 in order, then the sending (R306, R319). -/
def State.act (s : State) (i : Image) (a : Action) : State × Bool :=
  let samples := burstSamples a.band a.air
  let us := keyedUs a.band samples
  let key := 3 * a.site + a.band
  let x := s.domain a.d
  let from_ := a.slot * i.slotNs
  let vect := match i.slots[a.slot % 2 ^ i.k]? with
    | some y => (match y.vect a.site with | some v => v.dwell.getD a.band 0 | none => 0)
    | none => 0
  if s.fronthaulTrap a.d a.site then (s.count (.domain a.d .trapFronthaul), false)
  else if vect < x.usedAt from_ key + us || a.rec_.keyed < x.usedAt from_ (1000 + a.cell) + us then
    ((s.count (.domain a.d .trapKeyed)).trapEntry a.d 2 a.site a.band a.slot, false)
  else if s.needsTune a.site a.band a.freq && s.tuneClash a.site a.band a.start then
    ((s.count (.domain a.d .trapRecal)).trapEntry a.d 3 a.site a.band a.slot, false)
  else
    let r := s.dwellCheck a.site a.band a.freq (s.durationAt 0 a.start) us
    if !r.2 then r
    else
      let s := r.1.sendBurst { site := a.site, band := a.band, freq := a.freq, phy := a.phy, power := a.power, start := a.start,
                               samples := samples, carries := a.carries }
      (s.modDomain a.d fun x =>
        { x with used := tmod [] x.used from_ fun t => tmod 0 (tmod 0 t key (· + us)) (1000 + a.cell) (· + us) }, true)

/-! ### Fitting (R415) -/

/-- A PSDU that the device may build under a PHY (R377). -/
def psduFits (phy len : Nat) : Bool := decide (5 ≤ len) && decide (len ≤ if phy % 16 = 3 then 127 else 2047)

/-- A frame fits a cell: air time within KEYED_US, and with its acknowledgement within LEN_US. -/
def Image.fitsCell (i : Image) (c : Cell) (air : Nat) : Bool :=
  decide (air ≤ c.keyed * 1000) &&
    decide (air + (if c.ackReq then c.ackDelay * 1000 + chsetA (i.chset c) else 0) ≤ c.len * 1000)

/-- Cells of the image that serve the queue of a cell. -/
def Image.queueCells (i : Image) (c : Cell) (h : Nat) : List Cell :=
  (i.slots.flatMap fun x => x.cells.map (·.2)).filter fun o =>
    if c.type = 1 ∨ c.type = 6 then
      (o.type == 1 && o.node == h) ||
        (o.type == 6 && i.csls.any fun r => r.node == h && r.site == o.site &&
          (match (i.chsets.getD r.chset []).head? with | some e => e.band == o.band | none => false))
    else o.type == c.type

/-- Some cell of the queue takes the frame, on some channel of its set. -/
def Image.fitsSome (i : Image) (c : Cell) (h len : Nat) (l : Load) : Bool :=
  (i.queueCells c h).any fun o => (i.chset o).any fun e => i.fitsCell o (airOf e.code l len) && psduFits e.phy len

/-- The channel of a transmit cell in a slot (R395). -/
def Image.hop (i : Image) (slot : Nat) (c : Cell) : Option Chan :=
  let set := i.chset c
  if set.isEmpty then none else set[(slot - i.asnOrigin + c.chOffset) % set.length]?

/-! ### What a cell sends -/

/-- What a transmit cell would send: the MPDU, its loading, and what follows the sending. -/
inductive Sent where
  | unicast (h : Nat) (f : DlFrame)
  | broadcast
  | join (r : JoinResp)
  | beacon
  | block
  deriving DecidableEq, Repr

/-- The Enhanced Beacon of a TX_SHARED cell (R445); the join metric is not stated, so it is free (log entry 3). -/
def State.beacon (s : State) (d : Nat) (c : DomainCfg) (i : Image) (slot : Nat) : State × Bytes :=
  let q := s.nextSeq d
  let z := q.1.draw
  let m := s.meshDom d
  let sync := payloadIe 1 (leBytes 2 (6 + 256 * 0x1A) ++ leBytes 5 (slot - i.asnOrigin) ++ leBytes 1 z.1)
  let run := match m.dist with | some x => leBytes 2 x.id ++ leBytes 1 x.target | none => [0, 0, 0]
  let info := vendorIe 0x08 (leBytes 1 (s.keyIndex d) ++ leBytes 1 (b2n c.joinOpen) ++ leBytes 2 c.joinSpreadS ++ run ++ [0])
  (z.2, fcfOf 0 false false false true 0 2 ++ leBytes 1 q.2 ++ leBytes 2 c.panId ++ leBytes 2 deviceShort ++ headerEnd1 ++ sync ++ info)

/-- Octets of a secured frame beside its payload: header of 15, MIC of 8. -/
def securedExtra (ies : Bool) : Nat := 23 + (if ies then 2 else 0)

/-- A frame of a node's queue is on air and waits for its acknowledgement. -/
def State.awaited (s : State) (id : Nat) : Bool := s.mesh.awaits.any (·.frame == id)

/-- The distribution goes on to its next block, and ends after the last (R472). -/
def State.nextBlock (s : State) (d : Nat) : State :=
  let s := s.modMesh d fun m => { m with dist := m.dist.map fun x => { x with sent := x.sent + 1 } }
  match (s.meshDom d).dist with
  | some x => if x.maxIndex < x.sent / x.ngen then s.endDist d stRetries 0 else s
  | none => s

/-- After the sending of a frame that ends on air at `fin` on the domain's base; in a cell with ACK_REQ a node's frame is watched for
its acknowledgement on its channel (R420). -/
def State.afterSend (s : State) (d slotNs fin : Nat) (i : Image) (cell : Nat) (c : Cell) (e : Chan) : Sent → State
  | .unicast h f =>
    let s := s.attempted h f
    if c.ackReq then
      let w : Await := { domain := d, handle := h, frame := f.id, cell := cell, site := c.site, band := c.band, freq := e.freq, phy := e.phy,
                         opens := fin + c.ackDelay * 1000 - 100000,
                         closes := fin + c.ackDelay * 1000 + chsetA (i.chset c) }
      { s with mesh := { s.mesh with awaits := s.mesh.awaits ++ [w] } }
    else s.delivered h f false
  | .broadcast => s.modMesh d fun m => { m with bcast := m.bcast.drop 1 }
  | .join r =>
    let s := s.modMesh d fun m => { m with joinQ := m.joinQ.drop 1 }
    match r.handle with
    | some h => s.engineWrite h fun n => if n.eui = r.eui then { n with joinSent := some slotNs } else n
    | none => s
  | .beacon => s
  | .block => s.nextBlock d

/-- A frame too long for every cell of its queue is discarded (R415). -/
def State.tooLong (s : State) (d : Nat) : Sent → State
  | .unicast h f =>
    ((s.count (.domain d .tooLongDrop)).engineWrite h fun n => { n with queue := n.queue.filter fun x => x.id != f.id }).dropUpdate h f
  | .broadcast => (s.count (.domain d .tooLongDrop)).modMesh d fun m => { m with bcast := m.bcast.drop 1 }
  | .join _ => (s.count (.domain d .tooLongDrop)).modMesh d fun m => { m with joinQ := m.joinQ.drop 1 }
  | .beacon => s
  | .block => (s.count (.domain d .tooLongDrop)).nextBlock d

/-- A frame that does not fit a cell waits for another, or is discarded when none takes it (R415). -/
def State.unfit (s : State) (d : Nat) (i : Image) (c : Cell) (h len : Nat) (l : Load) (what : Sent) : State :=
  match what with
  | .beacon => s
  | _ => if i.fitsSome c h len l then s.count (.domain d .tooLongDefer) else s.tooLong d what

/-- Send an MPDU in a cell, if it fits and its checks let it go. `mk` makes the MPDU at the sending, `len` is its length. -/
def State.sendIn (s : State) (d : Nat) (i : Image) (slot cell : Nat) (c : Cell) (e : Chan) (t : Nat) (what : Sent) (l : Load)
    (len : Nat) (mk : State → State × Option Bytes) : State :=
  let air := airOf e.code l (len + fcsLen e.phy)
  let h := match what with | .unicast h _ => h | _ => 0
  if !(i.fitsCell c air && psduFits e.phy (len + fcsLen e.phy)) then s.unfit d i c h (len + fcsLen e.phy) l what
  else
    let z := s.generate 0
    let m := mk z.2
    match m.2 with
    | none => m.1
    | some mpdu =>
      let a : Action := { d := d, slot := slot, cell := cell, rec_ := c, site := c.site, band := c.band, freq := e.freq, phy := e.phy,
                          power := c.power, start := s.toTb0 d t, air := air,
                          carries := [(air, modulated e.phy l (z.1 % 127 + 1) (psduOf e.phy mpdu))] }
      let r := m.1.act i a
      if r.2 then
        (r.1.modDomain d fun x => { x with last := some (max (x.last.getD 0) t) }).afterSend d t (t + air) i cell c e what
      else r.1

/-! ### CSL trains (R421, R422) -/

/-- t, φ and P of a node: the sample instants are `anchor` + n x `period`, and U grows from `since`. All in ns. -/
structure CslTiming where
  since : Nat
  anchor : Nat
  period : Nat
  deriving DecidableEq, Repr

/-- A record restored after a clean entry has no instants until a frame gives its timing (R457). -/
def NodeRec.csl (n : NodeRec) (r : CslRec) : CslTiming :=
  if n.cslKnown then { since := n.cslFrom, anchor := n.cslAnchorNs, period := n.cslPeriodUs * 1000 }
  else if n.resumed then { since := 0, anchor := 0, period := 0 }
  else { since := 0, anchor := r.phaseNs, period := r.periodMs * 1000000 }

/-- U in ns of a sample instant. -/
def CslRec.uncert (r : CslRec) (since sn : Nat) : Nat :=
  (r.baseUs + (r.driftPpb * (sn - since) + 999999999999) / 1000000000000) * 1000

/-- The sample instants that lie in a window, in order. -/
def CslTiming.instants (t : CslTiming) (lo hi : Nat) : List Nat :=
  if t.period = 0 then []
  else
    let n0 := (lo - t.anchor + t.period - 1) / t.period
    ((List.range ((hi - lo) / t.period + 2)).map fun k => t.anchor + (n0 + k) * t.period).filter fun x => decide (lo ≤ x) && decide (x ≤ hi)

/-- The CSL record of a node that names a cell's site and band, with its channel. -/
def Image.cslFor (i : Image) (c : Cell) (h : Nat) : Option (CslRec × Chan) :=
  match i.csls.find? fun r => r.node == h && r.site == c.site with
  | some r =>
    match (i.chsets.getD r.chset []).head? with
    | some e => if e.band = c.band then some (r, e) else none
    | none => none
  | none => none

/-- What a node's CSL timing gives in a window that begins at `lo`: the first sample instant that fits, and whether every
instant lies too wide (R421, R422). `air` is the frame's air time, `issue` the present time of the domain's base, and `busy` a span in which
the band is keyed already (log entry 126). -/
def CslTiming.fit (t : CslTiming) (r : CslRec) (i : Image) (c : Cell) (lo air issue : Nat) (busy : Nat → Nat → Bool) : Option Nat × Bool :=
  let hi := lo + c.len * 1000
  let tail := if c.ackReq then c.ackDelay * 1000 + chsetA (i.chset c) else 0
  let all := t.instants lo hi
  let wide (x : Nat) : Bool := decide (c.len * 1000 < 2 * r.uncert t.since x) ||
    decide (200000 < burstSamples c.band (2 * r.uncert t.since x + air))
  let ok (x : Nat) : Bool :=
    let u := r.uncert t.since x
    !wide x && decide (lo + u ≤ x) && decide (issue + u ≤ x) && decide (x + u + air + tail ≤ hi) && !busy (x - u) (x + u + air)
  (all.find? ok, !all.isEmpty && all.all wide)

/-- A wake-up frame (R421; log entry 55): a multipurpose frame to the node with the Rendezvous Time IE, in units of ten symbol periods. -/
def wakeFrame (pan dst rz : Nat) : Bytes :=
  leBytes 2 0x852D ++ leBytes 2 pan ++ leBytes 2 dst ++ leBytes 2 (2 + 128 * 0x1D) ++ leBytes 2 rz

/-- Wake-up frames that end `left` ns before the frame and go back to back, each with its air time; the LOFDM seeds are drawn in turn. -/
def State.train (s : State) (pan dst : Nat) (e : Chan) (air left : Nat) : Nat → State × List (Nat × Modulated)
  | 0 => (s, [])
  | n + 1 =>
    let z := s.generate 0
    let rz := (left + n * air) / Config.cslUnitNs e.code
    let f := modulated e.phy uniform (z.1 % 127 + 1) (psduOf e.phy (wakeFrame pan dst (rz % 65536)))
    let r := z.2.train pan dst e air left n
    (r.1, (air, f) :: r.2)

/-- The wake-up train and the frame for a sample instant `x`. What fills the train before its first whole wake-up frame is not stated: it
is the sample of an empty part. -/
def State.cslSend (s : State) (d pan : Nat) (i : Image) (slot cell : Nat) (c : Cell) (h : Nat) (e : Chan) (f : DlFrame)
    (x u air : Nat) : State :=
  let wake := airOf e.code uniform ((wakeFrame 0 0 0).length + fcsLen e.phy)
  let n := 2 * u / wake
  let y := s.train pan (s.shortAddr d h) e wake 0 n
  let z := y.1.generate 0
  let a : Action := { d := d, slot := slot, cell := cell, rec_ := c, site := c.site, band := c.band, freq := e.freq, phy := e.phy,
                      power := c.power, start := s.toTb0 d (x - u), air := 2 * u + air,
                      carries := (2 * u - n * wake, .psdu []) :: y.2 ++ [(air, modulated e.phy (s.loadTo h) (z.1 % 127 + 1) (psduOf e.phy f.mpdu))] }
  let q := z.2.act i a
  if q.2 then
    ((q.1.modDomain d fun y => { y with last := some (max (y.last.getD 0) (x - u)) }).count (.domain d .cslTrains)).afterSend d
      (x - u) (x + u + air) i cell c e (.unicast h f)
  else q.1

/-- One node at a CSL cell (R394, R415, R421, R422). -/
def State.cslNode (s : State) (d pan : Nat) (i : Image) (slot cell : Nat) (c : Cell) (lo : Nat) (h : Nat) : State :=
  match s.node h, i.cslFor c h with
  | some n, some (r, e) =>
    match n.queue with
    | [] => s
    | f :: _ =>
      if s.awaited f.id then s
      else
        let t := n.csl r
        let len := f.mpdu.length + fcsLen e.phy
        let air := airOf e.code (s.loadTo h) len
        if !(i.fitsCell c air && psduFits e.phy len) then s.unfit d i c h len (s.loadTo h) (.unicast h f)
        else
          let busy (a b : Nat) : Bool := (s.site c.site).keyed.any fun k =>
            k.1 == c.band && decide (k.2.1 < s.toTb0 d b) && decide (s.toTb0 d a < k.2.2)
          let y := t.fit r i c lo air (s.domainNs d) busy
          match y.1 with
          | some x => s.cslSend d pan i slot cell c h e f x (r.uncert t.since x) air
          | none => if y.2 || (n.resumed && !n.cslKnown) then s.count (.domain d .cslTooWide) else s
  | _, _ => s

/-- The nodes of a CSL cell in their order: NODE first, then ascending handles. -/
def State.cslCell (s : State) (d pan : Nat) (i : Image) (slot cell : Nat) (c : Cell) (lo : Nat) (l : List Nat) : State :=
  l.foldl (fun s h => s.cslNode d pan i slot cell c lo h) s

/-! ### TX_ISSUE -/

/-- The frame of the block of a distribution, secured under the broadcast key; none where a lease or key is wanting. -/
def State.blockFrame (d : Nat) (m : DomainCfg) (ie : Bytes) (s : State) : State × Option Bytes :=
  let k := s.bcastKey d
  match k.2 with
  | none => (k.1, none)
  | some key =>
    let n := k.1.takeCounter d
    match n.2 with
    | none => (n.1.count (.domain d .leaseWait), none)
    | some ctr =>
      let f := n.1.secured d m key ctr 1 0xFFFF false true ie
      (f.1, some f.2)

/-- A beacon as it is made at its issue. -/
def State.beaconFrame (d : Nat) (m : DomainCfg) (i : Image) (slot : Nat) (s : State) : State × Option Bytes :=
  let b := s.beacon d m i slot
  (b.1, some b.2)

/-- A transmit cell at its issue instant. -/
def State.issue (s : State) (d : Nat) (m : DomainCfg) (i : Image) (slot cell : Nat) (c : Cell) (t : Nat) : State :=
  if c.type = 6 then
    s.cslCell d m.panId i slot cell c t (c.node :: ((i.csls.map (·.node)).filter (· != c.node)))
  else
    match i.hop slot c with
    | none => s
    | some e =>
      let send := s.sendIn d i slot cell c e t
      if c.type = 1 then
        match s.node c.node with
        | some n =>
          match n.queue with
          | f :: _ =>
            if s.awaited f.id then s
            else send (.unicast c.node f) (s.loadTo c.node) f.mpdu.length fun s => (s, some f.mpdu)
          | [] => s
        | none => s
      else if c.type = 3 then
        match (s.meshDom d).bcast with
        | f :: _ => send .broadcast uniform f.mpdu.length fun s => (s, some f.mpdu)
        | [] =>
          let b := s.beacon d m i slot
          send .beacon uniform b.2.length (State.beaconFrame d m i slot)
      else if c.type = 5 then
        match (s.meshDom d).joinQ with
        | r :: _ => send (.join r) uniform r.mpdu.length fun s => (s, some r.mpdu)
        | [] => s
      else
        match (s.meshDom d).dist with
        | none => s
        | some x =>
          let ie := x.block
          send .block uniform (securedExtra true + ie.length) (State.blockFrame d m ie)

/-- An instant of the domain's base lies at or after the boundary from which the active image issues nothing: that of a
pending activation (R411), or the one at which a deactivation takes place (R431). -/
def SchedDomain.pastEnd (x : SchedDomain) (ns : Nat) (i : Image) : Bool :=
  (match x.activation with | some a => decide (a.at_ ≤ ns) | none => false) ||
    (!x.stopping.isEmpty && decide (x.stopSlot < ns / i.slotNs))

/-- The images that a slot number and a cell can be of, the active one first: each issues actions with instants on its side of a pending
activation's boundary (R411). -/
def SchedDomain.slotCells (x : SchedDomain) (slot cell : Nat) : List (Image × Cell) :=
  let pick (i : Image) (own : Nat → Bool) : List (Image × Cell) := match i.cellIn slot cell with
    | some c => if own (slot * i.slotNs + c.start * 1000) then [(i, c)] else []
    | none => []
  (match x.activeImage with | some i => pick i fun t => !x.pastEnd t i | none => []) ++
    match x.activation with
    | some a => (match (x.bank a.bank).image with | some j => pick j fun t => decide (a.at_ ≤ t) | none => [])
    | none => []

/-- The instant of a transmit cell's action. -/
def Cell.instant (c : Cell) (i : Image) (slot : Nat) : Nat := slot * i.slotNs + c.start * 1000

/-- The cell whose issue instant has come and whose action's instant has not passed (R414). -/
def State.issueDue (s : State) (d slot cell : Nat) : Option (Image × Cell) :=
  ((s.domain d).slotCells slot cell).find? fun p =>
    let t := p.2.instant p.1 slot
    decide (s.domainNs d ≤ t) && decide (t ≤ s.domainNs d + (460000 + p.1.fhMax p.2.site * 1000))

/-- MCC of a domain (R21), and whether it is being reloaded. -/
def mccOf (d : Nat) : Nat := 4 + d / 16
def State.mccAway (s : State) (d : Nat) : Bool := s.procs.reloading.contains (mccOf d)

/-- TX_ISSUE (R387, R414): the instant at which a transmit cell's frame is chosen, checked and sent. An instant that a step
of the base has passed over is not issued (R140, R141). -/
def execTxIssue (d : Fin 64) (slot : Nat) (cell : Nat) (s : State) : Host.Outcome State Fault Refusal :=
  let d := d.val
  let x := s.domain d
  .next (match s.issueDue d slot cell, (s.meshDom d).cfg with
    | some (i, c), some m =>
      let t := c.instant i slot
      if !s.inService || !c.tx || decide (t < x.notBefore) || decide (slot < i.asnOrigin) ||
          x.issued.contains (t, cell) || !s.serves d c || (s.meshDom d).nextEpoch.isSome || (c.type == 7 && s.mccAway d) then s
      else
        let s := s.modDomain d fun x => { x with issued := (x.issued.filter fun e => decide (s.domainNs d ≤ e.1)) ++ [(t, cell)] }
        if s.canSend c.site c.band then s.issue d m i slot cell c t else s
    | _, _ => s)

/-! ### Acknowledgements (R419) -/

/-- Octets of an acknowledgement's PSDU less its FCS. -/
def ackLen : Nat := securedExtra false

/-- The acknowledgements planned or issued whose spans overlap one of a site and band, given on TB0: each with its domain. -/
def State.ackHits (s : State) (site band lo hi : Nat) : List (Nat × AckPlan) :=
  s.radio.domains.flatMap fun e => (e.2.acks.filter fun p =>
    p.site == site && p.band == band && decide (s.toTb0 e.1 p.startNs < hi) && decide (lo < s.toTb0 e.1 p.endNs)).map fun p => (e.1, p)

/-- An acknowledgement that another one keeps off the air (R419, R423). -/
def State.ackClash (s : State) (d site band slot : Nat) : State := (s.count (.domain d .ackConflict)).trapEntry d 5 site band slot

/-- An acknowledgement is planned for an authenticated frame, or counted late or clashing: of two that clash, of one domain or of two, the
frame that authenticated first is acknowledged, and of two in one clock the lower handle (R419, R436). -/
def State.planAck (s : State) (d : Nat) (i : Image) (cell : Nat) (c : Cell) (h : Nat) (a : AirFrame) (seq : Nat) : State :=
  let site := i.ackSite c
  let start := s.ofTb0 d a.endNs + c.ackDelay * 1000
  let lead := 460000 + i.fhMax site * 1000
  let fin := start + airOf (phyCode a.freq a.phy) uniform (ackLen + fcsLen a.phy)
  if decide (a.slot < i.asnOrigin) then s
  else if start < s.domainNs d + lead then s.count (.domain d .ackLate)
  else
    let x := s.domain d
    let first (p : AckPlan) : Bool := p.issued || decide (p.authAt < s.time.duration) || decide (p.handle ≤ h)
    let hits := s.ackHits site c.band (s.toTb0 d start) (s.toTb0 d fin)
    if x.previous.isSome && decide (a.slot * i.slotNs < x.activeFrom) && decide (x.activeFrom ≤ start) then s
    else if hits.any fun e => first e.2 then s.ackClash d site c.band a.slot
    else
      let p : AckPlan := { id := x.ackIds, cell := cell, handle := h, site := site, band := c.band, freq := a.freq, phy := a.phy,
                           power := c.power, startNs := start, endNs := fin, seqNo := seq,
                           authAt := s.time.duration }
      let s := hits.foldl (fun s e => (s.ackClash e.1 site c.band a.slot).modDomain e.1 fun y => { y with acks := y.acks.erase e.2 }) s
      s.modDomain d fun x => { x with
        acks := x.acks.filter (fun q => decide (s.domainNs d ≤ q.endNs)) ++ [p], ackIds := x.ackIds + 1 }

/-- The Enhanced Acknowledgement of a frame; none when no counter or key is to be had (R456, R500). -/
def State.buildAck (s : State) (d : Nat) (m : DomainCfg) (p : AckPlan) : State × Option Bytes :=
  match s.node p.handle with
  | none => (s, none)
  | some n =>
    let k := s.nodeKey d n.eui
    match k.2 with
    | none => (k.1, none)
    | some key =>
      let t := k.1.takeCounter d
      match t.2 with
      | none => (t.1, none)
      | some ctr =>
        let hd := securedHeader 2 p.seqNo m.panId (s.shortAddr d p.handle) ctr (s.keyIndex d) false false
        (t.1.aesJob, some (hd ++ Config.ccmSeal 8 key (ccmNonce m.deviceEui ctr 6) hd []))

/-- The instant of an acknowledgement is no longer, or not yet again, to be issued. -/
def SchedDomain.passed (x : SchedDomain) (now : Nat) (i : Image) (p : AckPlan) : Bool :=
  decide (p.startNs < now) || decide (p.startNs < x.notBefore) || x.pastEnd p.startNs i

/-- ACK_ISSUE (R135, R138, R414, R416, R419, R423), timed on the domain's base, with D sampled as it is issued. One whose instant has passed, was stepped over or is held, or lies past the end of
its image is not sent (R140, R141, R411). -/
def execAckIssue (d : Fin 64) (id : Nat) (s : State) : Host.Outcome State Fault Refusal :=
  let d := d.val
  .next (match (s.domain d).acks.find? (fun q => q.id == id && !q.issued), (s.domain d).activeImage, (s.meshDom d).cfg with
    | some p, some i, some m =>
      let slot := p.startNs / i.slotNs
      let c := (i.slots.flatMap fun x => x.cells).find? (·.1 == p.cell)
      let lead := 460000 + i.fhMax p.site * 1000
      if s.domainNs d + lead < p.startNs then s
      else
        let s := s.modDomain d fun x => { x with acks := x.acks.map fun q => if q.id = id then { q with issued := true } else q }
        match c with
        | none => s
        | some e =>
          if !s.inService || !s.canSend p.site p.band || (s.domain d).passed (s.domainNs d) i p then s
          else if s.fronthaulTrap d p.site then s.count (.domain d .trapFronthaul)
          else
            let b := s.buildAck d m p
            match b.2 with
            | none => b.1
            | some mpdu =>
              let z := b.1.generate 0
              let a : Action := { d := d, slot := slot, cell := p.cell, rec_ := e.2, site := p.site, band := p.band, freq := p.freq,
                                  phy := p.phy, power := p.power, start := s.toTb0 d p.startNs, air := p.endNs - p.startNs,
                                  carries := [(p.endNs - p.startNs, modulated p.phy uniform (z.1 % 127 + 1) (psduOf p.phy mpdu))] }
              let r := z.2.act i a
              if r.2 then (r.1.modDomain d fun x => { x with last := some (max (x.last.getD 0) p.startNs) }).count (.domain d .ackSent)
              else r.1
    | _, _, _ => s)

/-! ### IMAGE_LOAD_DONE (R403) -/

/-- The first failure of a load: status, subcode and where. -/
structure LoadFail where
  st : Nat
  sub : Nat
  slot : Nat := 0xFFFFFF
  site : Nat := 0xFF
  band : Nat := 0xFF
  deriving DecidableEq, Repr

/-- A breach as the completion event gives it. -/
def Breach.fail (b : Breach) : LoadFail :=
  { st := stContract, sub := b.sub, slot := b.slot.getD 0xFFFFFF, site := b.site.getD 0xFF, band := b.band.getD 0xFF }

/-- The matrix row of the set that runs accepts a Kalxus FORMAT_MINOR (R54, R403, R601). -/
def State.kalxusAccepts (s : State) (minor : Nat) : Bool :=
  match s.ms.running with
  | some x => decide (x.kalxusMin ≤ minor) && decide (minor ≤ x.kalxusMax)
  | none => false

/-- Steps 1 to 6 of R403, and the image when all pass. -/
def State.loadImage (s : State) (d len : Nat) (dmaOk : Bool) (b : Bytes) : State × (LoadFail ⊕ Image) :=
  let fail (s : State) (st sub : Nat) : State × (LoadFail ⊕ Image) := (s, .inl { st := st, sub := sub })
  if !dmaOk || b.length != len then fail s stIntegrity 0x51
  else if leAt b 0 4 != 0x3149584B || leAt b 8 4 != len then fail s stIntegrity 0x50
  else if byteAt b 4 != 4 || byteAt b 5 == 0 || !s.kalxusAccepts (byteAt b 5) then fail s stVersion 0x50
  else
    let k := s.signingKey (leAt b 22 2 % 4096) (byteAt b 7 % 16)
    match k.2 with
    | none => fail k.1 stSignature 0x50
    | some key =>
      let reason := ecdsaP384 key (Config.sha384 (b.take (len - 104))) (slice b (len - 104) 96)
      let s := k.1.eccJob reason
      if reason ≠ 0 then fail s stSignature 0x51
      else if !structureOk b len then fail s stIntegrity 0x51
      else if !reservedOk b len then fail s stBadParam 0x01
      else
        let i := { parseImage b with plans := s.plansOf (parseImage b) }
        match s.contract d i with
        | some x => (s, .inl x.fail)
        | none => (s, .inr i)

/-- The side of a domain that is loading, with its command and IMAGE_LEN. -/
def SchedDomain.loading (x : SchedDomain) : Option (Bool × Nat × Nat × Nat) :=
  match x.bankA, x.bankB with
  | .loading f t l, _ => some (false, f, t, l)
  | _, .loading f t l => some (true, f, t, l)
  | _, _ => none

def execImageLoadDone (d : Fin 64) (dmaOk : Bool) (image : Bytes) (s : State) : Host.Outcome State Fault Refusal :=
  let d := d.val
  .next (match (s.domain d).loading with
    | none => s
    | some (side, fn, tag, len) =>
      if s.mgcDown fn || !s.busMaster fn then s
      else
      let r := s.loadImage d len dmaOk image
      match r.2 with
      | .inl e => (r.1.modDomain d fun x => x.setBank side .empty).complete fn tag 0x0703 e.st e.sub
          (leBytes 3 e.slot ++ leBytes 1 e.site ++ leBytes 1 e.band ++ [0])
      | .inr i => (r.1.modDomain d fun x => { x.setBank side (.loaded i) with lastLoaded := side, loadCmd := some (fn, tag) }).complete fn tag 0x0703 stOk 0
          [0xFF, 0xFF, 0xFF, 0xFF, 0xFF, 0])

end Sys2Proof.Machine
end

