-- ==== Sys2Proof/Machine/Update.lean ====
section
/-! DEFINITION. Bundles and their verification (R599 to R602), the banks of the boot flash
(R597, R598, R610, R612), and transfer sessions (R603 to R608, R614). -/

namespace Sys2Proof.Machine

/-! ### Bundles -/

/-- A component entry (R600). -/
structure Component where
  type : Nat
  model : Nat
  hwRev : Nat
  version : Nat
  offset : Nat
  length : Nat
  entry : Bytes
  deriving DecidableEq, Repr

/-- The stepping of this device (R681). -/
def stepping : Nat := 2

def componentAt (b : Bytes) (c : Nat) : Component :=
  let e := slice b (512 + 64 * c) 64
  { type := byteAt e 0, model := leAt e 2 2, hwRev := byteAt e 4, version := leAt e 8 4, offset := leAt e 12 4,
    length := leAt e 16 4, entry := e }

def componentsOf (b : Bytes) : List Component := (List.range (byteAt b 15)).map (componentAt b)

/-- How many components have a TYPE. -/
def ofType (l : List Component) (t : Nat) : Nat := (l.filter (·.type == t)).length

/-- No two of a list satisfy a relation. -/
def pairwiseNot {α : Type} (r : α → α → Bool) : List α → Bool
  | [] => true
  | x :: l => l.all (fun y => !r x y) && pairwiseNot r l

def Component.meets (a b : Component) : Bool := decide (a.offset < b.offset + b.length) && decide (b.offset < a.offset + a.length)

/-- The rules of R599 and R600 on a bundle of `len` bytes. -/
def headerOk (b : Bytes) (len : Nat) : Bool :=
  let l := componentsOf b
  let pru := l.filter (·.type == 7)
  leAt b 0 4 == 0x4E424C41 && byteAt b 4 == 1 && leAt b 8 4 == len && len % 4096 == 0 && decide (8192 ≤ len) &&
    decide (len ≤ 134152192) && decide (6 ≤ byteAt b 15) && decide (byteAt b 15 ≤ 32) && decide (1 ≤ byteAt b 16) &&
    decide (byteAt b 16 ≤ 16) &&
    rangeZero b (512 + 64 * byteAt b 15) 2559 && rangeZero b (2560 + 64 * byteAt b 16) 3583 &&
    [1, 2, 3, 4, 5, 6].all (fun t => ofType l t == 1) && decide (ofType l 7 ≤ 8) && decide (ofType l 8 ≤ 1) &&
    l.all (fun c => decide (1 ≤ c.type) && decide (c.type ≤ 8) && c.offset % 4096 == 0 && decide (4096 ≤ c.offset) &&
      decide (1 ≤ c.length) && decide (c.offset + c.length ≤ len) && (c.type == 7 || (c.model == 0 && c.hwRev == 0))) &&
    pairwiseNot Component.meets l && pairwiseNot (fun a c => a.model == c.model && a.hwRev == c.hwRev) pru &&
    pru.all (fun c => decide (c.length ≤ 8388608)) && decide (sumNat (pru.map (·.length)) ≤ 67108864)

/-- The set's row: the first that matches (R601). -/
def rowOf (b : Bytes) : Option Bytes :=
  let l := componentsOf b
  let version (t : Nat) : Nat := match l.find? (·.type == t) with | some c => c.version | none => 0
  ((List.range (byteAt b 16)).map fun r => slice b (2560 + 64 * r) 64).find? fun r =>
    byteAt r 0 == byteAt b 5 && leAt r 28 4 == leAt b 20 4 &&
      [1, 2, 3, 4, 5, 6].all fun t => leAt r (4 * t) 4 == version t

/-- Measurement digest D (R602). -/
def digestOf (b : Bytes) : Bytes := fit 48 (Config.sha384 (b.take 3584))

/-- SIGN_PUB hashes to a fused digest, and the key is not revoked. -/
def State.signerOk (s : State) (b : Bytes) : Bool :=
  let k := byteAt b 14 % 4
  fit 48 (Config.sha384 (slice b 128 96)) == fit 48 (Config.signKeyDigest k) && !s.nv.fuses.revoked.getLsbD k

/-- The signature over bytes 0 to 3,583 holds. -/
def signatureOk (b : Bytes) : Bool := ecdsaP384 (slice b 128 96) (digestOf b) (slice b 3584 96) == 0

/-- CK, when its tag verifies. -/
def contentKey (b : Bytes) : Option Bytes := Config.gcmOpen Config.imageKey (slice b 32 12) (b.take 32) (slice b 44 48)

/-- A component decrypted. -/
def Component.open (c : Component) (b ck : Bytes) : Option Bytes :=
  Config.gcmOpen ck (slice c.entry 20 12) (c.entry.take 20) (slice b c.offset c.length ++ slice c.entry 32 16)

/-- Every component decrypted, none when CK or a component fails its tag. -/
def decryptAll (b : Bytes) : Option (List (Component × Bytes)) :=
  (contentKey b).bind fun ck =>
    (componentsOf b).foldr (fun c acc => acc.bind fun l => (c.open b ck).map fun d => (c, d) :: l) (some [])

/-- Numbers that are not 0. -/
def nonZero (l : List Nat) : List Nat := l.filter (· != 0)

/-- Why a bundle is rejected, by the order in which it is looked at: the step of R624 with the status of R617. -/
structure Reject where
  reason : Nat
  status : Nat
  sub : Nat
  deriving DecidableEq, Repr

/-- A bundle checked (R599 to R602): the set that it holds. -/
def State.verify (s : State) (b : Bytes) (len : Nat) : Reject ⊕ ImageSet :=
  if !headerOk b len then .inl { reason := 1, status := stIntegrity, sub := 0xC0 }
  else if byteAt b 5 ≠ stepping then .inl { reason := 2, status := stVersion, sub := 0xC0 }
  else
    match rowOf b with
    | none => .inl { reason := 2, status := stVersion, sub := 0xC1 }
    | some row =>
      if !s.signerOk b then .inl { reason := 3, status := stSignature, sub := 0xC0 }
      else if !signatureOk b then .inl { reason := 3, status := stSignature, sub := 0xC1 }
      else
        match decryptAll b with
        | none => .inl { reason := 4, status := stIntegrity, sub := 0xC1 }
        | some l => .inr
          { major := byteAt b 6, minor := byteAt b 7, setVersion := leAt b 12 2, kalxusMin := byteAt row 32,
            kalxusMax := byteAt row 33, blobFrom := nonZero ((List.range 4).map fun i => leAt row (36 + 2 * i) 2),
            partners := nonZero ((List.range 4).map fun i => leAt row (44 + 2 * i) 2), signKey := byteAt b 14 % 4,
            revoke := byteAt b 14 / 4 % 16,
            pru := (l.filter fun x => x.1.type == 7).map fun x => (x.1.model, x.1.hwRev, x.2), digest := digestOf b,
            steps := l.any fun x => x.1.type == 8 }

/-! ### Banks -/

def State.flash (s : State) (bank : Bool) : FlashBank := if bank then s.nv.flashB else s.nv.flashA

def State.modFlash (s : State) (bank : Bool) (f : FlashBank → FlashBank) : State :=
  if bank then { s with nv := { s.nv with flashB := f s.nv.flashB } } else { s with nv := { s.nv with flashA := f s.nv.flashA } }

def State.bootRec (s : State) (bank : Bool) : BootRec := if bank then s.nv.bootB else s.nv.bootA

def State.modBoot (s : State) (bank : Bool) (f : BootRec → BootRec) : State :=
  if bank then { s with nv := { s.nv with bootB := f s.nv.bootB } } else { s with nv := { s.nv with bootA := f s.nv.bootA } }

/-- The committed bank (R598): the valid record of higher COMMIT_SEQ; with none or a tie, the bank marked LKG, else A. -/
def State.committed (s : State) : Bool :=
  let marked := s.nv.bootB.lkg && !s.nv.bootA.lkg
  match s.nv.flashA.rec_, s.nv.flashB.rec_ with
  | some a, some b => if a.seq < b.seq then true else if b.seq < a.seq then false else marked
  | some _, none => false
  | none, some _ => true
  | none, none => marked

/-- FALLBACK (R41): the running bank is not the committed bank. -/
def State.fallback (s : State) : Bool := s.ms.running.isSome && s.ms.bank != s.committed

/-- The highest COMMIT_SEQ of a valid record. -/
def State.topSeq (s : State) : Nat :=
  let seq (x : Option CommitRec) : Nat := match x with | some r => r.seq | none => 0
  max (seq s.nv.flashA.rec_) (seq s.nv.flashB.rec_)

/-- The header check of R53 on a bank: R599, and the DIGEST of a valid record (R598). -/
def State.checkBank (s : State) (bank : Bool) : Reject ⊕ ImageSet :=
  let f := s.flash bank
  match s.verify f.data (leAt f.data 8 4) with
  | .inl e => .inl e
  | .inr x =>
    match f.rec_ with
    | some r => if r.digest = x.digest then .inr x else .inl { reason := 1, status := stIntegrity, sub := 0xC0 }
    | none => .inr x

/-- Settings versions that the device has committed blobs of. -/
def State.blobs (s : State) : List Blob := [s.nv.blob, s.nv.oldBlob].filterMap fun b => b.filter (·.ok)

/-- A set can start from the settings that the device holds (R612). -/
def State.settingsStart (s : State) (x : ImageSet) : Bool :=
  s.ms.blobVersion == x.setVersion || x.blobFrom.contains s.ms.blobVersion || s.blobs.any fun b => b.version == x.setVersion

/-! ### Sessions -/

/-- BANK or NODE_IMAGE of a session's entries (R624). -/
def Session.target (x : Session) : Nat := if x.node then x.slot else b2n x.bank

/-- An update entry (R624). -/
def State.updateEntry (s : State) (type a b value : Nat) : State :=
  s.alarm 11 type (leBytes 1 a ++ leBytes 1 b ++ leBytes 4 value)

/-- IV of a transfer frame (R604); direction 1 from the device. -/
def astIv (session block op dir : Nat) : Bytes := leBytes 4 session ++ leBytes 4 block ++ leBytes 1 op ++ leBytes 1 dir ++ [0, 0]

/-- Bytes 0 to 11 of a transfer frame (R603). -/
def astHead (op session block dlen : Nat) : Bytes := leBytes 1 op ++ [0] ++ leBytes 4 session ++ leBytes 4 block ++ leBytes 2 dlen

/-- Send a transfer frame to the tool that bound the session (R596, R603, R604): the body is authenticated only. -/
def State.svcSend (s : State) (x : Session) (op block : Nat) (body : Bytes) : State :=
  match x.bound with
  | some (_, kt, dest) =>
    let h := astHead op x.number block body.length
    let tag := fit 16 (Config.gcmSeal kt (astIv x.number block op 1) (h ++ body) [])
    (({ s with svc := { s.svc with sent := (dest, h ++ body ++ tag) :: s.svc.sent } }).count (.device .svcTxFrames)).aesJob
  | none => s

def State.setSession (s : State) (x : Option Session) : State := { s with svc := { s.svc with session := x } }

/-- The final status of an UPDATE_INSTALL (R616, R620): in its completion event, or under NO_IMAGE in its response. -/
def State.finishInstall (s : State) (f tag st sub : Nat) (result : Bytes) : State :=
  if s.noImage then s.answer { fn := f, opcode := 0x0C03, tag := tag, fence := false, len := 1, buffer := 0, pl := [] } { status := st, sub := sub }
  else s.complete f tag 0x0C03 st sub result

/-- A session ends (R606, R608, R614, R615, R621): ABORT unless it is installed or the tool sent one, LAST_END, and
SESSION_ENDED. A node image that is not usable frees its slot. -/
def State.endSession (s : State) (last : Nat) : State :=
  match s.svc.session with
  | none => s
  | some x =>
    -- REASON of the device's ABORT is not stated (log entry 3)
    let z := s.draw
    let s := if last = 1 ∨ last = 4 then s else z.2.svcSend x 0x07 0 (leBytes 1 z.1)
    let s := { s with svc := { s.svc with session := none, lastEnd := last, stage := none } }
    -- the partner frees the slot of an image that is not installed
    let s := if x.node && last != 1 && s.leads then s.carry 16 (.effect (.imageBlock x.slot x.owner 0 [])) else s
    let s := s.updateEntry 0x0B02 last x.target x.bytes
    match x.install with
    | some (f, tag, _) =>
      if last = 1 ∨ last = 6 then s
      else
        -- the final status of an install that the end of its session cuts short is not stated (log entry 3)
        let a := s.draw
        let b := a.2.draw
        b.2.finishInstall f tag (a.1 % 65536) (b.1 % 256) []
    | none => s

/-- A change of mode (R614, R615): a node-image session ends with any, a bundle's at the entry to M4 or M6. -/
def State.sessionMode (s : State) (new : Mode) : State :=
  match s.svc.session with
  | some x => if x.node || new == .m4 || new == .m6 then s.endSession 5 else s
  | none => s

end Sys2Proof.Machine
end

