-- ==== Sys2Proof/Machine/Modes.lean ====
section
/-! DEFINITION. Changes of mode (R39, R42 to R49, R60, R694): the MODE_CHANGE entry, what an entry to M0 DORMANT and to
M1 BOOT keeps, and the entry to every other mode. -/

namespace Sys2Proof.Machine

/-! ### The MODE_CHANGE entry (R44, R694) -/

/-- Bytes 18 to 31 of MODE_CHANGE. -/
def changeBody (old new : Mode) (t cause resetCause : Nat) (unclean : Bool) : Bytes :=
  leBytes 1 old.num ++ leBytes 1 new.num ++ leBytes 1 t ++ leBytes 1 cause ++ leBytes 4 resetCause ++ leBytes 1 (b2n unclean)

/-- The MODE record of the Trace Port (R652, R654). -/
def State.traceMode (s : State) (old : Mode) (t : Nat) : State :=
  if s.cfg.own.trace.modeEn then
    s.traceRecord 4 (leBytes 1 old.num ++ leBytes 1 s.ms.mode.num ++ leBytes 1 t ++ leBytes 1 s.ms.safeCause)
  else s

/-- The MODE_CHANGE entry of a transition just made, other than into M0 or M1: to the PF0 mode Well. -/
def State.tellMode (s : State) (old : Mode) (t : Nat) : State :=
  (s.putEntry 0 1 0x0101 (changeBody old s.ms.mode t s.ms.safeCause 0 false)).traceMode old t

/-- The entry of a transition into M1 waits until the MGCs are loaded (R44); RESET_CAUSE and UNCLEAN are put in then. -/
def State.noteMode (s : State) (old : Mode) (t : Nat) : State :=
  { s with ms := { s.ms with noted := s.ms.noted ++ [changeBody old .m1 t 0 0 false] } }

/-! ### Entries that start the device afresh -/

/-- A cause is added to RESET_CAUSE (R41). -/
def State.addCause (s : State) (bit : Nat) : State :=
  { s with ms := { s.ms with resetCause := s.ms.resetCause ||| BitVec.ofNat 8 (2 ^ bit) } }

/-- MRAM with every staged commit abandoned whole (R49, R514, R668). -/
def Nvm.abandon (n : Nvm) : Nvm := { n with staged := [], keys := { n.keys with staged := [], commitAt := none } }

/-- What lies outside the device, or in the always-on domain, goes on: the inputs of the board and THERMTRIP_N. -/
def Pins.inputs (p : Pins) : Pins :=
  { pairIdPin := p.pairIdPin, pairId := p.pairId, activeIn := p.activeIn, aliveIn := p.aliveIn, thermtrip := p.thermtrip,
    refclkTile := p.refclkTile, refclkRc := p.refclkRc, freq10m := p.freq10m }

/-- The always-on part of the POWER block, and the states of the rails. -/
def Power.kept (p : Power) : Power := { railInRange := p.railInRange, railFault := p.railFault, tripSeen := p.tripSeen }

/-- The RTC keeps its count; its registers start afresh. -/
def Rtc.kept (c : Rtc) : Rtc := { count := c.count, phase := c.phase }

/-- The device started afresh in a mode (R46): MRAM, boot flash, RTC, RESET_CAUSE and the always-on power bits are kept. -/
def State.fresh (s : State) (m : Mode) : State :=
  { State.reset with
    ms := { mode := m, resetCause := s.ms.resetCause, armed := s.ms.armed, railsLost := s.ms.railsLost }
    host := { perst := s.host.perst }
    nv := s.nv.abandon
    time := { rtc := s.time.rtc.kept }
    pins := s.pins.inputs
    power := s.power.kept
    draws := s.draws
    pending := s.pending }

/-- M0 DORMANT (R39): every output low. -/
def State.dormant (s : State) : State := s.fresh .m0

/-- A base after a warm reset: it goes on counting at its last frequency, in HOLDOVER from LOCKED and ACQUIRING (R106). -/
def Base.warm (b : Base) : Base :=
  match b.state with
  | .locked | .acquiring => { b with state := .holdover, freq := b.integ, lockCount := 0 }
  | _ => b

def warmBases (t : Tab Base) : Tab Base := t.map fun e => (e.1, e.2.warm)

/-- The bases that a warm reset moves to HOLDOVER, with the number of the state that each leaves (R109, R155). -/
def warmMoves (t : Tab Base) : List (Nat × Nat) :=
  t.filterMap fun e =>
    match e.2.state with
    | .locked => some (e.1, 2)
    | .acquiring => some (e.1, 1)
    | _ => none

/-- The entry to M1 BOOT by warm reset, T5 or T11 (R46, R47): configuration space, lanes, bases and the pass-through of the
configured ring pairs go on, as a power-fail drain does (R43, R65); everything else starts afresh. -/
def State.warmReset (s : State) (cause : Nat) (t : Nat) : State :=
  let old := s.ms.mode
  let was := s
  let s := (s.addCause cause).fresh .m1
  let s := { s with
    host := { s.host with busMaster := was.host.busMaster }
    cfg := { rings := was.cfg.rings, ports := was.cfg.ports }
    time := { s.time with bases := warmBases was.time.bases, duration := was.time.duration }
    ports := { laneLocked := was.ports.laneLocked, passThrough := was.ports.passThrough }
    ms := { s.ms with inTransition := was.ms.inTransition
                      entryAt := if t = 6 then was.ms.entryAt else was.time.duration, armed := true
                      holdovers := (if t = 6 then was.ms.holdovers else []) ++ warmMoves was.time.bases
                      noted := if t = 6 then was.ms.noted else [], rejected := if t = 6 then was.ms.rejected else [] } }
  (s.noteMode old t).switchRings

/-- The entry to M1 BOOT by T4 (R42, R106). -/
def State.powerUp (s : State) : State :=
  let s := s.fresh .m1
  { s with ms := { s.ms with armed := true, railsLost := false } }.noteMode .m0 4

/-! ### Entries to the other modes -/

/-- An entry of the pair Well (R592). -/
def State.pairEntry (s : State) (type reason b19 w20 value : Nat) : State :=
  s.produce 2 3 type (leBytes 1 reason ++ leBytes 1 b19 ++ leBytes 2 w20 ++ leBytes 6 s.epoch ++ leBytes 4 value)

/-- PEER_RELEASE (R584). -/
def Pair.release (p : Pair) : Nat :=
  match p.peer with
  | some h => h.major + 256 * h.minor + 65536 * h.stepping
  | none => 0

/-- ACTIVE_OUT in a mode (R39, R572): high in M3 unless ACTIVE_IN is high or a back-off runs, kept in M4 and M6, else low, as in
the power-fail drain. -/
def State.setActive (s : State) : State :=
  let on := !s.ms.inTransition && match s.ms.mode with
    | .m3 => s.pins.activeOut || (!s.pins.activeIn && s.pair.backoff.isNone)
    | .m4 | .m6 => s.pins.activeOut
    | _ => false
  { s with pins := { s.pins with activeOut := on } }

/-- ALIVE_OUT in a mode (R39, R55). -/
def State.setAlive (s : State) : State :=
  { s with pins := { s.pins with aliveOut := s.ms.mode != .m0 && s.procs.loaded && !s.noImage } }

/-- Ports whose link is up go down with reason 8 at the entry to M7 SAFE (R160). -/
def State.allDown (s : State) : State :=
  ((s.ports.st.filter fun e => e.2.linkUp).map (·.1)).foldl (fun s p => s.takeDown p 8) s

/-- Radio work stops in M7 SAFE (R39): every context is freed, and what is still decoded has no effect. -/
def State.stopContexts (s : State) : State := s.endRecvs fun _ => true

/-- START_MS (R41): whole milliseconds since the M1 entry that it counts from. -/
def State.setStart (s : State) : State :=
  { s with ms := { s.ms with startMs := min ((s.time.duration - s.ms.entryAt) / 1600000) (2 ^ 32 - 1) } }

/-- A transition to a mode other than M0 and M1 (R42): START_MS when it leaves M1 BOOT or M2 MIGRATE, sessions, outputs, ring
pairs, optics masters, links, the entry. A trigger that arises in the power-fail drain is held until the drain ends, in M0,
from where the table allows only T4 (R43): it changes nothing. -/
def State.changeMode (s : State) (new : Mode) (t : Nat) (cause : Nat := 0) : State :=
  if s.ms.inTransition then s
  else
  let old := s.ms.mode
  let s := if old == .m2 || (old == .m1 && new != .m2) then s.setStart else s
  let s := s.sessionMode new
  let s := { s with ms := { s.ms with mode := new, safeCause := cause,
                                      standbyHeld := s.ms.standbyHeld && new == Mode.m5, synced := s.ms.synced && (new == Mode.m5 || new == Mode.m6) } }
  let s := (s.setActive.setAlive).switchRings.setDriving
  let s := if new = .m7 then s.allDown.stopContexts else s
  s.tellMode old t

/-- The entry to M7 SAFE (T18): forwarding and radio work stop, and the pair is left. -/
def State.enterSafe (s : State) (cause : Nat) : State :=
  if s.ms.inTransition then s
  else
  let s := s.modPair fun p => { p with phase := 0, check := none, agreement := none, swapped := false, backoff := none }
  s.changeMode .m7 18 cause

/-- A BSC fault, a fatal error, or a loss that counts as one (R21, R631): warm reset with WARM_FAULT. In M1 the bank has
failed during boot, which is T6. -/
def State.fatal (s : State) : State :=
  match s.ms.mode with
  | .m0 => s
  | .m1 => (s.addCause 6).warmReset 4 6
  | _ => s.warmReset 4 5

end Sys2Proof.Machine
end

