-- ==== Sys2Proof/Machine/TimeCmds.lean ====
section
/-! DEFINITION. Time bases and their servos, PTP, PPS, SyncE, the RTC and the TIME commands (spec/04_time.md). -/

namespace Sys2Proof.Machine

/-! ### Time events (R150) -/

/-- Tenants whose selected base is `tb`. -/
def State.tenantsOn (s : State) (tb : Nat) : List Nat :=
  (List.range 16).filter fun t => tget 0 s.cfg.tenantBase t == tb

/-- A time entry: to the PF0 alarm Well, and to the fault Well of every tenant whose selected base it concerns. -/
def State.timeEvent (s : State) (type tb : Nat) (body : Bytes) : State :=
  (s.tenantsOn tb).foldl (fun s t => s.toFaultWell t 5 type body) (s.alarm 5 type body)

def BaseState.num : BaseState → Nat
  | .free => 0 | .acquiring => 1 | .locked => 2 | .holdover => 3

/-- A base changes state (R109), with its STATE entry. -/
def State.setBaseState (s : State) (tb : Nat) (n : BaseState) : State :=
  let old := (s.base tb).state
  if old = n then s
  else
    (s.modBase tb fun b => { b with state := n }).timeEvent
      0x0501 tb (leBytes 1 tb ++ leBytes 1 (old.num + 4 * n.num))

/-! ### The servo (R105, R108 to R110) -/

/-- The limit of R105 in units of 2^-16 parts per 10^12. -/
def freqLimit : Int := 500000000 * 65536

def limitFreq (v : Int) : Int := clampInt (-freqLimit) freqLimit v

/-- A step is permitted (R110). -/
def stepPermitted (c : BaseCfg) (b : Base) : Bool :=
  if c.stepMode = 0 then !b.everLocked else c.stepMode == 2

/-- A carried item is an offset sample of a base. -/
def isSampleOf (tb : Nat) : Release → Bool
  | .measure (.offset n _) => n == tb
  | _ => false

/-- Step a base to a new value (R114, R115, R140 to R142): count it, report it, and let the schedule and the PRUs
follow. A step by the host discards the servo's pending samples (R114, R115), which are those carried in a pair and those of this
clock, and takes the alignment of FREQ_10M with it (R111; DEDUCED, log entry 118). `delta` is the step in ns for the entry. -/
def State.stepBase (s : State) (tb t2 : Nat) (delta : Int) (byHost : Bool) : State :=
  let t1 := (s.base tb).t
  let s := s.modBase tb fun b =>
    if byHost then { b with t := t2, steps := b.steps + 1, stepped := true, selectedAt := b.selectedAt + (t2 - t1) }
    else { b with t := t2, steps := b.steps + 1 }
  let s := if byHost then s.modPair fun p => { p with releases := p.releases.filter fun x => !isSampleOf tb x.2 } else s
  let s := s.timeEvent 0x0502 tb (leBytes 1 tb ++ leBytes 1 (16 * b2n byHost) ++ sleBytes 8 delta)
  let s := (s.settleBase tb).slotsStepped tb (t1 / 65536) (t2 / 65536)
  if tb = 0 then s.pruStepped (t1 / 65536) (t2 / 65536) else s

/-- Apply one offset sample (R108 to R110), θ in units of 2^-16 ns. -/
def State.applySample (s : State) (tb : Nat) (theta : Int) : State :=
  let c := s.baseCfg tb
  let b := s.base tb
  let mag := theta.natAbs
  let within := decide (mag ≤ c.lockNs * 65536)
  let n := if within then b.lockCount + 1 else 0
  let s := s.modBase tb fun b => { b with lastTheta := theta, lockCount := n, sourceLost := false }
  -- the state (R109)
  let s :=
    match b.state with
    | .free | .holdover => s.setBaseState tb .acquiring
    | .locked => if 4 * c.lockNs * 65536 < mag then s.setBaseState tb .acquiring else s
    | .acquiring => s
  let s :=
    if decide (16 ≤ n) && (s.base tb).state == .acquiring then
      (s.modBase tb fun b => { b with everLocked := true }).setBaseState tb .locked
    else s
  -- the step, or the slew: at the limit where a step would be due and none is permitted (R108, R110; log entry 101)
  if stepPermitted c b && decide (c.stepNs * 65536 < mag) then
    let v := (b.t : Int) - theta
    if 0 ≤ v then s.stepBase tb v.toNat (-(truncDiv theta 65536)) false
    else
      let d := s.draw
      d.2.stepBase tb d.1 (-(truncDiv theta 65536)) false
  else
    let i := limitFreq (b.integ - c.ki * theta)
    let out := i - c.kp * theta
    let far := decide (c.stepNs * 65536 < mag)
    let slew := if far then (if 0 < theta then -freqLimit else freqLimit) else limitFreq out
    let sat := far || decide (limitFreq out ≠ out)
    let s := s.modBase tb fun b => { b with integ := i, freq := slew, saturated := sat }
    if sat && !b.saturated then
      s.timeEvent 0x0503 tb (leBytes 1 tb ++ [0] ++ sleBytes 8 (truncDiv slew 65536))
    else s

/-- The TMC runs: loaded and not reloading (R25, R106). -/
def State.tmcRuns (s : State) : Bool := s.ms.mode != .m0 && s.procs.loaded && !s.procs.reloading.contains 3

/-- A measured sample (R549): in a pair the active carries it for both devices and the standby takes only carried
ones; alone it is applied at once. One of a clock in which TIME_STEP has acted is discarded (R115). -/
def State.takeSample (s : State) (tb : Nat) (theta : Int) : State :=
  if (s.base tb).stepped then s else s.measure (.offset tb theta) fun s => s.applySample tb theta

/-- The slave port of an instance. -/
def State.slavePort (s : State) (n : Nat) : Option Nat :=
  (tget {} s.cfg.ptp n : PtpCfg).ports.find? fun p => (tget {} s.time.ptpPorts p : PtpPort).role == .slave

/-- θ of FREQ_10M (R111), in units of 2^-16 ns: the base's advance since the source was selected, less 100 ns per cycle. -/
def cyclesTheta (b : Base) (n : Nat) : Int := (b.t : Int) - b.selectedAt - 6553600 * n

/-- The cycles counted since the latest count show an input within 10 MHz ± 1,000 ppm (R131): 160 core clocks a cycle. -/
def Base.inRange (b : Base) (n : Nat) : Bool :=
  decide (b.cycles ≤ n) && decide (999 * b.seen ≤ 160000 * (n - b.cycles)) && decide (160000 * (n - b.cycles) ≤ 1001 * b.seen)

/-- θ of a sample from the source of a base (R111); none of a sample that its source does not give. -/
def State.thetaOf (s : State) (tb : Nat) (x : OffsetSample) : Option Int :=
  match (s.baseCfg tb).source, x with
  | 1, .fromMaster => (s.slavePort tb).map fun p => (tget {} s.time.ptpPorts p : PtpPort).offset
  | 3, .cycles n => if (s.base tb).inRange n then some (cyclesTheta (s.base tb) n) else none
  | _, _ => none

/-- A base on FREQ_10M loses its source. -/
def State.loseOn10m (s : State) (tb : Nat) : State :=
  if (s.baseCfg tb).source = 3 then s.modBase tb fun b => { b with sourceLost := true } else s

/-- The 10 MHz input is absent: the source of every base on FREQ_10M is lost (R111, R131). -/
def State.lose10m (s : State) : State :=
  (List.range 8).foldl State.loseOn10m { s with pins := { s.pins with freq10m := false } }

/-- A count of the 10 MHz input on a base that takes it: a count within its range shows that the input is present again, any other
that it is absent (R131; log entry 102). -/
def State.sees10m (s : State) (tb : Nat) (x : OffsetSample) : State :=
  match (s.baseCfg tb).source, x with
  | 3, .cycles n =>
    let ok := (s.base tb).inRange n
    let s := s.modBase tb fun b => { b with cycles := n, seen := 0 }
    if ok then { s with pins := { s.pins with freq10m := true } } else s.lose10m
  | _, _ => s

/-- OFFSET_SAMPLE (R108, R111): the TMC hands the sample of the base's source to the servo. -/
def execOffsetSample (tb : Fin 8) (x : OffsetSample) (s : State) : Host.Outcome State Fault Refusal :=
  .next (if s.tmcRuns then
      match s.thetaOf tb.val x with
      | some v => (s.sees10m tb.val x).takeSample tb.val v
      | none => s.sees10m tb.val x
    else s)

/-- SOURCE_LOST (R109, R111): 2 s without a sample put the base in HOLDOVER with FREQ_PPT at I. -/
def execSourceLost (tb : Fin 8) (s : State) : Host.Outcome State Fault Refusal :=
  let b := s.base tb.val
  .next (if b.state = .acquiring ∨ b.state = .locked then
      (s.modBase tb.val fun b => { b with freq := b.integ, lockCount := 0, sourceLost := true }).setBaseState tb.val .holdover
    else s)

/-- FREQ10M_LOST (R111, R131): no cycle for 1 µs. -/
def execFreq10mLost (s : State) : Host.Outcome State Fault Refusal := .next s.lose10m

/-! ### PPS (R129, R130, R133) -/

/-- Core clocks in 900 ms (R130, R536). -/
def ppsGuard : Nat := 1440000000

/-- θ of a captured edge (R111), in units of 2^-16 ns. -/
def capturedTheta (t : Nat) : Int :=
  let v := t % 65536000000000
  if v / 65536 < 500000000 then (v : Int) else (v : Int) - 65536000000000

/-- PPS_OUT and PPS_IN work in hardware, a TMC reload notwithstanding, once the TMC has been loaded (R25, R129, R660). -/
def State.ppsRuns (s : State) : Bool := s.ms.mode != .m0 && s.procs.loaded

/-- PPS_IN_EDGE: captured on its base, or ignored as early; the TMC measures the sample. -/
def execPpsInEdge (s : State) : Host.Outcome State Fault Refusal :=
  let c := s.cfg.pps
  let early := match s.time.ppsInAt with
    | some a => decide ((s.time.duration : Int) < a + ppsGuard)
    | none => false
  .next (if !s.ppsRuns then s
    else if early then s.count (.device .ppsInEarly)
    else
      let theta := capturedTheta (s.base c.inTb).t
      let s := { s with time := { s.time with ppsInAt := some s.time.duration } }
      let s := if c.inReport then s.alarm 5 0x0504 (leBytes 1 c.inTb ++ [0] ++ sleBytes 8 (truncDiv theta 65536)) else s
      if (s.baseCfg c.inTb).source = 2 && s.tmcRuns then s.takeSample c.inTb theta else s)

/-- The base of PPS_OUT has just passed a whole second plus OUT_OFFSET_NS (R129): within the cycle plan of log entry 5, 80 ns at most
500 ppm fast. -/
def State.ppsOutDue (s : State) : Bool :=
  decide ((((s.base s.cfg.pps.outTb).t : Int) - s.cfg.pps.outOffsetNs * 65536) % 65536000000000 < 81 * 65536)

/-- PPS_OUT_EDGE (R129): PPS_OUT rises and stays high for OUT_WIDTH_US. -/
def execPpsOutEdge (s : State) : Host.Outcome State Fault Refusal :=
  .next (if s.cfg.pps.outEn && s.ppsRuns && s.ppsOutDue then
      { s with pins := { s.pins with ppsOut := true },
               time := { s.time with ppsHighFor := 1600 * s.cfg.pps.outWidthUs } }
    else s)

/-! ### PTP (R119 to R128) -/

def State.ptpCfg (s : State) (n : Nat) : PtpCfg := tget {} s.cfg.ptp n
def State.ptpPort (s : State) (p : Nat) : PtpPort := tget {} s.time.ptpPorts p
def State.modPtpPort (s : State) (p : Nat) (f : PtpPort → PtpPort) : State :=
  { s with time := { s.time with ptpPorts := tmod {} s.time.ptpPorts p f } }

/-- The instance that a port belongs to. -/
def State.ptpInstance (s : State) (p : Nat) : Option Nat :=
  (s.cfg.ptp.find? fun e => e.2.ports.contains p).map (·.1)

/-- Octets compared in order, the smaller first. -/
def bytesLt : Bytes → Bytes → Bool
  | [], [] => false
  | [], _ :: _ => true
  | _ :: _, [] => false
  | a :: as, b :: bs => if a.toNat = b.toNat then bytesLt as bs else decide (a.toNat < b.toNat)

/-- The dataset of an Announce in the order in which the default BMCA compares it: priority1, clockQuality, priority2,
grandmasterIdentity, stepsRemoved, sender. -/
def announceData (m : Bytes) : Bytes :=
  slice m 47 1 ++ slice m 48 4 ++ slice m 52 1 ++ slice m 53 8 ++ slice m 61 2 ++ slice m 20 10

/-- The instance's own dataset, in the same order. -/
def ownData (c : PtpCfg) : Bytes :=
  leBytes 1 c.priority1 ++ leBytes 1 c.clockClass ++ [0xFE, 0xFF, 0xFF] ++ leBytes 1 c.priority2 ++ fit 8 Config.clockIdentity ++
    [0, 0] ++ fit 8 Config.clockIdentity ++ [0, 0]

/-- The octets that the BMCA compares, the smaller first (R125): the dataset itself in the default BMCA; in the alternate BMCA
of G.8275.1 without priority1, with localPriority behind priority2, and with stepsRemoved ahead of the identity for a clockClass
below 128 (log entry 84). -/
def bmcaKey (c : PtpCfg) (localPriority : Nat) (d : Bytes) : Bytes :=
  if c.profile = 2 then
    slice d 1 5 ++ leBytes 1 localPriority ++
      (if byteAt d 1 < 128 then slice d 14 12 ++ slice d 6 8 else slice d 6 8 ++ slice d 14 12)
  else d

/-- What a port has heard, as compared; localPriority of a port is 128. -/
def State.heardKey (s : State) (c : PtpCfg) (p : Nat) : Bytes := bmcaKey c 128 (s.ptpPort p).announce

/-- The instance's own dataset, as compared. -/
def ownKey (c : PtpCfg) : Bytes := bmcaKey c c.localPriority (ownData c)

/-- The role of a port (R125), where `best` is the port that has heard the best Announce of those that may enter slave state:
a clock of class below 128 is never a slave, and a second port that hears the same grandmaster is passive. -/
def State.ptpRole (s : State) (c : PtpCfg) (best : Option Nat) (p : Nat) : PtpRole :=
  let heard := !(s.ptpPort p).announce.isEmpty
  if c.slaveOnly then (if best == some p then .slave else .listening)
  else if c.masterOnly.contains p then .master
  else if c.clockClass < 128 then (if heard && bytesLt (s.heardKey c p) (ownKey c) then .passive else .master)
  else match best with
    | none => .master
    | some q =>
      if !bytesLt (s.heardKey c q) (ownKey c) then .master
      else if p = q then .slave
      else if heard && slice (s.ptpPort p).announce 6 8 == slice (s.ptpPort q).announce 6 8 then .passive
      else .master

/-- Roles of an instance's ports by the best Announce heard on a port that may enter slave state (R125). -/
def State.ptpRoles (s : State) (n : Nat) : State :=
  let c := s.ptpCfg n
  let heard := c.ports.filter fun p => !(s.ptpPort p).announce.isEmpty && !c.masterOnly.contains p
  let best := heard.foldl (fun (acc : Option Nat) p =>
    match acc with
    | none => some p
    | some q => if bytesLt (s.heardKey c p) (s.heardKey c q) then some p else some q) none
  c.ports.foldl (fun t p => t.modPtpPort p fun x => { x with role := s.ptpRole c best p }) s

/-- A PTP header: type, length, domain, correctionField in 2^-16 ns, clockIdentity and port number, sequence, log interval
(IEEE 1588). -/
def ptpHeader (type len : Nat) (c : PtpCfg) (corr : Int) (port seq : Nat) (log : Int) : Bytes :=
  leBytes 1 type ++ [2] ++ beBytes 2 len ++ leBytes 1 c.domainNumber ++ [0, 0, 0] ++ (sleBytes 8 corr).reverse ++ [0, 0, 0, 0] ++
    fit 8 Config.clockIdentity ++ beBytes 2 (port + 1) ++ beBytes 2 seq ++ [0] ++ sleBytes 1 log

/-- A PTP timestamp of a message at `off`, in 2^-16 ns. -/
def stampAt (m : Bytes) (off : Nat) : Int := ((beAt m off 6 * 1000000000 + beAt m (off + 6) 4 : Nat) : Int) * 65536

/-- The correctionField of a message. -/
def correctionOf (m : Bytes) : Int := toSigned 64 (beAt m 8 8)

/-- Timestamps of a port on the base of an instance (R116): the latency that the mode's PCS adds, which is not stated (log entry 96),
and the port's correction. -/
def State.ptpIn (s : State) (tb p : Nat) : Int :=
  (s.base tb).t + truncDiv ((Config.pcsLatencyPs (s.portCfg p).mode false + (tget {} s.cfg.portTime p : PortTime).ingressPs) * 65536) 1000
def State.ptpOut (s : State) (tb p : Nat) : Int := s.txStamp p (s.base tb).t

/-- Where an instance sends a message of a type (R125, R127, R128; log entry 103). -/
def PtpCfg.dest (c : PtpCfg) (type : Nat) : PtpDest :=
  let peer := type == 2 || type == 3 || type == 10
  let port := if type < 8 then 319 else 320
  match c.transport with
  | 0 => .ethernet (if (c.profile = 2 ∧ c.macNonfwd) ∨ (c.profile ≠ 2 ∧ peer) then 0x0180C200000E else 0x011B19000000)
  | 1 => .udp4 (if peer then 0xE000006B else 0xE0000181) port
  | _ => .udp6 (if peer then 0xFF02 * 2 ^ 112 + 0x6B else 0xFF0E * 2 ^ 112 + 0x181) port

/-- Octets of the frame that carries a PTP message, its FCS included. -/
def ptpOctets (f : PtpFrame) : Nat :=
  max 64 (f.msg.length + 18 + match f.dest with | .ethernet _ => 0 | .udp4 _ _ => 28 | .udp6 _ _ => 48)

/-- A PTP message leaves a port, and is counted there (R190); the Sync of a radio port waits on its express queue 7 (R273; log entry
103). -/
def State.applyPtp (s : State) (p : Nat) (f : PtpFrame) : State :=
  match s.portSite p with
  | some site => (s.toRadioPort site 7 (fit 60 (beBytes 6 0x0180C200000E ++ siteSource site ++ [0x88, 0xF7] ++ f.msg)) true).1
  | none =>
  ({ s with time := { s.time with ptpSent := (p, f) :: s.time.ptpSent } }.count (.port p .txFrames)).count (.port p .txOctets) (ptpOctets f)

/-- The TMC sends a PTP message: a firmware effect (R548). -/
def State.ptpSend (s : State) (p : Nat) (c : PtpCfg) (m : Bytes) : State :=
  let f : PtpFrame := { dest := c.dest (bits (byteAt m 0) 0 4), msg := m }
  s.firmware (.ptp p f) fun s => s.applyPtp p f

/-- delayAsymmetry of a port in 2^-16 ns (R118). -/
def State.asymmetry (s : State) (p : Nat) : Int := truncDiv ((tget {} s.cfg.portTime p : PortTime).asymmetryPs * 65536) 1000

/-- A port asks for its delay with each Sync at which the two message rates make it due (R125; log entry 84): Pdelay_Req in the
Peer-to-Peer profile, where a master port asks with its own Syncs, else Delay_Req. -/
def State.askDelay (s : State) (n p syncSeq : Nat) : State :=
  let c := s.ptpCfg n
  let x := s.ptpPort p
  if syncSeq % 2 ^ (c.logDelayReq - c.logSync).toNat ≠ 0 then s
  else
    let t := s.modPtpPort p fun y => { y with reqSeq := y.reqSeq + 1, reqAt := s.ptpOut n p }
    if c.profile = 1 then
      t.ptpSend p c (ptpHeader 2 54 c (-s.asymmetry p) p x.reqSeq.toNat 0x7F ++ List.replicate 20 0)
    else t.ptpSend p c (ptpHeader 1 44 c (-s.asymmetry p) p x.reqSeq.toNat 0x7F ++ List.replicate 10 0)

/-- The origin timestamp of a Sync has arrived, in it or in its Follow_Up: offsetFromMaster is formed (R111; log entry 84). -/
def State.syncDone (s : State) (n p : Nat) (origin : Int) : State :=
  (s.modPtpPort p fun y => { y with
    twoStep := false, syncDelay := y.arrival - origin, offset := y.arrival - origin - y.pathDelay }).askDelay n p (s.ptpPort p).lastSyncSeq.toNat

/-- The path delay of a slave port is known anew. -/
def PtpPort.delayKnown (y : PtpPort) (d : Int) : PtpPort :=
  { y with round := none, pathDelay := d, offset := y.syncDelay - d }

/-- A message answers the port's latest request. -/
def PtpPort.asked (x : PtpPort) (p : Nat) (m : Bytes) : Bool :=
  slice m 44 10 == fit 8 Config.clockIdentity ++ beBytes 2 (p + 1) && beAt m 30 2 == (x.reqSeq - 1).toNat

/-- An Announce that an instance takes (R125): not of an alternate master, not its own, and with fewer than 255 steps removed. -/
def announceOk (m : Bytes) : Bool :=
  !bit (byteAt m 6) 0 && slice m 20 8 != fit 8 Config.clockIdentity && decide (beAt m 61 2 < 255)

/-- Core clocks in three Announce intervals, after which an Announce times out (IEEE 1588; PRESUMED, log entry 119). -/
def PtpCfg.announceLife (c : PtpCfg) : Nat := 3 * 1600000000 * 2 ^ (c.logAnnounce + 3).toNat / 8

/-- An Announce that has timed out is forgotten, and the roles of its instance follow (R125; log entry 119). -/
def State.announceEnds (s : State) (p : Nat) : State :=
  let t := s.modPtpPort p fun x => { x with announce := [] }
  match s.ptpInstance p with
  | some n => if (s.ptpCfg n).enable then t.ptpRoles n else t
  | none => t

/-- A Sync on a slave port from the master that it follows. -/
def State.syncRx (s : State) (n p : Nat) (m : Bytes) : State :=
  let two := bit (byteAt m 6) 1
  let t := s.modPtpPort p fun x => { x with
    syncHeard := true, lastSyncSeq := BitVec.ofNat 16 (beAt m 30 2), twoStep := two,
    arrival := s.ptpIn n p - correctionOf m - s.asymmetry p }
  if two then t else t.syncDone n p (stampAt m 34)

/-- PTP_MESSAGE_RX: an instance takes a message of its port, version and domain (R124, R125), not one of IEEE 802.1AS: Announce to
the BMCA; Sync, Follow_Up and Delay_Resp on a slave port; Pdelay_Resp and its follow-up on any port of the Peer-to-Peer profile;
Delay_Req answered by a master port, Pdelay_Req in the Peer-to-Peer profile; others are ignored. A one-step answer leaves at the instant of its request (log entry 84). -/
def execPtpMessageRx (inst : Fin 8) (p : Fin 256) (msg : Bytes) (s : State) : Host.Outcome State Fault Refusal :=
  let c := s.ptpCfg inst.val
  let n := inst.val
  let x := s.ptpPort p.val
  let seq := beAt msg 30 2
  let corr := correctionOf msg
  let at_ := s.ptpIn n p.val
  let mine := x.role == .slave && (x.announce.isEmpty || slice msg 20 10 == slice x.announce 16 10)
  .next (if !(s.tmcRuns && s.inService && c.enable && c.ports.contains p.val && bits (byteAt msg 1) 0 4 == 2 &&
      byteAt msg 4 == c.domainNumber && byteAt msg 0 / 16 == 0) then s
    else match bits (byteAt msg 0) 0 4 with
    | 0xB => if announceOk msg then
        (s.modPtpPort p.val fun x => { x with announce := announceData msg, announceFor := c.announceLife }).ptpRoles n else s
    | 0 => if mine then s.syncRx n p.val msg else s
    | 8 => if mine && x.twoStep && seq == x.lastSyncSeq.toNat then s.syncDone n p.val (stampAt msg 34 + corr) else s
    | 1 => if x.role = .master && c.profile != 1 then
        s.ptpSend p.val c (ptpHeader 9 54 c (corr - at_ % 65536) p.val seq c.logDelayReq ++ ptpStamp at_ ++ slice msg 20 10) else s
    | 9 => if mine && c.profile != 1 && x.asked p.val msg then
        s.modPtpPort p.val fun y => y.delayKnown (truncDiv (y.syncDelay + (stampAt msg 34 - y.reqAt - corr)) 2) else s
    | 2 => if c.profile = 1 then
        s.ptpSend p.val c (ptpHeader 3 54 c (corr + s.ptpOut n p.val - at_) p.val seq 0x7F ++ List.replicate 10 0 ++ slice msg 20 10) else s
    | 3 => if c.profile == 1 && x.asked p.val msg then
        s.modPtpPort p.val fun y =>
          let r := at_ - y.reqAt - corr
          if bit (byteAt msg 6) 1 then { y with round := some (r + stampAt msg 34) } else y.delayKnown (truncDiv r 2)
      else s
    | 0xA => match x.round with
      | some r => if c.profile == 1 && x.asked p.val msg then
          s.modPtpPort p.val fun y => y.delayKnown (truncDiv (r - stampAt msg 34 - corr) 2) else s
      | none => s
    | _ => s)

/-- clockClass of the radio ports (R127); unstated while TB0 is LOCKED with instance 0 off. -/
def State.radioClockClass (s : State) : Nat :=
  match (s.base 0).state with
  | .locked => if (s.ptpCfg 0).enable then (s.ptpCfg 0).clockClass else Config.lockedRadioClass
  | .holdover => 135
  | _ => 248

/-- What a radio port runs as: a master-only port of TB0, G.8275.1, domain 24 (R127), with the priorities of that profile. -/
def radioPtp : PtpCfg := { enable := true, profile := 2, domainNumber := 24, priority1 := 128, priority2 := 128, macNonfwd := true,
                           logSync := -4, logAnnounce := -3, logDelayReq := -4 }

/-- The grandmaster of an instance: what its slave port has heard, one step further removed, or its own dataset. -/
def State.grandmaster (s : State) (c : PtpCfg) : Bytes :=
  match c.ports.find? fun p => (s.ptpPort p).role == .slave with
  | some p => slice (s.ptpPort p).announce 0 14 ++ beBytes 2 (beAt (s.ptpPort p).announce 14 2 + 1)
  | none => slice (ownData c) 0 16

/-- An Announce of a grandmaster, with currentUtcOffset (R128). -/
def announceMsg (c : PtpCfg) (port seq : Nat) (stamp gm : Bytes) : Bytes :=
  ptpHeader 0xB 64 c 0 port seq c.logAnnounce ++ stamp ++ (sleBytes 2 c.utcOffset).reverse ++ [0] ++ gm ++ [0xA0]

/-- Announce goes with each Sync that the two message rates make it due with (R125, R127; log entry 84). -/
def PtpCfg.announceDue (c : PtpCfg) (syncSeq : Nat) : Bool := syncSeq % 2 ^ (c.logAnnounce - c.logSync).toNat == 0

/-- A master port of a base sends its one-step Sync, stamped as it leaves. -/
def State.sendSync (s : State) (p : Nat) (c : PtpCfg) (tb : Nat) : State :=
  let v := s.ptpOut tb p
  (s.modPtpPort p fun x => { x with syncSeq := x.syncSeq + 1 }).ptpSend p c
    (ptpHeader 0 44 c (v % 65536) p (s.ptpPort p).syncSeq.toNat c.logSync ++ ptpStamp v)

/-- A master port of an instance sends its Sync, with Announce and, in the Peer-to-Peer profile, Pdelay_Req when they are due. -/
def State.masterSends (s : State) (p : Nat) (c : PtpCfg) (tb : Nat) : State :=
  let x := s.ptpPort p
  let t := s.sendSync p c tb
  let t := if c.announceDue x.syncSeq.toNat then
      (t.modPtpPort p fun x => { x with announceSeq := x.announceSeq + 1 }).ptpSend p c
        (announceMsg c p x.announceSeq.toNat (ptpStamp (s.base tb).t) (s.grandmaster c))
    else t
  if c.profile = 1 then t.askDelay tb p x.syncSeq.toNat else t

/-- PTP_SYNC_TX (R127): a radio port sends its Sync and no other message (R176); a master port of a running instance sends. -/
def execPtpSyncTx (p : Fin 256) (s : State) : Host.Outcome State Fault Refusal :=
  .next (if !(s.tmcRuns && s.inService && (s.portSt p.val).linkUp) then s
    else if (s.portSite p.val).isSome then s.sendSync p.val { radioPtp with clockClass := s.radioClockClass } 0
    else match s.ptpInstance p.val with
      | some n => if (s.ptpCfg n).enable && (s.ptpPort p.val).role == .master then s.masterSends p.val (s.ptpCfg n) n else s
      | none => s)

/-! ### TIME commands -/

/-- The source of a base is selected (R111). -/
def Base.select (b : Base) : Base := { b with selectedAt := b.t, cycles := 0, seen := 0, sourceLost := false }

/-- A base whose SOURCE is FREQ_10M takes it up. -/
def State.selectOn10m (s : State) (tb : Nat) : State :=
  if (s.baseCfg tb).source = 3 then s.modBase tb Base.select else s

/-- The settings come into force as the TMC is loaded: the bases on FREQ_10M select it (R106, R111). -/
def State.selectSources (s : State) : State :=
  (List.range 8).foldl State.selectOn10m s

def timeBaseConfigSpec : AciSpec where
  op := 0x0501
  lenOk := lenIs 20
  modes := modesSet
  carried := true
  rsv := fun _ => [(0, 0xF0), (1, 0xF0), (2, 0xFF), (3, 0xFF)]
  par := fun r _ => badIf (r.fb 17 2 2 == 3 || decide (1000000 < r.f 20 4) || decide (1000000 < r.f 24 4) ||
    decide (r.f 28 4 < 1000) || decide (1000000000 < r.f 28 4) || decide (r.f 32 4 < 1) || decide (1000000 < r.f 32 4)) 0x04
  effect := fun r s =>
    let tb := r.fb 16 0 3
    let old := s.baseCfg tb
    let new : BaseCfg := { source := r.fb 17 0 2, stepMode := r.fb 17 2 2, kp := r.f 20 4, ki := r.f 24 4,
                           stepNs := r.f 28 4, lockNs := r.f 32 4 }
    let s := s.store fun c => { c with bases := tset {} c.bases tb new }
    let s := if r.fl 16 3 then s.modBase tb fun b => { b with everLocked := false } else s
    let s := if new.source ≠ old.source then s.modBase tb Base.select else s
    (if new.source = 0 then (s.modBase tb fun b => { b with lockCount := 0 }).setBaseState tb .free else s, okReply)

def execTimeBaseConfig (r : Aci) (s : State) : Host.Outcome State Fault Refusal := .next (timeBaseConfigSpec.exec r s)

/-- Last θ in ns, rounded toward zero and saturating (R113). -/
def offsetNs (b : Base) : Int := clampInt (-2147483647) 2147483647 (truncDiv b.lastTheta 65536)

/-- TIME_GET (R113). FREQ_PPT is truncated toward zero (DESIGN CHOICE, log entry 132). -/
def timeGetSpec : AciSpec where
  op := 0x0502
  lenOk := lenIs 1
  pf0Only := false
  modes := modesAll
  rsv := fun _ => [(0, 0xF8)]
  owned := fun r s => tget 0 s.cfg.tenantBase (r.fn - 1) == r.fb 16 0 3
  effect := fun r s =>
    let tb := r.fb 16 0 3
    let b := s.base tb
    let n := s.now tb
    (s, okWith (leBytes 6 n.1 ++ leBytes 4 n.2 ++ leBytes 2 (b.t % 65536) ++
      leBytes 1 (b.state.num + 4 * (s.baseCfg tb).source + 16 * b2n b.saturated + 32 * b2n b.everLocked) ++ [0] ++
      leBytes 2 b.steps.toNat ++ sleBytes 4 (truncDiv b.freq 65536) ++ sleBytes 4 (offsetNs b)))

def execTimeGet (r : Aci) (s : State) : Host.Outcome State Fault Refusal := .next (timeGetSpec.exec r s)

/-- The value that TIME_STEP gives the base, in units of 2^-16 ns, and the step in ns. -/
def stepTarget (r : Req) (t : Nat) : Int × Int :=
  if r.fl 16 3 then
    let v : Int := (r.f 24 6 * 1000000000 + r.f 30 4) * 65536
    (v, truncDiv (v - t) 65536)
  else ((t : Int) + r.fs 24 8 * 65536, r.fs 24 8)

def timeStepSpec : AciSpec where
  op := 0x0503
  lenOk := lenIs 18
  modes := modesSet
  carried := true
  rsv := fun pl => [(0, 0xF0)] ++ ((List.range 7).map fun i => (i + 1, 0xFF)) ++
    (if bit (byteAt pl 0) 3 then [] else [(16, 0xFF), (17, 0xFF)])
  par := fun r s => badIf ((r.fl 16 3 && decide (999999999 < r.f 30 4)) ||
    decide ((stepTarget r (s.base (r.fb 16 0 3)).t).1 < 0)) 0x04
  effect := fun r s =>
    let tb := r.fb 16 0 3
    let x := stepTarget r (s.base tb).t
    (if !r.fl 16 3 && r.fs 24 8 == 0 then s else s.stepBase tb x.1.toNat x.2 true, okReply)

def execTimeStep (r : Aci) (s : State) : Host.Outcome State Fault Refusal := .next (timeStepSpec.exec r s)

/-- The ports that a 32-byte bit map names. -/
def portBits (r : Req) (off : Nat) : List Nat :=
  (List.range 256).filter fun p => r.bl (off + p / 8) (p % 8)

/-- The settings in the buffer of TIME_PTP_CONFIG. -/
def ptpOf (r : Req) : PtpCfg :=
  { enable := r.bl 0 3, profile := r.bb 0 4 2, transport := r.bb 0 6 2, domainNumber := r.b 1 1, priority1 := r.b 2 1,
    priority2 := r.b 3 1, clockClass := r.b 4 1, slaveOnly := r.bl 5 0, macNonfwd := r.bl 5 1, logSync := r.bs 6 1,
    logAnnounce := r.bs 7 1, logDelayReq := r.bs 8 1, localPriority := r.b 9 1, utcOffset := r.bs 10 2,
    ports := portBits r 24, masterOnly := portBits r 56 }

/-- A field breaks the profile (R125). -/
def PtpCfg.breaks (c : PtpCfg) : Bool :=
  if c.profile = 2 then
    c.transport != 0 || decide (c.domainNumber < 24) || decide (43 < c.domainNumber) || c.logSync != -4 ||
      c.logDelayReq != -4 || c.logAnnounce != -3 || c.localPriority == 0
  else decide (127 < c.domainNumber) || decide (c.logSync < -7) || decide (0 < c.logSync) || decide (c.logDelayReq < -7) ||
      decide (0 < c.logDelayReq) || decide (c.logAnnounce < -3) || decide (3 < c.logAnnounce) || c.localPriority != 0

/-- Sync messages per second of an instance, every port that may be master counted (R126; log entry 20). -/
def PtpCfg.syncRate (c : PtpCfg) : Nat :=
  if c.enable && !c.slaveOnly then c.ports.length * 2 ^ (-c.logSync).toNat else 0

/-- The Sync total with instance `n` as given and `radio` radio ports (R126, R127). -/
def State.syncTotal (s : State) (n : Nat) (c : PtpCfg) : Nat :=
  16 * (s.cfg.ports.filter fun e => e.2.site.isSome).length +
    sumNat ((List.range 8).map fun i => (if i = n then c else s.ptpCfg i).syncRate)

/-- TIME_PTP_CONFIG (R128). A MASTER_ONLY bit of a port that is no member is out of range (DESIGN CHOICE, log entry 132). -/
def timePtpConfigSpec : AciSpec where
  op := 0x0504
  lenOk := lenIs 88
  modes := modesSet
  carried := true
  rsv := fun _ => [(5, 0xFC)] ++ (List.range 12).map fun i => (12 + i, 0xFF)
  par := fun r s =>
    let c := ptpOf r
    let n := r.bb 0 0 3
    firstOf [
      badIf (c.ports.any fun p => (s.portSite p).isSome || (s.cfg.ptp.any fun e => e.1 != n && e.2.ports.contains p)) 0x11,
      badIf (c.breaks || (c.enable && (c.ports.isEmpty || decide (64 < c.ports.length)))) 0x12,
      badIf (decide (16384 < s.syncTotal n c)) 0x13,
      badIf (decide (2 < c.profile) || decide (2 < c.transport) || c.masterOnly.any fun p => !c.ports.contains p) 0x04]
  effect := fun r s =>
    let n := r.bb 0 0 3
    let c := ptpOf r
    let s := s.store fun g => { g with ptp := tset {} g.ptp n c }
    let s := c.ports.foldl (fun s p => s.modPtpPort p fun _ => {}) s
    (if c.enable then s.ptpRoles n else s, okReply)

def execTimePtpConfig (r : Aci) (s : State) : Host.Outcome State Fault Refusal := .next (timePtpConfigSpec.exec r s)

/-- The pipe that serves a port has been removed by self-test (R632). -/
def State.pipeRemoved (s : State) (p : Nat) : Bool := tget false s.ports.pipeOut (p / 32)

/-- A signed value within ± a limit. -/
def withinAbs (v : Int) (lim : Nat) : Bool := decide (v.natAbs ≤ lim)

def timePortConfigSpec : AciSpec where
  op := 0x0505
  lenOk := lenIs 16
  modes := modesSet
  carried := true
  rsv := fun _ => [(1, 0xF0), (2, 0xFF), (3, 0xFF)]
  par := fun r s => firstOf [
    badIf (!withinAbs (r.fs 20 4) 100000 || !withinAbs (r.fs 24 4) 100000 || !withinAbs (r.fs 28 4) 1000000) 0x04,
    badIf ((s.portSite (r.f 16 1)).isSome && r.fb 17 0 3 != 0) 0x10]
  avail := fun r s => failIf (s.pipeRemoved (r.f 16 1)) stNoResource 0xB0
  effect := fun r s =>
    let x : PortTime := { tb := r.fb 17 0 3, tcEn := r.fl 17 3, ingressPs := r.fs 20 4, egressPs := r.fs 24 4,
                          asymmetryPs := r.fs 28 4 }
    (s.store fun c => { c with portTime := tset {} c.portTime (r.f 16 1) x }, okReply)

def execTimePortConfig (r : Aci) (s : State) : Host.Outcome State Fault Refusal := .next (timePortConfigSpec.exec r s)

def timePpsConfigSpec : AciSpec where
  op := 0x0506
  lenOk := lenIs 16
  modes := modesSet
  carried := true
  rsv := fun _ => [1, 2, 3, 12, 13, 14, 15].map fun i => (i, 0xFF)
  par := fun r _ =>
    badIf (!withinAbs (r.fs 20 4) 1000000 || r.f 24 4 == 0 || decide (500000 < r.f 24 4)) 0x04
  effect := fun r s =>
    let s := s.store fun c => { c with pps := { outTb := r.fb 16 0 3, outEn := r.fl 16 3, inTb := r.fb 16 4 3,
                                                inReport := r.fl 16 7, outOffsetNs := r.fs 20 4, outWidthUs := r.f 24 4 } }
    (if r.fl 16 3 then s else { s with pins := { s.pins with ppsOut := false }, time := { s.time with ppsHighFor := 0 } },
      okReply)

def execTimePpsConfig (r : Aci) (s : State) : Host.Outcome State Fault Refusal := .next (timePpsConfigSpec.exec r s)

def timeSynceConfigSpec : AciSpec where
  op := 0x0507
  lenOk := lenIs 4
  modes := modesSet
  carried := true
  rsv := fun _ => [(0, 0xF8), (1, 0xFF), (3, 0xFE)]
  effect := fun r s =>
    let x : SynceCfg := { enable := r.fl 16 1, freq := r.fl 16 2, lane := bits (r.f 18 2) 0 9 }
    (s.store fun c => { c with synce := tset {} c.synce (r.fb 16 0 1) x }, okReply)

def execTimeSynceConfig (r : Aci) (s : State) : Host.Outcome State Fault Refusal := .next (timeSynceConfigSpec.exec r s)

/-- SYNCE_OUTn carries a clock: enabled, and its lane locked (R132). -/
def State.synceRuns (s : State) (n : Nat) : Bool :=
  let c := tget {} s.cfg.synce n
  c.enable && tget false s.ports.laneLocked c.lane && s.ms.mode != .m0

/-- A tenant's domains leave their base: what they have issued, skipped or held on it does not bind the new one (R135, R141). -/
def State.leaveBase (s : State) (t : Nat) : State :=
  let leave (x : SchedDomain) : SchedDomain := { x with previous := none, notBefore := 0, last := none, hold := none }
  { s with radio := { s.radio with domains := listTab {} (s.radio.domains.map fun e =>
      if s.domainTenant e.1 = some t then (e.1, leave e.2) else e) } }

def timeSetTenantBaseSpec : AciSpec where
  op := 0x0508
  lenOk := lenIs 2
  modes := modesSet
  carried := true
  rsv := fun _ => [(0, 0xF0), (1, 0xF8)]
  avail := fun r s => failIf (s.tenantScheduled (r.fb 16 0 4)) stBusy 0x02
  effect := fun r s =>
    let t := r.fb 16 0 4
    let s := if tget 0 s.cfg.tenantBase t = r.fb 17 0 3 then s else s.leaveBase t
    (s.store fun c => { c with tenantBase := tset 0 c.tenantBase t (r.fb 17 0 3) }, okReply)

def execTimeSetTenantBase (r : Aci) (s : State) : Host.Outcome State Fault Refusal :=
  .next (timeSetTenantBaseSpec.exec r s)

/-! ### The RTC (R151 to R153) -/

def State.modRtc (s : State) (f : Rtc → Rtc) : State := { s with time := { s.time with rtc := f s.time.rtc } }

/-- The data of a register read. -/
def State.reads (s : State) (v : Nat) : State := { s with host := { s.host with readData := v } }

/-- A write to RTC_CTRL: LOAD with the key loads RTC_LOAD at the next tick. -/
def State.writeRtcCtrl (s : State) (word : Nat) : State :=
  if bit word 1 && bits word 16 16 == 0x4C44 then s.modRtc fun c => { c with loadPending := true } else s

def execRtcLoad (word : BitVec 32) (s : State) : Host.Outcome State Fault Refusal :=
  .next (if s.answers then s.writeRtcCtrl word.toNat else s)

/-- RTC_LO_READ: both halves go to the shadow, FROZEN is set. -/
def execRtcLoRead (s : State) : Host.Outcome State Fault Refusal :=
  .next (if s.answers then
      (s.modRtc fun c => { c with shadow := c.count, frozen := true }).reads (s.time.rtc.count.toNat % 2 ^ 32)
    else s)

/-- RTC_HI_READ: the shadow's high half with FROZEN cleared, or the live one. -/
def execRtcHiRead (s : State) : Host.Outcome State Fault Refusal :=
  let c := s.time.rtc
  .next (if s.answers then
      (s.modRtc fun c => { c with frozen := false }).reads ((if c.frozen then c.shadow else c.count).toNat / 2 ^ 32)
    else s)

/-- One 32,768 Hz tick: a pending load replaces the count. -/
def Rtc.tick (c : Rtc) : Rtc :=
  if c.loadPending then { c with count := c.loadHi ++ c.loadLo, loadPending := false } else { c with count := c.count + 1 }

/-- 80 ns of the RTC: 128 core clocks of 1.6 GHz. -/
def Rtc.advance (c : Rtc) : Rtc :=
  let p := c.phase + 128 * 32768
  if 1600000000 ≤ p then { c with phase := p - 1600000000 }.tick else { c with phase := p }

/-- 80 ns of one base at its FREQ_PPT (R105). -/
def Base.advance (b : Base) : Base :=
  let unit : Nat := 65536 * 1000000000000
  let add := b.rem + 5242880 * ((unit : Int) + b.freq).toNat
  { b with t := b.t + add / unit, rem := add % unit, seen := b.seen + 128, stepped := false }

/-- The downlink frames of one site whose time has come. -/
def State.releaseSite (s : State) (n : Nat) : State := if (s.site n).dl.isEmpty then s else s.releaseDl n

/-- The data frames of every site whose sending time has come go to its port (R298). -/
def State.releaseDls (s : State) : State :=
  (s.radio.sites.map (·.1)).foldl State.releaseSite s

/-- 80 ns of a PTP port: an Announce that it has heard grows old. -/
def PtpPort.age (x : PtpPort) : PtpPort := { x with announceFor := x.announceFor - 128 }

/-- Announces that have timed out end. -/
def State.announcesEnd (s : State) : State :=
  ((s.time.ptpPorts.filter fun e => !e.2.announce.isEmpty && e.2.announceFor == 0).map (·.1)).foldl State.announceEnds s

/-- One cycle plan, 80 ns, in which nothing is commanded (log entry 5): the duration counter, the bases, PPS_OUT's
width, the age of Announces and the RTC go on. In M0 only the always-on domain runs. -/
def State.idle (s : State) : State :=
  let s := s.modRtc Rtc.advance
  if s.ms.mode = .m0 then s
  else
    let bases := (List.range 8).foldl (fun t b => tmod {} t b Base.advance) s.time.bases
    { s with
      time := { s.time with duration := s.time.duration + 128, bases := bases, ppsHighFor := s.time.ppsHighFor - 128,
                            ptpPorts := listTab {} (s.time.ptpPorts.map fun (e : Nat × PtpPort) => (e.1, e.2.age)) }
      pins := { s.pins with ppsOut := s.pins.ppsOut && decide (128 < s.time.ppsHighFor) } }.announcesEnd.releaseDls

end Sys2Proof.Machine
end

