-- ==== Sys2Proof/Machine/Boot.lean ====
section
/-! DEFINITION. Resets, the boot chain, bank selection, settings versions and migration (R42, R46 to R61, R501, R610,
R630, R631, R666, R668), and the rows of resets and boot. -/

namespace Sys2Proof.Machine

/-- The conversion of settings by the migration steps of a set (R56, R611): from a version, to a version. -/
opaque migrateCfg : Nat → Nat → Cfg → Option Cfg

/-! ### Blobs (R50, R51, R56, R58, R610) -/

/-- The settings that a blob stands for: of the blob in force, with its journal (R510, R512). -/
def State.effective (s : State) (b : Blob) : Cfg := if s.nv.blob = some b then s.nv.journal.getD b.cfg else b.cfg

/-- The blob of highest BLOB_SEQ. -/
def topBlob (l : List Blob) : Option Blob :=
  l.foldl (fun acc b => match acc with
    | some a => if a.seq < b.seq then some b else acc
    | none => some b) none

/-- The settings of the ring pairs: the table, and of each port that it names the lane group, which the pass-through joins; its
other settings are factory settings (R696; DESIGN CHOICE, log entry 108). -/
def Cfg.ringsOnly (c : Cfg) : Cfg :=
  let named (p : Nat) : Bool := c.rings.any fun e =>
    match e.2 with
    | some ew => ew.1 == p || ew.2 == p
    | none => false
  { rings := c.rings,
    ports := (c.ports.filter fun e => named e.1).map fun e => (e.1, { mode := e.2.mode, firstLane := e.2.firstLane }) }

/-- Step 2 (R51): the ring-pair table of the blob of highest BLOB_SEQ that passes its check; without one, CONFIG_INVALID. -/
def State.readBlobs (s : State) : State :=
  match topBlob s.blobs with
  | some b => { s with cfg := (s.effective b).ringsOnly }.setRings
  | none => { s with cfg := {}, ms := { s.ms with blobCause := 4 } }.setRings

/-- A blob comes into force; the other stays where it is, with what its journal held. -/
def State.useBlob (s : State) (b : Blob) : State :=
  let s :=
    if s.nv.blob = some b then s
    else
      let old := (s.nv.blob.filter (·.ok)).map fun o => { o with cfg := s.effective o }
      { s with nv := { s.nv with blob := some b, oldBlob := old, journal := none, journalUsed := 0 } }
  { s with ms := { s.ms with blobVersion := b.version } }

/-- The blob in force (R58, R610): of SET_VERSION, else the one from which the set migrates, else SETTINGS_VERSION. -/
def State.chooseBlob (s : State) (x : ImageSet) : State :=
  match topBlob (s.blobs.filter (·.version == x.setVersion)) with
  | some b => s.useBlob b
  | none =>
    match topBlob (s.blobs.filter fun b => x.blobFrom.contains b.version && decide (b.version < x.setVersion)) with
    | some b => let s := s.useBlob b; { s with ms := { s.ms with migrating := true } }
    | none => if s.blobs.isEmpty then s else { s with ms := { s.ms with blobCause := 5 } }

/-! ### Selecting the bank (R53) -/

/-- A bank is rejected: FAILED, BOOT_RETRY and T6. -/
def State.rejectBank (s : State) (bank : Bool) (reason : Nat) : State :=
  let tried := (s.bootRec bank).tried
  let s := ((s.modBoot bank fun r => { r with failed := true }).addCause 6).noteMode .m1 6
  { s with ms := { s.ms with rejected := s.ms.rejected ++ [(b2n bank, reason, tried)] } }

/-- One turn of the loop. -/
def State.tryBank (s : State) (bank committed : Bool) : State × Option ImageSet :=
  let r := s.bootRec bank
  if r.failed || (!committed && !r.lkg) then (s, none)
  else if 3 ≤ r.tried ∧ !r.lkg then (s.rejectBank bank 5, none)
  else
    let s := s.modBoot bank fun r => { r with tried := r.tried + 1 }
    match s.checkBank bank with
    | .inr x => (s, some x)
    | .inl e => (s.rejectBank bank e.reason, none)

/-- The committed bank, then the other. -/
def State.selectBank (s : State) : State × Option (Bool × ImageSet) :=
  let c := s.committed
  let a := s.tryBank c true
  match a.2 with
  | some x => (a.1, some (c, x))
  | none =>
    let b := a.1.tryBank (!c) false
    (b.1, b.2.map fun x => (!c, x))

/-- The selected set runs (R51, R613). -/
def State.takeSet (s : State) (bank : Bool) (x : ImageSet) : State :=
  { s with
    ms := { s.ms with bank := bank, setVersion := x.setVersion, running := some x, lkg := (s.bootRec bank).lkg }
    radio := { s.radio with pruImages := x.pru } }

/-- R501: the key store is rewrapped when its WRAP_DIGEST is another set's: the Tenant Roots go under the new wrap key, and a slot
whose tag fails is marked UNUSABLE. -/
def State.rewrap (s : State) (x : ImageSet) : State :=
  let k := s.nv.keys
  if k.wrapDigest = x.digest then s
  else
    let bad := (k.slots.filter fun e => e.2.kind != 0 && !e.2.unusable && !e.2.tagOk).map (·.1)
    let roots := (k.slots.filter fun e => e.2.kind == 1 && !e.2.unusable && e.2.tagOk).length
    let mark (e : Nat × KeySlot) : Nat × KeySlot :=
      if bad.contains e.1 then (e.1, { e.2 with unusable := true, tagOk := true })
      else if e.2.kind = 1 ∧ !e.2.unusable then (e.1, { e.2 with wrapped := s.wrap x.digest e.1 e.2 })
      else e
    { s with
      nv := { s.nv with keys := { k with slots := k.slots.map mark, wrapDigest := x.digest, seq := k.seq + 1 } }
      ms := { s.ms with rewrapped := some (roots, bad) } }

/-! ### The chain up to step 4 -/

/-- The clean mark is read and erased (R48). -/
def State.takeMark (s : State) : State :=
  { s with ms := { s.ms with unclean := !s.nv.cleanMark }, nv := { s.nv with cleanMark := false } }

/-- SECURE of the blocks of R526 (R488): of the blocks 0-26, the BSC, the key store, the DRBG, the fuse block and the boot flash
controller are secure, and the MRAM controller has areas of both worlds. -/
def blockWorld (b : Nat) : Bool := if b = 20 then Config.mramSecure else [0, 16, 17, 18, 19].contains b

/-- Step 4 of R51: both maps are written, the same at every boot, and locked (R488 to R490). -/
def State.writeMaps (s : State) : State :=
  let entry (i : Nat) : Region :=
    { base := Config.regionBase i / 4096 * 4096, pages := Config.regionPages i, area := Config.regionArea i
      readMask := Config.regionRead i, writeMask := Config.regionWrite i }
  { s with ms := { s.ms with
    maps := { blocks := (List.range 27).map blockWorld, regions := (List.range 256).map entry, locked := true } } }

/-- Steps 1 to 4 of R51, in the row of the M1 entry: the straps and clocks are sampled (R662, R672), the blobs read, a bank
selected, the store rewrapped and the blob in force fixed. Without REFCLK_RC the chain goes no further than the rings. The
clean mark is read once, before the loop (DESIGN CHOICE, log entry 107). -/
def State.bootChain (s : State) (b : BootInput) : State :=
  let s := { s with pins := { s.pins with
    pairIdPin := b.pairId, pairId := b.pairId, refclkTile := b.refclkTile, refclkRc := b.refclkRc } }
  let s := s.readBlobs
  if !b.refclkRc then s
  else
    let z := s.takeMark.selectBank
    match z.2 with
    | none => z.1.changeMode .m7 10 3
    | some (bank, x) =>
      let s := (((z.1.takeSet bank x).rewrap x).chooseBlob x).writeMaps
      { s with ms := { s.ms with bootStep := 1 } }

/-- What the board presents at an M1 entry that no row of its own begins: the pins as they are. -/
def State.presented (s : State) : BootInput :=
  { pairId := s.pins.pairIdPin, vbatKept := true, refclkTile := s.pins.refclkTile, refclkRc := s.pins.refclkRc }

/-- A warm reset, T5 or T11, with the chain that follows. -/
def State.restart (s : State) (cause t : Nat) : State :=
  let s := s.warmReset cause t
  s.bootChain s.presented

/-- A BSC fault or fatal error (R21, R631), with the chain that follows. -/
def State.crash (s : State) : State :=
  if s.ms.mode = .m0 then s
  else
    let s := s.fatal
    s.bootChain s.presented

/-! ### Leaving M1 BOOT and M2 MIGRATE -/

/-- The entry to M3 SOLO: a pair seed is drawn (R551). -/
def State.toSolo (s : State) (t : Nat) : State :=
  if s.ms.inTransition then s
  else
  let z := s.drawOctets 16
  (z.2.modPair fun p => { p with seed := z.1, generated := [] }).changeMode .m3 t

/-- The entry to M5 STANDBY: synchronisation begins with phase 1, or with phase 2 where the pair has formed already; a
refused pair is held (R565, R566). -/
def State.toStandby (s : State) (t : Nat) : State :=
  if s.ms.inTransition then s
  else
  let go := s.pair.formed && s.pair.linkUp && (s.pair.peerMode == 3 || s.pair.peerMode == 4 || s.pair.peerMode == 6)
  let s := (s.modPair fun p => { p with m5At := s.time.duration, phase := if go then 2 else 1, resumeAt := 2,
                                        mismatchTold := false }).changeMode .m5 t
  if s.pair.refused = 0 then s
  else ({ s with ms := { s.ms with standbyHeld := true } }).pairEntry 0x0302 s.pair.refused 0 0 s.pair.release

/-- T8 or T9, or the wait of T8 (R42). -/
def State.leaveBoot (s : State) : State :=
  if s.cfg.pair.pairingEn then
    if s.pins.activeIn then s.toStandby 9
    else if s.pins.pairId then { s with ms := { s.ms with bootStep := 4 } }
    else s.toSolo 8
  else s.toSolo 8

/-! ### Self-test (R627 to R634) -/

/-- Slices of each KIND (R627); 0 for a number that names none. -/
def sliceCount (kind : Nat) : Nat := [0, 8, 136, 104, 24, 1, 512, 256, 5, 32, 8, 32, 1, 1].getD kind 0

/-- The slices that failed, in order; a tile without REFCLK fails its 64 lanes (R672). -/
def State.failedSlices (s : State) (l : List (Nat × Nat)) : List (Nat × Nat) :=
  (List.range 14).flatMap fun k => (List.range (sliceCount k)).filterMap fun i =>
    if l.contains (k, i) || (k == 6 && !s.pins.refclkTile.getLsbD (i / 64)) then some (k, i) else none

/-- Failed slices of a KIND below a number. -/
def failedBelow (l : List (Nat × Nat)) (kind n : Nat) : List Nat :=
  (l.filter fun x => x.1 == kind && decide (x.2 < n)).map (·.2)

/-- Slices `lo` to `lo + n - 1` of a KIND that did not fail. -/
def goodOf (l : List (Nat × Nat)) (kind lo n : Nat) : List Nat :=
  ((List.range n).map (lo + ·)).filter fun i => !l.contains (kind, i)

/-- Failed slices with the spares that replace them, both in ascending order (R247, R288, R630). -/
def sparing (l : List (Nat × Nat)) : List (Nat × Nat × Nat) :=
  let of (kind homes spares : Nat) : List (Nat × Nat × Nat) :=
    ((failedBelow l kind homes).zip (goodOf l kind homes spares)).map fun x => (kind, x.1, x.2)
  of 2 128 8 ++ of 3 96 8 ++ of 8 4 1

/-- A failed slice that no spare replaced. -/
def Bist.removed (b : Bist) : List (Nat × Nat) :=
  b.unusable.filter fun x => !b.spared.any fun y => y.1 == x.1 && y.2.1 == x.2

/-- What the failures leave (R247, R288, R630, R633). -/
def State.applySlices (s : State) (l : List (Nat × Nat)) : State :=
  let sp := sparing l
  let spareOf (kind i : Nat) : Option Nat := (sp.find? fun y => y.1 == kind && y.2.1 == i).map (·.2.2)
  { s with
    bist := { s.bist with unusable := l, spared := sp }
    ports := { s.ports with pipeOut := listTab false ((failedBelow l 1 8).map fun i => (i, true)),
                            laneOut := listTab false ((failedBelow l 6 512).map fun i => (i, true)) }
    qos := { s.qos with
      banksRemoved := ((failedBelow l 2 128).filter fun i => (spareOf 2 i).isNone).length
      sparesUsed := (sp.filter fun y => y.1 == 2).length
      bankMap := listTab 0 ((sp.filter fun y => y.1 == 2).map (·.2)) }
    radio := { s.radio with
      badLanes := failedBelow l 3 104
      lanes := listTab none ((failedBelow l 3 96).map fun i => (i, some (spareOf 3 i)))
      badCores := (failedBelow l 4 16).length } }

/-- SAFE_CAUSE that the failures call for (R630, R631), 0 none. -/
def State.sliceCause (s : State) : Nat :=
  let l := s.bist.unusable
  if l.contains (13, 0) || (failedBelow l 1 8).length == 8 || decide (64 < s.qos.banksRemoved) then 2
  else if l.contains (12, 0) then 7 else 0

/-- No key-store bank, AES engine or ECC engine is usable (R631). -/
def State.noCrypto (s : State) : Bool :=
  let l := s.bist.unusable
  (failedBelow l 8 5).length == 5 || (failedBelow l 9 32).length == 32 || (failedBelow l 10 8).length == 8

/-- A self-test entry (R656). -/
def State.bistEntry (s : State) (type kind slice spare result : Nat) : State :=
  s.alarm 12 type (leBytes 1 kind ++ [0] ++ leBytes 2 slice ++ leBytes 2 spare ++ leBytes 1 result)

/-- LEVEL_FAULT (R695). -/
def State.levelFault (s : State) (level action number cause : Nat) : State :=
  s.alarm 2 0x0204 (leBytes 1 level ++ leBytes 1 action ++ leBytes 2 number ++ leBytes 1 cause)

/-- RESULT of a slice that failed in M1 BOOT: 1 or 2, which the event does not tell apart (log entry 3). -/
def State.drawResult (s : State) : Nat × State :=
  let z := s.draw
  (1 + z.1 % 2, z.2)

/-- The entry of a slice that a spare replaced, and of one removed. -/
def State.tellSpared (s : State) (y : Nat × Nat × Nat) : State :=
  let z := s.drawResult
  z.2.bistEntry 0x0C02 y.1 y.2.1 y.2.2 z.1

def State.tellRemoved (s : State) (x : Nat × Nat) : State :=
  let z := s.drawResult
  z.2.bistEntry 0x0C01 x.1 x.2 0 z.1

/-- The LEVEL_FAULT entry of a pipe, lane or MAC that is unusable. -/
def State.tellUnusable (s : State) (x : Nat × Nat) : State :=
  match x.1 with
  | 1 => s.levelFault 3 3 x.2 5
  | 6 => s.levelFault 1 3 x.2 5
  | 7 => s.levelFault 2 3 x.2 5
  | _ => s

/-- The core-die faults found in this M1 BOOT before the MGCs ran, with M7 SAFE to follow (R695). -/
def State.tellDie (s : State) : State :=
  let s' := s.ms.dieFaults.foldl (fun s c => s.levelFault 4 4 0 c) s
  { s' with ms := { s'.ms with dieFaults := [] } }

/-- The entries of R634, R288 and R695 once the MGCs run. -/
def State.tellSlices (s : State) : State :=
  let s := s.bist.spared.foldl State.tellSpared s
  let s := s.bist.removed.foldl State.tellRemoved s
  let s := s.bist.unusable.foldl State.tellUnusable s
  let s := (if s.sliceCause = 2 then s.levelFault 4 4 0 5 else s).tellDie
  (s.bist.removed.filter fun x => x.1 == 3 && decide (x.2 < 96)).foldl (fun s x => s.siteFault x.2 6) s

/-! ### Processor load (R51 steps 6 and 7) -/

/-- The entries of the transitions into M1, with RESET_CAUSE and UNCLEAN (R44). -/
def State.tellEntries (s : State) : State :=
  let s' := s.ms.noted.foldl (fun s b =>
    s.putEntry 0 1 0x0101 (b.take 4 ++ leBytes 4 s.ms.resetCause.toNat ++ leBytes 1 (b2n s.ms.unclean))) s
  { s' with ms := { s'.ms with noted := [] } }

/-- RAIL_FAULT (R683). -/
def State.tellRails (s : State) : State :=
  if s.power.railFault = 0 && !s.power.tripSeen then s
  else s.alarm 2 0x0203 ([0xFF, 0, 0, 0] ++ leBytes 2 s.power.railFault.toNat ++ leBytes 1 (b2n s.power.tripSeen))

/-- The tag of each slot is checked at the M1 entry (R498); what a rewrap marked is reported with REWRAPPED (R501). -/
def State.tellKeys (s : State) : State :=
  let s : State := match s.ms.rewrapped with
    | none => s
    | some (n, bad) =>
      let old : State := bad.foldl (fun s i => s.setSlot i { s.keySlot i with unusable := false }) s
      let s : State := bad.foldl (fun s i => s.securityEntry 0x0401 i (s.keySlot i).kind (s.keySlot i).owner 0) s
      (old.settleKeys s).securityEntry 0x0404 0 0 0 (n + 2 ^ 32 * bad.length)
  ((s.nv.keys.slots.filter fun e => e.2.kind != 0 && !e.2.unusable && !e.2.tagOk).map (·.1)).foldl (fun s i => s.markUnusable i) s

/-- Every domain's epoch advances in one commit before the device leaves M1 BOOT (R454). -/
def State.advanceAll (s : State) : State :=
  (List.range 64).foldl (fun s d =>
    let e := ((s.lease d).epoch + 1) % 2 ^ 32
    let s := { s with nv := { s.nv with leases := tset {} s.nv.leases d { epoch := e, leaseEnd := 65536 } } }
    (s.modMesh d fun m => { m with outCounter := 0 }).meshAlarm d 0x0A08 (advanceBody d e 1)) s

/-- A record restored from the resume table (R457). -/
def restored (e : Resume) : NodeRec :=
  let zero : Link := { site := 0 }
  { eui := e.eui, domain := e.domain, state := 2, sleepy := e.sleepy, router := e.router, rxCounter := e.rxCounter,
    links := [zero, zero, zero, zero], resumed := true }

/-- An entry of the resume table whose handle lies in its domain's current range. -/
def State.resumeNode (s : State) (e : Resume) : State :=
  if s.inRange e.domain e.handle then s.setNode e.handle (some (restored e)) else s

/-- After a clean entry the counters resume at LEASE_END and the resume table is read and erased (R456, R457). -/
def State.resumeNodes (s : State) : State :=
  let s := (List.range 64).foldl (fun s d => s.modMesh d fun m => { m with outCounter := (s.lease d).leaseEnd }) s
  let s := s.nv.resume.foldl State.resumeNode s
  { s with nv := { s.nv with resume := [] } }

/-- The settings of the blob in force; without one the factory settings with the ring pairs of step 2 (R51, R696). -/
def State.bootSettings (s : State) : State :=
  match s.nv.blob with
  | some b => if s.ms.blobCause ≠ 0 then s else { s with cfg := s.effective b }
  | none => s

/-! ### The rows -/

/-- RESET_N_LOW: T1 (R42, R65). In M0 it lets the device start at its next edge (R63). -/
def execResetNLow (s : State) : Host.Outcome State Fault Refusal :=
  let s := (s.addCause 1).dormant
  .next { s with ms := { s.ms with armed := true } }

/-- POWER_FAIL_WARNING (R49, R514): the holds fall, launches and egress stop, what is staged drains; key-store commits are
abandoned. -/
def execPowerFailWarning (s : State) : Host.Outcome State Fault Refusal :=
  .next (if s.ms.mode = .m0 ∨ s.ms.inTransition then s
    else
      let s := (s.addCause 2).dropHolds
      { s with
        ms := { s.ms with inTransition := true }
        pins := { s.pins with activeOut := false }
        nv := { s.nv with keys := { s.nv.keys with staged := [], commitAt := none } } })

/-- POWER_FAIL_DRAIN_DONE: T2 (R49); a commit that is still staged is abandoned. -/
def execPowerFailDrainDone (s : State) : Host.Outcome State Fault Refusal :=
  .next (if s.ms.inTransition then
      let s := s.dormant
      { s with ms := { s.ms with armed := true } }
    else s)

/-- RAIL_OUT_OF_RANGE: T2 (R42, R666, R668); RAIL_FAULT keeps the rails. -/
def execRailOutOfRange (rails : BitVec 10) (s : State) : Host.Outcome State Fault Refusal :=
  .next (if rails = 0 then s
    else
      let s := { s with power := { s.power with railInRange := s.power.railInRange &&& ~~~rails, railFault := s.power.railFault ||| rails } }
      let s := s.dormant
      { s with ms := { s.ms with armed := true, railsLost := true } })

/-- The supplies come back: POWER_ON, an always-on domain that lost its supply starts anew, and THERMTRIP_N is released
when VDD_IO33 was gone, TRIP_SEEN staying set (R41, R46, R669, R679). `io18` and `io33`: those rails were out of range. -/
def State.supplied (s : State) (vbat io18 io33 : Bool) : State :=
  let s := { s with
    power := { s.power with railInRange := 0x3FF }
    pins := { s.pins with thermtrip := s.pins.thermtrip && !io33 } }
  if !s.ms.railsLost then s
  else if vbat || !io18 then s.addCause 0
  else { s with
    ms := { s.ms with resetCause := 1 }
    time := { s.time with rtc := {} }
    power := { s.power with railFault := 0, tripSeen := false } }

/-- BOOT_START: T4 and the chain up to step 4 (R42, R51). In M1, where the chain has not begun or stands for want of
REFCLK_RC, it runs the chain. -/
def execBootStart (b : BootInput) (s : State) : Host.Outcome State Fault Refusal :=
  .next (match s.ms.mode with
    | .m0 =>
      if s.ms.armed then
        (s.supplied b.vbatKept (!s.power.railInRange.getLsbD 8) (!s.power.railInRange.getLsbD 9)).powerUp.bootChain b
      else s
    | .m1 => if s.ms.bootStep = 0 then s.bootChain b else s
    | _ => s)

/-- BOOT_SELF_TEST_DONE: step 5 has ended (R629 to R633). -/
def execBootSelfTestDone (failed : List (Nat × Nat)) (s : State) : Host.Outcome State Fault Refusal :=
  .next (if s.ms.mode ≠ .m1 ∨ s.ms.bootStep ≠ 1 then s
    else
      let s := s.applySlices (s.failedSlices failed)
      if s.noCrypto then s.crash
      else
        let c := s.sliceCause
        let cause := if c = 2 ∨ s.ms.bootSafe = 2 then 2 else if c = 7 then 7 else s.ms.bootSafe
        { s with ms := { s.ms with bootStep := 2, bootSafe := cause } }.setRings)

/-- PROCESSORS_LOADED: steps 6 and 7 (R44, R51, R59, R454, R457, R624, R634, R683). -/
def execProcessorsLoaded (s : State) : Host.Outcome State Fault Refusal :=
  .next (if s.ms.mode ≠ .m1 ∨ s.ms.bootStep ≠ 2 then s
    else
      let s := { s with procs := { s.procs with loaded := true }, ms := { s.ms with bootStep := 3 } }
      let s := (s.setAlive.bootSettings).selectSources.setRings
      let s := s.tellEntries.tellRails
      let s := s.ms.rejected.foldl (fun s x => s.updateEntry 0x0B03 x.1 x.2.1 x.2.2) s
      let s := s.tellSlices.tellKeys
      let s := s.ms.holdovers.foldl (fun s x => s.timeEvent 0x0501 x.1 (leBytes 1 x.1 ++ leBytes 1 (x.2 + 12))) s
      (if s.ms.unclean then s.advanceAll else s.resumeNodes).setDriving)

/-- SAFE_CAUSE of T10 (R42): a fault of the core die or of the Reservoir outranks a cause of the blobs (R43); 0 for none. -/
def State.safeBoot (s : State) : Nat := if s.ms.bootSafe = 0 then s.ms.blobCause else s.ms.bootSafe

/-- BOOT_COMPLETE: step 8, by T7, T8, T9 or T10 (R42, R51). -/
def execBootComplete (s : State) : Host.Outcome State Fault Refusal :=
  .next (if s.ms.mode ≠ .m1 ∨ s.ms.bootStep ≠ 3 then s
    else if s.safeBoot ≠ 0 then s.changeMode .m7 10 s.safeBoot
    else if s.ms.migrating then s.changeMode .m2 7
    else s.leaveBoot)

/-- PAIRING_WAIT_EXPIRY: T8 after 10 s of ACTIVE_IN low (R42). -/
def execPairingWaitExpiry (s : State) : Host.Outcome State Fault Refusal :=
  .next (if (s.ms.mode = .m1 ∨ s.ms.mode = .m2) ∧ s.ms.bootStep = 4 ∧ !s.pins.activeIn then s.toSolo 8 else s)

/-- M2 MIGRATE still converts. -/
def State.migrates (s : State) : Bool := s.ms.mode == .m2 && s.ms.bootStep == 3

/-- MIGRATION_DONE (R56): the new blob is committed and in force, the old one kept; then T8 or T9. -/
def execMigrationDone (s : State) : Host.Outcome State Fault Refusal :=
  .next (if !s.migrates then s
    else
      match s.nv.blob with
      | none => s
      | some b =>
        let old := { b with cfg := s.effective b }
        let c := (migrateCfg b.version s.ms.setVersion old.cfg).getD old.cfg
        let top := (s.blobs.map (·.seq)).foldl max 0
        let new : Blob := { seq := top + 1, version := s.ms.setVersion, cfg := c }
        let s := { s with
          nv := { s.nv with blob := some new, oldBlob := some old, journal := none, journalUsed := 0 }
          cfg := c
          ms := { s.ms with blobVersion := s.ms.setVersion, migrating := false } }
        s.setRings.leaveBoot)

/-- A migration fails (R57): the running bank is marked FAILED, and T11. -/
def State.failMigration (s : State) : State :=
  if s.migrates then (s.modBoot s.ms.bank fun r => { r with failed := true }).restart 5 11 else s

def execMigrationStepError (s : State) : Host.Outcome State Fault Refusal := .next s.failMigration

def execMigrationTimeout (s : State) : Host.Outcome State Fault Refusal := .next s.failMigration

/-- LKG_REACHED (R53, R56, R602): the running set is last known good, an older blob is released, and when it is so for the
first time the fuses of REVOKE are blown, but for the set's own key. The other blob is released also where it is the newer one
(DESIGN CHOICE, log entry 131). -/
def execLkgReached (s : State) : Host.Outcome State Fault Refusal :=
  .next (match s.ms.mode, s.ms.running with
    | .m3, some x | .m4, some x | .m5, some x | .m6, some x =>
      let first := !(s.bootRec s.ms.bank).lkg
      let s := (s.modBoot s.ms.bank fun r => { r with tried := 0, lkg := true }).modBoot (!s.ms.bank) fun r => { r with lkg := false }
      let blow := BitVec.ofNat 4 (x.revoke - if bit x.revoke x.signKey then 2 ^ x.signKey else 0)
      { s with
        ms := { s.ms with lkg := true }
        nv := { s.nv with oldBlob := none, fuses := { s.nv.fuses with revoked := if first then s.nv.fuses.revoked ||| blow else s.nv.fuses.revoked } } }
    | _, _ => s)

/-- BSC_FAULT (R21, R42): T5; in M1 the bank has failed, T6. -/
def execBscFault (s : State) : Host.Outcome State Fault Refusal := .next s.crash

end Sys2Proof.Machine
end

