-- ==== Sys2Proof/Machine/Elec.lean ====
section
/-! DEFINITION. Sensors (R679, R682, R683), JTAG (R684), and loss of a REFCLK (R672). -/

namespace Sys2Proof.Machine

/-! ### Sensors -/

/-- The hottest of a list of readings. -/
def hottest : List Int → Option Int
  | [] => none
  | x :: l => some (l.foldl max x)

/-- A temperature register after a reading. -/
def tempReg (old : BitVec 16) (l : List Int) : BitVec 16 :=
  match hottest l with
  | some t => BitVec.ofInt 16 t
  | none => old

/-- THERMAL_WARN or THERMAL_NORMAL of a die (R683). -/
def State.thermalEntry (s : State) (type die : Nat) (temp : Int) : State :=
  s.alarm 2 type (leBytes 1 die ++ [0] ++ sleBytes 2 temp ++ [0, 0] ++ leBytes 1 (b2n s.power.tripSeen))

/-- A warning against a threshold in degrees C (R679): whether it is active afterwards, and the entry's TYPE, 0 for none. -/
def warnStep (active : Bool) (limit : Nat) (temp : Int) : Bool × Nat :=
  if !active && decide ((16 * limit : Int) ≤ temp) then (true, 0x0201)
  else if active && decide (temp < 16 * ((limit : Int) - 5)) then (false, 0x0202)
  else (active, 0)

/-- The core-die and RC-die warning: the hottest of both, and the die that holds it. -/
def State.dieWarning (s : State) (v : SensorReading) : State :=
  match hottest (v.core ++ v.rc) with
  | none => s
  | some t =>
    let w := warnStep s.power.warnActive s.power.warnC t
    let die := if v.core.contains t then 0 else 1
    let s := { s with power := { s.power with warnActive := w.1, warnHit := s.power.warnHit || w.2 == 0x0201 } }
    if w.2 = 0 then s else s.thermalEntry w.2 die t

/-- The Reservoir's warning. -/
def State.hbmWarning (s : State) (v : SensorReading) : State :=
  match hottest v.reservoir with
  | none => s
  | some t =>
    let w := warnStep s.power.hbmWarnActive s.power.hbmWarnC t
    let s := { s with power := { s.power with hbmWarnActive := w.1, hbmWarnHit := s.power.hbmWarnHit || w.2 == 0x0201 } }
    if w.2 = 0 then s else s.thermalEntry w.2 2 t

/-- The peak after a reading. -/
def Power.peak (p : Power) (t : Option Int) : Power :=
  match t with
  | none => p
  | some t =>
    if p.peakAny then { p with tempPeak := BitVec.ofInt 16 (max p.tempPeak.toInt t) }
    else { p with tempPeak := BitVec.ofInt 16 t, peakAny := true }

/-- SENSOR_READ (R679, R682): the readings, the warnings, and the trip at 125 degrees C on any die. -/
def execSensorRead (v : SensorReading) (s : State) : Host.Outcome State Fault Refusal :=
  .next (if s.ms.mode = .m0 then s
    else
      let p := s.power.peak (hottest (v.core ++ v.rc ++ v.tiles ++ v.reservoir))
      let trip := (v.core ++ v.rc ++ v.tiles).any fun t => decide (2000 ≤ t)
      let s := { s with
        power := { p with
          tempCore := tempReg p.tempCore v.core
          tempRc := tempReg p.tempRc v.rc
          tempReservoir := tempReg p.tempReservoir v.reservoir
          watts := BitVec.ofNat 16 v.watts
          railMv := v.railMv.take 10
          tripSeen := p.tripSeen || trip }
        pins := { s.pins with thermtrip := s.pins.thermtrip || trip } }
      (s.dieWarning v).hbmWarning v)

/-! ### JTAG -/

/-- The IDCODE (R684). -/
def idcode : Nat := 0x29651A4B

/-- JTAG_IDCODE: the code is shifted out. -/
def execJtagIdcode (s : State) : Host.Outcome State Fault Refusal :=
  .next { s with jtag := { s.jtag with ir := 1 }, host := { s.host with readData := idcode } }

/-- JTAG_SAMPLE: the boundary register captures the levels of its 140 cells, and is shifted out. -/
def execJtagSample (cells : BitVec 140) (s : State) : Host.Outcome State Fault Refusal :=
  .next { s with jtag := { ir := 2, boundary := cells }, host := { s.host with readData := cells.toNat } }

/-- JTAG_BYPASS: BYPASS, or a code that names no instruction, selects the one-bit path; IDCODE and SAMPLE are other rows. -/
def execJtagBypass (code : BitVec 4) (s : State) : Host.Outcome State Fault Refusal :=
  .next (if code = 1 ∨ code = 2 then s else { s with jtag := { s.jtag with ir := code } })

/-! ### Reference clocks -/

/-- A lane loses lock. -/
def State.unlockLane (s : State) (l : Nat) : State :=
  if tget false s.ports.laneLocked l then
    ({ s with ports := { s.ports with laneLocked := tset false s.ports.laneLocked l false } }).count (.lane l .lockLoss)
  else s

/-- The lanes of a tile lose lock (R672). -/
def State.tileLost (s : State) (tile : Nat) : State :=
  let lanes := (List.range 64).map (64 * tile + ·)
  let s := lanes.foldl State.unlockLane s
  (((s.cfg.ports.map (·.1)).filter fun p => p / 32 == tile).foldl (fun s p => s.takeDownFor p 2 2) s).setRings

/-- REFCLK_LOST (R59, R672): of a tile, its lanes lose lock and the holds of its ring pairs fall; of the RC die, it stops,
and the endpoint answers no more. -/
def execRefclkLost (tile : Fin 9) (s : State) : Host.Outcome State Fault Refusal :=
  .next (if tile.val = 8 then { s with pins := { s.pins with refclkRc := false } }
    else if s.pins.refclkTile.getLsbD tile.val then
      let s := { s with pins := { s.pins with refclkTile := s.pins.refclkTile &&& ~~~BitVec.ofNat 8 (2 ^ tile.val) } }
      if s.ms.mode = .m0 then s else s.tileLost tile.val
    else s)

end Sys2Proof.Machine
end

