-- ==== Sys2Proof/Machine/MeshRx.lean ====
section
/-! DEFINITION. What the mesh receives: secured frames (R455), acknowledgements (R420, R463), link and distribution reports
(R458, R459, R473), the border function's way up (R464), joins (R446 to R450), and the timers of the mesh (R442, R450,
R464, R467, R472). -/

namespace Sys2Proof.Machine

/-- A decoded frame is taken from the modem. -/
def State.takeDecoded (s : State) (a : AirFrame) : State := { s with radio := { s.radio with decoded := s.radio.decoded.erase a } }

/-- The MPDU of a PSDU whose FCS checks. -/
def mpduOf (a : AirFrame) : Option Bytes :=
  let n := a.psdu.length - fcsLen a.rxPhy
  let m := a.psdu.take n
  if decide (fcsLen a.rxPhy < a.psdu.length) && psduOf a.rxPhy m == a.psdu then some m else none

/-! ### Acceptance (R455) -/

/-- More than 16 failures in 60 s raise AUTH_ALARM, at most once per 60 s. -/
def State.authFailure (s : State) (d h : Nat) : State :=
  match s.node h with
  | none => s
  | some n =>
    let now := s.time.duration
    let l := now :: n.failAt.filter fun t => decide (now < t + 60 * secCounts)
    let quiet := match n.alarmAt with | some t => decide (t + 60 * secCounts ≤ now) | none => true
    let ring := decide (16 < l.length) && quiet
    let s := s.modNode h fun n => { n with failAt := l, alarmAt := if ring then some now else n.alarmAt }
    if ring then s.meshAlarm d 0x0A09 (nodeBody h d n.eui l.length) else s

/-- A copy of the frame accepted latest, from a site that does not combine with the first (R455). -/
def NodeRec.isCopy (n : NodeRec) (a : AirFrame) : Bool :=
  match n.lastRx with
  | some (site, t0, t1, b) => site != a.site.val && b == a.psdu && decide (a.instantNs < t1) && decide (t0 < a.endNs)
  | none => false

/-- Frames heard at a site in the current 60 s, RSSI, SNR and reliability: the site's link, a free one, or one of the four
that the spec does not choose (log entry 3). -/
def State.linkHeard (s : State) (h : Nat) (a : AirFrame) (minute : Nat) : State :=
  match s.node h with
  | none => s
  | some n =>
    let set (s : State) (k : Nat) : State := s.modNode h fun n =>
      { n with links := n.links.set k (
          let old := n.links.getD k {}
          let same := old.site == a.site.val && old.minute == minute
          { site := a.site.val, rssi := a.rssi, snr := a.snrQdb, frames := satAdd 16 (if same then old.frames else 0) 1,
            reliability := a.reliability, minute := minute }) }
    match n.links.findIdx? (fun l => l.site == a.site.val), n.links.findIdx? (fun l => l.site == 0xFF) with
    | some k, _ => set s k
    | none, some k => set s k
    | none, none => let z := s.draw; set z.2 (z.1 % 4)

/-- CSL timing from a CSL IE: phase and period in units of ten symbol periods. -/
def NodeRec.cslIe (n : NodeRec) (f : MacFrame) (phy endNs : Nat) : NodeRec :=
  match f.hies.find? (·.1 == 0x1A) with
  | some (_, b) =>
    let u := Config.cslUnitNs phy
    { n with sleepy := leAt b 2 2 != 0, cslPeriodUs := leAt b 2 2 * u / 1000, cslAnchorNs := endNs + leAt b 0 2 * u, cslFrom := endNs,
             cslKnown := true }
  | none => n

/-- What an accepted frame writes (R455): counter, instants, link, CSL timing; JOINING becomes JOINED (R450). -/
def State.accepted (s : State) (d h : Nat) (a : AirFrame) (f : MacFrame) : State :=
  let fin := s.ofTb0 d a.endNs
  let s := s.engineWrite h fun n =>
    { (n.cslIe f (phyCode a.freq a.phy) fin) with
        rxCounter := f.counter, heardS := fin / 1000000000, heardMs := fin % 1000000000 / 1000000, rxFrames := (n.rxFrames + 1) % 2 ^ 32
        state := 2, lastRx := some (a.site.val, a.instantNs, a.endNs, a.psdu) }
  s.linkHeard h a (fin / 60000000000)

/-- The handle of a frame's source in its domain. -/
def State.sourceOf (s : State) (d : Nat) (f : MacFrame) : Option Nat :=
  match f.src with
  | some (true, e) => s.findEui d e
  | some (false, a) => (s.handleOf d a).filter fun h => (s.node h).isSome
  | none => none

/-- The checks of R455 in order: the handle and the open payload of a frame that passes, and the state with the counts of
one that fails. -/
def State.authenticate (s : State) (d : Nat) (a : AirFrame) (f : MacFrame) : State × Option (Nat × Bytes) :=
  match s.sourceOf d f with
  | none => (s, none)
  | some h =>
    match s.node h with
    | none => (s, none)
    | some n =>
      let k := s.nodeKey d n.eui
      match k.2 with
      | none => (k.1, none)
      | some key =>
        if f.keyIndex ≠ s.keyIndex d then (k.1.count (.domain d .rxBadIndex), none)
        else if f.counter ≤ n.rxCounter ∨ 0xFFFFFFFF ≤ f.counter then
          if n.isCopy a then (k.1.count (.domain d .rxDup), none)
          else ((k.1.engineWrite h fun n => { n with replay := satAdd 16 n.replay 1 }).authFailure d h, none)
        else
          let s := k.1.aesJob
          match Config.ccmOpen key (ccmNonce n.eui f.counter f.level) f.header f.rest with
          | none => ((s.engineWrite h fun n => { n with authFail := satAdd 16 n.authFail 1 }).authFailure d h, none)
          | some p =>
            let joining := n.state == 1
            let s := s.accepted d h a f
            (if joining then s.meshEvent d (if n.rejoin then 0x0A02 else 0x0A01) (nodeBody h d n.eui 0) else s, some (h, p))

/-! ### Reports (R458, R459, R473) -/

/-- LINK (form L). -/
def linkBody (h d nb rssi etx seq : Nat) (parent : Bool) : Bytes :=
  leBytes 3 h ++ leBytes 1 d ++ leBytes 3 nb ++ leBytes 1 rssi ++ leBytes 1 etx ++ leBytes 1 (b2n parent) ++ leBytes 1 seq

/-- The LINK entry of neighbour `k` of a report, if the neighbour is known. -/
def State.linkEntry (s : State) (d h : Nat) (y : Option Nat) (b : Bytes) (seq k : Nat) : State :=
  match y with
  | none => s
  | some y => s.meshEntry d ((s.meshDom d).cfg.bind (·.linkWell)) 0x0A06
      (linkBody h d y (byteAt b (32 + 4 * k)) (byteAt b (33 + 4 * k)) seq (k == 0))

/-- One link report. -/
def State.linkReport (s : State) (d h : Nat) (b : Bytes) : State :=
  let seq := byteAt b 4
  let n := byteAt b 5 % 32
  match s.node h with
  | none => s
  | some x =>
    if decide (b.length < 30 + 4 * n) || decide (16 < n) || x.linkSeq == seq then s
    else
      let handle (k : Nat) : Option Nat := (s.handleOf d (leAt b (30 + 4 * k) 2)).filter fun y => (s.node y).isSome
      let parent := if n = 0 then none else handle 0
      let noise := if bit (byteAt b 5) 5 then some (slice b 6 24) else x.noise
      let s := s.engineWrite h fun x =>
        { x with linkSeq := seq, parent := parent.getD 0, parentValid := parent.isSome, noise := noise }
      (List.range n).foldl (fun s k => s.linkEntry d h (handle k) b seq k) s

/-- One distribution report; the distribution ends when every targeted node has reported done (R472). -/
def State.distReport (s : State) (d h : Nat) (b : Bytes) : State :=
  if b.length < 9 then s
  else
    match s.node h with
    | none => s
    | some n =>
      let id := leAt b 4 2
      let fin := bit (byteAt b 8) 0
      let first := fin && !(n.distDone && n.distId == id)
      let s := s.engineWrite h fun n => { n with distId := id, distGens := leAt b 6 2, distDone := fin }
      let s := if first then s.meshEvent d 0x0A0A (nodeBody h d n.eui id) else s
      match (s.meshDom d).dist with
      | none => s
      | some x =>
        if fin && x.id == id && x.targets.contains h && !x.done.contains h then
          let y := { x with done := x.done ++ [h] }
          let s := s.modMesh d fun m => { m with dist := some y }
          if y.targets.length ≤ y.done.length then s.endDist d stOk 0 else s
        else s

/-- The reports of a frame take effect. -/
def State.applyReports (s : State) (d h : Nat) (link dist : List Bytes) : State :=
  let s := link.foldl (fun s b => s.linkReport d h b) s
  dist.foldl (fun s b => s.distReport d h b) s

/-- The reports of a frame, a firmware effect (R548); while its MCC is reloaded they wait (R24). -/
def State.takeReports (s : State) (d h : Nat) (l : List (Nat × Bytes)) : State :=
  let link := vendorIes l 0x02
  let dist := vendorIes l 0x05
  s.firmware (.reports d h link dist) fun s => s.applyReports d h link dist

/-- Hold a request for the reloaded MCC, while the holding area has room; past it the request is dropped and counted (R24). No
counter of the host's is named for it (log entry 100). -/
def State.hold (s : State) (join : Bool) (a : AirFrame) : State :=
  if s.procs.held.length < Config.holdingMax then { s with procs := { s.procs with held := s.procs.held ++ [(join, a)] } }
  else { s with procs := { s.procs with heldLost := s.procs.heldLost + 1 } }

/-! ### Uplink packets (R464) -/

/-- The packet enters the tenant's VRF, or is dropped. The addresses of the Ethernet frame that carries it to the lookup
are not stated, so they are free (log entry 3). -/
def State.uplinkPacket (s : State) (d site : Nat) (c : DomainCfg) (b : Bytes) : State :=
  let drop := s.count (.domain d .borderDrop)
  let src := (shortOf c.pfx (slice b 8 16)).bind (s.handleOf d)
  let known := match src with | some h => (s.node h).isSome | none => false
  let dst := slice b 24 16
  let local_ := isLinkLocal dst || (byteAt dst 0 == 0xFF && byteAt dst 1 == 2)
  if decide (b.length < 40) || byteAt b 0 / 16 != 6 || !known || local_ || dst == domainAddr c.pfx deviceShort then drop
  else
    match s.domainTenant d with
    | none => drop
    | some t =>
      let z := s.draw
      z.2.injectLookup t (leBytes 12 z.1 ++ [0x86, 0xDD] ++ b) (0x8000 + site)

/-- Reassemblies held at once. -/
def maxReasm : Nat := 16384

def reasmKey (h tag : Nat) : Nat := h * 65536 + tag

/-- The octets from `off` on that pieces give, as far as they reach without a gap. -/
def gather (l : List (Nat × Bytes)) : Nat → Nat → Bytes
  | 0, _ => []
  | n + 1, off =>
    match l.find? fun e => decide (e.1 ≤ off) && decide (off < e.1 + e.2.length) with
    | none => []
    | some e => let x := e.2.drop (off - e.1); x ++ gather l n (off + x.length)

/-- A fragment of a datagram. -/
def State.fragment (s : State) (d h site : Nat) (c : DomainCfg) (size tag off : Nat) (piece : Bytes) : State :=
  let k := reasmKey h tag
  let set (s : State) (x : Option Reasm) : State := { s with mesh := { s.mesh with reasm := tset none s.mesh.reasm k x } }
  match tget none s.mesh.reasm k with
  | none =>
    if maxReasm ≤ s.mesh.reasm.length then s.count (.domain d .reasmDrop)
    else if piece.length = size ∧ off = 0 then s.uplinkPacket d site c piece
    else set s (some { size := size, since := s.time.duration, pieces := [(off, piece)] })
  | some x =>
    let y : Reasm := { x with pieces := x.pieces ++ [(off, piece)] }
    let whole := gather y.pieces y.pieces.length 0
    if x.size ≠ size then s
    else if size ≤ whole.length then (set s none).uplinkPacket d site c (whole.take size)
    else set s (some y)

/-- The payload of an uplink frame. -/
def State.borderUp (s : State) (d h site : Nat) (c : DomainCfg) (f : MacFrame) (b : Bytes) : State :=
  let iid (a : Option (Bool × Nat)) : Bytes := match a with | some x => macIid x | none => List.replicate 8 0
  let front (size : Option Nat) (b : Bytes) : Option Bytes := unpackFront c.pfx (iid f.src) (iid f.dst) size b
  let drop := s.count (.domain d .borderDrop)
  let x := byteAt b 0
  if b.isEmpty then s
  else if x / 8 = 24 then
    let size := beAt b 0 2 % 2048
    match front (some size) (b.drop 4) with
    | some p => s.fragment d h site c size (beAt b 2 2) 0 p
    | none => drop
  else if x / 8 = 28 then s.fragment d h site c (beAt b 0 2 % 2048) (beAt b 2 2) (8 * byteAt b 4) (b.drop 5)
  else
    match front none b with
    | some p => s.uplinkPacket d site c p
    | none => drop

/-! ### SECURED_FRAME_RX -/

/-- A data frame secured as R453 states, for the device, in the domain's PAN. -/
def MacFrame.secured6 (f : MacFrame) (ftype pan : Nat) : Bool :=
  f.ftype == ftype && f.secured && f.level == 6 && f.keyMode == 1 && f.dst == some (false, deviceShort) && f.pan == some pan

/-- The upward part of an authenticated frame: reports, then the packet. -/
def State.deliverUp (s : State) (d h : Nat) (c : DomainCfg) (a : AirFrame) (f : MacFrame) (p : Bytes) : State :=
  match if f.payloadIes then payloadIes 32 p else some ([], p) with
  | none => s
  | some (l, rest) =>
    let report := !(vendorIes l 0x02).isEmpty || !(vendorIes l 0x05).isEmpty
    let s := if report then (if s.mccAway d then s.hold false a else s.takeReports d h l) else s
    s.borderUp d h a.site.val c f rest

def State.securedRx (s : State) (a : AirFrame) : State :=
  let d := a.domain.val
  match (mpduOf a).bind parseMac, (s.meshDom d).cfg, (s.domain d).imageFor fun j => a.slot * j.slotNs with
  | some f, some c, some i =>
    match i.cellIn a.slot a.cell with
    | none => s
    | some cell =>
      if !f.secured6 1 c.panId || !cell.rx || cell.type == 4 then s
      else
        let r := s.authenticate d a f
        match r.2 with
        | none => r.1
        | some (h, p) =>
          if cell.type = 0 ∧ cell.node ≠ h then r.1.count (.domain d .rxWrongNode)
          else
            let s := if cell.ackReq then r.1.planAck d i a.cell cell h a (byteAt f.header 2) else r.1
            let s := if cell.type = 0 then s else s.heardFrom h a.freq cell.band (!a.heard.isEmpty) a.heard none
            s.deliverUp d h c a f p
  | _, _, _ => s

/-- SECURED_FRAME_RX (R453, R455, R458 to R464). -/
def execSecuredFrameRx (a : AirFrame) (s : State) : Host.Outcome State Fault Refusal :=
  .next (if s.inService then (s.takeDecoded a).securedRx a else s)

/-! ### DOWNLINK_ACK_RX -/

/-- A watched frame was acknowledged, or not: then it stays for its next attempt, or has had them all (R463). -/
def State.settleFrame (s : State) (d h id : Nat) (ok : Bool) : State :=
  match s.dlFrame h id with
  | none => s
  | some f => if ok then s.delivered h f true else if s.retryLimit d < f.attempts then s.exhausted d h f else s

/-- A frame is heard within a watch: on its channel and in its time (R420). -/
def State.heardIn (s : State) (w : Await) (a : AirFrame) : Bool :=
  let t := s.ofTb0 w.domain a.instantNs
  a.domain.val == w.domain && a.site.val == w.site && a.freq == w.freq && a.phy == w.phy && decide (w.opens ≤ t) && decide (t < w.closes)

/-- The type of the cell that a frame was heard in. -/
def State.cellType (s : State) (a : AirFrame) : Nat :=
  ((((s.domain a.domain.val).imageFor fun j => a.slot * j.slotNs).bind fun i => i.cellIn a.slot a.cell).map (·.type)).getD 8

/-- DOWNLINK_ACK_RX (R358, R361, R420, R453, R463, R467): the acknowledgement of a frame that is watched for, or the end of its watch
without one. Another frame does not end the watch. -/
def execDownlinkAckRx (handle : Nat) (ack : Option AirFrame) (s : State) : Host.Outcome State Fault Refusal :=
  .next (match s.mesh.awaits.find? (·.handle == handle) with
    | none => s
    | some w =>
      let d := w.domain
      let done (s : State) : State := { s with mesh := { s.mesh with awaits := s.mesh.awaits.erase w } }
      match ack, (s.meshDom d).cfg with
      | some a, some c =>
        let s := s.takeDecoded a
        match (mpduOf a).bind parseMac with
        | none => s
        | some f =>
          if !f.secured6 2 c.panId || !s.heardIn w a then s
          else
            let r := s.authenticate d a f
            match r.2 with
            | none => r.1
            | some p =>
              let s := if s.cellType a = 1 then r.1 else r.1.heardFrom p.1 a.freq w.band (!a.heard.isEmpty) a.heard none
              if p.1 = handle then (done s).settleFrame d handle w.frame true else s
      | some _, none => s
      | none, _ => if s.domainNs d < w.closes then s else (done s).settleFrame d handle w.frame false)

/-! ### Joins (R446 to R451) -/

/-- What a well-formed join request holds: EUI-64 and the IE from its first VENDOR octet. -/
def joinIe (f : MacFrame) (pan : Nat) : Option (Nat × Bytes) :=
  match f.src, if f.payloadIes then payloadIes 32 f.rest else none with
  | some (true, eui), some (l, _) =>
    match vendorIes l 0x06 with
    | b :: _ =>
      if f.ftype == 1 && !f.secured && f.dst == some (false, deviceShort) && f.pan == some pan && b.length == 94 &&
          leAt b 4 4 / 2 ^ 17 % 2 ^ 14 == 0 && byteAt b 9 / 4 == 0 then some (eui, b)
      else none
    | [] => none
  | _, _ => none

/-- Responses that the join-response queue holds. -/
def maxJoinQ : Nat := 4096

/-- Queue a join response. -/
def State.respond (s : State) (d : Nat) (c : DomainCfg) (handle : Option Nat) (eui : Nat) (body : Bytes) : State :=
  let q := s.nextSeq d
  let r : JoinResp := { handle := handle, eui := eui, mpdu := joinFrame q.2 c.panId eui (vendorIe 0x07 body) }
  q.1.modMesh d fun m => { m with joinQ := m.joinQ ++ [r] }

/-- A refusal takes effect; the handle in its entry is not stated (log entry 3). -/
def State.applyRefuse (s : State) (d eui result : Nat) : State :=
  match (s.meshDom d).cfg with
  | none => s
  | some c =>
    let z := (s.respond d c none eui (leBytes 1 result)).draw
    z.2.meshEvent d 0x0A04 (nodeBody (z.1 % 2 ^ 17) d eui result)

/-- A refusal with RESULT 1 or 2, a firmware effect (R548). -/
def State.refuseJoin (s : State) (d eui result : Nat) : State :=
  s.firmware (.refuse d eui result) fun s => s.applyRefuse d eui result

/-- EUI-64s of requests whose join or refusal is carried and not yet applied: they are still being processed (R447, R548). -/
def State.inProcess (s : State) (d : Nat) : List Nat :=
  s.pair.releases.filterMap fun x =>
    match x.2 with
    | .effect (.join dd _ e _ _ _) => if dd = d then some e else none
    | .effect (.refuse dd e _) => if dd = d then some e else none
    | _ => none

/-- Handles and EUI-64s of joins that are carried and not yet applied (R548). -/
def State.joining (s : State) (d : Nat) : List (Nat × Nat) :=
  s.pair.releases.filterMap fun x =>
    match x.2 with
    | .effect (.join dd h e _ _ _) => if dd = d then some (h, e) else none
    | _ => none

/-- The Node Store bank of a record has not been removed (R630). -/
def State.storeUsable (s : State) (h : Nat) : Bool := !s.bist.unusable.contains (11, h / 4096)

/-- The handle of R448: that of the EUI-64's record, the claimed one, or the lowest FREE one. -/
def State.chooseHandle (s : State) (d eui : Nat) (claim : Option Nat) : Option Nat :=
  match s.findEui d eui with
  | some h => some h
  | none =>
    let free (h : Nat) : Bool := s.inRange d h && (s.node h).isNone && s.storeUsable h && (s.joining d).all fun x => x.1 != h
    match claim.filter free with
    | some h => some h
    | none => match s.owner d with
      | some o => ((List.range o.max).map (o.base + ·)).find? free
      | none => none

/-- The record of a join (R441, R447, R448, R450): a rejoin ends the node's commands and empties its queue and maps. -/
def State.writeJoin (s : State) (d h eui : Nat) (c : DomainCfg) (b : Bytes) : State :=
  let old := s.node h
  let index := s.keyIndex d
  let s := match old with
    | some _ => (s.endSendsOf h 0x70).flushNode d h
    | none => s
  let s := s.clearMaps h
  let base : NodeRec := match s.node h with | some n => n | none => { eui := eui, domain := d, state := 1 }
  s.setNode h (some { base with
    state := 1, sleepy := bit (byteAt b 9) 0, router := bit (byteAt b 9) 1, class_ := byteAt b 8, fw := leAt b 10 4
    keyIndex := index, rxCounter := if base.keyIndex = index then base.rxCounter else 0, joinS := s.domainNs d / 1000000000
    dlqLimit := c.dlqDefault, hostTag := List.replicate 32 0, rejoin := old.isSome, joinSent := none, cslKnown := false, resumed := false, linkSeq := 0
    seqNo := base.seqNo + 2 })

/-- An accepted join takes effect: the record, the response, and NODE_MOVED for a claim not granted (R447, R448). -/
def State.applyJoin (s : State) (d h eui : Nat) (b body : Bytes) (moved : Option Nat) : State :=
  match (s.meshDom d).cfg with
  | none => s
  | some c =>
    let s := (s.writeJoin d h eui c b).respond d c (some h) eui body
    match moved with
    | some p => s.meshEvent d 0x0A03 (nodeBody h d eui p)
    | none => s

/-- Steps 5 to 7 of R447 for an authenticated request. -/
def State.joinNode (s : State) (d eui : Nat) (dk jk b : Bytes) : State :=
  let claim := if bit (leAt b 4 4) 31 then some (leAt b 4 4 % 2 ^ 17) else none
  match s.chooseHandle d eui claim with
  | none => s.refuseJoin d eui 1
  | some h =>
    let z := ecdhP256 (joinScalar dk) (slice b 22 64)
    let s := s.eccJob z.1
    if z.1 ≠ 0 then s.count (.domain d .joinBadKey)
    else
      let known := (s.findEui d eui).isSome
      let moved := claim.filter fun p => !known && p != h
      let nd := s.drawOctets 8
      let nn := slice b 14 8
      let epoch := s.epochOfDomain d
      let ks := fit 16 (Config.cmac jk ([1] ++ z.2 ++ nn ++ nd.1 ++ leBytes 8 eui))
      let wrapped := Config.ccmSeal 16 ks (nd.1 ++ nn.take 5) []
        (deriveNodeKey dk eui epoch ++ deriveBcastKey dk epoch ++ leBytes 4 epoch ++ [0, 0, 0, 0])
      let body := [0] ++ leBytes 4 h ++ leBytes 2 (s.shortAddr d h) ++ leBytes 1 (keyIndexOf epoch) ++ nd.1 ++ fit 56 wrapped
      (nd.2.aesJob).firmware (.join d h eui b body moved) fun s => s.applyJoin d h eui b body moved

/-- Octets that the MIC of a join request covers: EUI-64, PAN ID and IE bytes 0 to 85 (R446). -/
def joinMicInput (eui pan : Nat) (b : Bytes) : Bytes := leBytes 8 eui ++ leBytes 2 pan ++ b.take 86

/-- The MCC takes a join request (R447) that was heard in a join cell: no other cell takes one (R394). -/
def State.joinRx (s : State) (a : AirFrame) : State :=
  let d := a.domain.val
  match (mpduOf a).filter fun _ => s.cellType a == 4 with
  | none => s
  | some mpdu =>
    match (s.meshDom d).cfg, s.domainTenant d with
    | some c, some t =>
      if !c.joinOpen || s.slotState (32 + d) != 1 then s.count (.domain d .joinClosed)
      else
        match (parseMac mpdu).bind fun f => joinIe f c.panId with
        | none => s.count (.domain d .joinMalformed)
        | some (eui, b) =>
          let j := s.useSlot (16 + t)
          let dk := j.1.useSlot (32 + d)
          -- a request of the same node is still being processed
          if (s.inProcess d).contains eui then s
          else
          let s := dk.1.aesJob
          match j.2, dk.2 with
          | some tjk, some root =>
            let jk := deriveJoinKey tjk.value eui
            if slice b 86 8 != (Config.cmac jk (joinMicInput eui c.panId b)).take 8 then s.count (.domain d .joinAuthFail)
            else if maxJoinQ ≤ (s.meshDom d).joinQ.length + (s.inProcess d).length then s.count (.domain d .joinQueueDrop)
            else if s.mesh.barred.contains (d, eui) then s.refuseJoin d eui 2
            else s.joinNode d eui root.value jk b
          | _, _ => s.count (.domain d .joinAuthFail)
    | _, _ => s.count (.domain d .joinClosed)

/-- JOIN_REQUEST (R446 to R449); while the MCC is reloaded the request is held (R24). -/
def execJoinRequest (a : AirFrame) (s : State) : Host.Outcome State Fault Refusal :=
  .next (if !s.inService then s
    else
      let s := s.takeDecoded a
      if s.mccAway a.domain.val then s.hold true a else s.joinRx a)

/-- JOIN_TIMEOUT (R450): 2 x JOIN_WAIT_S after its response was sent, a record still in JOINING is freed. -/
def execJoinTimeout (handle : Nat) (s : State) : Host.Outcome State Fault Refusal :=
  .next (match s.node handle with
    | none => s
    | some n =>
      match n.joinSent, (s.meshDom n.domain).cfg with
      | some t, some c =>
        if n.state = 1 ∧ t + 2 * c.joinWaitS * 1000000000 ≤ s.domainNs n.domain then
          (s.count (.domain n.domain .joinTimeout)).removeNode handle 2
        else s
      | _, _ => s)

/-! ### BORDER_PACKET and the timers -/

/-- A packet that was on its way to the border function has arrived. -/
def State.tookBorder (s : State) (d : Nat) (packet : Bytes) : State :=
  match s.fwd.border.find? fun x => x.domain == d && x.packet == packet with
  | some x => { s with fwd := { s.fwd with border := s.fwd.border.erase x } }
  | none => s

/-- BORDER_PACKET (R460): a packet that a BORDER next hop has sent across reaches the border function. -/
def execBorderPacket (d : Fin 64) (packet : Bytes) (s : State) : Host.Outcome State Fault Refusal :=
  .next (if !s.inService then s
    else (s.tookBorder d.val packet).borderDown d.val packet)

/-- REASM_TIMEOUT (R464). -/
def execReasmTimeout (handle : Nat) (tag : Nat) (s : State) : Host.Outcome State Fault Refusal :=
  let k := reasmKey handle tag
  .next (match tget none s.mesh.reasm k with
    | none => s
    | some x =>
      if s.time.duration < x.since + 10 * secCounts then s
      else
        let s' := { s with mesh := { s.mesh with reasm := tset none s.mesh.reasm k none } }
        match s.node handle with
        | some n => s'.count (.domain n.domain .reasmDrop)
        | none => s')

/-- NODE_SEND_DEADLINE (R467). -/
def execNodeSendDeadline (fn : Fin 17) (tag : Nat) (s : State) : Host.Outcome State Fault Refusal :=
  .next (match s.mesh.sends.find? fun c => c.fn == fn.val && c.tag == tag with
    | none => s
    | some c =>
      match s.node c.handle with
      | none => s
      | some n => if s.mgcDown c.fn || decide (s.domainNs n.domain < c.deadline) then s else s.endSend c stDeadline 0)

/-- DIST_END (R472): END has come. -/
def execDistEnd (d : Fin 64) (s : State) : Host.Outcome State Fault Refusal :=
  .next (match (s.meshDom d.val).dist with
    | none => s
    | some x => if s.domainNs d.val < x.endNs then s else s.endDist d.val stDeadline 0)

/-- NODE_STORE_SCRUB (R442): a record with an uncorrectable error is removed. -/
def execNodeStoreScrub (handle : Nat) (uncorrectable : Bool) (s : State) : Host.Outcome State Fault Refusal :=
  .next (match s.node handle with
    | none => s
    | some n =>
      if uncorrectable then (s.removeNode handle 1).meshAlarm n.domain 0x0A07 (nodeBody handle n.domain n.eui 0) else s)

end Sys2Proof.Machine
end

