-- ==== Sys2Proof/Machine/Faults.lean ====
section
/-! DEFINITION. Faults of processors, of the data levels and of the world boundary (R21 to R25, R29 to R31, R180, R491,
R695). -/

namespace Sys2Proof.Machine

/-! ### Processors (R21 to R25) -/

/-- A processor has failed: the BSC restarts the device, the PRC in a pair is a package fault, any other is reloaded. -/
def State.processorFails (s : State) (p : Nat) : State :=
  let paired := s.ms.mode == .m4 || s.ms.mode == .m5 || s.ms.mode == .m6
  if s.ms.mode = .m0 ∨ (p ≠ 0 ∧ !s.procs.loaded) then s
  else if p = 0 ∨ (p = 8 ∧ paired) then s.crash
  else if s.procs.reloading.contains p then s
  else { s with procs := { s.procs with reloading := s.procs.reloading ++ [p] } }

def execProcessorFault (p : Fin 9) (s : State) : Host.Outcome State Fault Refusal := .next (s.processorFails p.val)

/-! ### Data levels (R29, R30, R180, R695) -/

/-- A MAC entry learned in a pipe. -/
def learnedIn (pipe : Nat) (e : Nat × Option MacEntry) : Bool :=
  e.1 / 262144 == pipe && match e.2 with | some m => !m.static | none => false

/-- A pipe enters block reset: its learned entries go, and so do the requests that wait in it. -/
def State.resetPipe (s : State) (pipe : Nat) : State :=
  let s := { s with fwd := { s.fwd with
    macs := s.fwd.macs.filter fun e => !learnedIn pipe e
    learnQ := tset [] s.fwd.learnQ pipe [], refresh := tset [] s.fwd.refresh pipe [], placed := tset 0 s.fwd.placed pipe 0,
    owed := tset 0 s.fwd.owed pipe 0 } }
  s.gauge (.pipe pipe .macLearned) 0

/-- Ports of a pipe. -/
def pipePorts (pipe : Nat) : List Nat := (List.range 32).map (32 * pipe + ·)

/-- Ports that use a lane. -/
def State.portsOnLane (s : State) (lane : Nat) : List Nat := (s.cfg.ports.map (·.1)).filter fun p => (s.portLanes p).contains lane

/-- A port enters block reset: link down, queues flushed; a lane recovery on it is abandoned (R29). -/
def State.resetPort (s : State) (p : Nat) : State :=
  let s := (s.takeDown p 8).flushPort p
  { s with ports := { s.ports with laneReset := (s.portLanes p).foldl (fun t l => tset false t l false) s.ports.laneReset } }

/-- The block reset that a fault begins. -/
def State.beginReset (s : State) (level number : Nat) : State :=
  match level with
  | 1 =>
    let s := s.countIf (tget false s.ports.laneLocked number) (.lane number .lockLoss)
    let s := { s with ports := { s.ports with laneReset := tset false s.ports.laneReset number true, laneLocked := tset false s.ports.laneLocked number false } }
    (s.portsOnLane number).foldl (fun s p => s.takeDownFor p 2 2) s
  | 2 => (s.resetPort number).modPort number fun x => { x with inReset := true }
  | _ =>
    let s := (pipePorts number).foldl (fun s p => (s.resetPort p).modPort p fun x => { x with inReset := false }) s
    ({ s with ports := { s.ports with pipeReset := tset false s.ports.pipeReset number true } }).resetPipe number

/-- How many there are of a data level. -/
def levelCount : Nat → Nat
  | 1 => 512 | 2 => 256 | 3 => 8 | _ => 0

/-- The core die has failed: its action governs, and the recoveries of lanes, ports and pipes are abandoned (R29). -/
def State.abandonResets (s : State) : State :=
  { s with ports := { s.ports with st := listTab {} (s.ports.st.map fun e => (e.1, { e.2 with inReset := false })), laneReset := [], pipeReset := [] } }

/-- The device is in M7 SAFE because the core die failed: faults of the lower levels change nothing (R29). -/
def State.coreFailed (s : State) : Bool := s.ms.mode == .m7 && s.ms.safeCause == 2

/-- A reset or loss that stands at the object, or at a higher level that holds it (R29). -/
def State.levelBusy (s : State) (level number : Nat) : Bool :=
  let pipe (k : Nat) : Bool := tget false s.ports.pipeReset k || tget false s.ports.pipeOut k
  let port (p : Nat) : Bool := (s.portSt p).inReset || (s.portSt p).outOfService || pipe (p / 32)
  match level with
  | 1 => tget false s.ports.laneReset number || tget false s.ports.laneOut number || (s.portsOnLane number).any port || pipe (number / 64)
  | 2 => port number
  | _ => pipe number

/-- DATA_LEVEL_FAULT: levels 1 to 3. -/
def execDataLevelFault (level : Fin 4) (number : Nat) (cause : Fin 7) (s : State) : Host.Outcome State Fault Refusal :=
  .next (if s.ms.mode = .m0 ∨ s.coreFailed ∨ levelCount level.val ≤ number ∨ s.levelBusy level.val number then s
    else ((s.levelFault level.val 1 number cause.val).beginReset level.val number).switchRings)

/-- A block reset is in progress. -/
def State.inBlockReset (s : State) (level number : Nat) : Bool :=
  match level with
  | 1 => tget false s.ports.laneReset number
  | 2 => (s.portSt number).inReset
  | 3 => tget false s.ports.pipeReset number
  | _ => false

/-- The block reset is over: `out` when the object stays out of service. -/
def State.endReset (s : State) (level number : Nat) (out : Bool) : State :=
  match level with
  | 1 => { s with ports := { s.ports with laneReset := tset false s.ports.laneReset number false, laneOut := tset false s.ports.laneOut number out } }
  | 2 => s.modPort number fun x => { x with inReset := false, outOfService := out }
  | _ => { s with ports := { s.ports with pipeReset := tset false s.ports.pipeReset number false, pipeOut := tset false s.ports.pipeOut number out } }

/-- BLOCK_RESET_DONE: the object returns to service, whose links come up as LINK_UP says (R160), or it stays out until the next M1 entry; the
CAUSE that goes with that is not stated beyond not being 0 (log entry 3). -/
def execBlockResetDone (level : Fin 4) (number : Nat) (ok : Bool) (s : State) : Host.Outcome State Fault Refusal :=
  let l := level.val
  .next (if !s.inBlockReset l number then s
    else if ok then
      ((s.endReset l number false).levelFault l 2 number 0).switchRings
    else
      let z := s.draw
      ((z.2.endReset l number true).levelFault l 3 number (1 + z.1 % 6)).switchRings)

/-- CORE_DIE_FAULT: the core die or the Reservoir has failed (R30, R41, R42). In M1 BOOT it leads to T10, at once where the chain
has ended and waits for ACTIVE_IN; in M7 SAFE, it is reported (R695). -/
def execCoreDieFault (reservoir : Bool) (cause : Fin 7) (s : State) : Host.Outcome State Fault Refusal :=
  let c := if reservoir then 7 else 2
  let tell (s : State) : State := if reservoir then s else s.abandonResets.levelFault 4 4 0 cause.val
  .next (match s.ms.mode with
    | .m0 => s
    | .m7 => tell s
    | .m1 =>
      let s := if s.procs.loaded || reservoir then tell s
        else { s.abandonResets with ms := { s.ms with dieFaults := s.ms.dieFaults ++ [cause.val] } }
      let s := { s with ms := { s.ms with bootSafe := if s.ms.bootSafe = 2 then 2 else c } }
      if s.ms.bootStep = 4 then s.changeMode .m7 10 s.ms.bootSafe else s
    | _ => (tell s).enterSafe c)

/-- The entry that governs an address: of those whose span contains it, the one of lowest index (R489). -/
def WorldMaps.governs (m : WorldMaps) (addr : Nat) : Option (Nat × Region) :=
  m.regions.zipIdx.findSome? fun e =>
    if e.1.base ≤ addr ∧ addr < e.1.base + 4096 * e.1.pages then some (e.2, e.1) else none

/-- The entry refuses an access: master 0 alone is secure, the mask lacks the master, or a locked map is written (R489, R490). -/
def WorldMaps.denies (m : WorldMaps) (r : Region) (master : Nat) (write : Bool) : Bool :=
  (r.area.isSome && master != 0) || !(if write then r.writeMask else r.readMask).testBit master
    || (write && m.locked && (r.area == some .regionMap || r.area == some .ownershipMap))

/-- The map refuses the access, which entry `region` governs, or no entry (R489). -/
def WorldMaps.refuses (m : WorldMaps) (region master : Nat) (write : Bool) (addr : Nat) : Bool :=
  match m.governs addr with
  | none => true
  | some (i, r) => i == region && m.denies r master write

/-- WORLD_VIOLATION (R491): an access that the region map refuses is counted and reported, and the processor that made it has
failed. The access has no effect: what it would have read or written stays as it is, and the transfer of a hardware master, whose
own row then never comes, is dropped (DEDUCED, log entry 128). An access that the map allows is no violation. -/
def execWorldViolation (region : Fin 256) (master : Nat) (write : Bool) (addr : BitVec 64) (s : State) :
    Host.Outcome State Fault Refusal :=
  let m := master % 16
  .next (if s.ms.mode = .m0 ∨ !s.ms.maps.refuses region.val m write addr.toNat then s
    else
      let s := (s.count (.worldViolations m)).securityEntry 0x0403 0 0 0 addr.toNat (m + 16 * b2n write)
      if m < 9 then s.processorFails m else s)

end Sys2Proof.Machine
end

