-- ==== Sys2Proof/Machine/KeyCmds.lean ====
section
/-! DEFINITION. The KEY commands (R516 to R526), key-store commits (R511), and the commits of the other MRAM areas
(R510, R512, R513). -/

namespace Sys2Proof.Machine

/-- Most slot changes staged at once (R511). -/
def maxKeyStaged : Nat := 256

def State.keyStagingFull (s : State) : Bool := decide (maxKeyStaged ≤ s.nv.keys.staged.length)

/-- Stage a change of the key store; the response follows its commit. -/
def State.stageKey (s : State) (r : Req) (op : KeyOp) : State × Reply :=
  let st : KeyStage := { op := op, reply := some r }
  ({ s with nv := { s.nv with keys := { s.nv.keys with staged := s.nv.keys.staged ++ [st] } } }, { okReply with deferred := true })

/-- One staged change applied to the key store (R497, R518 to R522). -/
def State.applyKey (s : State) : KeyOp → State
  | .root t v =>
    s.putKey t { kind := 1, owner := t, gen := (s.keySlot t).gen + 1, value := v }
  | .domainKey d t =>
    let x := s.keySlot (32 + d)
    let p := s.keySlot t
    if s.slotState t = 1 then
      s.putKey (32 + d) { kind := 2, owner := t, parent := t, gen := x.gen + 1, parentGen := p.gen,
                          value := deriveDomainKey p.value d (x.gen + 1) }
    else s
  | .import_ n k o v =>
    s.putKey n { kind := k, owner := o, parent := o, gen := (s.keySlot n).gen + 1, parentGen := (s.keySlot o).gen, value := v }
  | .destroy n =>
    let x := s.keySlot n
    s.setSlot n { x with kind := 0, unusable := false, value := [], wrapped := [], gen := x.gen + 1, tagOk := true }
  | .assign n o =>
    let x := s.keySlot n
    s.setSlot n { x with owner := o, gen := x.gen + 1 }
  | .mark n => s.setSlot n { s.keySlot n with unusable := true }

/-- The key store with every staged change applied: what a KEY command that changes a slot is judged on (R511; log entry 57). -/
def State.keyView (s : State) : State := s.nv.keys.staged.foldl (fun s e => s.applyKey e.op) s

/-- The owner of a slot by R496: 0-15 a tenant, 16 none. -/
def State.slotOwner (s : State) (n : Nat) : Nat :=
  if n < 16 then n else if n < 32 then n - 16 else if n < 96 then (s.domainTenant (n - 32)).getD 16 else (s.keySlot n).owner

/-- A VF may read a slot of its own tenant, and write it unless it is the Tenant Root (R516). -/
def State.readsSlot (s : State) (fn n : Nat) : Bool := fn == 0 || s.slotOwner n + 1 == fn
def State.writesSlot (s : State) (fn n : Nat) : Bool := fn == 0 || (s.slotOwner n + 1 == fn && decide (16 ≤ n))

/-- The failures that a command meets at the staging. -/
def State.stagingChk (s : State) : Chk := failIf s.keyStagingFull stBusy 0x90

/-! ### KEY_TENANT_ROOT_CREATE -/

/-- The value of a Tenant Root: drawn here; in a pair, drawn by the active at the check of the command and carried to the
standby by KEY (R502). -/
def State.rootValue (s : State) (t : Nat) : State × Bytes :=
  match tget none s.pair.rootKeys t with
  | some v => ({ s with pair := { s.pair with rootKeys := tset none s.pair.rootKeys t none } }, v)
  | none => let r := s.drawOctets 32; (r.2, r.1)

def keyTenantRootCreateSpec : AciSpec where
  op := 0x0901
  lenOk := lenIs 1
  modes := modesRun
  carried := true
  rsv := fun _ => [(0, 0xF0)]
  avail := fun _ s => s.stagingChk
  effect := fun r s =>
    let t := r.fb 16 0 4
    let v := s.rootValue t
    v.1.stageKey r (.root t v.2)

def execKeyTenantRootCreate (r : Aci) (s : State) : Host.Outcome State Fault Refusal :=
  .next (keyTenantRootCreateSpec.exec r s)

/-! ### KEY_DOMAIN_KEY_CREATE -/

def keyDomainKeyCreateSpec : AciSpec where
  op := 0x0902
  lenOk := lenIs 1
  pf0Only := false
  modes := modesRun
  carried := true
  rsv := fun _ => [(0, 0xC0)]
  owned := fun r s => s.ownsDomain r.fn (r.fb 16 0 6)
  avail := fun r s =>
    let d := r.fb 16 0 6
    let v := s.keyView
    let root := match s.domainTenant d with | some t => v.slotState t == 1 | none => false
    firstOf [badIf (!root || v.slotState (32 + d) == 3) 0x91, failIf (!(s.recordsOf d).isEmpty) stBusy 0x02, s.stagingChk]
  effect := fun r s =>
    let d := r.fb 16 0 6
    s.stageKey r (.domainKey d ((s.domainTenant d).getD 16))

def execKeyDomainKeyCreate (r : Aci) (s : State) : Host.Outcome State Fault Refusal :=
  .next (keyDomainKeyCreateSpec.exec r s)

/-! ### KEY_IMPORT -/

/-- SLOT of the buffer of R520, and its KIND. -/
def importSlot (r : Req) : Nat := r.b 0 2 % 4096
def importKind (r : Req) : Nat := r.bb 2 0 4

/-- The tenant join key that an import carries, or the status of its failure with its results. -/
def State.importJoin (s : State) (r : Req) : State × (Reply ⊕ Bytes) :=
  let t := importSlot r - 16
  let root := s.useSlot t
  match root.2 with
  | none => (root.1, .inl { status := stBadParam, sub := 0x91 })
  | some k =>
    let z := x25519Job (importScalar k.value t) (slice r.pl 8 32)
    let s := root.1.eccJob z.1
    if z.1 ≠ 0 then (s, .inl { status := stBadParam, sub := 0x90, results := leBytes 1 z.1 })
    else
      let key := kdf z.2 "IMPORT" (leBytes 2 (importSlot r) ++ leBytes 1 (importKind r)) 256
      let s := s.aesJob
      match Config.gcmOpen key (slice r.pl 40 12) (slice r.pl 0 8) (slice r.pl 68 16 ++ slice r.pl 52 16) with
      | none => (s, .inl { status := stIntegrity, sub := 0x90 })
      | some v => (s, .inr (fit 16 v))

def keyImportSpec : AciSpec where
  op := 0x0903
  lenOk := fun n b =>
    let k := byteAt b 2 % 16
    if k = 4 then n == 84 else if k = 5 then n == 104 else n == 84 || n == 104
  pf0Only := false
  modes := modesRun
  carried := true
  rsv := fun _ => [(1, 0xF0), (2, 0xF0), (3, 0xFF), (4, 0xFF), (5, 0xFF), (6, 0xFF), (7, 0xFF)]
  par := fun r _ =>
    let n := importSlot r
    let k := importKind r
    firstOf [badIf (k != 4 && k != 5) 0x04, badIf (if k = 4 then decide (n < 16) || decide (32 ≤ n) else decide (n < 96)) 0x92]
  owned := fun r s => s.keyView.writesSlot r.fn (importSlot r)
  avail := fun r s =>
    let n := importSlot r
    let v := s.keyView
    let o := v.slotOwner n
    let st := v.slotState n
    let parent := decide (o < 16) && v.slotState o == 1
    firstOf [badIf (!parent || (if importKind r = 4 then st == 3 else st != 0)) 0x91, s.stagingChk]
  effect := fun r s =>
    let n := importSlot r
    if importKind r = 4 then
      let v := s.importJoin r
      match v.2 with
      | .inl e => (v.1, e)
      | .inr key => v.1.stageKey r (.import_ n 4 (n - 16) key)
    else
      let reason := p384.pointReason (slice r.pl 8 96)
      let s := s.eccJob reason
      if reason ≠ 0 then (s, { status := stBadParam, sub := 0x90, results := leBytes 1 reason })
      else s.stageKey r (.import_ n 5 (s.keyView.slotOwner n) (slice r.pl 8 96))

def execKeyImport (r : Aci) (s : State) : Host.Outcome State Fault Refusal := .next (keyImportSpec.exec r s)

/-! ### KEY_DESTROY, KEY_SLOT_ASSIGN -/

/-- SLOT at bytes 16 and 17. -/
def slotOf (r : Req) : Nat := r.f 16 2 % 4096

def keyDestroySpec : AciSpec where
  op := 0x0904
  lenOk := lenIs 2
  pf0Only := false
  modes := modesSet
  carried := true
  rsv := fun _ => [(1, 0xF0)]
  owned := fun r s => s.keyView.writesSlot r.fn (slotOf r)
  avail := fun r s => if s.keyView.slotState (slotOf r) = 0 then none else s.stagingChk
  modeOk := fun r s => s.ms.mode != .m7 || r.fn == 0
  effect := fun r s => if s.keyView.slotState (slotOf r) = 0 then (s, okReply) else s.stageKey r (.destroy (slotOf r))

def execKeyDestroy (r : Aci) (s : State) : Host.Outcome State Fault Refusal := .next (keyDestroySpec.exec r s)

def keySlotAssignSpec : AciSpec where
  op := 0x0905
  lenOk := lenIs 3
  modes := modesRun
  carried := true
  rsv := fun _ => [(1, 0xF0), (2, 0xE0)]
  par := fun r _ => firstOf [badIf (decide (slotOf r < 96)) 0x92, badIf (decide (16 < r.fb 18 0 5)) 0x04]
  avail := fun r s => firstOf [failIf (s.keyView.slotState (slotOf r) != 0) stBusy 0x02, s.stagingChk]
  effect := fun r s => s.stageKey r (.assign (slotOf r) (r.fb 18 0 5))

def execKeySlotAssign (r : Aci) (s : State) : Host.Outcome State Fault Refusal := .next (keySlotAssignSpec.exec r s)

/-! ### Reads -/

/-- KEY_SLOT_STATUS (R523). Bits above SLOT, which no rule names, are taken as reserved (DESIGN CHOICE, log entry 129). -/
def keySlotStatusSpec : AciSpec where
  op := 0x0906
  lenOk := lenIs 2
  pf0Only := false
  modes := modesRead
  rsv := fun _ => [(1, 0xF0)]
  owned := fun r s => s.readsSlot r.fn (slotOf r)
  effect := fun r s =>
    let n := slotOf r
    let x := s.keySlot n
    (s, okWith (leBytes 1 (s.slotState n) ++ leBytes 1 x.kind ++ leBytes 1 (s.slotOwner n) ++ [0] ++ leBytes 2 x.parent ++ [0, 0] ++
      leBytes 4 x.gen ++ leBytes 4 x.parentGen ++ List.replicate 8 0))

def execKeySlotStatus (r : Aci) (s : State) : Host.Outcome State Fault Refusal := .next (keySlotStatusSpec.exec r s)

/-- The public value of a slot that is VALID. -/
def State.publicOf (s : State) (n : Nat) (k : KeySlot) : State × Bytes :=
  if n < 16 then (s.eccJob 0, fit 32 (Config.x25519 (importScalar k.value n) ([9] ++ List.replicate 31 0)))
  else if n < 96 then (s.eccJob 0, fit 64 (Config.p256Public (beBytes 32 (joinScalar k.value))))
  else (s, fit 96 k.value)

/-- KEY_READ_PUBLIC (R524). Bits above SLOT, which no rule names, are taken as reserved (DESIGN CHOICE, log entry 129). -/
def keyReadPublicSpec : AciSpec where
  op := 0x0907
  lenOk := lenIs 2
  buffer := true
  inlinePl := true
  pf0Only := false
  modes := modesRead
  rsv := fun _ => [(1, 0xF0)]
  owned := fun r s => s.readsSlot r.fn (slotOf r)
  avail := fun r s =>
    let n := slotOf r
    firstOf [failIf (decide (16 ≤ n) && decide (n < 32)) stDenied 0x03, badIf (s.slotState n != 1) 0x91]
  effect := fun r s =>
    let u := s.useSlot (slotOf r)
    match u.2 with
    | none => (u.1, { status := stBadParam, sub := 0x91 })
    | some k =>
      let p := u.1.publicOf (slotOf r) k
      (p.1, okWith p.2)

def execKeyReadPublic (r : Aci) (s : State) : Host.Outcome State Fault Refusal := .next (keyReadPublicSpec.exec r s)

def keyCacheSharesSpec : AciSpec where
  op := 0x0908
  lenOk := lenIs 32
  modes := modesRun
  carried := true
  par := fun r _ =>
    let l := (List.range 16).map fun t => r.f (16 + 2 * t) 2
    firstOf [badIf (l.any fun n => decide (16384 < n)) 0x04, badIf (decide (16384 < sumNat l)) 0x93]
  effect := fun r s =>
    let l := (List.range 16).map fun t => r.f (16 + 2 * t) 2
    let cache := (List.range 16).foldl (fun c t => trimCache t (l.getD t 0) c) s.mesh.cache
    ({ s with mesh := { s.mesh with cacheShares := l, cache := cache } }, okReply)

def execKeyCacheShares (r : Aci) (s : State) : Host.Outcome State Fault Refusal := .next (keyCacheSharesSpec.exec r s)

/-- The 16 octets of an entry of the region map (R489). -/
def Region.bytes (r : Region) : Bytes :=
  leBytes 6 r.base ++ leBytes 4 r.pages ++ leBytes 1 (b2n r.area.isSome) ++ [0] ++ leBytes 2 r.readMask ++ leBytes 2 r.writeMask

/-- What KEY_MAP_READ writes (R526): 256 entries, and SECURE and LOCKED of the blocks; before the maps are written, zeros. -/
def WorldMaps.bytes (m : WorldMaps) : Bytes :=
  fit 4096 (m.regions.flatMap Region.bytes) ++ fit 256 (m.blocks.flatMap fun b => leBytes 4 (b2n b + 2 * b2n m.locked))

def keyMapReadSpec : AciSpec where
  op := 0x0909
  lenOk := lenIs 0
  buffer := true
  modes := modesRead
  effect := fun _ s => (s, okWith s.ms.maps.bytes)

def execKeyMapRead (r : Aci) (s : State) : Host.Outcome State Fault Refusal := .next (keyMapReadSpec.exec r s)

/-! ### Commits -/

/-- KEY_STORE_COMMIT (R511): at least 10 s after the last commit began, every staged change is applied in one commit, and
the responses follow. -/
def execKeyStoreCommit (s : State) : Host.Outcome State Fault Refusal :=
  let k := s.nv.keys
  let early := match k.commitAt with | some t => decide (s.time.duration < t + 10 * secCounts) | none => false
  .next (if k.staged.isEmpty || early then s
    else
      let s := { s with nv := { s.nv with keys := { k with staged := [], seq := k.seq + 1, commitAt := some s.time.duration } } }
      let s := s.count (.device .keyCommits)
      let s := k.staged.foldl (fun s e => s.settleKeys (s.applyKey e.op)) s
      (k.staged.filterMap (·.reply)).foldl (fun s r => s.answerLater r okReply) s)

/-- In a pair the partner learns of the lease records that are in force here (R554). -/
def State.tellLeases (s : State) (l : List (Nat × Lease)) : State :=
  if s.paired then
    s.pairSend (.item (s.epoch + 16) (.effect (.leases (l.map fun e => (e.1, e.2.epoch, e.2.leaseEnd)))))
  else s

/-- With the response of PORT_SET_CUT_THROUGH its change acts (R173). -/
def State.cutAnswered (s : State) (r : Req) : State :=
  if r.opcode = 0x0202 then
    { s with ports := { s.ports with cutWait := s.ports.cutWait.eraseP fun e => e.1 == 256 * r.f 16 1 + r.f 17 1 } }
  else s

/-- The staged commit of an area other than the key store is in force. -/
def State.commitOne (s : State) : Commit → State
  | .journal c reply =>
    let s := { s with nv := { s.nv with journal := some c, journalUsed := s.nv.journalUsed + 1 } }
    let s := s.count (.device .journalRecords)
    match reply with
    | some p => (s.answerLater p.1 p.2).cutAnswered p.1
    | none => s
  | .lease l => (l.foldl (fun s e => s.leaseCommitted e.1 e.2) s).tellLeases l

/-- MRAM_COMMIT_DONE (R510, R512, R513): the oldest staged commit. A journal record waits while the journal is full. -/
def execMramCommitDone (s : State) : Host.Outcome State Fault Refusal :=
  .next (match s.nv.staged with
    | [] => s
    | c :: rest =>
      let full := match c with | .journal _ _ => decide (journalSize ≤ s.nv.journalUsed) | .lease _ => false
      if full then s else { s with nv := { s.nv with staged := rest } }.commitOne c)

/-- JOURNAL_COMPACTION (R512): the full journal is folded into a blob and starts afresh, unless an older blob is kept. -/
def execJournalCompaction (s : State) : Host.Outcome State Fault Refusal :=
  .next (if s.nv.journalUsed < journalSize || s.nv.oldBlob.isSome then s
    else
      let c := s.nv.journal.getD s.cfg
      let b : Blob := match s.nv.blob with
        | some b => { b with seq := b.seq + 1, cfg := c }
        | none => { seq := 1, version := s.ms.setVersion, cfg := c }
      { s with nv := { s.nv with blob := some b, journal := none, journalUsed := 0 } })

end Sys2Proof.Machine
end

