-- ==== Sys2Proof/Machine/NodeCmds.lean ====
section
/-! DEFINITION. The NODE commands (R474 to R484), with the deadline walk and the command entries of NODE_SEND (R465 to
R468). -/

namespace Sys2Proof.Machine

/-! ### NODE_DOMAIN_ASSIGN, NODE_DOMAIN_CONFIG, NODE_DOMAIN_STATUS -/

/-- A domain has records or a loaded image (R476). -/
def State.domainInUse (s : State) (d : Nat) : Bool :=
  let x := s.domain d
  !(s.recordsOf d).isEmpty || x.bankA != .empty || x.bankB != .empty

def nodeDomainAssignSpec : AciSpec where
  op := 0x0801
  lenOk := lenIs 8
  modes := modesSet
  carried := true
  rsv := fun _ => [(0, 0x80), (1, 0xF0), (6, 0xFE), (7, 0xFF)]
  par := fun r _ =>
    badIf (!r.fl 16 6 && (r.f 18 2 == 0 || decide (65533 < r.f 18 2) || decide (131072 < r.f 20 4 % 2 ^ 17 + r.f 18 2))) 0x70
  owned := fun r s => s.ownsDomain r.fn (r.fb 16 0 6)
  avail := fun r s =>
    let d := r.fb 16 0 6
    let n := r.f 18 2
    let b := r.f 20 4 % 2 ^ 17
    let clash := s.cfg.domainOwner.any fun e => e.1 != d && match e.2 with
      | some o => decide (b < o.base + o.max) && decide (o.base < b + n)
      | none => false
    firstOf [
      badIf (!r.fl 16 6 && clash) 0x70,
      failIf (s.domainInUse d) stBusy 0x02]
  effect := fun r s =>
    let d := r.fb 16 0 6
    let o : Option DomainOwner :=
      if r.fl 16 6 then none else some { tenant := r.fb 17 0 4, base := r.f 20 4 % 2 ^ 17, max := r.f 18 2 }
    let s' := if o.map (·.tenant) = s.domainTenant d then s else s.modMesh d fun m => { m with cfg := none, bcast := [], held := [] }
    (s'.store fun c => { c with domainOwner := tset none c.domainOwner d o }, okReply)

def execNodeDomainAssign (r : Aci) (s : State) : Host.Outcome State Fault Refusal := .next (nodeDomainAssignSpec.exec r s)

/-- The configuration that the payload of R477 holds. -/
def State.domainCfgOf (s : State) (r : Req) : DomainCfg :=
  { joinOpen := r.fl 16 6, retryLimit := r.fb 17 0 3, panId := r.f 18 2, deviceEui := r.f 20 8,
    pfx := beNat (slice r.pl 12 8), mtu := r.f 36 2, fragPayload := r.f 38 2,
    eventWell := s.wellAt r.fn (r.f 40 2 % 1024), linkWell := s.wellAt r.fn (r.f 42 2 % 1024),
    joinSpreadS := r.f 44 2, joinWaitS := r.f 46 2, dlqDefault := r.f 48 2 }

def nodeDomainConfigSpec : AciSpec where
  op := 0x0802
  lenOk := lenIs 48
  pf0Only := false
  modes := modesRun
  carried := true
  rsv := fun _ => [(0, 0x80), (1, 0xF8), (25, 0xFC), (27, 0xFC)] ++ (List.range 14).map fun i => (34 + i, 0xFF)
  par := fun r s =>
    let c := s.domainCfgOf r
    badIf (decide (0xFFFD < c.panId) || decide (c.mtu < 1280) || decide (2047 < c.mtu) || decide (c.fragPayload < 48) ||
      decide (2000 < c.fragPayload) || decide (3600 < c.joinSpreadS) || c.joinWaitS == 0 || decide (600 < c.joinWaitS) ||
      c.dlqDefault == 0 || decide (1024 < c.dlqDefault)) 0x04
  owned := fun r s => s.ownsDomain r.fn (r.fb 16 0 6) &&
    (r.fn == 0 || ((s.domainCfgOf r).eventWell.isSome && (s.domainCfgOf r).linkWell.isSome))
  avail := fun r s =>
    let d := r.fb 16 0 6
    let n := s.domainCfgOf r
    match (s.meshDom d).cfg with
    | some c => failIf (!(s.recordsOf d).isEmpty && (c.panId != n.panId || c.pfx != n.pfx || c.deviceEui != n.deviceEui)) stBusy 0x02
    | none => none
  effect := fun r s =>
    let d := r.fb 16 0 6
    let n := s.domainCfgOf r
    -- records restored after a clean entry take DLQ_DEFAULT with the first configuration (R457)
    let s := if (s.meshDom d).cfg.isSome then s
      else (s.recordsOf d).foldl (fun s h => s.engineWrite h fun x => { x with dlqLimit := n.dlqDefault }) s
    (s.modMesh d fun m => { m with cfg := some n }, okReply)

def execNodeDomainConfig (r : Aci) (s : State) : Host.Outcome State Fault Refusal := .next (nodeDomainConfigSpec.exec r s)

def nodeDomainStatusSpec : AciSpec where
  op := 0x0803
  lenOk := lenIs 1
  pf0Only := false
  modes := modesRead
  rsv := fun _ => [(0, 0xC0)]
  owned := fun r s => s.ownsDomain r.fn (r.fb 16 0 6)
  effect := fun r s =>
    let d := r.fb 16 0 6
    let m := s.meshDom d
    let joinOpen := match m.cfg with | some c => c.joinOpen | none => false
    let joined := ((s.recordsOf d).filter s.isJoined).length
    (s, okWith (leBytes 1 (b2n m.cfg.isSome + 2 * b2n joinOpen + 4 * b2n m.dist.isSome) ++ leBytes 1 (s.keyIndex d) ++
      leBytes 2 m.distIds ++ leBytes 4 (s.epochOfDomain d) ++ leBytes 4 joined ++ leBytes 4 m.outCounter ++
      leBytes 4 (s.lease d).leaseEnd ++ [0, 0, 0, 0]))

def execNodeDomainStatus (r : Aci) (s : State) : Host.Outcome State Fault Refusal := .next (nodeDomainStatusSpec.exec r s)

/-! ### NODE_READ, NODE_WRITE, NODE_REMOVE -/

/-- HANDLE at the start of a buffer. -/
def handleB (r : Req) : Nat := r.b 0 4 % 2 ^ 17

/-- The record that the parameters of R479 name. -/
def State.readTarget (s : State) (r : Req) : Option Nat :=
  if r.bl 4 0 then s.findEui (r.bb 5 0 6) (r.b 8 8)
  else if (s.node (handleB r)).isSome then some (handleB r) else none

/-- NODE_READ (R443, R479). Whether 16 tries of the sequence lock all meet an engine's write is left open: a free value says so (log entry
127). -/
def nodeReadSpec : AciSpec where
  op := 0x0804
  lenOk := lenIs 16
  buffer := true
  pf0Only := false
  modes := modesRead
  rsv := fun _ => [(2, 0xFE), (3, 0xFF), (4, 0xFE), (5, 0xC0), (6, 0xFF), (7, 0xFF)]
  par := fun r _ => badIf (r.bl 4 0 && handleB r != 0) 0x04
  owned := fun r s => if r.bl 4 0 then s.ownsDomain r.fn (r.bb 5 0 6) else s.ownsHandle r.fn (handleB r)
  avail := fun r s => badIf (s.readTarget r).isNone 0x44
  effect := fun r s =>
    match s.readTarget r with
    | none => (s, { status := stBadParam, sub := 0x44 })
    | some h =>
      match s.node h with
      | none => (s, { status := stBadParam, sub := 0x44 })
      | some n =>
        let z := s.draw
        if Config.snapshotFails s.draws then (z.2, { status := stBusy, sub := 0x02 })
        else (z.2, okWith (n.bytes (s.shortAddr n.domain h) (s.domainNs n.domain / 60000000000) (z.1 % 2 ^ 32) ++
          leBytes 4 n.seqNo ++ leBytes 4 h))

def execNodeRead (r : Aci) (s : State) : Host.Outcome State Fault Refusal := .next (nodeReadSpec.exec r s)

/-- Link entry `i` of a record image at byte 8 of the buffer. -/
def linkOf (r : Req) (minute i : Nat) : Link :=
  let o := 64 + 8 * i
  { site := r.b o 1, rssi := r.bs (o + 1) 1, snr := r.bs (o + 2) 2, frames := r.b (o + 4) 2, reliability := r.b (o + 6) 1,
    minute := minute }

/-- The fields that MASK selects are written (R480). -/
def NodeRec.hostWrite (n : NodeRec) (r : Req) (minute : Nat) : NodeRec :=
  let m := r.b 4 4
  let n := if bit m 0 then { n with rxCounter := r.b 20 4 } else n
  let n := if bit m 1 then { n with parent := r.b 28 4 % 2 ^ 17, parentValid := bit (r.b 28 4) 17 } else n
  let n := if bit m 2 then
    { n with cslPeriodUs := r.b 52 4, cslAnchorNs := r.b 56 8, cslKnown := n.cslKnown || r.b 52 4 != 0 } else n
  let n := if bit m 3 then { n with links := (List.range 4).map (linkOf r minute) } else n
  let n := if bit m 4 then { n with dlqLimit := r.b 102 2 } else n
  let n := if bit m 5 then { n with hostTag := slice r.pl 168 32 } else n
  { n with seqNo := n.seqNo + 2 }

/-- Reserved bits of a record image (R11, R440). -/
def recordRsv : List (Nat × Nat) :=
  [(8, 0xC0), (9, 0xE0), (18, 0xFF), (19, 0xFF), (22, 0xFC), (23, 0xFF), (30, 0xFF), (31, 0xFF), (63, 0xFF), (71, 0xFF), (79, 0xFF),
    (87, 0xFF), (145, 0xFF), (150, 0xFE)] ++ ((List.range 4).flatMap fun c => [(98 + 8 * c, 0xFC), (101 + 8 * c, 0xFF), (102 + 8 * c, 0xFF),
    (103 + 8 * c, 0xFF)]) ++ ((List.range 9).map fun i => (151 + i, 0xFF)) ++ (List.range 64).map fun i => (192 + i, 0xFF)

def nodeWriteSpec : AciSpec where
  op := 0x0805
  lenOk := lenIs 264
  buffer := true
  pf0Only := false
  modes := modesRun
  carried := true
  rsv := fun _ => [(2, 0xFE), (3, 0xFF), (4, 0xC0), (5, 0xFF), (6, 0xFF), (7, 0xFF)] ++ recordRsv.map fun x => (8 + x.1, x.2)
  par := fun r _ => badIf (bit (r.b 4 4) 4 && (r.b 102 2 == 0 || decide (1024 < r.b 102 2))) 0x04
  owned := fun r s => s.ownsHandle r.fn (handleB r)
  avail := fun r s => badIf (s.node (handleB r)).isNone 0x44
  denied := fun r s =>
    match s.node (handleB r) with
    | some n => failIf (r.b 4 4 % 16 != 0 && (s.domain n.domain).active.isSome) stDenied 0x70
    | none => none
  effect := fun r s =>
    if r.b 4 4 = 0 then (s, okReply)
    else
      let minute := match s.node (handleB r) with | some n => s.domainNs n.domain / 60000000000 | none => 0
      (s.modNode (handleB r) fun n => n.hostWrite r minute, okReply)

def execNodeWrite (r : Aci) (s : State) : Host.Outcome State Fault Refusal := .next (nodeWriteSpec.exec r s)

/-- Entries of the bar list (R481). -/
def barMax : Nat := 4096

/-- The domain and EUI-64 that NODE_REMOVE names: by EUI-64, or those of the record of HANDLE. -/
def State.removeKey (s : State) (r : Req) : Option (Nat × Nat) :=
  if r.fl 20 1 || r.fl 20 2 then some (r.fb 21 0 6, r.f 24 8)
  else (s.node (r.f 16 4 % 2 ^ 17)).map fun n => (n.domain, n.eui)

/-- The handle that it names. -/
def State.removeHandle (s : State) (r : Req) : Option Nat := (s.removeKey r).bind fun k => s.findEui k.1 k.2

def nodeRemoveSpec : AciSpec where
  op := 0x0806
  lenOk := lenIs 16
  pf0Only := false
  modes := modesRun
  carried := true
  rsv := fun _ => [(2, 0xFE), (3, 0xFF), (4, 0xF8), (5, 0xC0), (6, 0xFF), (7, 0xFF)]
  par := fun r _ => badIf (r.fl 20 1 && !r.fl 20 2) 0x04
  owned := fun r s => if r.fl 20 2 then s.ownsDomain r.fn (r.fb 21 0 6) else s.ownsHandle r.fn (r.f 16 4 % 2 ^ 17)
  avail := fun r s => firstOf [
    badIf (!r.fl 20 1 && !(r.fl 20 0 && r.fl 20 2) && (s.removeHandle r).isNone) 0x44,
    failIf (!r.fl 20 1 && r.fl 20 0 && decide (barMax ≤ s.mesh.barred.length) &&
      match s.removeKey r with | some k => !s.mesh.barred.contains k | none => false) stNoResource 0x71]
  effect := fun r s =>
    match s.removeKey r with
    | none => (s, { status := stBadParam, sub := 0x44 })
    | some k =>
      let bar (l : List (Nat × Nat)) : List (Nat × Nat) :=
        if r.fl 20 1 then l.filter (· != k) else if r.fl 20 0 && !l.contains k then l ++ [k] else l
      let s' := { s with mesh := { s.mesh with barred := bar s.mesh.barred } }
      match if r.fl 20 1 then none else s.removeHandle r with
      | some h => (s'.removeNode h 1, okReply)
      | none => (s', okReply)

def execNodeRemove (r : Aci) (s : State) : Host.Outcome State Fault Refusal := .next (nodeRemoveSpec.exec r s)

/-! ### NODE_SEND -/

/-- Insert by the first component, after equal ones. -/
def insertPair (x : Nat × Nat) : List (Nat × Nat) → List (Nat × Nat)
  | [] => [x]
  | y :: l => if x.1 < y.1 then x :: y :: l else y :: insertPair x l

/-- The opportunities of one slot that serve the queue of node `h` (R466), in order: instant and end of the window. -/
def NodeRec.opportunities (n : NodeRec) (h : Nat) (i : Image) (slot : Nat) : List (Nat × Nat) :=
  if slot < i.asnOrigin then []
  else match i.slots[slot % 2 ^ i.k]? with
    | none => []
    | some x =>
      let of (c : Cell) : List (Nat × Nat) :=
        let lo := slot * i.slotNs + c.start * 1000
        let hi := lo + c.len * 1000
        if c.type = 1 ∧ c.node = h then [(lo, hi)]
        else if c.type = 6 ∧ n.sleepy then
          match i.cslFor c h with
          | some (r, _) => ((n.csl r).instants lo hi).map fun t => (t, hi)
          | none => []
        else []
      (x.cells.flatMap fun e => of e.2).foldl (fun l p => insertPair p l) []

/-- End of the window of the `need`-th opportunity from `from_` up to `limit`, walking from instant `t` (R466): the active
image up to a pending boundary, and the loaded image after it. -/
def SchedDomain.walk (x : SchedDomain) (n : NodeRec) (h from_ limit : Nat) : Nat → Nat → Nat → Option Nat
  | 0, _, _ => none
  | fuel + 1, t, need =>
    let bound := match x.activation with | some a => if t < a.at_ then some a.at_ else none | none => none
    match x.imageAt t with
    | none =>
      match bound with
      | some b => x.walk n h from_ limit fuel b need
      | none => none
    | some i =>
      let slot := t / i.slotNs
      let next := min ((slot + 1) * i.slotNs) (bound.getD ((slot + 1) * i.slotNs))
      let l := (n.opportunities h i slot).filter fun p =>
        decide (t ≤ p.1) && decide (p.1 < next) && decide (from_ ≤ p.1) && decide (p.1 ≤ limit)
      match l[need - 1]? with
      | some p => if need = 0 then none else some p.2
      | none => if limit < next then none else x.walk n h from_ limit fuel next (need - l.length)

/-- 30 days in ns, and the most slots that the walk can meet in them. -/
def thirtyDaysNs : Nat := 30 * 86400 * 1000000000
def walkFuel : Nat := thirtyDaysNs / 2500000 + 4

/-- DEADLINE for `need` opportunities of first hop `h`, in ns on the domain's base; none when there are too few. -/
def State.sendDeadline (s : State) (d h need : Nat) : Option Nat :=
  let now := s.domainNs d
  let n := (s.node h).getD { eui := 0, domain := d, state := 0 }
  ((s.domain d).walk n h (now + 1000000) (now + thirtyDaysNs) walkFuel (now + 1000000) need).map (· + 10000000)

/-- HANDLE, CMD_ID and the packet. -/
def sendCmdId (r : Req) : Nat := r.b 4 2
def sendPacket (r : Req) : Bytes := r.pl.drop 16

/-- The command entry that matches CMD_ID (R468). -/
def NodeRec.matching (n : NodeRec) (id : Nat) : Option CmdEntry :=
  if id = 0 then none else n.cmds.find? fun e => e.state != 0 && e.id == id

/-- The entry that a new CMD_ID takes: a free one, else the oldest done one. -/
def NodeRec.entryFor (n : NodeRec) : Option Nat :=
  match n.cmds.findIdx? (·.state == 0) with
  | some i => some i
  | none =>
    let done := (List.range n.cmds.length).filter fun i => (n.cmds.getD i {}).state == 2
    done.foldl (fun (best : Option Nat) i => match best with
      | some j => if (n.cmds.getD i {}).age < (n.cmds.getD j {}).age then some i else some j
      | none => some i) none

/-- What NODE_SEND will queue: state after the plan, the plan, frames queued ahead at the first hop, and DEADLINE. -/
def State.sendPlan (s : State) (d h : Nat) (c : DomainCfg) (pkt : Bytes) : State × Option (Plan × Nat × Option Nat) :=
  let p := s.planUnicast d h c pkt
  match p.2 with
  | none => (p.1, none)
  | some q =>
    let ahead := s.dlCount d q.first
    (p.1, some (q, ahead, s.sendDeadline d q.first ((ahead + q.payloads.length) * (c.retryLimit + 1))))

/-- The command in progress that a duplicate joins. -/
def State.sendOf (s : State) (h id : Nat) : Option SendCmd := s.mesh.sends.find? fun c => c.handle == h && c.cmdId == id

/-- BAD_PARAM of the packet, then BUSY and NO_RESOURCE of R466 and R468. -/
def State.sendChk (s : State) (r : Req) : Chk :=
  let h := handleB r
  match s.node h with
  | none => some (stBadParam, 0x44)
  | some n =>
    let d := n.domain
    match (s.meshDom d).cfg with
    | none => some (stBadParam, 0x72)
    | some c =>
      let pkt := sendPacket r
      firstOf [
        -- below 40 octets there is no destination to judge (log entry 49)
        badIf (decide (pkt.length < 40)) 0x73,
        badIf (byteAt pkt 0 / 16 != 6 || shortOf c.pfx (slice pkt 24 16) != some (s.shortAddr d h)) 0x72,
        badIf (decide (c.mtu < pkt.length)) 0x73,
        if (n.matching (sendCmdId r)).isSome then none
        else firstOf [
          failIf (sendCmdId r != 0 && n.entryFor.isNone) stBusy 0x02,
          match (s.sendPlan d h c pkt).2 with
          | none => some (stNoResource, 0x70)
          | some (q, ahead, e) =>
            let limit := match s.node q.first with | some m => m.dlqLimit | none => 1024
            firstOf [failIf e.isNone stNoResource 0x70, failIf (decide (limit < ahead + q.payloads.length) || !s.storeRoom q.payloads) stNoResource 0x72]]]

/-- DLQ_COUNT of a record. -/
def State.dlqCount (s : State) (h : Nat) : Nat := match s.node h with | some n => n.queue.length | none => 0

/-- The ACCEPTED response of R482. -/
def State.sendReply (s : State) (fn d deadline frames ahead : Nat) : Reply :=
  let b := s.deadlineBase fn
  { status := stAccepted
    results := deadlineResults b ((s.ns b : Int) + deadline - s.domainNs d).toNat
      (leBytes 2 frames ++ leBytes 2 ahead) }

/-- A new command: its entry, and its frames queued. -/
def State.startSend (s : State) (r : Req) (n : NodeRec) (c : DomainCfg) : State × Reply :=
  let h := handleB r
  let d := n.domain
  let p := s.sendPlan d h c (sendPacket r)
  match p.2 with
  | none => (s, { status := stNoResource, sub := 0x70 })
  | some (_, _, none) => (s, { status := stNoResource, sub := 0x70 })
  | some (q, _, some e) =>
    let id := sendCmdId r
    let age := s.mesh.nextPacket + 1
    let s := if id = 0 then p.1
      else match n.entryFor with
        | some i => p.1.engineWrite h fun n => { n with cmds := n.cmds.set i { id := id, state := 1, age := age } }
        | none => p.1
    let x : SendCmd := { fn := r.fn, tag := r.tag, handle := h, cmdId := id, deadline := e, frames := q.payloads.length }
    let s := { s with mesh := { s.mesh with sends := s.mesh.sends ++ [x] } }
    let y := s.sendReply r.fn d e q.payloads.length (s.dlqCount q.first)
    -- answered first: a key advance, or a key that fails its check, may end the command as its frames are built
    ((s.answer r y).queuePacket d (some q.first) (some (r.fn, r.tag)) q.payloads, { y with deferred := true })

def nodeSendSpec : AciSpec where
  op := 0x0807
  lenOk := fun n _ => decide (16 ≤ n)
  buffer := true
  pf0Only := false
  modes := modesRun
  carried := true
  rsv := fun _ => [(2, 0xFE), (3, 0xFF)] ++ (List.range 10).map fun i => (6 + i, 0xFF)
  owned := fun r s => s.ownsHandle r.fn (handleB r)
  avail := fun r s => s.sendChk r
  accepts := fun r s =>
    match s.node (handleB r) with
    | some n => match n.matching (sendCmdId r) with | some e => e.state == 1 | none => true
    | none => true
  effect := fun r s =>
    let h := handleB r
    match s.node h with
    | none => (s, { status := stBadParam, sub := 0x44 })
    | some n =>
      match n.matching (sendCmdId r), s.sendOf h (sendCmdId r), (s.meshDom n.domain).cfg with
      | some e, some c, _ =>
        if e.state = 2 then (s, { status := e.final, sub := 0x70 })
        else
          let first := match s.planUnicast n.domain h ((s.meshDom n.domain).cfg.getD (s.domainCfgOf r)) (sendPacket r) with
            | (_, some q) => q.first
            | (_, none) => h
          ({ s with mesh := { s.mesh with sends := s.mesh.sends.map fun x =>
              if x.fn = c.fn ∧ x.tag = c.tag then { x with dups := x.dups ++ [(r.fn, r.tag)] } else x } },
            s.sendReply r.fn n.domain c.deadline c.frames (s.dlqCount first))
      | some e, none, _ => (s, { status := e.final, sub := 0x70 })
      | none, _, some c => s.startSend r n c
      | none, _, none => (s, { status := stBadParam, sub := 0x72 })

def execNodeSend (r : Aci) (s : State) : Host.Outcome State Fault Refusal := .next (nodeSendSpec.exec r s)

/-! ### NODE_DOMAIN_REKEY -/

def nodeDomainRekeySpec : AciSpec where
  op := 0x0808
  lenOk := lenIs 1
  pf0Only := false
  modes := modesRun
  carried := true
  rsv := fun _ => [(0, 0xC0)]
  owned := fun r s => s.ownsDomain r.fn (r.fb 16 0 6)
  effect := fun r s =>
    let d := r.fb 16 0 6
    ((s.advanceEpoch d 2).modMesh d fun m => { m with rekeys := m.rekeys ++ [r] }, { okReply with deferred := true })

def execNodeDomainRekey (r : Aci) (s : State) : Host.Outcome State Fault Refusal := .next (nodeDomainRekeySpec.exec r s)

/-! ### NODE_DIST_START, NODE_DIST_STOP -/

/-- END in ns on the domain's base. -/
def distEnd (r : Req) : Nat := r.b 10 6 * 1000000000 + r.b 16 4

/-- Handles of the JOINED nodes of a class (R472). -/
def State.distTargets (s : State) (d target : Nat) : List Nat :=
  (s.recordsOf d).filter fun h => match s.node h with
    | some n => n.state == 2 && (target == 0xFF || n.class_ == target)
    | none => false

/-- A usable node image (R614). -/
def State.nodeImage (s : State) (n : Nat) : Option Bytes := (tget none s.mesh.nodeImages n).map (·.data)

/-- A VF may distribute only images staged with its tenant as OWNER (R614). -/
def State.mayDistribute (s : State) (fn n : Nat) : Bool :=
  fn == 0 || (match tget none s.mesh.nodeImages n with | some x => x.owner + 1 == fn | none => false)

def nodeDistStartSpec : AciSpec where
  op := 0x0809
  lenOk := lenIs 24
  buffer := true
  pf0Only := false
  modes := modesRun
  carried := true
  rsv := fun _ => [(0, 0xC0), (5, 0xFF), (6, 0xFF), (7, 0xFF), (20, 0xFF), (21, 0xFF), (22, 0xFF), (23, 0xFF)]
  par := fun r _ =>
    badIf (decide (r.b 2 2 < 64) || decide (1024 < r.b 2 2) || r.b 2 2 % 16 != 0 || decide (r.b 8 2 < 32) ||
      decide (999999999 < r.b 16 4)) 0x04
  owned := fun r s => s.ownsDomain r.fn (r.bb 0 0 6) && s.mayDistribute r.fn (r.b 1 1)
  avail := fun r s =>
    let d := r.bb 0 0 6
    let now := s.domainNs d
    firstOf [
      badIf (decide (distEnd r < now + 60000000000) || decide (now + 90 * 86400 * 1000000000 < distEnd r)) 0x04,
      badIf (s.nodeImage (r.b 1 1)).isNone 0x74,
      failIf (s.meshDom d).dist.isSome stBusy 0x02]
  accepts := fun _ _ => true
  effect := fun r s =>
    let d := r.bb 0 0 6
    let id := (s.meshDom d).distIds % 65535 + 1
    let t := s.distTargets d (r.b 4 1)
    let x : Dist := { fn := r.fn, tag := r.tag, id := id, slot := r.b 1 1, image := (s.nodeImage (r.b 1 1)).getD [],
                      blockSize := r.b 2 2, maxIndex := r.b 8 2, target := r.b 4 1, endNs := distEnd r, targets := t }
    let y := s.acceptReply r.fn (distEnd r - s.domainNs d) (leBytes 2 id)
    let s := s.modMesh d fun m => { m with dist := some x, distIds := id }
    -- with no targeted node every one of them has reported: the distribution ends as it starts
    if t.isEmpty then ((s.answer r y).endDist d stOk 0, { y with deferred := true }) else (s, y)

def execNodeDistStart (r : Aci) (s : State) : Host.Outcome State Fault Refusal := .next (nodeDistStartSpec.exec r s)

def nodeDistStopSpec : AciSpec where
  op := 0x080A
  lenOk := lenIs 1
  pf0Only := false
  modes := modesRun
  carried := true
  rsv := fun _ => [(0, 0xC0)]
  owned := fun r s => s.ownsDomain r.fn (r.fb 16 0 6)
  effect := fun r s => (s.endDist (r.fb 16 0 6) stStale 0x72, okReply)

def execNodeDistStop (r : Aci) (s : State) : Host.Outcome State Fault Refusal := .next (nodeDistStopSpec.exec r s)

end Sys2Proof.Machine
end

