-- ==== Sys2Proof/Machine/TableCmds.lean ====
section
/-! DEFINITION. Generations (R219 to R224) and the TABLE command group (R228 to R242). -/

namespace Sys2Proof.Machine

/-! ### Writes and commits -/

/-- Apply one write to the chip-wide tables; a static MAC write is no part of them. -/
def Tables.apply (t : Tables) : TableWrite → Tables
  | .vlan n v => { t with vlans := tset none t.vlans n v }
  | .intf n v => { t with intfs := tset none t.intfs n v }
  | .mac _ _ _ => t
  | .nexthop n v => { t with nexthops := tset none t.nexthops n v }
  | .route k v => { t with routes := tset none t.routes k v }
  | .rule n v => { t with rules := tset none t.rules n v }
  | .mirror n v => { t with mirrors := tset {} t.mirrors n v }

/-- Static MAC writes reach every pipe (R210, R236): a delete of a key with no static entry changes nothing. -/
def MacTab.writeStatic (m : MacTab) (victims : Tab Nat) (mac vlan : Nat) (v : Option (Nat × Bool)) :
    Option (MacTab × Tab Nat) :=
  (List.range 8).foldl (fun acc pipe =>
    match acc with
    | none => none
    | some (m, vs) =>
      match v with
      | none =>
        match MacTab.lookup m pipe mac vlan with
        | some k =>
          match tget none m k with
          | some e => if e.static then some (tset none m k none, vs) else some (m, vs)
          | none => some (m, vs)
        | none => some (m, vs)
      | some (port, drop) =>
        let e : MacEntry := { mac := mac, vlan := vlan, port := port, static := true, drop := drop, age := 0 }
        let r := MacTab.insert m pipe (tget 0 vs pipe) e
        match r.1 with
        | some m' => some (m', tset 0 vs pipe r.2)
        | none => none) (some (m, victims))

/-- All static MAC writes of a list; none when an insert fails in a pipe (R221). -/
def staticWrites (m : MacTab) (vs : Tab Nat) : List TableWrite → Option (MacTab × Tab Nat)
  | [] => some (m, vs)
  | .mac a b v :: l =>
    match MacTab.writeStatic m vs a b v with
    | some r => staticWrites r.1 r.2 l
    | none => none
  | _ :: l => staticWrites m vs l

/-- Two writes of one entry. -/
def sameEntry : TableWrite → TableWrite → Bool
  | .vlan a _, .vlan b _ | .intf a _, .intf b _ | .nexthop a _, .nexthop b _ | .route a _, .route b _ | .rule a _, .rule b _
  | .mirror a _, .mirror b _ => a == b
  | .mac a v _, .mac b w _ => a == b && v == w
  | _, _ => false

/-- The writes of one commit that have an effect: of writes to one entry the last (R221). -/
def lastWrites : List TableWrite → List TableWrite
  | [] => []
  | w :: l => if l.any (sameEntry w) then lastWrites l else w :: lastWrites l

/-- The tables after a commit. -/
def Tables.applyAll (t : Tables) (ws : List TableWrite) : Tables := (lastWrites ws).foldl Tables.apply t

/-- Maintenance slots that the writes of a generation take in each pipe (R195): one for each write that has an effect, and for a static
MAC entry its relocations. -/
def genSlots : MacTab → Tab Nat → List TableWrite → List Nat
  | _, _, [] => List.replicate 8 0
  | m, vs, .mac a b v :: l =>
    let r := (MacTab.writeStatic m vs a b v).getD (m, vs)
    let own := (List.range 8).map fun p => if v.isSome then MacTab.keySlots m p (tget 0 vs p) a b else 1
    List.zipWith (· + ·) own (genSlots r.1 r.2 l)
  | m, vs, _ :: l => (genSlots m vs l).map (· + 1)

/-- The tables as the generations that wait would leave them. -/
def State.projected (s : State) : Tables := s.fwd.pendingGens.foldl (fun t g => t.applyAll g.writes) s.fwd.tables

/-- The MAC tables as the generations that wait would leave them. -/
def State.projectedMacs (s : State) : MacTab × Tab Nat :=
  s.fwd.pendingGens.foldl (fun m g => (staticWrites m.1 m.2 (lastWrites g.writes)).getD m) (s.fwd.macs, s.fwd.victim)

/-- Routes, next hops and rules of a tenant. -/
def Tables.routesOf (t : Tables) (tenant : Nat) : Nat :=
  (t.routes.filter fun e => e.2.isSome && e.1 / 2 ^ 128 / 512 == tenant).length

def Tables.hopsOf (t : Tables) (tenant : Nat) : Nat :=
  (t.nexthops.filter fun e => match e.2 with | some h => h.tenant == tenant | none => false).length

def Tables.rulesOf (t : Tables) (owner : Nat) : Nat :=
  (t.rules.filter fun e => match e.2 with | some r => r.owner == owner | none => false).length

/-- A write that would name what does not exist (R221): BAD_PARAM 0x21. -/
def Tables.dangles (t : Tables) : TableWrite → Bool
  | .route k (some n) =>
    match tget none t.nexthops n with
    | some h => h.tenant != k / 2 ^ 128 / 512
    | none => true
  | .nexthop _ (some h) =>
    h.type == 1 && (match tget none t.intfs h.intf with | some i => i.tenant != h.tenant | none => true)
  | _ => false

/-- A write that removes or changes what others still name: BAD_PARAM 0x25 (R230, R234, R239). -/
def Tables.stillNamed (t : Tables) (before : Tables) : TableWrite → Bool
  | .nexthop n none => t.routes.any fun e => e.2 == some n
  | .nexthop n (some h) =>
    t.routes.any fun e => e.2 == some n && e.1 / 2 ^ 128 / 512 != h.tenant
  | .intf n none => t.nexthops.any fun e => match e.2 with | some h => h.type == 1 && h.intf == n | none => false
  | .intf n (some i) =>
    t.nexthops.any fun e => match e.2 with | some h => h.type == 1 && h.intf == n && h.tenant != i.tenant | none => false
  | .vlan n none => t.intfs.any fun e => match e.2 with | some i => i.vlan == n | none => false
  | .vlan n (some v) =>
    (match tget none before.vlans n with | some old => old.tenant != v.tenant | none => false) &&
      t.intfs.any fun e => match e.2 with | some i => i.vlan == n | none => false
  | _ => false

/-- Two interfaces on one (port, VLAN): BAD_PARAM 0x24. -/
def Tables.sameIntf (t : Tables) : TableWrite → Bool
  | .intf n (some i) =>
    t.intfs.any fun e => e.1 != n && (match e.2 with | some j => j.port == i.port && j.vlan == i.vlan | none => false)
  | _ => false

/-- Entries that a commit adds, each with its tenant: routes, next hops and rules. -/
def Tables.newRoutes (t after : Tables) (tenant : Nat) : Bool :=
  after.routes.any fun e => e.2.isSome && e.1 / 2 ^ 128 / 512 == tenant && (tget none t.routes e.1).isNone

def Tables.newHops (t after : Tables) (tenant : Nat) : Bool :=
  after.nexthops.any fun e => (match e.2 with | some h => h.tenant == tenant | none => false) &&
    (match tget none t.nexthops e.1 with | some h => h.tenant != tenant | none => true)

def Tables.newRules (t after : Tables) (owner : Nat) : Bool :=
  after.rules.any fun e => (match e.2 with | some r => r.owner == owner | none => false) &&
    (match tget none t.rules e.1 with | some r => r.owner != owner | none => true)

/-- A tenant beyond a quota gets a new entry (R221, R232): what exists is kept. -/
def State.overQuota (s : State) (before after : Tables) : Bool :=
  (List.range 16).any fun n =>
    let v : Vrf := tget {} s.fwd.vrf n
    (decide (v.routeQuota < after.routesOf n) && before.newRoutes after n) ||
      (decide (v.hopQuota < after.hopsOf n) && before.newHops after n) ||
      (decide (v.ruleQuota < after.rulesOf n) && before.newRules after n)

/-- A write of a VF to an entry that another tenant has taken since it was staged (R229, R241). -/
def Tables.foreign (t : Tables) (fn : Nat) : TableWrite → Bool
  | .nexthop n _ => match tget none t.nexthops n with | some h => h.tenant + 1 != fn | none => false
  | .rule n _ => match tget none t.rules n with | some r => r.owner + 1 != fn | none => false
  | _ => false

/-- A BORDER next hop whose domain is not its tenant's (R216). -/
def State.strayBorder (s : State) : TableWrite → Bool
  | .nexthop _ (some h) => h.type == 2 && s.domainTenant h.domain != some h.tenant
  | _ => false

/-- A generation of these writes that waits for its boundary. -/
def State.pendingGen (s : State) (fn : Nat) (cmd : Nat × Nat) (ws : List TableWrite) (reset : Option Nat := none) : PendingGen :=
  let m := s.projectedMacs
  { fn := fn, cmd := some cmd, writes := ws, slots := genSlots m.1 m.2 (lastWrites ws), reset := reset }

/-- The checks of a whole commit of a function (R221) on the writes that have an effect, in the order of R80; DENIED comes first, as
it does for a VF everywhere (R16). -/
def State.commitCheck (s : State) (fn : Nat) (all : List TableWrite) : Chk :=
  let ws := lastWrites all
  let before := s.projected
  let after := ws.foldl Tables.apply before
  let m := s.projectedMacs
  firstOf [
    failIf (fn != 0 && ws.any (before.foreign fn)) stDenied 0x02,
    badIf (ws.any after.dangles || ws.any s.strayBorder) 0x21,
    badIf (ws.any after.sameIntf) 0x24,
    badIf (ws.any (after.stillNamed before)) 0x25,
    failIf (decide (262144 < after.routes.length)) stNoResource 0x20,
    failIf (s.overQuota before after) stNoResource 0x21,
    failIf (staticWrites m.1 m.2 ws).isNone stNoResource 0x23]

/-- Writes staged by a function, oldest first. -/
def State.stagedOf (s : State) (fn : Nat) : List TableWrite := (s.fwd.staged.filter fun e => e.1 == fn).map (·.2)

/-- Discard a function's staged writes (R222). -/
def State.dropStaged (s : State) (fn : Nat) : State :=
  { s with fwd := { s.fwd with staged := s.fwd.staged.filter (fun e => e.1 != fn), stale := s.fwd.stale.filter (· != fn) } }

/-- What a commit removes: objects that were there and that it deletes (R222). -/
def Tables.removes (t : Tables) (ws : List TableWrite) : List TableWrite :=
  (lastWrites ws).filter fun w => match w with
    | .nexthop n none => (tget none t.nexthops n).isSome
    | .intf n none => (tget none t.intfs n).isSome
    | _ => false

/-- A write names the object that another deletes. -/
def names (w removed : TableWrite) : Bool :=
  match w, removed with
  | .route _ (some n), .nexthop m none => n == m
  | .nexthop _ (some h), .intf m none => h.type == 1 && h.intf == m
  | _, _ => false

/-- Staged writes rely on an object that is removed: one names it, and none makes it (R222). -/
def reliesOn (ws : List TableWrite) (removed : TableWrite) : Bool :=
  ws.any (fun w => names w removed) && !ws.any (sameEntry removed)

/-- Functions, other than `fn`, whose staged writes a generation overtakes. -/
def State.overtaken (s : State) (fn : Nat) (ws : List TableWrite) : List Nat :=
  let gone := s.fwd.tables.removes ws
  ((s.fwd.staged.map (·.1)).eraseDups).filter fun f => f != fn && gone.any (reliesOn (s.stagedOf f))

/-- A generation of another function that waits for its boundary removes an object that the writes rely on (R222). -/
def outrunBy (fn : Nat) (ws : List TableWrite) : Tables → List PendingGen → Bool
  | _, [] => false
  | t, g :: l => (g.fn != fn && (t.removes g.writes).any (reliesOn ws)) || outrunBy fn ws (t.applyAll g.writes) l

def State.outrun (s : State) (fn : Nat) (ws : List TableWrite) : Bool := outrunBy fn ws s.fwd.tables s.fwd.pendingGens

/-- The commit of a function with its staged writes as given is overtaken (R222). -/
def State.overrun (s : State) (fn : Nat) (ws : List TableWrite) : Bool := s.fwd.stale.contains fn || s.outrun fn ws

/-- What a commit of a function meets at its check, and in a pair at the check of both devices (R221, R224). -/
def State.commitStatus (s : State) (fn : Nat) (ws : List TableWrite) : Chk :=
  if s.overrun fn ws || ws.isEmpty then none else s.commitCheck fn ws

/-- Results of a commit and of TABLE_STATUS (R231). -/
def State.tableView (s : State) (fn staged : Nat) (gen : BitVec 32) : Bytes :=
  let t := s.fwd.tables
  let count (f : Nat → Nat) : Nat := if fn = 0 then sumNat ((List.range 17).map f) else f (fn - 1)
  leBytes 4 gen.toNat ++ leBytes 2 staged ++ leBytes 2 (count t.rulesOf) ++ leBytes 4 (count t.routesOf) ++
    leBytes 4 (count t.hopsOf) ++ leBytes 8 0

/-- Commit a function's staged writes (R219, R221, R222, R231): with nothing staged OK at once; else checked whole and,
when it passes, answered at its boundary. -/
def State.commit (s : State) (r : Req) : State × Reply :=
  let ws := s.stagedOf r.fn
  if s.overrun r.fn ws then (s.dropStaged r.fn, { status := stStale, sub := 0x21 })
  else if ws.isEmpty then (s, okWith (s.tableView r.fn 0 s.fwd.generation))
  else
    match s.commitCheck r.fn ws with
    | some e => (s, { status := e.1, sub := e.2 })
    | none =>
      let g := s.pendingGen r.fn (r.tag, r.opcode) ws
      let s := s.dropStaged r.fn
      ({ s with fwd := { s.fwd with pendingGens := s.fwd.pendingGens ++ [g] } }, { deferred := true })

/-- Stage a write and, with AUTO_COMMIT, commit (R219). Where the commit is refused the write is not staged either, since a
command that fails leaves nothing behind (R80, R230); what was staged before it stays, but for STALE_GENERATION (R222). -/
def State.stage (s : State) (r : Req) (auto : Bool) (w : TableWrite) : State × Reply :=
  let t := { s with fwd := { s.fwd with staged := s.fwd.staged ++ [(r.fn, w)] } }
  if auto then
    let z := t.commit r
    if z.2.status = stOk ∨ z.2.status = stStale then z else (s, z.2)
  else (t, okReply)

/-- What a write that commits meets at the check of the whole commit (R221, R230). -/
def State.autoStatus (s : State) (r : Req) (auto : Bool) (w : TableWrite) : Chk :=
  if auto then s.commitStatus r.fn (s.stagedOf r.fn ++ [w]) else none

/-- Staging full (R219, R230). -/
def State.stageFull (s : State) : Chk := failIf (decide (4096 ≤ s.fwd.staged.length)) stNoResource 0x22

/-- The tenant's class map and its queue shapers return to their factory settings (R272). -/
def State.factoryBundles (s : State) (t : Nat) : State :=
  let own (k : Nat) : Bool := k < 32768 && 8 + 7 * t ≤ k % 128 && k % 128 < 15 + 7 * t
  { s with qos := { s.qos with maps := tset {} s.qos.maps t {}, shapers := s.qos.shapers.filter fun e => !own e.1 } }

/-- TENANT_RESET from the generation boundary on (R35 steps 5 to 8, R31, R272): the tenant's policers go with its rules and
routes; its bundles are flushed; its Wells and rings are disabled and discarded, with entries that wait for their second (R697); its command ring is read again. The
PF0 alarm Well gets the tenant's entry at once. -/
def State.finishTenantReset (s : State) (t : Nat) : State :=
  let s := { s with qos := { s.qos with policers := s.qos.policers.filter fun e => e.2.owner != t } }
  let s := (s.flushTenant t).factoryBundles t
  let wells := (s.cfg.wells.filter fun e => match e.2 with | some o => o.tenant == t | none => false).map (·.1)
  let s := wells.foldl (fun s w => s.setWell w {}) s
  let stop (e : Nat × Ring) : Nat × Ring :=
    if e.1 / 64 = t + 1 then (e.1, { e.2.disable with tail := e.2.head + BitVec.ofNat 16 e.2.bufs.length }) else e
  -- the SOURCE, TYPE and body of the tenant's entry are not stated (log entry 3)
  let x := s.draw
  let y := x.2.draw
  let z := y.2.draw
  let n : Notice := { tenant := t, source := x.1 % 256, type := y.1 % 65536, body := leBytes 14 z.1 }
  let s := z.2.alarm n.source n.type n.body
  let s := { s with host := { s.host with
    punt := s.host.punt.map stop, inject := s.host.inject.map stop
    paced := s.host.paced.map fun (e : Nat × Option Paced) => (e.1, e.2.filter fun p => !wells.contains p.well)
    tenantNotice := if (s.faultWell t).isSome then n :: s.host.tenantNotice.filter (·.tenant != t) else s.host.tenantNotice } }
  s.modMbox (t + 1) fun m => { m with tenantHeld := false }

/-- Generations end without a boundary, or at theirs: what is placed of the others stays placed (R195, R219). -/
def placedOf (keep : PendingGen → Bool) (pipe : Nat) : List PendingGen → Nat → Nat
  | [], _ => 0
  | g :: l, n => (if keep g then min n (g.need pipe) else 0) + placedOf keep pipe l (n - g.need pipe)

def State.dropGens (s : State) (keep : PendingGen → Bool) : State :=
  { s with fwd := { s.fwd with
      pendingGens := s.fwd.pendingGens.filter keep
      placed := s.fwd.placed.map fun e => (e.1, placedOf keep e.1 s.fwd.pendingGens e.2) } }

/-- The entries of a generation are placed in every pipe (R219). -/
def State.isPlaced (s : State) (g : PendingGen) : Bool := (List.range 8).all fun p => decide (g.need p ≤ tget 0 s.fwd.placed p)

/-- The end of a clock 127 (R219 to R223): the generation that has waited longest becomes current in all pipes once its entries are
placed, and its command is answered. -/
def execGenerationBoundary (s : State) : Host.Outcome State Fault Refusal :=
  .next (match s.fwd.pendingGens with
    | [] => s
    | g :: rest =>
      if !s.isPlaced g then s else
      let s := { s with fwd := { s.fwd with
        pendingGens := rest, placed := s.fwd.placed.map fun e => (e.1, e.2 - g.need e.1) } }
      let reply (s : State) (y : Reply) : State :=
        match g.cmd with
        | some (tag, op) => s.answerLater { fn := g.fn, opcode := op, tag := tag, fence := false, len := 0, buffer := 0, pl := [] } y
        | none => s
      match staticWrites s.fwd.macs s.fwd.victim (lastWrites g.writes) with
      | none => reply s { status := stNoResource, sub := 0x23 }
      | some (m, vs) =>
        let stale := s.overtaken g.fn g.writes
        let t := s.fwd.tables.applyAll g.writes
        let s := { s with fwd := { s.fwd with tables := t, macs := m, victim := vs, generation := s.fwd.generation + 1,
                                              stale := s.fwd.stale ++ stale } }
        let s := (List.range 8).foldl (fun s p => s.gaugeLearned p) s
        match g.reset with
        | some t => reply (s.finishTenantReset t) okReply
        | none => reply s (okWith (s.tableView g.fn g.writes.length s.fwd.generation)))

/-! ### Commands -/

/-- Masks of reserved bits by payload byte. -/
def rsvRange (lo hi : Nat) : List (Nat × Nat) := (List.range (hi + 1 - lo)).map fun i => (lo + i, 0xFF)

def tableCommitSpec : AciSpec where
  op := 0x0301
  pf0Only := false
  modes := modesRun
  carried := true
  late := fun r s => s.commitStatus r.fn (s.stagedOf r.fn)
  effect := fun r s => s.commit r

def execTableCommit (r : Aci) (s : State) : Host.Outcome State Fault Refusal := .next (tableCommitSpec.exec r s)

def tableStatusSpec : AciSpec where
  op := 0x0302
  pf0Only := false
  modes := modesRead345
  effect := fun r s => (s, okWith (s.tableView r.fn (s.stagedOf r.fn).length s.fwd.generation))

def execTableStatus (r : Aci) (s : State) : Host.Outcome State Fault Refusal := .next (tableStatusSpec.exec r s)

def tableVrfConfigSpec : AciSpec where
  op := 0x0303
  lenOk := lenIs 16
  modes := modesRun
  carried := true
  rsv := fun _ => [(0, 0x80), (6, 0xF8), (10, 0xFE), (13, 0x80)] ++ rsvRange 1 3 ++ [(7, 0xFF), (11, 0xFF)] ++
    rsvRange 14 15
  par := fun r _ =>
    badIf (decide (262144 < bits (r.f 20 4) 0 19) || decide (65536 < bits (r.f 24 4) 0 17) ||
      decide (16384 < bits (r.f 28 2) 0 15)) 0x04
  effect := fun r s =>
    let v : Vrf := { injectPipe := some (r.fb 16 4 3), routeQuota := bits (r.f 20 4) 0 19,
                     hopQuota := bits (r.f 24 4) 0 17, ruleQuota := bits (r.f 28 2) 0 15 }
    ({ s with fwd := { s.fwd with vrf := tset {} s.fwd.vrf (r.fb 16 0 4) v } }, okReply)

def execTableVrfConfig (r : Aci) (s : State) : Host.Outcome State Fault Refusal := .next (tableVrfConfigSpec.exec r s)

/-- A VLAN number in range. -/
def vlanOk (v : Nat) : Bool := decide (1 ≤ v) && decide (v ≤ 4094)

def tablePortL2Spec : AciSpec where
  op := 0x0304
  lenOk := lenIs 4
  modes := modesRun
  carried := true
  rsv := fun _ => [(2, 0x80), (3, 0xFF)]
  par := fun r s => firstOf [
    badIf (!vlanOk (bits (r.f 17 2) 0 12)) 0x04, badIf (s.isRadio (r.f 16 1)) 0x22]
  effect := fun r s =>
    let w := r.f 17 2
    let v : PortL2 := { pvid := bits w 0 12, learn := bit w 12, untagged := bit w 13, tagged := bit w 14 }
    ({ s with fwd := { s.fwd with portL2 := tset {} s.fwd.portL2 (r.f 16 1) v } }, okReply)

def execTablePortL2 (r : Aci) (s : State) : Host.Outcome State Fault Refusal := .next (tablePortL2Spec.exec r s)

/-- A port set names a radio port. -/
def State.namesRadio (s : State) (mask : Nat) : Bool :=
  s.cfg.ports.any fun e => e.2.site.isSome && bit mask e.1

/-- The write of TABLE_VLAN_WRITE (R234). -/
def vlanWrite (r : Req) : TableWrite :=
  let v : Vlan := { tenant := r.bb 2 0 4, learn := r.bl 2 4, flood := r.bl 2 5, ageLimit := r.b 4 2,
                    members := leNat (slice r.pl 8 32), untagged := leNat (slice r.pl 40 32) }
  .vlan (bits (r.b 0 2) 0 12) (if bit (r.b 0 2) 12 then none else some v)

def tableVlanWriteSpec : AciSpec where
  op := 0x0305
  lenOk := lenIs 72
  modes := modesRun
  carried := true
  rsv := fun _ => [(1, 0xC0), (2, 0xC0), (3, 0xFF), (6, 0xFF), (7, 0xFF)]
  par := fun r s =>
    let members := leNat (slice r.pl 8 32)
    let untagged := leNat (slice r.pl 40 32)
    firstOf [
      badIf (!vlanOk (bits (r.b 0 2) 0 12) || untagged &&& members != untagged) 0x04,
      badIf (s.namesRadio members) 0x22]
  avail := fun _ s => s.stageFull
  late := fun r s => s.autoStatus r (bit (r.b 0 2) 13) (vlanWrite r)
  effect := fun r s => s.stage r (bit (r.b 0 2) 13) (vlanWrite r)

def execTableVlanWrite (r : Aci) (s : State) : Host.Outcome State Fault Refusal := .next (tableVlanWriteSpec.exec r s)

/-- The write of TABLE_INTF_WRITE (R235). -/
def intfWrite (r : Req) : TableWrite :=
  let v : Intf := { port := r.f 18 1, tenant := r.fb 19 0 4, vlan := bits (r.f 20 2) 0 12, mac := beAt r.pl 6 6,
                    mtu := r.f 28 2, excFn := r.fb 30 0 5, excRing := r.fb 31 0 6, excEn := r.fl 31 6 }
  .intf (bits (r.f 16 2) 0 12) (if bit (r.f 16 2) 12 then none else some v)

def tableIntfWriteSpec : AciSpec where
  op := 0x0306
  lenOk := lenIs 20
  modes := modesRun
  carried := true
  rsv := fun _ => [(1, 0xC0), (3, 0xF0), (5, 0xF0), (14, 0xE0), (15, 0x80)] ++ rsvRange 16 19
  par := fun r s =>
    let del := bit (r.f 16 2) 12
    let fn := r.fb 30 0 5
    firstOf [
      badIf (!vlanOk (bits (r.f 20 2) 0 12) || isGroup (beAt r.pl 6 6) || decide (r.f 28 2 < 576) || decide (12266 < r.f 28 2) ||
        decide (16 < fn)) 0x04,
      badIf (s.isRadio (r.f 18 1)) 0x22,
      badIf (!del && fn != 0 && fn != r.fb 19 0 4 + 1) 0x23]
  avail := fun _ s => s.stageFull
  late := fun r s => s.autoStatus r (bit (r.f 16 2) 13) (intfWrite r)
  effect := fun r s => s.stage r (bit (r.f 16 2) 13) (intfWrite r)

def execTableIntfWrite (r : Aci) (s : State) : Host.Outcome State Fault Refusal := .next (tableIntfWriteSpec.exec r s)

/-- The write of TABLE_MAC_WRITE (R236). -/
def macWrite (r : Req) : TableWrite :=
  .mac (beAt r.pl 0 6) (bits (r.f 22 2) 0 12) (if bit (r.f 22 2) 12 then none else some (r.f 24 1, r.fl 25 0))

def tableMacWriteSpec : AciSpec where
  op := 0x0307
  lenOk := lenIs 12
  modes := modesRun
  carried := true
  rsv := fun _ => [(7, 0xC0), (9, 0xFE), (10, 0xFF), (11, 0xFF)]
  par := fun r s => firstOf [
    badIf (isGroup (beAt r.pl 0 6) || !vlanOk (bits (r.f 22 2) 0 12)) 0x04,
    badIf (s.isRadio (r.f 24 1)) 0x22]
  avail := fun _ s => s.stageFull
  late := fun r s => s.autoStatus r (bit (r.f 22 2) 13) (macWrite r)
  effect := fun r s => s.stage r (bit (r.f 22 2) 13) (macWrite r)

def execTableMacWrite (r : Aci) (s : State) : Host.Outcome State Fault Refusal := .next (tableMacWriteSpec.exec r s)

def tableMacReadSpec : AciSpec where
  op := 0x0308
  lenOk := lenIs 9
  modes := modesRead345
  rsv := fun _ => [(7, 0xF0), (8, 0xF8)]
  par := fun r _ => badIf (!vlanOk (bits (r.f 22 2) 0 12)) 0x04
  effect := fun r s =>
    let pipe := r.fb 24 0 3
    (s, okWith (match MacTab.lookup s.fwd.macs pipe (beAt r.pl 0 6) (bits (r.f 22 2) 0 12) with
      | some k =>
        match tget none s.fwd.macs k with
        | some e =>
          let n := k % 262144
          leBytes 1 (1 + 2 * b2n e.static + 4 * b2n e.drop) ++ leBytes 1 e.port ++ leBytes 2 e.age ++ leBytes 2 (n / 4) ++
            leBytes 1 (n % 4) ++ leBytes 17 0
        | none => leBytes 24 0
      | none => leBytes 24 0))

def execTableMacRead (r : Aci) (s : State) : Host.Outcome State Fault Refusal := .next (tableMacReadSpec.exec r s)

/-- A learned entry that TABLE_MAC_FLUSH removes (R238). -/
def flushMatches (r : Req) (e : MacEntry) : Bool :=
  !e.static && (!r.fl 17 0 || e.port == r.f 16 1) && (!r.fl 17 1 || e.vlan == bits (r.f 18 2) 0 12)

def tableMacFlushSpec : AciSpec where
  op := 0x0309
  lenOk := lenIs 4
  modes := modesRun
  carried := true
  rsv := fun _ => [(1, 0xFC), (3, 0xF0)]
  par := fun r _ => badIf (r.fl 17 1 && !vlanOk (bits (r.f 18 2) 0 12)) 0x04
  effect := fun r s =>
    let hit (e : Nat × Option MacEntry) : Bool := match e.2 with | some x => flushMatches r x | none => false
    let n := (s.fwd.macs.filter hit).length
    let s := { s with fwd := { s.fwd with macs := s.fwd.macs.filter fun e => !hit e } }
    ((List.range 8).foldl (fun s p => s.gaugeLearned p) s, okWith (leBytes 4 n ++ leBytes 20 0))

def execTableMacFlush (r : Aci) (s : State) : Host.Outcome State Fault Refusal := .next (tableMacFlushSpec.exec r s)

/-- The write of TABLE_NEXTHOP_WRITE (R239). -/
def nexthopWrite (r : Req) : TableWrite :=
  let v : NextHop := { type := r.fb 18 0 2, tenant := r.fb 19 0 4, intf := bits (r.f 20 2) 0 12,
                       dstMac := beAt r.pl 6 6, domain := r.fb 28 0 6 }
  .nexthop (r.f 16 2) (if r.fl 18 2 then none else some v)

def tableNexthopWriteSpec : AciSpec where
  op := 0x030A
  lenOk := lenIs 16
  pf0Only := false
  modes := modesRun
  carried := true
  rsv := fun _ => [(2, 0xF0), (3, 0xF0), (5, 0xF0), (12, 0xC0), (13, 0xFF), (14, 0xFF), (15, 0xFF)]
  par := fun r _ =>
    let ty := r.fb 18 0 2
    badIf ((ty != 1 && (r.f 20 2 != 0 || !rangeZero r.pl 6 11)) || (ty != 2 && r.fb 28 0 6 != 0)) 0x04
  owned := fun r s => ownTenant r (r.fb 19 0 4) && (r.fb 18 0 2 != 2 || r.fn == 0 || s.domainTenant (r.fb 28 0 6) == some (r.fn - 1)) &&
    (match tget none s.fwd.tables.nexthops (r.f 16 2) with | some h => ownTenant r h.tenant | none => true)
  avail := fun r s => firstOf [
    badIf (!r.fl 18 2 && r.fb 18 0 2 == 2 && s.domainTenant (r.fb 28 0 6) != some (r.fb 19 0 4)) 0x21, s.stageFull]
  late := fun r s => s.autoStatus r (r.fl 18 3) (nexthopWrite r)
  effect := fun r s => s.stage r (r.fl 18 3) (nexthopWrite r)

def execTableNexthopWrite (r : Aci) (s : State) : Host.Outcome State Fault Refusal :=
  .next (tableNexthopWriteSpec.exec r s)

/-- The write of TABLE_ROUTE_WRITE (R240). -/
def routeWrite (r : Req) : TableWrite :=
  .route (routeKey (r.fb 16 0 4) (r.fl 16 4) (r.f 17 1) (beAt r.pl 4 16)) (if r.fl 16 5 then none else some (r.f 18 2))

def tableRouteWriteSpec : AciSpec where
  op := 0x030B
  lenOk := lenIs 24
  pf0Only := false
  modes := modesRun
  carried := true
  rsv := fun _ => (0, 0x80) :: rsvRange 20 23
  par := fun r _ =>
    let v6 := r.fl 16 4
    let len := r.f 17 1
    let pfx := beAt r.pl 4 16
    firstOf [
      badIf (!v6 && !rangeZero r.pl 8 19) 0x04,
      badIf (decide ((if v6 then 128 else 32) < len) || pfx != topBits pfx len) 0x20]
  owned := fun r _ => ownTenant r (r.fb 16 0 4)
  avail := fun _ s => s.stageFull
  late := fun r s => s.autoStatus r (r.fl 16 6) (routeWrite r)
  effect := fun r s => s.stage r (r.fl 16 6) (routeWrite r)

def execTableRouteWrite (r : Aci) (s : State) : Host.Outcome State Fault Refusal := .next (tableRouteWriteSpec.exec r s)

/-- The rule that a buffer holds (R218, R241): a tenant's rule has its TENANT field forced under a full mask. -/
def ruleOf (r : Req) : Rule :=
  let owner := r.bb 2 0 5
  let force (b : Bytes) (v : Nat) : Bytes := setByte b 1 (byteAt b 1 / 16 * 16 + v)
  let value := slice r.pl 8 48
  let mask := slice r.pl 56 48
  { owner := owner, addrSel := r.bl 2 5
    value := if owner = 16 then value else force value owner
    mask := if owner = 16 then mask else force mask 15
    action := r.bb 104 0 3, setExpress := r.bl 104 3, expressQ := r.bb 104 4 3, puntFn := r.bb 105 0 5
    puntRing := r.bb 106 0 6, reason := r.b 107 1, redirect := r.b 108 1
    mirror := if r.bl 109 4 then some (r.bb 109 0 4) else none
    policer := if r.bl 112 0 then some (r.b 110 2) else none }

/-- The write of TABLE_RULE_WRITE (R241). -/
def ruleWrite (r : Req) : TableWrite := .rule (bits (r.b 0 2) 0 14) (if bit (r.b 0 2) 14 then none else some (ruleOf r))

def tableRuleWriteSpec : AciSpec where
  op := 0x030C
  lenOk := lenIs 120
  pf0Only := false
  modes := modesRun
  carried := true
  rsv := fun _ => [(2, 0xC0), (15, 0xC0), (63, 0xC0), (104, 0x80), (105, 0xE0), (106, 0xC0), (109, 0xE0), (112, 0xFE)] ++
    rsvRange 3 7 ++ rsvRange 48 55 ++ rsvRange 96 103 ++ rsvRange 113 119
  par := fun r _ =>
    let x := ruleOf r
    let del := bit (r.b 0 2) 14
    let punts := x.action == 2 || x.action == 3
    firstOf [
      badIf (decide (16 < x.owner)) 0x04,
      badIf (decide (4 < x.action) || decide (16 < x.puntFn) || (punts && decide (x.reason < 16)) || (!punts && x.reason != 0)) 0x04,
      badIf (!del && punts && x.owner != 16 && x.puntFn != x.owner + 1) 0x23]
  owned := fun r s => r.b 2 1 % 32 + 1 == r.fn &&
    (match tget none s.fwd.tables.rules (bits (r.b 0 2) 0 14) with | some h => h.owner + 1 == r.fn | none => true)
  avail := fun r s =>
    let x := ruleOf r
    let foreign := match x.policer with | some n => (s.policer n).owner != x.owner | none => false
    firstOf [badIf (!bit (r.b 0 2) 14 && x.owner != 16 && foreign) 0x21, s.stageFull]
  denied := fun r s =>
    let x := ruleOf r
    failIf (!bit (r.b 0 2) 14 && x.owner != 16 && (x.setExpress || x.mirror.isSome ||
      (x.action == 4 && s.isRadio x.redirect))) stDenied 0x20
  late := fun r s => s.autoStatus r (bit (r.b 0 2) 15) (ruleWrite r)
  effect := fun r s => s.stage r (bit (r.b 0 2) 15) (ruleWrite r)

def execTableRuleWrite (r : Aci) (s : State) : Host.Outcome State Fault Refusal := .next (tableRuleWriteSpec.exec r s)

/-- The write of TABLE_MIRROR_WRITE (R242). -/
def mirrorWrite (r : Req) : TableWrite :=
  .mirror (r.bb 0 0 4)
    { enable := r.bl 0 4, direction := r.bb 1 0 2, destPunt := r.bl 1 2, destPort := r.b 2 1, serviceQ := r.bb 3 0 3,
      puntRing := r.bb 4 0 6, sampleN := bits (r.b 8 4) 0 24, truncate := r.b 16 2,
      ports := leNat (slice r.pl 24 32), lfsr := r.b 12 4 }

def tableMirrorWriteSpec : AciSpec where
  op := 0x030D
  lenOk := lenIs 56
  modes := modesRun
  carried := true
  rsv := fun _ => [(0, 0xC0), (1, 0xF8), (3, 0xF8), (4, 0xC0), (11, 0xFF)] ++ rsvRange 5 7 ++ rsvRange 18 23
  par := fun r s =>
    let tr := r.b 16 2
    firstOf [
      badIf (r.bb 1 0 2 == 3 || bits (r.b 8 4) 0 24 == 0 || r.b 12 4 == 0 ||
        (tr != 0 && (decide (tr < 64) || decide (12288 < tr)))) 0x04,
      badIf (s.isRadio (r.b 2 1) || s.namesRadio (leNat (slice r.pl 24 32))) 0x22]
  avail := fun _ s => s.stageFull
  late := fun r s => s.autoStatus r (r.bl 0 5) (mirrorWrite r)
  effect := fun r s => s.stage r (r.bl 0 5) (mirrorWrite r)

def execTableMirrorWrite (r : Aci) (s : State) : Host.Outcome State Fault Refusal := .next (tableMirrorWriteSpec.exec r s)

end Sys2Proof.Machine
end

