-- ==== Sys2Proof/Machine/QosCmds.lean ====
section
/-! DEFINITION. The QOS command group (R274 to R283). Settings act at once here; the response follows (log entry 9). -/

namespace Sys2Proof.Machine

/-- Entry `i` of QOS_SET_LIMITS (R276). -/
def limitsAt (r : Req) (i : Nat) : QLimits :=
  { limit := r.b (4 + 8 * i) 2, yellow := r.b (6 + 8 * i) 2, red := r.b (8 + 8 * i) 2 }

/-- The limits that QOS_SET_LIMITS would leave. -/
def State.newLimits (s : State) (r : Req) : Tab (Option QLimits) :=
  (List.range (r.b 2 1)).foldl (fun t i => tset none t (128 * r.b 0 1 + r.bb 1 0 7 + i) (some (limitsAt r i))) s.qos.limits

/-- A queue of the function's own bundle (R274). -/
def ownBundle (fn q : Nat) : Bool :=
  decide (8 ≤ q % 128) && decide (q % 128 < 120) && (q % 128 - 8) / 7 + 1 == fn

def qosSetLimitsSpec : AciSpec where
  op := 0x0401
  lenOk := fun n pl => n == 4 + 8 * byteAt pl 2
  modes := modesRun
  carried := true
  rsv := fun pl => [(1, 0x80), (3, 0xFF)] ++
    (List.range (byteAt pl 2)).flatMap fun i => [(10 + 8 * i, 0xFF), (11 + 8 * i, 0xFF)]
  par := fun r s =>
    let n := r.b 2 1
    firstOf [
      badIf (n == 0 || decide (128 < n) || decide (128 < r.bb 1 0 7 + n)) 0x04,
      badIf (r.fn == 0 && s.isRadio (r.b 0 1)) 0x30,
      badIf ((List.range n).any fun i => let l := limitsAt r i; decide (l.limit < l.yellow) || decide (l.limit < l.red)) 0x31]
  owned := fun r _ => (List.range (r.b 2 1)).all fun i => ownBundle r.fn (128 * r.b 0 1 + r.bb 1 0 7 + i)
  avail := fun r s => failIf (decide (s.assignable < s.limitSum (s.newLimits r))) stNoResource 0x30
  effect := fun r s => ({ s with qos := { s.qos with limits := s.newLimits r } }, okReply)

def execQosSetLimits (r : Aci) (s : State) : Host.Outcome State Fault Refusal := .next (qosSetLimitsSpec.exec r s)

def qosSetSchedSpec : AciSpec where
  op := 0x0402
  lenOk := lenIs 20
  modes := modesRun
  carried := true
  rsv := fun _ => [(3, 0xFF)]
  par := fun r s => firstOf [badIf (decide (r.fs 17 1 < -32)) 0x04, badIf (s.isRadio (r.f 16 1)) 0x30]
  effect := fun r s =>
    let w := (List.range 16).map (fun t => r.f (20 + t) 1) ++ [r.f 18 1]
    (s.modSched (r.f 16 1) fun c => { c with overhead := r.fs 17 1, weights := w, deficits := List.replicate 17 0 }, okReply)

def execQosSetSched (r : Aci) (s : State) : Host.Outcome State Fault Refusal := .next (qosSetSchedSpec.exec r s)

/-- The port of a shaper. -/
def shaperPort (level index : Nat) : Nat := if level = 0 then index / 128 else if level = 1 then index / 16 else index

def qosSetShaperSpec : AciSpec where
  op := 0x0403
  lenOk := lenIs 16
  pf0Only := false
  modes := modesRun
  carried := true
  rsv := fun _ => [(0, 0xF8), (1, 0xFF)] ++ rsvRange 12 15
  par := fun r _ =>
    let level := r.fb 16 0 2
    let index := r.f 18 2
    let top := if level = 0 then 32768 else if level = 1 then 4096 else 256
    firstOf [
      badIf (level == 3 || decide (top ≤ index) || r.f 20 4 == 0 || decide (800000000 < r.f 20 4) ||
        decide (r.f 24 4 < 64) || decide (16777216 < r.f 24 4)) 0x04]
  owned := fun r _ => r.fn == 0 || (r.fb 16 0 2 == 0 && ownBundle r.fn (r.f 18 2))
  avail := fun r s => firstOf [
    badIf (s.isRadio (shaperPort (r.fb 16 0 2) (r.f 18 2))) 0x30,
    badIf (r.fl 16 2 && r.fb 16 0 2 == 0 && (s.queue (r.f 18 2)).launchEn) 0x32]
  effect := fun r s =>
    let level := r.fb 16 0 2
    let key := shaperKey level (r.f 18 2)
    let old : Shaper := tget {} s.qos.shapers key
    let burst := r.f 24 4
    let full : Int := ((burst * 100000 : Nat) : Int)
    let new : Shaper :=
      if r.fl 16 2 then
        { enable := true, rate := r.f 20 4, burst := burst, credit := if old.enable then min old.credit full else full }
      else { enable := false, rate := r.f 20 4, burst := burst, credit := 0 }
    ({ s with qos := { s.qos with shapers := tset {} s.qos.shapers key new } }, okReply)

def execQosSetShaper (r : Aci) (s : State) : Host.Outcome State Fault Refusal := .next (qosSetShaperSpec.exec r s)

/-- The queue holds frames: queued, or being sent (R279). -/
def State.holdsFrames (s : State) (q : Nat) : Bool := s.qCells q != 0 || !(s.queue q).items.isEmpty

def qosSetLaunchSpec : AciSpec where
  op := 0x0404
  lenOk := lenIs 4
  modes := modesRun
  carried := true
  rsv := fun _ => [(1, 0x80), (2, 0xFC), (3, 0xFF)]
  par := fun r _ => badIf (decide (120 ≤ bits (r.f 16 2) 0 15 % 128)) 0x04
  owned := fun r _ => ownBundle r.fn (bits (r.f 16 2) 0 15)
  avail := fun r s =>
    let q := bits (r.f 16 2) 0 15
    firstOf [
      badIf (s.isRadio (q / 128)) 0x30, badIf (r.fl 18 0 && (s.shaper 0 q).enable) 0x32,
      failIf (s.holdsFrames q) stBusy 0x02]
  effect := fun r s =>
    let q := bits (r.f 16 2) 0 15
    let set (x : Queue) : Queue := { x with launchEn := r.fl 18 0, launchLate := r.fl 18 1 }
    ({ s with qos := { s.qos with queues := tmod {} s.qos.queues q set } }, okReply)

def execQosSetLaunch (r : Aci) (s : State) : Host.Outcome State Fault Refusal := .next (qosSetLaunchSpec.exec r s)

def qosSetClassMapSpec : AciSpec where
  op := 0x0405
  lenOk := lenIs 76
  pf0Only := false
  modes := modesRun
  carried := true
  rsv := fun _ => [(0, 0xF0), (1, 0xFC), (2, 0xF8), (3, 0xFF)] ++ (List.range 72).map fun i => (4 + i, 0xF8)
  par := fun r _ =>
    badIf (r.bb 1 0 2 == 3 || r.bb 2 0 3 == 7 || (List.range 72).any fun i => r.bb (4 + i) 0 3 == 7) 0x04
  owned := fun r _ => ownTenant r (r.bb 0 0 4)
  effect := fun r s =>
    let m : ClassMap := { trust := r.bb 1 0 2, default := r.bb 2 0 3, pcp := (List.range 8).map fun p => r.bb (4 + p) 0 3,
                          dscp := (List.range 64).map fun d => r.bb (12 + d) 0 3 }
    ({ s with qos := { s.qos with maps := tset {} s.qos.maps (r.bb 0 0 4) m } }, okReply)

def execQosSetClassMap (r : Aci) (s : State) : Host.Outcome State Fault Refusal := .next (qosSetClassMapSpec.exec r s)

/-- The policer that a payload holds, with full buckets (R258, R281). -/
def policerOf (r : Req) : Policer :=
  { enable := r.fl 18 0, trTcm := r.fl 18 1, aware := r.fl 18 2, dscpSrc := r.fl 18 3, owner := r.fb 19 0 5
    yellowAct := r.fb 20 0 2, redAct := r.fb 20 2 2, demote := r.fb 21 0 3, cir := r.f 24 4, pir := r.f 28 4
    cbs := r.f 32 4, ebs := r.f 36 4, tc := r.f 32 4 * 100000, te := r.f 36 4 * 100000 }

/-- A rule names a policer. -/
def State.policerNamed (s : State) (n : Nat) : Bool :=
  s.fwd.tables.rules.any fun e => match e.2 with | some r => r.policer == some n | none => false

def qosPolicerWriteSpec : AciSpec where
  op := 0x0406
  lenOk := lenIs 40
  pf0Only := false
  modes := modesRun
  carried := true
  rsv := fun _ => [(2, 0xF0), (3, 0xE0), (4, 0xF0), (5, 0xF8), (6, 0xFF), (7, 0xFF)] ++ rsvRange 24 39
  par := fun r s =>
    let x := policerOf r
    let demotes := x.yellowAct == 2 || x.redAct == 2
    firstOf [
      badIf (decide (16 < x.owner) || x.yellowAct == 3 || x.redAct == 3 ||
        (if demotes then x.demote == 0 || x.demote == 7 else x.demote != 0) ||
        decide (800000000 < x.cir) || decide (800000000 < x.pir) || (!x.trTcm && x.pir != 0) ||
        decide (16777216 < x.cbs) || decide (16777216 < x.ebs)) 0x04,
      badIf (r.fn == 0 && x.owner != (s.policer (r.f 16 2)).owner && s.policerNamed (r.f 16 2)) 0x33,
      badIf (if x.trTcm then decide (x.pir < x.cir) || x.cbs == 0 || x.ebs == 0 else x.cbs == 0 && x.ebs == 0) 0x34]
  owned := fun r s => r.fb 19 0 5 + 1 == r.fn && (s.policer (r.f 16 2)).owner + 1 == r.fn
  effect := fun r s => ({ s with qos := { s.qos with policers := tset {} s.qos.policers (r.f 16 2) (policerOf r) } }, okReply)

def execQosPolicerWrite (r : Aci) (s : State) : Host.Outcome State Fault Refusal := .next (qosPolicerWriteSpec.exec r s)

/-- The QUEUE parameter (R282). -/
def queueArg (r : Req) : Nat := bits (r.f 16 2) 0 15

def qosQueueFlushSpec : AciSpec where
  op := 0x0407
  lenOk := lenIs 2
  pf0Only := false
  modes := modesRun
  carried := true
  rsv := fun _ => [(1, 0x80)]
  owned := fun r _ => ownBundle r.fn (queueArg r)
  avail := fun r s => badIf (s.isRadio (queueArg r / 128)) 0x30
  effect := fun r s =>
    let n := (s.queue (queueArg r)).items.length
    (s.flushQueue (queueArg r), okWith (leBytes 4 n ++ leBytes 20 0))

def execQosQueueFlush (r : Aci) (s : State) : Host.Outcome State Fault Refusal := .next (qosQueueFlushSpec.exec r s)

def qosQueueStatusSpec : AciSpec where
  op := 0x0408
  lenOk := lenIs 2
  pf0Only := false
  modes := modesRead345
  rsv := fun _ => [(1, 0x80)]
  owned := fun r _ => ownBundle r.fn (queueArg r)
  avail := fun r s => badIf (s.isRadio (queueArg r / 128)) 0x30
  effect := fun r s =>
    let q := queueArg r
    let x := s.queue q
    let sh := s.shaper 0 q
    (s, okWith (leBytes 4 (s.qCells q) ++ leBytes 4 x.items.length ++ leBytes 2 (s.qLimits q).limit ++
      leBytes 1 (b2n x.launchEn + 2 * b2n x.launchLate + 4 * b2n sh.enable + 8 * b2n (s.eligible q).isSome) ++ [0] ++
      sleBytes 4 (truncDiv sh.credit 100000) ++ leBytes 8 0))

def execQosQueueStatus (r : Aci) (s : State) : Host.Outcome State Fault Refusal := .next (qosQueueStatusSpec.exec r s)

def qosCisternStatusSpec : AciSpec where
  op := 0x0409
  modes := modesRead345
  effect := fun _ s =>
    (s, okWith (leBytes 4 s.usable ++ leBytes 4 (s.limitSum s.qos.limits) ++ leBytes 4 s.freeCells ++
      leBytes 2 (min s.qos.retired.length 65535) ++ leBytes 1 s.qos.sparesUsed ++ leBytes 1 s.qos.banksRemoved ++
      leBytes 4 s.assignable ++ leBytes 4 0))

def execQosCisternStatus (r : Aci) (s : State) : Host.Outcome State Fault Refusal := .next (qosCisternStatusSpec.exec r s)

end Sys2Proof.Machine
end

