-- ==== Sys2Proof/Machine/Observe.lean ====
section
/-! DEFINITION. Tests by command (R638 to R641), snapshots (R642 to R649) and the Trace Port (R650 to R654). -/

namespace Sys2Proof.Machine

/-! ### Tests by command -/

/-- Budget of the test of a slice in ns (R627). -/
def budgetNs (kind : Nat) : Nat :=
  [0, 1500000000, 120000000, 1200000000, 100000000, 100000000, 20000000, 5000000, 40000000, 2000000, 20000000, 20000000,
    5000000000, 500000000].getD kind 0

/-- Ports on which a slice of KIND 6 or 7 bears. -/
def State.slicePorts (s : State) (kind slice : Nat) : List Nat :=
  if kind = 6 then s.portsOnLane slice else if kind = 7 then [slice] else []

/-- Isolate a slice, or let it go (R628). -/
def State.isolate (s : State) (kind slice : Nat) (on : Bool) : State :=
  match kind with
  | 1 => { s with ports := { s.ports with pipeReset := tset false s.ports.pipeReset slice on } }
  | 6 => { s with ports := { s.ports with laneReset := tset false s.ports.laneReset slice on } }
  | 7 => s.modPort slice fun x => { x with inReset := on }
  | _ => s

/-- A slice is re-initialised after its test (R628): a pipe takes its tables from the firmware shadow, which holds no learned
entry; a Node Store bank returns to its reset state, without records. -/
def State.reinit (s : State) (kind slice : Nat) : State :=
  match kind with
  | 1 => s.resetPipe slice
  | 11 => { s with mesh := { s.mesh with nodes := s.mesh.nodes.filter fun e => e.1 / 4096 != slice } }
  | _ => s

def bistRunSpec : AciSpec where
  op := 0x0B01
  lenOk := lenIs 4
  modes := modesSet
  carried := true
  rsv := fun _ => [(1, 0xFF)]
  par := fun r _ =>
    let k := r.f 16 1
    firstOf [badIf (k == 8 || k == 12) 0xB0, badIf (decide (sliceCount k ≤ r.f 18 2)) 0x04]
  avail := fun r s =>
    failIf ((s.slicePorts (r.f 16 1) (r.f 18 2)).any fun p => (s.portCfg p).adminUp) stBusy 0x02
  modeOk := fun r s => r.f 16 1 == 6 || r.f 16 1 == 7 || s.ms.mode == .m7
  accepts := fun _ _ => true
  effect := fun r s =>
    let k := r.f 16 1
    let x : BistRun := { kind := k, slice := r.f 18 2, fn := r.fn, tag := r.tag, since := s.time.duration }
    let y := s.acceptRead r (budgetNs k + 100000000)
    let s := { s with bist := { s.bist with running := s.bist.running ++ [x] } }
    (((s.isolate k (r.f 18 2) true).switchRings).count (.device .bistRuns), y)

def execBistRun (r : Aci) (s : State) : Host.Outcome State Fault Refusal := .next (bistRunSpec.exec r s)

/-- BIST_RUN_DONE: the test that began first has ended. RESULT is 0 for a pass, 2 when its budget had run out, else 1. -/
def execBistRunDone (pass : Bool) (s : State) : Host.Outcome State Fault Refusal :=
  .next (match s.bist.running with
    | [] => s
    | x :: l =>
      let late := decide (8 * budgetNs x.kind < 5 * (s.time.duration - x.since))
      let result := if late then 2 else if pass then 0 else 1
      let s := { s with bist := { s.bist with running := l } }
      let s := ((s.isolate x.kind x.slice false).reinit x.kind x.slice).switchRings
      let s := if result = 0 then s else (s.bistEntry 0x0C03 x.kind x.slice 0 result).count (.device .bistFails)
      s.complete x.fn x.tag 0x0B01 0 0 [BitVec.ofNat 8 result])

/-- Slices of a KIND that are usable. -/
def State.usableSlices (s : State) (k : Nat) : List Nat :=
  (List.range (sliceCount k)).filter fun i => !s.bist.unusable.contains (k, i)

/-- A bitmap of `n` bytes. -/
def bitmap (n : Nat) (l : List Nat) : Bytes :=
  (List.range n).map fun b => BitVec.ofNat 8 (sumNat ((List.range 8).map fun i => if l.contains (8 * b + i) then 2 ^ i else 0))

def bistStatusSpec : AciSpec where
  op := 0x0B02
  lenOk := lenIs 1
  buffer := true
  inlinePl := true
  modes := modesAll
  par := fun r _ => badIf (sliceCount (r.f 16 1) == 0) 0x04
  effect := fun r s =>
    let k := r.f 16 1
    let l := s.usableSlices k
    (s, okWith (leBytes 2 (sliceCount k) ++ leBytes 2 l.length ++
      leBytes 2 (s.bist.spared.filter fun y => y.1 == k).length ++ [0, 0] ++ bitmap 64 l))

def execBistStatus (r : Aci) (s : State) : Host.Outcome State Fault Refusal := .next (bistStatusSpec.exec r s)

def bistConfigSpec : AciSpec where
  op := 0x0B03
  lenOk := lenIs 2
  modes := modesSet
  carried := true
  par := fun r _ => badIf (r.f 16 2 != 0 && (decide (r.f 16 2 < 10) || decide (1440 < r.f 16 2))) 0x04
  effect := fun r s => (s.store fun c => { c with pipeTestMin := r.f 16 2 }, okReply)

def execBistConfig (r : Aci) (s : State) : Host.Outcome State Fault Refusal := .next (bistConfigSpec.exec r s)

/-! ### Snapshots -/

/-- A take (R644): every counter at one beat, or TAKE_IGNORED while one is being copied. -/
def State.take (s : State) : State :=
  let s := s.gauge .freeCells s.freeCells
  if s.snap.busy then { s with snap := { s.snap with ignored := true } }
  else
    let s := s.gauge .freeCells s.freeCells
    { s with snap := { s.snap with busy := true, taken := s.ctr, takenS := (s.now 0).1, takenNs := (s.now 0).2 } }

/-- A write to SNAP_CTRL. -/
def State.writeSnapCtrl (s : State) (word : Nat) : State := if bit word 0 then s.take else s

def execSnapTake (word : BitVec 32) (s : State) : Host.Outcome State Fault Refusal :=
  .next (if s.answers then s.writeSnapCtrl word.toNat else s)

/-- SNAPSHOT_PERIOD_EXPIRY (R643): a periodic take. -/
def execSnapshotPeriodExpiry (s : State) : Host.Outcome State Fault Refusal :=
  .next (if s.ms.mode = .m0 ∨ s.snap.period = 0 then s else s.take)

/-- SNAPSHOT_PUBLISHED (R644, R648): the copy shows whole, SNAP_SEQ increments, and the commands that waited for it complete.
The lag of the firmware-kept counters is open within its bound (log entry 3). -/
def execSnapshotPublished (s : State) : Host.Outcome State Fault Refusal :=
  .next (if !s.snap.busy then s
    else
      let z := s.draw
      let s := z.2
      let seq := s.snap.seq + 1
      let wait := s.snap.waiting
      let s := { s with snap := { s.snap with
        busy := false, valid := true, seq := seq, timeS := s.snap.takenS, timeNs := s.snap.takenNs, lagUs := z.1 % 1001,
        published := s.snap.taken, waiting := [] } }
      wait.foldl (fun s r => s.answerLater r (okWith (leBytes 4 seq.toNat))) (s.count (.device .snapshots)))

def observeSnapshotSpec : AciSpec where
  op := 0x0D01
  pf0Only := false
  modes := modesAll
  effect := fun r s =>
    let s := if s.snap.busy then s else s.take
    ({ s with snap := { s.snap with waiting := s.snap.waiting ++ [r] } }, { okReply with deferred := true })

def execObserveSnapshot (r : Aci) (s : State) : Host.Outcome State Fault Refusal := .next (observeSnapshotSpec.exec r s)

/-- Counters per instance of the block that a request names. -/
def perInstance (b : Nat) : Nat := match ctrBlock b with | some x => x.2.1 | none => 0
def instances (b : Nat) : Nat := match ctrBlock b with | some x => x.1 | none => 0

/-- A VF owns an instance of a block (R649). -/
def State.ownsInstance (s : State) (fn b i : Nat) : Bool :=
  match b with
  | 7 => ownBundle fn i
  | 8 => (s.policer i).owner + 1 == fn
  | 11 => s.ownsSite fn i
  | 12 => s.ownsSite fn (i / 257 / 3)
  | 13 => s.ownsDomain fn i
  | 17 => i + 1 == fn
  | _ => true

/-- Slots of a block as published. -/
def State.publishedSlots (s : State) (b first n : Nat) : Bytes :=
  let per := perInstance b
  (List.range (n * per)).flatMap fun i => leBytes 8 (tget 0 s.snap.published (ctrSlotAt b (first + i / per) (i % per)))

def observeCountersSpec : AciSpec where
  op := 0x0D02
  lenOk := lenIs 12
  buffer := true
  pf0Only := false
  modes := modesAll
  rsv := fun _ => [(1, 0xFF), (2, 0xFF), (3, 0xFF), (10, 0xFF), (11, 0xFF)]
  par := fun r _ =>
    let n := r.b 8 2
    badIf (n == 0 || decide (65535 < 16 + 8 * n * perInstance (r.b 0 1)) || decide (instances (r.b 0 1) < r.b 4 4 + n)) 0x04
  avail := fun _ s => failIf (!s.snap.valid) stNoResource 0xD0
  denied := fun r s =>
    firstOf [
      failIf (r.fn != 0 && [1, 2, 3, 4, 5, 6, 9, 10, 14, 15, 16, 18].contains (r.b 0 1)) stDenied 0x01,
      failIf (r.fn != 0 && (List.range (r.b 8 2)).any fun i => !s.ownsInstance r.fn (r.b 0 1) (r.b 4 4 + i)) stDenied 0x02]
  effect := fun r s =>
    (s, okWith (leBytes 4 s.snap.seq.toNat ++ leBytes 6 s.snap.timeS ++ leBytes 4 s.snap.timeNs ++ [0, 0] ++
      s.publishedSlots (r.b 0 1) (r.b 4 4) (r.b 8 2)))

def execObserveCounters (r : Aci) (s : State) : Host.Outcome State Fault Refusal := .next (observeCountersSpec.exec r s)

/-! ### The Trace Port -/

/-- Sample `i` of a request. -/
def traceSampleOf (r : Req) (i : Nat) : TraceSample :=
  { block := r.b (16 + 16 * i) 1, index := r.b (17 + 16 * i) 1, inst := r.b (20 + 16 * i) 4, periodUs := r.b (24 + 16 * i) 4 }

def TraceSample.bad (x : TraceSample) : Bool :=
  decide (instances x.block ≤ x.inst) || decide (perInstance x.block ≤ x.index) || decide (x.periodUs < 10) ||
    decide (1000000 < x.periodUs)

def traceCfgOf (r : Req) : TraceCfg :=
  { enable := r.bl 0 0, fwEn := r.bl 0 1, modeEn := r.bl 0 2, slotEn := r.bl 0 3, fwLevel := r.bb 1 0 2, dest := slice r.pl 2 6,
    rtcPeriodMs := r.b 8 2, samples := (List.range (r.bb 10 0 7)).map (traceSampleOf r) }

def observeTraceConfigSpec : AciSpec where
  op := 0x0D03
  lenOk := fun n b => n == 16 + 16 * (byteAt b 10 % 128)
  buffer := true
  modes := modesAll
  rsv := fun b => [(0, 0xF0), (1, 0xFC), (10, 0x80), (11, 0xFF), (12, 0xFF), (13, 0xFF), (14, 0xFF), (15, 0xFF)] ++
    (List.range (byteAt b 10 % 128)).flatMap fun i => [2, 3, 12, 13, 14, 15].map fun k => (16 + 16 * i + k, 0xFF)
  par := fun r _ =>
    badIf (decide (60000 < r.b 8 2) || decide (64 < r.bb 10 0 7) || (traceCfgOf r).samples.any TraceSample.bad) 0x04
  effect := fun r s =>
    let now := s.time.duration
    let s := s.store fun c => { c with own := { c.own with trace := traceCfgOf r } }
    ({ s with trace := { s.trace with sampledAt := (List.range 65).foldl (fun t i => tset 0 t i now) [] } }, okReply)

def execObserveTraceConfig (r : Aci) (s : State) : Host.Outcome State Fault Refusal :=
  .next (observeTraceConfigSpec.exec r s)

/-- Take sample `i` when its period, in counts of the duration counter, has run out. -/
def State.sampleDue (s : State) (i period : Nat) (body : State → Bytes) (type : Nat) : State :=
  if period = 0 ∨ s.time.duration < tget 0 s.trace.sampledAt i + period then s
  else
    let s := { s with trace := { s.trace with sampledAt := tset 0 s.trace.sampledAt i s.time.duration } }
    s.traceRecord type (body s)

/-- An RTC sample (R154, R652): its high half is taken later than its low half; whether a tick falls between is free (log entry 65). -/
def rtcSample (count free : Nat) : Bytes := leBytes 4 count ++ leBytes 4 ((count + free % 2) / 2 ^ 32)

/-- Counters of 64 bits by block and index (the tables of R645). -/
def wideCtrs : List (Nat × List Nat) :=
  [(1, [0, 1, 8, 9, 20, 21]), (2, [0]), (5, [0]), (7, [0, 1]), (8, [0, 1, 2, 3]), (11, [0, 1, 2, 3, 11, 16, 19, 20, 22]), (12, [1]),
   (13, [0, 1, 2, 3, 6]), (15, [0]), (17, [0, 1]), (18, [14, 15, 16])]

/-- A sample of a counter (R652): bits [63:32] are read later than bits [31:0]; how far a wide counter has gone on by then is
free, below 2^32 (log entry 65). -/
def ctrSample (block idx v free : Nat) : Bytes :=
  let wide := wideCtrs.any fun e => e.1 == block && e.2.contains idx
  leBytes 4 v ++ leBytes 4 (if wide then (v + free % 2 ^ 32) / 2 ^ 32 else 0)

/-- TRACE_SAMPLE_TIMER (R652, R654): a record of the RTC, and of each counter sample, whose period has run out. -/
def execTraceSampleTimer (s : State) : Host.Outcome State Fault Refusal :=
  let c := s.cfg.own.trace
  .next (if s.ms.mode = .m0 ∨ !c.enable then s
    else
      let s := s.gauge .freeCells s.freeCells
      let z := s.draw
      let s := z.2.sampleDue 0 (1600000 * c.rtcPeriodMs) (fun s => rtcSample s.time.rtc.count.toNat z.1) 1
      ((List.range c.samples.length).zip c.samples).foldl (fun s x =>
        let z := s.draw
        z.2.sampleDue (x.1 + 1) (1600 * x.2.periodUs) (fun s =>
          leBytes 1 x.2.block ++ leBytes 1 x.2.index ++ leBytes 4 x.2.inst ++
            ctrSample x.2.block x.2.index (tget 0 s.ctr (ctrSlotAt x.2.block x.2.inst x.2.index)) z.1) 2) s)

/-- SERVICE_MAC in transmission order (R596, R681). -/
def State.serviceMac (s : State) : Bytes := leBytes 6 s.nv.fuses.serviceMac.toNat

/-- TRACE_FRAME_SEND (R651): up to 46 records leave in one frame, padded to the Ethernet minimum. -/
def execTraceFrameSend (s : State) : Host.Outcome State Fault Refusal :=
  let l := s.trace.records.take 46
  .next (if l.isEmpty then s
    else
      let head := leBytes 4 s.trace.seq.toNat ++ leBytes 1 (l.length + 64 * b2n s.pins.pairId) ++ [0, 0, 0]
      let frame := s.cfg.own.trace.dest ++ s.serviceMac ++ [0x88, 0xB6] ++ head ++ l.flatten
      { s with trace := { s.trace with
          records := s.trace.records.drop 46, seq := s.trace.seq + 1, sent := fit (max 60 frame.length) frame :: s.trace.sent } })

end Sys2Proof.Machine
end

