-- ==== Sys2Proof/Machine/PairCmds.lean ====
section
/-! DEFINITION. The Pair Link's lanes and going down, synchronisation dropped, a partner lost, the swap and its abort (R539,
R542, R566, R570, R573, R576 to R580), and the PAIR commands (R585 to R591). -/

namespace Sys2Proof.Machine

/-! ### The link and synchronisation -/

/-- LANES_UP (R539, R584): all eight, the group of four that is intact, or none. -/
def Pair.lanesUp (p : Pair) : Nat :=
  let bad := p.laneFailed.toNat
  if !p.linkUp then 0 else if bad = 0 then 0xFF else if bad % 16 = 0 then 0x0F else if bad / 16 = 0 then 0xF0 else 0

/-- The standby drops SYNCED (R570): it starts again from phase `restart`, at once or when it can; SYNC_LOST is written for
a reason. -/
def State.dropSync (s : State) (reason restart : Nat) (now : Bool) : State :=
  if s.pair.phase = 0 then s
  else
    let was := s.ms.synced
    let s := { s with ms := { s.ms with synced := false } }
    let s := s.modPair fun p =>
      { p with phase := if now then restart else 0, resumeAt := restart, agreed := 0, testing := none, rejoining := none,
               mismatchTold := false, shadow := [], arrived := [], syncLost := p.syncLost || (was && reason != 0) }
    if was && reason != 0 then s.pairEntry 0x0304 reason 0 0 0 else s

/-! ### Losing the partner, and swaps -/

/-- T13 with PARTNER_LOST (R573): reason 1 ALIVE_IN, 2 link, 3 mode. -/
def State.partnerLost (s : State) (reason : Nat) : State :=
  if s.ms.mode = .m4 ∧ !s.ms.inTransition then
    let s := (s.modPair fun p => { p with partnerLost := true, peerSynced := false, peerPhase := 0, check := none, agreement := none }).pairEntry
      0x0309 reason 0 0 0
    let z := s.drawOctets 16
    (z.2.modPair fun p => { p with seed := z.1, generated := [] }).changeMode .m3 13
  else s

/-- An aborted swap (R580): `kind` 1 before t0, 2 after. In M6 by T17 to the mode that was left; before M6 the agreement
lapses. -/
def State.abortSwap (s : State) (kind : Nat) : State :=
  if s.pair.agreement.isNone || s.ms.inTransition then s
  else
    let s := (s.modPair fun p => { p with agreement := none, radioHold := none }).count (.device .equinoxAborts)
    let s :=
      if s.ms.mode = .m6 then
        let back := s.pair.wasActive
        let s := { s with pins := { s.pins with activeOut := back } }
        (s.modPair fun p => { p with swapped := false }).changeMode (if back then .m4 else .m5) 17
      else s
    s.pairEntry 0x030C kind 0 0 0

/-- A cause of R580 for an abort before t0. -/
def State.abortBefore (s : State) : State := if s.pair.swapped then s else s.abortSwap 1

/-- Seconds of the next Ts (R576): the first at or after TB0's present value. -/
def State.nextTs (s : State) : Nat :=
  let c := s.cfg.pair
  let now := (s.ns 0 + 999999999) / 1000000000
  let period := c.hours * 3600
  if now ≤ c.anchor ∨ period = 0 then c.anchor else c.anchor + period * ((now - c.anchor + period - 1) / period)

/-! ### The PAIR commands -/

def pairConfigSpec : AciSpec where
  op := 0x0A01
  lenOk := lenIs 16
  modes := modesSet
  carried := true
  rsv := fun _ => [(0, 0xFC), (10, 0xFF), (11, 0xFF), (12, 0xFF), (13, 0xFF), (14, 0xFF), (15, 0xFF)]
  par := fun r _ => badIf (r.f 17 1 == 0 || r.f 18 2 == 0 || decide (720 < r.f 18 2)) 0xA0
  effect := fun r s =>
    let x : PairCfg := { pairingEn := r.fl 16 0, equinoxEn := r.fl 16 1, unexplainedLimit := r.f 17 1, hours := r.f 18 2, anchor := r.f 20 6 }
    (s.store fun c => { c with pair := x }, okReply)

def execPairConfig (r : Aci) (s : State) : Host.Outcome State Fault Refusal := .next (pairConfigSpec.exec r s)

/-- ROLE (R584): 0 unpaired, 1 active, 2 standby, 3 swapping. -/
def State.role (s : State) : Nat :=
  match s.ms.mode with
  | .m4 => 1
  | .m5 => if s.pair.formed then 2 else 0
  | .m6 => 3
  | _ => 0

/-- PAIR_STATUS (R584). -/
def State.pairStatus (s : State) : Nat :=
  let p := s.pair
  s.role + 4 * b2n s.pins.pairId + 8 * b2n s.pins.activeOut + 16 * b2n s.pins.activeIn + 32 * b2n s.pins.aliveOut +
    64 * b2n s.pins.aliveIn + 128 * b2n p.linkUp + 256 * p.lanesUp + 65536 * b2n s.ms.synced + 131072 * (p.phase % 8) +
    1048576 * (p.refused % 4) + 4194304 * b2n p.check.isSome + 8388608 * b2n p.hold

/-- LAST_ARB (R584). -/
def Pair.lastArbWord (p : Pair) : Nat := p.lastArb.1 % 8 + 256 * (p.lastArb.2.1 % 256) + 65536 * (p.lastArb.2.2 % 65536)

/-- The next Ts as the PAIR block shows it: while pairing is enabled. -/
def State.nextEqx (s : State) : Nat := if s.cfg.pair.pairingEn then s.nextTs else 0

def pairGetStatusSpec : AciSpec where
  op := 0x0A02
  pf0Only := false
  modes := modesAll
  effect := fun _ s =>
    let ns := match s.pair.agreement with | some a => a.2 | none => 0
    (s, okWith (leBytes 4 s.pairStatus ++ leBytes 4 s.pair.release ++ leBytes 6 s.nextEqx ++ leBytes 4 ns ++
      leBytes 2 s.pair.unexplained.toNat ++ leBytes 4 s.pair.lastArbWord))

def execPairGetStatus (r : Aci) (s : State) : Host.Outcome State Fault Refusal := .next (pairGetStatusSpec.exec r s)

def pairEquinoxSpec : AciSpec where
  op := 0x0A03
  lenOk := lenIs 1
  modes := [.m4]
  carried := true
  rsv := fun _ => [(0, 0xFC)]
  par := fun r _ => badIf (r.fb 16 0 2 == 3) 0xA0
  effect := fun r s =>
    let a := r.fb 16 0 2
    let s := s.modPair fun p =>
      if a = 0 then { p with skipNext := true } else { p with hold := a == 1 }
    (if a = 1 then s.abortBefore else s, okReply)

def execPairEquinox (r : Aci) (s : State) : Host.Outcome State Fault Refusal := .next (pairEquinoxSpec.exec r s)

/-- The trims of PAIR_LANE_TRIM. -/
def trimAt (r : Req) (i : Nat) : Int := r.bs (4 + i) 1

/-- PAIR_LANE_TRIM (R590). Bits above the two fields of bytes 0 to 3, which no rule names, are taken as reserved (DESIGN CHOICE, log
entry 129). -/
def pairLaneTrimSpec : AciSpec where
  op := 0x0A04
  lenOk := fun n b => n == 4 + leAt b 2 2 % 1024
  buffer := true
  modes := modesRead
  rsv := fun _ => [(1, 0xFE), (3, 0xFC)]
  par := fun r _ =>
    let n := r.b 2 2 % 1024
    badIf (n == 0 || decide (512 < n) || decide (512 < r.b 0 2 % 512 + n) ||
      (List.range n).any (fun i => decide (trimAt r i < -32) || decide (31 < trimAt r i))) 0xA0
  effect := fun r s =>
    let trims (t : Tab Int) : Tab Int :=
      (List.range (r.b 2 2 % 1024)).foldl (fun t i => tset 0 t (r.b 0 2 % 512 + i) (trimAt r i)) t
    (s.store fun c => { c with own := { c.own with trims := trims c.own.trims } }, okReply)

def execPairLaneTrim (r : Aci) (s : State) : Host.Outcome State Fault Refusal := .next (pairLaneTrimSpec.exec r s)

def pairClearSpec : AciSpec where
  op := 0x0A05
  modes := modesRead
  effect := fun _ s => (s.modPair fun p => { p with unexplained := 0, alert := false }, okReply)

def execPairClear (r : Aci) (s : State) : Host.Outcome State Fault Refusal := .next (pairClearSpec.exec r s)

/-- The phase of the standby of the pair, on either device. -/
def State.standbyPhase (s : State) : Nat := if s.follows then s.pair.phase else s.pair.peerPhase

/-- The pair has a standby in M5, as either device sees it. -/
def State.hasStandby (s : State) : Bool := s.pair.formed && (s.ms.mode == .m5 || s.pair.peerMode == 5)

def pairResyncSpec : AciSpec where
  op := 0x0A06
  modes := [.m4]
  carried := true
  avail := fun _ s => failIf (s.hasStandby && decide (1 ≤ s.standbyPhase) && decide (s.standbyPhase ≤ 5)) stBusy 0x02
  modeOk := fun _ s => s.hasStandby
  effect := fun _ s =>
    if s.follows then (s.dropSync 4 3 true, okReply) else (s.modPair fun p => { p with peerPhase := 3, peerSynced := false }, okReply)

def execPairResync (r : Aci) (s : State) : Host.Outcome State Fault Refusal := .next (pairResyncSpec.exec r s)

end Sys2Proof.Machine
end

