-- ==== Sys2Proof/Machine/PortCmds.lean ====
section
/-! DEFINITION. The PORT commands and the events of lanes, links, preemption and optics (spec/05_ports_and_lanes.md). -/

namespace Sys2Proof.Machine

/-- The pipe of a port is in block reset, so that a setting command meets BUSY (R170). -/
def State.portBusy (s : State) (p : Nat) : Bool := tget false s.ports.pipeReset (p / 32)

/-- BUSY and NO_RESOURCE of a setting command on ports (R170, R632). -/
def State.portAvail (s : State) (l : List Nat) : Chk :=
  firstOf [failIf (l.any s.portBusy) stBusy 0x02, failIf (l.any s.pipeRemoved) stNoResource 0xB0]

/-! ### PORT_SET_SPEED (R156 to R158, R171, R172) -/

/-- Tile-local lanes of a mode from a first lane. -/
def laneGroup (mode first : Nat) : List Nat := (List.range (modeLanes mode).1).map (first + ·)

/-- Family P (true) or N of a mode (R156). -/
def familyP (mode : Nat) : Bool := decide (50 ≤ (modeLanes mode).2)

/-- The other ports of a tile that hold lanes: their mode and lanes. -/
def State.tilePorts (s : State) (p : Nat) : List (Nat × List Nat) :=
  ((List.range 32).map (32 * (p / 32) + ·)).filterMap fun q =>
    let c := s.portCfg q
    if q = p ∨ c.mode = 0 then none else some (c.mode, laneGroup c.mode c.firstLane)

/-- A quad of the new lanes belongs to the other family (R156). -/
def State.quadClash (s : State) (p mode first : Nat) : Bool :=
  (s.tilePorts p).any fun q => familyP q.1 != familyP mode &&
    q.2.any fun l => (laneGroup mode first).any fun m => l / 4 == m / 4

/-- A lane belongs to another port (R157). -/
def State.laneClash (s : State) (p mode first : Nat) : Bool :=
  (s.tilePorts p).any fun q => q.2.any fun l => (laneGroup mode first).contains l

/-- FIRST_LANE is not aligned, or the group runs beyond lane 63 (R157). -/
def laneMisaligned (mode first : Nat) : Bool :=
  let n := (modeLanes mode).1
  n != 0 && (first % n != 0 || decide (64 < first + n))

/-- Changes of the cut-through pairs of a port that still wait fall away with the pairs. -/
def State.cutEnds (s : State) (p : Nat) : State :=
  { s with ports := { s.ports with cutWait := s.ports.cutWait.filter fun e => e.1 / 256 != p && e.1 % 256 != p } }

def portSetSpeedSpec : AciSpec where
  op := 0x0201
  lenOk := lenIs 6
  modes := modesSet
  carried := true
  rsv := fun _ => [(1, 0xF0), (2, 0xC0), (3, 0xFC)]
  par := fun r s =>
    let p := r.f 16 1
    let mode := r.fb 17 0 4
    let first := r.fb 18 0 6
    let an := r.fl 19 1
    let mf := r.f 20 2
    firstOf [
      badIf (decide (10 < mode) || decide (mf < 1518) || decide (12288 < mf)) 0x04,
      badIf (s.quadClash p mode first) 0x10,
      badIf (s.laneClash p mode first) 0x11,
      badIf (laneMisaligned mode first) 0x12,
      badIf (((s.portSite p).isSome && mode != 2 && mode != 5) ||
        (an && ((s.ringOf p).isSome || decide (mode ≤ 1)))) 0x13]
  avail := fun r s =>
    let p := r.f 16 1
    let c := s.portCfg p
    firstOf [
      failIf ((s.ringOf p).isSome && (c.mode != r.fb 17 0 4 || c.firstLane != r.fb 18 0 6)) stBusy 0x02,
      s.portAvail [p]]
  effect := fun r s =>
    let p := r.f 16 1
    let old := s.portCfg p
    let new := { old with mode := r.fb 17 0 4, firstLane := r.fb 18 0 6, adminUp := r.fl 19 0, anEn := r.fl 19 1,
                          maxFrame := r.f 20 2 }
    let relane := new.mode != old.mode || new.firstLane != old.firstLane || new.anEn != old.anEn
    let s := if relane then (s.takeDown p 8).flushPort p else s
    let s := s.store fun c => { c with
      ports := tset {} c.ports p new
      cutThrough := if new.maxFrame != old.maxFrame then
          c.cutThrough.filter fun e => e.1 / 256 != p && e.1 % 256 != p else c.cutThrough }
    let s := if new.maxFrame != old.maxFrame then s.cutEnds p else s
    let s := if !new.adminUp then (s.modSched p fun c => { c with downDue := true }).frameBoundary p else s
    (if relane then s.repath p else s, okReply)

def execPortSetSpeed (r : Aci) (s : State) : Host.Outcome State Fault Refusal := .next (portSetSpeedSpec.exec r s)

/-- PORT_SET_CUT_THROUGH (R173). Alone, the pair changes with the response; in a pair, as both devices run the command (DEDUCED, log
entry 133). -/
def portSetCutThroughSpec : AciSpec where
  op := 0x0202
  lenOk := lenIs 3
  modes := modesSet
  carried := true
  rsv := fun _ => [(2, 0xFE)]
  par := fun r s =>
    let i := r.f 16 1
    let e := r.f 17 1
    firstOf [
      badIf (i == e) 0x04,
      badIf (r.fl 18 0 && (s.portCfg i).maxFrame != (s.portCfg e).maxFrame) 0x16,
      badIf ((s.portSite i).isSome || (s.portSite e).isSome) 0x13]
  avail := fun r s => s.portAvail [r.f 16 1, r.f 17 1]
  effect := fun r s =>
    let pair := 256 * r.f 16 1 + r.f 17 1
    let was := tget false s.cfg.cutThrough pair
    let t := s.store fun c => { c with cutThrough := tset false c.cutThrough pair (r.fl 18 0) }
    (if s.ms.mode == .m3 && !s.unstored then { t with ports := { t.ports with cutWait := t.ports.cutWait ++ [(pair, was)] } } else t,
      okReply)

def execPortSetCutThrough (r : Aci) (s : State) : Host.Outcome State Fault Refusal :=
  .next (portSetCutThroughSpec.exec r s)

def portSetPreemptSpec : AciSpec where
  op := 0x0203
  lenOk := lenIs 3
  modes := modesSet
  carried := true
  rsv := fun _ => [(1, 0xF0)]
  par := fun r s => firstOf [
    badIf (s.portSite (r.f 16 1)).isSome 0x13,
    badIf (r.f 18 1 == 0 || decide (128 < r.f 18 1)) 0x04]
  avail := fun r s => s.portAvail [r.f 16 1]
  effect := fun r s =>
    let p := r.f 16 1
    let s := s.store fun c => { c with ports := tmod {} c.ports p fun x =>
      { x with preEnable := r.fl 17 0, preVerify := r.fl 17 1, addFrag := r.fb 17 2 2, verifyMs := r.f 18 1 } }
    ((s.modSched p fun c => { c with preDue := true }).frameBoundary p, okReply)

def execPortSetPreempt (r : Aci) (s : State) : Host.Outcome State Fault Refusal := .next (portSetPreemptSpec.exec r s)

/-! ### PORT_SET_RADIO (R175) -/

/-- As a port becomes a radio port or is released, its queues take other limits, and the sum of Q_LIMIT would exceed ASSIGNABLE
(R250, R273; log entry 121). -/
def State.overRadio (s : State) (p : Nat) (enable : Bool) : Bool :=
  (s.portSite p).isSome != enable &&
    decide (s.assignable + s.portFactorySum p <
      s.limitSum (s.qos.limits.filter fun e => e.1 / 128 != p) + (if enable then 1088 else 768 + 112 * s.bundleLimit))

def portSetRadioSpec : AciSpec where
  op := 0x0204
  lenOk := lenIs 2
  modes := modesSet
  carried := true
  par := fun r s =>
    let p := r.f 16 1
    let site := r.fb 17 0 7
    let c := s.portCfg p
    let own := s.portSite p
    if r.fl 17 7 then
      firstOf [
        badIf (decide (95 < site)) 0x04,
        badIf ((c.mode != 2 && c.mode != 5) || (s.ringOf p).isSome) 0x13,
        badIf ((s.ptpInstance p).isSome || (s.sitePort site).isSome) 0x11,
        badIf (own.isSome && own != some site) 0x04,
        badIf (own.isNone && decide (16384 < s.syncTotal 0 (s.ptpCfg 0) + 16)) 0x04]
    else badIf (own.isSome && own != some site) 0x04
  avail := fun r s => firstOf [
    failIf (r.fl 17 7 && s.siteLoaded (r.fb 17 0 7)) stBusy 0x02, s.portAvail [r.f 16 1],
    failIf (s.overRadio (r.f 16 1) (r.fl 17 7)) stNoResource 0x30]
  effect := fun r s =>
    let p := r.f 16 1
    let site := r.fb 17 0 7
    let keep := s.qos.limits.filter fun e => e.1 / 128 != p
    if r.fl 17 7 then
      let s := ((s.takeDown p 8).cutEnds p).siteFresh site
      let s := { s with qos := { s.qos with limits := keep } }
      (s.store fun c => { c with
          ports := tmod {} c.ports p fun x => { x with site := some site, maxFrame := 9600, preEnable := false }
          portTime := tmod {} c.portTime p fun x => { x with tb := 0 }
          cutThrough := c.cutThrough.filter fun e => e.1 / 256 != p && e.1 % 256 != p }, okReply)
    else if (s.portSite p).isNone then (s, okReply)
    else
      let s := s.siteOut site 7
      let s := { s with qos := { s.qos with limits := keep } }
      (s.store fun c => { c with ports := tmod {} c.ports p fun x => { x with site := none } }, okReply)

def execPortSetRadio (r : Aci) (s : State) : Host.Outcome State Fault Refusal := .next (portSetRadioSpec.exec r s)

/-! ### PORT_RING_PAIR (R177) -/

def portRingPairSpec : AciSpec where
  op := 0x0205
  lenOk := lenIs 4
  modes := modesSet
  carried := true
  rsv := fun _ => [(0, 0x70), (3, 0xFF)]
  par := fun r s =>
    let e := r.f 17 1
    let w := r.f 18 1
    let ce := s.portCfg e
    let cw := s.portCfg w
    let k := r.fb 16 0 4
    let elsewhere (p : Nat) : Bool := match s.ringOf p with | some x => x.1 != k | none => false
    if r.fl 16 7 then
      firstOf [
        badIf (e / 32 != w / 32 || e == w || modeLanes ce.mode != modeLanes cw.mode) 0x14,
        badIf (ce.site.isSome || cw.site.isSome || ce.anEn || cw.anEn || elsewhere e || elsewhere w) 0x15]
    else none
  avail := fun r s =>
    if r.fl 16 7 then firstOf [
      failIf (tget none s.cfg.rings (r.fb 16 0 4)).isSome stBusy 0x02, s.portAvail [r.f 17 1, r.f 18 1]]
    else none
  effect := fun r s =>
    let k := r.fb 16 0 4
    let v := if r.fl 16 7 then some (r.f 17 1, r.f 18 1) else none
    ((s.store fun c => { c with rings := tset none c.rings k v }).setRings, okReply)

def execPortRingPair (r : Aci) (s : State) : Host.Outcome State Fault Refusal := .next (portRingPairSpec.exec r s)

/-! ### PORT_GET_STATUS (R188) -/

def State.portStatus (s : State) (p : Nat) : Bytes :=
  let c := s.portCfg p
  let x := s.portSt p
  let ring := s.ringOf p
  let role := if c.site.isSome then 1 else match ring with | some (_, false) => 2 | some (_, true) => 3 | none => 0
  let pass := match ring with | some (k, _) => tget false s.ports.passThrough k | none => false
  let locked := (List.range (modeLanes c.mode).1).foldl
    (fun acc i => acc + 2 ^ i * b2n (tget false s.ports.laneLocked (64 * (p / 32) + c.firstLane + i))) 0
  let cage := s.portCage p
  leBytes 1 (b2n x.linkUp + 2 * b2n x.localFault + 4 * b2n x.remoteFault + 8 * b2n x.preActive + 16 * role + 64 * b2n pass) ++
    leBytes 1 c.mode ++ leBytes 1 c.firstLane ++ leBytes 1 locked ++
    leBytes 1 (cage.getD 0x7F + 128 * b2n (match cage with | some g => (s.cageSt g).fault | none => false)) ++
    leBytes 1 (match c.site, ring with | some n, _ => n | none, some (k, _) => k | none, none => 0) ++
    leBytes 2 c.maxFrame ++ List.replicate 16 0

def portGetStatusSpec : AciSpec where
  op := 0x0206
  lenOk := lenIs 1
  modes := modesAll
  effect := fun r s => (s, okWith (s.portStatus (r.f 16 1)))

def execPortGetStatus (r : Aci) (s : State) : Host.Outcome State Fault Refusal := .next (portGetStatusSpec.exec r s)

/-! ### PORT_OPTICS_MAP (R181) -/

/-- Entry `c` of the cage map in the buffer; none when not VALID. -/
def cageOf (r : Req) (c : Nat) : Option Cage :=
  let o := 8 * c
  if r.bl o 4 then
    some { master := r.bb o 0 4, muxAddr := r.bb (o + 1) 0 7, muxChannel := r.bb (o + 2) 0 3, resetGpio := r.b (o + 3) 1,
           firstPort := r.b (o + 4) 1, portCount := r.bb (o + 5) 0 4, fast := r.bl (o + 5) 4, muxResetGpio := r.b (o + 6) 1 }
  else none

/-- A GPIO number, or 0xFF for none. -/
def gpioOk (g : Nat) : Bool := decide (g ≤ 63) || g == 0xFF

def Cage.ranges (c : Cage) : Bool :=
  (c.muxAddr == 0 || (decide (0x70 ≤ c.muxAddr) && decide (c.muxAddr ≤ 0x77))) && gpioOk c.resetGpio &&
    gpioOk c.muxResetGpio && decide (1 ≤ c.portCount) && decide (c.portCount ≤ 8) && decide (c.firstPort + c.portCount ≤ 256)

/-- Two valid entries agree with the rules of R181: one multiplexer per master, no shared channel, one purpose a GPIO. -/
def Cage.agrees (a b : Cage) : Bool :=
  (if a.master = b.master then
      a.muxAddr == b.muxAddr && a.muxResetGpio == b.muxResetGpio && a.muxChannel != b.muxChannel
    else a.muxResetGpio == 0xFF || a.muxResetGpio != b.muxResetGpio) &&
    (a.resetGpio == 0xFF || (a.resetGpio != b.resetGpio && a.resetGpio != b.muxResetGpio)) &&
    (b.resetGpio == 0xFF || b.resetGpio != a.muxResetGpio)

/-- Every two entries of a list agree. -/
def pairwise {α : Type} (f : α → α → Bool) : List α → Bool
  | [] => true
  | a :: l => l.all (f a) && pairwise f l

def portOpticsMapSpec : AciSpec where
  op := 0x0207
  lenOk := lenIs 1024
  modes := modesSet
  carried := true
  rsv := fun _ => (List.range 128).flatMap fun c => [(8 * c, 0xE0), (8 * c + 1, 0x80), (8 * c + 2, 0xF8), (8 * c + 5, 0xE0), (8 * c + 7, 0xFF)]
  par := fun r _ =>
    let cages := (List.range 128).filterMap (cageOf r)
    firstOf [
      badIf (!cages.all Cage.ranges) 0x04,
      badIf (!(pairwise Cage.agrees cages && cages.all fun c => c.resetGpio == 0xFF || c.resetGpio != c.muxResetGpio)) 0x17]
  effect := fun r s =>
    let t := (List.range 128).foldl (fun t c => tset none t c (cageOf r c)) []
    let s' := s.store fun c => { c with cages := t }
    -- a cage that the map leaves as it was keeps its state, FAULT included (R185)
    let same (e : Nat × CageSt) : Bool := tget none s'.cfg.cages e.1 == tget none s.cfg.cages e.1
    let s' := { s' with ports := { s'.ports with cages := s.ports.cages.filter same } }
    -- a bus that the map brings in while the masters are driven is recovered before its first use
    (if s'.ports.driving then (List.range 16).foldl State.wakeBus s' else s', okReply)

def execPortOpticsMap (r : Aci) (s : State) : Host.Outcome State Fault Refusal := .next (portOpticsMapSpec.exec r s)

/-! ### PORT_OPTICS_IO and PORT_MDIO_IO (R183, R184, R187) -/

/-- PORT_OPTICS_IO: `ack` and `data` are what the module does on its bus. The page select, at module addresses 126 and 127, comes
first where the page differs (R183). -/
def portOpticsIoSpec (ack : Bool) (data : Bytes) : AciSpec where
  op := 0x0208
  board := (ack, data)
  buffer := true
  lenOk := fun n pl =>
    if bit (byteAt pl 0) 7 then decide (5 ≤ n) && decide (n ≤ 132) && decide (byteAt pl 3 + (n - 4) ≤ 256) else n == 4
  modes := [.m1, .m2, .m3, .m4, .m7]
  modeOk := fun _ s => s.ms.mode == .m3 || s.ms.mode == .m4 || !s.pins.activeIn
  avail := fun r s =>
    match tget none s.cfg.cages (r.bb 0 0 7) with
    | some c => firstOf [
        failIf (tget BusState.untried s.ports.buses c.master == .recovering) stBusy 0x02,
        failIf (tget BusState.untried s.ports.buses c.master == .outOfService) stNoResource 0x10]
    | none => none
  late := fun r s =>
    failIf ((tget none s.cfg.cages (r.bb 0 0 7)).isNone || (s.cageSt (r.bb 0 0 7)).fault || !ack) stNoResource 0x11
  effect := fun r s =>
    let w := r.bl 0 7
    let c := r.bb 0 0 7
    let d := if w then r.pl.drop 4 else fit 128 data
    let paged := decide (128 < r.b 3 1 + (if w then d.length else min 128 (256 - r.b 3 1)))
    let page := (r.b 1 1, r.b 2 1)
    let select := if paged && (s.cageSt c).page != some page then [(c, true, 126, leBytes 1 page.1 ++ leBytes 1 page.2)] else []
    let s := { s with ports := { s.ports with busLog := (c, w, r.b 1 3, d) :: select ++ s.ports.busLog } }
    (if paged then s.modCage c fun x => { x with page := some page } else s, if w then okReply else okWith d)

def execPortOpticsIo (r : Aci) (ack : Bool) (data : Bytes) (s : State) : Host.Outcome State Fault Refusal :=
  .next ((portOpticsIoSpec ack data).exec r s)

/-- PORT_MDIO_IO: `data` is what the PHY drives in a read. -/
def portMdioIoSpec (data : BitVec 16) : AciSpec where
  op := 0x0209
  board := (true, leBytes 2 data.toNat)
  lenOk := lenIs 8
  modes := [.m1, .m2, .m3, .m4, .m7]
  rsv := fun _ => [(0, 0xF0), (1, 0xE0), (2, 0xE0), (3, 0xFF)]
  par := fun r _ => badIf (!r.fl 16 2 && (r.f 18 1 != 0 || decide (31 < r.f 20 2))) 0x04
  modeOk := fun _ s => s.ms.mode == .m3 || s.ms.mode == .m4 || !s.pins.activeIn
  effect := fun r s =>
    let w := r.fl 16 3
    let d := if w then leBytes 2 (r.f 22 2) else leBytes 2 data.toNat
    let at_ := r.f 17 2 + 65536 * r.f 20 2 + 2 ^ 32 * r.fb 16 2 1
    ({ s with ports := { s.ports with busLog := (128 + r.fb 16 0 2, w, at_, d) :: s.ports.busLog } },
      if w then okReply else okWith d)

def execPortMdioIo (r : Aci) (data : BitVec 16) (s : State) : Host.Outcome State Fault Refusal :=
  .next ((portMdioIoSpec data).exec r s)

/-! ### Lanes and links -/

/-- LANE_LOCK_LOST (R40, R132, R178): the lane is out of lock; what it feeds is squelched. -/
def execLaneLockLost (lane : Fin 512) (s : State) : Host.Outcome State Fault Refusal :=
  .next (if s.ms.mode ≠ .m0 ∧ tget false s.ports.laneLocked lane.val then
      ({ s with ports := { s.ports with laneLocked := tset false s.ports.laneLocked lane.val false } }).count
        (.lane lane.val .lockLoss)
    else s)

/-- LANE_LOCK_ACQUIRED (R40, R672): the lane locks where its tile has REFCLK and it is not in reset. -/
def execLaneLockAcquired (lane : Fin 512) (s : State) : Host.Outcome State Fault Refusal :=
  .next (if s.ms.mode ≠ .m0 ∧ s.pins.refclkTile.getLsbD (lane.val / 64) ∧ ¬ tget false s.ports.laneReset lane.val then
      { s with ports := { s.ports with laneLocked := tset false s.ports.laneLocked lane.val true } }
    else s)

/-- The receive lane that feeds a transmit lane in pass-through (R178): lane i of the other group of a pair that is passed through. -/
def State.passFrom (s : State) (lane : Nat) : Option Nat :=
  s.cfg.rings.findSome? fun e =>
    match e.2 with
    | some (east, west) =>
      if tget false s.ports.passThrough e.1 then
        (((s.portLanes east).zip (s.portLanes west)).findSome? fun x =>
          if x.1 = lane then some x.2 else if x.2 = lane then some x.1 else none)
      else none
    | none => none

/-- The transmitter of a lane is squelched (R178, R180): in pass-through where its receiver has no lock or is in block reset, else in
the modes that do not forward. -/
def State.squelched (s : State) (lane : Nat) : Bool :=
  match s.passFrom lane with
  | some from_ => !tget false s.ports.laneLocked from_ || tget false s.ports.laneReset from_
  | none => s.passMode

def execLinkUp (p : Fin 256) (s : State) : Host.Outcome State Fault Refusal := .next (s.bringUp p.val)

/-- LINK_DOWN (R160): reasons 1 to 5 are the link's own; 4 and 5 show as a local or remote fault. -/
def execLinkDown (p : Fin 256) (reason : Fin 8) (s : State) : Host.Outcome State Fault Refusal :=
  let t := s.takeDown p.val reason.val
  .next (if (s.portSt p.val).linkUp then
      t.modPort p.val fun x => { x with localFault := reason.val == 4, remoteFault := reason.val == 5 }
    else t)

/-- PREEMPT_VERIFY_TIMEOUT (R169): another verify frame, at most three; then preemption stays inactive. -/
def execPreemptVerifyTimeout (p : Fin 256) (s : State) : Host.Outcome State Fault Refusal :=
  let n := (s.portSt p.val).verifyTries
  .next (if n = 0 then s
    else if n < 3 then s.modPort p.val fun x => { x with verifyTries := n + 1 }
    else (s.modPort p.val fun x => { x with verifyTries := 0 }).portEvent 0x0607 p.val (s.portCageNo p.val) 0)

/-- PREEMPT_VERIFY_RESPONSE (R169): the answer to a verify frame activates preemption. -/
def execPreemptVerifyResponse (p : Fin 256) (s : State) : Host.Outcome State Fault Refusal :=
  .next (if (s.portSt p.val).verifyTries = 0 then s
    else s.modPort p.val fun x => { x with verifyTries := 0, preActive := true })

/-! ### Optics -/

/-- OPTICS_PROBE (R182, R185): a module appears in, or disappears from, a valid cage; FAULT lasts until one is inserted. -/
def execOpticsProbe (cage : Fin 128) (present : Bool) (s : State) : Host.Outcome State Fault Refusal :=
  let x := s.cageSt cage.val
  .next (match tget none s.cfg.cages cage.val with
    | some c =>
      if !s.ports.driving || tget BusState.untried s.ports.buses c.master == .outOfService || present == x.present then s
      else
        let s := s.modCage cage.val fun _ => { present := present, fault := x.fault && !present }
        (if present then s.moduleUp cage.val else s).portEvent (if present then 0x0603 else 0x0604) c.firstPort cage.val 0
    | none => s)

/-- OPTICS_FLAG_POLL (R182, R186): each latched alarm flag byte that is newly set is reported; a module that was reset is brought to
ModuleReady again, with its data paths. A bus out of service is not used (R185). -/
def execOpticsFlagPoll (cage : Fin 128) (flags : List (Nat × Byte)) (s : State) : Host.Outcome State Fault Refusal :=
  let x := s.cageSt cage.val
  .next (match tget none s.cfg.cages cage.val with
    | some c =>
      let bus := tget BusState.untried s.ports.buses c.master
      if !s.ports.driving || !x.present || x.fault || bus == .outOfService || bus == .recovering then s
      else
        let s := s.modCage cage.val fun y => { y with flags := flags }
        let s := if x.ready then s else s.moduleUp cage.val
        flags.foldl (fun s f =>
          if f.2 == 0 || x.flags.contains f then s else s.portEvent 0x0605 c.firstPort cage.val f.1 f.2.toNat) s
    | none => s)

/-- I2C_STRETCH_TIMEOUT (R185): a slave stretched SCL beyond 25 ms, so the bus is recovered. -/
def execI2cStretchTimeout (bus : Fin 16) (sda : List Bool) (s : State) : Host.Outcome State Fault Refusal :=
  .next (if s.ports.driving && tget BusState.untried s.ports.buses bus.val != .outOfService then s.recoverBus bus.val sda
    else s)

end Sys2Proof.Machine
end

