-- ==== Sys2Proof/Machine/SysCmds.lean ====
section
/-! DEFINITION. The SYS commands for resets (R62 to R64) and TENANT_RESET (R34 to R38). -/

namespace Sys2Proof.Machine

/-! ### SYS_WARM_RESET, SYS_SHUTDOWN, SYS_CONFIG_CLEAR -/

/-- The node resume table, in ascending handle order, and the clean mark, written last (R48, R457). -/
def State.saveNodes (s : State) : State :=
  let l := s.mesh.nodes.filterMap fun e => e.2.map fun n =>
    ({ eui := n.eui, rxCounter := n.rxCounter, handle := e.1, domain := n.domain, sleepy := n.sleepy, router := n.router } : Resume)
  { s with nv := { s.nv with resume := l, cleanMark := true } }

/-- The response that a function's ring took last. -/
def State.lastResponse (s : State) (f : Nat) : List (Nat × Resp) := ((s.mbox f).responses.take 1).map fun x => (f, x)

def sysWarmResetSpec : AciSpec where
  op := 0x0101
  lenOk := lenIs 1
  modes := [.m2, .m3, .m4, .m5, .m6, .m7]
  rsv := fun _ => [(0, 0xFE)]
  avail := fun r s => badIf (r.fl 16 0 && s.noImage) 0x04
  effect := fun r s =>
    let s := (if r.fl 16 0 then s.saveNodes else s).answer r okReply
    let last := s.lastResponse r.fn
    let s := s.restart 3 5
    ({ s with host := { s.host with parting := last } }, { okReply with deferred := true })

def execSysWarmReset (r : Aci) (s : State) : Host.Outcome State Fault Refusal := .next (sysWarmResetSpec.exec r s)

def sysShutdownSpec : AciSpec where
  op := 0x0102
  lenOk := lenIs 0
  modes := [.m3, .m4, .m5, .m7]
  effect := fun r s =>
    let s := s.saveNodes.answer r okReply
    let last := s.lastResponse r.fn
    let body := changeBody s.ms.mode .m0 3 0 0 false
    let s := (s.addCause 7).dormant
    ({ s with
        ms := { s.ms with armed := false }
        host := { s.host with parting := last, partingEntry := body } }, { okReply with deferred := true })

def execSysShutdown (r : Aci) (s : State) : Host.Outcome State Fault Refusal := .next (sysShutdownSpec.exec r s)

def sysConfigClearSpec : AciSpec where
  op := 0x0103
  lenOk := lenIs 0
  modes := [.m7]
  modeOk := fun _ s => s.ms.safeCause == 4 || s.ms.safeCause == 5
  effect := fun _ s =>
    let top := (([s.nv.blob, s.nv.oldBlob].filterMap id).map (·.seq)).foldl max 0
    let old := (topBlob s.blobs).map fun b => { b with cfg := s.effective b }
    let new : Blob := { seq := top + 1, version := s.ms.setVersion, cfg := {} }
    ({ s with nv := { s.nv with blob := some new, oldBlob := old, journal := none, journalUsed := 0 } }, okReply)

def execSysConfigClear (r : Aci) (s : State) : Host.Outcome State Fault Refusal := .next (sysConfigClearSpec.exec r s)

/-! ### TENANT_RESET -/

/-- A write command that commits at once. -/
def autoCommits (r : Req) : Bool :=
  match r.opcode with
  | 0x030A => r.fl 18 3
  | 0x030B => r.fl 16 6
  | 0x030C => bit (r.b 0 2) 15
  | _ => false

/-- A command in flight of a tenant is a table commit: TABLE_COMMIT, or a write with AUTO_COMMIT, that waits for its start, for its
release epoch or for its generation (R35, R222). -/
def State.isCommit (s : State) (f : Nat) (c : CmdRef) : Bool :=
  let reqs := (s.mbox f).waiting.map (·.req) ++ s.pair.carried.map (·.req)
  c.opcode == 0x0301 || (s.fwd.pendingGens.any fun g => g.fn == f && g.cmd == some (c.tag, c.opcode)) ||
    reqs.any fun q => q.fn == f && q.tag == c.tag && q.opcode == c.opcode && autoCommits q

/-- STALE for a command in flight; subcode 0x20 for a table commit (`was`: the state at the reset's start). -/
def State.endStale (f : Nat) (was s : State) (c : CmdRef) : State :=
  s.answer { fn := f, opcode := c.opcode, tag := c.tag, fence := c.fence, len := 0, buffer := 0, pl := [] }
    { status := stStale, sub := if was.isCommit f c then 0x20 else 0 }

/-- Steps 1 and 2 (R35, R38): the tenant's ring is held; its other commands in flight end with STALE_GENERATION, subcode
0x20 for a table commit, and those ACCEPTED without a word. -/
def State.endTenantCommands (s : State) (t : Nat) (r : Req) : State :=
  let f := t + 1
  let s := s.modMbox f fun m => { m with tenantHeld := true }
  let refs := (s.mbox f).inflight.reverse.filter fun c => !(r.fn == f && c.tag == r.tag && c.opcode == r.opcode)
  let s := refs.foldl (State.endStale f s) s
  let s := s.modMbox f fun m => { m with accepted := [], waiting := m.waiting.filter fun q => r.fn == f && q.req.tag == r.tag }
  let s := s.modPair fun p => { p with
    carried := p.carried.filter fun c => c.req.fn != f || (c.req.tag == r.tag && c.req.opcode == r.opcode)
    finals := p.finals.filter fun x => x.fn != f }
  (s.dropGens fun g => g.fn != f || g.reset.isSome).dropStaged f

/-- Steps 3 and 4 for one domain (R35; log entry 61): the activation is cancelled, without a completion event (R38), no image is
active, and since the domain is unconfigured and its queues are empty nothing more of the running slot is issued; both banks are
emptied, the domain is unconfigured, its epoch advances, and what it held goes. -/
def State.tearDown (s : State) (d : Nat) : State :=
  let x := s.domain d
  let s := match x.activation with | some a => s.forget a.fn a.tag 0x0704 | none => s
  let s := x.bankB.endLoad (x.bankA.endLoad s)
  let s := (x.stopping.foldl (fun s q => s.answerLater q { status := stStale }) s).idleDomain d
  let s := s.modDomain d fun y => { y with bankA := .empty, bankB := .empty, activation := none, acks := [] }
  let s := State.endRecvs { s with radio := { s.radio with policies := tset {} s.radio.policies d {} } } (·.domain == d)
  let s := (s.endDist d stStale 0).modMesh d fun m => { m with cfg := none, bcast := [], joinQ := [], held := [] }
  let s := (s.forgetSends d).advanceEpoch d 4
  { s with mesh := { s.mesh with
      barred := s.mesh.barred.filter fun b => b.1 != d
      reasm := s.mesh.reasm.filter fun e => s.domainOfHandle (e.1 / 65536) != some d
      awaits := s.mesh.awaits.filter fun a => a.domain != d } }

/-- The writes of step 5: the tenant's rules and routes are removed, those of generations that still wait among them. -/
def State.tenantRemovals (s : State) (t : Nat) : List TableWrite :=
  let x := s.projected
  (x.rules.filter fun e => match e.2 with | some u => u.owner == t | none => false).map (fun e => .rule e.1 none) ++
    (x.routes.filter fun e => e.1 / 2 ^ 136 / 2 == t).map fun e => .route e.1 none

/-- Domains of a tenant. -/
def State.domainsOf (s : State) (t : Nat) : List Nat := (List.range 64).filter fun d => s.domainTenant d == some t

def tenantResetSpec : AciSpec where
  op := 0x0110
  lenOk := lenIs 1
  pf0Only := false
  modes := modesSet
  carried := true
  rsv := fun _ => [(0, 0xF0)]
  owned := fun r _ => ownTenant r (r.fb 16 0 4)
  avail := fun r s => failIf (s.mbox (r.fb 16 0 4 + 1)).tenantHeld stBusy 0x02
  effect := fun r s =>
    let t := r.fb 16 0 4
    let s := s.endTenantCommands t r
    let s := (s.domainsOf t).foldl (fun s d => s.tearDown d) s
    let g := s.pendingGen r.fn (r.tag, r.opcode) (s.tenantRemovals t) (some t)
    ({ s with fwd := { s.fwd with pendingGens := s.fwd.pendingGens ++ [g] } }, { okReply with deferred := true })

def execTenantReset (r : Aci) (s : State) : Host.Outcome State Fault Refusal := .next (tenantResetSpec.exec r s)

end Sys2Proof.Machine
end

