-- ==== Sys2Proof/Machine/UpdateCmds.lean ====
section
/-! DEFINITION. The Service Port and its transfer frames (R595, R596, R603 to R606), installs (R607, R608), node images
(R614), and the UPDATE commands (R616 to R623). -/

namespace Sys2Proof.Machine

/-! ### The Service Port -/

/-- EtherType and address of a frame are those of the Service Port (R596). -/
def State.svcAccepts (s : State) (frame : Bytes) : Bool :=
  beAt frame 12 2 == 0x88B5 && (slice frame 0 6 == s.serviceMac || (slice frame 0 6).all (· == 0xFF))

/-- A frame arrives, so that the port has a link. -/
def State.svcArrives (s : State) : State :=
  ({ s with svc := { s.svc with linkUp := true } }).count (.device .svcRxFrames)

/-- SERVICE_PORT_FOREIGN_FRAME (R596): discarded and counted. A frame that the port accepts is not foreign. -/
def execServicePortForeignFrame (frame : Bytes) (s : State) : Host.Outcome State Fault Refusal :=
  .next (if s.ms.mode = .m0 ∨ s.svcAccepts frame then s else s.svcArrives.count (.device .svcForeign))

/-- SERVICE_PORT_MODE_TIMER (R595): while there is no link, the next mode is tried. -/
def execServicePortModeTimer (s : State) : Host.Outcome State Fault Refusal :=
  .next (if s.ms.mode = .m0 ∨ s.svc.linkUp then s
    else { s with svc := { s.svc with mode := (s.svc.mode + 1) % 4 } })

/-! ### Transfer frames -/

/-- OP, SESSION, BLOCK and DLEN of a frame (R603), from the octet after its EtherType. -/
def astOp (p : Bytes) : Nat := byteAt p 0
def astSession (p : Bytes) : Nat := leAt p 2 4
def astBlock (p : Bytes) : Nat := leAt p 6 4
def astLen (p : Bytes) : Nat := leAt p 10 2

/-- A frame of an OP that the port accepts: its payload. -/
def State.astFrame (s : State) (op : Nat) (frame : Bytes) : Option Bytes :=
  let p := frame.drop 14
  if s.ms.mode != .m0 && s.svcAccepts frame && astOp p == op then some p else none

/-- A frame discarded as not authentic (R604). -/
def State.svcAuthFail (s : State) : State := s.count (.device .svcAuthFail)

/-- The session that a frame after OPEN names, and its body: a DATA body is decrypted, another only authenticated; none
when the session is foreign or not bound, the length does not fit, or the tag fails (R604, R626). -/
def State.astOpenFrame (s : State) (p : Bytes) : Option (Session × Bytes) :=
  match s.svc.session with
  | none => none
  | some x =>
    match x.bound with
    | none => none
    | some (_, kt, _) =>
      let n := astLen p
      if astSession p ≠ x.number ∨ p.length < 28 + n ∨ 1024 < n then none
      else
        let iv := astIv x.number (astBlock p) (astOp p) 0
        let head := p.take 12
        let body := slice p 12 n
        let tag := slice p (12 + n) 16
        if astOp p = 3 then (Config.gcmOpen kt iv head (body ++ tag)).map fun b => (x, fit n b)
        else (Config.gcmOpen kt iv (head ++ body) tag).map fun _ => (x, body)

/-- Send OPEN_ACK (R604). -/
def State.sendOpenAck (s : State) (x : Session) : State := s.svcSend x 2 0 x.pub

/-- Send ACK with the blocks received in order (R605). -/
def State.sendAck (s : State) (x : Session) : State :=
  (s.setSession (some { x with acked := x.blocks })).svcSend x 4 x.blocks []

/-- The OPEN that binds a session: X25519, its rejections, and KT (R604, R606). -/
def State.bind (s : State) (x : Session) (tool src : Bytes) : State :=
  let z := x25519Job x.priv tool
  let s := s.eccJob z.1
  if z.1 ≠ 0 then s.svcAuthFail
  else
    let kt := kdf z.2 "AST" (leBytes 4 x.number ++ x.pub ++ tool) 256
    let x := { x with bound := some (tool, kt, src), state := 2 }
    (s.setSession (some x)).sendOpenAck x

/-- AST_OPEN (R604). -/
def execAstOpen (frame : Bytes) (s : State) : Host.Outcome State Fault Refusal :=
  .next (match s.astFrame 1 frame with
    | none => s
    | some p =>
      let s := s.svcArrives
      let tool := slice p 12 32
      match s.svc.session with
      | none => s.svcAuthFail
      | some x =>
        if astSession p ≠ x.number ∨ astLen p ≠ 32 ∨ p.length < 44 then s.svcAuthFail
        else
          match x.bound with
          | none => s.bind x tool (slice frame 6 6)
          | some b => if b.1 = tool then s.sendOpenAck x else s.svcAuthFail)

/-- A block of a node image takes its place in the staging region (R614); an empty one frees the slot. -/
def State.stageBlock (s : State) (slot owner off : Nat) (data : Bytes) : State :=
  let old := match s.svc.stage with
    | some (k, _, b) => if k = slot then b else []
    | none => []
  if data.isEmpty then { s with svc := { s.svc with stage := s.svc.stage.filter fun x => x.1 != slot } }
  else if off = 0 then { s with svc := { s.svc with stage := some (slot, owner, data) } }
  else if off = old.length then { s with svc := { s.svc with stage := some (slot, owner, old ++ data) } }
  else s

/-- A block is programmed into the target bank, or staged (R605, R607, R614). -/
def State.programBlock (s : State) (x : Session) (data : Bytes) : State :=
  if x.node then
    s.firmware (.imageBlock x.slot x.owner x.bytes data) fun s => s.stageBlock x.slot x.owner x.bytes data
  else
    s.modFlash x.bank fun f =>
      { f with data := fit x.bytes f.data ++ data ++ f.data.drop (x.bytes + data.length) }

/-- AST_DATA (R605): the next block in order is taken, with an ACK after every 16; any other is discarded, with an ACK. -/
def execAstData (frame : Bytes) (s : State) : Host.Outcome State Fault Refusal :=
  .next (match s.astFrame 3 frame with
    | none => s
    | some p =>
      let s := s.svcArrives.aesJob
      match s.astOpenFrame p with
      | none => s.svcAuthFail
      | some (x, data) =>
        if data.isEmpty then s.svcAuthFail
        else if x.state = 2 ∧ astBlock p = x.blocks ∧ x.bytes = 1024 * x.blocks ∧ x.bytes + data.length ≤ x.total then
          let y := { x with blocks := x.blocks + 1, bytes := x.bytes + data.length }
          let s := (s.programBlock x data).setSession (some y)
          if y.blocks % 16 = 0 then s.sendAck y else s
        else (s.count (.device .astDiscardedBlocks)).sendAck x)

/-- AST_END (R606). -/
def execAstEnd (frame : Bytes) (s : State) : Host.Outcome State Fault Refusal :=
  .next (match s.astFrame 5 frame with
    | none => s
    | some p =>
      let s := s.svcArrives.aesJob
      match s.astOpenFrame p with
      | none => s.svcAuthFail
      | some (x, _) =>
        if astBlock p = x.blocks ∧ x.bytes = x.total then
          let s := if x.state = 2 then
              (s.setSession (some { x with state := 3 })).updateEntry 0x0B01 (b2n x.node) x.target x.total
            else s
          s.svcSend x 6 x.blocks [0]
        else s.svcSend x 6 x.blocks [1])

/-- AST_ABORT (R606). -/
def execAstAbort (frame : Bytes) (s : State) : Host.Outcome State Fault Refusal :=
  .next (match s.astFrame 7 frame with
    | none => s
    | some p =>
      let s := s.svcArrives.aesJob
      match s.astOpenFrame p with
      | none => s.svcAuthFail
      | some _ => s.endSession 4)

/-- AST_ACK_TIMER (R605). -/
def execAstAckTimer (s : State) : Host.Outcome State Fault Refusal :=
  .next (match s.svc.session with
    | some x => if x.state = 2 then s.sendAck x else s
    | none => s)

/-- SESSION_TIMEOUT (R606): before OPEN, or while transferring. -/
def execSessionTimeout (s : State) : Host.Outcome State Fault Refusal :=
  .next (match s.svc.session with
    | some x => if x.state = 1 ∨ x.state = 2 then s.endSession 3 else s
    | none => s)

/-! ### Installs -/

/-- The checks of R607 step 3 on what the bank holds, in R617's terms. -/
def State.installCheck (s : State) (x : Session) (ignore : Bool) : Chk ⊕ ImageSet :=
  match s.verify (s.flash x.bank).data x.total with
  | .inl e => .inl (some (e.status, e.sub))
  | .inr set =>
    if !s.settingsStart set then .inl (some (stVersion, 0xC2))
    else
      match s.pair.peer with
      | some h =>
        if !ignore && !set.partners.contains (256 * h.major + h.minor) then .inl (some (stVersion, 0xC3)) else .inr set
      | none => .inr set

/-- INSTALL_DONE (R607, R620): the commit record is written last, or the install is refused. -/
def execInstallDone (s : State) : Host.Outcome State Fault Refusal :=
  .next (match s.svc.session with
    | none => s
    | some x =>
      match x.install with
      | none => s
      | some (f, tag, ignore) =>
        match s.installCheck x ignore with
        | .inl e => (s.endSession 6).finishInstall f tag (e.getD (stInternal, 0)).1 (e.getD (stInternal, 0)).2 []
        | .inr set =>
          let seq := s.topSeq + 1
          let s := s.modFlash x.bank fun b =>
            { b with rec_ := if seq ≤ 0xFFFFFFFE then some { seq := seq, digest := set.digest, len := x.total } else none }
          (s.endSession 1).finishInstall f tag stOk 0 (leBytes 1 set.major ++ leBytes 1 set.minor ++ leBytes 4 seq))

/-! ### The UPDATE commands -/

/-- The bank that UPDATE_OPEN targets: true for B (R618). -/
def State.openBank (s : State) (r : Req) : Bool := if r.bb 1 0 2 = 2 then !s.ms.bank else r.bb 1 0 2 == 1

def updateOpenSpec : AciSpec where
  op := 0x0C01
  lenOk := lenIs 12
  buffer := true
  modes := modesRead
  rsv := fun _ => [(0, 0xFE), (1, 0xFC), (2, 0xF0), (3, 0xE0), (8, 0xFF), (9, 0xFF), (10, 0xFF), (11, 0xFF)]
  par := fun r s =>
    let len := r.b 4 4
    if r.bl 0 0 then
      badIf (r.bb 1 0 2 != 0 || decide (16 < r.bb 3 0 5) || len == 0 || decide (134217728 < len)) 0x04
    else
      badIf (r.bb 1 0 2 == 3 || (r.bb 1 0 2 == 2 && s.noImage) || r.bb 2 0 4 != 0 || r.bb 3 0 5 != 0 ||
        len % 4096 != 0 || decide (len < 8192) || decide (134152192 < len)) 0x04
  avail := fun r s =>
    firstOf [
      badIf (!r.bl 0 0 && !s.noImage && s.openBank r == s.ms.bank) 0xC0,
      failIf (s.svc.session.isSome || (r.bl 0 0 && (tget none s.mesh.nodeImages (r.bb 2 0 4)).isSome)) stBusy 0x02,
      failIf (!r.bl 0 0 && !s.noImage && !s.ms.lkg) stBusy 0xC1]
  modeOk := fun r s => if r.bl 0 0 then s.ms.mode == .m3 || s.ms.mode == .m4 else s.ms.mode != .m4
  effect := fun r s =>
    let node := r.bl 0 0
    let a := s.drawOctets 4
    let k := a.2.drawOctets 32
    let s := k.2.eccJob 0
    let pub := fit 32 (Config.x25519 k.1 ([9] ++ List.replicate 31 0))
    let bank := s.openBank r
    let x : Session :=
      { number := leNat a.1 % 0xFFFFFFFF + 1, node := node, bank := !node && bank, slot := r.bb 2 0 4,
        owner := if node then r.bb 3 0 5 else 16, total := r.b 4 4, priv := k.1, pub := pub }
    let s := s.setSession (some x)
    let s :=
      if node then { s with svc := { s.svc with stage := some (r.bb 2 0 4, r.bb 3 0 5, []) } }
      else (s.modFlash bank fun f => { f with rec_ := none }).modBoot bank fun _ => {}
    (s, okWith (leBytes 4 x.number ++ s.serviceMac ++ leBytes 1 (b2n x.bank) ++ [0] ++ pub ++ [0, 0, 0, 0]))

def execUpdateOpen (r : Aci) (s : State) : Host.Outcome State Fault Refusal := .next (updateOpenSpec.exec r s)

def updateStatusSpec : AciSpec where
  op := 0x0C02
  modes := modesAll
  effect := fun _ s =>
    let staged := leBytes 2 (sumNat ((List.range 16).map fun i => if (tget none s.mesh.nodeImages i).isSome then 2 ^ i else 0))
    let y := match s.svc.session with
      | some x => (leBytes 1 (x.state + 8 * b2n x.node + 16 * b2n x.bank), leBytes 4 x.bytes ++ leBytes 4 x.total ++ leBytes 4 x.number)
      | none => ([0], List.replicate 12 0)
    (s, okWith (y.1 ++ leBytes 1 s.svc.lastEnd ++ staged ++ y.2))

def execUpdateStatus (r : Aci) (s : State) : Host.Outcome State Fault Refusal := .next (updateStatusSpec.exec r s)

/-- The node-image session is RECEIVED, so that UPDATE_INSTALL concerns an image that both devices stage (R614). -/
def State.imageReceived (s : State) : Bool :=
  match s.svc.session with
  | some x => x.node && x.state == 3
  | none => false

def updateInstallSpec : AciSpec where
  op := 0x0C03
  lenOk := lenIs 1
  modes := modesAll
  carried := true
  isLocal := fun r s => !r.carried && !s.imageReceived
  rsv := fun _ => [(0, 0xFE)]
  avail := fun r s =>
    match s.svc.session with
    | some x => badIf (!r.carried && x.state != 3) 0xC2
    | none => none
  modeOk := fun r s => if r.carried then s.svc.stage.isSome else s.svc.session.isSome
  accepts := fun r s => !r.carried && !s.imageReceived && !s.noImage
  effect := fun r s =>
    if r.carried || s.imageReceived then
      let s := match s.svc.stage with
        | some (slot, owner, b) =>
          { s with mesh := { s.mesh with nodeImages := tset none s.mesh.nodeImages slot (some { owner := owner, data := b }) } }
        | none => s
      (if r.carried then { s with svc := { s.svc with stage := none } } else s.endSession 1, okReply)
    else
      match s.svc.session with
      | some x =>
        let y := s.acceptRead r (30000000000 + 500000000 * ((x.total + 1048575) / 1048576))
        (s.setSession (some { x with state := 4, install := some (r.fn, r.tag, r.fl 16 0) }),
          if s.noImage then { okReply with deferred := true } else y)
      | none => (s, okReply)

def execUpdateInstall (r : Aci) (s : State) : Host.Outcome State Fault Refusal := .next (updateInstallSpec.exec r s)

def updateAbortSpec : AciSpec where
  op := 0x0C04
  modes := modesAll
  effect := fun _ s => (s.endSession 2, okReply)

def execUpdateAbort (r : Aci) (s : State) : Host.Outcome State Fault Refusal := .next (updateAbortSpec.exec r s)

def updateBankInfoSpec : AciSpec where
  op := 0x0C05
  lenOk := lenIs 1
  modes := modesAll
  rsv := fun _ => [(0, 0xFE)]
  effect := fun r s =>
    let bank := r.fl 16 0
    let f := s.flash bank
    let b := s.bootRec bank
    let good := headerOk f.data (leAt f.data 8 4)
    let head (off n : Nat) : Bytes := if good then slice f.data off n else List.replicate n 0
    let flags := b2n f.rec_.isSome + 2 * b2n (s.committed == bank) + 4 * b2n b.lkg + 8 * b2n b.failed + 16 * (b.tried % 8) +
      128 * b2n (s.ms.running.isSome && s.ms.bank == bank)
    let seq := match f.rec_ with | some c => c.seq | none => 0
    (s, okWith (leBytes 1 flags ++ head 6 2 ++ [0] ++ leBytes 4 seq ++ head 12 2 ++ [0, 0] ++ head 8 4 ++ [0, 0, 0, 0]))

def execUpdateBankInfo (r : Aci) (s : State) : Host.Outcome State Fault Refusal := .next (updateBankInfoSpec.exec r s)

/-- A distribution runs on a node image. -/
def State.distributing (s : State) (slot : Nat) : Bool :=
  (List.range 64).any fun d => match (s.meshDom d).dist with | some x => x.slot == slot | none => false

def updateNodeImageDropSpec : AciSpec where
  op := 0x0C06
  lenOk := lenIs 1
  modes := modesRun
  carried := true
  rsv := fun _ => [(0, 0xF0)]
  avail := fun r s =>
    let n := r.fb 16 0 4
    let arriving := match s.svc.stage with | some (k, _, _) => k == n | none => false
    firstOf [badIf ((tget none s.mesh.nodeImages n).isNone && !arriving) 0xC4, failIf (arriving || s.distributing n) stBusy 0x02]
  effect := fun r s =>
    ({ s with mesh := { s.mesh with nodeImages := tset none s.mesh.nodeImages (r.fb 16 0 4) none } }, okReply)

def execUpdateNodeImageDrop (r : Aci) (s : State) : Host.Outcome State Fault Refusal :=
  .next (updateNodeImageDropSpec.exec r s)

end Sys2Proof.Machine
end

