-- ==== Sys2Proof/Machine/Pairing.lean ====
section
/-! DEFINITION. What the pair carries: commands and their two checks (R545 to R547, R575), released items (R548 to R555),
the link's going down, the takeover (R573 to R575), and the digests with arbitration (R557 to R564). -/

namespace Sys2Proof.Machine

/-! ### Carried commands -/

/-- The commands of the catalogue that are carried (R690). -/
def carriedSpecs : List AciSpec :=
  [sysSetSharesSpec, sysWellAssignSpec, tenantResetSpec] ++
  [portSetSpeedSpec, portSetCutThroughSpec, portSetPreemptSpec, portSetRadioSpec, portRingPairSpec, portOpticsMapSpec] ++
  [tableCommitSpec, tableVrfConfigSpec, tablePortL2Spec, tableVlanWriteSpec, tableIntfWriteSpec, tableMacWriteSpec,
    tableMacFlushSpec, tableNexthopWriteSpec, tableRouteWriteSpec, tableRuleWriteSpec, tableMirrorWriteSpec] ++
  [qosSetLimitsSpec, qosSetSchedSpec, qosSetShaperSpec, qosSetLaunchSpec, qosSetClassMapSpec, qosPolicerWriteSpec,
    qosQueueFlushSpec] ++
  [timeBaseConfigSpec, timeStepSpec, timePtpConfigSpec, timePortConfigSpec, timePpsConfigSpec, timeSynceConfigSpec,
    timeSetTenantBaseSpec] ++
  [radioSiteConfigSpec, radioDwellConfigSpec, radioSiteResetSpec, radioLoadingConfigSpec] ++
  [schedDomainAllotSpec, schedSiteAllotSpec, schedLoadImageSpec, schedActivateSpec, schedDeactivateSpec, schedUnloadSpec] ++
  [nodeDomainAssignSpec, nodeDomainConfigSpec, nodeWriteSpec, nodeRemoveSpec, nodeSendSpec, nodeDomainRekeySpec,
    nodeDistStartSpec, nodeDistStopSpec] ++
  [keyTenantRootCreateSpec, keyDomainKeyCreateSpec, keyImportSpec, keyDestroySpec, keySlotAssignSpec, keyCacheSharesSpec] ++
  [pairConfigSpec, pairEquinoxSpec, pairResyncSpec, bistRunSpec, bistConfigSpec, updateInstallSpec, updateNodeImageDropSpec]

def carriedSpec (op : Nat) : Option AciSpec := carriedSpecs.find? fun c => c.op == op

/-- The state against which a carried command is checked: a standby, or a device in M6, judges it by the mode of the device
that read it (R546). -/
def State.checkState (s : State) : State :=
  let m : Mode := if s.ms.mode == .m5 && s.pair.peerMode == 3 then .m3 else .m4
  if s.ms.mode == .m5 || s.ms.mode == .m6 then { s with ms := { s.ms with mode := m } } else s

/-- The status that a carried command's check fixes (R545). -/
def AciSpec.status (c : AciSpec) (r : Req) (s : State) : Nat × Nat :=
  let t := s.checkState
  match c.check r t with
  | some e => e
  | none => (if c.accepts r t then stAccepted else stOk, 0)

/-- The keys of the Pair Link (R493, R543): the private pair key, and KP with the partner's public key. -/
def State.pairPriv (s : State) : Bytes :=
  let d := match s.ms.running with | some x => x.digest | none => []
  clamp25519 (kdf (measuredRoot d) "PAIR" [] 256)

def State.pairPub (s : State) : Bytes := fit 32 (Config.x25519 s.pairPriv ([9] ++ List.replicate 31 0))

def State.pairKp (s : State) : Bytes :=
  let other := match s.pair.peer with | some h => h.pub | none => []
  let z := fit 32 (Config.x25519 s.pairPriv other)
  let ctx := if s.pins.pairId then other ++ s.pairPub else s.pairPub ++ other
  kdf z "PAIRLINK" ctx 256

/-- Send a Tenant Root by KEY (R543); which bytes are authenticated beside the ciphertext is not stated: none here (log
entry 66). -/
def State.sendKey (s : State) (t : Nat) (v : Bytes) : State :=
  let iv := leBytes 12 s.pair.keySent
  let sealed := fit 48 (Config.gcmSeal s.pairKp iv [] v)
  (s.modPair fun p => { p with keySent := p.keySent + 1 }).pairSend (.key t iv sealed)

/-- Draw a Tenant Root on the active and carry it (R502). -/
def State.carryRoot (s : State) (r : Req) : State :=
  if r.opcode = 0x0901 ∧ s.leads then
    let t := r.fb 16 0 4
    let v := s.drawOctets 32
    (v.2.modPair fun p => { p with rootKeys := tset none p.rootKeys t (some v.1) }).sendKey t v.1
  else s

/-- Change the carried command of a function and TAG, as a CHECK names it. -/
def State.modTagged (s : State) (f tag : Nat) (g : Carried → Carried) : State :=
  s.modPair fun p => { p with carried := p.carried.map fun c => if c.req.fn = f ∧ c.req.tag % 4096 = tag then g c else c }

/-- Change the carried command of a function and tag. -/
def State.modCarried (s : State) (f tag : Nat) (g : Carried → Carried) : State :=
  s.modPair fun p => { p with carried := p.carried.map fun c => if c.req.fn = f ∧ c.req.tag = tag then g c else c }

/-- The check at release epoch E, with its CHECK message. -/
def State.checkCarried (s : State) (c : Carried) : State :=
  match carriedSpec c.req.opcode with
  | none => s
  | some spec =>
    let st := spec.status c.req s
    let s := (s.modCarried c.req.fn c.req.tag fun x => { x with mine := some st }).pairSend (.check c.req.fn (c.req.tag % 4096) false st.1 st.2)
    if st.1 = stOk then s.carryRoot c.req else s

/-- A command, or a final status, that the two devices did not agree on (R545, R547, R592). -/
def State.diverged (s : State) (sub tag opcode : Nat) : State :=
  (s.count (.device .pairDivergedCmds)).pairEntry 0x030F sub 0 tag opcode

/-- The end of a carried command, 16 epochs after its check: the effect, or the failure, or PAIR_DIVERGED. Without a CHECK
from the partner, its own status stands (R570, R575). -/
def State.applyCarried (s : State) (c : Carried) : State :=
  let s := s.modPair fun p => { p with carried := p.carried.filter fun x => !(x.req.fn == c.req.fn && x.req.tag == c.req.tag) }
  match carriedSpec c.req.opcode, c.mine with
  | some spec, some st =>
    if c.partner.isSome && c.partner != some st then
      (s.answer c.req { status := stDiverged, sub := 0xA0 }).diverged 0xA0 (c.req.tag % 4096) c.req.opcode
    else if st.1 = stOk ∨ st.1 = stAccepted then spec.run c.req s
    else s.answer c.req { status := st.1, sub := st.2 }
  | _, _ => s

/-- A bank that a diverged SCHED_LOAD_IMAGE loaded is emptied (R547). -/
def State.undoLoad (s : State) (f tag : Nat) : State :=
  let undo (e : Nat × SchedDomain) : Nat × SchedDomain :=
    if e.2.loadCmd == some (f, tag) then
      (e.1, if e.2.lastLoaded then { e.2 with bankB := .empty, loadCmd := none } else { e.2 with bankA := .empty, loadCmd := none })
    else e
  { s with radio := { s.radio with domains := s.radio.domains.map undo } }

/-- The two final statuses of a carried ACCEPTED command are known, or only this device's will ever be (R547, R575). -/
def State.settleFinal (s : State) (x : Final) : State :=
  let s := s.modPair fun p => { p with finals := p.finals.filter fun y => !(y.fn == x.fn && y.tag == x.tag) }
  match x.mine with
  | none => s
  | some m =>
    if x.partner.isNone ∨ x.partner = some (m.1, m.2.1) then
      if x.own then s.completionEvent x.fn x.tag x.opcode m.1 m.2.1 m.2.2 x.well else s
    else
      let s := if x.own then s.completionEvent x.fn x.tag x.opcode stDiverged 0xA1 [] x.well else s
      let s := s.diverged 0xA1 (x.tag % 4096) x.opcode
      if x.opcode = 0x0703 then s.undoLoad x.fn x.tag
      else if s.follows then
        -- the reason that SYNC_LOST gives is not stated (log entry 3)
        let z := s.draw
        z.2.dropSync (1 + z.1 % 4) 3 true
      else s

/-- A final status whose partner's is known, or that no partner will match, is settled, but not while its MGC is reloaded (R23). -/
def State.settleDone (s : State) (x : Final) : State :=
  if x.mine.isSome && (x.partner.isSome || !s.paired) && !s.mgcDown x.fn then s.settleFinal x else s

/-- Final statuses that can be settled: both are known, or there is no pair any more. -/
def State.settleFinals (s : State) : State :=
  s.pair.finals.foldl State.settleDone s

/-! ### Released items -/

/-- Apply a firmware effect. -/
def State.applyEffect (s : State) : FwEffect → State
  | .ptp p m => s.applyPtp p m
  | .join d h eui ie body moved => s.applyJoin d h eui ie body moved
  | .refuse d eui result => s.applyRefuse d eui result
  | .loading d h down id rate b => s.applyLoading d h down { id := id, rate := rate, bits := b }
  | .reports d h link dist => s.applyReports d h link dist
  | .imageBlock slot owner off data => s.stageBlock slot owner off data
  | .leases l => s.modPair fun p => { p with peerLease := l.foldl (fun t e => tset none t e.1 (some e.2.2)) p.peerLease }

/-- Effects that the standby's firmware computes in shadow (R548); blocks of an image and lease records it cannot. -/
def shadowed : FwEffect → Bool
  | .imageBlock _ _ _ _ | .leases _ => false
  | _ => true

/-- An item takes effect (R545 to R555). -/
def State.applyRelease (s : State) : Release → State
  | .learn pipe r => s.queueLearn pipe r
  | .aged pipe mac vlan => s.removeAged pipe mac vlan
  | .retire cell port => s.retireCell cell port
  | .inject x => s.inject x
  | .effect e => (if s.follows && decide (4 ≤ s.pair.phase) && shadowed e then s.meetEffect false e else s).applyEffect e
  | .measure m =>
    match m with
    | .offset tb theta => if (s.baseCfg tb).source = 0 then s else s.applySample tb theta
    | .delay site ns => s.applyDelay site ns
  | .seed v => s.modPair fun p => { p with seed := v, generated := [] }

/-- Everything whose release epoch has come: checks at E, carried commands at E + 16, and items, in their order. -/
def State.releaseDue (s : State) : State :=
  let now := s.epoch
  let s := (s.pair.carried.filter fun c => c.mine.isNone && decide (c.epoch ≤ now)).foldl (fun s c => s.checkCarried c) s
  let s := (s.pair.carried.filter fun c => decide (c.epoch + 16 ≤ now)).foldl (fun s c => s.applyCarried c) s
  let due := s.pair.releases.filter fun x => decide (x.1 ≤ now)
  let s := s.modPair fun p => { p with releases := p.releases.filter fun x => decide (now < x.1) }
  (due.foldl (fun s x => s.applyRelease x.2) s).settleFinals

/-- An item arrives from the partner. On the standby it counts from phase 3 on; one that comes less than 8 epochs before its
release makes the standby start again (R566, R570). -/
def State.receive (s : State) (release : Nat) (r : Release) : State :=
  let take := s.modPair fun p => { p with releases := insertRelease p.releases release r }
  if s.follows then
    if s.pair.phase < 3 then s
    else if release < s.epoch + 8 then s.dropSync 3 3 true
    else take
  else if s.leads then
    -- a retired cell and lease records come from either device (R553, R554)
    match r with
    | .retire _ _ | .effect (.leases _) => take
    | _ => s
  else s

/-! ### Takeover -/

/-- The commands and completions of the pair are this device's from now on (R575). -/
def State.ownAll (s : State) : State :=
  let own (l : List CmdRef) : List CmdRef := l.map fun c => { c with own := true }
  let boxes := s.host.mbox.map fun (e : Nat × Mbox) =>
    (e.1, { e.2 with inflight := own e.2.inflight, accepted := own e.2.accepted })
  let s := { s with host := { s.host with mbox := boxes } }
  s.modPair fun p => { p with carried := p.carried.map fun c => { c with own := true },
                              finals := p.finals.map fun c => { c with own := true } }

/-- Firmware effects that had not arrived are taken from the device's own shadow (R575). -/
def State.useShadow (s : State) : State :=
  let l := s.pair.shadow
  l.foldl (fun s e => s.applyEffect e) (s.modPair fun p => { p with shadow := [], arrived := [] })

/-- T14 of a synchronised standby (R574, R575); how long it takes is open within its bound (log entry 3). A node image that was
arriving at the partner is gone with its session (R614). -/
def State.takeOver (s : State) : State :=
  if s.ms.inTransition then s
  else
  let z := s.draw
  let us := z.1 % 251
  let s := z.2.ownAll.useShadow
  let s := (s.modPair fun p => { p with tookOver := true, takeoverUs := us, phase := 0, resumeAt := 2, peerPhase := 0, peerSynced := false,
                                        check := none, agreement := none, swapped := false, testing := none, rejoining := none }).count
    (.device .pairTakeovers)
  let s := { s with ms := { s.ms with synced := false }, svc := { s.svc with stage := none } }
  (s.toSolo 14).settleFinals.pairEntry 0x0308 0 0 0 us

/-- T14 of a standby that is not synchronised: a cold start of service from its own configuration (R42). -/
def State.coldTake (s : State) : State :=
  if s.ms.inTransition then s
  else (s.modPair fun p => { p with phase := 0, resumeAt := 2, carried := [], releases := [], shadow := [], arrived := [] }).toSolo 14

/-- The partner is lost in M6 (R580): before t0 the swap is aborted first; after it the device that holds ACTIVE_OUT goes on
alone, and the other one waits for its partner. -/
def State.lostInSwap (s : State) (reason : Nat) : State :=
  if s.ms.inTransition then s
  else if !s.pair.swapped then (s.abortSwap 1).partnerLost reason
  else if s.pins.activeOut then
    -- the old active still holds it only while its swap is not confirmed; the new active takes over
    let s := (s.modPair fun p => { p with agreement := none, swapped := false, peerSynced := false }).changeMode .m4 16
    let us := s.draw
    let s := us.2.ownAll.useShadow
    let s := (s.modPair fun p => { p with tookOver := true, takeoverUs := us.1 % 251 }).count (.device .pairTakeovers)
    ((s.partnerLost reason).settleFinals).pairEntry 0x0308 0 0 0 (us.1 % 251)
  else s

/-- The Pair Link goes down (R539, R542, R570, R573). -/
def State.pairDown (s : State) : State :=
  if !s.pair.linkUp then s
  else
    let again := if 3 ≤ s.pair.phase then 3 else 2
    let s := s.modPair fun p =>
      { p with linkUp := false, formed := false, refused := 0, helloRx := false, unacked := [], keySent := 0, keyFails := 0 }
    let s := { s with ms := { s.ms with standbyHeld := false } }
    match s.ms.mode with
    | .m4 => (s.abortSwap 1).partnerLost 2
    | .m6 => s.lostInSwap 2
    | .m5 => (s.abortSwap 1).dropSync 1 again false
    | _ => s.modPair fun p => { p with peerPhase := 0, peerSynced := false }

/-! ### Digests -/

/-- The CRC-64 of R557: reflected, with preset and final inversion. -/
def crc64 (b : Bytes) : Nat := crcRefl 64 0xC96C5795D7870F42 b

/-- Digest of a port in an epoch: 0 when it sent nothing. -/
def digestOfFrames (l : List DigestFrame) : Nat :=
  if l.isEmpty then 0 else crc64 (l.flatMap fun f => f.data.getD [])

/-- Digests of an epoch, of the ports that sent frames in it. -/
def Pair.ownDigests (p : Pair) (e : Nat) : List (Nat × Nat) :=
  (p.frames.filter fun x => x.1 / 256 == e && !x.2.isEmpty).map fun x => (x.1 % 256, digestOfFrames x.2)

/-- Every frame of an epoch is known whole. -/
def Pair.epochKnown (p : Pair) (e : Nat) : Bool := p.frames.all fun x => x.1 / 256 != e || x.2.all fun f => f.data.isSome

/-- A port that is not compared (R559, R561, R571): one in pass-through, one of a pipe of whose self-check the standby has not
reported yet, or on the standby one of a pipe under test or in rejoin. -/
def State.exemptPort (s : State) (p : Nat) : Bool :=
  let pipe := p / 32
  let through := match s.ringOf p with | some r => tget false s.ports.passThrough r.1 | none => false
  let checked := match s.pair.check with
    | some c => c.slices.contains (1, pipe) && (if s.follows then c.mine else c.partner).isNone
    | none => false
  through || s.pair.testing == some pipe || s.pair.rejoining == some pipe || checked

/-- Digests are compared (R559); in phase 5 the standby compares to converge (R569). -/
def State.compares (s : State) : Bool :=
  if s.follows then s.ms.synced || s.pair.phase == 5 else s.leads && (s.pair.peerSynced || s.pair.peerPhase == 5)

/-- Slices that a mismatch of a port implicates (R560), as KIND and number; the banks and decoder cores that served the port
do not show. -/
def State.implicated (s : State) (p : Nat) : List (Nat × Nat) :=
  (1, p / 32) :: match s.portSite p with
    | some n => (match s.laneOf n with | some l => [(3, l)] | none => []) ++ [(5, 0)]
    | none => []

/-- A mismatch starts a self-check, or joins the one that runs (R561); before t0 it aborts a swap (R580). -/
def State.selfCheck (s : State) (e p : Nat) (tell : Bool) : State :=
  let new := s.implicated p
  let s := s.modPair fun x => { x with check := some (match x.check with
    | some c => { c with slices := c.slices ++ new.filter (fun y => !c.slices.contains y), ports := p :: c.ports }
    | none => { slices := new, ports := [p] }) }
  let s := if tell then s.pairSend (.arbitrate (.notice e p)) else s
  s.abortBefore

/-- A port that differs in an epoch (R559, R564, R592). -/
def State.mismatch (s : State) (e p : Nat) : State :=
  let s := (s.count (.port p .pairMismatch)).pace p 2 3 0x0305 (leBytes 1 0 ++ leBytes 1 p ++ [0, 0] ++ leBytes 6 e ++ leBytes 4 0) 10 4
  if s.pair.watched.contains p && decide (0 < s.pair.watchLeft) then
    if s.follows then s.dropSync 2 3 true else s.modPair fun x => { x with peerSynced := false, peerPhase := 3 }
  else s.selfCheck e p true

/-- Compare an epoch whose digests of both devices are there (R558). -/
def State.compareDigests (s : State) (e : Nat) (theirs : List (Nat × Nat)) : State :=
  let mine := s.pair.ownDigests e
  let at_ (l : List (Nat × Nat)) (p : Nat) : Nat := match l.find? fun x => x.1 == p with | some x => x.2 | none => 0
  let ports := (List.range 256).filter fun p => at_ mine p != at_ theirs p && !s.exemptPort p
  let s := s.modPair fun x =>
    { x with frames := x.frames.filter (fun y => y.1 / 256 != e), digests := tset none x.digests e none,
             agreed := if ports.isEmpty then x.agreed + 1 else 0 }
  let s := if s.ms.synced || s.pair.peerSynced then ports.foldl (fun s p => s.mismatch e p) s else s
  s.modPair fun x => { x with watchLeft := x.watchLeft - 1 }

/-- Send the digests of own epochs that ended at least 4 epochs ago and are known whole, and compare those whose partner's
have come. -/
def State.digestsDue (s : State) : Nat → State
  | 0 => s
  | n + 1 =>
    let e := s.pair.nextDigest
    if s.epoch < e + 4 || !s.pair.epochKnown e then s
    else
      let s := (s.modPair fun p => { p with nextDigest := e + 1 }).pairSend (.digest e)
      let s :=
        if !s.compares then s.modPair fun x => { x with frames := x.frames.filter fun y => y.1 / 256 != e }
        else
          match tget none s.pair.digests e with
          | some l => s.compareDigests e l
          | none => s
      s.digestsDue n

/-! ### Arbitration -/

/-- PAIR_UNEXPLAINED (R562, R563). -/
def State.unexplained (s : State) : State :=
  let s := (s.modPair fun p => { p with unexplained := if p.unexplained = 0xFFFF then p.unexplained else p.unexplained + 1 }).count
    (.device .pairUnexplained)
  if s.counter (.device .pairUnexplained) % max s.cfg.pair.unexplainedLimit 1 = 0 then
    (s.modPair fun p => { p with alert := true }).pairEntry 0x0307 0 0 0 s.pair.unexplained.toNat
  else s

/-- The outcome of a self-check, RESULT 1 to 4, on the first slice implicated (R562). -/
def State.outcome (s : State) (result : Nat) (slice : Nat × Nat) (ports : List Nat) : State :=
  let s := (s.modPair fun p => { p with check := none, lastArb := (result, slice.1, slice.2) }).count (.device .pairArbitrations)
  let s := s.pairEntry 0x0306 result slice.1 slice.2 0
  let standbyLoses (s : State) : State := if s.follows then s.enterSafe 6 else s.partnerLost 3
  match result with
  | 1 => (s.unexplained).modPair fun p => { p with watched := ports, watchLeft := 64 }
  | 2 => standbyLoses s
  | 3 => if s.follows then s else s.enterSafe 6
  | _ =>
    if s.follows then s.enterSafe 6
    else
      -- the active handles its fault by the level rules of R30
      let s := if slice.1 = 1 ∧ !s.levelBusy 3 slice.2 then
          ((s.levelFault 3 1 slice.2 5).beginReset 3 slice.2).switchRings
        else s
      s.partnerLost 3

/-- Both reports of the self-check are there. -/
def State.settleCheck (s : State) : State :=
  match s.pair.check with
  | none => s
  | some c =>
    match c.mine, c.partner with
    | some a, some b =>
      let active := if s.follows then b else a
      let standby := if s.follows then a else b
      s.outcome (1 + b2n standby + 2 * b2n active) (c.slices.headD (1, 0)) c.ports
    | _, _ => s

end Sys2Proof.Machine
end

