-- ==== Sys2Proof/Machine/PairRx.lean ====
section
/-! DEFINITION. The events of the Pair Link (R539 to R543), its messages (R541), synchronisation (R566 to R571), takeover and
ACTIVE_OUT (R572 to R575), Equinox (R576 to R581), and tests of pipes in service (R635, R636). -/

namespace Sys2Proof.Machine

/-! ### The link -/

/-- PAIR_LINK_UP (R543): HELLO is sent, and once per epoch until the partner's has come. -/
def execPairLinkUp (s : State) : Host.Outcome State Fault Refusal :=
  .next (if !s.procs.loaded || s.pair.linkUp then s
    else
      (s.modPair fun p => { p with linkUp := true, laneFailed := 0, helloRx := false, unacked := [], keySent := 0, keyFails := 0 }).pairSend
        .hello)

/-- PAIR_LINK_TIMEOUT (R542). -/
def execPairLinkTimeout (s : State) : Host.Outcome State Fault Refusal := .next s.pairDown

/-- PAIR_LANE_FAIL (R539): the link goes on at half rate, with LINK_DEGRADED, or goes down. -/
def execPairLaneFail (lane : Fin 8) (s : State) : Host.Outcome State Fault Refusal :=
  .next (if !s.pair.linkUp then s
    else
      let before := s.pair.lanesUp
      let s := s.modPair fun p => { p with laneFailed := p.laneFailed ||| BitVec.ofNat 8 (2 ^ lane.val) }
      let after := s.pair.lanesUp
      if after = 0 then s.pairDown else if after ≠ before then s.pairEntry 0x030E 0 after 0 0 else s)

/-- PAIR_CELL_RESEND (R542): every cell from the first one not acknowledged is sent again. -/
def execPairCellResend (s : State) : Host.Outcome State Fault Refusal :=
  .next (if s.pair.linkUp then s.count (.device .pairCellResent) (sumNat (s.pair.unacked.map (·.2))) else s)

/-! ### HELLO and HEARTBEAT -/

/-- HELLO as received (R543). -/
def helloOf (b : Bytes) : Hello :=
  { pairId := bit (byteAt b 0) 0, mode := byteAt b 1 % 16, stepping := byteAt b 2, major := byteAt b 3, minor := byteAt b 4,
    setVersion := leAt b 6 2, pub := slice b 8 32 }

/-- Why a HELLO is refused (R565), 0 when it is accepted. -/
def State.helloRefused (s : State) (h : Hello) : Nat :=
  let partners := match s.ms.running with | some x => x.partners | none => []
  if !partners.contains (256 * h.major + h.minor) then 1
  else if h.stepping ≠ stepping then 3
  else if h.pairId = s.pins.pairId then 2
  else 0

/-- The partner of an M5 device is in a mode from which it can synchronise (R570). -/
def syncMode (m : Nat) : Bool := m == 3 || m == 4 || m == 6

/-- The standby begins, or resumes, to synchronise (R566, R570). -/
def State.startSync (s : State) : State :=
  if s.ms.mode == .m5 && s.pair.formed && syncMode s.pair.peerMode && decide (s.pair.phase ≤ 1) then
    s.modPair fun p => { p with phase := p.resumeAt, resumeAt := 2 }
  else s

/-- PAIR_HELLO (R565): the pair forms or is refused. -/
def execPairHello (payload : Bytes) (s : State) : Host.Outcome State Fault Refusal :=
  .next (if !s.pair.linkUp then s
    else
      let h := helloOf payload
      let why := s.helloRefused h
      let was := s.pair.formed
      let told := s.pair.refused
      let s := s.modPair fun p =>
        { p with peer := some h, helloRx := true, refused := why, formed := why == 0, peerMode := h.mode,
                 nextDigest := if was then p.nextDigest else s.epoch }
      if why = 0 then
        let s := { s with ms := { s.ms with standbyHeld := false } }
        let s := if was then s else s.pairEntry 0x0301 0 0 0 s.pair.release
        let s := if s.ms.mode == .m3 && h.mode == 5 && s.pair.peerPhase == 0 then s.modPair fun p => { p with peerPhase := 2 } else s
        s.startSync
      else
        let s := if s.ms.mode = .m5 then { s with ms := { s.ms with standbyHeld := true } } else s
        if told ≠ why ∧ (s.ms.mode = .m5 ∨ (s.ms.mode = .m3 ∧ why = 2)) then s.pairEntry 0x0302 why 0 0 s.pair.release else s)

/-- Messages that CSEQ `c` acknowledges are outstanding no more (R542). -/
def Pair.acknowledge (p : Pair) (c : BitVec 32) : Pair :=
  { p with unacked := p.unacked.filter fun x => decide (2 ^ 31 ≤ (c - (x.1 + BitVec.ofNat 32 (x.2 - 1))).toNat) }

/-- What a HEARTBEAT's mode and SYNCED mean in M3, M4 and M5 (R42, R570, R573). -/
def State.peerState (s : State) (mode : Nat) (synced : Bool) : State :=
  if s.ms.inTransition then s
  else match s.ms.mode with
  | .m3 =>
    if mode = 5 ∧ s.pair.formed then
      if synced then (s.modPair fun p => { p with peerPhase := 6, peerSynced := true }).changeMode .m4 12
      else s.modPair fun p => { p with peerPhase := max p.peerPhase 2 }
    else s.modPair fun p => { p with peerPhase := 0, peerSynced := false }
  | .m4 =>
    if mode = 5 ∨ mode = 6 then
      s.modPair fun p => { p with peerSynced := synced, peerPhase := if synced then 6 else min p.peerPhase 5 }
    else (s.abortSwap 1).partnerLost 3
  | .m5 => if syncMode mode then s.startSync else s.dropSync 0 2 false
  | .m6 =>
    let s := if s.pair.wasActive && !synced then s.abortBefore else s
    if mode = 4 ∨ mode = 5 ∨ mode = 6 then s else s.lostInSwap 3
  | _ => s

/-- PAIR_HEARTBEAT (R541): the partner lives, so that ALIVE_IN is high; a fault before t0 aborts a swap (R580). -/
def execPairHeartbeat (mode : Fin 8) (synced faults : Bool) (cseq : BitVec 32) (s : State) : Host.Outcome State Fault Refusal :=
  .next (if !s.pair.linkUp then s
    else
      let s := { s with pins := { s.pins with aliveIn := true } }
      let s := (s.modPair fun p => { p with peerMode := mode.val }).modPair fun p => p.acknowledge cseq
      let s := if faults then s.abortBefore else s
      s.peerState mode.val synced)

/-! ### Digests and arbitration -/

/-- PAIR_DIGEST (R558): kept until this device's own digests of the epoch are known, or compared at once. -/
def execPairDigest (epoch : Nat) (digests : List (Fin 256 × BitVec 64)) (s : State) : Host.Outcome State Fault Refusal :=
  .next (if !s.pair.linkUp || !s.compares then s
    else
      let l := digests.map fun x => (x.1.val, x.2.toNat)
      if epoch < s.pair.nextDigest then s.compareDigests epoch l
      else s.modPair fun p => { p with digests := tset none p.digests epoch (some l) })

/-- PAIR_ARBITRATE (R561, R562, R636). -/
def execPairArbitrate (m : ArbMsg) (s : State) : Host.Outcome State Fault Refusal :=
  .next (if !s.pair.linkUp || !s.paired then s
    else
      match m with
      | .notice e p => s.selfCheck e (p % 256) false
      | .report fault =>
        match s.pair.check with
        | some c => (s.modPair fun p => { p with check := some { c with partner := some fault } }).settleCheck
        | none =>
          -- a report of FAULT without a self-check is that of a pipe test in service; which pipe it names is not shown
          if fault ∧ s.leads then
            let z := s.draw
            z.2.outcome 2 (1, z.1 % 8) []
          else s)

/-- SELF_CHECK_DONE (R561). -/
def execSelfCheckDone (fault : Bool) (s : State) : Host.Outcome State Fault Refusal :=
  .next (match s.pair.check with
    | some c =>
      if c.mine.isSome then s
      else ((s.modPair fun p => { p with check := some { c with mine := some fault } }).pairSend (.arbitrate (.report fault))).settleCheck
    | none => s)

/-- SELF_CHECK_TIMEOUT (R561): a device that has not reported counts as reporting FAULT. -/
def execSelfCheckTimeout (s : State) : Host.Outcome State Fault Refusal :=
  .next (match s.pair.check with
    | some c =>
      (s.modPair fun p => { p with check := some { c with mine := some (c.mine.getD true), partner := some (c.partner.getD true) } }).settleCheck
    | none => s)

/-! ### Carried items -/

/-- PAIR_COMMAND (R545): the standby holds the command for its check; from phase 3 on (R566). -/
def execPairCommand (opcode : BitVec 16) (r : Aci) (release : Nat) (s : State) : Host.Outcome State Fault Refusal :=
  .next (if !s.pair.linkUp || !s.follows || decide (s.pair.phase < 3) then s
    else if release < s.epoch + 8 then s.dropSync 3 3 true
    else
      match carriedSpec opcode.toNat with
      | none => s
      | some c =>
        let q := { reqOf c.op (c.buffer && !c.inlinePl) r with carried := true }
        let ref : CmdRef := { q.ref with carried := true, own := false }
        (s.modMbox q.fn fun m => { m with inflight := ref :: m.inflight }).modPair fun p =>
          { p with carried := p.carried ++ [{ req := q, epoch := release, own := false }] })

/-- PAIR_CHECK (R545, R547). -/
def execPairCheck (fn : Fin 17) (tag : BitVec 12) (final : Bool) (status : BitVec 16) (sub : Byte) (s : State) :
    Host.Outcome State Fault Refusal :=
  let st := (status.toNat, sub.toNat)
  .next (if !s.pair.linkUp || !s.paired then s
    else if !final then s.modTagged fn.val tag.toNat fun x => { x with partner := some st }
    else
      let same (x : Final) : Bool := x.fn == fn.val && x.tag % 4096 == tag.toNat
      let s := s.modPair fun p =>
        { p with finals :=
            if p.finals.any same then p.finals.map fun x => if same x then { x with partner := some st } else x
            else p.finals ++ [{ fn := fn.val, tag := tag.toNat, opcode := 0, partner := some st }] }
      s.settleFinals)

/-- PAIR_EFFECT (R548). -/
def execPairEffect (release : Nat) (e : FwEffect) (s : State) : Host.Outcome State Fault Refusal :=
  .next (if s.pair.linkUp then s.receive release (.effect e) else s)

/-- PAIR_MEASURE (R549). -/
def execPairMeasure (release : Nat) (m : Measure) (s : State) : Host.Outcome State Fault Refusal :=
  .next (if s.pair.linkUp then s.receive release (.measure m) else s)

/-- PAIR_LEARN (R550). -/
def execPairLearn (release : Nat) (pipe : Fin 8) (m : LearnMsg) (s : State) : Host.Outcome State Fault Refusal :=
  let r : Release := match m with
    | .learn mac vlan port move => .learn pipe.val { mac := mac, vlan := vlan, port := port, move := move }
    | .aged mac vlan => .aged pipe.val mac vlan
  .next (if s.pair.linkUp then s.receive release r else s)

/-- PAIR_RETIRE (R553). -/
def execPairRetire (release : Nat) (cell : BitVec 20) (port : Fin 256) (s : State) : Host.Outcome State Fault Refusal :=
  .next (if s.pair.linkUp then s.receive release (.retire cell.toNat port.val) else s)

/-- PAIR_SEED (R551). -/
def execPairSeed (release : Nat) (seed : BitVec 128) (s : State) : Host.Outcome State Fault Refusal :=
  .next (if s.pair.linkUp then s.receive release (.seed (leBytes 16 seed.toNat)) else s)

/-- PAIR_INJECT (R555). -/
def execPairInject (release : Nat) (x : Injected) (s : State) : Host.Outcome State Fault Refusal :=
  .next (if s.pair.linkUp then s.receive release (.inject x) else s)

/-- PAIR_KEY (R502, R543): a Tenant Root, or a failed tag; the third in succession drops the link. -/
def execPairKey (payload : Bytes) (s : State) : Host.Outcome State Fault Refusal :=
  .next (if !s.pair.linkUp || !s.follows then s
    else
      match Config.gcmOpen s.pairKp (slice payload 4 12) [] (slice payload 16 48) with
      | some v =>
        s.modPair fun p => { p with rootKeys := tset none p.rootKeys (byteAt payload 0 % 16) (some (fit 32 v)), keyFails := 0 }
      | none => if 2 ≤ s.pair.keyFails then s.pairDown else s.modPair fun p => { p with keyFails := p.keyFails + 1 })

/-! ### Synchronisation -/

/-- What a STATE message carries (R566), as the release lays it out: of phase 3 or of phase 4. -/
structure StateCopy where
  join : Bool
  /-- Phase 3: the settings with their version, the bases, KEY_EPOCH and LEASE_END of each domain, the tables, the site states,
  the key slots other than Tenant Roots, and what is usable. -/
  version : Nat
  cfg : Cfg
  bases : Tab Base
  leases : Tab Lease
  fwd : Fwd
  qos : Qos
  sites : Tab Site
  slots : Tab KeySlot
  usable : Usable
  /-- Phase 4: the Node Store with staging and outbound counters, and the radio state. -/
  mesh : Mesh
  radio : Radio
  deriving DecidableEq, Repr

/-- The layout of STATE messages, which is the Ablen release's own (R541; log entry 2). -/
opaque stateCopy : Bytes → Option StateCopy

/-- Settings as the standby takes them (R566, R567): converted to its own version, with its own device-local part. -/
def State.takeCfg (s : State) (version : Nat) (c : Cfg) : Cfg :=
  let c := if version < s.ms.setVersion then (migrateCfg version s.ms.setVersion c).getD c else c
  { c with own := s.cfg.own }

/-- Phase 3 (R566). -/
def State.copyConfig (s : State) (x : StateCopy) : State :=
  let c := s.takeCfg x.version x.cfg
  let s := (s.store fun _ => c).stageLease x.leases
  let roots (t : Tab KeySlot) : Tab KeySlot := (t.filter fun e => e.1 < 16) ++ x.slots.filter fun e => decide (16 ≤ e.1)
  let s := { s with
    time := { s.time with bases := x.bases }
    fwd := x.fwd
    qos := { x.qos with banksRemoved := s.qos.banksRemoved, sparesUsed := s.qos.sparesUsed, bankMap := s.qos.bankMap }
    radio := { s.radio with sites := x.sites }
    nv := { s.nv with keys := { s.nv.keys with slots := roots s.nv.keys.slots } } }
  (s.modPair fun p => { p with peerUsable := some x.usable }).setRings

/-- PAIR_STATE (R566): what the active sends takes the place of the standby's own in the phases of configuration and join. -/
def execPairState (payload : Bytes) (s : State) : Host.Outcome State Fault Refusal :=
  .next (if !s.pair.linkUp || s.ms.mode != .m5 then s
    else
      match stateCopy payload with
      | none => s
      | some x =>
        if s.pair.phase = 3 ∧ !x.join then s.copyConfig x
        else if s.pair.phase = 4 ∧ x.join then
          { s with mesh := x.mesh, radio := { x.radio with lanes := s.radio.lanes, badLanes := s.radio.badLanes, badCores := s.radio.badCores } }
        else s)

/-- What of this device is usable (R637). -/
def State.usableNow (s : State) : Usable :=
  { pipes := (List.range 8).filter fun p => !tget false s.ports.pipeOut p, cores := 16 - s.radio.badCores,
    combiner := !s.bist.unusable.contains (5, 0), sites := (List.range 96).filter fun n => (s.laneOf n).isSome }

/-- The standby lacks what the active uses (R637). -/
def Usable.short (mine theirs : Usable) : Bool :=
  theirs.pipes.any (fun p => !mine.pipes.contains p) || decide (mine.cores < theirs.cores) || (theirs.combiner && !mine.combiner) ||
    theirs.sites.any fun n => !mine.sites.contains n

/-- What the standby has in excess is removed until its next M1 entry (R637). -/
def State.removeExcess (s : State) (u : Usable) : State :=
  let me := s.usableNow
  let pipes := me.pipes.filter fun p => !u.pipes.contains p
  let sites := me.sites.filter fun n => !u.sites.contains n
  { s with
    ports := { s.ports with pipeOut := pipes.foldl (fun t p => tset false t p true) s.ports.pipeOut }
    radio := { s.radio with badCores := max s.radio.badCores (16 - u.cores),
                            lanes := sites.foldl (fun t n => tset none t n (some none)) s.radio.lanes }
    bist := { s.bist with unusable := if me.combiner && !u.combiner then (5, 0) :: s.bist.unusable else s.bist.unusable } }

/-- The end of phase 3 (R502, R566, R637): the Tenant Roots carried are staged for commit, unless the standby is too small. -/
def State.endConfig (s : State) : State :=
  match s.pair.peerUsable with
  | none => s
  | some u =>
    if s.usableNow.short u then
      if s.pair.mismatchTold then s
      else (s.modPair fun p => { p with mismatchTold := true }).alarm 12 0x0C05 []
    else
      let roots := s.pair.rootKeys.filterMap fun e => e.2.map fun v => ({ op := .root e.1 v, reply := none } : KeyStage)
      let s := { s with nv := { s.nv with keys := { s.nv.keys with staged := s.nv.keys.staged ++ roots } } }
      (s.removeExcess u).modPair fun p => { p with phase := 4, rootKeys := [] }

/-- SYNCED (R569). -/
def State.setSynced (s : State) : State :=
  let ms := min ((s.time.duration - s.pair.m5At) / 1600000) 0xFFFFFFFF
  let s := { s with ms := { s.ms with synced := true } }
  (s.modPair fun p => { p with phase := 6, syncMs := ms }).pairEntry 0x0303 0 0 0 ms

/-- The pair clock is set to the active's at a beat (R536, R566), a multiple of 256 counts that this device does not know
(log entry 3). -/
def State.alignClock (s : State) : State :=
  let z := s.draw
  let t := 256 * z.1
  ({ z.2 with time := { s.time with duration := t, ppsInAt := s.time.ppsInAt.map fun a => a + t - s.time.duration } }).modPair fun p =>
    { p with phase := 3, peerUsable := none, rootKeys := [], nextDigest := epochOf t, frames := [], digests := [], m5At := t - (s.time.duration - p.m5At) }

/-- A Tenant Root that is set goes to the partner. -/
def State.sendRoot (s : State) (t : Nat) : State :=
  if s.slotState t = 1 then s.sendKey t (s.keySlot t).value else s

/-- The active begins to send its configuration (R551, R566): a pair seed, its Tenant Roots and STATE. -/
def State.sendConfig (s : State) : State :=
  let z := s.drawOctets 16
  let s := (z.2.modPair fun p => { p with peerPhase := 3 }).carry 16 (.seed z.1)
  let s := (List.range 16).foldl State.sendRoot s
  s.pairSend .state

/-- SYNC_PHASE_DONE (R566 to R571): the phase at hand ends; on the active, so does the standby's. On a standby that is
synchronised a pipe's rejoin ends. -/
def execSyncPhaseDone (s : State) : Host.Outcome State Fault Refusal :=
  .next (if !s.pair.linkUp || !s.pair.formed then s
    else if s.ms.mode = .m5 then
      match s.pair.phase with
      | 2 => s.alignClock
      | 3 => s.endConfig
      | 4 => s.modPair fun p => { p with phase := 5, agreed := 0 }
      | 5 => if 64 ≤ s.pair.agreed then s.setSynced else s
      | 6 => s.modPair fun p => { p with rejoining := none }
      | _ => s
    else if s.ms.mode = .m3 ∨ s.ms.mode = .m4 then
      match s.pair.peerPhase with
      | 2 => s.sendConfig
      | 3 => (s.modPair fun p => { p with peerPhase := 4 }).pairSend .state
      | 4 => s.modPair fun p => { p with peerPhase := 5 }
      | _ => s
    else s)

/-- The policers whose buckets are not full. -/
def Policer.full (x : Policer) : Bool := x.tc == x.cbs * 100000 && x.te == x.ebs * 100000

/-- SYNC_CONVERGE_TIMEOUT (R568): ports that still hold frames are flushed, and policers that are not full are refilled. -/
def execSyncConvergeTimeout (s : State) : Host.Outcome State Fault Refusal :=
  .next (if !s.pair.linkUp || !(if s.follows then s.pair.phase == 5 else s.pair.peerPhase == 5) then s
    else
      let ports := (List.range 256).filter fun p => !(s.busyQueues p).isEmpty
      let pols := (s.qos.policers.filter fun e => !e.2.full).map (·.1)
      let s := ports.foldl (fun s p => (s.flushPort p).count (.device .syncFlush)) s
      pols.foldl (fun s n =>
        let s := { s with qos := { s.qos with policers := tmod {} s.qos.policers n fun x => { x with tc := x.cbs * 100000, te := x.ebs * 100000 } } }
        s.count (.device .syncForced)) s)

/-! ### The end of an epoch -/

/-- COMPARE_EPOCH (R541, R543, R545, R558): HELLO or HEARTBEAT goes out, what is released takes effect, and digests are sent
and compared. -/
def execCompareEpoch (s : State) : Host.Outcome State Fault Refusal :=
  .next (if s.ms.mode = .m0 then s
    else
      let s := if s.pair.helloRx then s else s.pairSend .hello
      let s := (s.pairSend .heartbeat).releaseDue
      s.digestsDue 16)

/-! ### ACTIVE_OUT, ACTIVE_IN and ALIVE_IN -/

/-- ACTIVE_IN_RISE (R42, R187, R572): the masters are released in M1, M2 and M7; a device that waits for its role becomes the
standby. -/
def execActiveInRise (s : State) : Host.Outcome State Fault Refusal :=
  .next (
    let s := { s with pins := { s.pins with activeIn := true } }
    let s := if s.pair.backoff.isSome then s.modPair fun p => { p with backoffRise := true } else s
    let s := s.setDriving
    if (s.ms.mode = .m1 ∨ s.ms.mode = .m2) ∧ s.ms.bootStep = 4 then s.toStandby 9 else s)

/-- ACTIVE_IN_FALL (R39, R187, R572, R574): a synchronised standby takes over; a device in M3 whose ACTIVE_OUT waited for it
raises it. -/
def execActiveInFall (s : State) : Host.Outcome State Fault Refusal :=
  .next (
    let s := { s with pins := { s.pins with activeIn := false } }
    match s.ms.mode with
    | .m5 => if s.ms.synced then s.takeOver else s
    | .m6 =>
      if !s.pair.swapped && !s.pair.wasActive then
        let s := s.abortSwap 1
        if s.ms.mode == .m5 && s.ms.synced then s.takeOver else s
      else s
    | .m3 => s.setActive
    | _ => s.setDriving)

/-- TAKEOVER_WAIT_EXPIRY (R42): ACTIVE_IN low for 1 s with SYNCED 0. -/
def execTakeoverWaitExpiry (s : State) : Host.Outcome State Fault Refusal :=
  .next (if s.ms.mode = .m5 ∧ !s.ms.synced ∧ !s.pins.activeIn then s.coldTake else s)

/-- PARTNER_ALIVE_LOST (R573, R580). -/
def execPartnerAliveLost (s : State) : Host.Outcome State Fault Refusal :=
  .next (
    let s := { s with pins := { s.pins with aliveIn := false } }
    match s.ms.mode with
    | .m4 => (s.abortSwap 1).partnerLost 1
    | .m6 => s.lostInSwap 1
    | _ => s)

/-- ACTIVE_CONFLICT (R572): ACTIVE_OUT falls and a back-off is drawn, in us. -/
def execActiveConflict (s : State) : Host.Outcome State Fault Refusal :=
  .next (if !s.pins.activeOut || !s.pins.activeIn || s.ms.mode == .m6 then s
    else
      let z := s.drawOctets 4
      let n := leNat z.1
      let us := if s.pins.pairId then 1010 + n % 991 else 10 + n % 91
      ({ z.2 with pins := { s.pins with activeOut := false } }).modPair fun p => { p with backoff := some us, backoffRise := false })

/-- BACKOFF_EXPIRY (R572): ACTIVE_OUT rises again, or arbitration is lost. -/
def execBackoffExpiry (s : State) : Host.Outcome State Fault Refusal :=
  .next (if s.pair.backoff.isNone || s.ms.inTransition then s
    else
      let lost := s.pair.backoffRise || s.pins.activeIn
      let s := s.modPair fun p => { p with backoff := none, backoffRise := false }
      if s.ms.mode = .m3 ∨ s.ms.mode = .m4 then
        if lost then s.enterSafe 6 else { s with pins := { s.pins with activeOut := true } }
      else s)

/-! ### Equinox -/

/-- EQUINOX_NOTICE (R578): 60 s before Tx. -/
def execEquinoxNotice (s : State) : Host.Outcome State Fault Refusal :=
  .next (if (s.ms.mode = .m4 ∨ s.ms.mode = .m5) ∧ s.pair.formed then s.pairEntry 0x030A 0 0 0 60 else s)

/-- Why a swap is skipped (R578, R592): 1 disabled or held, 2 not synchronised, 3 self-check, 4 step pending; 0 for none. -/
def State.skipReason (s : State) : Nat :=
  let synced := if s.follows then s.ms.synced else s.pair.peerSynced
  let step := s.pair.carried.any fun c => c.req.opcode == 0x0503
  if !s.cfg.pair.equinoxEn || s.pair.hold || s.pair.skipNext then 1
  else if !synced then 2
  else if s.pair.check.isSome then 3
  else if step then 4
  else 0

/-- Where Tx lies after Ts, in ns: less than an epoch, on a clock phase that the model does not tie to TB0 (log entry 3). -/
def State.agree (s : State) : State :=
  let z := s.draw
  z.2.modPair fun p => { p with agreement := some (s.nextTs, z.1 % 16385) }

/-- EQUINOX_DECISION (R578): at Tx - 1 s the swap is agreed or skipped. -/
def execEquinoxDecision (s : State) : Host.Outcome State Fault Refusal :=
  .next (if !((s.ms.mode == .m4 || s.ms.mode == .m5) && s.pair.formed) then s
    else
      let why := s.skipReason
      if why = 0 then (if s.pair.agreement.isSome then s else s.agree).pairSend (.equinox .agree)
      else
        ((s.modPair fun p => { p with skipNext := false, agreement := none }).count (.device .equinoxSkips)).pairEntry 0x030D why 0 0 0)

/-- PAIR_EQUINOX_MSG (R541, R578, R580). -/
def execPairEquinoxMsg (m : EqxMsg) (s : State) : Host.Outcome State Fault Refusal :=
  .next (if !s.pair.linkUp then s
    else
      match m with
      | .agree => if s.ms.mode == .m5 && s.pair.agreement.isNone && s.skipReason == 0 then s.agree else s
      | .abort => if s.pair.swapped then s.abortSwap 2 else s.abortSwap 1)

/-- EQUINOX_ENTER (R579): T15 of both devices. -/
def execEquinoxEnter (s : State) : Host.Outcome State Fault Refusal :=
  .next (if s.pair.agreement.isSome ∧ !s.ms.inTransition ∧ (s.ms.mode = .m4 ∨ s.ms.mode = .m5) then
      let active := s.ms.mode == .m4
      (s.modPair fun p => { p with wasActive := active, swapped := false }).changeMode .m6 15
    else s)

/-- RADIO_START_HOLD (R577): for 16 us, in counts of the duration counter. -/
def execRadioStartHold (s : State) : Host.Outcome State Fault Refusal :=
  .next (if s.ms.mode = .m6 then s.modPair fun p => { p with radioHold := some (s.time.duration + 25600) } else s)

/-- A port sends a frame of a queue q = 8-127 (R581). -/
def State.sendsTraffic (s : State) (p : Nat) : Bool :=
  let x : Sched := tget {} s.qos.scheds p
  match x.sending with
  | some y => decide (8 ≤ y.1 % 128)
  | none => false

/-- EQUINOX_SWAP (R579, R581): at t0 the old active drops ACTIVE_OUT and the old standby raises it. -/
def execEquinoxSwap (s : State) : Host.Outcome State Fault Refusal :=
  .next (if s.ms.mode ≠ .m6 ∨ s.pair.swapped ∨ s.ms.inTransition then s
    else
      let ports := (List.range 256).filter s.sendsTraffic
      let s := { s with pins := { s.pins with activeOut := !s.pair.wasActive } }
      let s := s.modPair fun p => { p with swapped := true, lossPorts := ports.length }
      ports.foldl (fun s p => s.count (.port p .equinoxLoss)) s)

/-- EQUINOX_CONFIRM_TIMEOUT (R580): the old active does not see ACTIVE_IN high by t0 + 4 us. -/
def execEquinoxConfirmTimeout (s : State) : Host.Outcome State Fault Refusal :=
  .next (if s.ms.mode = .m6 ∧ s.pair.swapped ∧ s.pair.wasActive ∧ !s.pins.activeIn then
      (s.pairSend (.equinox .abort)).abortSwap 2
    else s)

/-- EQUINOX_COMPLETE (R579): T16, and a new pair seed. -/
def execEquinoxComplete (s : State) : Host.Outcome State Fault Refusal :=
  .next (if s.ms.mode ≠ .m6 ∨ !s.pair.swapped ∨ s.ms.inTransition then s
    else
      let old := s.pair.wasActive
      let s := (s.modPair fun p => { p with agreement := none, swapped := false }).count (.device .equinoxSwaps)
      let s :=
        if old then
          let s := (s.modPair fun p => { p with phase := 6, peerPhase := 0, peerSynced := false }).changeMode .m5 16
          { s with ms := { s.ms with synced := true } }
        else
          let s := (s.modPair fun p => { p with phase := 0, peerPhase := 6, peerSynced := true }).changeMode .m4 16
          let z := s.drawOctets 16
          z.2.carry 16 (.seed z.1)
      s.pairEntry 0x030B 0 0 0 s.pair.lossPorts)

/-- EQUINOX_ABORT (R580): before t0. -/
def execEquinoxAbort (s : State) : Host.Outcome State Fault Refusal :=
  .next (if s.pair.swapped then s else s.abortSwap 1)

/-! ### Tests of pipes in service -/

/-- The next pipe to test, from a number up. -/
def State.pipeFrom (s : State) (n : Nat) : Option Nat :=
  ((List.range 8).map fun i => (n + i) % 8).find? fun p => !tget false s.ports.pipeOut p && !tget false s.ports.pipeReset p

/-- The next swap instant lies within 60 s (R635). -/
def State.swapNear (s : State) : Bool := s.cfg.pair.equinoxEn && decide (s.nextTs ≤ (s.now 0).1 + 60)

/-- PIPE_TEST_START (R635). -/
def execPipeTestStart (s : State) : Host.Outcome State Fault Refusal :=
  .next (if s.ms.mode != .m5 || !s.ms.synced || s.pair.check.isSome || s.cfg.pipeTestMin == 0 || s.swapNear ||
        s.pair.testing.isSome || s.pair.rejoining.isSome then s
    else
      match s.pipeFrom s.pair.nextPipe with
      | none => s
      | some p => (s.modPair fun x => { x with testing := some p, nextPipe := (p + 1) % 8 }).isolate 1 p true)

/-- PIPE_TEST_DONE (R635, R636): the pipe rejoins, or the standby has lost as after a self-check. -/
def execPipeTestDone (pass : Bool) (s : State) : Host.Outcome State Fault Refusal :=
  .next (match s.pair.testing with
    | none => s
    | some p =>
      let s := ((s.isolate 1 p false).reinit 1 p).count (.device .pipeTests)
      if pass then (s.modPair fun x => { x with testing := none, rejoining := some p }).bistEntry 0x0C04 1 p 0 0
      else
        let s := (s.modPair fun x => { x with testing := none }).count (.device .bistFails)
        let s := (s.bistEntry 0x0C03 1 p 0 1).pairSend (.arbitrate (.report true))
        s.outcome 2 (1, p) [])

end Sys2Proof.Machine
end

