-- ==== Sys2Proof/Machine/Registers.lean ====
section
/-! DEFINITION. The register maps (R7, R10, R68 to R72, R87, R97): MODE_REQ (R45), the reads that change state (R9, R584,
R682), the write of any other register, and what a read of each register returns (R41, R153, R584, R643, R645, R681,
R682). -/

namespace Sys2Proof.Machine

/-! ### MODE_REQ (R45) -/

/-- The key is right and exactly one of TARGET 7 and WARM is requested. -/
def modeReqOk (word : Nat) : Bool :=
  bits word 16 16 == 0x4D52 && (if bit word 4 then bits word 0 4 == 0 else bits word 0 4 == 7)

def State.setResult (s : State) (n : Nat) : State := { s with ms := { s.ms with reqResult := n } }

/-- The modes that accept a warm reset by the host. -/
def State.warmMode (s : State) : Bool := s.ms.mode != .m0 && s.ms.mode != .m1

/-- The modes that accept TARGET 7 and leave for M7 SAFE. -/
def State.safeMode (s : State) : Bool := s.ms.mode == .m3 || s.ms.mode == .m4 || s.ms.mode == .m5

/-- A write to MODE_REQ, judged by key and fields, then transition, then mode. -/
def State.writeModeReq (s : State) (word : Nat) : State :=
  if !modeReqOk word then s.setResult 3
  else if s.ms.inTransition then s.setResult 4
  else if bit word 4 then if s.warmMode then (s.setResult 1).restart 3 5 else s.setResult 2
  else if s.safeMode then (s.setResult 1).enterSafe 1
  else if s.ms.mode = .m7 then s.setResult 1
  else s.setResult 2

def execModeReqSafe (word : BitVec 32) (s : State) : Host.Outcome State Fault Refusal :=
  .next (if s.answers then s.writeModeReq word.toNat else s)

def execModeReqWarm (word : BitVec 32) (s : State) : Host.Outcome State Fault Refusal :=
  .next (if s.answers then s.writeModeReq word.toNat else s)

/-! ### Reads that change state -/

/-- EPOCH_LO_READ (R584): the epoch's low word, and bits [47:32] copied into EPOCH_HI. -/
def execEpochLoRead (s : State) : Host.Outcome State Fault Refusal :=
  .next (if s.answers then
      (s.modPair fun p => { p with epochHi := s.epoch / 2 ^ 32 % 2 ^ 16 }).reads (s.epoch % 2 ^ 32)
    else s)

/-- TEMP_PEAK_READ (R7, R682): the peak, which the read clears. -/
def execTempPeakRead (s : State) : Host.Outcome State Fault Refusal :=
  .next (if s.answers then
      ({ s with power := { s.power with tempPeak := 0, peakAny := false } }).reads s.power.tempPeak.toNat
    else s)

/-! ### Writes -/

/-- A 64-bit value with its low or high 32-bit word replaced. -/
def setLo (x : BitVec 64) (v : Nat) : BitVec 64 := BitVec.ofNat 64 (x.toNat / 2 ^ 32 * 2 ^ 32 + v % 2 ^ 32)
def setHi (x : BitVec 64) (v : Nat) : BitVec 64 := BitVec.ofNat 64 (x.toNat % 2 ^ 32 + v % 2 ^ 32 * 2 ^ 32)

/-- A mailbox register other than MBOX_CTRL (R71); bases and sizes keep their values while ENABLE is 1. -/
def Mbox.write (m : Mbox) (off v : Nat) : Mbox :=
  match off with
  | 0x004 => { m with dmaError := w1c m.dmaError v 2, doorbellError := w1c m.doorbellError v 3,
                      configError := w1c m.configError v 4 }
  | 0x008 => if m.enable then m else { m with cmdBase := setLo m.cmdBase v }
  | 0x00C => if m.enable then m else { m with cmdBase := setHi m.cmdBase v }
  | 0x010 => if m.enable then m else { m with cmdLog2 := BitVec.ofNat 4 v }
  | 0x014 => if m.enable then m else { m with rspBase := setLo m.rspBase v }
  | 0x018 => if m.enable then m else { m with rspBase := setHi m.rspBase v }
  | 0x01C => if m.enable then m else { m with rspLog2 := BitVec.ofNat 4 v }
  | 0x030 => { m with complWell := BitVec.ofNat 10 v, complValid := bit v 15 }
  | 0x034 => { m with rspVector := BitVec.ofNat 8 v, errVector := BitVec.ofNat 8 (v / 256) }
  | 0x038 => { m with modCount := BitVec.ofNat 8 v, modTimeUs := BitVec.ofNat 16 (v / 256) }
  | _ => m

def State.writeMbox (s : State) (f off v : Nat) : State :=
  if off = 0 then s.writeMboxCtrl f v else s.modMbox f fun m => m.write off v

/-- A doorbell (R72). -/
def State.writeDoorbell (s : State) (f off v : Nat) : State :=
  let c := BitVec.ofNat 16 v
  if off = 0 then s.ringCmd f c
  else if off = 4 then s.ringRsp f c
  else if 0x100 ≤ off ∧ off < 0x200 then s.ringPunt f ((off - 0x100) / 4) c
  else if 0x200 ≤ off ∧ off < 0x300 then s.ringInj f ((off - 0x200) / 4) c
  else s

/-- A bank address or MARK in a Well's control block (R87). -/
def Well.write (x : Well) (off v : Nat) : Well :=
  match off with
  | 0x04 => if x.enable then x else { x with bank0 := setLo x.bank0 v }
  | 0x08 => if x.enable then x else { x with bank0 := setHi x.bank0 v }
  | 0x0C => if x.enable then x else { x with bank1 := setLo x.bank1 v }
  | 0x10 => if x.enable then x else { x with bank1 := setHi x.bank1 v }
  | 0x14 => { x with mark := BitVec.ofNat 16 v }
  | _ => x

/-- A write at an offset of a Well control block, through a function's slot. -/
def State.writeWell (s : State) (f slot off v : Nat) : State :=
  match s.wellWrite f slot with
  | none => s
  | some w =>
    match off with
    | 0x00 => s.writeWellCtrl w v
    | 0x20 => s.writeDrain w v
    | 0x24 => s.writeLatch w v
    | _ => s.setWell w ((s.well w).write off v)

/-- A write into a function's MSI-X table (R97): address, data, and the mask bit. -/
def State.writeMsix (s : State) (f off v : Nat) : State :=
  let n := off / 16
  if vectorCount f ≤ n then s
  else if off % 16 = 12 ∧ !bit v 0 then s.unmask f n
  else
    let k := 256 * f + n
    let set (e : MsixVec) : MsixVec :=
      match off % 16 with
      | 0 => { e with addr := setLo e.addr v }
      | 4 => { e with addr := setHi e.addr v }
      | 8 => { e with data := BitVec.ofNat 32 v }
      | _ => { e with masked := true }
    { s with host := { s.host with msix := tmod {} s.host.msix k set } }

/-- A write to the MODE block (R41): RESET_CAUSE is W1C. -/
def State.writeMode (s : State) (off v : Nat) : State :=
  match off with
  | 0x004 => s.writeModeReq v
  | 0x00C => { s with ms := { s.ms with resetCause := s.ms.resetCause &&& ~~~BitVec.ofNat 8 v } }
  | _ => s

/-- A write to the PAIR block (R584): PAIR_LATCH is W1C. -/
def State.writePair (s : State) (off v : Nat) : State :=
  if off = 0x020 then s.modPair fun p =>
    { p with alert := w1c p.alert v 0, syncLost := w1c p.syncLost v 1, partnerLost := w1c p.partnerLost v 2,
             tookOver := w1c p.tookOver v 3 }
  else s

/-- A write to the RTC block (R153). -/
def State.writeRtc (s : State) (off v : Nat) : State :=
  match off with
  | 0x008 => s.writeRtcCtrl v
  | 0x00C => s.modRtc fun c => { c with loadLo := BitVec.ofNat 32 v }
  | 0x010 => s.modRtc fun c => { c with loadHi := BitVec.ofNat 32 v }
  | _ => s

/-- A write to the POWER block (R682): the thresholds are held within their limits, the latches are W1C. -/
def Power.write (p : Power) (off v : Nat) : Power :=
  match off with
  | 0x004 => { p with railFault := p.railFault &&& ~~~BitVec.ofNat 10 v }
  | 0x018 => { p with warnC := clampNat 60 120 (bits v 0 8), hbmWarnC := clampNat 60 95 (bits v 8 8) }
  | 0x01C => { p with warnHit := w1c p.warnHit v 0, hbmWarnHit := w1c p.hbmWarnHit v 1, tripSeen := w1c p.tripSeen v 2 }
  | _ => p

/-- A write to the snapshot window (R643). -/
def State.writeSnap (s : State) (off v : Nat) : State :=
  match off with
  | 0x000 => s.writeSnapCtrl v
  | 0x004 => { s with snap := { s.snap with ignored := w1c s.snap.ignored v 2 } }
  | 0x01C => { s with snap := { s.snap with period := BitVec.ofNat 16 v } }
  | _ => s

/-- A write to PF0 BAR0 (R69); no block covers what is left. -/
def State.writePf0 (s : State) (off v : Nat) : State :=
  if 0x1000 ≤ off ∧ off < 0x2000 then s.writeMode (off - 0x1000) v
  else if 0x2000 ≤ off ∧ off < 0x3000 then s.writePair (off - 0x2000) v
  else if 0x3000 ≤ off ∧ off < 0x4000 then s.writeRtc (off - 0x3000) v
  else if 0x4000 ≤ off ∧ off < 0x5000 then { s with power := s.power.write (off - 0x4000) v }
  else if 0x10000 ≤ off ∧ off < 0x11000 then s.writeMbox 0 (off - 0x10000) v
  else if 0x20000 ≤ off ∧ off < 0x30000 then s.writeWell 0 ((off - 0x20000) / 64) (off % 64) v
  else if 0x40000 ≤ off ∧ off < 0x41000 then s.writeDoorbell 0 (off - 0x40000) v
  else if 0x80000 ≤ off ∧ off < 0x1000000 then s.writeSnap (off - 0x80000) v
  else s

/-- A write to a VF's BAR0 (R70). -/
def State.writeVf (s : State) (f off v : Nat) : State :=
  if off < 0x1000 then s.writeMbox f off v
  else if 0x1000 ≤ off ∧ off < 0x5000 then s.writeWell f ((off - 0x1000) / 64) (off % 64) v
  else if 0x8000 ≤ off ∧ off < 0x9000 then s.writeDoorbell f (off - 0x8000) v
  else if 0xC000 ≤ off ∧ off < 0xC200 then s.writeMsix f (off - 0xC000) v
  else s

/-- An aligned 32-bit write to a register of a function (R68, R69, R70). -/
def State.writeReg (s : State) (f bar off v : Nat) : State :=
  if f = 0 then if bar = 0 then s.writePf0 off v else if bar = 2 then s.writeMsix 0 off v else s
  else if bar = 0 then s.writeVf f off v else s

/-- REGISTER_WRITE: a write of another width or alignment is discarded (R68). -/
def execRegisterWrite (f : Fin 17) (bar : Fin 4) (offset : BitVec 32) (width : Fin 9) (value : BitVec 32) (s : State) :
    Host.Outcome State Fault Refusal :=
  .next (if s.answers && width.val == 4 && offset.toNat % 4 == 0 then
      s.writeReg f.val bar.val offset.toNat value.toNat
    else s)

/-! ### What a read returns -/

/-- The IDENT block (R681). -/
def State.readIdent (s : State) (off : Nat) : Nat :=
  let z := s.nv.fuses
  match off with
  | 0x000 => 0x9651 + 65536 * 0x02
  | 0x004 => z.revoked.toNat + 16 * b2n z.rootProgrammed
  | 0x008 => z.serial.toNat % 2 ^ 32
  | 0x00C => z.serial.toNat / 2 ^ 32
  | 0x010 => leAt s.serviceMac 0 4
  | 0x014 => leAt s.serviceMac 4 2
  | _ => 0

/-- The MODE block (R41). TRIED shows the low three bits of the count, which has no bound for a last known good bank (DESIGN CHOICE,
log entry 111). -/
def State.readMode (s : State) (off : Nat) : Nat :=
  let x := s.ms
  match off with
  | 0x000 => x.mode.num + 16 * b2n x.inTransition + 32 * b2n x.standbyHeld + 64 * b2n x.synced + 128 * b2n x.unclean +
      256 * x.safeCause
  | 0x008 => x.reqResult
  | 0x00C => x.resetCause.toNat
  | 0x010 => b2n x.bank + 2 * b2n s.fallback + 4 * b2n x.lkg + 8 * ((s.bootRec x.bank).tried % 8) + 256 * 4 + 65536 * 1
  | 0x014 => x.blobVersion + 65536 * x.setVersion
  | 0x018 => x.startMs
  | _ => 0

/-- The PAIR block (R584). -/
def State.readPair (s : State) (off : Nat) : Nat :=
  let p := s.pair
  match off with
  | 0x000 => s.pairStatus
  | 0x004 => p.release
  | 0x008 => s.epoch % 2 ^ 32
  | 0x00C => p.epochHi
  | 0x010 => s.nextEqx % 2 ^ 32
  | 0x014 => s.nextEqx / 2 ^ 32 % 2 ^ 16
  | 0x018 => p.unexplained.toNat
  | 0x01C => p.lastArbWord
  | 0x020 => b2n p.alert + 2 * b2n p.syncLost + 4 * b2n p.partnerLost + 8 * b2n p.tookOver
  | 0x024 => min p.syncMs (2 ^ 32 - 1)
  | 0x028 => min p.takeoverUs (2 ^ 16 - 1)
  | _ => 0

/-- The RTC block (R153), without what a read changes. -/
def Rtc.read (c : Rtc) (off : Nat) : Nat :=
  match off with
  | 0x000 => c.count.toNat % 2 ^ 32
  | 0x004 => (if c.frozen then c.shadow else c.count).toNat / 2 ^ 32
  | 0x008 => b2n c.frozen
  | 0x00C => c.loadLo.toNat
  | 0x010 => c.loadHi.toNat
  | _ => 0

/-- The POWER block (R682), without what a read changes. -/
def Power.read (p : Power) (off : Nat) : Nat :=
  match off with
  | 0x000 => p.railInRange.toNat + 65536 * b2n p.warnActive + 131072 * b2n p.hbmWarnActive
  | 0x004 => p.railFault.toNat
  | 0x008 => p.tempCore.toNat
  | 0x00C => p.tempRc.toNat
  | 0x010 => p.tempReservoir.toNat
  | 0x014 => p.tempPeak.toNat
  | 0x018 => p.warnC + 256 * p.hbmWarnC
  | 0x01C => b2n p.warnHit + 2 * b2n p.hbmWarnHit + 4 * b2n p.tripSeen
  | 0x020 => p.watts.toNat
  | _ => if 0x040 ≤ off ∧ off < 0x068 then p.railMv.getD ((off - 0x040) / 4) 0 % 65536 else 0

/-- Reading of the command ring is held by mode or by TENANT_RESET (R71). -/
def State.held (s : State) (f : Nat) : Bool :=
  (s.mbox f).enable && (s.ms.inTransition || !s.modeReads f || (s.mbox f).tenantHeld)

/-- A mailbox block (R71). -/
def State.readMbox (s : State) (f off : Nat) : Nat :=
  let m := s.mbox f
  match off with
  | 0x000 => b2n m.enable + 2 * b2n m.rspIrqEn + 4 * b2n m.errIrqEn
  | 0x004 => b2n (m.enable && !s.held f && s.busMaster f) + 2 * b2n (s.held f) + 4 * b2n m.dmaError + 8 * b2n m.doorbellError +
      16 * b2n m.configError
  | 0x008 => m.cmdBase.toNat % 2 ^ 32
  | 0x00C => m.cmdBase.toNat / 2 ^ 32
  | 0x010 => m.cmdLog2.toNat
  | 0x014 => m.rspBase.toNat % 2 ^ 32
  | 0x018 => m.rspBase.toNat / 2 ^ 32
  | 0x01C => m.rspLog2.toNat
  | 0x020 => m.cmdHead.toNat
  | 0x024 => m.rspTail.toNat
  | 0x028 => m.mine.length
  | 0x02C => s.share f
  | 0x030 => m.complWell.toNat + 32768 * b2n m.complValid
  | 0x034 => m.rspVector.toNat + 256 * m.errVector.toNat
  | 0x038 => m.modCount.toNat + 256 * m.modTimeUs.toNat
  | 0x03C => m.busyCount.toNat
  | _ =>
    if 0x400 ≤ off ∧ off < 0x800 then
      let x := s.puntRing f ((off - 0x400) / 16)
      if !x.configured then 0
      else match off % 16 with
        | 0 => x.head.toNat
        | 4 => x.truncDrop.toNat
        | 8 => x.nobufDrop.toNat
        | _ => 0
    else if 0x800 ≤ off ∧ off < 0xC00 then
      let x := s.injRing f ((off - 0x800) / 16)
      if !x.configured then 0
      else match off % 16 with
        | 0 => x.head.toNat
        | 4 => x.injError.toNat
        | _ => 0
    else 0

/-- A Well's control block (R87). -/
def Well.read (x : Well) (credit : Bool) (off : Nat) : Nat :=
  match off with
  | 0x00 => b2n x.enable + 2 * b2n credit + 4 * b2n x.notice + 8 * x.log2 + 256 * x.vector + 65536 * x.timeBase
  | 0x04 => x.bank0.toNat % 2 ^ 32
  | 0x08 => x.bank0.toNat / 2 ^ 32
  | 0x0C => x.bank1.toNat % 2 ^ 32
  | 0x10 => x.bank1.toNat / 2 ^ 32
  | 0x14 => x.mark.toNat
  | 0x18 => x.fill.length + 65536 * b2n x.fillBank
  | 0x1C => x.ready.length + 65536 * x.readyGen.toNat
  | 0x24 => b2n x.levelHit + 2 * b2n x.closeRefused + 4 * b2n x.overwritten
  | 0x28 => x.lost.toNat
  | 0x2C => x.poisoned.toNat
  | 0x30 => x.total.toNat
  | 0x34 => x.nextSeq.toNat
  | 0x38 => x.creditOut
  | _ => 0

/-- A Well's control block through a function's slot: PF0 reads every Well, a VF those of its slots (R85). -/
def State.readWell (s : State) (f slot off : Nat) : Nat :=
  if f = 0 then (s.well slot).read (isCredit slot) off
  else match s.wellAt f slot with
    | some w => (s.well w).read (isCredit w) off
    | none => 0

/-- A function's MSI-X table and pending-bit array (R97). -/
def State.readMsix (s : State) (f off : Nat) : Nat :=
  let e := tget {} s.host.msix (256 * f + off / 16)
  if vectorCount f ≤ off / 16 then 0
  else match off % 16 with
    | 0 => e.addr.toNat % 2 ^ 32
    | 4 => e.addr.toNat / 2 ^ 32
    | 8 => e.data.toNat
    | _ => b2n e.masked

def State.readPba (s : State) (f off : Nat) : Nat :=
  sumNat ((List.range 32).map fun i =>
    if 8 * off + i < vectorCount f then 2 ^ i * b2n (tget {} s.host.msix (256 * f + 8 * off + i)).pending else 0)

/-- The directory of the snapshot window (R645): 32 entries of 16 bytes. -/
def readDirectory (off : Nat) : Nat :=
  match ctrBlocks[off / 16]? with
  | some (b, inst, per, at_) =>
    (match off % 16 with
    | 0 => b + 65536 * per
    | 4 => inst
    | 8 => at_
    | _ => 0)
  | none => 0

/-- The snapshot window (R643 to R645): every counter reads zero while VALID is 0. -/
def State.readSnap (s : State) (off : Nat) : Nat :=
  let x := s.snap
  match off with
  | 0x000 => 0
  | 0x004 => b2n x.busy + 2 * b2n x.valid + 4 * b2n x.ignored
  | 0x008 => x.seq.toNat
  | 0x00C => x.timeS % 2 ^ 32
  | 0x010 => x.timeS / 2 ^ 32 % 2 ^ 16
  | 0x014 => x.timeNs
  | 0x018 => x.lagUs
  | 0x01C => x.period.toNat
  | _ =>
    if 0x1000 ≤ off ∧ off < 0x1200 then readDirectory (off - 0x1000)
    else if 0x10000 ≤ off ∧ x.valid then tget 0 x.published (off / 8) / 2 ^ (8 * (off % 8)) % 2 ^ 32
    else 0

/-- PF0 BAR0 (R69); what no block covers reads zero. -/
def State.readPf0 (s : State) (off : Nat) : Nat :=
  if off < 0x1000 then s.readIdent off
  else if off < 0x2000 then s.readMode (off - 0x1000)
  else if off < 0x3000 then s.readPair (off - 0x2000)
  else if off < 0x4000 then s.time.rtc.read (off - 0x3000)
  else if off < 0x5000 then s.power.read (off - 0x4000)
  else if 0x10000 ≤ off ∧ off < 0x11000 then s.readMbox 0 (off - 0x10000)
  else if 0x20000 ≤ off ∧ off < 0x30000 then s.readWell 0 ((off - 0x20000) / 64) (off % 64)
  else if 0x80000 ≤ off ∧ off < 0x1000000 then s.readSnap (off - 0x80000)
  else 0

/-- A VF's BAR0 (R70). -/
def State.readVf (s : State) (f off : Nat) : Nat :=
  if off < 0x1000 then s.readMbox f off
  else if off < 0x5000 then s.readWell f ((off - 0x1000) / 64) (off % 64)
  else if 0xC000 ≤ off ∧ off < 0xC200 then s.readMsix f (off - 0xC000)
  else if 0xE000 ≤ off ∧ off < 0xE008 then s.readPba f (off - 0xE000)
  else 0

/-- What an access to a register reads: all ones for another width or alignment (R68). The three registers whose read
changes state have rows of their own. -/
def State.readReg (s : State) (f bar off width : Nat) : Nat :=
  if width ≠ 4 ∨ off % 4 ≠ 0 then 2 ^ (8 * width) - 1
  else if f = 0 then
    if bar = 0 then s.readPf0 off
    else if bar = 2 then if off < 0x1000 then s.readMsix 0 off else if off < 0x1020 then s.readPba 0 (off - 0x1000) else 0
    else 0
  else if bar = 0 then s.readVf f off
  else 0

end Sys2Proof.Machine
end

