-- ==== Sys2Proof/Machine/Reload.lean ====
section
/-! DEFINITION. The end of a processor's reload (R23, R24): the answers an MGC owes, the loading banks it empties, and the
requests that an MCC held back. -/

namespace Sys2Proof.Machine

/-- Functions that an MGC serves. -/
def servedBy (p : Nat) : List Nat := (List.range 17).filter fun f => mgcOf f == p

/-- INTERNAL for a command in flight, for a NODE_SEND that waits, and for an ACCEPTED command. -/
def State.failRef (f : Nat) (s : State) (c : CmdRef) : State :=
  s.answer { fn := f, opcode := c.opcode, tag := c.tag, fence := c.fence, len := 0, buffer := 0, pl := [] } { status := stInternal }

def State.failSend (f : Nat) (s : State) (c : SendCmd) : State :=
  let mark (n : NodeRec) : NodeRec :=
    { n with cmds := n.cmds.map fun e => if e.state = 1 ∧ e.id = c.cmdId then { e with state := 2, final := stInternal % 256 } else e }
  if c.fn = f then s.modNode c.handle mark else s

def State.failAccepted (f : Nat) (s : State) (c : CmdRef) : State := s.complete f c.tag c.opcode stInternal 0

/-- A final status that was known and had no completion event becomes INTERNAL (R23). -/
def State.failFinal (f : Nat) (x : Final) : Final :=
  if x.fn = f then { x with mine := x.mine.map fun _ => (stInternal, 0, []) } else x

/-- What a reloaded MGC answers first for one function (R23): an INTERNAL response for each command read and not answered. -/
def State.answerInternal (s : State) (f : Nat) : State :=
  let refs := (s.mbox f).inflight.reverse
  (refs.foldl (State.failRef f) s).modMbox f fun m => { m with waiting := [] }

/-- What it writes then (R23): an INTERNAL completion event for each ACCEPTED command, whose entry in a Node Record it ends. -/
def State.completeInternal (s : State) (f : Nat) : State :=
  let sends := s.mesh.sends.filter fun c => c.fn == f || c.dups.any fun k => k.1 == f
  let s := sends.foldl (State.failSend f) s
  let s : State := { s with mesh := { s.mesh with
    sends := (s.mesh.sends.filter fun (c : SendCmd) => c.fn != f).map fun (c : SendCmd) => { c with dups := c.dups.filter fun k => k.1 != f } } }
  let s := (s.mbox f).accepted.reverse.foldl (State.failAccepted f) s
  s.modPair fun p => { p with finals := p.finals.map (State.failFinal f) }

/-- Banks that a function's command still loads are emptied (R23). -/
def State.dropLoading (s : State) (f : Nat) : State :=
  let clear (b : Bank) : Bank :=
    match b with
    | .loading fn _ _ => if fn = f then .empty else b
    | _ => b
  { s with radio := { s.radio with domains := s.radio.domains.map fun e => (e.1, { e.2 with bankA := clear e.2.bankA, bankB := clear e.2.bankB }) } }

/-- The reports of a held frame, which was authenticated when it came, and their effect (R24). -/
def State.heldReports (s : State) (a : AirFrame) : State :=
  let d := a.domain.val
  match (mpduOf a).bind parseMac with
  | none => s
  | some f =>
    match s.sourceOf d f with
    | none => s
    | some h =>
      match s.node h, (s.useSlot (32 + d)).2 with
      | some n, some k =>
        match Config.ccmOpen (deriveNodeKey k.value n.eui (s.epochOfDomain d)) (ccmNonce n.eui f.counter f.level) f.header f.rest with
        | some p =>
          match if f.payloadIes then payloadIes 32 p else some ([], p) with
          | some (l, _) => s.takeReports d h l
          | none => s
        | none => s
      | _, _ => s

/-- The requests that an MCC's reload held are processed, oldest first (R24). -/
def State.processHeld (s : State) (p : Nat) : State :=
  let l := s.procs.held.filter fun x => mccOf x.2.domain.val == p
  let s := { s with procs := { s.procs with held := s.procs.held.filter fun x => mccOf x.2.domain.val != p } }
  l.foldl (fun s x => if x.1 then s.joinRx x.2 else s.heldReports x.2) s

def execProcessorReloadDone (p : Fin 9) (s : State) : Host.Outcome State Fault Refusal :=
  let p := p.val
  .next (if !s.procs.reloading.contains p then s
    else
      let s := { s with procs := { s.procs with reloading := s.procs.reloading.filter (· != p) } }
      if p = 1 ∨ p = 2 then
        let s := (servedBy p).foldl State.answerInternal s
        (((servedBy p).foldl (fun s f => (s.completeInternal f).dropLoading f) s)).settleFinals
      else if 4 ≤ p ∧ p ≤ 7 then s.processHeld p else s)

end Sys2Proof.Machine
end

