-- ==== Sys2Proof/Machine/Dispatch.lean ====
section
/-! DEFINITION. The dispatch: one arm for each command, each a call of its meaning. -/

namespace Sys2Proof.Machine

def exec (i : Instr) (s : State) : Host.Outcome State Fault Refusal :=
  match i with
  | .sysWarmReset r => Sys2Proof.Machine.execSysWarmReset r s
  | .sysShutdown r => Sys2Proof.Machine.execSysShutdown r s
  | .sysConfigClear r => Sys2Proof.Machine.execSysConfigClear r s
  | .sysSetShares r => Sys2Proof.Machine.execSysSetShares r s
  | .sysWellAssign r => Sys2Proof.Machine.execSysWellAssign r s
  | .sysRingConfig r => Sys2Proof.Machine.execSysRingConfig r s
  | .tenantReset r => Sys2Proof.Machine.execTenantReset r s
  | .unknownOpcode opcode r => Sys2Proof.Machine.execUnknownOpcode opcode r s
  | .portSetSpeed r => Sys2Proof.Machine.execPortSetSpeed r s
  | .portSetCutThrough r => Sys2Proof.Machine.execPortSetCutThrough r s
  | .portSetPreempt r => Sys2Proof.Machine.execPortSetPreempt r s
  | .portSetRadio r => Sys2Proof.Machine.execPortSetRadio r s
  | .portRingPair r => Sys2Proof.Machine.execPortRingPair r s
  | .portGetStatus r => Sys2Proof.Machine.execPortGetStatus r s
  | .portOpticsMap r => Sys2Proof.Machine.execPortOpticsMap r s
  | .portOpticsIo r ack data => Sys2Proof.Machine.execPortOpticsIo r ack data s
  | .portMdioIo r data => Sys2Proof.Machine.execPortMdioIo r data s
  | .tableCommit r => Sys2Proof.Machine.execTableCommit r s
  | .tableStatus r => Sys2Proof.Machine.execTableStatus r s
  | .tableVrfConfig r => Sys2Proof.Machine.execTableVrfConfig r s
  | .tablePortL2 r => Sys2Proof.Machine.execTablePortL2 r s
  | .tableVlanWrite r => Sys2Proof.Machine.execTableVlanWrite r s
  | .tableIntfWrite r => Sys2Proof.Machine.execTableIntfWrite r s
  | .tableMacWrite r => Sys2Proof.Machine.execTableMacWrite r s
  | .tableMacRead r => Sys2Proof.Machine.execTableMacRead r s
  | .tableMacFlush r => Sys2Proof.Machine.execTableMacFlush r s
  | .tableNexthopWrite r => Sys2Proof.Machine.execTableNexthopWrite r s
  | .tableRouteWrite r => Sys2Proof.Machine.execTableRouteWrite r s
  | .tableRuleWrite r => Sys2Proof.Machine.execTableRuleWrite r s
  | .tableMirrorWrite r => Sys2Proof.Machine.execTableMirrorWrite r s
  | .qosSetLimits r => Sys2Proof.Machine.execQosSetLimits r s
  | .qosSetSched r => Sys2Proof.Machine.execQosSetSched r s
  | .qosSetShaper r => Sys2Proof.Machine.execQosSetShaper r s
  | .qosSetLaunch r => Sys2Proof.Machine.execQosSetLaunch r s
  | .qosSetClassMap r => Sys2Proof.Machine.execQosSetClassMap r s
  | .qosPolicerWrite r => Sys2Proof.Machine.execQosPolicerWrite r s
  | .qosQueueFlush r => Sys2Proof.Machine.execQosQueueFlush r s
  | .qosQueueStatus r => Sys2Proof.Machine.execQosQueueStatus r s
  | .qosCisternStatus r => Sys2Proof.Machine.execQosCisternStatus r s
  | .timeBaseConfig r => Sys2Proof.Machine.execTimeBaseConfig r s
  | .timeGet r => Sys2Proof.Machine.execTimeGet r s
  | .timeStep r => Sys2Proof.Machine.execTimeStep r s
  | .timePtpConfig r => Sys2Proof.Machine.execTimePtpConfig r s
  | .timePortConfig r => Sys2Proof.Machine.execTimePortConfig r s
  | .timePpsConfig r => Sys2Proof.Machine.execTimePpsConfig r s
  | .timeSynceConfig r => Sys2Proof.Machine.execTimeSynceConfig r s
  | .timeSetTenantBase r => Sys2Proof.Machine.execTimeSetTenantBase r s
  | .radioSiteConfig r => Sys2Proof.Machine.execRadioSiteConfig r s
  | .radioDwellConfig r => Sys2Proof.Machine.execRadioDwellConfig r s
  | .radioSiteStatus r => Sys2Proof.Machine.execRadioSiteStatus r s
  | .radioFloorRead r => Sys2Proof.Machine.execRadioFloorRead r s
  | .radioDwellRead r => Sys2Proof.Machine.execRadioDwellRead r s
  | .radioSiteReset r => Sys2Proof.Machine.execRadioSiteReset r s
  | .radioLoadingConfig r => Sys2Proof.Machine.execRadioLoadingConfig r s
  | .radioMapRead r => Sys2Proof.Machine.execRadioMapRead r s
  | .schedDomainAllot r => Sys2Proof.Machine.execSchedDomainAllot r s
  | .schedSiteAllot r => Sys2Proof.Machine.execSchedSiteAllot r s
  | .schedLoadImage r => Sys2Proof.Machine.execSchedLoadImage r s
  | .schedActivate r => Sys2Proof.Machine.execSchedActivate r s
  | .schedDeactivate r => Sys2Proof.Machine.execSchedDeactivate r s
  | .schedUnload r => Sys2Proof.Machine.execSchedUnload r s
  | .schedStatus r => Sys2Proof.Machine.execSchedStatus r s
  | .nodeDomainAssign r => Sys2Proof.Machine.execNodeDomainAssign r s
  | .nodeDomainConfig r => Sys2Proof.Machine.execNodeDomainConfig r s
  | .nodeDomainStatus r => Sys2Proof.Machine.execNodeDomainStatus r s
  | .nodeRead r => Sys2Proof.Machine.execNodeRead r s
  | .nodeWrite r => Sys2Proof.Machine.execNodeWrite r s
  | .nodeRemove r => Sys2Proof.Machine.execNodeRemove r s
  | .nodeSend r => Sys2Proof.Machine.execNodeSend r s
  | .nodeDomainRekey r => Sys2Proof.Machine.execNodeDomainRekey r s
  | .nodeDistStart r => Sys2Proof.Machine.execNodeDistStart r s
  | .nodeDistStop r => Sys2Proof.Machine.execNodeDistStop r s
  | .keyTenantRootCreate r => Sys2Proof.Machine.execKeyTenantRootCreate r s
  | .keyDomainKeyCreate r => Sys2Proof.Machine.execKeyDomainKeyCreate r s
  | .keyImport r => Sys2Proof.Machine.execKeyImport r s
  | .keyDestroy r => Sys2Proof.Machine.execKeyDestroy r s
  | .keySlotAssign r => Sys2Proof.Machine.execKeySlotAssign r s
  | .keySlotStatus r => Sys2Proof.Machine.execKeySlotStatus r s
  | .keyReadPublic r => Sys2Proof.Machine.execKeyReadPublic r s
  | .keyCacheShares r => Sys2Proof.Machine.execKeyCacheShares r s
  | .keyMapRead r => Sys2Proof.Machine.execKeyMapRead r s
  | .pairConfig r => Sys2Proof.Machine.execPairConfig r s
  | .pairGetStatus r => Sys2Proof.Machine.execPairGetStatus r s
  | .pairEquinox r => Sys2Proof.Machine.execPairEquinox r s
  | .pairLaneTrim r => Sys2Proof.Machine.execPairLaneTrim r s
  | .pairClear r => Sys2Proof.Machine.execPairClear r s
  | .pairResync r => Sys2Proof.Machine.execPairResync r s
  | .bistRun r => Sys2Proof.Machine.execBistRun r s
  | .bistStatus r => Sys2Proof.Machine.execBistStatus r s
  | .bistConfig r => Sys2Proof.Machine.execBistConfig r s
  | .updateOpen r => Sys2Proof.Machine.execUpdateOpen r s
  | .updateStatus r => Sys2Proof.Machine.execUpdateStatus r s
  | .updateInstall r => Sys2Proof.Machine.execUpdateInstall r s
  | .updateAbort r => Sys2Proof.Machine.execUpdateAbort r s
  | .updateBankInfo r => Sys2Proof.Machine.execUpdateBankInfo r s
  | .updateNodeImageDrop r => Sys2Proof.Machine.execUpdateNodeImageDrop r s
  | .observeSnapshot r => Sys2Proof.Machine.execObserveSnapshot r s
  | .observeCounters r => Sys2Proof.Machine.execObserveCounters r s
  | .observeTraceConfig r => Sys2Proof.Machine.execObserveTraceConfig r s
  | .modeReqSafe word => Sys2Proof.Machine.execModeReqSafe word s
  | .modeReqWarm word => Sys2Proof.Machine.execModeReqWarm word s
  | .mboxEnable f word => Sys2Proof.Machine.execMboxEnable f word s
  | .cmdTail f count => Sys2Proof.Machine.execCmdTail f count s
  | .rspHead f count => Sys2Proof.Machine.execRspHead f count s
  | .puntTail f n count => Sys2Proof.Machine.execPuntTail f n count s
  | .injTail f n count => Sys2Proof.Machine.execInjTail f n count s
  | .wellEnable f slot word => Sys2Proof.Machine.execWellEnable f slot word s
  | .drainDone f slot word => Sys2Proof.Machine.execDrainDone f slot word s
  | .drainClose f slot word => Sys2Proof.Machine.execDrainClose f slot word s
  | .snapTake word => Sys2Proof.Machine.execSnapTake word s
  | .rtcLoad word => Sys2Proof.Machine.execRtcLoad word s
  | .rtcLoRead => Sys2Proof.Machine.execRtcLoRead s
  | .rtcHiRead => Sys2Proof.Machine.execRtcHiRead s
  | .epochLoRead => Sys2Proof.Machine.execEpochLoRead s
  | .tempPeakRead => Sys2Proof.Machine.execTempPeakRead s
  | .registerWrite f bar offset width value => Sys2Proof.Machine.execRegisterWrite f bar offset width value s
  | .msixUnmask f v => Sys2Proof.Machine.execMsixUnmask f v s
  | .functionLevelReset f => Sys2Proof.Machine.execFunctionLevelReset f s
  | .pciePerst => Sys2Proof.Machine.execPciePerst s
  | .jtagIdcode => Sys2Proof.Machine.execJtagIdcode s
  | .jtagSample cells => Sys2Proof.Machine.execJtagSample cells s
  | .jtagBypass code => Sys2Proof.Machine.execJtagBypass code s
  | .resetNLow => Sys2Proof.Machine.execResetNLow s
  | .powerFailWarning => Sys2Proof.Machine.execPowerFailWarning s
  | .powerFailDrainDone => Sys2Proof.Machine.execPowerFailDrainDone s
  | .railOutOfRange rails => Sys2Proof.Machine.execRailOutOfRange rails s
  | .bootStart b => Sys2Proof.Machine.execBootStart b s
  | .processorsLoaded => Sys2Proof.Machine.execProcessorsLoaded s
  | .bootSelfTestDone failed => Sys2Proof.Machine.execBootSelfTestDone failed s
  | .bootComplete => Sys2Proof.Machine.execBootComplete s
  | .pairingWaitExpiry => Sys2Proof.Machine.execPairingWaitExpiry s
  | .migrationDone => Sys2Proof.Machine.execMigrationDone s
  | .migrationStepError => Sys2Proof.Machine.execMigrationStepError s
  | .migrationTimeout => Sys2Proof.Machine.execMigrationTimeout s
  | .lkgReached => Sys2Proof.Machine.execLkgReached s
  | .processorFault p => Sys2Proof.Machine.execProcessorFault p s
  | .processorReloadDone p => Sys2Proof.Machine.execProcessorReloadDone p s
  | .bscFault => Sys2Proof.Machine.execBscFault s
  | .dataLevelFault level number cause => Sys2Proof.Machine.execDataLevelFault level number cause s
  | .blockResetDone level number ok => Sys2Proof.Machine.execBlockResetDone level number ok s
  | .coreDieFault reservoir cause => Sys2Proof.Machine.execCoreDieFault reservoir cause s
  | .worldViolation region master write addr => Sys2Proof.Machine.execWorldViolation region master write addr s
  | .commandDmaTimeout f ring addr => Sys2Proof.Machine.execCommandDmaTimeout f ring addr s
  | .msixModerationTimer f => Sys2Proof.Machine.execMsixModerationTimer f s
  | .wellEntryWrite w badParity => Sys2Proof.Machine.execWellEntryWrite w badParity s
  | .pacedEntryDue key => Sys2Proof.Machine.execPacedEntryDue key s
  | .injectFrameRead f n descs frame => Sys2Proof.Machine.execInjectFrameRead f n descs frame s
  | .puntCellArrival f n => Sys2Proof.Machine.execPuntCellArrival f n s
  | .frameRx p frame => Sys2Proof.Machine.execFrameRx p frame s
  | .rxFrameEnd p fin => Sys2Proof.Machine.execRxFrameEnd p fin s
  | .maintenanceSlot pipe => Sys2Proof.Machine.execMaintenanceSlot pipe s
  | .generationBoundary => Sys2Proof.Machine.execGenerationBoundary s
  | .cyclePlanStart => Sys2Proof.Machine.execCyclePlanStart s
  | .egressSelect p inProgress ecc => Sys2Proof.Machine.execEgressSelect p inProgress ecc s
  | .launchTimeReached q => Sys2Proof.Machine.execLaunchTimeReached q s
  | .launchHoldStart q => Sys2Proof.Machine.execLaunchHoldStart q s
  | .linkUp p => Sys2Proof.Machine.execLinkUp p s
  | .linkDown p reason => Sys2Proof.Machine.execLinkDown p reason s
  | .preemptVerifyTimeout p => Sys2Proof.Machine.execPreemptVerifyTimeout p s
  | .preemptVerifyResponse p => Sys2Proof.Machine.execPreemptVerifyResponse p s
  | .opticsProbe cage present => Sys2Proof.Machine.execOpticsProbe cage present s
  | .opticsFlagPoll cage flags => Sys2Proof.Machine.execOpticsFlagPoll cage flags s
  | .i2cStretchTimeout bus sda => Sys2Proof.Machine.execI2cStretchTimeout bus sda s
  | .activeInRise => Sys2Proof.Machine.execActiveInRise s
  | .offsetSample tb x => Sys2Proof.Machine.execOffsetSample tb x s
  | .sourceLost tb => Sys2Proof.Machine.execSourceLost tb s
  | .ppsInEdge => Sys2Proof.Machine.execPpsInEdge s
  | .freq10mLost => Sys2Proof.Machine.execFreq10mLost s
  | .ppsOutEdge => Sys2Proof.Machine.execPpsOutEdge s
  | .ptpMessageRx inst p msg => Sys2Proof.Machine.execPtpMessageRx inst p msg s
  | .ptpSyncTx p => Sys2Proof.Machine.execPtpSyncTx p s
  | .slotBoundary d => Sys2Proof.Machine.execSlotBoundary d s
  | .imageActivation d => Sys2Proof.Machine.execImageActivation d s
  | .deactivateDone d => Sys2Proof.Machine.execDeactivateDone d s
  | .imageLoadDone d dmaOk image => Sys2Proof.Machine.execImageLoadDone d dmaOk image s
  | .txIssue d slot cell => Sys2Proof.Machine.execTxIssue d slot cell s
  | .ackIssue d id => Sys2Proof.Machine.execAckIssue d id s
  | .roeUplinkFrame p frame stampNs => Sys2Proof.Machine.execRoeUplinkFrame p frame stampNs s
  | .detection site d => Sys2Proof.Machine.execDetection site d s
  | .headerDecision id header => Sys2Proof.Machine.execHeaderDecision id header s
  | .softValuesDelivered id site part erased values => Sys2Proof.Machine.execSoftValuesDelivered id site part erased values s
  | .codewordReady id cw => Sys2Proof.Machine.execCodewordReady id cw s
  | .decodeDone id cw bits iters reliability => Sys2Proof.Machine.execDecodeDone id cw bits iters reliability s
  | .decodeAbandon id cw => Sys2Proof.Machine.execDecodeAbandon id cw s
  | .securedFrameRx a => Sys2Proof.Machine.execSecuredFrameRx a s
  | .downlinkAckRx handle ack => Sys2Proof.Machine.execDownlinkAckRx handle ack s
  | .joinRequest a => Sys2Proof.Machine.execJoinRequest a s
  | .joinTimeout handle => Sys2Proof.Machine.execJoinTimeout handle s
  | .borderPacket d packet => Sys2Proof.Machine.execBorderPacket d packet s
  | .reasmTimeout handle tag => Sys2Proof.Machine.execReasmTimeout handle tag s
  | .nodeSendDeadline fn tag => Sys2Proof.Machine.execNodeSendDeadline fn tag s
  | .distEnd d => Sys2Proof.Machine.execDistEnd d s
  | .nodeStoreScrub handle uncorrectable => Sys2Proof.Machine.execNodeStoreScrub handle uncorrectable s
  | .mramCommitDone => Sys2Proof.Machine.execMramCommitDone s
  | .keyStoreCommit => Sys2Proof.Machine.execKeyStoreCommit s
  | .journalCompaction => Sys2Proof.Machine.execJournalCompaction s
  | .echoSend site => Sys2Proof.Machine.execEchoSend site s
  | .gainDecision site antenna total clipped medianMdb => Sys2Proof.Machine.execGainDecision site antenna total clipped medianMdb s
  | .floorPeriod site band powers => Sys2Proof.Machine.execFloorPeriod site band powers s
  | .floorWindowEnd site band => Sys2Proof.Machine.execFloorWindowEnd site band s
  | .tunerStepIssue site band => Sys2Proof.Machine.execTunerStepIssue site band s
  | .dcwHello site body mac => Sys2Proof.Machine.execDcwHello site body mac s
  | .dcwReady site body => Sys2Proof.Machine.execDcwReady site body s
  | .dcwAck site body => Sys2Proof.Machine.execDcwAck site body s
  | .dcwTunerReport site band body => Sys2Proof.Machine.execDcwTunerReport site band body s
  | .dcwStatus site body => Sys2Proof.Machine.execDcwStatus site body s
  | .dcwEchoReply site body sentNs rxNs => Sys2Proof.Machine.execDcwEchoReply site body sentNs rxNs s
  | .dcwPruAlarm site body => Sys2Proof.Machine.execDcwPruAlarm site body s
  | .dcwRetryTimeout site wseq => Sys2Proof.Machine.execDcwRetryTimeout site wseq s
  | .pruLoadTimeout site stage => Sys2Proof.Machine.execPruLoadTimeout site stage s
  | .statusTimeout site => Sys2Proof.Machine.execStatusTimeout site s
  | .basebandLaneFault lane => Sys2Proof.Machine.execBasebandLaneFault lane s
  | .basebandLaneRetestDone lane pass => Sys2Proof.Machine.execBasebandLaneRetestDone lane pass s
  | .linkHoldExpiry site => Sys2Proof.Machine.execLinkHoldExpiry site s
  | .pairHello payload => Sys2Proof.Machine.execPairHello payload s
  | .pairHeartbeat mode synced faults cseq => Sys2Proof.Machine.execPairHeartbeat mode synced faults cseq s
  | .pairDigest epoch digests => Sys2Proof.Machine.execPairDigest epoch digests s
  | .pairArbitrate m => Sys2Proof.Machine.execPairArbitrate m s
  | .pairEquinoxMsg m => Sys2Proof.Machine.execPairEquinoxMsg m s
  | .pairCommand opcode r release => Sys2Proof.Machine.execPairCommand opcode r release s
  | .pairCheck fn tag final status sub => Sys2Proof.Machine.execPairCheck fn tag final status sub s
  | .pairEffect release e => Sys2Proof.Machine.execPairEffect release e s
  | .pairMeasure release m => Sys2Proof.Machine.execPairMeasure release m s
  | .pairLearn release pipe m => Sys2Proof.Machine.execPairLearn release pipe m s
  | .pairRetire release cell port => Sys2Proof.Machine.execPairRetire release cell port s
  | .pairSeed release seed => Sys2Proof.Machine.execPairSeed release seed s
  | .pairInject release x => Sys2Proof.Machine.execPairInject release x s
  | .pairKey payload => Sys2Proof.Machine.execPairKey payload s
  | .pairState payload => Sys2Proof.Machine.execPairState payload s
  | .pairCellResend => Sys2Proof.Machine.execPairCellResend s
  | .pairLinkTimeout => Sys2Proof.Machine.execPairLinkTimeout s
  | .pairLaneFail lane => Sys2Proof.Machine.execPairLaneFail lane s
  | .compareEpoch => Sys2Proof.Machine.execCompareEpoch s
  | .selfCheckDone fault => Sys2Proof.Machine.execSelfCheckDone fault s
  | .selfCheckTimeout => Sys2Proof.Machine.execSelfCheckTimeout s
  | .syncPhaseDone => Sys2Proof.Machine.execSyncPhaseDone s
  | .syncConvergeTimeout => Sys2Proof.Machine.execSyncConvergeTimeout s
  | .activeInFall => Sys2Proof.Machine.execActiveInFall s
  | .takeoverWaitExpiry => Sys2Proof.Machine.execTakeoverWaitExpiry s
  | .partnerAliveLost => Sys2Proof.Machine.execPartnerAliveLost s
  | .activeConflict => Sys2Proof.Machine.execActiveConflict s
  | .backoffExpiry => Sys2Proof.Machine.execBackoffExpiry s
  | .equinoxNotice => Sys2Proof.Machine.execEquinoxNotice s
  | .equinoxDecision => Sys2Proof.Machine.execEquinoxDecision s
  | .equinoxEnter => Sys2Proof.Machine.execEquinoxEnter s
  | .radioStartHold => Sys2Proof.Machine.execRadioStartHold s
  | .equinoxSwap => Sys2Proof.Machine.execEquinoxSwap s
  | .equinoxConfirmTimeout => Sys2Proof.Machine.execEquinoxConfirmTimeout s
  | .equinoxComplete => Sys2Proof.Machine.execEquinoxComplete s
  | .equinoxAbort => Sys2Proof.Machine.execEquinoxAbort s
  | .pipeTestStart => Sys2Proof.Machine.execPipeTestStart s
  | .pipeTestDone pass => Sys2Proof.Machine.execPipeTestDone pass s
  | .bistRunDone pass => Sys2Proof.Machine.execBistRunDone pass s
  | .astOpen frame => Sys2Proof.Machine.execAstOpen frame s
  | .astData frame => Sys2Proof.Machine.execAstData frame s
  | .astEnd frame => Sys2Proof.Machine.execAstEnd frame s
  | .astAbort frame => Sys2Proof.Machine.execAstAbort frame s
  | .astAckTimer => Sys2Proof.Machine.execAstAckTimer s
  | .sessionTimeout => Sys2Proof.Machine.execSessionTimeout s
  | .installDone => Sys2Proof.Machine.execInstallDone s
  | .snapshotPeriodExpiry => Sys2Proof.Machine.execSnapshotPeriodExpiry s
  | .snapshotPublished => Sys2Proof.Machine.execSnapshotPublished s
  | .traceFrameSend => Sys2Proof.Machine.execTraceFrameSend s
  | .traceSampleTimer => Sys2Proof.Machine.execTraceSampleTimer s
  | .sensorRead v => Sys2Proof.Machine.execSensorRead v s
  | .laneLockLost lane => Sys2Proof.Machine.execLaneLockLost lane s
  | .laneLockAcquired lane => Sys2Proof.Machine.execLaneLockAcquired lane s
  | .pairLinkUp => Sys2Proof.Machine.execPairLinkUp s
  | .refclkLost tile => Sys2Proof.Machine.execRefclkLost tile s
  | .pciePerstRelease => Sys2Proof.Machine.execPciePerstRelease s
  | .busMasterEnable f bit => Sys2Proof.Machine.execBusMasterEnable f bit s
  | .servicePortModeTimer => Sys2Proof.Machine.execServicePortModeTimer s
  | .servicePortForeignFrame frame => Sys2Proof.Machine.execServicePortForeignFrame frame s

end Sys2Proof.Machine
end

