-- ==== Sys2Proof/Machine/Waiting.lean ====
section
/-! DEFINITION. Commands that have been read and wait for an earlier one of their function (R78), and what a cycle plan does in
which nothing is commanded (log entry 5). -/

namespace Sys2Proof.Machine

/-- The commands of the catalogue (R690) that are not carried, and make no access to the board. -/
def ownSpecs : List AciSpec :=
  [sysWarmResetSpec, sysShutdownSpec, sysConfigClearSpec, sysRingConfigSpec] ++
  [portGetStatusSpec, tableStatusSpec, tableMacReadSpec, qosQueueStatusSpec, qosCisternStatusSpec, timeGetSpec] ++
  [radioSiteStatusSpec, radioFloorReadSpec, radioDwellReadSpec, radioMapReadSpec, schedStatusSpec] ++
  [nodeDomainStatusSpec, nodeReadSpec, keySlotStatusSpec, keyReadPublicSpec, keyMapReadSpec] ++
  [pairGetStatusSpec, pairLaneTrimSpec, pairClearSpec] ++
  [bistStatusSpec, observeSnapshotSpec, observeCountersSpec, observeTraceConfigSpec] ++
  [updateOpenSpec, updateStatusSpec, updateAbortSpec, updateBankInfoSpec]

/-- The command of an opcode; what the board answers to an access that it makes goes with it. -/
def specOf (op : Nat) (ack : Bool) (data : Bytes) : Option AciSpec :=
  (carriedSpecs ++ ownSpecs ++ [portOpticsIoSpec ack data, portMdioIoSpec (BitVec.ofNat 16 (leNat data))]).find? fun c => c.op == op

/-- No command in flight keeps a waiting one from starting: none that has started, and none that waits before it. -/
def Mbox.freed (m : Mbox) (w : Waiting) : Bool :=
  let before := m.waiting.takeWhile (· != w)
  !(m.mine.any fun c => !(m.waiting.any fun x => x.req.tag == c.tag) && c.blocks w.req.ref) &&
    !(before.any fun x => x.req.ref.blocks w.req.ref)

/-- A waiting command starts as it would have when it was read (R78): its parameters, then the rest. -/
def State.startOne (s : State) (f : Nat) (w : Waiting) : State :=
  let s := s.modMbox f fun m => { m with waiting := m.waiting.filter (· != w) }
  match specOf w.req.opcode w.ack w.data with
  | none => s
  | some c =>
    match c.params w.req s with
    | some e => s.answer w.req { status := e.1, sub := e.2 }
    | none =>
      let carry := c.carries w.req s
      let mark (x : CmdRef) : CmdRef := if x.tag = w.req.tag ∧ x.opcode = w.req.opcode then { x with carried := carry } else x
      c.start w.req carry (s.modMbox f fun m => { m with inflight := m.inflight.map mark })

/-- The waiting commands of a function that can start do so, the oldest first, where its processor works on commands and has its
DMA (R67; log entry 94). -/
def State.startFn (s : State) (f : Nat) : State :=
  if s.answers && !s.ms.inTransition && s.busMaster f && !s.mgcDown f then
    (s.mbox f).waiting.foldl (fun s w => if (s.mbox f).freed w then s.startOne f w else s) s
  else s

/-- One cycle plan in which nothing is commanded (log entry 5): waiting commands that can start do so, recoveries of
buses end, and time passes. -/
def State.tick (s : State) : State :=
  ((s.host.mbox.filter fun e => !e.2.waiting.isEmpty).foldl (fun s e => s.startFn e.1) s).busesBack.idle

end Sys2Proof.Machine
end

