-- ==== Sys2Proof/Safety.lean ====
section
/-! DEFINITION. What counts as a safe step and a safe run: the block answers a next state, and neither faults nor refuses. -/

namespace Sys2Proof

/-- The command has an effect in the state. -/
def Runs (c : Instr) (s : Machine.State) : Prop := ∃ t, Machine.exec c s = .next t

/-- The next step answers a next state. -/
def StepSafe (s : Machine.State) : Prop := ∃ t, Machine.step s = .next t

/-- `n` steps answer a next state. -/
def RunSafe (n : Nat) (s : Machine.State) : Prop := ∃ t, core.run n s = .next t

/-- What the mode and the pins say of each other: SAFE_CAUSE is 0 outside M7 (R41), a held standby is in M5 (R565), a
synchronised one in M5 or M6 (R569, R579), ACTIVE_OUT is high in M3, M4 and M6 alone, and ALIVE_OUT not in M0 (R39). -/
def Machine.State.ModesAgree (s : Machine.State) : Prop :=
  (s.ms.mode ≠ .m7 → s.ms.safeCause = 0) ∧ (s.ms.standbyHeld = true → s.ms.mode = .m5) ∧
  (s.ms.synced = true → s.ms.mode = .m5 ∨ s.ms.mode = .m6) ∧
  (s.pins.activeOut = true → s.ms.mode = .m3 ∨ s.ms.mode = .m4 ∨ s.ms.mode = .m6) ∧ (s.pins.aliveOut = true → s.ms.mode ≠ .m0)

end Sys2Proof
end

