-- ==== Sys2Proof/WellFormed.lean ====
section
/-! DEFINITION. Well-formed commands: the operands that the device can be given at all. A descriptor holds 48 inline bytes,
a first cell at most 256, a soft value lies within -127 to 127, and so on. The machine gives every command an effect,
well-formed or not; these checks say which commands the board, the host, the modem and the partner can present. -/

namespace Sys2Proof

/-- A command descriptor has 48 inline bytes, and a host buffer read gives at most 65,535 bytes (R73). -/
def Aci.wf (a : Aci) : Bool := a.inl.length == 48 && decide (a.buf.length ≤ 65535)

/-- The first cell of a frame: at least one byte, at most 256; all 256 unless the frame ends in it (R194). -/
def RxFrame.wf (x : RxFrame) : Bool :=
  decide (0 < x.bytes.length) && decide (x.bytes.length ≤ 256) && (x.ends || (x.bytes.length == 256 && decide (256 < x.len)))

/-- A decoded frame's PSDU fits its PHY headers, and its reliability is a byte (R349, R440). -/
def AirFrame.wf (a : AirFrame) : Bool := decide (a.psdu.length ≤ 2047) && decide (a.reliability < 256)

/-- Eight sensors of the core die, of the RC die and of each of eight tiles, four of the Reservoir, ten rails (R679, R682). -/
def SensorReading.wf (v : SensorReading) : Bool :=
  v.core.length == 8 && v.rc.length == 8 && v.tiles.length == 64 && v.reservoir.length == 4 && v.railMv.length == 10

/-- The command is one that the device can be given. -/
def Instr.wf : Instr → Bool
  | .sysWarmReset r => r.wf
  | .sysShutdown r => r.wf
  | .sysConfigClear r => r.wf
  | .sysSetShares r => r.wf
  | .sysWellAssign r => r.wf
  | .sysRingConfig r => r.wf
  | .tenantReset r => r.wf
  | .unknownOpcode _ r => r.wf
  | .portSetSpeed r => r.wf
  | .portSetCutThrough r => r.wf
  | .portSetPreempt r => r.wf
  | .portSetRadio r => r.wf
  | .portRingPair r => r.wf
  | .portGetStatus r => r.wf
  | .portOpticsMap r => r.wf
  | .portOpticsIo r _ d => r.wf && decide (d.length ≤ 64)
  | .portMdioIo r _ => r.wf
  | .tableCommit r => r.wf
  | .tableStatus r => r.wf
  | .tableVrfConfig r => r.wf
  | .tablePortL2 r => r.wf
  | .tableVlanWrite r => r.wf
  | .tableIntfWrite r => r.wf
  | .tableMacWrite r => r.wf
  | .tableMacRead r => r.wf
  | .tableMacFlush r => r.wf
  | .tableNexthopWrite r => r.wf
  | .tableRouteWrite r => r.wf
  | .tableRuleWrite r => r.wf
  | .tableMirrorWrite r => r.wf
  | .qosSetLimits r => r.wf
  | .qosSetSched r => r.wf
  | .qosSetShaper r => r.wf
  | .qosSetLaunch r => r.wf
  | .qosSetClassMap r => r.wf
  | .qosPolicerWrite r => r.wf
  | .qosQueueFlush r => r.wf
  | .qosQueueStatus r => r.wf
  | .qosCisternStatus r => r.wf
  | .timeBaseConfig r => r.wf
  | .timeGet r => r.wf
  | .timeStep r => r.wf
  | .timePtpConfig r => r.wf
  | .timePortConfig r => r.wf
  | .timePpsConfig r => r.wf
  | .timeSynceConfig r => r.wf
  | .timeSetTenantBase r => r.wf
  | .radioSiteConfig r => r.wf
  | .radioDwellConfig r => r.wf
  | .radioSiteStatus r => r.wf
  | .radioFloorRead r => r.wf
  | .radioDwellRead r => r.wf
  | .radioSiteReset r => r.wf
  | .radioLoadingConfig r => r.wf
  | .radioMapRead r => r.wf
  | .schedDomainAllot r => r.wf
  | .schedSiteAllot r => r.wf
  | .schedLoadImage r => r.wf
  | .schedActivate r => r.wf
  | .schedDeactivate r => r.wf
  | .schedUnload r => r.wf
  | .schedStatus r => r.wf
  | .nodeDomainAssign r => r.wf
  | .nodeDomainConfig r => r.wf
  | .nodeDomainStatus r => r.wf
  | .nodeRead r => r.wf
  | .nodeWrite r => r.wf
  | .nodeRemove r => r.wf
  | .nodeSend r => r.wf
  | .nodeDomainRekey r => r.wf
  | .nodeDistStart r => r.wf
  | .nodeDistStop r => r.wf
  | .keyTenantRootCreate r => r.wf
  | .keyDomainKeyCreate r => r.wf
  | .keyImport r => r.wf
  | .keyDestroy r => r.wf
  | .keySlotAssign r => r.wf
  | .keySlotStatus r => r.wf
  | .keyReadPublic r => r.wf
  | .keyCacheShares r => r.wf
  | .keyMapRead r => r.wf
  | .pairConfig r => r.wf
  | .pairGetStatus r => r.wf
  | .pairEquinox r => r.wf
  | .pairLaneTrim r => r.wf
  | .pairClear r => r.wf
  | .pairResync r => r.wf
  | .bistRun r => r.wf
  | .bistStatus r => r.wf
  | .bistConfig r => r.wf
  | .updateOpen r => r.wf
  | .updateStatus r => r.wf
  | .updateInstall r => r.wf
  | .updateAbort r => r.wf
  | .updateBankInfo r => r.wf
  | .updateNodeImageDrop r => r.wf
  | .observeSnapshot r => r.wf
  | .observeCounters r => r.wf
  | .observeTraceConfig r => r.wf
  | .bootSelfTestDone l => l.all (fun x => decide (x.1 ≤ 13))
  | .worldViolation _ m _ _ => decide (m < 16)
  | .injectFrameRead _ _ ds fr => ds.all (fun d => d.length == 32) && decide (fr.length ≤ 16384 * ds.length)
  | .frameRx _ x => x.wf
  | .opticsFlagPoll _ l => l.all (fun x => decide (x.1 < 256))
  | .softValuesDelivered _ _ _ _ v => v.values.all (fun x => decide (-127 ≤ x) && decide (x ≤ 127))
  | .decodeDone _ _ _ _ k => decide (k < 256)
  | .securedFrameRx a => a.wf
  | .downlinkAckRx _ a => a.all AirFrame.wf
  | .joinRequest a => a.wf
  | .gainDecision _ _ n c _ => decide (c ≤ n)
  | .dcwHello _ b m => decide (b.length ≤ 1500) && decide (m < 2 ^ 48)
  | .pairHello b => b.length == 40
  | .pairCommand _ r _ => r.wf
  | .pairKey b => b.length == 64
  | .sensorRead v => v.wf
  | .modeReqSafe _ | .modeReqWarm _ | .mboxEnable _ _ | .cmdTail _ _ | .rspHead _ _ | .puntTail _ _ _
  | .injTail _ _ _ | .wellEnable _ _ _ | .drainDone _ _ _ | .drainClose _ _ _ | .snapTake _ | .rtcLoad _ | .rtcLoRead
  | .rtcHiRead | .epochLoRead | .tempPeakRead | .registerWrite _ _ _ _ _ | .msixUnmask _ _ | .functionLevelReset _
  | .pciePerst | .jtagIdcode | .jtagSample _ | .jtagBypass _ | .resetNLow | .powerFailWarning | .powerFailDrainDone
  | .railOutOfRange _ | .bootStart _ | .processorsLoaded | .bootComplete | .pairingWaitExpiry | .migrationDone
  | .migrationStepError | .migrationTimeout | .lkgReached | .processorFault _ | .processorReloadDone _ | .bscFault
  | .dataLevelFault _ _ _ | .blockResetDone _ _ _ | .coreDieFault _ _ | .commandDmaTimeout _ _ _
  | .msixModerationTimer _ | .wellEntryWrite _ _ | .pacedEntryDue _ | .puntCellArrival _ _ | .rxFrameEnd _ _
  | .maintenanceSlot _ | .generationBoundary | .cyclePlanStart | .egressSelect _ _ _ | .launchTimeReached _
  | .launchHoldStart _ | .linkUp _ | .linkDown _ _ | .preemptVerifyTimeout _ | .preemptVerifyResponse _
  | .opticsProbe _ _ | .i2cStretchTimeout _ _ | .activeInRise | .offsetSample _ _ | .sourceLost _ | .ppsInEdge
  | .freq10mLost | .ppsOutEdge | .ptpMessageRx _ _ _ | .ptpSyncTx _ | .slotBoundary _ | .imageActivation _
  | .deactivateDone _ | .imageLoadDone _ _ _ | .txIssue _ _ _ | .ackIssue _ _ | .roeUplinkFrame _ _ _
  | .detection _ _ | .headerDecision _ _ | .codewordReady _ _ | .decodeAbandon _ _ | .joinTimeout _
  | .borderPacket _ _ | .reasmTimeout _ _ | .nodeSendDeadline _ _ | .distEnd _ | .nodeStoreScrub _ _
  | .mramCommitDone | .keyStoreCommit | .journalCompaction | .echoSend _ | .floorPeriod _ _ _ | .floorWindowEnd _ _
  | .tunerStepIssue _ _ | .dcwReady _ _ | .dcwAck _ _ | .dcwTunerReport _ _ _ | .dcwStatus _ _
  | .dcwEchoReply _ _ _ _ | .dcwPruAlarm _ _ | .dcwRetryTimeout _ _ | .pruLoadTimeout _ _ | .statusTimeout _
  | .basebandLaneFault _ | .basebandLaneRetestDone _ _ | .linkHoldExpiry _ | .pairHeartbeat _ _ _ _ | .pairDigest _ _
  | .pairArbitrate _ | .pairEquinoxMsg _ | .pairCheck _ _ _ _ _ | .pairEffect _ _ | .pairMeasure _ _
  | .pairLearn _ _ _ | .pairRetire _ _ _ | .pairSeed _ _ | .pairInject _ _ | .pairState _ | .pairCellResend
  | .pairLinkTimeout | .pairLaneFail _ | .compareEpoch | .selfCheckDone _ | .selfCheckTimeout | .syncPhaseDone
  | .syncConvergeTimeout | .activeInFall | .takeoverWaitExpiry | .partnerAliveLost | .activeConflict | .backoffExpiry
  | .equinoxNotice | .equinoxDecision | .equinoxEnter | .radioStartHold | .equinoxSwap | .equinoxConfirmTimeout
  | .equinoxComplete | .equinoxAbort | .pipeTestStart | .pipeTestDone _ | .bistRunDone _ | .astOpen _ | .astData _
  | .astEnd _ | .astAbort _ | .astAckTimer | .sessionTimeout | .installDone | .snapshotPeriodExpiry
  | .snapshotPublished | .traceFrameSend | .traceSampleTimer | .laneLockLost _ | .laneLockAcquired _ | .pairLinkUp
  | .refclkLost _ | .pciePerstRelease | .busMasterEnable _ _ | .servicePortModeTimer | .servicePortForeignFrame _ => true

end Sys2Proof
end

