-- ==== Sys2Proof/Certificates/Slice0/Obligations.lean ====
section
/-! DEFINITION. The statements for the provers. A statement about a command says that `exec` answers a next state, under
conditions on the state and the operands alone, and what that state holds. A free value (log entry 3) stands in a statement
only as the value that the model draws, of which nothing is known. -/

namespace Sys2Proof.Claims

open Machine

/-! ### Words of the statements -/

/-- The parts of the state. -/
inductive Part where
  | ms | host | cfg | nv | procs | time | ports | fwd | qos | radio | mesh | pins | power | jtag | pair | svc | snap | bist
  | trace | ctr | draws | pending
  deriving DecidableEq, Repr

/-- Two states have the part in common. -/
def Part.same (s t : State) : Part → Prop
  | .ms => t.ms = s.ms
  | .host => t.host = s.host
  | .cfg => t.cfg = s.cfg
  | .nv => t.nv = s.nv
  | .procs => t.procs = s.procs
  | .time => t.time = s.time
  | .ports => t.ports = s.ports
  | .fwd => t.fwd = s.fwd
  | .qos => t.qos = s.qos
  | .radio => t.radio = s.radio
  | .mesh => t.mesh = s.mesh
  | .pins => t.pins = s.pins
  | .power => t.power = s.power
  | .jtag => t.jtag = s.jtag
  | .pair => t.pair = s.pair
  | .svc => t.svc = s.svc
  | .snap => t.snap = s.snap
  | .bist => t.bist = s.bist
  | .trace => t.trace = s.trace
  | .ctr => t.ctr = s.ctr
  | .draws => t.draws = s.draws
  | .pending => t.pending = s.pending

/-- The states differ at most in the parts listed. -/
def Only (l : List Part) (s t : State) : Prop := ∀ p : Part, p ∉ l → p.same s t

/-- The command, in the state, answers a next state of which `P` holds. -/
def Gives (c : Instr) (s : State) (P : State → Prop) : Prop := ∃ t, exec c s = .next t ∧ P t

end Sys2Proof.Claims

open Sys2Proof Sys2Proof.Machine Sys2Proof.Claims

/-! ### The queue and the step -/

/-- A step takes the command at the front of the queue and answers what it does with the queue's rest (the model's own
queue, log entry 4). -/
def Obligations.StepRunsFrontCommand : Prop :=
  ∀ (s : State) (c : Instr) (rest : List Instr), s.pending = c :: rest →
    step s = exec c { s with pending := rest }

/-- With an empty queue a cycle plan of 80 ns passes (log entry 5): it is never a fault, and the queue stays empty. Where no
command waits for an earlier one (R78), nothing starts in it. -/
def Obligations.EmptyQueueLetsTimePass : Prop :=
  ∀ s : State, s.pending = [] → ∃ t, step s = .next t ∧ t.pending = [] ∧
    ((∀ e ∈ s.host.mbox, e.2.waiting = []) →
      (s.ms.mode ≠ .m0 → t.time.duration = s.time.duration + 128) ∧ (s.ms.mode = .m0 → t.time.duration = s.time.duration) ∧
      t.nv = s.nv ∧ t.cfg = s.cfg ∧ t.ms = s.ms)

/-- What reset leaves, of the values that the spec states: MODE_STATUS (R41, R48), the entry of T4 that waits (R44), the mailbox (R71), a Well (R87), the shares
(R76), the PTP and pair settings (R587), PIPE_TEST_MIN (R641), the thermal thresholds (R682) and the RTC (R153). -/
def Obligations.ResetHoldsTheStatedValues : Prop :=
  let s := State.reset
  s.ms.mode = .m1 ∧ s.ms.inTransition = false ∧ s.ms.standbyHeld = false ∧ s.ms.synced = false ∧ s.ms.safeCause = 0 ∧
  s.ms.reqResult = 0 ∧ s.ms.unclean = true ∧ s.ms.noted = [changeBody .m0 .m1 4 0 0 false] ∧
  (∀ f : Fin 17, (s.mbox f.val).enable = false ∧ (s.mbox f.val).cmdBase = 0 ∧ (s.mbox f.val).modCount = 1 ∧
    s.share f.val = if f.val = 0 then 1024 else 192) ∧
  (∀ w : Fin 1024, (s.well w.val).enable = false ∧ (s.well w.val).log2 = 7 ∧ (s.well w.val).mark = 1) ∧
  s.cfg.pipeTestMin = 60 ∧ s.power.warnC = 100 ∧ s.power.hbmWarnC = 90 ∧ s.time.rtc.frozen = false ∧
  s.pair.linkUp = false ∧ s.snap.valid = false ∧ s.snap.seq = 0 ∧ (∀ c : Ctr, s.counter c = 0)

/-- No command and no step stops: `exec` and `step` answer a next state in every state. -/
def Obligations.EveryStepCompletes : Prop :=
  (∀ (c : Instr) (s : State), Runs c s) ∧ ∀ s : State, StepSafe s

/-! ### Registers, the mailbox and the Wells -/

/-- A write to MODE_REQ (R45): judged by key and fields, then transition, then mode; accepted, it begins T18 or T5. -/
def Obligations.ModeRequestIsJudgedInOrder : Prop :=
  ∀ (s : State) (w : BitVec 32), s.answers = true →
    let key := bits w.toNat 16 16
    let ask (warm : Bool) (target : Nat) : Prop := bit w.toNat 4 = warm ∧ bits w.toNat 0 4 = target
    ∀ c : Instr, c = .modeReqSafe w ∨ c = .modeReqWarm w →
      (key ≠ 0x4D52 ∨ ¬(ask true 0 ∨ ask false 7) → exec c s = .next { s with ms := { s.ms with reqResult := 3 } }) ∧
      (key = 0x4D52 → (ask true 0 ∨ ask false 7) → s.ms.inTransition = true →
        exec c s = .next { s with ms := { s.ms with reqResult := 4 } }) ∧
      (key = 0x4D52 → ask false 7 → s.ms.inTransition = false →
        (s.ms.mode = .m3 ∨ s.ms.mode = .m4 ∨ s.ms.mode = .m5 →
          Gives c s fun t => t.ms.mode = .m7 ∧ t.ms.safeCause = 1 ∧ t.ms.reqResult = 1 ∧ t.ms.synced = false ∧
            t.pins.activeOut = false ∧ t.pair.phase = 0) ∧
        (s.ms.mode = .m7 → exec c s = .next { s with ms := { s.ms with reqResult := 1 } }) ∧
        (s.ms.mode = .m1 ∨ s.ms.mode = .m2 ∨ s.ms.mode = .m6 →
          exec c s = .next { s with ms := { s.ms with reqResult := 2 } })) ∧
      (key = 0x4D52 → ask true 0 → s.ms.inTransition = false →
        (s.ms.mode = .m1 → exec c s = .next { s with ms := { s.ms with reqResult := 2 } }) ∧
        (s.ms.mode ≠ .m0 → s.ms.mode ≠ .m1 →
          Gives c s fun t => (t.ms.mode = .m1 ∨ t.ms.mode = .m7 ∧ t.ms.safeCause = 3) ∧
            t.ms.resetCause.getLsbD 3 = true ∧ t.nv.fuses = s.nv.fuses ∧ t.time.rtc.count = s.time.rtc.count ∧
            t.fwd.tables = State.reset.fwd.tables))

/-- The RTC block (R153): a read of RTC_LO fills the shadow and sets FROZEN; a read of RTC_HI gives the shadow and clears it,
or the live half; LOAD acts only with its key. Nothing else changes. -/
def Sys2Proof.Claims.RtcAccessFollowsTheShadow : Prop :=
  ∀ s : State, s.answers = true →
    let c := s.time.rtc
    exec .rtcLoRead s = .next { s with
      time := { s.time with rtc := { c with shadow := c.count, frozen := true } }
      host := { s.host with readData := c.count.toNat % 2 ^ 32 } } ∧
    (c.frozen = true → exec .rtcHiRead s = .next { s with
      time := { s.time with rtc := { c with frozen := false } }
      host := { s.host with readData := c.shadow.toNat / 2 ^ 32 } }) ∧
    (c.frozen = false → exec .rtcHiRead s = .next { s with host := { s.host with readData := c.count.toNat / 2 ^ 32 } }) ∧
    ∀ w : BitVec 32,
      (bit w.toNat 1 = true → bits w.toNat 16 16 = 0x4C44 →
        exec (.rtcLoad w) s = .next { s with time := { s.time with rtc := { c with loadPending := true } } }) ∧
      (bits w.toNat 16 16 ≠ 0x4C44 → exec (.rtcLoad w) s = .next s)

/-- The two other reads that change state: EPOCH_LO copies the epoch's bits 47:32 into EPOCH_HI (R584), and a read of
TEMP_PEAK returns the peak and clears it (R7, R682). -/
def Sys2Proof.Claims.ReadsThatChangeStateChangeOnlyThat : Prop :=
  ∀ s : State, s.answers = true →
    exec .epochLoRead s = .next { s with
      pair := { s.pair with epochHi := s.epoch / 2 ^ 32 % 2 ^ 16 }
      host := { s.host with readData := s.epoch % 2 ^ 32 } } ∧
    exec .tempPeakRead s = .next { s with
      power := { s.power with tempPeak := 0, peakAny := false }
      host := { s.host with readData := s.power.tempPeak.toNat } }

/-- Writes by access code (R7, R10, R68): RO and W1C, in the MODE, PAIR and POWER blocks; the thermal thresholds are held
within their limits (R682); a write of another width or alignment is discarded. -/
def Obligations.RegisterWriteActsByAccessCode : Prop :=
  ∀ (s : State) (v : BitVec 32), s.answers = true →
    (∀ (f : Fin 17) (bar : Fin 4) (off : BitVec 32) (w : Fin 9), w.val ≠ 4 ∨ off.toNat % 4 ≠ 0 →
      exec (.registerWrite f bar off w v) s = .next s) ∧
    exec (.registerWrite 0 0 0x1000 4 v) s = .next s ∧
    exec (.registerWrite 0 0 0x100C 4 v) s =
      .next { s with ms := { s.ms with resetCause := s.ms.resetCause &&& ~~~BitVec.ofNat 8 v.toNat } } ∧
    exec (.registerWrite 0 0 0x4004 4 v) s =
      .next { s with power := { s.power with railFault := s.power.railFault &&& ~~~BitVec.ofNat 10 v.toNat } } ∧
    (Gives (.registerWrite 0 0 0x4018 4 v) s fun t => 60 ≤ t.power.warnC ∧ t.power.warnC ≤ 120 ∧ 60 ≤ t.power.hbmWarnC ∧
      t.power.hbmWarnC ≤ 95 ∧ (60 ≤ bits v.toNat 0 8 → bits v.toNat 0 8 ≤ 120 → t.power.warnC = bits v.toNat 0 8) ∧
      Only [.power] s t) ∧
    (Gives (.registerWrite 0 0 0x2020 4 v) s fun t => Only [.pair] s t ∧
      (t.pair.alert = (s.pair.alert && !bit v.toNat 0)) ∧ (t.pair.syncLost = (s.pair.syncLost && !bit v.toNat 1)) ∧
      (t.pair.partnerLost = (s.pair.partnerLost && !bit v.toNat 2)) ∧ (t.pair.tookOver = (s.pair.tookOver && !bit v.toNat 3)))

/-- MBOX_CTRL (R71, R84): setting ENABLE with rings that can be used restarts the counts; with rings that cannot, ENABLE
stays clear and CONFIG_ERROR is set; nothing outside the host interface changes, and no other function's mailbox. -/
def Sys2Proof.Claims.MailboxEnableRestartsTheCounts : Prop :=
  ∀ (s : State) (f : Fin 17) (w : BitVec 32), s.answers = true → (s.mbox f.val).enable = false → bit w.toNat 0 = true →
    let m := s.mbox f.val
    let usable := m.cmdBase.toNat % 4096 = 0 ∧ m.rspBase.toNat % 4096 = 0 ∧ 6 ≤ m.cmdLog2.toNat ∧ m.cmdLog2.toNat ≤ 12 ∧
      6 ≤ m.rspLog2.toNat ∧ m.rspLog2.toNat ≤ 12
    (usable → exec (.mboxEnable f w) s = .next (s.modMbox f.val fun m => { m with
      enable := true, rspIrqEn := bit w.toNat 1, errIrqEn := bit w.toNat 2, cmdHead := 0, rspTail := 0, cmdTail := 0,
      rspHead := 0, unraised := 0, responses := [] })) ∧
    (¬usable → Gives (.mboxEnable f w) s fun t => Only [.host] s t ∧ (t.mbox f.val).enable = false ∧
      (t.mbox f.val).configError = true ∧ ∀ g, g ≠ f.val → t.mbox g = s.mbox g)

/-- Doorbells (R72): a count that leaves the ring within its size is taken; any other is discarded, with DOORBELL_ERROR, and
leaves the counts. -/
def Sys2Proof.Claims.DoorbellsStayWithinTheRing : Prop :=
  ∀ (s : State) (f : Fin 17) (n : Fin 64) (c : BitVec 16), s.answers = true →
    let m := s.mbox f.val
    let refused (i : Instr) : Prop := Gives i s fun t => Only [.host] s t ∧ (t.mbox f.val).doorbellError = true ∧
      (t.mbox f.val).cmdTail = m.cmdTail ∧ (t.mbox f.val).rspHead = m.rspHead ∧ t.host.punt = s.host.punt ∧
      t.host.inject = s.host.inject
    ((c - m.cmdHead).toNat ≤ 2 ^ m.cmdLog2.toNat → exec (.cmdTail f c) s = .next (s.modMbox f.val ({ · with cmdTail := c }))) ∧
    (2 ^ m.cmdLog2.toNat < (c - m.cmdHead).toNat → refused (.cmdTail f c)) ∧
    ((m.rspTail - c).toNat ≤ 2 ^ m.rspLog2.toNat → exec (.rspHead f c) s = .next (s.modMbox f.val ({ · with rspHead := c }))) ∧
    (2 ^ m.rspLog2.toNat < (m.rspTail - c).toNat → refused (.rspHead f c)) ∧
    (let x := s.puntRing f.val n.val
     (x.enable = true → (c - x.head).toNat ≤ 2 ^ x.log2 → x.bufs.length ≤ (c - x.head).toNat →
       exec (.puntTail f n c) s = .next (s.modPunt f.val n.val ({ · with tail := c }))) ∧
     (x.enable = false ∨ 2 ^ x.log2 < (c - x.head).toNat ∨ (c - x.head).toNat < x.bufs.length → refused (.puntTail f n c))) ∧
    (let x := s.injRing f.val n.val
     (x.enable = true → (c - x.head).toNat ≤ 2 ^ x.log2 →
       exec (.injTail f n c) s = .next (s.modInj f.val n.val ({ · with tail := c }))) ∧
     (x.enable = false ∨ 2 ^ x.log2 < (c - x.head).toNat → refused (.injTail f n c)))

/-- Well control (R87, R89 to R91, R96): ENABLE starts filling bank 0 with both banks empty; DONE drains the closed bank of
its own generation only; CLOSE closes a fill bank that holds entries when the other is drained, and is refused when it is
not. -/
def Sys2Proof.Claims.WellControlActsOnItsOwnWell : Prop :=
  ∀ (s : State) (f : Fin 17) (slot : Fin 1024) (w : BitVec 32) (n : Nat), s.answers = true → s.wellWrite f.val slot.val = some n →
    let x := s.well n
    (4 ≤ n → x.enable = false → bit w.toNat 0 = true → (∀ o, s.wellOwner n = some o → o.fault = false) →
      Gives (.wellEnable f slot w) s fun t => Only [.host] s t ∧ (∀ k, k ≠ n → t.well k = s.well k) ∧
        (let y := t.well n
         y.enable = true ∧ y.log2 = max 7 (bits w.toNat 3 4) ∧ y.notice = bit w.toNat 2 ∧ y.fill = [] ∧ y.ready = [] ∧
         y.readyGen = 0 ∧ y.total = 0 ∧ y.nextSeq = 0 ∧ y.fillBank = false ∧ y.bank0 = x.bank0 ∧ y.mark = x.mark)) ∧
    (bit w.toNat 0 = true → bit w.toNat 1 = false → 4 ≤ n →
      (bits w.toNat 16 16 = x.readyGen.toNat → exec (.drainDone f slot w) s = .next (s.setWell n { x with
        ready := [], creditOut := x.creditOut - x.ready.length })) ∧
      (bits w.toNat 16 16 ≠ x.readyGen.toNat → exec (.drainDone f slot w) s = .next (s.setWell n x))) ∧
    (n < 4 → bit w.toNat 0 = true → bit w.toNat 1 = false → bits w.toNat 16 16 = x.readyGen.toNat →
      Gives (.drainDone f slot w) s fun t => Only [.host] s t ∧ (t.well n).ready = [] ∧ (t.well n).fill = x.fill ∧
        (x.enable = true → (t.well n).staged = x.staged ++ x.waiting.take (x.size - (x.creditOut - x.ready.length)))) ∧
    (bit w.toNat 0 = false → bit w.toNat 1 = true →
      (x.fill = [] → exec (.drainClose f slot w) s = .next (s.setWell n x)) ∧
      (x.fill ≠ [] → x.ready ≠ [] → exec (.drainClose f slot w) s = .next (s.setWell n { x with closeRefused := true })) ∧
      (x.fill ≠ [] → x.ready = [] → exec (.drainClose f slot w) s = .next (s.setWell n { x with
        ready := x.fill, fill := [], readyGen := x.readyGen + 1, fillBank := !x.fillBank })))

/-- The Pump (R67, R89, R90, R94), while Bus Master Enable lets it write; without it nothing is written: a staged entry goes to the fill bank and TOTAL counts it; a bank that reaches its size closes,
the undrained generation being discarded and counted in LOST. A bad parity word is written with POISON and counted. -/
def Sys2Proof.Claims.PumpFillsAndClosesBanks : Prop :=
  ∀ (s : State) (w : Fin 1024) (e : WellEntry) (rest : List WellEntry) (bad : Bool), (s.well w.val).staged = e :: rest →
    let x := s.well w.val
    (s.busMaster (s.wellFn w.val) = false → exec (.wellEntryWrite w bad) s = .next s) ∧
    (s.busMaster (s.wellFn w.val) = true → Gives (.wellEntryWrite w bad) s fun t => Only [.host] s t ∧ (∀ k, k ≠ w.val → t.well k = s.well k) ∧
      (let y := t.well w.val
       let z : WellEntry := { e with poison := bad }
       y.staged = rest ∧ y.total = x.total + 1 ∧ y.poisoned = (if bad then x.poisoned + 1 else x.poisoned) ∧
       (x.fill.length + 1 < x.size → y.fill = z :: x.fill ∧ y.ready = x.ready ∧ y.readyGen = x.readyGen ∧ y.lost = x.lost) ∧
       (x.size ≤ x.fill.length + 1 → y.fill = [] ∧ y.ready = z :: x.fill ∧ y.readyGen = x.readyGen + 1 ∧
         y.fillBank = !x.fillBank ∧ (x.ready = [] → y.lost = x.lost) ∧
         (x.ready ≠ [] → y.lost = x.lost + BitVec.ofNat 32 x.ready.length ∧ y.overwritten = true)) ∧
       (x.fill.length + 1 = x.level → y.levelHit = true)))

/-- MSI-X (R97, R71): unmasking a vector with a pending message sends it once; the moderation timer raises the response
vector of a pending response. -/
def Sys2Proof.Claims.MsixSendsPendingMessages : Prop :=
  ∀ (s : State) (f : Fin 17) (v : Fin 256), s.busMaster f.val = true →
    (s.answers = true → v.val < vectorCount f.val →
      let e : MsixVec := tget {} s.host.msix (256 * f.val + v.val)
      Gives (.msixUnmask f v) s fun t => Only [.host] s t ∧
        tget {} t.host.msix (256 * f.val + v.val) = { e with masked := false, pending := false } ∧
        (e.pending = true → t.host.messages = (f.val, v.val) :: s.host.messages) ∧
        (e.pending = false → t.host.messages = s.host.messages)) ∧
    ((s.mbox f.val).rspIrqEn = true → (s.mbox f.val).unraised ≠ 0 → (s.mbox f.val).modTimeUs ≠ 0 →
      (tget ({} : MsixVec) s.host.msix (256 * f.val + (s.mbox f.val).rspVector.toNat)).masked = false →
      (s.mbox f.val).rspVector.toNat < vectorCount f.val →
      Gives (.msixModerationTimer f) s fun t => Only [.host] s t ∧ (t.mbox f.val).unraised = 0 ∧
        t.host.messages = (f.val, (s.mbox f.val).rspVector.toNat) :: s.host.messages)

/-- A DMA that has failed (R693): ENABLE is cleared and DMA_ERROR set. A paced entry that is due (R697) is written when
events came in its second, and the pacing ends when none came. -/
def Sys2Proof.Claims.DmaFailureAndPacedEntries : Prop :=
  (∀ (s : State) (f : Fin 17) (ring : Bool) (a : BitVec 64),
    (s.mbox f.val).enable = true ∨ (s.mbox f.val).inflight ≠ [] →
    Gives (.commandDmaTimeout f ring a) s fun t => Only [.host] s t ∧ (t.mbox f.val).enable = false ∧
      (t.mbox f.val).dmaError = true ∧ ∀ g, g ≠ f.val → t.mbox g = s.mbox g) ∧
  ∀ (s : State) (k : Nat) (p : Paced), tget none s.host.paced k = some p → p.running = true →
    (p.events = 0 → exec (.pacedEntryDue k) s =
      .next { s with host := { s.host with paced := tset none s.host.paced k (some { p with running := false }) } }) ∧
    (p.events ≠ 0 → Gives (.pacedEntryDue k) s fun t => Only [.host] s t ∧
      tget none t.host.paced k = some { p with events := 0 })

/-- Function Level Reset, PCIE_PERST_N and Bus Master Enable (R67, R103, R665): a function's mailbox and rings stop, PF0's
reset acts on every VF, and the mode is unchanged. -/
def Obligations.FunctionResetsStopMailboxes : Prop :=
  ∀ s : State,
    (∀ f : Fin 17, s.answers = true → Gives (.functionLevelReset f) s fun t => Only [.host, .pair] s t ∧
      ∀ g : Fin 17, (f.val = 0 ∨ g = f) → (t.mbox g.val).enable = false ∧ (t.mbox g.val).inflight = [] ∧
        (t.mbox g.val).accepted = [] ∧ (t.mbox g.val).cmdTail = (t.mbox g.val).cmdHead) ∧
    (s.host.perst = false → Gives .pciePerst s fun t => Only [.host, .pair] s t ∧ t.host.perst = true ∧ t.answers = false ∧
      ∀ g : Fin 17, (t.mbox g.val).enable = false ∧ t.busMaster g.val = false) ∧
    exec .pciePerstRelease s = .next { s with host := { s.host with perst := false } } ∧
    (∀ (f : Fin 17) (b : Bool), s.answers = true → Gives (.busMasterEnable f b) s fun t => Only [.host] s t ∧
      t.busMaster f.val = b ∧ ∀ g, g ≠ f.val → t.busMaster g = s.busMaster g)

/-- JTAG (R684): IDCODE gives the stepping's code, SAMPLE captures the cells, any other instruction selects BYPASS; they
change nothing but the instruction and boundary registers and what is shifted out. -/
def Sys2Proof.Claims.JtagTouchesOnlyItsRegisters : Prop :=
  ∀ s : State,
    exec .jtagIdcode s = .next { s with jtag := { s.jtag with ir := 1 }, host := { s.host with readData := 0x29651A4B } } ∧
    (∀ c : BitVec 140, exec (.jtagSample c) s =
      .next { s with jtag := { ir := 2, boundary := c }, host := { s.host with readData := c.toNat } }) ∧
    ∀ i : BitVec 4, i ≠ 1 → i ≠ 2 → exec (.jtagBypass i) s = .next { s with jtag := { s.jtag with ir := i } }


/-- The RTC, the reads that change something, and the test port (R7, R153, R584, R682, R684). -/
def Obligations.RtcReadsAndJtag : Prop :=
  RtcAccessFollowsTheShadow ∧ ReadsThatChangeStateChangeOnlyThat ∧ JtagTouchesOnlyItsRegisters

/-- A mailbox is enabled afresh, and its doorbells stay within their rings (R71, R72, R84). -/
def Obligations.MailboxesStartAndStayInTheirRings : Prop := MailboxEnableRestartsTheCounts ∧ DoorbellsStayWithinTheRing

/-- A Well is enabled, drained and closed by its own registers, and the Pump fills and closes its banks (R87, R89 to R91,
R94, R96). -/
def Obligations.WellsFillAndClose : Prop := WellControlActsOnItsOwnWell ∧ PumpFillsAndClosesBanks

/-- Messages that are pending leave when they may, and failed accesses and paced entries do what the rules say (R71, R97, R693,
R697). -/
def Obligations.MessagesFailuresAndPacedEntries : Prop := MsixSendsPendingMessages ∧ DmaFailureAndPacedEntries

namespace Sys2Proof.Claims

open Machine

/-! ### Words of the statements about ACI commands -/

/-- The device has read the descriptor at CMD_HEAD. -/
def taken (a : Aci) (s : State) : State := s.takeDesc a.fn.val

/-- The command among those in flight. -/
def ref (c : AciSpec) (a : Aci) (s : State) (carried : Bool := false) : CmdRef :=
  { tag := (c.req a s).tag, opcode := c.op, fence := (c.req a s).fence, object := (c.req a s).object, carried := carried }

/-- The command is in flight. -/
def started (c : AciSpec) (a : Aci) (s : State) : State :=
  (taken a s).modMbox a.fn.val fun m => { m with inflight := ref c a s :: m.inflight }

/-- The descriptor is read now (R67, R72, R77, R84), it passes, and a share is left (R76). -/
def reads (c : AciSpec) (a : Aci) (s : State) : Bool :=
  s.canRead a.fn.val && (descCheck c a (taken a s)).isNone && decide ((s.mbox a.fn.val).mine.length < s.share a.fn.val)

/-- The command starts when its descriptor is read: no earlier one of the function holds it back (R78). -/
def mayStart (c : AciSpec) (a : Aci) (s : State) : Bool := reads c a s && !s.fenced (c.req a s)

/-- The command runs on this device now: it may start, its parameters pass (R80 step 4), it does not go to the partner
first (R545), and every further check passes. -/
def accepted (c : AciSpec) (a : Aci) (s : State) : Bool :=
  mayStart c a s && (c.params (c.req a s) (taken a s)).isNone && !c.carries (c.req a s) (taken a s) &&
    (c.check (c.req a s) (started c a s)).isNone

/-- The function's ring took one response: the command's TAG with this STATUS and SUBCODE, and results. -/
def Responded (_c : AciSpec) (a : Aci) (s t : State) (st sub : Nat) (res : Bytes) : Prop :=
  let m := s.mbox a.fn.val
  let n := t.mbox a.fn.val
  n.cmdHead = m.cmdHead + 1 ∧ n.rspTail = m.rspTail + 1 ∧
    ∃ y, n.responses = y :: m.responses ∧ y.tag = a.tagWord.toNat % 4096 ∧ y.status = st ∧ y.sub = sub ∧ y.results = res

/-- The command is in flight and not answered yet. -/
def Unanswered (c : AciSpec) (a : Aci) (s t : State) : Prop :=
  (t.mbox a.fn.val).cmdHead = (s.mbox a.fn.val).cmdHead + 1 ∧ ref c a s ∈ (t.mbox a.fn.val).inflight

/-- A query: accepted, it answers OK with results, and nothing but the host interface changes. -/
def Reads (c : AciSpec) (cmd : Aci → Instr) (R : Req → State → Bytes → Prop) : Prop :=
  ∀ a s, accepted c a s = true → Gives (cmd a) s fun t =>
    ∃ res, Responded c a s t stOk 0 res ∧ Only [.host] s t ∧ R (c.req a s) s res

/-- Accepted, the command answers with STATUS `st` and has its effect; it changes the host interface and the parts listed. -/
def Does (c : AciSpec) (cmd : Aci → Instr) (st : Nat) (l : List Part) (E : Req → State → State → Bytes → Prop)
    (when_ : Req → State → Prop := fun _ _ => True) : Prop :=
  ∀ a s, accepted c a s = true → when_ (c.req a s) s → Gives (cmd a) s fun t =>
    ∃ res, Responded c a s t st 0 res ∧ Only (.host :: l) s t ∧ E (c.req a s) s t res

/-- Accepted, the command is answered ACCEPTED, with its DEADLINE in the results, and its completion event is still to come
(R79, R80, R82). -/
def Accepts (c : AciSpec) (cmd : Aci → Instr) (l : List Part) (E : Req → State → State → Bytes → Prop)
    (when_ : Req → State → Prop := fun _ _ => True) : Prop :=
  ∀ a s, accepted c a s = true → when_ (c.req a s) s → Gives (cmd a) s fun t =>
    ref c a s ∈ (t.mbox a.fn.val).accepted ∧
      ∃ res, Responded c a s t stAccepted 0 res ∧ Only (.host :: l) s t ∧ E (c.req a s) s t res

/-- Accepted, a setting that the configuration blob holds takes effect, its journal record is staged, and its response
follows the record (R50, R512); without a blob in force it is answered at once (R696). -/
def Stores (c : AciSpec) (cmd : Aci → Instr) (l : List Part) (E : Req → State → State → Prop)
    (when_ : Req → State → Prop := fun _ _ => True) : Prop :=
  ∀ a s, accepted c a s = true → when_ (c.req a s) s → Gives (cmd a) s fun t =>
    Only (.host :: .cfg :: .nv :: l) s t ∧ E (c.req a s) s t ∧
      (s.unstored = true → t.nv = s.nv ∧ Responded c a s t stOk 0 []) ∧
      (s.unstored = false → Unanswered c a s t ∧
        t.nv = { s.nv with staged := s.nv.staged ++ [.journal t.cfg (some (c.req a s, {}))] })

/-- Accepted, the command has its first effect, and is answered by a later event. -/
def Begins (c : AciSpec) (cmd : Aci → Instr) (l : List Part) (E : Req → State → State → Prop)
    (when_ : Req → State → Prop := fun _ _ => True) : Prop :=
  ∀ a s, accepted c a s = true → when_ (c.req a s) s → Gives (cmd a) s fun t =>
    Only (.host :: l) s t ∧ Unanswered c a s t ∧ E (c.req a s) s t

/-- The event that took `t` to `u` answers the command: a response with its TAG, STATUS, SUBCODE and results lies on top of the
function's others. -/
def Answered (a : Aci) (t u : State) (st sub : Nat) (res : Bytes) : Prop :=
  ∃ y, (u.mbox a.fn.val).responses = y :: (t.mbox a.fn.val).responses ∧ y.tag = a.tagWord.toNat % 4096 ∧ y.status = st ∧ y.sub = sub ∧
    y.results = res

/-- Accepted, the command answers a next state; in it the event that the rules name for its end answers it OK, with its whole
effect. -/
def Completes (c : AciSpec) (cmd : Aci → Instr) (ev : Req → Instr) (E : Req → State → State → Bytes → Prop)
    (when_ : Req → State → Prop := fun _ _ => True) : Prop :=
  ∀ a s, accepted c a s = true → when_ (c.req a s) s → Gives (cmd a) s fun t => Gives (ev (c.req a s)) t fun u =>
    ∃ res, Answered a t u stOk 0 res ∧ E (c.req a s) s u res

/-- Accepted, the command makes a generation of table writes; once the maintenance slots have placed what waits in every pipe
(R195, R219), the next boundary answers it OK, with its whole effect. -/
def CompletesPlaced (c : AciSpec) (cmd : Aci → Instr) (E : Req → State → State → Bytes → Prop)
    (when_ : Req → State → Prop := fun _ _ => True) : Prop :=
  ∀ a s, accepted c a s = true → when_ (c.req a s) s → Gives (cmd a) s fun t => ∀ slots : Tab Nat,
    let v : State := { t with fwd := { t.fwd with placed := slots } }
    (∀ g ∈ v.fwd.pendingGens, v.isPlaced g = true) → Gives .generationBoundary v fun u =>
      ∃ res, Answered a t u stOk 0 res ∧ E (c.req a s) s u res

end Sys2Proof.Claims

/-! ### The mailbox -/

/-- R77: the device does not read a command descriptor of a function whose response ring has no free slot: responses that
lie in the ring, or have a slot reserved, fill it. The command changes nothing and stays in the ring. -/
def Obligations.FullResponseRingStopsReading : Prop :=
  ∀ (c : AciSpec) (a : Aci) (s : State), (s.mbox a.fn.val).rspSize ≤ (s.mbox a.fn.val).rspUsed →
    c.exec a s = s ∧ ∀ op, exec (.unknownOpcode op a) s = .next s

/-- What else keeps a descriptor in the ring: ENABLE clear or a disabled endpoint (R67, R71), an empty ring (R72), a held
tenant (R35), a mode that does not read (R39, R52, R55), and another function whose turn it is (R33, R78). A command that is
read while an earlier one holds it back, by FENCE or its opcode group, is in flight and waits (R78). -/
def Obligations.DescriptorWaitsInItsRing : Prop :=
  ∀ (c : AciSpec) (a : Aci) (s : State),
    let m := s.mbox a.fn.val
    ((m.enable = false ∨ m.cmdTail = m.cmdHead ∨ m.tenantHeld = true ∨ s.busMaster a.fn.val = false ∨ s.ms.mode = .m0 ∨
      s.ms.mode = .m6 ∨ s.host.perst = true ∨ s.ms.inTransition = true ∨ (s.ms.mode = .m1 ∧ a.fn.val ≠ 0) ∨
      ∃ g ∈ s.before a.fn.val, s.readable g = true) →
      c.exec a s = s) ∧
    (reads c a s = true →
      (∃ x ∈ m.inflight, x.own = true ∧ (x.fence = true ∨ x.opcode / 256 = c.op / 256)) ∨
        (bit a.byte4.toNat 0 = true ∧ ∃ x ∈ m.inflight, x.own = true) →
      Only [.host] s (c.exec a s) ∧
        ((c.exec a s).mbox a.fn.val).inflight = ref c a s :: m.inflight ∧
        ((c.exec a s).mbox a.fn.val).responses = m.responses ∧ ((c.exec a s).mbox a.fn.val).cmdHead = m.cmdHead + 1 ∧
        ((c.exec a s).mbox a.fn.val).waiting = m.waiting ++ [{ req := c.req a s, ack := c.board.1, data := c.board.2 }])

/-- The order of checks (R80): the first that fails gives STATUS and SUBCODE, and the command has no other effect. -/
def Obligations.FirstFailedCheckAnswers : Prop :=
  ∀ (c : AciSpec) (a : Aci) (s : State), s.canRead a.fn.val = true →
    let refuses (st sub : Nat) : Prop := Responded c a s (c.exec a s) st sub [] ∧ Only [.host] s (c.exec a s)
    let r := c.req a s
    (4096 ≤ a.tagWord.toNat → refuses stBadParam 0x02) ∧
    (a.tagWord.toNat < 4096 → a.byte4.toNat / 2 ≠ 0 ∨ a.byte5 ≠ 0 → refuses stBadParam 0x01) ∧
    (a.tagWord.toNat < 4096 → a.byte4.toNat / 2 = 0 → a.byte5 = 0 → s.tagInUse a.fn.val a.tagWord.toNat = true →
      refuses stBadParam 0x03) ∧
    (∀ e, descCheck c a (taken a s) = some e → refuses e.1 e.2) ∧
    (descCheck c a (taken a s) = none → s.share a.fn.val ≤ (s.mbox a.fn.val).mine.length →
      (∀ sub, c.objects r (taken a s) = some (stBadParam, sub) → refuses stBadParam sub) ∧
      ((∀ sub, c.objects r (taken a s) ≠ some (stBadParam, sub)) → refuses stBusy 0x01)) ∧
    (mayStart c a s = true →
      ((c.rsv r.pl).all (maskZero r.pl) = false → refuses stBadParam 0x01) ∧
      ((c.rsv r.pl).all (maskZero r.pl) = true → ∀ e, c.par r (taken a s) = some e → refuses e.1 e.2) ∧
      (c.params r (taken a s) = none → c.carries r (taken a s) = false →
        (∀ e, c.check r (started c a s) = some e → refuses e.1 e.2) ∧
        (c.pf0Only = true → a.fn.val ≠ 0 → c.par r (started c a s) = none →
          c.free r (started c a s) = none → refuses stDenied 0x01) ∧
        (c.pf0Only = false → a.fn.val ≠ 0 → c.par r (started c a s) = none →
          c.owned r (started c a s) = false → refuses stDenied 0x02) ∧
        (c.pf0Only = true → a.fn.val = 0 → c.par r (started c a s) = none →
          c.free r (started c a s) = none → c.denied r (started c a s) = none →
          c.modes.contains s.ms.mode = false → refuses stNotInMode 0)))

/-- R689: an undefined opcode answers BAD_OPCODE, and is not carried. -/
def Obligations.UndefinedOpcodeAnswersBadOpcode : Prop :=
  ∀ (op : BitVec 16) (a : Aci) (s : State), s.canRead a.fn.val = true → op.toNat ∉ definedOps →
    Gives (.unknownOpcode op a) s fun t => Only [.host] s t ∧
      (∃ y, (t.mbox a.fn.val).responses = y :: (s.mbox a.fn.val).responses ∧ y.tag = a.tagWord.toNat % 4096 ∧
        y.status = 0x0010 ∧ y.sub = 0 ∧ y.results = []) ∧
      (t.mbox a.fn.val).cmdHead = (s.mbox a.fn.val).cmdHead + 1 ∧ (t.mbox a.fn.val).inflight = (s.mbox a.fn.val).inflight

/-- Setting commands in M4 ACTIVE (R545): the command stays in flight, both devices get release epoch E, 64 epochs on, and
nothing takes effect yet. -/
def Obligations.SettingCommandsAreCarried : Prop :=
  ∀ (c : AciSpec) (a : Aci) (s : State), mayStart c a s = true → c.params (c.req a s) (taken a s) = none →
    c.carries (c.req a s) (taken a s) = true →
    let t := c.exec a s
    Only [.host, .pair] s t ∧ (t.mbox a.fn.val).inflight = ref c a s true :: (s.mbox a.fn.val).inflight ∧
      (t.mbox a.fn.val).responses = (s.mbox a.fn.val).responses ∧
      t.pair.carried = s.pair.carried ++ [{ req := c.req a s, epoch := s.epoch + 64, own := true }] ∧
      (s.pair.linkUp = true → t.pair.sent = .command c.op a.fn.val (a.tagWord.toNat % 4096) (s.epoch + 64) :: s.pair.sent)

/-! ### SYS commands -/

/-- SYS_WARM_RESET (R62): the response is written first; MODE goes to M1 BOOT, or through it to M7 SAFE for want of a bank,
and the clean mark is on MRAM when the flag asks for it until the entry erases it. SYS_SHUTDOWN (R63): M0 DORMANT. -/
def Obligations.ResetCommandsAnswerThenRestart : Prop :=
  (∀ a s, accepted sysWarmResetSpec a s = true → Gives (.sysWarmReset a) s fun t =>
    (∃ y, t.host.parting = [(a.fn.val, y)] ∧ y.tag = a.tagWord.toNat % 4096 ∧ y.status = stOk) ∧
    (t.ms.mode = .m1 ∨ t.ms.mode = .m7 ∧ t.ms.safeCause = 3) ∧ t.ms.resetCause.getLsbD 3 = true ∧
    (s.pins.refclkRc = true → t.nv.cleanMark = false ∧
      ((sysWarmResetSpec.req a s).fl 16 0 = true → t.ms.unclean = false)) ∧
    t.mesh.nodes = [] ∧ t.nv.fuses = s.nv.fuses ∧ t.nv.leases = s.nv.leases ∧ t.nv.staged = [] ∧
    t.time.duration = s.time.duration ∧ t.time.rtc.count = s.time.rtc.count ∧ t.pending = s.pending ∧ (t.mbox 0).enable = false) ∧
  ∀ a s, accepted sysShutdownSpec a s = true → Gives (.sysShutdown a) s fun t =>
    (∃ y, t.host.parting = [(a.fn.val, y)] ∧ y.tag = a.tagWord.toNat % 4096 ∧ y.status = stOk) ∧
    t.ms.mode = .m0 ∧ t.ms.armed = false ∧ t.ms.resetCause.getLsbD 7 = true ∧ t.nv.cleanMark = true ∧
    t.pins.activeOut = false ∧ t.pins.aliveOut = false ∧ t.nv.fuses = s.nv.fuses ∧ t.time.rtc.count = s.time.rtc.count ∧
    t.pending = s.pending

/-- The other SYS commands (R64, R83, R86, R98, R35): SYS_CONFIG_CLEAR, SYS_SET_SHARES, SYS_WELL_ASSIGN, SYS_RING_CONFIG and
TENANT_RESET, which is answered at a generation boundary. -/
def Obligations.SystemCommandsTakeEffect : Prop :=
  (Does sysConfigClearSpec .sysConfigClear stOk [.nv] fun _ s t res => res = [] ∧ t.nv.journal = none ∧
    t.nv.journalUsed = 0 ∧ (∃ b, t.nv.blob = some b ∧ b.cfg = {} ∧ b.version = s.ms.setVersion ∧
      ∀ o, s.nv.blob = some o ∨ s.nv.oldBlob = some o → o.seq < b.seq) ∧
    t.nv.keys = s.nv.keys ∧ t.nv.leases = s.nv.leases ∧ t.nv.fuses = s.nv.fuses) ∧
  (Stores sysSetSharesSpec .sysSetShares [] fun r s t => t.cfg = { s.cfg with
    shares := (List.range 17).map fun f => r.b (2 * f) 2 % 8192
    puntQuota := (List.range 16).map fun i => r.b (34 + i) 1 % 16
    injQuota := (List.range 16).map fun i => r.b (34 + i) 1 / 16 % 16 }) ∧
  (Stores sysWellAssignSpec .sysWellAssign [] fun r s t =>
    let w := bits (r.f 16 2) 0 10
    let o := r.fb 18 0 5
    tget none t.cfg.wells w = (if o = 16 then none else some { tenant := o, slot := r.f 19 1, fault := r.fl 20 0 }) ∧
      (r.fl 20 0 = false → ∀ k, k ≠ w → tget none t.cfg.wells k = tget none s.cfg.wells k) ∧
      (r.fl 20 0 = true → ∀ k x, k ≠ w → tget none t.cfg.wells k = some x → x.tenant = o → x.fault = false) ∧
      { t.cfg with wells := s.cfg.wells } = s.cfg) ∧
  (Does sysRingConfigSpec .sysRingConfig stOk [] fun r s t res => res = [] ∧
    let n := r.fb 16 0 6
    let on (x y : Ring) : Prop := y.configured = true ∧ y.enable = true ∧ y.log2 = r.fb 17 0 4 ∧ y.bufUnits = r.fb 18 0 7 ∧
      y.vector = r.f 19 1 ∧ y.irqEn = r.fl 20 0 ∧ y.base = r.f 24 8 ∧ y.truncDrop = x.truncDrop ∧ y.nobufDrop = x.nobufDrop ∧
      y.injError = x.injError ∧ y.head = 0 ∧ y.tail = 0
    (r.fl 16 6 = false → t.host.inject = s.host.inject ∧
      (r.fl 16 7 = true → (s.puntRing r.fn n).enable = false → on (s.puntRing r.fn n) (t.puntRing r.fn n)) ∧
      (r.fl 16 7 = true → (s.puntRing r.fn n).enable = true →
        t.puntRing r.fn n = { s.puntRing r.fn n with vector := r.f 19 1, irqEn := r.fl 20 0 }) ∧
      (r.fl 16 7 = false → t.puntRing r.fn n = (s.puntRing r.fn n).disable ∧ (t.puntRing r.fn n).enable = false)) ∧
    (r.fl 16 6 = true → t.host.punt = s.host.punt ∧
      (r.fl 16 7 = true → (s.injRing r.fn n).enable = false → on (s.injRing r.fn n) (t.injRing r.fn n)) ∧
      (r.fl 16 7 = true → (s.injRing r.fn n).enable = true →
        t.injRing r.fn n = { s.injRing r.fn n with vector := r.f 19 1, irqEn := r.fl 20 0 }) ∧
      (r.fl 16 7 = false → t.injRing r.fn n = { s.injRing r.fn n with enable := false, tail := (s.injRing r.fn n).head }))) ∧
  (Begins tenantResetSpec .tenantReset [.nv, .fwd, .radio, .mesh, .pair, .ctr] fun r s t =>
    let tn := r.fb 16 0 4
    (t.mbox (tn + 1)).tenantHeld = true ∧ (t.mbox (tn + 1)).accepted = [] ∧
      (∃ g l, t.fwd.pendingGens = l ++ [g] ∧ g.reset = some tn ∧ g.fn = r.fn ∧ g.cmd = some (r.tag, 0x0110) ∧
        ∀ x ∈ l, x.fn = tn + 1 → x.reset.isSome = true) ∧
      (∀ x ∈ t.fwd.staged, x.1 ≠ tn + 1) ∧
      ∀ d : Fin 64, s.domainTenant d.val = some tn → (t.meshDom d.val).cfg = none ∧ (t.domain d.val).bankA = .empty ∧
        (t.domain d.val).bankB = .empty ∧ (t.domain d.val).active = none ∧
        t.epochOfDomain d.val = (s.epochOfDomain d.val + 1) % 2 ^ 32) ∧
  (CompletesPlaced tenantResetSpec .tenantReset (fun r s u res => res = [] ∧
      let tn := r.fb 16 0 4
      (u.mbox (tn + 1)).tenantHeld = false ∧ u.fwd.generation = s.fwd.generation + 1 ∧ (∀ e ∈ u.qos.policers, e.2.owner ≠ tn) ∧
        (∀ n x, tget none u.fwd.tables.rules n = some x → x.owner ≠ tn) ∧
        ∀ d : Fin 64, s.domainTenant d.val = some tn → (u.meshDom d.val).cfg = none ∧ (u.domain d.val).active = none)
    fun _ s => s.fwd.pendingGens = [])

/-! ### PORT commands -/

/-- The settings of ports (R171, R174 to R177, R181): each lands in the configuration as its payload gives it, and a cut-through
pair holds as before until the response (R173); a port whose
lanes change loses its link, and one that is taken down at its next frame boundary (R172); preemption is evaluated afresh there. A
bus that a map brings in while the masters are driven is recovered first (R185). -/
def Obligations.PortSettingsTakeEffect : Prop :=
  (Stores portSetSpeedSpec .portSetSpeed [.ports, .qos, .radio, .ctr] fun r s t =>
    let p := r.f 16 1
    let old := s.portCfg p
    t.portCfg p = { old with mode := r.fb 17 0 4, firstLane := r.fb 18 0 6, adminUp := r.fl 19 0, anEn := r.fl 19 1,
                             maxFrame := r.f 20 2 } ∧
      (∀ k, k ≠ p → t.portCfg k = s.portCfg k) ∧
      (let relane := r.fb 17 0 4 ≠ old.mode ∨ r.fb 18 0 6 ≠ old.firstLane ∨ r.fl 19 1 ≠ old.anEn
       (relane ∨ r.fl 19 0 = false ∧ (s.sched p).sending = none → (t.portSt p).linkUp = false) ∧
       (¬relane → r.fl 19 0 = false → (s.sched p).sending ≠ none →
         { t.ports with cutWait := s.ports.cutWait } = s.ports ∧ (t.sched p).downDue = true)) ∧
      (r.f 20 2 = old.maxFrame → t.cfg.cutThrough = s.cfg.cutThrough) ∧
      (r.f 20 2 ≠ old.maxFrame → ∀ e ∈ t.cfg.cutThrough, e.1 / 256 ≠ p ∧ e.1 % 256 ≠ p)) ∧
  (Stores portSetCutThroughSpec .portSetCutThrough [.ports] fun r s t =>
    let pair := 256 * r.f 16 1 + r.f 17 1
    t.cfg = { s.cfg with cutThrough := tset false s.cfg.cutThrough pair (r.fl 18 0) } ∧
      t.ports = { s.ports with cutWait := s.ports.cutWait ++
        (if s.ms.mode = .m3 ∧ s.unstored = false then [(pair, tget false s.cfg.cutThrough pair)] else []) }) ∧
  (Stores portSetPreemptSpec .portSetPreempt [.ports, .qos, .radio, .ctr] fun r s t =>
    let p := r.f 16 1
    t.portCfg p = { s.portCfg p with preEnable := r.fl 17 0, preVerify := r.fl 17 1, addFrag := r.fb 17 2 2, verifyMs := r.f 18 1 } ∧
      (∀ k, k ≠ p → t.portCfg k = s.portCfg k ∧ t.portSt k = s.portSt k) ∧
      ((s.sched p).sending = none → (s.sched p).downDue = false →
        (t.portSt p).preActive = ((s.portSt p).linkUp && r.fl 17 0 && !r.fl 17 1) ∧
        (t.portSt p).verifyTries = (if (s.portSt p).linkUp && r.fl 17 0 && r.fl 17 1 then 1 else 0)) ∧
      ((s.sched p).sending ≠ none → t.ports = s.ports ∧ (t.sched p).preDue = true)) ∧
  (Stores portSetRadioSpec .portSetRadio [.ports, .qos, .radio, .ctr] (fun r s t =>
    let p := r.f 16 1
    (r.fl 17 7 = true → (t.portCfg p).site = some (r.fb 17 0 7) ∧ (t.portCfg p).maxFrame = 9600 ∧
      (t.portCfg p).preEnable = false ∧ (t.portSt p).linkUp = false) ∧
    (r.fl 17 7 = false → t.portCfg p = { s.portCfg p with site := none }) ∧ ∀ k, k ≠ p → t.portCfg k = s.portCfg k)
    fun r s => r.fl 17 7 = true ∨ (s.portSite (r.f 16 1)).isSome = true) ∧
  (∀ a s, accepted portSetRadioSpec a s = true → (portSetRadioSpec.req a s).fl 17 7 = false →
    s.portSite ((portSetRadioSpec.req a s).f 16 1) = none → Gives (.portSetRadio a) s fun t =>
      Responded portSetRadioSpec a s t stOk 0 [] ∧ Only [.host] s t) ∧
  (Stores portRingPairSpec .portRingPair [.ports, .pins] fun r s t =>
    t.cfg = { s.cfg with rings := tset none s.cfg.rings (r.fb 16 0 4) (if r.fl 16 7 then some (r.f 17 1, r.f 18 1) else none) } ∧
      ∀ k : Fin 16, tget false t.pins.bypassHold k.val = t.holdLevel k.val ∧ tget false t.ports.passThrough k.val = t.passLevel k.val) ∧
  (Stores portOpticsMapSpec .portOpticsMap [.ports, .radio, .pins, .ctr, .draws] fun r s t =>
    (∀ k : Fin 128, tget none t.cfg.cages k.val = cageOf r k.val) ∧
    (s.ports.driving = false → t.ports.st = s.ports.st ∧ t.ports.buses = s.ports.buses ∧
      ∀ k : Fin 128, t.cageSt k.val = if tget none t.cfg.cages k.val = tget none s.cfg.cages k.val then s.cageSt k.val else {}) ∧
    (s.ports.driving = true → ∀ b : Fin 16,
      let first := tget .untried s.ports.buses b.val = .untried ∧ t.busCages b.val ≠ []
      (first → tget .untried t.ports.buses b.val = .recovering ∨ tget .untried t.ports.buses b.val = .outOfService) ∧
      (¬first → tget .untried t.ports.buses b.val = tget .untried s.ports.buses b.val)))

/-- PORT_GET_STATUS (R188), PORT_OPTICS_IO and PORT_MDIO_IO (R183, R184, R187): a write goes out on the bus, a read answers what
the module or the PHY gives. -/
def Obligations.PortQueriesAndBusAccesses : Prop :=
  (Reads portGetStatusSpec .portGetStatus fun r s res =>
    let p := r.f 16 1
    res.length = 24 ∧ bit (byteAt res 0) 0 = (s.portSt p).linkUp ∧ bit (byteAt res 0) 1 = (s.portSt p).localFault ∧
      bit (byteAt res 0) 2 = (s.portSt p).remoteFault ∧ bit (byteAt res 0) 3 = (s.portSt p).preActive ∧
      byteAt res 1 = (s.portCfg p).mode % 256 ∧ byteAt res 2 = (s.portCfg p).firstLane % 256 ∧
      leAt res 6 2 = (s.portCfg p).maxFrame % 65536) ∧
  (∀ ack data, Does (portOpticsIoSpec ack data) (fun a => .portOpticsIo a ack data) stOk [.ports] fun r s t res =>
    let w := r.bl 0 7
    let d := if w then r.pl.drop 4 else fit 128 data
    let c := r.bb 0 0 7
    let page := (r.b 1 1, r.b 2 1)
    let paged := 128 < r.b 3 1 + (if w then d.length else min 128 (256 - r.b 3 1))
    t.ports = { s.ports with cages := t.ports.cages, busLog := t.ports.busLog } ∧ (∀ k, k ≠ c → t.cageSt k = s.cageSt k) ∧
      (¬paged → t.ports = { s.ports with busLog := (c, w, r.b 1 3, d) :: s.ports.busLog }) ∧
      (paged → t.cageSt c = { s.cageSt c with page := some page } ∧ t.ports.busLog = (c, w, r.b 1 3, d) ::
        (if (s.cageSt c).page = some page then [] else [(c, true, 126, leBytes 1 page.1 ++ leBytes 1 page.2)]) ++ s.ports.busLog) ∧
      res = if w then [] else d) ∧
  (∀ data, Does (portMdioIoSpec data) (fun a => .portMdioIo a data) stOk [.ports] fun r s t res =>
    let w := r.fl 16 3
    let d := if w then leBytes 2 (r.f 22 2) else leBytes 2 data.toNat
    t.ports = { s.ports with busLog := (128 + r.fb 16 0 2, w, r.f 17 2 + 65536 * r.f 20 2 + 2 ^ 32 * r.fb 16 2 1, d) :: s.ports.busLog } ∧
      res = if w then [] else d)

/-! ### TABLE commands -/

namespace Sys2Proof.Claims

open Machine

/-- A staged write (R219): without AUTO_COMMIT it waits, answered OK; with it, and when the whole commit passes its checks
(R221), all that the function has staged becomes a generation that waits for its boundary; a commit that is refused has the status of
its check, in a pair on both devices (R224, R230), which is answered with nothing staged (R80: FirstFailedCheckAnswers). -/
def StagesWrite (c : AciSpec) (cmd : Aci → Instr) (auto : Req → Bool) (w : Req → TableWrite) : Prop :=
  (∀ a s, accepted c a s = true → auto (c.req a s) = false → Gives (cmd a) s fun t => Responded c a s t stOk 0 [] ∧
    Only [.host, .fwd] s t ∧ t.fwd = { s.fwd with staged := s.fwd.staged ++ [(a.fn.val, w (c.req a s))] }) ∧
  Begins c cmd [.fwd] (fun r s t =>
    t.fwd = { s.fwd with
      staged := s.fwd.staged.filter fun e => e.1 != r.fn
      stale := s.fwd.stale.filter (· != r.fn)
      pendingGens := s.fwd.pendingGens ++ [s.pendingGen r.fn (r.tag, r.opcode) (s.stagedOf r.fn ++ [w r])] })
    (fun r s => auto r = true ∧ s.overrun r.fn (s.stagedOf r.fn ++ [w r]) = false ∧ s.commitCheck r.fn (s.stagedOf r.fn ++ [w r]) = none) ∧
  ∀ r s, auto r = true → s.overrun r.fn (s.stagedOf r.fn ++ [w r]) = false → c.late r s = s.commitCheck r.fn (s.stagedOf r.fn ++ [w r])

end Sys2Proof.Claims

/-- The writes of tables (R228 to R241): VLANs, interfaces, static MACs, next hops, routes, rules and mirror sessions, each
staged with the fields of its payload. -/
def Obligations.TableWritesAreStaged : Prop :=
  StagesWrite tableVlanWriteSpec .tableVlanWrite (fun r => bit (r.b 0 2) 13) (fun r => .vlan (r.b 0 2 % 4096)
    (if bit (r.b 0 2) 12 then none else some
      { tenant := r.bb 2 0 4, learn := r.bl 2 4, flood := r.bl 2 5, ageLimit := r.b 4 2,
        members := leNat (slice r.pl 8 32), untagged := leNat (slice r.pl 40 32) })) ∧
  StagesWrite tableIntfWriteSpec .tableIntfWrite (fun r => bit (r.f 16 2) 13) (fun r => .intf (r.f 16 2 % 4096)
    (if bit (r.f 16 2) 12 then none else some
      { port := r.f 18 1, tenant := r.fb 19 0 4, vlan := r.f 20 2 % 4096, mac := beAt r.pl 6 6, mtu := r.f 28 2,
        excFn := r.fb 30 0 5, excRing := r.fb 31 0 6, excEn := r.fl 31 6 })) ∧
  StagesWrite tableMacWriteSpec .tableMacWrite (fun r => bit (r.f 22 2) 13) (fun r => .mac (beAt r.pl 0 6) (r.f 22 2 % 4096)
    (if bit (r.f 22 2) 12 then none else some (r.f 24 1, r.fl 25 0))) ∧
  StagesWrite tableNexthopWriteSpec .tableNexthopWrite (fun r => r.fl 18 3) (fun r => .nexthop (r.f 16 2)
    (if r.fl 18 2 then none else some
      { type := r.fb 18 0 2, tenant := r.fb 19 0 4, intf := r.f 20 2 % 4096, dstMac := beAt r.pl 6 6, domain := r.fb 28 0 6 })) ∧
  StagesWrite tableRouteWriteSpec .tableRouteWrite (fun r => r.fl 16 6) (fun r =>
    .route (routeKey (r.fb 16 0 4) (r.fl 16 4) (r.f 17 1) (beAt r.pl 4 16)) (if r.fl 16 5 then none else some (r.f 18 2))) ∧
  StagesWrite tableRuleWriteSpec .tableRuleWrite (fun r => bit (r.b 0 2) 15) (fun r => .rule (r.b 0 2 % 16384)
    (if bit (r.b 0 2) 14 then none else some (ruleOf r))) ∧
  StagesWrite tableMirrorWriteSpec .tableMirrorWrite (fun r => r.bl 0 5) (fun r => .mirror (r.bb 0 0 4)
    { enable := r.bl 0 4, direction := r.bb 1 0 2, destPunt := r.bl 1 2, destPort := r.b 2 1, serviceQ := r.bb 3 0 3,
      puntRing := r.bb 4 0 6, sampleN := r.b 8 4 % 2 ^ 24, truncate := r.b 16 2, ports := leNat (slice r.pl 24 32),
      lfsr := r.b 12 4 })

/-- TABLE_COMMIT (R231) with nothing staged answers at once, else its generation waits; the generation that has waited longest
becomes current at the first GENERATION_BOUNDARY after its entries are placed in every pipe (R195, R219, R223), whole, and is counted. A generation whose static MACs find no place
changes nothing (R221). Of writes to one entry the last counts (R221); an entry of the tenant's reset goes to the PF0 alarm Well (R31),
with values that are not stated. -/
def Obligations.GenerationsBecomeCurrentWhole : Prop :=
  (∀ a s, accepted tableCommitSpec a s = true → s.overrun a.fn.val [] = false → s.stagedOf a.fn.val = [] →
    Gives (.tableCommit a) s fun t => Only [.host] s t ∧
      ∃ res, Responded tableCommitSpec a s t stOk 0 res ∧ leAt res 0 4 = s.fwd.generation.toNat ∧ leAt res 4 2 = 0) ∧
  (Begins tableCommitSpec .tableCommit [.fwd] (fun r s t => t.fwd = { s.fwd with
      staged := s.fwd.staged.filter fun e => e.1 != r.fn
      stale := s.fwd.stale.filter (· != r.fn)
      pendingGens := s.fwd.pendingGens ++ [s.pendingGen r.fn (r.tag, r.opcode) (s.stagedOf r.fn)] })
    fun r s => s.overrun r.fn (s.stagedOf r.fn) = false ∧ s.stagedOf r.fn ≠ [] ∧ s.commitCheck r.fn (s.stagedOf r.fn) = none) ∧
  (CompletesPlaced tableCommitSpec .tableCommit (fun r s u res =>
      u.fwd.tables = s.fwd.tables.applyAll (s.stagedOf r.fn) ∧ u.fwd.generation = s.fwd.generation + 1 ∧ u.fwd.pendingGens = [] ∧
        leAt res 0 4 = (s.fwd.generation + 1).toNat ∧ leAt res 4 2 = (s.stagedOf r.fn).length % 65536)
    fun r s => s.overrun r.fn (s.stagedOf r.fn) = false ∧ s.stagedOf r.fn ≠ [] ∧ s.commitCheck r.fn (s.stagedOf r.fn) = none ∧
      s.fwd.pendingGens = [] ∧ staticWrites s.fwd.macs s.fwd.victim (lastWrites (s.stagedOf r.fn)) ≠ none) ∧
  (∀ t l n v, tget none (Tables.applyAll t (l ++ [.rule n v])).rules n = v) ∧ (∀ t l n v, tget none (Tables.applyAll t (l ++ [.route n v])).routes n = v) ∧
  (∀ s, s.fwd.pendingGens = [] → exec .generationBoundary s = .next s) ∧
  (∀ s g rest, s.fwd.pendingGens = g :: rest → s.isPlaced g = false → exec .generationBoundary s = .next s) ∧
  (∀ s g rest m vs, s.fwd.pendingGens = g :: rest → s.isPlaced g = true → g.reset = none → staticWrites s.fwd.macs s.fwd.victim (lastWrites g.writes) = some (m, vs) →
    Gives .generationBoundary s fun t => Only [.host, .fwd, .ctr] s t ∧ t.fwd.pendingGens = rest ∧
      t.fwd.generation = s.fwd.generation + 1 ∧ t.fwd.tables = s.fwd.tables.applyAll g.writes ∧
      t.fwd.macs = m ∧ t.fwd.victim = vs) ∧
  (∀ s g rest tn m vs, s.fwd.pendingGens = g :: rest → s.isPlaced g = true → g.reset = some tn →
    staticWrites s.fwd.macs s.fwd.victim (lastWrites g.writes) = some (m, vs) →
    Gives .generationBoundary s fun t => Only [.host, .fwd, .qos, .ctr, .draws] s t ∧
      t.fwd.tables = s.fwd.tables.applyAll g.writes ∧ t.fwd.generation = s.fwd.generation + 1 ∧
      (t.mbox (tn + 1)).tenantHeld = false ∧ (∀ e ∈ t.qos.policers, e.2.owner ≠ tn) ∧
      t.qos.maps = tset {} s.qos.maps tn {} ∧
      (∀ e ∈ t.qos.shapers, e ∈ s.qos.shapers ∧ (8 + 7 * tn ≤ e.1 % 128 → e.1 % 128 < 15 + 7 * tn → 32768 ≤ e.1)) ∧
      (∀ e ∈ s.cfg.wells, ∀ o, e.2 = some o → o.tenant = tn → 4 ≤ e.1 → t.well e.1 = {}) ∧
      ∀ e ∈ t.host.punt, e.1 / 64 = tn + 1 → e.2.enable = false) ∧
  ∀ s g rest, s.fwd.pendingGens = g :: rest → s.isPlaced g = true → staticWrites s.fwd.macs s.fwd.victim (lastWrites g.writes) = none →
    Gives .generationBoundary s fun t => t.fwd = { s.fwd with
      pendingGens := rest, placed := s.fwd.placed.map fun e => (e.1, e.2 - g.need e.1) }

/-- TABLE_STATUS, TABLE_MAC_READ, TABLE_MAC_FLUSH (R231, R237, R238), and the two settings of the table group that take effect at
once: TABLE_VRF_CONFIG and TABLE_PORT_L2 (R232, R233). -/
def Obligations.TableQueriesAndSettings : Prop :=
  (Reads tableStatusSpec .tableStatus fun r s res => leAt res 0 4 = s.fwd.generation.toNat ∧
    leAt res 4 2 = (s.stagedOf r.fn).length % 65536) ∧
  (Does tableVrfConfigSpec .tableVrfConfig stOk [.fwd] fun r s t res => res = [] ∧ t.fwd = { s.fwd with
    vrf := tset {} s.fwd.vrf (r.fb 16 0 4) { injectPipe := some (r.fb 16 4 3), routeQuota := r.f 20 4 % 2 ^ 19,
                                             hopQuota := r.f 24 4 % 2 ^ 17, ruleQuota := r.f 28 2 % 2 ^ 15 } }) ∧
  (Does tablePortL2Spec .tablePortL2 stOk [.fwd] fun r s t res => res = [] ∧ t.fwd = { s.fwd with
    portL2 := tset {} s.fwd.portL2 (r.f 16 1) { pvid := r.f 17 2 % 4096, learn := bit (r.f 17 2) 12,
                                                untagged := bit (r.f 17 2) 13, tagged := bit (r.f 17 2) 14 } }) ∧
  (Reads tableMacReadSpec .tableMacRead fun r s res =>
    let found := MacTab.lookup s.fwd.macs (r.fb 24 0 3) (beAt r.pl 0 6) (r.f 22 2 % 4096)
    (found = none → res = List.replicate 24 0) ∧
    ∀ k e, found = some k → tget none s.fwd.macs k = some e → res.length = 24 ∧ byteAt res 0 % 2 = 1 ∧
      bit (byteAt res 0) 1 = e.static ∧ bit (byteAt res 0) 2 = e.drop ∧ byteAt res 1 = e.port % 256 ∧
      leAt res 2 2 = e.age % 65536) ∧
  (Does tableMacFlushSpec .tableMacFlush stOk [.fwd, .ctr] fun r s t res =>
    let goes (e : Nat × Option MacEntry) : Prop := ∃ x, e.2 = some x ∧ x.static = false ∧
      (r.fl 17 0 = true → x.port = r.f 16 1) ∧ (r.fl 17 1 = true → x.vlan = r.f 18 2 % 4096)
    (∀ e, e ∈ t.fwd.macs ↔ e ∈ s.fwd.macs ∧ ¬goes e) ∧
      leAt res 0 4 = (s.fwd.macs.length - t.fwd.macs.length) % 2 ^ 32 ∧ { t.fwd with macs := s.fwd.macs } = s.fwd)

/-! ### QOS commands -/

/-- The QOS commands (R274 to R283): limits, scheduler, shapers, launch, class maps, policers, flush and status. -/
def Obligations.QosCommandsTakeEffect : Prop :=
  (Does qosSetLimitsSpec .qosSetLimits stOk [.qos] fun r s t res => res = [] ∧
    let n := r.b 2 1
    let q0 := 128 * r.b 0 1 + r.bb 1 0 7
    (∀ i, i < n → tget none t.qos.limits (q0 + i) = some { limit := r.b (4 + 8 * i) 2, yellow := r.b (6 + 8 * i) 2, red := r.b (8 + 8 * i) 2 }) ∧
      (∀ k, k < q0 ∨ q0 + n ≤ k → tget none t.qos.limits k = tget none s.qos.limits k) ∧
      { t.qos with limits := s.qos.limits } = s.qos) ∧
  (Does qosSetSchedSpec .qosSetSched stOk [.qos] fun r s t res => res = [] ∧
    t.sched (r.f 16 1) = { s.sched (r.f 16 1) with overhead := r.fs 17 1, weights := (List.range 16).map (fun i => r.f (20 + i) 1) ++ [r.f 18 1],
                                                   deficits := List.replicate 17 0 } ∧
      ∀ k, k ≠ r.f 16 1 → t.sched k = s.sched k) ∧
  (Does qosSetShaperSpec .qosSetShaper stOk [.qos] fun r s t res => res = [] ∧
    let old := s.shaper (r.fb 16 0 2) (r.f 18 2)
    let new := t.shaper (r.fb 16 0 2) (r.f 18 2)
    let full : Int := ((r.f 24 4 * 100000 : Nat) : Int)
    new.enable = r.fl 16 2 ∧ new.rate = r.f 20 4 ∧ new.burst = r.f 24 4 ∧
      (r.fl 16 2 = false → new.credit = 0) ∧ (r.fl 16 2 = true → old.enable = false → new.credit = full) ∧
      (r.fl 16 2 = true → old.enable = true → new.credit = min old.credit full)) ∧
  (Does qosSetLaunchSpec .qosSetLaunch stOk [.qos] fun r s t res => res = [] ∧
    let q := r.f 16 2 % 32768
    t.queue q = { s.queue q with launchEn := r.fl 18 0, launchLate := r.fl 18 1 } ∧ ∀ k, k ≠ q → t.queue k = s.queue k) ∧
  (Does qosSetClassMapSpec .qosSetClassMap stOk [.qos] fun r s t res => res = [] ∧ t.qos = { s.qos with
    maps := tset {} s.qos.maps (r.bb 0 0 4) { trust := r.bb 1 0 2, default := r.bb 2 0 3, pcp := (List.range 8).map fun p => r.bb (4 + p) 0 3,
                                              dscp := (List.range 64).map fun d => r.bb (12 + d) 0 3 } }) ∧
  (Does qosPolicerWriteSpec .qosPolicerWrite stOk [.qos] fun r s t res => res = [] ∧
    let x := t.policer (r.f 16 2)
    x.enable = r.fl 18 0 ∧ x.trTcm = r.fl 18 1 ∧ x.aware = r.fl 18 2 ∧ x.dscpSrc = r.fl 18 3 ∧ x.owner = r.fb 19 0 5 ∧
      x.yellowAct = r.fb 20 0 2 ∧ x.redAct = r.fb 20 2 2 ∧ x.demote = r.fb 21 0 3 ∧ x.cir = r.f 24 4 ∧ x.pir = r.f 28 4 ∧
      x.cbs = r.f 32 4 ∧ x.ebs = r.f 36 4 ∧ x.tc = x.cbs * 100000 ∧ x.te = x.ebs * 100000 ∧
      ∀ k, k ≠ r.f 16 2 → t.policer k = s.policer k) ∧
  (Does qosQueueFlushSpec .qosQueueFlush stOk [.qos, .ctr] fun r s t res =>
    let q := r.f 16 2 % 32768
    (t.queue q).items = [] ∧ leAt res 0 4 = (s.queue q).items.length % 2 ^ 32 ∧ ∀ k, k ≠ q → t.queue k = s.queue k) ∧
  (Reads qosQueueStatusSpec .qosQueueStatus fun r s res =>
    let q := r.f 16 2 % 32768
    res.length = 24 ∧ leAt res 0 4 = s.qCells q % 2 ^ 32 ∧ leAt res 4 4 = (s.queue q).items.length % 2 ^ 32 ∧
      bit (byteAt res 10) 0 = (s.queue q).launchEn ∧ bit (byteAt res 10) 2 = (s.shaper 0 q).enable) ∧
  (Reads qosCisternStatusSpec .qosCisternStatus fun _ s res => res.length = 24 ∧ leAt res 0 4 = s.usable % 2 ^ 32 ∧
    leAt res 8 4 = s.freeCells % 2 ^ 32 ∧ byteAt res 14 = s.qos.sparesUsed % 256 ∧ byteAt res 15 = s.qos.banksRemoved % 256)

/-! ### TIME commands -/

/-- The TIME commands (R112 to R114, R118, R128, R133 to R136): settings of bases, PTP instances, ports, PPS, SyncE and tenants,
the query of a base, and its step. -/
def Obligations.TimeCommandsTakeEffect : Prop :=
  (Stores timeBaseConfigSpec .timeBaseConfig [.time] fun r s t =>
    let tb := r.fb 16 0 3
    t.cfg = { s.cfg with bases := tset {} s.cfg.bases tb { source := r.fb 17 0 2, stepMode := r.fb 17 2 2, kp := r.f 20 4,
                                                           ki := r.f 24 4, stepNs := r.f 28 4, lockNs := r.f 32 4 } } ∧
      (t.base tb).t = (s.base tb).t ∧ (t.base tb).freq = (s.base tb).freq ∧ (t.base tb).integ = (s.base tb).integ ∧
      (r.fl 16 3 = true → (t.base tb).everLocked = false) ∧
      (r.fl 16 3 = false → (t.base tb).everLocked = (s.base tb).everLocked) ∧
      (r.fb 17 0 2 = 0 → (t.base tb).state = .free) ∧ (r.fb 17 0 2 ≠ 0 → (t.base tb).state = (s.base tb).state) ∧
      ∀ k, k ≠ tb → t.base k = s.base k) ∧
  (Reads timeGetSpec .timeGet fun r s res =>
    let tb := r.fb 16 0 3
    let b := s.base tb
    res.length = 24 ∧ leAt res 0 6 = (s.now tb).1 % 2 ^ 48 ∧ leAt res 6 4 = (s.now tb).2 ∧ leAt res 10 2 = b.t % 65536 ∧
      byteAt res 12 % 4 = b.state.num ∧ leAt res 14 2 = b.steps.toNat) ∧
  (Does timeStepSpec .timeStep stOk [.time, .qos, .radio, .pair, .ctr] fun r s t res => res = [] ∧
    let tb := r.fb 16 0 3
    (r.fl 16 3 = true → (t.base tb).t = (r.f 24 6 * 1000000000 + r.f 30 4) * 65536 ∧ (t.base tb).steps = (s.base tb).steps + 1 ∧
      (t.base tb).stepped = true) ∧
    (r.fl 16 3 = false → r.fs 24 8 ≠ 0 → ((t.base tb).t : Int) = (s.base tb).t + r.fs 24 8 * 65536 ∧
      (t.base tb).steps = (s.base tb).steps + 1) ∧
    (r.fl 16 3 = false → r.fs 24 8 = 0 → t.time = s.time) ∧ ∀ k, k ≠ tb → t.base k = s.base k) ∧
  (Stores timePtpConfigSpec .timePtpConfig [.time] fun r s t =>
    t.cfg = { s.cfg with ptp := tset {} s.cfg.ptp (r.bb 0 0 3) (ptpOf r) } ∧ t.time.bases = s.time.bases ∧
      ((ptpOf r).enable = false → ∀ p ∈ (ptpOf r).ports, t.ptpPort p = {})) ∧
  (Stores timePortConfigSpec .timePortConfig [] fun r s t => t.cfg = { s.cfg with
    portTime := tset {} s.cfg.portTime (r.f 16 1) { tb := r.fb 17 0 3, tcEn := r.fl 17 3, ingressPs := r.fs 20 4,
                                                    egressPs := r.fs 24 4, asymmetryPs := r.fs 28 4 } }) ∧
  (Stores timePpsConfigSpec .timePpsConfig [.time, .pins] fun r s t => t.cfg = { s.cfg with
    pps := { outTb := r.fb 16 0 3, outEn := r.fl 16 3, inTb := r.fb 16 4 3, inReport := r.fl 16 7, outOffsetNs := r.fs 20 4,
             outWidthUs := r.f 24 4 } } ∧
      (r.fl 16 3 = false → t.pins.ppsOut = false ∧ t.time.ppsHighFor = 0) ∧ (r.fl 16 3 = true → t.pins = s.pins ∧ t.time = s.time)) ∧
  (Stores timeSynceConfigSpec .timeSynceConfig [] fun r s t => t.cfg = { s.cfg with
    synce := tset {} s.cfg.synce (r.fb 16 0 1) { enable := r.fl 16 1, freq := r.fl 16 2, lane := r.f 18 2 % 512 } }) ∧
  (Stores timeSetTenantBaseSpec .timeSetTenantBase [.radio] fun r s t =>
    let tn := r.fb 16 0 4
    t.cfg = { s.cfg with tenantBase := tset 0 s.cfg.tenantBase tn (r.fb 17 0 3) } ∧
      { t.radio with domains := s.radio.domains } = s.radio ∧
      (tget 0 s.cfg.tenantBase tn = r.fb 17 0 3 → t.radio = s.radio) ∧
      (tget 0 s.cfg.tenantBase tn ≠ r.fb 17 0 3 → ∀ d : Fin 64, s.domainTenant d.val = some tn →
        (t.domain d.val).notBefore = 0 ∧ (t.domain d.val).last = none ∧ (t.domain d.val).hold = none ∧
          (t.domain d.val).previous = none))

/-! ### RADIO commands -/

/-- The RADIO commands (R328 to R335, R379): site settings, dwell plans, loading policy, reset, and the queries. -/
def Obligations.RadioCommandsTakeEffect : Prop :=
  (Stores radioSiteConfigSpec .radioSiteConfig [.qos, .radio, .ctr] fun r s t =>
    let n := r.fb 16 0 7
    t.siteCfg n = { bandEn := r.fb 17 0 3, gainFixed := r.fb 17 3 3, tunerEn := r.fl 17 6, fixedGain := [r.f 18 1, r.f 19 1, r.f 20 1],
                    floorRef := [r.f 22 2, r.f 24 2, r.f 26 2], marginQdb := r.f 28 1, rlAlarm := r.f 29 1, rlTarget := r.f 30 1,
                    blank := slice r.pl 16 16 } ∧
      (∀ k, k ≠ n → t.siteCfg k = s.siteCfg k) ∧ { t.cfg with sites := s.cfg.sites } = s.cfg ∧
      (s.siteRuns n = false → t.radio = s.radio ∧ t.qos = s.qos)) ∧
  (Stores radioDwellConfigSpec .radioDwellConfig [.radio] fun r s t =>
    let b := r.fb 17 0 2
    let named (n : Nat) : Prop := n ∈ (if r.fl 16 7 then List.range 96 else [r.fb 16 0 7])
    (∀ n, named n → t.plan n b = { f0 := r.f 20 4, spacing := r.f 24 4, count := r.f 28 2, wMs := r.f 32 4, budget := r.f 36 4, oop := r.f 40 4 }) ∧
      (∀ n k, k < 3 → k ≠ b ∨ ¬named n → t.plan n k = s.plan n k) ∧ t.radio.sites = s.radio.sites) ∧
  (Does radioSiteStatusSpec .radioSiteStatus stOk [.draws] fun r s t res =>
    let n := r.fb 16 0 7
    let x := s.site n
    res.length = 24 ∧ byteAt res 0 = x.state.num ∧ byteAt res 1 = x.reason % 256 ∧ leAt res 4 4 = x.delayNs % 2 ^ 32 ∧
      (∀ p, s.sitePort n = some p → byteAt res 3 = p % 256 ∧ t.draws = s.draws)) ∧
  (Reads radioFloorReadSpec .radioFloorRead fun r s res =>
    let f : Floor := tget {} (s.site (r.b 0 1)).floors (r.b 1 1)
    leAt res 0 6 = f.endS % 2 ^ 48 ∧ leAt res 6 2 = f.elevated % 65536 ∧ ∀ i, i < min 4096 (bandBins (r.b 1 1) - r.b 2 2) →
      leAt res (8 + 2 * i) 2 = match tget none f.floors (r.b 2 2 + i) with | some v => ofSigned 16 v | none => 0x8000) ∧
  (Reads radioDwellReadSpec .radioDwellRead fun r s res =>
    let u := s.dwellUsed (r.f 16 1) (r.f 17 1) (r.f 18 2) s.time.duration 0
    leAt res 0 4 = (u + 1599) / 1600 % 2 ^ 32 ∧ leAt res 8 4 = (s.plan (r.f 16 1) (r.f 17 1)).wMs % 2 ^ 32) ∧
  (Does radioSiteResetSpec .radioSiteReset stOk [.ports, .radio, .ctr] fun r s t res => res = [] ∧
    (t.site (r.f 16 1)).state = .down ∧ (t.site (r.f 16 1)).failures = 0 ∧ t.cfg = s.cfg) ∧
  (Does radioLoadingConfigSpec .radioLoadingConfig stOk [.radio] fun r s t res => res = [] ∧ 
    let p : LoadPolicy := { marginQdb := r.f 17 1, minRate := r.fb 18 0 2, maxRate := r.fb 18 2 2, holdS := r.f 19 1, deltaQdb := r.f 20 2 }
    t.radio = { s.radio with policies := tset {} s.radio.policies (r.fb 16 0 6) p }) ∧
  (Does radioMapReadSpec .radioMapRead stOk [.draws] fun r s _ res =>
    let m : NodeMaps := tget {} s.radio.maps (r.b 0 4 % 2 ^ 17)
    byteAt res 0 = mapIdOf m.ulCur % 256 ∧ byteAt res 1 = mapIdOf m.ulPrev % 256 ∧ byteAt res 2 = mapIdOf m.dlCur % 256 ∧
      ∀ n, m.acceptedAt = some n → leAt res 4 4 = min ((s.time.duration - n) / 1600000000) (2 ^ 32 - 1))

/-! ### SCHED commands -/

/-- The SCHED commands (R427 to R433): allotments, the load of an image into the bank that is not active, its activation at a
Season boundary, deactivation at the next slot boundary, unload and status. -/
def Obligations.ScheduleCommandsTakeEffect : Prop :=
  (Does schedDomainAllotSpec .schedDomainAllot stOk [.radio] fun r s t res => res = [] ∧
    t.domain (r.fb 16 0 6) = { s.domain (r.fb 16 0 6) with decShare := r.f 18 2, imageMib := r.f 20 2 } ∧
      ∀ k, k ≠ r.fb 16 0 6 → t.domain k = s.domain k) ∧
  (Does schedSiteAllotSpec .schedSiteAllot stOk [.radio] fun r s t res => res = [] ∧
    (∃ p, tget none t.radio.plans (r.bb 0 0 7) = some p ∧ p.slotUnits = r.b 2 2 ∧ p.log2Wheel = r.bb 4 0 4 ∧
      (∀ d : Fin 64, p.ctx.getD d.val 0 = r.bb (8 + d.val) 0 7 ∧ p.comb.getD d.val 0 = r.bb (72 + d.val) 0 3 ∧
        p.dwellShare.getD d.val 0 = r.b (136 + d.val) 1) ∧
      ∀ k, k < 3 * 2 ^ p.log2Wheel → p.owners.getD k 255 = r.b (200 + k) 1) ∧
      ∀ k, k ≠ r.bb 0 0 7 → tget none t.radio.plans k = tget none s.radio.plans k) ∧
  (Accepts schedLoadImageSpec .schedLoadImage [.radio] fun r s t res =>
    let d := r.fb 16 0 6
    let side := (s.domain d).loadSide
    (t.domain d).bank side = .loading r.fn r.tag (r.f 20 4) ∧ (t.domain d).bank (!side) = (s.domain d).bank (!side) ∧
      (t.domain d).active = (s.domain d).active ∧ (s.domain d).active ≠ some side ∧ byteAt res 12 = b2n side ∧
      ∀ k, k ≠ d → t.domain k = s.domain k) ∧
  (Accepts schedActivateSpec .schedActivate [.radio, .pair] fun r s t _ =>
    let d := r.fb 16 0 6
    ∃ b, (s.domain d).readySide = some b ∧ (t.domain d).activation =
      some { at_ := r.f 20 6 * 1000000000 + r.f 26 4, bank := b, fn := r.fn, tag := r.tag } ∧
      (t.domain d).active = (s.domain d).active ∧ ∀ k, k ≠ d → t.domain k = s.domain k) ∧
  (Does schedDeactivateSpec .schedDeactivate stOk [.radio, .pair] (fun r _ t res => res = [] ∧
      (t.domain (r.fb 16 0 6)).activation = none ∧ (t.domain (r.fb 16 0 6)).active = none)
    fun r s => (s.domain (r.fb 16 0 6)).active = none) ∧
  (Begins schedDeactivateSpec .schedDeactivate [.radio, .pair] (fun r s t =>
      let d := r.fb 16 0 6
      (t.domain d).activation = none ∧ (t.domain d).stopping = (s.domain d).stopping ++ [r] ∧ (t.domain d).active = (s.domain d).active)
    fun r s => (s.domain (r.fb 16 0 6)).active.isSome = true) ∧
  (∀ a s i w, accepted schedDeactivateSpec a s = true →
    let d := (schedDeactivateSpec.req a s).fb 16 0 6
    (s.domain d).activeImage = some i → (s.domain d).stopping = [] →
    s.ns (s.domainTb d) / i.slotNs < ({ s with time := w } : State).ns (s.domainTb d) / i.slotNs → Gives (.schedDeactivate a) s fun t =>
      Gives (.deactivateDone (Fin.ofNat 64 d)) { t with time := w } fun u => Answered a t u stOk 0 [] ∧ (u.domain d).active = none ∧
        (u.domain d).activation = none ∧ (u.domain d).stopping = []) ∧
  (Does schedUnloadSpec .schedUnload stOk [.radio, .pair] fun r s t res => res = [] ∧
    let d := r.fb 16 0 6
    let b := r.fl 16 6
    (t.domain d).bank b = .empty ∧ (t.domain d).bank (!b) = (s.domain d).bank (!b) ∧ (t.domain d).active = (s.domain d).active) ∧
  (Reads schedStatusSpec .schedStatus fun r s res =>
    let x := s.domain (r.fb 16 0 6)
    res.length = 24 ∧ byteAt res 0 % 4 = (match x.active with | none => 3 | some b => b2n b) ∧ byteAt res 0 / 4 = x.otherState ∧
      ∀ i, x.activeImage = some i → leAt res 4 4 = i.serial % 2 ^ 32)

/-! ### NODE commands -/

/-- The NODE commands that set and read (R476 to R481, R483): domains, their configuration and status, records, the bar list
and the key advance. Whether a NODE_READ finds no stable record in 16 tries is a free value (log entry 127). -/
def Sys2Proof.Claims.NodeCommandsTakeEffect : Prop :=
  (Stores nodeDomainAssignSpec .nodeDomainAssign [.mesh] fun r s t =>
    let d := r.fb 16 0 6
    let o : Option DomainOwner := if r.fl 16 6 then none else some { tenant := r.fb 17 0 4, base := r.f 20 4 % 2 ^ 17, max := r.f 18 2 }
    t.cfg = { s.cfg with domainOwner := tset none s.cfg.domainOwner d o } ∧
      t.mesh.nodes = s.mesh.nodes ∧
      (s.domainTenant d ≠ (if r.fl 16 6 then none else some (r.fb 17 0 4)) → (t.meshDom d).cfg = none) ∧
      ∀ k, k ≠ d → t.meshDom k = s.meshDom k) ∧
  (Does nodeDomainConfigSpec .nodeDomainConfig stOk [.mesh] fun r s t res => res = [] ∧
    let d := r.fb 16 0 6
    (t.meshDom d).cfg = some
      { joinOpen := r.fl 16 6, retryLimit := r.fb 17 0 3, panId := r.f 18 2, deviceEui := r.f 20 8, pfx := beNat (slice r.pl 12 8),
        mtu := r.f 36 2, fragPayload := r.f 38 2, eventWell := s.wellAt r.fn (r.f 40 2 % 1024),
        linkWell := s.wellAt r.fn (r.f 42 2 % 1024), joinSpreadS := r.f 44 2, joinWaitS := r.f 46 2, dlqDefault := r.f 48 2 } ∧
      ((s.meshDom d).cfg.isSome = true → t.mesh.nodes = s.mesh.nodes) ∧ ∀ k, k ≠ d → t.meshDom k = s.meshDom k) ∧
  (Reads nodeDomainStatusSpec .nodeDomainStatus fun r s res =>
    let d := r.fb 16 0 6
    res.length = 24 ∧ bit (byteAt res 0) 0 = (s.meshDom d).cfg.isSome ∧ bit (byteAt res 0) 2 = (s.meshDom d).dist.isSome ∧
      byteAt res 1 = s.epochOfDomain d % 255 + 1 ∧ leAt res 2 2 = (s.meshDom d).distIds % 65536 ∧
      leAt res 4 4 = s.epochOfDomain d % 2 ^ 32 ∧ leAt res 12 4 = (s.meshDom d).outCounter % 2 ^ 32) ∧
  (∀ a s, accepted nodeReadSpec a s = true → Gives (.nodeRead a) s fun t => Only [.host, .draws] s t ∧
    (Config.snapshotFails s.draws = true → Responded nodeReadSpec a s t stBusy 0x02 []) ∧
    (Config.snapshotFails s.draws = false → ∃ res h n, Responded nodeReadSpec a s t stOk 0 res ∧
      s.readTarget (nodeReadSpec.req a s) = some h ∧ s.node h = some n ∧
      leAt res 0 8 = n.eui % 2 ^ 64 ∧ byteAt res 8 = n.domain % 256 ∧ byteAt res 9 % 8 = n.state % 8 ∧
      leAt res 12 4 = n.rxCounter % 2 ^ 32 ∧ byteAt res 16 = n.keyIndex % 256)) ∧
  (Does nodeWriteSpec .nodeWrite stOk [.mesh] fun r s t res => res = [] ∧
    let h := r.b 0 4 % 2 ^ 17
    let m := r.b 4 4
    ∃ x y, s.node h = some x ∧ t.node h = some y ∧ (m = 0 → y = x) ∧ (m ≠ 0 → y.seqNo = x.seqNo + 2) ∧
      y.rxCounter = (if bit m 0 then r.b 20 4 else x.rxCounter) ∧
      y.parent = (if bit m 1 then r.b 28 4 % 2 ^ 17 else x.parent) ∧
      y.cslPeriodUs = (if bit m 2 then r.b 52 4 else x.cslPeriodUs) ∧
      (bit m 3 = false → y.links = x.links) ∧ y.dlqLimit = (if bit m 4 then r.b 102 2 else x.dlqLimit) ∧
      y.hostTag = (if bit m 5 then slice r.pl 168 32 else x.hostTag) ∧ y.eui = x.eui ∧ y.state = x.state ∧ y.queue = x.queue ∧
      ∀ k, k ≠ h → t.node k = s.node k) ∧
  (Does nodeRemoveSpec .nodeRemove stOk [.radio, .mesh, .pair, .ctr] fun r s t res => res = [] ∧
    ∃ k, s.removeKey r = some k ∧
      (r.fl 20 1 = true → k ∉ t.mesh.barred ∧ t.mesh.nodes = s.mesh.nodes) ∧
      (r.fl 20 1 = false → r.fl 20 0 = true → k ∈ t.mesh.barred) ∧
      (r.fl 20 1 = false → r.fl 20 0 = false → t.mesh.barred = s.mesh.barred) ∧
      (r.fl 20 1 = false → ∀ h, s.findEui k.1 k.2 = some h → t.node h = none)) ∧
  (Begins nodeDomainRekeySpec .nodeDomainRekey [.nv, .radio, .mesh, .pair, .ctr] fun r s t =>
    let d := r.fb 16 0 6
    t.epochOfDomain d = (s.epochOfDomain d + 1) % 2 ^ 32 ∧ r ∈ (t.meshDom d).rekeys ∧
      t.nv.staged = s.nv.staged ++ [.lease [(d, { epoch := (s.epochOfDomain d + 1) % 2 ^ 32, leaseEnd := 65536 })]] ∧
      ∀ h n, s.node h = some n → n.domain = d → t.node h = none) ∧
  (Completes nodeDomainRekeySpec .nodeDomainRekey (fun _ => .mramCommitDone) (fun r s u res => res = [] ∧
      let d := r.fb 16 0 6
      u.lease d = { epoch := (s.epochOfDomain d + 1) % 2 ^ 32, leaseEnd := 65536 } ∧ (u.meshDom d).nextEpoch = none ∧
        (u.meshDom d).outCounter = 0 ∧ (u.meshDom d).rekeys = [] ∧ ∀ h n, s.node h = some n → n.domain = d → u.node h = none)
    fun r s => s.nv.staged = [] ∧ (s.meshDom (r.fb 16 0 6)).rekeys = [] ∧ (s.meshDom (r.fb 16 0 6)).held = [])

/-- NODE_SEND (R465 to R468, R482) and distributions (R472, R484): accepted with a DEADLINE; the command ends at the latest when
its records go, and a distribution ends with its completion event. -/
def Sys2Proof.Claims.NodeSendAndDistributionsAreAccepted : Prop :=
  (∀ a s, accepted nodeSendSpec a s = true → (∀ n, s.node (handleB (nodeSendSpec.req a s)) = some n →
      n.matching (sendCmdId (nodeSendSpec.req a s)) = none) → Gives (.nodeSend a) s fun t =>
    let h := handleB (nodeSendSpec.req a s)
    Only [.host, .nv, .radio, .mesh, .pair, .ctr, .draws] s t ∧
      (∃ res, Responded nodeSendSpec a s t stAccepted 0 res) ∧
      ((∃ x ∈ t.mesh.sends, x.fn = a.fn.val ∧ x.tag = (nodeSendSpec.req a s).tag ∧ x.handle = h ∧
          x.cmdId = sendCmdId (nodeSendSpec.req a s) ∧ x.acked = 0) ∨ t.node h = none)) ∧
  (Accepts nodeDistStartSpec .nodeDistStart [.mesh] (fun r s t res =>
      let d := r.bb 0 0 6
      let id := (s.meshDom d).distIds % 65535 + 1
      leAt res 12 2 = id ∧ (t.meshDom d).distIds = id ∧ t.mesh.nodes = s.mesh.nodes ∧ ∃ x, (t.meshDom d).dist = some x ∧ x.fn = r.fn ∧ x.tag = r.tag ∧
        x.id = id ∧ x.slot = r.b 1 1 ∧ s.nodeImage (r.b 1 1) = some x.image ∧ x.blockSize = r.b 2 2 ∧ x.maxIndex = r.b 8 2 ∧
        x.endNs = r.b 10 6 * 1000000000 + r.b 16 4 ∧ x.sent = 0 ∧ x.done = [] ∧ x.targets = s.distTargets d (r.b 4 1))
    fun r s => s.distTargets (r.bb 0 0 6) (r.b 4 1) ≠ []) ∧
  (Does nodeDistStopSpec .nodeDistStop stOk [.mesh, .pair] fun r s t res => res = [] ∧ (t.meshDom (r.fb 16 0 6)).dist = none ∧
    ∀ k, k ≠ r.fb 16 0 6 → t.meshDom k = s.meshDom k)

/-- The NODE commands (R465 to R468, R472, R476 to R484). -/
def Obligations.NodeCommandsSetReadAndSend : Prop := NodeCommandsTakeEffect ∧ NodeSendAndDistributionsAreAccepted

/-! ### KEY commands -/

namespace Sys2Proof.Claims

open Machine

/-- A change of the key store is staged, and answered after its commit (R511): where nothing else is staged and 10 s have passed
since the last commit began, KEY_STORE_COMMIT makes the slot what `new` says, leaves every other slot alone, and answers OK. -/
def StagesKey (c : AciSpec) (cmd : Aci → Instr) (l : List Part) (op : Req → State → KeyOp → Prop) (slot : Req → Nat)
    (new : Req → State → KeySlot → Prop) (when_ : Req → State → Prop := fun _ _ => True) : Prop :=
  Begins c cmd (.nv :: l) (fun r s t => ∃ o, op r s o ∧
    t.nv = { s.nv with keys := { s.nv.keys with staged := s.nv.keys.staged ++ [{ op := o, reply := some r }] } }) when_ ∧
  Completes c cmd (fun _ => .keyStoreCommit)
    (fun r s u res => res = [] ∧ u.nv.keys.staged = [] ∧ (u.keySlot (slot r)).gen = (s.keySlot (slot r)).gen + 1 ∧
      new r s (u.keySlot (slot r)) ∧ ∀ k, k ≠ slot r → u.keySlot k = s.keySlot k)
    fun r s => when_ r s ∧ s.nv.keys.staged = [] ∧ ∀ n, s.nv.keys.commitAt = some n → n + 16000000000 ≤ s.time.duration

end Sys2Proof.Claims

/-- The KEY commands that change the store (R518 to R522): each stages one change, answered after KEY_STORE_COMMIT, which
applies all that is staged in one commit at least 10 s after the last began (R511). What a slot holds is wrapped under the wrap key of
the store, or under the slot's own of its parent's Tenant Root (R497). -/
def Obligations.KeyChangesAreStagedThenCommitted : Prop :=
  (StagesKey keyTenantRootCreateSpec .keyTenantRootCreate [.pair, .draws] (fun r s o => ∃ v, o = .root (r.fb 16 0 4) v ∧
      (tget none s.pair.rootKeys (r.fb 16 0 4) = none → v.length = 32)) (fun r => r.fb 16 0 4)
    fun r s y => y.kind = 1 ∧ y.owner = r.fb 16 0 4 ∧ y.wrapped = s.wrap s.nv.keys.wrapDigest (r.fb 16 0 4) y ∧ (tget none s.pair.rootKeys (r.fb 16 0 4) = none → y.value.length = 32)) ∧
  (StagesKey keyDomainKeyCreateSpec .keyDomainKeyCreate [] (fun r s o =>
      o = .domainKey (r.fb 16 0 6) ((s.domainTenant (r.fb 16 0 6)).getD 16)) (fun r => 32 + r.fb 16 0 6)
    fun r s y => y.kind = 2 ∧ s.domainTenant (r.fb 16 0 6) = some y.owner ∧ y.parent = y.owner ∧ y.parentGen = (s.keySlot y.owner).gen ∧
      y.value = deriveDomainKey (s.keySlot y.owner).value (r.fb 16 0 6) y.gen ∧
      y.wrapped = s.wrap s.nv.keys.wrapDigest (32 + r.fb 16 0 6) y) ∧
  (StagesKey keyImportSpec .keyImport [.ctr, .draws] (fun r s o => o = .import_ (r.b 0 2 % 4096) 5 (s.keyView.slotOwner (r.b 0 2 % 4096)) (slice r.pl 8 96))
    (fun r => r.b 0 2 % 4096) (fun r s y => y.kind = 5 ∧ y.owner = s.slotOwner (r.b 0 2 % 4096) ∧ y.value = slice r.pl 8 96 ∧
      y.wrapped = s.wrap s.nv.keys.wrapDigest (r.b 0 2 % 4096) y)
    fun r _ => r.bb 2 0 4 = 5 ∧ p384.pointReason (slice r.pl 8 96) = 0) ∧
  (∀ a s, accepted keyImportSpec a s = true → (keyImportSpec.req a s).bb 2 0 4 = 5 →
    p384.pointReason (slice (keyImportSpec.req a s).pl 8 96) ≠ 0 → Gives (.keyImport a) s fun t => Only [.host, .ctr, .draws] s t ∧
      Responded keyImportSpec a s t stBadParam 0x90 (leBytes 1 (p384.pointReason (slice (keyImportSpec.req a s).pl 8 96)))) ∧
  (∀ a s, accepted keyImportSpec a s = true → (keyImportSpec.req a s).bb 2 0 4 = 4 → Gives (.keyImport a) s fun t =>
    (Unanswered keyImportSpec a s t ∧ ∃ n v, t.nv.keys.staged = s.nv.keys.staged ++
        [{ op := .import_ n 4 (n - 16) v, reply := some (keyImportSpec.req a s) }]) ∨
      (∃ res, Responded keyImportSpec a s t stBadParam 0x90 res) ∨ Responded keyImportSpec a s t stIntegrity 0x90 [] ∨
      Responded keyImportSpec a s t stBadParam 0x91 []) ∧
  (StagesKey keyDestroySpec .keyDestroy [] (fun r _ o => o = .destroy (r.f 16 2 % 4096)) (fun r => r.f 16 2 % 4096)
    (fun _ _ y => y.kind = 0 ∧ y.value = [] ∧ y.unusable = false) fun r s => s.keyView.slotState (r.f 16 2 % 4096) ≠ 0) ∧
  (Does keyDestroySpec .keyDestroy stOk [] (fun _ _ _ res => res = []) fun r s => s.keyView.slotState (r.f 16 2 % 4096) = 0) ∧
  (StagesKey keySlotAssignSpec .keySlotAssign [] (fun r _ o => o = .assign (r.f 16 2 % 4096) (r.fb 18 0 5)) (fun r => r.f 16 2 % 4096)
    fun r s y => y = { s.keySlot (r.f 16 2 % 4096) with owner := r.fb 18 0 5, gen := y.gen }) ∧
  (∀ s, s.nv.keys.staged = [] ∨ (∃ n, s.nv.keys.commitAt = some n ∧ s.time.duration < n + 16000000000) →
    exec .keyStoreCommit s = .next s) ∧
  (∀ s n x, s.nv.keys.staged = [{ op := .assign n x, reply := none }] →
    (∀ m, s.nv.keys.commitAt = some m → m + 16000000000 ≤ s.time.duration) → Gives .keyStoreCommit s fun t =>
      t.keySlot n = { s.keySlot n with owner := x, gen := (s.keySlot n).gen + 1 } ∧ t.nv.keys.staged = [] ∧
        t.nv.keys.seq = s.nv.keys.seq + 1 ∧ t.nv.keys.commitAt = some s.time.duration ∧ ∀ k, k ≠ n → t.keySlot k = s.keySlot k)

/-- The KEY queries (R523 to R526) and KEY_CACHE_SHARES (R504, R525). -/
def Obligations.KeyQueriesAnswerAndChangeNothing : Prop :=
  (Reads keySlotStatusSpec .keySlotStatus fun r s res =>
    let n := r.f 16 2 % 4096
    res.length = 24 ∧ byteAt res 0 = s.slotState n ∧ byteAt res 1 = (s.keySlot n).kind % 256 ∧
      leAt res 8 4 = (s.keySlot n).gen % 2 ^ 32 ∧ leAt res 12 4 = (s.keySlot n).parentGen % 2 ^ 32) ∧
  (Does keyReadPublicSpec .keyReadPublic stOk [.ctr, .draws] (fun r s _ res =>
      let n := r.f 16 2 % 4096
      (96 ≤ n → res = fit 96 (s.keySlot n).value) ∧ (32 ≤ n → n < 96 → res.length = 64) ∧ (n < 16 → res.length = 32))
    fun r s => (s.keySlot (r.f 16 2 % 4096)).tagOk = true) ∧
  (Reads keyMapReadSpec .keyMapRead fun _ s res => res.length = 4352 ∧ res = s.ms.maps.bytes) ∧
  (Does keyCacheSharesSpec .keyCacheShares stOk [.mesh] fun r s t res => res = [] ∧
    t.mesh.cacheShares = (List.range 16).map (fun n => r.f (16 + 2 * n) 2) ∧ (∀ e ∈ t.mesh.cache, e ∈ s.mesh.cache) ∧
      ∀ n : Fin 16, (t.mesh.cache.filter fun e => e.2.2.2 == n.val).length ≤ r.f (16 + 2 * n.val) 2)

/-! ### PAIR commands -/

/-- The PAIR commands (R585 to R591): settings and status; PAIR_EQUINOX and PAIR_RESYNC, which M4 ACTIVE alone takes, are carried,
and act on each device at their release (R545, R589, R591). -/
def Obligations.PairCommandsTakeEffect : Prop :=
  (Stores pairConfigSpec .pairConfig [] fun r s t => t.cfg = { s.cfg with
    pair := { pairingEn := r.fl 16 0, equinoxEn := r.fl 16 1, unexplainedLimit := r.f 17 1, hours := r.f 18 2, anchor := r.f 20 6 } }) ∧
  (Reads pairGetStatusSpec .pairGetStatus fun _ s res => res.length = 24 ∧ leAt res 0 4 = s.pairStatus % 2 ^ 32 ∧
    leAt res 8 6 = s.nextEqx % 2 ^ 48 ∧ leAt res 18 2 = s.pair.unexplained.toNat ∧ leAt res 20 4 = s.pair.lastArbWord) ∧
  (Stores pairLaneTrimSpec .pairLaneTrim [] fun r s t =>
    let l0 := r.b 0 2 % 512
    let n := r.b 2 2 % 1024
    (∀ i, i < n → tget 0 t.cfg.own.trims (l0 + i) = r.bs (4 + i) 1) ∧
      (∀ k, k < l0 ∨ l0 + n ≤ k → tget 0 t.cfg.own.trims k = tget 0 s.cfg.own.trims k) ∧ t.cfg.own.trace = s.cfg.own.trace) ∧
  (Does pairClearSpec .pairClear stOk [.pair] fun _ s t res => res = [] ∧
    t.pair = { s.pair with unexplained := 0, alert := false }) ∧
  (∀ c : AciSpec, ∀ cmd : Aci → Instr, (c = pairEquinoxSpec ∧ cmd = .pairEquinox) ∨ (c = pairResyncSpec ∧ cmd = .pairResync) →
    ∀ a s, mayStart c a s = true → c.params (c.req a s) (taken a s) = none → s.ms.mode = .m4 → Gives (cmd a) s fun t =>
        Only [.host, .pair] s t ∧ ref c a s true ∈ (t.mbox a.fn.val).inflight ∧
          t.pair.carried = s.pair.carried ++ [{ req := c.req a s, epoch := s.epoch + 64, own := true }]) ∧
  (∀ c : AciSpec, ∀ cmd : Aci → Instr, (c = pairEquinoxSpec ∧ cmd = .pairEquinox) ∨ (c = pairResyncSpec ∧ cmd = .pairResync) →
    ∀ a s w, mayStart c a s = true → c.params (c.req a s) (taken a s) = none → c.check (c.req a s) (started c a s) = none →
      s.pair.carried = [] → s.pair.releases = [] → s.pair.finals = [] → s.pair.linkUp = true →
      s.epoch + 80 ≤ ({ s with time := w } : State).epoch → Gives (cmd a) s fun t =>
        -- the partner's CHECK comes, and the release epoch
        Gives (.pairCheck a.fn (BitVec.ofNat 12 a.tagWord.toNat) false 0 0) t fun v =>
          Gives .compareEpoch { v with time := w } fun u => Answered a v u stOk 0 [] ∧
            (c.op = 0x0A03 → (c.req a s).fb 16 0 2 = 0 → u.pair.skipNext = true) ∧
            (c.op = 0x0A03 → (c.req a s).fb 16 0 2 = 1 → u.pair.hold = true) ∧
            (c.op = 0x0A03 → (c.req a s).fb 16 0 2 = 2 → u.pair.hold = false) ∧
            (c.op = 0x0A06 → u.pair.peerPhase = 3 ∧ u.pair.peerSynced = false)) ∧
  (∀ (s : State) (x : Carried), x.mine = some (stOk, 0) → x.partner = some (stOk, 0) →
    (x.req.opcode = 0x0A03 → x.req.fb 16 0 2 = 0 → (s.applyCarried x).pair.skipNext = true ∧ (s.applyCarried x).ms = s.ms) ∧
    (x.req.opcode = 0x0A03 → x.req.fb 16 0 2 = 1 → (s.applyCarried x).pair.hold = true ∧
      (s.pair.swapped = false → (s.applyCarried x).pair.agreement = none)) ∧
    (x.req.opcode = 0x0A03 → x.req.fb 16 0 2 = 2 → (s.applyCarried x).pair.hold = false) ∧
    (x.req.opcode = 0x0A06 → s.follows = true → s.pair.phase ≠ 0 → (s.applyCarried x).ms.synced = false ∧
      (s.applyCarried x).pair.phase = 3) ∧
    (x.req.opcode = 0x0A06 → s.follows = false → (s.applyCarried x).pair.peerPhase = 3 ∧
      (s.applyCarried x).pair.peerSynced = false ∧ (s.applyCarried x).ms = s.ms))

/-! ### BIST, OBSERVE and UPDATE commands -/

/-- The BIST commands (R639 to R641) and the OBSERVE commands (R647 to R649, R654). -/
def Obligations.SelfTestAndObserveCommandsTakeEffect : Prop :=
  (Accepts bistRunSpec .bistRun [.ports, .pins, .bist, .ctr, .draws] fun r s t _ =>
    t.bist.running = s.bist.running ++
      [{ kind := r.f 16 1, slice := r.f 18 2, fn := r.fn, tag := r.tag, since := s.time.duration }] ∧
      (r.f 16 1 = 6 → tget false t.ports.laneReset (r.f 18 2) = true) ∧
      (r.f 16 1 = 1 → tget false t.ports.pipeReset (r.f 18 2) = true) ∧ (r.f 16 1 = 7 → (t.portSt (r.f 18 2)).inReset = true)) ∧
  (Reads bistStatusSpec .bistStatus fun r s res =>
    res.length = 72 ∧ leAt res 0 2 = sliceCount (r.f 16 1) ∧ leAt res 2 2 = (s.usableSlices (r.f 16 1)).length ∧
      ∀ i : Fin 512, bit (byteAt res (8 + i.val / 8)) (i.val % 8) = decide (i.val < sliceCount (r.f 16 1) ∧ (r.f 16 1, i.val) ∉ s.bist.unusable)) ∧
  (Stores bistConfigSpec .bistConfig [] fun r s t => t.cfg = { s.cfg with pipeTestMin := r.f 16 2 }) ∧
  (Begins observeSnapshotSpec .observeSnapshot [.snap, .ctr] fun r s t =>
    t.snap.waiting = s.snap.waiting ++ [r] ∧ t.snap.busy = true ∧ (s.snap.busy = false → t.snap.taken = t.ctr)) ∧
  (Completes observeSnapshotSpec .observeSnapshot (fun _ => .snapshotPublished) (fun _ s u res =>
      res = leBytes 4 (s.snap.seq + 1).toNat ∧ u.snap.seq = s.snap.seq + 1 ∧ u.snap.valid = true ∧ u.snap.busy = false ∧
        u.snap.waiting = [])
    fun _ s => s.snap.waiting = []) ∧
  (Reads observeCountersSpec .observeCounters fun r s res =>
    let per := perInstance (r.b 0 1)
    leAt res 0 4 = s.snap.seq.toNat ∧ leAt res 4 6 = s.snap.timeS % 2 ^ 48 ∧ leAt res 10 4 = s.snap.timeNs % 2 ^ 32 ∧
      ∀ i, i < r.b 8 2 * per → leAt res (16 + 8 * i) 8 =
        tget 0 s.snap.published (ctrSlotAt (r.b 0 1) (r.b 4 4 + i / per) (i % per)) % 2 ^ 64) ∧
  (Stores observeTraceConfigSpec .observeTraceConfig [.trace] fun r s t =>
    let x := t.cfg.own.trace
    x.enable = r.bl 0 0 ∧ x.fwEn = r.bl 0 1 ∧ x.modeEn = r.bl 0 2 ∧ x.slotEn = r.bl 0 3 ∧ x.fwLevel = r.bb 1 0 2 ∧
      x.dest = slice r.pl 2 6 ∧ x.rtcPeriodMs = r.b 8 2 ∧ x.samples.length = r.bb 10 0 7 ∧
      t.cfg.own.trims = s.cfg.own.trims ∧ t.trace.records = s.trace.records ∧ t.trace.seq = s.trace.seq)

/-- The UPDATE commands (R618 to R623): a session on a bank or a node image, its status, the install, and its end. -/
def Obligations.UpdateCommandsTakeEffect : Prop :=
  (Does updateOpenSpec .updateOpen stOk [.nv, .svc, .ctr, .draws] fun r s t res =>
    let bank := if r.bb 1 0 2 = 2 then !s.ms.bank else r.bb 1 0 2 == 1
    res.length = 48 ∧ ∃ x, t.svc.session = some x ∧ x.state = 1 ∧ x.node = r.bl 0 0 ∧ x.total = r.b 4 4 ∧ x.slot = r.bb 2 0 4 ∧
      x.bound = none ∧ x.bytes = 0 ∧ 1 ≤ x.number ∧ x.number < 2 ^ 32 ∧ leAt res 0 4 = x.number ∧
      (r.bl 0 0 = false → x.bank = bank ∧ (t.flash bank).rec_ = none ∧ t.bootRec bank = {} ∧ t.flash (!bank) = s.flash (!bank)) ∧
      (r.bl 0 0 = true → t.nv = s.nv ∧ t.svc.stage = some (r.bb 2 0 4, r.bb 3 0 5, []))) ∧
  (Reads updateStatusSpec .updateStatus fun _ s res => res.length = 16 ∧ byteAt res 1 = s.svc.lastEnd % 256 ∧
    (s.svc.session = none → byteAt res 0 = 0) ∧ ∀ x, s.svc.session = some x → byteAt res 0 % 8 = x.state % 8 ∧
      leAt res 4 4 = x.bytes % 2 ^ 32 ∧ leAt res 8 4 = x.total % 2 ^ 32 ∧ leAt res 12 4 = x.number % 2 ^ 32) ∧
  (Accepts updateInstallSpec .updateInstall [.svc] (fun r s t _ => ∃ x, s.svc.session = some x ∧
      t.svc.session = some { x with state := 4, install := some (r.fn, r.tag, r.fl 16 0) })
    fun _ s => s.imageReceived = false ∧ s.noImage = false) ∧
  (Begins updateInstallSpec .updateInstall [.svc] (fun r s t => ∃ x, s.svc.session = some x ∧
      t.svc.session = some { x with state := 4, install := some (r.fn, r.tag, r.fl 16 0) })
    fun _ s => s.imageReceived = false ∧ s.noImage = true) ∧
  (Completes updateInstallSpec .updateInstall (fun _ => .installDone) (fun _ s u res => res = [] ∧ u.svc.session = none ∧
      u.svc.lastEnd = 1 ∧ ∀ x, s.svc.session = some x → ((u.flash x.bank).rec_.isSome = true ∨ 0xFFFFFFFE ≤ s.topSeq))
    fun r s => s.imageReceived = false ∧ s.noImage = true ∧ ∃ x set, s.svc.session = some x ∧ s.installCheck x (r.fl 16 0) = .inr set) ∧
  (Does updateInstallSpec .updateInstall stOk [.mesh, .pair, .svc, .ctr, .draws] (fun _ s t res => res = [] ∧ t.svc.session = none ∧
      t.svc.lastEnd = 1 ∧ ∀ slot owner b, s.svc.stage = some (slot, owner, b) →
        tget none t.mesh.nodeImages slot = some { owner := owner, data := b })
    fun _ s => s.imageReceived = true) ∧
  (Does updateAbortSpec .updateAbort stOk [.pair, .svc, .ctr, .draws] fun _ s t res => res = [] ∧ t.svc.session = none ∧
    t.svc.stage = (if s.svc.session.isSome then none else s.svc.stage) ∧ (s.svc.session.isSome = true → t.svc.lastEnd = 2) ∧
      (s.svc.session = none → t.svc = s.svc)) ∧
  (Reads updateBankInfoSpec .updateBankInfo fun r s res =>
    let f := s.flash (r.fl 16 0)
    let b := s.bootRec (r.fl 16 0)
    res.length = 20 ∧ bit (byteAt res 0) 0 = f.rec_.isSome ∧ bit (byteAt res 0) 2 = b.lkg ∧ bit (byteAt res 0) 3 = b.failed ∧
      byteAt res 0 / 16 % 8 = b.tried % 8 ∧ leAt res 4 4 = (match f.rec_ with | some c => c.seq | none => 0) % 2 ^ 32) ∧
  (Does updateNodeImageDropSpec .updateNodeImageDrop stOk [.mesh] fun r s t res => res = [] ∧
    t.mesh = { s.mesh with nodeImages := tset none s.mesh.nodeImages (r.fb 16 0 4) none })

namespace Sys2Proof.Claims

open Machine

/-! ### Words of the statements about resets -/

/-- In `t` the device is in M0 DORMANT: outputs low, staged commits abandoned, what MRAM, flash, fuses and the RTC hold as in `s`,
and forwarding, radio, mesh and counters as after reset (R39, R46). -/
def Dormant (s t : State) : Prop :=
  t.ms.mode = .m0 ∧ t.ms.armed = true ∧ t.nv = s.nv.abandon ∧ t.time.rtc.count = s.time.rtc.count ∧ t.fwd = State.reset.fwd ∧
    t.qos = State.reset.qos ∧ t.radio = State.reset.radio ∧ t.mesh = State.reset.mesh ∧ t.ctr = [] ∧ t.host.mbox = [] ∧
    t.pins.bypassHold = [] ∧ t.pins.activeOut = false ∧ t.pins.aliveOut = false ∧ t.pending = s.pending

/-- In `t` the device was started again and runs its chain, or has no image to run (R42, R46, R55): fuses, flash banks and the
RTC's count are as in `s`, forwarding, buffers and mesh as after reset. -/
def Restarted (s t : State) : Prop :=
  (t.ms.mode = .m1 ∨ t.ms.mode = .m7 ∧ t.ms.safeCause = 3) ∧ t.nv.fuses = s.nv.fuses ∧ t.nv.flashA = s.nv.flashA ∧
    t.nv.flashB = s.nv.flashB ∧ t.time.rtc.count = s.time.rtc.count ∧ t.fwd = State.reset.fwd ∧ t.qos = State.reset.qos ∧
    t.mesh = State.reset.mesh ∧ t.procs.loaded = false ∧ t.pending = s.pending

end Sys2Proof.Claims

/-! ### Injected and punted frames -/

/-- Inject and punt rings (R99 to R102, R555): the frame at INJ_HEAD is judged and its status written; accepted, it is carried in
M4 ACTIVE, and in M3 SOLO goes to its queue. A punted frame of one cell takes one buffer; without a buffer a frame is dropped,
at its start or in its middle. -/
def Obligations.InjectedAndPuntedFrames : Prop :=
  (∀ (s : State) (f : Fin 17) (n : Fin 64) (read : List Bytes) (given : Bytes),
    let x := s.injRing f.val n.val
    let descs := injDescs read
    let frame := fit (sumNat (descs.map injLen)) given
    let code := s.injStatus f.val descs frame
    let d := descs.headD []
    let q := bits (leAt d 12 2) 0 15
    let y : Injected := { fn := f.val, lookup := injFlag d 2, queue := q, frame := frame,
                          launch := if injFlag d 3 then some (leAt d 16 6 * 1000000000 + leAt d 22 4) else none }
    x.enable = true → s.busMaster f.val = true → descs ≠ [] → descs.length ≤ (x.tail - x.head).toNat →
    injFlag (descs.getLastD []) 1 = true → s.ms.mode = .m3 ∨ s.ms.mode = .m4 →
    Gives (.injectFrameRead f n read given) s fun t => Only [.host, .fwd, .qos, .pair, .ctr, .draws] s t ∧
      (code ≠ 0 ∨ s.ms.mode = .m4 →
        (let z := t.injRing f.val n.val
         z.head = x.head + BitVec.ofNat 16 descs.length ∧ z.tail = x.tail ∧
          z.statuses = (x.head.toNat % 2 ^ x.log2, code) :: x.statuses ∧ z.injError = (if code = 0 then x.injError else x.injError + 1))) ∧
      (code ≠ 0 → Only [.host] s t) ∧
      (code = 0 → s.ms.mode = .m4 → Only [.host, .pair] s t ∧
        t.pair.releases = insertRelease s.pair.releases (s.epoch + 64) (.inject y)) ∧
      (code = 0 → s.ms.mode = .m3 → injFlag d 2 = false → s.isRadio (q / 128) = false → (s.queue q).launchEn = false →
        (let b := if frame.length < 60 then fit 60 frame else frame
         let cells := cellsOf (b.length + 4)
         s.fits q cells 0 = true → s.noCell cells = false →
          (t.queue q).items = (s.queue q).items ++ [{ id := s.qos.nextId, bytes := b, cells := cells }]))) ∧
  (∀ (s : State) (f : Fin 17) (n : Fin 64) (p : PuntFrame) (rest : List PuntFrame),
    let x := s.puntRing f.val n.val
    x.configured = true → s.busMaster f.val = true → x.frames = p :: rest → x.dropping = false →
    Gives (.puntCellArrival f n) s fun t => Only [.host] s t ∧
      (let y := t.puntRing f.val n.val
       (p.arrived = 0 → p.bytes.length ≤ 256 → x.bufs = [] → x.freeBufs ≠ 0 →
        y.head = x.head + 1 ∧ y.frames = rest ∧ y.nobufDrop = x.nobufDrop ∧ y.truncDrop = x.truncDrop ∧
        y.written = { slot := x.head.toNat % 2 ^ x.log2, phase := x.head.toNat / 2 ^ x.log2 % 2 == 0, length := p.bytes.length,
                      sof := true, eof := true, discard := false, reason := p.reason, source := p.source,
                      frameLen := p.bytes.length, stamp := p.stamp, rule := p.rule, data := p.bytes } :: x.written) ∧
       (p.arrived = 0 → x.freeBufs = 0 → y.nobufDrop = x.nobufDrop + 1 ∧ y.written = x.written ∧ y.head = x.head ∧
        (256 < p.bytes.length → y.dropping = true)) ∧
       (p.arrived ≠ 0 → p.arrived % x.bufSize = 0 → x.freeBufs = 0 → y.truncDrop = x.truncDrop + 1 ∧
        y.head = x.head + BitVec.ofNat 16 x.bufs.length ∧ y.written.length = x.written.length + x.bufs.length)))

/-! ### Resets and the start -/

/-- The resets (R42, R49, R63, R65, R666): RESET_N and a rail out of range put the device into M0; PFW_N drops the holds and
ACTIVE_OUT and abandons what the key store staged, and the end of the drain puts it into M0. -/
def Obligations.ResetsEnterDormant : Prop :=
  ∀ s : State,
    (Gives .resetNLow s fun t => Dormant s t ∧ t.ms.resetCause = s.ms.resetCause ||| 2) ∧
    (∀ rails : BitVec 10, rails ≠ 0 → Gives (.railOutOfRange rails) s fun t => Dormant s t ∧
      t.power.railFault = s.power.railFault ||| rails ∧ t.ms.resetCause = s.ms.resetCause) ∧
    exec (.railOutOfRange 0) s = .next s ∧
    (s.ms.mode ≠ .m0 → s.ms.inTransition = false → Gives .powerFailWarning s fun t => Only [.ms, .nv, .pins] s t ∧
      t.ms = { s.ms with inTransition := true, resetCause := s.ms.resetCause ||| 4 } ∧ t.pins.activeOut = false ∧
      t.pins.bypassHold = [] ∧ t.nv = { s.nv with keys := { s.nv.keys with staged := [], commitAt := none } }) ∧
    (s.ms.inTransition = true → Gives .powerFailDrainDone s fun t => Dormant s t) ∧
    (s.ms.inTransition = false → exec .powerFailDrainDone s = .next s) ∧
    (s.ms.inTransition = true → exec .powerFailWarning s = .next s ∧
      (∀ c ∈ [Instr.bootComplete, .pairingWaitExpiry, .migrationDone, .activeInRise, .activeInFall, .takeoverWaitExpiry, .partnerAliveLost,
        .backoffExpiry, .equinoxEnter, .equinoxComplete, .coreDieFault false 0, .coreDieFault true 0], Gives c s fun t =>
          t.ms.mode = s.ms.mode ∧ t.ms.inTransition = true ∧ (s.pins.activeOut = false → t.pins.activeOut = false)) ∧
      (s.ms.mode ≠ .m0 → Gives .bscFault s fun t => t.ms.inTransition = true ∧ ∀ k, tget false t.pins.bypassHold k = false))

/-- The start (R42, R51, R53, R55, R488): from M0 or at M1's own beginning the chain samples the straps, selects a bank, and writes and
locks the two maps of the worlds, or ends in M7 SAFE with NO_IMAGE. -/
def Obligations.StartSelectsABank : Prop :=
  ∀ (s : State) (b : BootInput),
    (s.ms.mode = .m0 → s.ms.armed = true → Gives (.bootStart b) s fun t => t.pins.pairId = b.pairId ∧ t.power.railInRange = 0x3FF ∧
      (t.ms.mode = .m1 ∧ (t.ms.bootStep = if b.refclkRc then 1 else 0) ∨ t.ms.mode = .m7 ∧ t.ms.safeCause = 3)) ∧
    (s.ms.mode = .m0 → s.ms.armed = false → exec (.bootStart b) s = .next s) ∧
    (s.ms.mode = .m1 → s.ms.bootStep ≠ 0 → exec (.bootStart b) s = .next s) ∧
    (s.ms.mode = .m1 → s.ms.bootStep = 0 → b.refclkRc = true → Gives (.bootStart b) s fun t =>
      t.pins.pairId = b.pairId ∧ t.ms.unclean = !s.nv.cleanMark ∧ t.nv.cleanMark = false ∧
      (∀ x, (s.bootRec s.committed).failed = false → (s.bootRec s.committed).tried < 3 ∨ (s.bootRec s.committed).lkg = true →
        s.checkBank s.committed = .inr x → t.ms.mode = .m1 ∧ t.ms.bootStep = 1 ∧ t.ms.bank = s.committed ∧ t.ms.running = some x ∧
          t.fallback = false ∧ t.ms.maps.locked = true ∧ t.ms.maps.blocks = (List.range 27).map blockWorld ∧ t.ms.maps.regions.length = 256 ∧
          (t.bootRec s.committed).tried = (s.bootRec s.committed).tried + 1) ∧
      (s.ms.inTransition = false → (∀ bank, ∃ e, s.checkBank bank = .inl e) → t.ms.mode = .m7 ∧ t.ms.safeCause = 3))

/-- The steps of the start after the bank is selected (R42, R51, R454, R457, R630, R631). -/
def Obligations.StartStepsFollowInOrder : Prop :=
  ∀ s : State, s.ms.mode = .m1 →
    (∀ l : List (Nat × Nat), s.ms.bootStep = 1 →
      let u := s.failedSlices l
      ((s.applySlices u).noCrypto = true → Gives (.bootSelfTestDone l) s fun t => Restarted s t) ∧
      ((s.applySlices u).noCrypto = false → Gives (.bootSelfTestDone l) s fun t =>
        Only [.ms, .ports, .qos, .radio, .pins, .bist] s t ∧ t.ms.mode = .m1 ∧ t.ms.bootStep = 2 ∧ t.bist.unusable = u ∧
          t.bist.spared = sparing u ∧ ((13, 0) ∈ u → t.ms.bootSafe = 2) ∧ (u = [] → t.ms.bootSafe = s.ms.bootSafe))) ∧
    (s.ms.bootStep = 2 → Gives .processorsLoaded s fun t => t.procs.loaded = true ∧ t.ms.mode = .m1 ∧ t.ms.bootStep = 3 ∧
      t.ms.noted = [] ∧ t.pins.aliveOut = true ∧
      (∀ b, s.nv.blob = some b → s.ms.blobCause = 0 → t.cfg = s.effective b) ∧
      (s.ms.unclean = true → ∀ d : Fin 64, t.lease d.val = { epoch := ((s.lease d.val).epoch + 1) % 2 ^ 32, leaseEnd := 65536 }) ∧
      (s.ms.unclean = false → t.nv.resume = [] ∧ t.nv.leases = s.nv.leases)) ∧
    (s.ms.bootStep = 3 → s.ms.inTransition = false → Gives .bootComplete s fun t =>
      (s.safeBoot ≠ 0 → t.ms.mode = .m7 ∧ t.ms.safeCause = s.safeBoot) ∧
      (s.safeBoot = 0 → s.ms.migrating = true → t.ms.mode = .m2) ∧
      (s.safeBoot = 0 → s.ms.migrating = false →
        (s.cfg.pair.pairingEn = false → t.ms.mode = .m3) ∧
        (s.cfg.pair.pairingEn = true → s.pins.activeIn = true → t.ms.mode = .m5) ∧
        (s.cfg.pair.pairingEn = true → s.pins.activeIn = false → s.pins.pairId = false → t.ms.mode = .m3) ∧
        (s.cfg.pair.pairingEn = true → s.pins.activeIn = false → s.pins.pairId = true →
          t = { s with ms := { s.ms with bootStep := 4 } }))) ∧
    (s.ms.bootStep = 4 → s.ms.inTransition = false → s.pins.activeIn = false → Gives .pairingWaitExpiry s fun t => t.ms.mode = .m3) ∧
    (s.ms.bootStep ≠ 4 ∨ s.pins.activeIn = true → exec .pairingWaitExpiry s = .next s)

/-- Migration and the last known good mark (R53, R56, R57, R602). -/
def Obligations.MigrationAndLastKnownGood : Prop :=
  ∀ s : State,
    (s.ms.mode = .m2 → s.ms.bootStep = 3 →
      (∀ b, s.nv.blob = some b → Gives .migrationDone s fun t =>
        (∃ new, t.nv.blob = some new ∧ new.version = s.ms.setVersion ∧ new.ok = true ∧ ∀ x ∈ s.blobs, x.seq < new.seq) ∧
          t.nv.oldBlob = some { b with cfg := s.effective b } ∧ t.nv.journal = none ∧ t.ms.migrating = false ∧
          t.ms.blobVersion = s.ms.setVersion ∧ (s.pins.activeIn = true → s.ms.inTransition = false → (t.cfg.pair.pairingEn = true ↔ t.ms.mode = .m5))) ∧
      ∀ c : Instr, c = .migrationStepError ∨ c = .migrationTimeout → Gives c s fun t => Restarted s t ∧
        (t.bootRec s.ms.bank).failed = true ∧ t.ms.resetCause.getLsbD 5 = true) ∧
    (s.ms.mode ≠ .m2 → exec .migrationDone s = .next s ∧ exec .migrationStepError s = .next s ∧ exec .migrationTimeout s = .next s) ∧
    (∀ x, s.ms.running = some x → s.ms.mode = .m3 ∨ s.ms.mode = .m4 ∨ s.ms.mode = .m5 ∨ s.ms.mode = .m6 →
      Gives .lkgReached s fun t => Only [.ms, .nv] s t ∧ t.ms = { s.ms with lkg := true } ∧
        t.bootRec s.ms.bank = { s.bootRec s.ms.bank with tried := 0, lkg := true } ∧
        t.bootRec (!s.ms.bank) = { s.bootRec (!s.ms.bank) with lkg := false } ∧ t.nv.oldBlob = none ∧
        ((s.bootRec s.ms.bank).lkg = true → t.nv.fuses = s.nv.fuses) ∧
        ((s.bootRec s.ms.bank).lkg = false → ∀ k : Fin 4, x.signKey < 4 → x.revoke < 16 → t.nv.fuses.revoked.getLsbD k.val =
          (s.nv.fuses.revoked.getLsbD k.val || (bit x.revoke k.val && decide (k.val ≠ x.signKey)))))

/-! ### Faults -/

/-- Faults of processors and accesses across the world boundary (R21 to R24, R42, R489 to R491): the BSC, and in a pair the PRC, restart
the device; another processor is reloaded, and an MGC then has nothing in flight left. An access that the region map refuses is
counted, and its processor fails; the map refuses all but master 0 in a secure region, and a master that the mask of the access lacks. -/
def Obligations.ProcessorFaultsReloadOrRestart : Prop :=
  ∀ s : State, s.ms.mode ≠ .m0 →
    (Gives .bscFault s fun t => Restarted s t ∧ t.ms.resetCause.getLsbD 4 = true) ∧
    (Gives (.processorFault 0) s fun t => Restarted s t ∧ t.ms.resetCause.getLsbD 4 = true) ∧
    (s.procs.loaded = true → s.ms.mode = .m4 ∨ s.ms.mode = .m5 ∨ s.ms.mode = .m6 →
      Gives (.processorFault 8) s fun t => Restarted s t ∧ t.ms.resetCause.getLsbD 4 = true) ∧
    (∀ p : Fin 9, p.val ≠ 0 → s.procs.loaded = false → exec (.processorFault p) s = .next s) ∧
    (∀ p : Fin 9, p.val ≠ 0 → s.procs.loaded = true → p.val ∉ s.procs.reloading →
      p.val ≠ 8 ∨ s.ms.mode ≠ .m4 ∧ s.ms.mode ≠ .m5 ∧ s.ms.mode ≠ .m6 →
      exec (.processorFault p) s = .next { s with procs := { s.procs with reloading := s.procs.reloading ++ [p.val] } }) ∧
    (∀ p : Fin 9, p.val ∉ s.procs.reloading → exec (.processorReloadDone p) s = .next s) ∧
    (∀ p : Fin 9, p.val ∈ s.procs.reloading → Gives (.processorReloadDone p) s fun t => p.val ∉ t.procs.reloading ∧
      ((p.val = 1 ∨ p.val = 2) → ∀ f : Fin 17, mgcOf f.val = p.val → (t.mbox f.val).inflight = [] ∧ (t.mbox f.val).accepted = [])) ∧
    (∀ (region : Fin 256) (m : Nat) (w : Bool) (addr : BitVec 64), m < 16 →
      let refused := s.ms.maps.refuses region.val m w addr.toNat
      (refused = false → exec (.worldViolation region m w addr) s = .next s) ∧
      (refused = true → m = 0 → Gives (.worldViolation region m w addr) s fun t => Restarted s t ∧ t.ms.resetCause.getLsbD 4 = true) ∧
      (refused = true → 1 ≤ m → m < 8 → s.procs.loaded = true → m ∉ s.procs.reloading →
        Gives (.worldViolation region m w addr) s fun t => Only [.host, .ctr, .procs] s t ∧
          t.procs = { s.procs with reloading := s.procs.reloading ++ [m] } ∧
          t.counter (.worldViolations m) = (s.counter (.worldViolations m) + 1) % 2 ^ 32) ∧
      (refused = true → 9 ≤ m → Gives (.worldViolation region m w addr) s fun t => Only [.host, .ctr] s t ∧
        t.counter (.worldViolations m) = (s.counter (.worldViolations m) + 1) % 2 ^ 32)) ∧
    ∀ (r : Region) (k : Nat) (addr m : Nat) (w : Bool), s.ms.maps.governs addr = some (k, r) →
      (r.area.isSome = true → m ≠ 0 → s.ms.maps.refuses k m w addr = true) ∧
      ((if w then r.writeMask else r.readMask).testBit m = false → s.ms.maps.refuses k m w addr = true) ∧
      (r.area = none → (if w then r.writeMask else r.readMask).testBit m = true → s.ms.maps.refuses k m w addr = false)

/-- Faults of the data levels and of the core die (R29, R30, R41, R42, R180): the object goes into block reset and its links
down; its reset ends in service or out of it; a core die fault abandons the resets and enters M7 SAFE. -/
def Obligations.DataLevelFaultsResetTheirBlock : Prop :=
  (∀ (s : State) (l : Fin 4) (n : Nat) (cause : Fin 7),
    (s.ms.mode = .m0 ∨ s.coreFailed = true ∨ levelCount l.val ≤ n ∨ s.levelBusy l.val n = true → exec (.dataLevelFault l n cause) s = .next s) ∧
    (s.ms.mode ≠ .m0 → s.coreFailed = false → n < levelCount l.val → s.levelBusy l.val n = false → Gives (.dataLevelFault l n cause) s fun t =>
      t.inBlockReset l.val n = true ∧ (l.val = 2 → (t.portSt n).linkUp = false) ∧
        (l.val = 1 → ∀ p ∈ s.portsOnLane n, (t.portSt p).linkUp = false) ∧
        (l.val = 3 → (∀ i : Fin 32, (t.portSt (32 * n + i.val)).linkUp = false) ∧ ∀ e ∈ t.fwd.macs, learnedIn n e = false))) ∧
  (∀ (s : State) (l : Fin 4) (n : Nat) (ok : Bool),
    (s.inBlockReset l.val n = false → exec (.blockResetDone l n ok) s = .next s) ∧
    (s.inBlockReset l.val n = true → Gives (.blockResetDone l n ok) s fun t => t.inBlockReset l.val n = false ∧
      (l.val = 1 → tget false t.ports.laneOut n = !ok) ∧ (l.val = 2 → (t.portSt n).outOfService = !ok) ∧
      (l.val = 3 → tget false t.ports.pipeOut n = !ok))) ∧
  ∀ (s : State) (reservoir : Bool) (cause : Fin 7),
    let c := if reservoir then 7 else 2
    (s.ms.mode = .m0 ∨ s.ms.mode = .m7 ∧ reservoir = true → exec (.coreDieFault reservoir cause) s = .next s) ∧
    (s.ms.mode = .m7 → reservoir = false → exec (.coreDieFault reservoir cause) s = .next (s.abandonResets.levelFault 4 4 0 cause.val)) ∧
    (s.ms.mode ≠ .m0 → reservoir = false → Gives (.coreDieFault reservoir cause) s fun t => ∀ l n, t.inBlockReset l n = false) ∧
    (s.ms.mode = .m1 → s.ms.bootStep ≠ 4 → Gives (.coreDieFault reservoir cause) s fun t => Only [.ms, .host, .ports] s t ∧
      (reservoir = true → t.ports = s.ports) ∧
      t.ms = { s.ms with bootSafe := if s.ms.bootSafe = 2 then 2 else c,
                         dieFaults := s.ms.dieFaults ++ (if s.procs.loaded || reservoir then [] else [cause.val]) }) ∧
    (s.ms.mode = .m1 → s.ms.bootStep = 4 → s.ms.inTransition = false → Gives (.coreDieFault reservoir cause) s fun t =>
      t.ms.mode = .m7 ∧ t.ms.safeCause = (if s.ms.bootSafe = 2 then 2 else c) ∧ t.pins.activeOut = false) ∧
    (s.ms.mode ≠ .m0 → s.ms.mode ≠ .m1 → s.ms.mode ≠ .m7 → s.ms.inTransition = false →
      Gives (.coreDieFault reservoir cause) s fun t => t.ms.mode = .m7 ∧ t.ms.safeCause = c ∧ t.pins.activeOut = false)

/-! ### Forwarding -/

/-- The first cell of a frame (R159, R176, R194, R198 to R201, R256, R273): discarded where the port does not forward; else held
under its number, with PAUSE counted, foreign frames of a radio port counted, and the VLAN checked. A frame for a station of the
pipe's MAC table, with no rule and no mirror, takes its class's queue at that station's port. -/
def Obligations.ReceivedFramesAreLookedUp : Prop :=
  ∀ (s : State) (p : Fin 256) (frame : RxFrame),
    (s.inService = false ∨ (s.portSt p.val).linkUp = false ∨ s.portUsable p.val = false →
      exec (.frameRx p frame) s = .next s) ∧
    (s.inService = true → (s.portSt p.val).linkUp = true → s.portUsable p.val = true →
      let b := frame.bytes.take 256
      let x := parseFrame b
      let pipe := p.val / 32
      let l2 : PortL2 := tget {} s.fwd.portL2 p.val
      let plain := !x.tagged || x.vid == 0
      let vlan := if plain then l2.pvid else x.vid
      let held (t : State) (queues : List Nat) : Prop := ∃ h : RxHand,
        tget none t.qos.rx (rxKey p.val frame.preemptable) = some h ∧ h.id = s.qos.nextId ∧ h.bytes = b ∧ h.queues = queues ∧
          h.stamp = s.rxStamp p.val frame.stamp ∧ h.top = (s.portCfg p.val).maxFrame
      (Gives (.frameRx p frame) s fun t => Only [.host, .fwd, .qos, .pair, .ctr, .draws] s t ∧ s.qos.nextId < t.qos.nextId ∧
        ∃ l, held t l) ∧
      (x.etype = 0x8808 → Gives (.frameRx p frame) s fun t => Only [.qos, .ctr] s t ∧ held t [] ∧
        t.counter (.port p.val .rxPause) = (s.counter (.port p.val .rxPause) + 1) % 2 ^ 32) ∧
      (x.etype ≠ 0x8808 → s.isRadio p.val = true → isSiteRoe b = false → Gives (.frameRx p frame) s fun t =>
        Only [.qos, .ctr] s t ∧ held t [] ∧
          t.counter (.port p.val .rxRadioForeign) = (s.counter (.port p.val .rxRadioForeign) + 1) % 2 ^ 32) ∧
      (x.etype ≠ 0x8808 → s.isRadio p.val = false →
        (plain = true ∧ l2.untagged = false ∨ plain = false ∧ l2.tagged = false ∨ tget none s.fwd.tables.vlans vlan = none) →
        Gives (.frameRx p frame) s fun t => Only [.qos, .ctr] s t ∧ held t [] ∧
          t.counter (.pipe pipe .vlanDrop) = (s.counter (.pipe pipe .vlanDrop) + 1) % 2 ^ 32) ∧
      (x.etype ≠ 0x8808 → s.isRadio p.val = false → (if plain then l2.untagged else l2.tagged) = true →
        ∀ (v : Vlan) (e : MacEntry), tget none s.fwd.tables.vlans vlan = some v → bit v.members p.val = true →
        s.fwd.tables.intfAt p.val vlan = none → s.fwd.tables.rules = [] → s.fwd.tables.mirrors = [] →
        isGroup x.dst = false → s.macLookup pipe x.dst vlan = some e → e.drop = false → e.port ≠ p.val →
        s.isRadio e.port = false → s.cutNow (256 * p.val + e.port) = false →
        let q := 128 * e.port + (8 + 7 * v.tenant + (tget {} s.qos.maps v.tenant : ClassMap).pick x false)
        let len := if frame.ends then b.length else (s.portCfg p.val).maxFrame
        (s.queue q).launchEn = false → q / 128 = e.port → s.fits q (cellsOf len) 0 = true →
        s.noCell (cellsOf len) = false →
        let out := bridgeTags b x vlan (bit v.untagged e.port)
        let top := (s.portCfg p.val).maxFrame
        let whole := if frame.ends then b.length else frame.len
        let j : QItem := { id := s.qos.nextId, bytes := out, cells := cellsOf len, complete := false, maxLen := top,
                           total := if top < whole then top else whole + out.length - b.length, tc := some (p.val, s.rxStamp p.val frame.stamp) }
        Gives (.frameRx p frame) s fun t => held t [q] ∧ (t.queue q).items = (s.queue q).items ++ [j]))

/-- A frame's end (R162, R165, R190, R251): octets counted, the frame judged by its size, its FCS and the MAC merge; a good
stored frame becomes complete on its queue, a bad one leaves it. -/
def Obligations.FrameEndJudgesTheFrame : Prop :=
  ∀ (s : State) (p : Fin 256) (fin : RxEnd),
    let key := rxKey p.val fin.preemptable
    (tget none s.qos.rx key = none ∨ s.inService = false → exec (.rxFrameEnd p fin) s = .next s) ∧
    ∀ h : RxHand, s.inService = true → tget none s.qos.rx key = some h →
      let len := h.bytes.length + fin.rest.length
      let top := h.top
      let good := fin.fcsOk = true ∧ fin.assemblyErr = false ∧ (fin.fecUncorrected = 0 ∨ modeFec (s.portCfg p.val).mode = false)
      let merged := fin.preemptable = true ∧ (fin.assemblyErr = true ∨ fin.frags ≠ 0)
      Gives (.rxFrameEnd p fin) s fun t =>
        tget none t.qos.rx key = none ∧
        t.counter (.port p.val .rxOctets) = (s.counter (.port p.val .rxOctets) + len) % 2 ^ 64 ∧
        (64 ≤ len → len ≤ top → good → t.counter (.port p.val .rxFramesOk) = (s.counter (.port p.val .rxFramesOk) + 1) % 2 ^ 64) ∧
        (64 ≤ len → len ≤ top → ¬good → t.counter (.port p.val .rxFcsErr) = (s.counter (.port p.val .rxFcsErr) + 1) % 2 ^ 32) ∧
        (64 ≤ len → top < len → t.counter (.port p.val .rxOversize) = (s.counter (.port p.val .rxOversize) + 1) % 2 ^ 32) ∧
        (len < 64 → good → t.counter (.port p.val .rxRunt) = (s.counter (.port p.val .rxRunt) + 1) % 2 ^ 32) ∧
        (len < 64 → ¬good → merged → t.counter (.port p.val .rxFragment) = s.counter (.port p.val .rxFragment)) ∧
        (len < 64 → ¬good → ¬merged → t.counter (.port p.val .rxFragment) = (s.counter (.port p.val .rxFragment) + 1) % 2 ^ 32) ∧
        (∀ q i, h.queues = [q] → h.punts = [] → h.borders = [] → (s.queue q).items = [i] → i.id = h.id → i.complete = false →
          (s.sched (q / 128)).sending = none → (s.sched (q / 128)).preempted = none →
          (let n := if i.truncate = 0 then len else min len i.truncate
           let j : QItem := { i with bytes := completeBytes i.bytes fin.rest i.truncate, complete := true, cutThrough := false,
                                     cells := cellsOf n }
           64 ≤ len → len ≤ top → good → (t.queue q).items = [j]) ∧
          ((len < 64 ∨ top < len ∨ ¬good) → (t.queue q).items = []))

/-- Maintenance slots and the cycle plan (R195, R209, R258, R265): a slot serves the oldest learn requests and counts its plan; a
plan gives each shaper and policer its rate, within its burst. -/
def Obligations.MaintenanceAndCyclePlan : Prop :=
  (∀ (s : State) (pipe : Fin 8),
    (s.inService = false → exec (.maintenanceSlot pipe) s = .next s) ∧
    (s.inService = true → Gives (.maintenanceSlot pipe) s fun t => Only [.host, .fwd, .pair, .ctr] s t ∧
      tget 0 t.fwd.planNo pipe.val = (tget 0 s.fwd.planNo pipe.val + 1) % 64 ∧ t.fwd.tables = s.fwd.tables ∧
      (∃ n, n ≤ 6 ∧ t.learnQ pipe.val = (s.learnQ pipe.val).drop n ∧
        (tget 0 s.fwd.owed pipe.val = 0 → s.learnQ pipe.val ≠ [] → 1 ≤ n)) ∧
      (∀ r, tget 0 s.fwd.owed pipe.val = 0 → s.fwd.pendingGens = [] → tget 0 s.fwd.planNo pipe.val ≠ 0 → s.learnQ pipe.val = [r] → tget [] s.fwd.refresh pipe.val = [] →
        s.fwd.macs = [] → (∀ n, tget none s.fwd.tables.vlans n = none) →
        (let e : MacEntry := { mac := r.mac, vlan := r.vlan, port := r.port, static := false, drop := false, age := s.ageNow }
         t.macLookup pipe.val r.mac r.vlan = some e)))) ∧
  ∀ s : State,
    (s.ms.mode = .m0 → exec .cyclePlanStart s = .next s) ∧
    (s.ms.mode ≠ .m0 → Gives .cyclePlanStart s fun t => Only [.qos] s t ∧
      (∀ level index, let x := s.shaper level index
        t.shaper level index = if x.enable then { x with credit := min (x.credit + (x.rate : Int)) ((x.burst * 100000 : Nat) : Int) } else x) ∧
      (∀ n, t.policer n = (s.policer n).gain) ∧ t.qos.queues = s.qos.queues ∧ t.qos.stored = s.qos.stored)

/-- Egress (R161, R163, R190, R248, R261, R263): an idle port sends the head of its highest eligible express queue; with its link
down, or an uncorrectable cell before its egress began, the frame leaves its queue unsent and is counted. -/
def Obligations.EgressSendsTheHighestExpress : Prop :=
  ∀ (s : State) (p : Fin 256),
    (∀ busy ecc, s.inService = false ∨ s.portUsable p.val = false → exec (.egressSelect p busy ecc) s = .next s) ∧
    ∀ (k : Fin 8) (i : QItem), s.inService = true → s.portUsable p.val = true → (s.sched p.val).sending = none →
      (∀ q, (s.queue q).launchEn = false) → s.eligible (128 * p.val + k.val) = some i →
      (∀ j : Fin 8, k < j → s.eligible (128 * p.val + j.val) = none) → i.complete = true → i.bytes.length + 4 ≤ (s.portCfg p.val).maxFrame →
      let q := 128 * p.val + k.val
      ((s.portSt p.val).linkUp = true → Gives (.egressSelect p false none) s fun t =>
        Only [.host, .ports, .qos, .pair, .ctr] s t ∧ (t.queue q).items = (s.queue q).items.drop 1 ∧
          (t.sched p.val).sending = some (q, s.corrected p.val (s.leaves p.val i)) ∧
          t.qos.sent = (p.val, withFcs (s.corrected p.val (s.leaves p.val i)).bytes i.stomp) :: s.qos.sent ∧
          (∀ j, j ≠ q → (t.queue j).items = (s.queue j).items) ∧
          t.counter (.port p.val .txFrames) = (s.counter (.port p.val .txFrames) + 1) % 2 ^ 64) ∧
      ((s.portSt p.val).linkUp = false → Gives (.egressSelect p false none) s fun t =>
        (t.queue q).items = (s.queue q).items.drop 1 ∧ t.qos.sent = s.qos.sent ∧
          t.counter (.port p.val .txLinkDownDrop) = (s.counter (.port p.val .txLinkDownDrop) + 1) % 2 ^ 32) ∧
      (∀ e : CellEcc, (s.portSt p.val).linkUp = true → e.uncorrectable = true → e.begun = false → Gives (.egressSelect p false (some e)) s fun t =>
        (t.queue q).items = (s.queue q).items.drop 1 ∧ t.qos.sent = s.qos.sent ∧
          t.counter (.port p.val .cellEccDrop) = (s.counter (.port p.val .cellEccDrop) + 1) % 2 ^ 32)

/-- Launch (R144 to R147, R161, R267): the head of a launch queue is sent at its time; a port that is not idle makes it late,
sent later or dropped as the queue's LATE says, and so does a step of the base past its time; before its time nothing happens, but
that the MAC merge begins to hold the preemptable MAC, and holds it as long as the frame waits. That a time lies within the next cycle plan is the model's reading of 'at' (log
entry 5). -/
def Obligations.LaunchQueuesMeetTheirTime : Prop :=
  ∀ (s : State) (q : Fin 32768) (i : QItem) (rest : List QItem) (at_ : Nat), (s.queue q.val).items = i :: rest →
    (s.queue q.val).launchEn = true → i.launch = some at_ → s.inService = true →
    let p := q.val / 128
    let now := s.ns (s.portTb p)
    let drops (P : State → Prop) : Prop := Gives (.launchTimeReached q) s fun t => (t.queue q.val).items = [] ∧
      t.qos.sent = s.qos.sent ∧ P t
    let lateDrop (t : State) : Prop := t.counter (.queue q.val .lateDrop) = (s.counter (.queue q.val .lateDrop) + 1) % 2 ^ 32
    (now + 80 < at_ → exec (.launchTimeReached q) s = .next s) ∧
    (i.due = false → now ≤ at_ → at_ ≤ now + 80 → (s.portSt p).linkUp = true → s.idleFor p (q.val % 128) = false →
      ((s.queue q.val).launchLate = true → exec (.launchTimeReached q) s =
        .next (s.setItems q.val ({ i with due := true, late := true } :: rest))) ∧
      ((s.queue q.val).launchLate = false → rest = [] → drops lateDrop)) ∧
    (i.due = false → at_ < now → (s.portSt p).linkUp = true →
      ((s.queue q.val).launchLate = true → Gives (.launchTimeReached q) s fun t =>
        (t.queue q.val).items = { i with judged := true, due := true, late := true } :: rest ∧ t.qos.sent = s.qos.sent) ∧
      ((s.queue q.val).launchLate = false → rest = [] → drops lateDrop)) ∧
    (i.due = false → at_ ≤ now + 80 → (s.portSt p).linkUp = false → rest = [] → drops fun t =>
      t.counter (.port p .txLinkDownDrop) = (s.counter (.port p .txLinkDownDrop) + 1) % 2 ^ 32) ∧
    (let j : QItem := { i with due := true }
     i.due = false → now ≤ at_ → at_ ≤ now + 80 → (s.portSt p).linkUp = true → (s.sched p).sending = none →
      q.val % 128 < 8 → (s.launchChoice p at_ true).2 = some q.val → i.complete = true →
      i.bytes.length + 4 ≤ (s.portCfg p).maxFrame → Gives (.launchTimeReached q) s fun t =>
        (t.sched p).sending.map (·.1) = some q.val ∧
          t.qos.sent = (p, withFcs (s.corrected p (s.leaves p j)).bytes j.stomp) :: s.qos.sent) ∧
    (i.due = false → now ≤ at_ → at_ ≤ now + 80 → (s.portSt p).linkUp = true → s.idleFor p (q.val % 128) = true →
      q.val % 128 < 8 → (s.launchChoice p at_ true).2 ≠ some q.val → (s.queue q.val).launchLate = false → rest = [] → drops lateDrop) ∧
    (q.val % 128 < 8 → (s.portSt p).preActive = true → (s.portSt p).mmHolds.contains i.id = false → s.holdComes p at_ = true →
      (s.sched p).sending = none → Gives (.launchHoldStart q) s fun t =>
      Only [.ports, .ctr] s t ∧ t.portSt p = { s.portSt p with mmHolds := i.id :: (s.portSt p).mmHolds } ∧
        t.counter (.port p .mmHold) = (s.counter (.port p .mmHold) + 1) % 2 ^ 32) ∧
    (∀ k j, q.val % 128 < 8 → (s.portSt p).preActive = true → (s.portSt p).mmHolds.contains i.id = false → s.holdComes p at_ = true →
      (s.sched p).sending = some (k, j) → 8 ≤ k % 128 → (s.sched p).preempted = none → s.canSplit p j = true →
      Gives (.launchHoldStart q) s fun t => Only [.ports, .qos, .ctr] s t ∧ i.id ∈ (t.portSt p).mmHolds ∧
        (t.sched p).sending = none ∧
        (t.sched p).preempted = some (k, { j with cut := j.cut + 64 * (1 + (s.portCfg p).addFrag) })) ∧
    (s.holdComes p at_ = false → exec (.launchHoldStart q) s = .next s) ∧
    ((s.portSt p).mmHolds.contains i.id = true → exec (.launchHoldStart q) s = .next s) ∧
    (q.val % 128 < 8 → i.id ∈ (s.portSt p).mmHolds → s.mmHold p = true)

/-! ### Ports, lanes, optics and sensors -/

/-- Links, lanes and preemption (R40, R160, R168, R169, R178, R189, R672): what an event may do it does to its own port or lane; a link
that is up already does not come up, and one that is down does not go down. -/
def Obligations.LinksAndLanesFollowTheirEvents : Prop :=
  (∀ (s : State) (p : Fin 256),
    let x := s.portSt p.val
    let c := s.portCfg p.val
    let may := s.inService && c.adminUp && !(match c.site with | some n => (s.site n).held | none => false) && decide (c.mode ≠ 0) &&
      s.portUsable p.val && s.macPassed p.val && s.lanesLocked p.val && s.moduleReady p.val && !x.linkUp
    let on := c.preEnable && c.site.isNone
    (may = false → exec (.linkUp p) s = .next s) ∧
    (may = true → Gives (.linkUp p) s fun t => Only [.host, .ports, .radio] s t ∧
      t.portSt p.val = { x with linkUp := true, localFault := false, remoteFault := false, preActive := on && !c.preVerify,
                                verifyTries := if on && c.preVerify then 1 else 0 } ∧
      (∀ k, k ≠ p.val → t.portSt k = s.portSt k) ∧ (c.site = none → t.radio = s.radio)) ∧
    (∀ reason : Fin 8, x.linkUp = false → exec (.linkDown p reason) s = .next s) ∧
    (∀ reason : Fin 8, x.linkUp = true → Gives (.linkDown p reason) s fun t => Only [.host, .ports, .radio, .ctr] s t ∧
      (let y := t.portSt p.val
       y.linkUp = false ∧ y.preActive = false ∧ y.mmHolds = [] ∧ y.localFault = (reason.val == 4) ∧
        y.remoteFault = (reason.val == 5)) ∧
      t.counter (.port p.val .linkDownEvents) = (s.counter (.port p.val .linkDownEvents) + 1) % 2 ^ 32 ∧
      (∀ n, s.portSite p.val = some n → (t.site n).state = .down ∨ (t.site n).state = .fault) ∧
      (s.portSite p.val = none → t.radio = s.radio)) ∧
    (x.verifyTries = 0 → exec (.preemptVerifyTimeout p) s = .next s ∧ exec (.preemptVerifyResponse p) s = .next s) ∧
    (x.verifyTries = 1 ∨ x.verifyTries = 2 → exec (.preemptVerifyTimeout p) s =
      .next (s.modPort p.val ({ · with verifyTries := x.verifyTries + 1 }))) ∧
    (3 ≤ x.verifyTries → Gives (.preemptVerifyTimeout p) s fun t => Only [.host, .ports] s t ∧
      t.portSt p.val = { x with verifyTries := 0 }) ∧
    (x.verifyTries ≠ 0 → exec (.preemptVerifyResponse p) s =
      .next (s.modPort p.val ({ · with verifyTries := 0, preActive := true })))) ∧
  ∀ (s : State) (l : Fin 512), s.ms.mode ≠ .m0 →
    (tget false s.ports.laneLocked l.val = true → Gives (.laneLockLost l) s fun t => Only [.ports, .ctr] s t ∧
      t.ports = { s.ports with laneLocked := tset false s.ports.laneLocked l.val false } ∧
      t.counter (.lane l.val .lockLoss) = (s.counter (.lane l.val .lockLoss) + 1) % 2 ^ 32 ∧
      ∀ k, s.passFrom k = some l.val → t.squelched k = true) ∧
    (tget false s.ports.laneLocked l.val = false → exec (.laneLockLost l) s = .next s) ∧
    (s.pins.refclkTile.getLsbD (l.val / 64) = true → tget false s.ports.laneReset l.val = false →
      exec (.laneLockAcquired l) s = .next { s with ports := { s.ports with laneLocked := tset false s.ports.laneLocked l.val true } }) ∧
    (s.pins.refclkTile.getLsbD (l.val / 64) = false ∨ tget false s.ports.laneReset l.val = true →
      exec (.laneLockAcquired l) s = .next s)

/-- Modules, buses, reference clocks and sensors (R182, R185, R186, R672, R679, R682): a module that appears or disappears, flags that
are newly set, a bus that is recovered, a tile that loses its clock with its lanes and links, and the readings with the trip. -/
def Obligations.OpticsClocksAndSensors : Prop :=
  (∀ (s : State) (cage : Fin 128) (c : Cage), tget none s.cfg.cages cage.val = some c → s.ports.driving = true →
    let x := s.cageSt cage.val
    (∀ present, tget .untried s.ports.buses c.master ≠ .outOfService → present ≠ x.present →
      Gives (.opticsProbe cage present) s fun t => Only [.host, .ports] s t ∧
        t.cageSt cage.val = (if present then { present := true, ready := true, paths := c.portsOf.map fun p => (p, (s.portCfg p).mode) }
          else { fault := x.fault }) ∧ ∀ k, k ≠ cage.val → t.cageSt k = s.cageSt k) ∧
    exec (.opticsProbe cage x.present) s = .next s ∧
    (∀ flags, x.present = true → x.fault = false → tget .untried s.ports.buses c.master ≠ .outOfService →
      tget .untried s.ports.buses c.master ≠ .recovering → Gives (.opticsFlagPoll cage flags) s fun t => Only [.host, .ports] s t ∧
      t.cageSt cage.val = (if x.ready then { x with flags := flags }
        else { x with flags := flags, ready := true, paths := c.portsOf.map fun p => (p, (s.portCfg p).mode) }) ∧ ((∀ f ∈ flags, f ∈ x.flags) → t.host = s.host)) ∧
    (∀ flags, x.present = false → exec (.opticsFlagPoll cage flags) s = .next s)) ∧
  (∀ (s : State) (bus : Fin 16), s.ports.driving = true → tget .untried s.ports.buses bus.val ≠ .outOfService →
    (∀ sda, Gives (.i2cStretchTimeout bus sda) s fun t => tget .untried t.ports.buses bus.val =
      (if (s.recovery bus.val sda).inService then .recovering else .outOfService)) ∧
    (Gives (.i2cStretchTimeout bus []) s fun t => tget .untried t.ports.buses bus.val = .recovering ∧ Only [.ports] s t) ∧
    (s.busCages bus.val = [] → Gives (.i2cStretchTimeout bus (List.replicate 33 false)) s fun t =>
      tget .untried t.ports.buses bus.val = .outOfService)) ∧
  (∀ s : State, exec (.refclkLost 8) s = .next { s with pins := { s.pins with refclkRc := false } }) ∧
  (∀ (s : State) (tile : Fin 9), tile.val < 8 →
    (s.pins.refclkTile.getLsbD tile.val = false → exec (.refclkLost tile) s = .next s) ∧
    (s.pins.refclkTile.getLsbD tile.val = true → s.ms.mode ≠ .m0 → Gives (.refclkLost tile) s fun t =>
      Only [.host, .ports, .radio, .pins, .ctr] s t ∧ t.pins.refclkTile.getLsbD tile.val = false ∧
      (∀ i : Fin 64, tget false t.ports.laneLocked (64 * tile.val + i.val) = false) ∧
      ∀ p ∈ s.cfg.ports.map (·.1), p / 32 = tile.val → (t.portSt p).linkUp = false)) ∧
  ∀ (s : State) (v : SensorReading),
    (s.ms.mode = .m0 → exec (.sensorRead v) s = .next s) ∧
    (s.ms.mode ≠ .m0 → Gives (.sensorRead v) s fun t => Only [.host, .pins, .power] s t ∧
      t.power.watts = BitVec.ofNat 16 v.watts ∧ t.power.railMv = v.railMv.take 10 ∧
      (∀ x l, v.core = x :: l → t.power.tempCore = BitVec.ofInt 16 (l.foldl max x)) ∧
      ((∃ x ∈ v.core ++ v.rc ++ v.tiles, 2000 ≤ x) → t.pins.thermtrip = true ∧ t.power.tripSeen = true) ∧
      ((∀ x ∈ v.core ++ v.rc ++ v.tiles, x < 2000) → t.pins = s.pins ∧ t.power.tripSeen = s.power.tripSeen) ∧
      (∀ x, hottest (v.core ++ v.rc) = some x →
        ((16 * s.power.warnC : Int) ≤ x → t.power.warnActive = true ∧ (s.power.warnActive = false → t.power.warnHit = true)) ∧
        (x < 16 * ((s.power.warnC : Int) - 5) → t.power.warnActive = false)) ∧
      (∀ x, hottest v.reservoir = some x → (16 * s.power.hbmWarnC : Int) ≤ x → t.power.hbmWarnActive = true))

/-! ### Time -/

/-- Samples and sources of the time bases (R108 to R111, R115, R129 to R131, R549): what a sample brings from each source; the servo
alone, the sample carried by the active device and left by the standby; none in a clock in which the base was stepped; a count of the
10 MHz input outside its range, and a lost source; the captured and the driven PPS edges. That SATURATED is set while R110 slews at
the limit is the model's choice (log entry 101), and so is that a count in range shows the 10 MHz input present (log entry 102). -/
def Obligations.TimeBasesFollowTheirSamples : Prop :=
  (∀ (s : State) (tb : Fin 8) (x : OffsetSample),
    (s.tmcRuns = false → exec (.offsetSample tb x) s = .next s) ∧
    (s.tmcRuns = true → s.thetaOf tb.val x = none → exec (.offsetSample tb x) s = .next (s.sees10m tb.val x)) ∧
    ((s.baseCfg tb.val).source ≠ 3 → s.sees10m tb.val x = s)) ∧
  (∀ (s : State) (tb : Fin 8),
    ((s.baseCfg tb.val).source = 0 ∨ (s.baseCfg tb.val).source = 2 → ∀ x, s.thetaOf tb.val x = none) ∧
    (∀ p, (s.baseCfg tb.val).source = 1 → s.slavePort tb.val = some p → s.thetaOf tb.val .fromMaster = some (s.ptpPort p).offset) ∧
    (∀ n : Nat, (s.baseCfg tb.val).source = 3 →
      let b := s.base tb.val
      let cycles : Nat := 160000 * (n - b.cycles)
      (b.cycles ≤ n → 999 * b.seen ≤ cycles → cycles ≤ 1001 * b.seen →
        s.thetaOf tb.val (.cycles n) = some ((b.t : Int) - b.selectedAt - 100 * 65536 * n) ∧
        (let y := s.sees10m tb.val (.cycles n)
         y.pins = { s.pins with freq10m := true } ∧ y.base tb.val = { b with cycles := n, seen := 0 })) ∧
      (n < b.cycles ∨ cycles < 999 * b.seen ∨ 1001 * b.seen < cycles → s.thetaOf tb.val (.cycles n) = none ∧
        (s.sees10m tb.val (.cycles n)).pins = { s.pins with freq10m := false } ∧
        ∀ k : Fin 8, (s.baseCfg k.val).source = 3 → ((s.sees10m tb.val (.cycles n)).base k.val).sourceLost = true))) ∧
  (∀ (s : State) (tb : Fin 8) (x : OffsetSample), s.tmcRuns = true → (s.base tb.val).stepped = true →
    exec (.offsetSample tb x) s = .next (s.sees10m tb.val x)) ∧
  (∀ (s : State) (tb : Fin 8) (x : OffsetSample) (theta : Int), s.tmcRuns = true → s.thetaOf tb.val x = some theta →
    (s.base tb.val).stepped = false →
    let u := s.sees10m tb.val x
    let c := s.baseCfg tb.val
    let b := s.base tb.val
    let n := if theta.natAbs ≤ c.lockNs * 65536 then b.lockCount + 1 else 0
    let seen : BaseState := match b.state with
      | .free | .holdover => .acquiring
      | .locked => if 4 * c.lockNs * 65536 < theta.natAbs then .acquiring else .locked
      | .acquiring => .acquiring
    let steps := stepPermitted c b = true ∧ c.stepNs * 65536 < theta.natAbs
    let i := limitFreq (b.integ - c.ki * theta)
    let out := i - c.kp * theta
    (s.leads = true → Gives (.offsetSample tb x) s fun t => Only [.pair, .pins, .time] s t ∧ t.pins = u.pins ∧ t.time = u.time ∧
      t.pair.releases = insertRelease s.pair.releases (s.epoch + 16) (.measure (.offset tb.val theta))) ∧
    (s.leads = false → s.follows = true → exec (.offsetSample tb x) s = .next u) ∧
    (s.leads = false → s.follows = false → Gives (.offsetSample tb x) s fun t =>
      Only [.host, .time, .pins, .qos, .radio, .pair, .ctr, .draws] s t ∧ t.pins = u.pins ∧ (∀ k, k ≠ tb.val → t.base k = s.base k) ∧
      (let y := t.base tb.val
       y.lastTheta = theta ∧ y.lockCount = n ∧
        y.state = (if 16 ≤ n ∧ seen = .acquiring then .locked else seen) ∧
        (¬steps → y.integ = i ∧ y.t = b.t ∧ y.steps = b.steps ∧
          (theta.natAbs ≤ c.stepNs * 65536 → y.freq = limitFreq out ∧ y.saturated = decide (limitFreq out ≠ out)) ∧
          (c.stepNs * 65536 < theta.natAbs → y.freq = (if 0 < theta then -freqLimit else freqLimit) ∧ y.saturated = true)) ∧
        (steps → 0 ≤ (b.t : Int) - theta → y.t = ((b.t : Int) - theta).toNat ∧ y.steps = b.steps + 1 ∧ y.freq = b.freq ∧
          y.integ = b.integ)))) ∧
  (∀ (s : State) (tb : Fin 8),
    let b := s.base tb.val
    (b.state = .acquiring ∨ b.state = .locked → Gives (.sourceLost tb) s fun t => Only [.host, .time] s t ∧
      t.base tb.val = { b with freq := b.integ, lockCount := 0, sourceLost := true, state := .holdover } ∧
      ∀ k, k ≠ tb.val → t.base k = s.base k) ∧
    (b.state = .free ∨ b.state = .holdover → exec (.sourceLost tb) s = .next s)) ∧
  ∀ s : State,
    (Gives .freq10mLost s fun t => Only [.time, .pins] s t ∧ t.pins = { s.pins with freq10m := false } ∧
      ∀ tb : Fin 8, t.base tb.val = if (s.baseCfg tb.val).source = 3 then { s.base tb.val with sourceLost := true } else s.base tb.val) ∧
    (s.cfg.pps.outEn = true → s.ppsRuns = true → s.ppsOutDue = true → exec .ppsOutEdge s = .next { s with
      pins := { s.pins with ppsOut := true }, time := { s.time with ppsHighFor := 1600 * s.cfg.pps.outWidthUs } }) ∧
    (s.cfg.pps.outEn = false ∨ s.ppsRuns = false ∨ s.ppsOutDue = false → exec .ppsOutEdge s = .next s) ∧
    (∀ k : Nat, ((s.base s.cfg.pps.outTb).t : Int) = (k * 1000000000 + s.cfg.pps.outOffsetNs) * 65536 → s.ppsOutDue = true) ∧
    (s.ppsRuns = true →
      (∀ a, s.time.ppsInAt = some a → (s.time.duration : Int) < a + 1440000000 → Gives .ppsInEdge s fun t => Only [.ctr] s t ∧
        t.counter (.device .ppsInEarly) = (s.counter (.device .ppsInEarly) + 1) % 2 ^ 32) ∧
      ((∀ a, s.time.ppsInAt = some a → a + 1440000000 ≤ (s.time.duration : Int)) → Gives .ppsInEdge s fun t =>
        t.time.ppsInAt = some (s.time.duration : Int) ∧
        ((s.baseCfg s.cfg.pps.inTb).source = 2 → s.tmcRuns = true → s.leads = false → s.follows = false →
          (s.base s.cfg.pps.inTb).stepped = false → (t.base s.cfg.pps.inTb).lastTheta = capturedTheta (s.base s.cfg.pps.inTb).t)))

/-- PTP (R111, R124 to R127, R176, R548): on a device that is not in a pair, an Announce is compared and sets the roles; a slave port
takes Sync and its Follow_Up, from which offsetFromMaster comes, and Delay_Resp; a master port answers Delay_Req, the Peer-to-Peer
profile answers Pdelay_Req; Sync, to 01-80-C2-00-00-0E, waits on the express queue 7 of a radio port, to be stamped as it leaves (R273),
and leaves a master port, with Announce and Pdelay_Req when they are due.
The octets of the messages are those of IEEE 1588 (log entry 84). -/
def Obligations.PtpInstancesAnswerTheirPorts : Prop :=
  ∀ (s : State) (p : Fin 256), s.tmcRuns = true → s.inService = true → s.leads = false → s.follows = false →
    (∀ (inst : Fin 8) (msg : Bytes),
      let c := s.ptpCfg inst.val
      let x := s.ptpPort p.val
      let seq := beAt msg 30 2
      let ty := bits (byteAt msg 0) 0 4
      let corr := correctionOf msg
      let t2 := s.ptpIn inst.val p.val
      let plain := s.portSite p.val = none
      let frame (t : State) : Prop := (plain → Only [.time, .ctr] s t) ∧ Only [.time, .ctr, .qos] s t
      let mine := c.enable = true ∧ p.val ∈ c.ports ∧ bits (byteAt msg 1) 0 4 = 2 ∧ byteAt msg 4 = c.domainNumber ∧
        byteAt msg 0 / 16 = 0
      let master := x.role = .slave ∧ (x.announce = [] ∨ slice msg 20 10 = slice x.announce 16 10)
      (¬mine → exec (.ptpMessageRx inst p msg) s = .next s) ∧
      (mine →
        (ty = 0xB → announceOk msg = false → exec (.ptpMessageRx inst p msg) s = .next s) ∧
        (ty = 0xB → announceOk msg = true → Gives (.ptpMessageRx inst p msg) s fun t => Only [.time] s t ∧
          (t.ptpPort p.val).announce = announceData msg ∧ (t.ptpPort p.val).announceFor = c.announceLife ∧
          (c.ports = [p.val] → c.masterOnly = [] → c.slaveOnly = false → announceData msg ≠ [] → (t.ptpPort p.val).role =
            if bytesLt (bmcaKey c 128 (announceData msg)) (ownKey c) then (if c.clockClass < 128 then .passive else .slave) else .master)) ∧
        (ty = 0 → master → Gives (.ptpMessageRx inst p msg) s fun t => frame t ∧
          (let y := t.ptpPort p.val
           y.syncHeard = true ∧ y.lastSyncSeq = BitVec.ofNat 16 seq ∧ y.twoStep = bit (byteAt msg 6) 1 ∧
            y.arrival = t2 - corr - s.asymmetry p.val ∧
            (bit (byteAt msg 6) 1 = false → y.offset = y.arrival - stampAt msg 34 - x.pathDelay))) ∧
        (ty = 8 → master → x.twoStep = true → seq = x.lastSyncSeq.toNat → Gives (.ptpMessageRx inst p msg) s fun t => frame t ∧
          (t.ptpPort p.val).twoStep = false ∧ (t.ptpPort p.val).offset = x.arrival - (stampAt msg 34 + corr) - x.pathDelay) ∧
        (ty = 9 → master → c.profile ≠ 1 → x.asked p.val msg = true → exec (.ptpMessageRx inst p msg) s = .next (s.modPtpPort p.val fun y =>
          y.delayKnown (truncDiv (y.syncDelay + (stampAt msg 34 - y.reqAt - corr)) 2))) ∧
        (ty = 1 → x.role = .master → c.profile ≠ 1 → Gives (.ptpMessageRx inst p msg) s fun t => frame t ∧
          (plain → t.time.ptpSent = (p.val, ⟨c.dest 9, ptpHeader 9 54 c (corr - t2 % 65536) p.val seq c.logDelayReq ++ ptpStamp t2 ++
            slice msg 20 10⟩) :: s.time.ptpSent)) ∧
        (ty = 2 → c.profile = 1 → Gives (.ptpMessageRx inst p msg) s fun t => frame t ∧
          (plain → t.time.ptpSent = (p.val, ⟨c.dest 3, ptpHeader 3 54 c (corr + s.ptpOut inst.val p.val - t2) p.val seq 0x7F ++
            List.replicate 10 0 ++ slice msg 20 10⟩) :: s.time.ptpSent)))) ∧
    ((s.portSt p.val).linkUp = true →
      let x := s.ptpPort p.val
      let sync (c : PtpCfg) (tb : Nat) : Nat × PtpFrame :=
        let v := s.ptpOut tb p.val
        (p.val, ⟨c.dest 0, ptpHeader 0 44 c (v % 65536) p.val x.syncSeq.toNat c.logSync ++ ptpStamp v⟩)
      (∀ site, s.portSite p.val = some site → Gives (.ptpSyncTx p) s fun t => Only [.time, .qos, .ctr] s t ∧
        (t.ptpPort p.val).syncSeq = x.syncSeq + 1 ∧ t.time.ptpSent = s.time.ptpSent ∧
        (let q := 128 * p.val + 7
         let b := fit 60 (beBytes 6 0x0180C200000E ++ siteSource site ++ [0x88, 0xF7] ++
           (sync { radioPtp with clockClass := s.radioClockClass } 0).2.msg)
         let j : QItem := { id := s.qos.nextId, bytes := b, cells := 1, sync := true }
         s.sitePort site = some p.val → (s.queue q).launchEn = false → s.fits q 1 0 = true → s.noCell 1 = false →
           (t.queue q).items = (s.queue q).items ++ [j] ∧
           ∀ v : State, (v.leaves p.val j).bytes = stampSync b (v.txStamp p.val (v.base (v.portTb p.val)).t))) ∧
      ((s.base 0).state = .locked → (s.ptpCfg 0).enable = true → s.radioClockClass = (s.ptpCfg 0).clockClass) ∧
      ((s.base 0).state = .free ∨ (s.base 0).state = .acquiring → s.radioClockClass = 248) ∧
      ((s.base 0).state = .holdover → s.radioClockClass = 135) ∧
      (∀ n, (s.portSite p.val) = none → s.ptpInstance p.val = some n → (s.ptpCfg n).enable = true → x.role = .master →
        let c := s.ptpCfg n
        Gives (.ptpSyncTx p) s fun t => Only [.time, .ctr] s t ∧ (t.ptpPort p.val).syncSeq = x.syncSeq + 1 ∧
          t.time.ptpSent = (if c.profile = 1 ∧ x.syncSeq.toNat % 2 ^ (c.logDelayReq - c.logSync).toNat = 0 then [(p.val,
            ⟨c.dest 2, ptpHeader 2 54 c (-s.asymmetry p.val) p.val x.reqSeq.toNat 0x7F ++ List.replicate 20 0⟩)] else []) ++
            (if c.announceDue x.syncSeq.toNat then [(p.val, ⟨c.dest 11,
            announceMsg c p.val x.announceSeq.toNat (ptpStamp (s.base n).t) (s.grandmaster c)⟩)] else []) ++ sync c n :: s.time.ptpSent)) ∧
    ((s.portSt p.val).linkUp = false → exec (.ptpSyncTx p) s = .next s)

/-! ### The schedule engine and the modem -/

/-- Slots, activation, deactivation and loads (R137, R141, R338, R403, R411, R431): each follows its domain's base, and leaves the
banks of other domains alone. -/
def Obligations.ScheduleFollowsTheBase : Prop :=
  ∀ (s : State) (d : Fin 64),
    let x := s.domain d.val
    let now := s.ns (s.domainTb d.val)
    let others (t : State) : Prop := ∀ k, k ≠ d.val → t.domain k = s.domain k
    (x.activeImage = none → exec (.slotBoundary d) s = .next s) ∧
    (∀ i, x.activeImage = some i →
      (now / i.slotNs = x.slot → exec (.slotBoundary d) s = .next s) ∧
      (now / i.slotNs ≠ x.slot → Gives (.slotBoundary d) s fun t => Only [.radio, .trace, .ctr, .draws] s t ∧ others t ∧
        (let y := t.domain d.val
         y.slot = now / i.slotNs ∧ y.active = x.active ∧ y.bankA = x.bankA ∧ y.bankB = x.bankB ∧ y.activation = x.activation ∧
          ((∀ h, x.hold = some h → h < now) → y.hold = none)) ∧
        (∀ h, x.hold = some h → (now ≤ h → (t.domain d.val).hold = some h) ∧ t.counter (.domain d.val .slotsHeld) =
          (s.counter (.domain d.val .slotsHeld) + (min (now / i.slotNs) (h / i.slotNs) - x.slot)) % 2 ^ 32))) ∧
    (x.activation = none → exec (.imageActivation d) s = .next s) ∧
    (∀ a, x.activation = some a →
      (now < a.at_ → exec (.imageActivation d) s = .next s) ∧
      (a.at_ ≤ now → Gives (.imageActivation d) s fun t => Only [.host, .radio, .pair, .ctr] s t ∧ others t ∧
        (let y := t.domain d.val
         y.activation = none ∧ y.active = some a.bank ∧ y.lastActive = some a.bank ∧ y.bankA = x.bankA ∧ y.bankB = x.bankB ∧
          (∀ i, (x.bank a.bank).image = some i → y.slot = now / i.slotNs)) ∧
        t.counter (.domain d.val .activations) = (s.counter (.domain d.val .activations) + 1) % 2 ^ 32)) ∧
    (x.stopping = [] → exec (.deactivateDone d) s = .next s) ∧
    (x.stopping ≠ [] → ∀ i, x.activeImage = some i →
      (now / i.slotNs ≤ x.stopSlot → exec (.deactivateDone d) s = .next s) ∧
      (x.stopSlot < now / i.slotNs → Gives (.deactivateDone d) s fun t => Only [.host, .radio] s t ∧ others t ∧
        t.domain d.val = { x with
          active := none, stopping := [], used := [], previous := x.active, activeFrom := now, acks := x.acks.filter (·.issued) })) ∧
    (∀ dmaOk image, x.loading = none → exec (.imageLoadDone d dmaOk image) s = .next s) ∧
    (∀ dmaOk image side fn tag len, x.loading = some (side, fn, tag, len) → s.mgcDown fn = true ∨ s.busMaster fn = false →
      exec (.imageLoadDone d dmaOk image) s = .next s) ∧
    (∀ dmaOk image side fn tag len, x.loading = some (side, fn, tag, len) → s.mgcDown fn = false → s.busMaster fn = true →
      Gives (.imageLoadDone d dmaOk image) s fun t => others t ∧ (dmaOk = false ∨ image.length ≠ len → (t.domain d.val).bank side = .empty) ∧
      (match (s.loadImage d.val len dmaOk image).2 with
        | .inl _ => (t.domain d.val).bank side = .empty
        | .inr i => (t.domain d.val).bank side = .loaded i ∧ (t.domain d.val).lastLoaded = side ∧
          i = { parseImage image with plans := s.plansOf (parseImage image) }) ∧
      (t.domain d.val).bank (!side) = x.bank (!side) ∧ (t.domain d.val).active = x.active)

/-- Transmit cells and acknowledgements (R387, R414 to R416, R418, R419, R423): an instant is dealt with once, and only while the
cell is due; a broadcast that passes every check leaves its queue and is charged; a site under trap 4 sends nothing. A LOFDM
frame has the symbols of R348, each with the pilots of R353, and every point of a data subcarrier has its place in R352's map. -/
def Obligations.TransmitCellsAreCheckedAndSent : Prop :=
  (∀ (psdu : Bytes) (map rate load : Nat) (bits : List Nat) (seed : Nat),
    let n := lofdmN psdu.length rate
    let l := lofdmSymbols psdu map rate load bits seed
    l.length = 3 + lofdmNdata n psdu.length rate (sumNat bits) ∧ (∀ x ∈ l, x.length = 128) ∧ l[0]? = some p1Symbol ∧ l[1]? = some p2Symbol ∧
      ∀ m : Nat, m + 2 < l.length → ∀ k ∈ pilotCarriers, ∃ x, l[m + 2]? = some x ∧ x[(k + 64).toNat]? = some (.point (pilotAt m k) 0 1)) ∧
  (∀ a b : Bool, (constellation [a]) = .point (if a then 1 else -1) 0 1 ∧
    constellation [a, b] = .point (if a then 1 else -1) (if b then 1 else -1) 2) ∧
  (∀ l : List Bool, l.length = 4 ∨ l.length = 6 → ∃ i q norm, constellation l = .point i q norm ∧
    (norm = if l.length = 4 then 10 else 42) ∧ i % 2 = 1 ∧ q % 2 = 1 ∧ i.natAbs < l.length * 2 - 4 ∧ q.natAbs < l.length * 2 - 4) ∧
  (∀ (s : State) (d : Fin 64) (slot cell : Nat),
    (s.issueDue d.val slot cell = none ∨ (s.meshDom d.val).cfg = none → exec (.txIssue d slot cell) s = .next s) ∧
    ∀ (i : Image) (c : Cell) (m : DomainCfg),
    let x := s.domain d.val
    let t0 := slot * i.slotNs + c.start * 1000
    let now := s.domainNs d.val
    (x.activation = none → x.stopping = [] → x.activeImage = some i → i.cellIn slot cell = some c → now ≤ t0 →
      t0 ≤ now + (460000 + i.fhMax c.site * 1000) → s.issueDue d.val slot cell = some (i, c)) ∧
    (s.issueDue d.val slot cell = some (i, c) → (s.meshDom d.val).cfg = some m →
    let mark := s.modDomain d.val fun x => { x with issued := (x.issued.filter fun e => decide (now ≤ e.1)) ++ [(t0, cell)] }
    (now ≤ t0 ∧ t0 ≤ now + (460000 + i.fhMax c.site * 1000)) ∧
    (s.inService = false ∨ c.tx = false ∨ t0 < x.notBefore ∨ slot < i.asnOrigin ∨ (t0, cell) ∈ x.issued ∨ s.serves d.val c = false ∨
      (s.meshDom d.val).nextEpoch ≠ none → exec (.txIssue d slot cell) s = .next s) ∧
    (s.inService = true → c.tx = true → x.notBefore ≤ t0 → i.asnOrigin ≤ slot →
      (t0, cell) ∉ x.issued → s.serves d.val c = true → (s.meshDom d.val).nextEpoch = none → c.type ≠ 7 →
      (s.canSend c.site c.band = false → exec (.txIssue d slot cell) s = .next mark) ∧
      (∀ (e : Chan) (f : DlFrame) (rest : List DlFrame), s.canSend c.site c.band = true → c.type = 3 →
        (s.meshDom d.val).bcast = f :: rest → i.hop slot c = some e →
        let len := f.mpdu.length + fcsLen e.phy
        let air := airOf e.code uniform len
        let us := keyedUs c.band (burstSamples c.band air)
        let key := 3 * c.site + c.band
        let at_ := slot * i.slotNs
        let vect := match i.slots[slot % 2 ^ i.k]? with
          | some y => (match y.vect c.site with | some v => v.dwell.getD c.band 0 | none => 0)
          | none => 0
        i.fitsCell c air = true → psduFits e.phy len = true → c.site < 96 → c.band < 3 →
        (s.fronthaulTrap d.val c.site = true → Gives (.txIssue d slot cell) s fun t => Only [.radio, .pair, .ctr] s t ∧
          t.counter (.domain d.val .trapFronthaul) = (s.counter (.domain d.val .trapFronthaul) + 1) % 2 ^ 32) ∧
        (s.fronthaulTrap d.val c.site = false → x.usedAt at_ key + us ≤ vect → x.usedAt at_ (1000 + cell) + us ≤ c.keyed →
          s.needsTune c.site c.band e.freq = false →
          (s.dwellCheck c.site c.band e.freq (s.durationAt 0 (s.toTb0 d.val t0)) us).2 = true →
          Gives (.txIssue d slot cell) s fun t => (t.meshDom d.val).bcast = rest ∧ (t0, cell) ∈ (t.domain d.val).issued ∧
            (t.domain d.val).usedAt at_ key = x.usedAt at_ key + us ∧
            (t.domain d.val).usedAt at_ (1000 + cell) = x.usedAt at_ (1000 + cell) + us))))) ∧
  ∀ (s : State) (d : Fin 64) (id : Nat) (p : AckPlan) (i : Image) (m : DomainCfg),
    (s.domain d.val).acks.find? (fun q => q.id == id && !q.issued) = some p → (s.domain d.val).activeImage = some i →
    (s.meshDom d.val).cfg = some m →
    let mark := s.modDomain d.val fun x => { x with acks := x.acks.map fun q => if q.id = id then { q with issued := true } else q }
    let known := ((i.slots.flatMap fun x => x.cells).find? (·.1 == p.cell)).isSome
    let gone := (s.domain d.val).passed (s.domainNs d.val) i p = true
    (s.domainNs d.val + 460000 + i.fhMax p.site * 1000 < p.startNs → exec (.ackIssue d id) s = .next s) ∧
    (p.startNs ≤ s.domainNs d.val + 460000 + i.fhMax p.site * 1000 →
      (Gives (.ackIssue d id) s fun t => ∀ q ∈ (t.domain d.val).acks, q.id = id → q.issued = true) ∧
      (s.inService = false ∨ s.canSend p.site p.band = false ∨ gone → exec (.ackIssue d id) s = .next mark) ∧
      (known = true → s.inService = true → s.canSend p.site p.band = true → ¬gone →
        (s.fronthaulTrap d.val p.site = true → exec (.ackIssue d id) s = .next (mark.count (.domain d.val .trapFronthaul))) ∧
        (∀ e, (i.slots.flatMap fun x => x.cells).find? (·.1 == p.cell) = some e → s.fronthaulTrap d.val p.site = false →
          (mark.buildAck d.val m p).2 ≠ none → p.site < 96 → p.band < 3 → (s.plan p.site p.band).channel p.freq ≤ 256 →
          let slot := p.startNs / i.slotNs
          let us := keyedUs p.band (burstSamples p.band (p.endNs - p.startNs))
          let at_ := slot * i.slotNs
          let vect := match i.slots[slot % 2 ^ i.k]? with
            | some y => (match y.vect p.site with | some v => v.dwell.getD p.band 0 | none => 0)
            | none => 0
          (s.domain d.val).usedAt at_ (3 * p.site + p.band) + us ≤ vect → (s.domain d.val).usedAt at_ (1000 + p.cell) + us ≤ e.2.keyed →
          s.needsTune p.site p.band p.freq = false → (s.dwellCheck p.site p.band p.freq (s.durationAt 0 (s.toTb0 d.val p.startNs)) us).2 = true →
          Gives (.ackIssue d id) s fun t =>
            t.counter (.domain d.val .ackSent) = (s.counter (.domain d.val .ackSent) + 1) % 2 ^ 64)))

/-- Reception (R338 to R345, R350, R368, R371 to R374): a detection in an open window takes a context, or overflows; soft values
come to their member; the header fixes the frame or ends it; codewords become ready, and are decoded, fail, or are abandoned. -/
def Obligations.ReceptionRunsToItsFrame : Prop :=
  (∀ (s : State) (site : Fin 96) (x : Detect) (i : Image) (c : Cell),
    let d := x.domain.val
    (s.domain d).imageFor (fun _ => s.ofTb0 d x.instantNs) = some i →
    let slot := s.ofTb0 d x.instantNs / i.slotNs
    i.cellIn slot x.cell = some c →
    (c.rx = true → s.hears d i x c = (i.chset c)[x.entry]?) ∧ (c.rx = false → c.ackReq = false → s.hears d i x c = none) ∧
    (s.hears d i x c = none → exec (.detection site x) s = .next s) ∧
    ∀ e : Chan, s.hears d i x c = some e →
    let w := s.cellWindow d i slot c
    let open_ := (s.site site.val).state = .inService ∧ c.site = site.val ∧ s.serves d c = true ∧
      w.1 ≤ x.instantNs ∧ x.instantNs < w.2 ∧ (slot, x.cell) ∉ (s.domain d).ended
    let f : Frame := { domain := d, image := i, slot := slot, windowEnd := (s.domain d).windowEnd s d x.instantNs w.2, entry := e,
                       group := i.groupOf c }
    let new (y : Copied) : Prop := y.site = site.val ∧ y.cell = x.cell ∧ y.instant = x.instantNs ∧ y.corr = x.corr ∧ y.held = true ∧
      y.headerAt = none ∧ y.equaliser = startEqualiser e.code
    (¬open_ → exec (.detection site x) s = .next s) ∧
    (open_ → Gives (.detection site x) s fun t => Only [.radio, .ctr] s t ∧
      t.counter (.site site.val .detections) = (s.counter (.site site.val .detections) + 1) % 2 ^ 64 ∧
      (c.ctx ≤ s.contextsUsed d x.cell slot site.val → t.radio = s.radio ∧
        t.counter (.site site.val .ctxOverflow) = (s.counter (.site site.val .ctxOverflow) + 1) % 2 ^ 32) ∧
      (s.contextsUsed d x.cell slot site.val < c.ctx →
        -- a transmission of its own
        (i.groupOf c = none ∨ s.combines = false → t.radio.recvIds = s.radio.recvIds + 1 ∧
          ∃ r, t.radio.recvs = s.radio.recvs ++ [r] ∧ r.id = s.radio.recvIds ∧ r.domain = d ∧ r.cell = x.cell ∧ r.slot = slot ∧
            r.windowEnd = f.windowEnd ∧ r.entry = e ∧ r.header = none ∧ r.deadlineUs = none ∧ ∃ y, r.copies = [y] ∧ new y) ∧
        -- the first of its group, one within ALIGN_US of another, and one of a transmission whose header is decided
        ∀ g, i.groupOf c = some g → s.combines = true →
          (s.mates f c = [] → ∃ r, t.radio.recvs = s.radio.recvs ++ [r] ∧ r.deadlineUs = some g.deadlineUs ∧
            r.sites = g.sites.take g.members ∧ ∃ y, r.copies = [y] ∧ new y) ∧
          ∀ r, s.mates f c = [r] → (∀ y ∈ r.copies, y.site ≠ site.val) →
            (∀ y, r.header = none → r.finished = false → r.copies = [y] → y.instant ≤ x.instantNs + g.alignUs * 1000 →
              x.instantNs ≤ y.instant + g.alignUs * 1000 → ∃ z, t.recv r.id = some z ∧ z.deadlineUs = some g.deadlineUs ∧
                ∃ v, new v ∧ (z.copies = [y, v] ∨ z.copies = [v, y])) ∧
            (r.header ≠ none → r.deadlineUs ≠ none → r.instant ≤ x.instantNs + g.alignUs * 1000 →
              x.instantNs ≤ r.instant + g.alignUs * 1000 →
              ∃ v, new v ∧ t.recv r.id = some { r with copies := r.copies ++ [v] })))) ∧
  (∀ (s : State) (id : Nat) (r : Recv), s.recv id = some r →
    (∀ (site : Fin 96) (part : Nat) (blanks : List (Nat × Nat)) (x : Soft) (c : Copied),
      r.copies.find? (·.site == site.val) = some c → c.held = true → (s.site site.val).state = .inService →
      let lost := if r.entry.phy % 16 = 4 then erasedSymbols blanks else []
      ((∀ t, s.dueAt r (r.partEnd part) = some t → s.time.duration ≤ t) →
        Gives (.softValuesDelivered id site part blanks x) s fun t => Only [.radio, .ctr] s t ∧
        t.counter (.site site.val .symbolsErased) = (s.counter (.site site.val .symbolsErased) + lost.length) % 2 ^ 64 ∧
        (part = 0 → r.header = none → r.finished = false →
          ∃ z, t.recv id = some z ∧ ∀ y ∈ z.copies, y.site = site.val → y.headerAt ≠ none) ∧
        (part ≠ 0 → r.header ≠ none → r.finished = false → site.val ∈ r.members → part ≤ r.ncw → ∃ z, t.recv id = some z ∧
          ∀ y ∈ z.copies, y.site = site.val →
            tget [] y.soft (part - 1) = r.values { c with erased := c.erased ++ lost } (part - 1) blanks x.values ∧
            y.equaliser = c.equaliser.run r.entry.phy x.eq ∧ (y.held = false ↔ r.complete y = true))) ∧
      (∀ u, s.dueAt r (r.partEnd part) = some u → u < s.time.duration → r.finished = false →
        Gives (.softValuesDelivered id site part blanks x) s fun t => Only [.radio, .ctr] s t ∧
          t.counter (.site site.val .combLate) = (s.counter (.site site.val .combLate) + 1) % 2 ^ 32 ∧
          ∃ z, t.recv id = some z ∧ ∀ y ∈ z.copies, y.site = site.val → y.soft = c.soft ∧ y.headerAt = c.headerAt)) ∧
    (r.header = none → r.finished = false → s.headersIn r = false → s.headerDue r = false → ∀ w, exec (.headerDecision id w) s = .next s) ∧
    (r.header = none → r.finished = false → r.copies.any (·.headerAt.isSome) = true → (s.headersIn r || s.headerDue r) = true →
      (r.entry.phy % 16 = 4 →
        let h := headerOf r.headerSum
        (hdrOk h = false → Gives (.headerDecision id .lofdm) s fun t => t.recv id = none ∧
          t.counter (.site r.firstSite .hdrFail) = (s.counter (.site r.firstSite .hdrFail) + 1) % 2 ^ 32) ∧
        (∀ bits, hdrOk h = true → 5 ≤ hdrLen h → s.loadOf r.rec_ h = some bits → sumNat bits ≠ 0 →
          r.instant + (3 + lofdmNdata (hdrCw h) (hdrLen h) (hdrRate h) (sumNat bits)) * 115200 - 115200 ≤ r.windowEnd →
          Gives (.headerDecision id .lofdm) s fun t => Only [.radio, .ctr] s t ∧ ∃ z, t.recv id = some z ∧ z.header = some h ∧
            z.len = hdrLen h ∧ z.n = hdrCw h ∧ z.rate = hdrRate h ∧ z.ncw = lofdmNcw (hdrCw h) (hdrLen h) (hdrRate h) ∧
            (∀ n, n ∈ z.members ↔ ∃ y ∈ r.copies, y.headerAt ≠ none ∧ y.site = n))) ∧
      (∀ len options, r.entry.phy % 16 ≠ 4 → r.entry.phy % 16 ≠ 3 → 5 ≤ len → len ≤ 2047 →
        r.instant + airNs (r.entry.heard options) len - symbolNs (r.entry.heard options) ≤ r.windowEnd →
        Gives (.headerDecision id (.phr len true options)) s fun t => ∃ z, t.recv id = some z ∧ z.header ≠ none ∧ z.len = len ∧
          z.ncw = 1 ∧ z.rxPhy = r.entry.heard options)) ∧
    (∀ cw, r.header ≠ none → r.finished = false → cw < r.ncw → r.queued.any (·.1 == cw) = false → r.done.any (·.1 == cw) = false →
      let due := s.dueAt r (r.partEnd (cw + 1))
      let come := match due with | some u => decide (u ≤ s.time.duration) | none => false
      ((r.present.all fun c => c.delivered.contains cw) = false → come = false → exec (.codewordReady id cw) s = .next s) ∧
      ((r.present.all fun c => c.delivered.contains cw) = true ∨ come = true → r.entry.phy % 16 ≠ 4 →
        tget (0, 0) (s.domain r.domain).ready r.cell = (0, 0) → Gives (.codewordReady id cw) s fun t => Only [.radio] s t ∧
          ∃ z, t.recv id = some z ∧
            z.queued = r.queued ++ [(cw, match due with | some u => min u s.time.duration | none => s.time.duration, r.sum cw)])) ∧
    -- what is left of a frame that is decoded or lost: contexts with values to deliver (R340)
    let ended (t : State) : Prop :=
      ∀ z, t.recv id = some z → z.finished = true ∧ z.queued = [] ∧ z.copies = r.copies ∧ z.copies.any (·.held) = true
    (∀ cw bits iters rel, s.begun r cw = false → exec (.decodeDone id cw bits iters rel) s = .next s) ∧
    (∀ cw bits iters rel q, r.queued.find? (·.1 == cw) = some q → s.begun r cw = true → r.finished = false →
      let x := r.decode cw q.2.2
      (r.entry.phy % 16 = 4 → x.2.2 = false → Gives (.decodeDone id cw bits iters rel) s fun t =>
        Only [.radio, .ctr] s t ∧ ended t ∧
          t.counter (.site r.firstSite .cwFailed) = (s.counter (.site r.firstSite .cwFailed) + 1) % 2 ^ 32) ∧
      (r.entry.phy % 16 ≠ 4 ∨ x.2.2 = true →
        let info := if r.entry.phy % 16 = 4 then x.1.take (ldpcK r.n r.rate) else bits
        (r.done.length + 1 < r.ncw → Gives (.decodeDone id cw bits iters rel) s fun t => Only [.radio, .ctr] s t ∧
          ∃ z, t.recv id = some z ∧ z.done = r.done ++ [(cw, info)]) ∧
        (r.ncw ≤ r.done.length + 1 → r.domain < 64 → r.firstSite < 96 → Gives (.decodeDone id cw bits iters rel) s fun t =>
          ended t ∧ ∃ a, t.radio.decoded = s.radio.decoded ++ [a] ∧ a.domain.val = r.domain ∧ a.cell = r.cell ∧
            a.slot = r.slot ∧ a.copies = r.present.length ∧ a.psdu = { r with done := r.done ++ [(cw, info)] }.psdu))) ∧
    (∀ cw, s.begun r cw = true ∨ (r.queued.any fun e => e.1 == cw && decide (e.2.1 + 160000 ≤ s.time.duration)) = false →
      exec (.decodeAbandon id cw) s = .next s) ∧
    (∀ cw, (r.queued.any fun e => e.1 == cw && decide (e.2.1 + 160000 ≤ s.time.duration)) = true → s.begun r cw = false →
      Gives (.decodeAbandon id cw) s fun t => Only [.radio, .ctr] s t ∧ ended t ∧
        t.counter (.device .decOverrun) = (s.counter (.device .decOverrun) + 1) % 2 ^ 32)) ∧
  ∀ (s : State) (p : Fin 256) (frame : Bytes) (stampNs n : Nat), s.portSite p.val = some n → (s.portSt p.val).linkUp = true →
    isRoeData frame = true →
    let flow := byteAt frame 15
    let rate := ulRate (flowBand flow)
    let ord := beAt frame 18 4
    let first := nearestSecond (s.ns 0) (ord / 2 ^ 27) (ord % 2 ^ 27 * 1000000000 / rate) * rate + ord % 2 ^ 27
    let last := first + ((frame.drop 22).take (beAt frame 16 2)).length / 3 - 1
    let x : UlStream := tget {} (s.site n).streams flow
    Gives (.roeUplinkFrame p frame stampNs) s fun t => Only [.radio, .ctr] s t ∧
      t.counter (.site n .ulFrames) = (s.counter (.site n .ulFrames) + 1) % 2 ^ 64 ∧
      (let y : UlStream := tget {} (t.site n).streams flow
       (∀ w, x.newest = some w → first + rate / 1000 < w → y = x ∧
        t.counter (.site n .ulLatePkt) = (s.counter (.site n .ulLatePkt) + 1) % 2 ^ 32) ∧
       (∀ w, x.newest = some w → w ≤ first + rate / 1000 → y.newest = some (max w last) ∧
        y.stamps.head? = some (first, last, stampNs)) ∧
       (x.newest = none → y.newest = some last ∧ y.stamps.head? = some (first, last, stampNs)))

/-! ### Sites and their front ends -/

namespace Sys2Proof.Claims

/-- The loops of a front end (R298, R310, R311, R314, R315): the echo, the gain decision, the floor minima and the tuner step. -/
def FrontEndLoops : Prop :=
  ∀ (s : State) (site : Fin 96),
    let n := site.val
    let x := s.site n
    (s.siteRuns n = false → exec (.echoSend site) s = .next s) ∧
    (s.siteRuns n = true → Gives (.echoSend site) s fun t => Only [.qos, .radio, .ctr] s t ∧
      (t.site n).echoToken = (x.echoToken + 1) % 2 ^ 32 ∧ (t.site n).echo = some ((x.echoToken + 1) % 2 ^ 32, (s.base 0).t) ∧
      (t.site n).wseq = x.wseq + 1 ∧ (t.site n).waiting = x.waiting) ∧
    (∀ (a : Fin 5) (total clipped : Nat) (median : Int),
      let old := x.gains.getD a.val 60
      let new := gainStep old total clipped median
      (x.state ≠ .inService ∨ bit (s.siteCfg n).gainFixed (antennaBand a.val) = true ∨ total = 0 ∨ new = old →
        exec (.gainDecision site a total clipped median) s = .next s) ∧
      (x.state = .inService → bit (s.siteCfg n).gainFixed (antennaBand a.val) = false → total ≠ 0 → new ≠ old →
        Gives (.gainDecision site a total clipped median) s fun t => Only [.qos, .radio, .ctr] s t ∧
          (t.site n).gains = x.gains.set a.val new ∧
            (tget [] (t.site n).gainSets a.val).head? = some (s.ns 0 + 2000000, new) ∧ ∃ w, (t.site n).waiting = x.waiting ++ [w] ∧ w.wseq = x.wseq.toNat ∧
            w.sends = 1 ∧ wordOp w.word = 0x11 ∧ wordBand w.word = antennaBand a.val)) ∧
    (∀ (band : Fin 3) (powers : List (Nat × Int)),
      let f : Floor := tget {} x.floors band.val
      (x.state ≠ .inService → exec (.floorPeriod site band powers) s = .next s) ∧
      (x.state = .inService → Gives (.floorPeriod site band powers) s fun t => Only [.radio] s t ∧
        ∀ b, tget none (tget {} (t.site n).floors band.val : Floor).running b =
          powers.foldl (fun m e => if e.1 = b ∧ b < bandBins band.val then minOpt m (some (e.2 + 2 * x.scale (2 * band.val) (s.ns 0))) else m) (tget none f.running b)) ∧
      (Gives (.floorWindowEnd site band) s fun t =>
        let g : Floor := tget {} (t.site n).floors band.val
        g.running = [] ∧ g.previous = f.running ∧ g.endS = (s.now 0).1 ∧
          ∀ b, tget none g.floors b = (minOpt (tget none f.running b) (tget none f.previous b)).map (· + 8))) ∧
    (∀ band : Fin 3,
      let t : Tuner := tget {} x.tuners band.val
      let may := x.state = .inService ∧ (s.siteCfg n).tunerEn = true ∧ (∃ r, t.rl = some r ∧ r < (s.siteCfg n).rlTarget) ∧
        (∀ d, t.stepAt = some d → d + 16000000000 ≤ s.time.duration) ∧ t.mayStep = true ∧
        s.txDeclared n band.val = false
      (¬may → exec (.tunerStepIssue site band) s = .next s) ∧
      (may → (∀ p, s.sitePort n = some p → p < 256) → Gives (.tunerStepIssue site band) s fun u => Only [.qos, .radio, .ctr] s u ∧
        tget {} (u.site n).tuners band.val = { t with stepped := t.rl, mayStep := false, stepAt := some s.time.duration } ∧
        (∃ w, (u.site n).waiting = x.waiting ++ [w] ∧ wordOp w.word = 0x30) ∧
        u.counter (.site n .tunerSteps) = (s.counter (.site n .tunerSteps) + 1) % 2 ^ 32)) ∧
    exec (.linkHoldExpiry site) s = .next (s.modSite n fun x => { x with held := false })

/-- A baseband lane that fails takes its site out of service with its link held; one that fails its retest is replaced by the
lowest free spare, or its site is in FAULT (R289). -/
def LanesAreSpared : Prop :=
  ∀ (s : State) (lane : Fin 104),
    (s.siteOfLane lane.val = none → exec (.basebandLaneFault lane) s = .next s) ∧
    (∀ n, s.siteOfLane lane.val = some n → Gives (.basebandLaneFault lane) s fun t => Only [.host, .ports, .radio, .ctr] s t ∧
      (t.site n).held = true ∧ ((s.site n).state ≠ .fault → (t.site n).state = .down) ∧
      ∀ p, s.sitePort n = some p → (t.portSt p).linkUp = false) ∧
    exec (.basebandLaneRetestDone lane true) s = .next s ∧
    (Gives (.basebandLaneRetestDone lane false) s fun t => Only [.host, .radio, .bist] s t ∧ lane.val ∈ t.radio.badLanes ∧
      (3, lane.val) ∈ t.bist.unusable ∧
      ∀ n, s.siteOfLane lane.val = some n →
        let u : State := { s with radio := { s.radio with badLanes := lane.val :: s.radio.badLanes.filter (· != lane.val) } }
        (∀ l, u.freeSpare = some l → t.laneOf n = some l ∧ t.radio.sites = s.radio.sites) ∧
        (u.freeSpare = none → t.laneOf n = none ∧ (t.site n).state = .fault ∧ (t.site n).held = false))

/-- A word is taken: its command answers the state of which `P` holds, with the word's ACK where it asks for one (R303). -/
def Takes (c : Instr) (s : State) (site : Nat) (word : Bytes) (P : State → Prop) : Prop :=
  ∃ u, exec c s = .next (u.dcwAnswer site word 0) ∧ P u

/-- What a PRU says, and what it fails to say (R301, R303, R304, R314, R323 to R327). -/
def PruWordsMoveTheirSite : Prop :=
  ∀ (s : State) (site : Fin 96),
    let n := site.val
    let x := s.site n
    -- the ACK of a word (R303)
    (∀ (word : Bytes) (result : Nat), (bit (byteAt word 1) 3 = false → s.dcwAnswer n word result = s) ∧
      (bit (byteAt word 1) 3 = true → Only [.qos, .radio, .ctr] s (s.dcwAnswer n word result) ∧
        ((s.dcwAnswer n word result).site n).wseq = x.wseq + 1 ∧ ((s.dcwAnswer n word result).site n).waiting = x.waiting)) ∧
    -- a word with another opcode or length, or with a reserved bit set, has no other effect (R304)
    (∀ word : Bytes,
      (dcwBody 0x80 16 word = none → ∀ mac, exec (.dcwHello site word mac) s = .next (s.dcwAnswer n word 4)) ∧
      (dcwBody 0x81 4 word = none → exec (.dcwReady site word) s = .next (s.dcwAnswer n word 4)) ∧
      (dcwBody 0x82 4 word = none → exec (.dcwAck site word) s = .next (s.dcwAnswer n word 4)) ∧
      (dcwBody 0x83 8 word = none → ∀ band, exec (.dcwTunerReport site band word) s = .next (s.dcwAnswer n word 4)) ∧
      (dcwBody 0x84 20 word = none → exec (.dcwStatus site word) s = .next (s.dcwAnswer n word 4)) ∧
      (dcwBody 0x85 8 word = none → ∀ sent rx, exec (.dcwEchoReply site word sent rx) s = .next (s.dcwAnswer n word 4)) ∧
      (dcwBody 0x86 4 word = none → exec (.dcwPruAlarm site word) s = .next (s.dcwAnswer n word 4))) ∧
    (∀ word body : Bytes, body.length < 65536 → word = dcwWord 0x86 3 none false 0 body → dcwBody 0x86 body.length word = some body) ∧
    (∀ (word body : Bytes) (mac : Nat), dcwBody 0x80 16 word = some body →
      let image := s.radio.pruImages.find? fun e => e.1 == leAt body 0 2 && e.2.1 == byteAt body 2
      (byteAt body 15 ≠ 0 → exec (.dcwHello site word mac) s = .next (s.dcwAnswer n word 4)) ∧
      (byteAt body 15 = 0 → Takes (.dcwHello site word mac) s n word fun t => Only [.host, .qos, .radio, .ctr] s t ∧
        (let y := t.site n
         y.mac = mac % 2 ^ 48 ∧ y.model = leAt body 0 2 ∧ y.hwRev = byteAt body 2 ∧ y.serial = leAt body 4 8 ∧
          (x.state = .loading → x.step = 1 → image = none → y.state = .fault) ∧
          (x.state = .loading → x.step = 1 → image ≠ none → y.state = .loading ∧ (y.step = 2 ∨ y.step = 3)) ∧
          (x.state ≠ .loading ∨ x.step ≠ 1 → y.state = x.state ∧ y.step = x.step)))) ∧
    (∀ word body : Bytes, dcwBody 0x81 4 word = some body →
      (x.state ≠ .loading ∨ x.step ≠ 3 → exec (.dcwReady site word) s = .next (s.dcwAnswer n word 0)) ∧
      (x.state = .loading → x.step = 3 → Takes (.dcwReady site word) s n word fun t => Only [.qos, .radio, .ctr] s t ∧
        (t.site n).state = .syncing ∧ (t.site n).step = 4 ∧ (t.site n).imageVer = leAt body 0 4 ∧ (t.site n).wseq = x.wseq + 7 ∧
        (t.site n).waiting.length = x.waiting.length + 7)) ∧
    (∀ (word body : Bytes), dcwBody 0x82 4 word = some body → byteAt body 3 = 0 →
      (x.waiting.find? (·.wseq == leAt body 0 2) = none → exec (.dcwAck site word) s = .next (s.dcwAnswer n word 0)) ∧
      ∀ w : DcwWait, x.waiting.find? (·.wseq == leAt body 0 2) = some w → x.step ≠ 2 →
        Takes (.dcwAck site word) s n word fun t => Only [.radio, .ctr] s t ∧
          (t.site n).waiting = x.waiting.filter (·.wseq != leAt body 0 2) ∧
          (byteAt body 2 ≠ 2 → t.ctr = s.ctr) ∧ (byteAt body 2 = 2 →
            t.counter (.site n .txRangeRefused) = (s.counter (.site n .txRangeRefused) + 1) % 2 ^ 32)) ∧
    (∀ (band : Fin 3) (word body : Bytes), dcwBody 0x83 8 word = some body → wordBand word = band.val →
      let rl := sleAt body 0 2 - sleAt body 2 2
      let t : Tuner := tget {} x.tuners band.val
      let c := s.siteCfg n
      let low := if rl < c.rlAlarm then t.low + 1 else 0
      let high := if (c.rlAlarm : Int) + 4 ≤ rl then t.high + 1 else 0
      rangeZero body 5 7 = true → s.siteRuns n = true →
        Takes (.dcwTunerReport site band word) s n word fun u => Only [.host, .radio] s u ∧
          (let y : Tuner := tget {} (u.site n).tuners band.val
           y.rl = some rl ∧ y.low = low ∧ y.high = high ∧ y.stepped = none ∧ y.mayStep = true ∧
            (y.alarm = true ↔ (t.alarm = false ∧ 3 ≤ low) ∨ (t.alarm = true ∧ high < 3)) ∧ (y.alarm = t.alarm → u.host = s.host))) ∧
    (∀ word body : Bytes, dcwBody 0x84 20 word = some body → byteAt body 0 < 32 → rangeZero body 2 3 = true →
      rangeZero body 16 19 = true →
      let locked := bit (byteAt body 0) 0
      Takes (.dcwStatus site word) s n word fun t => Only [.host, .radio, .ctr] s t ∧
        (let y := t.site n
         y.ptpLocked = locked ∧ y.tempC = sleAt body 1 1 ∧
          (x.state = .syncing → locked = true → y.state = .inService ∧ y.step = 5 ∧ y.failures = 0 ∧
            y.loads = if x.step = 4 then min 255 (x.loads + 1) else x.loads) ∧
          (x.state = .inService → locked = false → y.state = .syncing ∧ y.reason = 5) ∧
          (x.state ≠ .syncing → x.state ≠ .inService → y.state = x.state)) ∧
        t.counter (.site n .dlUnderrun) = leAt body 8 4 % 2 ^ 32 ∧ t.counter (.site n .dlLate) = leAt body 12 4 % 2 ^ 32) ∧
    (∀ (word body : Bytes) (sent rx : Nat), dcwBody 0x85 8 word = some body →
      let delay := (rx - sent - leAt body 4 4) / 2
      let read := s.modSite n fun x => { x with echo := none }
      (x.echo.map (·.1) ≠ some (leAt body 0 4) → exec (.dcwEchoReply site word sent rx) s = .next (s.dcwAnswer n word 0)) ∧
      (x.echo.map (·.1) = some (leAt body 0 4) →
        (s.leads = true → exec (.dcwEchoReply site word sent rx) s =
          .next ((read.carry 16 (.measure (.delay n delay))).dcwAnswer n word 0)) ∧
        (s.leads = false → s.follows = true → exec (.dcwEchoReply site word sent rx) s = .next (read.dcwAnswer n word 0)) ∧
        (s.leads = false → s.follows = false → Takes (.dcwEchoReply site word sent rx) s n word fun t =>
          (t.site n).delayNs = delay ∧ (t.site n).echo = none ∧
            (x.state = .inService → (250000 < delay → (t.site n).state = .down ∧ (t.site n).reason = 8) ∧
              (delay ≤ 250000 → (t.site n).state = .inService))))) ∧
    (let fails (t : State) : Prop := (t.site n).failures = x.failures + 1 ∧
        (3 ≤ x.failures + 1 → x.state ≠ .fault → (t.site n).state = .fault)
     let failing (c : Instr) : Prop := Gives c s fails
     let leaving (c : Instr) (reason : Nat) : Prop := Gives c s fun t => Only [.host, .ports, .radio, .ctr] s t ∧
        (t.site n).state = .down ∧ (t.site n).reason = reason ∧ (t.site n).waiting = []
     (∀ word body : Bytes, dcwBody 0x86 4 word = some body →
        let band := if wordBand word = 3 then 0xFF else wordBand word
        (byteAt body 0 = 6 → x.state = .loading → Takes (.dcwPruAlarm site word) s n word fails) ∧
        (byteAt body 0 = 2 → Takes (.dcwPruAlarm site word) s n word fun t => Only [.host, .radio, .ctr] s t ∧ (t.site n).state = x.state ∧
          t.host = (s.siteEvent 0x080B n band 2).host ∧
          t.counter (.site n .txRangeRefused) = (s.counter (.site n .txRangeRefused) + 1) % 2 ^ 32) ∧
        (byteAt body 0 = 3 → exec (.dcwPruAlarm site word) s = .next ((s.siteEvent 0x080B n band 3).dcwAnswer n word 0))) ∧
     (∀ wseq w, x.waiting.find? (·.wseq == wseq) = some w →
        (w.sends < 4 → (∀ p, s.sitePort n = some p → p < 256) → Gives (.dcwRetryTimeout site wseq) s fun t =>
          Only [.qos, .radio, .ctr] s t ∧
          (t.site n).waiting = x.waiting.map (fun y => if y.wseq = wseq then { y with sends := y.sends + 1 } else y) ∧
          t.counter (.site n .dcwRetries) = (s.counter (.site n .dcwRetries) + 1) % 2 ^ 32) ∧
        (4 ≤ w.sends → x.state = .inService → leaving (.dcwRetryTimeout site wseq) 3) ∧
        (4 ≤ w.sends → x.state = .loading ∨ x.state = .syncing → failing (.dcwRetryTimeout site wseq))) ∧
     (∀ stage : Fin 4, x.step = stage.val + 1 → x.state = .loading ∨ x.state = .syncing → failing (.pruLoadTimeout site stage)) ∧
     (∀ stage : Fin 4, x.step ≠ stage.val + 1 → exec (.pruLoadTimeout site stage) s = .next s) ∧
     (x.state = .inService → leaving (.statusTimeout site) 4) ∧ (x.state ≠ .inService → exec (.statusTimeout site) s = .next s))

end Sys2Proof.Claims

/-- Sites: the loops of the front end, baseband lanes with their spares, and the words and timers of a PRU (R289, R298, R303,
R310, R314, R315, R323 to R326). -/
def Obligations.SitesFollowTheirPrus : Prop := FrontEndLoops ∧ LanesAreSpared ∧ PruWordsMoveTheirSite

/-! ### The mesh and the MRAM -/

namespace Sys2Proof.Claims

/-- Secured frames (R453, R455, R464): the checks in their order, and what a frame that passes them writes. -/
def SecuredFramesAreChecked : Prop :=
  ∀ (s : State) (a : AirFrame),
    let d := a.domain.val
    let u := s.takeDecoded a
    (s.inService = false → exec (.securedFrameRx a) s = .next s) ∧
    (s.inService = true → (mpduOf a).bind parseMac = none → exec (.securedFrameRx a) s = .next u) ∧
    (∀ (f : MacFrame) (c : DomainCfg) (i : Image) (cell : Cell) (h : Nat) (n : NodeRec) (key : Bytes), s.inService = true →
      (mpduOf a).bind parseMac = some f → (s.meshDom d).cfg = some c → (s.domain d).imageFor (fun j => a.slot * j.slotNs) = some i →
      i.cellIn a.slot a.cell = some cell → f.secured6 1 c.panId = true → cell.rx = true → cell.type ≠ 4 → s.sourceOf d f = some h →
      s.node h = some n → (s.nodeKey d n.eui).2 = some key →
      let old := decide (f.counter ≤ n.rxCounter) || decide (0xFFFFFFFF ≤ f.counter)
      (f.keyIndex ≠ s.keyIndex d → Gives (.securedFrameRx a) s fun t => t.node h = some n ∧
        t.counter (.domain d .rxBadIndex) = (s.counter (.domain d .rxBadIndex) + 1) % 2 ^ 32) ∧
      (f.keyIndex = s.keyIndex d → old = true → n.isCopy a = true → Gives (.securedFrameRx a) s fun t => t.node h = some n ∧
        t.counter (.domain d .rxDup) = (s.counter (.domain d .rxDup) + 1) % 2 ^ 32) ∧
      (f.keyIndex = s.keyIndex d → old = true → n.isCopy a = false → Gives (.securedFrameRx a) s fun t =>
        ∃ y, t.node h = some y ∧ y.replay = satAdd 16 n.replay 1 ∧ y.rxCounter = n.rxCounter ∧ y.rxFrames = n.rxFrames ∧
          y.state = n.state) ∧
      (f.keyIndex = s.keyIndex d → old = false → Config.ccmOpen key (ccmNonce n.eui f.counter f.level) f.header f.rest = none →
        Gives (.securedFrameRx a) s fun t => ∃ y, t.node h = some y ∧ y.authFail = satAdd 16 n.authFail 1 ∧ y.rxCounter = n.rxCounter ∧
          y.rxFrames = n.rxFrames ∧ y.state = n.state) ∧
      (∀ p, f.keyIndex = s.keyIndex d → old = false → Config.ccmOpen key (ccmNonce n.eui f.counter f.level) f.header f.rest = some p →
        cell.type = 0 → f.payloadIes = false → Gives (.securedFrameRx a) s fun t =>
          (∃ y, t.node h = some y ∧ y.rxCounter = f.counter ∧ y.rxFrames = (n.rxFrames + 1) % 2 ^ 32 ∧ y.state = 2 ∧ y.eui = n.eui ∧
            y.queue = n.queue) ∧
          (cell.node ≠ h → t.counter (.domain d .rxWrongNode) = (s.counter (.domain d .rxWrongNode) + 1) % 2 ^ 32 ∧ t.fwd = s.fwd) ∧
          (cell.node = h → p = [] → t.fwd = s.fwd ∧ t.mesh.reasm = s.mesh.reasm)))

/-- A watched frame leaves its queue when it is acknowledged, or with its packet when it has had all its attempts; else it
waits for its next one (R420, R463). -/
def WatchesSettleTheirFrame : Prop :=
  ∀ (s : State) (h : Nat),
    (s.mesh.awaits.find? (·.handle == h) = none → ∀ ack, exec (.downlinkAckRx h ack) s = .next s) ∧
    (∀ w : Await, s.mesh.awaits.find? (·.handle == h) = some w →
      let u : State := { s with mesh := { s.mesh with awaits := s.mesh.awaits.erase w } }
      (s.domainNs w.domain < w.closes → exec (.downlinkAckRx h none) s = .next s) ∧
      (w.closes ≤ s.domainNs w.domain → ∀ f : DlFrame, s.dlFrame h w.frame = some f →
        (f.attempts ≤ s.retryLimit w.domain → exec (.downlinkAckRx h none) s = .next u) ∧
        (s.retryLimit w.domain < f.attempts → Gives (.downlinkAckRx h none) s fun t =>
          ∀ n, t.node h = some n → ∀ x ∈ n.queue, x.packet ≠ f.packet)) ∧
      (∀ (a : AirFrame) (c : DomainCfg) (f : MacFrame), (s.meshDom w.domain).cfg = some c → (mpduOf a).bind parseMac = some f →
        f.secured6 2 c.panId = false ∨ s.heardIn w a = false → exec (.downlinkAckRx h (some a)) s = .next (s.takeDecoded a)) ∧
      (∀ (a : AirFrame) (c : DomainCfg) (f : MacFrame) (p : Bytes), (s.meshDom w.domain).cfg = some c → (mpduOf a).bind parseMac = some f →
        f.secured6 2 c.panId = true → s.heardIn w a = true → ((s.takeDecoded a).authenticate w.domain a f).2 = some (h, p) →
        Gives (.downlinkAckRx h (some a)) s fun t => ∀ n, t.node h = some n → ∀ x ∈ n.queue, x.id ≠ w.frame))

/-- Join requests (R446 to R450): the refusals in their order, the repeat of one still being processed, and the record and
response of one that is accepted. -/
def JoinsAreJudgedInOrder : Prop :=
  ∀ (s : State) (a : AirFrame),
    let d := a.domain.val
    let u := s.takeDecoded a
    let counts (x : DomainCtr) : Prop := Gives (.joinRequest a) s fun t => t.mesh.nodes = s.mesh.nodes ∧ t.mesh.domains = s.mesh.domains ∧
      t.counter (.domain d x) = (s.counter (.domain d x) + 1) % 2 ^ 32
    (s.inService = false → exec (.joinRequest a) s = .next s) ∧
    (s.inService = true → s.mccAway d = true → Gives (.joinRequest a) s fun t => Only [.procs, .radio] s t ∧
      (s.procs.held.length < Config.holdingMax → t.procs = { s.procs with held := s.procs.held ++ [(true, a)] }) ∧
      (Config.holdingMax ≤ s.procs.held.length → t.procs = { s.procs with heldLost := s.procs.heldLost + 1 })) ∧
    (s.inService = true → s.mccAway d = false → s.cellType a ≠ 4 → exec (.joinRequest a) s = .next u) ∧
    (s.inService = true → s.mccAway d = false → s.cellType a = 4 → ∀ mpdu, mpduOf a = some mpdu →
      ((s.meshDom d).cfg = none ∨ s.domainTenant d = none ∨ s.slotState (32 + d) ≠ 1 → counts .joinClosed) ∧
      ∀ (c : DomainCfg) (t : Nat), (s.meshDom d).cfg = some c → s.domainTenant d = some t →
        (c.joinOpen = false → counts .joinClosed) ∧
        (c.joinOpen = true → s.slotState (32 + d) = 1 →
          ((parseMac mpdu).bind (fun f => joinIe f c.panId) = none → counts .joinMalformed) ∧
          ∀ (eui : Nat) (b : Bytes) (tjk root : KeySlot), (parseMac mpdu).bind (fun f => joinIe f c.panId) = some (eui, b) →
            (s.useSlot (16 + t)).2 = some tjk → (s.useSlot (32 + d)).2 = some root →
            let still := eui ∈ s.inProcess d
            (still → Gives (.joinRequest a) s fun t => t.mesh.nodes = s.mesh.nodes ∧ t.mesh.domains = s.mesh.domains ∧
              ∀ x, t.counter (.domain d x) = s.counter (.domain d x)) ∧
            let ok := slice b 86 8 = (Config.cmac (deriveJoinKey tjk.value eui) (joinMicInput eui c.panId b)).take 8
            let room := (s.meshDom d).joinQ.length + (s.inProcess d).length < maxJoinQ
            let claim := if bit (leAt b 4 4) 31 then some (leAt b 4 4 % 2 ^ 17) else none
            (¬still →
            (¬ok → counts .joinAuthFail) ∧
            (ok → ¬room → counts .joinQueueDrop) ∧
            (ok → room → (d, eui) ∈ s.mesh.barred → s.leads = false → s.follows = false → Gives (.joinRequest a) s fun t =>
              t.mesh.nodes = s.mesh.nodes ∧ ∃ r, (t.meshDom d).joinQ = (s.meshDom d).joinQ ++ [r] ∧ r.handle = none ∧ r.eui = eui) ∧
            (∀ h, ok → room → (d, eui) ∉ s.mesh.barred → u.chooseHandle d eui claim = some h →
              ((ecdhP256 (joinScalar root.value) (slice b 22 64)).1 ≠ 0 → counts .joinBadKey) ∧
              ((ecdhP256 (joinScalar root.value) (slice b 22 64)).1 = 0 → s.leads = false → s.follows = false →
                Gives (.joinRequest a) s fun t =>
                  (∃ y, t.node h = some y ∧ y.state = 1 ∧ y.keyIndex = s.keyIndex d ∧ y.dlqLimit = c.dlqDefault ∧ y.joinSent = none ∧
                    y.rejoin = (s.node h).isSome ∧
                    (s.node h = none → y.eui = eui ∧ y.domain = d ∧ y.rxCounter = 0 ∧ y.queue = [])) ∧
                  (s.mesh.sends.all (·.handle != h) = true → ∀ k, k ≠ h → t.node k = s.node k) ∧
                  ∃ r, (t.meshDom d).joinQ = (s.meshDom d).joinQ ++ [r] ∧ r.handle = some h ∧ r.eui = eui)))))

/-- Packets down and the timers of the mesh (R442, R450, R460, R464, R467, R472). -/
def PacketsAndMeshTimers : Prop :=
  (∀ (s : State) (d : Fin 64) (b : Bytes),
    let u : State := s.tookBorder d.val b
    let len := 40 + beAt b 4 2
    let drops (P : State → Prop) : Prop := Gives (.borderPacket d b) s fun t => Only [.fwd, .ctr] s t ∧ t.fwd = u.fwd ∧
      t.counter (.domain d.val .borderDrop) = (s.counter (.domain d.val .borderDrop) + 1) % 2 ^ 32 ∧ P t
    (s.inService = false → exec (.borderPacket d b) s = .next s) ∧
    (s.inService = true → ((s.meshDom d.val).cfg = none → drops fun _ => True) ∧
      ∀ c, (s.meshDom d.val).cfg = some c →
        (byteAt b 0 / 16 ≠ 6 ∨ c.mtu < len ∨ b.length < len → drops fun _ => True) ∧
        (byteAt b 0 / 16 = 6 → len ≤ c.mtu → b.length = len →
          (byteAt b 24 = 0xFF → byteAt b 25 ≠ 2 → byteAt b 25 ≠ 3 → drops fun _ => True) ∧
          (byteAt b 24 ≠ 0xFF → (∀ h, (shortOf c.pfx (slice b 24 16)).bind (s.handleOf d.val) = some h → s.isJoined h = false) →
            drops fun t => t.counter (.domain d.val .noNodeDrop) = (s.counter (.domain d.val .noNodeDrop) + 1) % 2 ^ 32) ∧
          ∀ h, byteAt b 24 ≠ 0xFF → (shortOf c.pfx (slice b 24 16)).bind (s.handleOf d.val) = some h → s.isJoined h = true →
            let p := u.planUnicast d.val h c b
            (p.2 = none → exec (.borderPacket d b) s = .next (p.1.count (.domain d.val .noRouteDrop))) ∧
            ∀ q, p.2 = some q →
              let limit := match p.1.node q.first with | some n => n.dlqLimit | none => 1024
              (limit < p.1.dlCount d.val q.first + q.payloads.length ∨ p.1.storeRoom q.payloads = false →
                exec (.borderPacket d b) s = .next (p.1.count (.domain d.val .dlqFullDrop))) ∧
              (p.1.dlCount d.val q.first + q.payloads.length ≤ limit → p.1.storeRoom q.payloads = true →
                exec (.borderPacket d b) s = .next (p.1.queuePacket d.val (some q.first) none q.payloads))))) ∧
  (∀ (s : State) (h : Nat),
    (s.node h = none → exec (.joinTimeout h) s = .next s ∧ ∀ x, exec (.nodeStoreScrub h x) s = .next s) ∧
    (∀ n, s.node h = some n →
      (n.joinSent = none ∨ n.state ≠ 1 → exec (.joinTimeout h) s = .next s) ∧
      (∀ t0 c, n.joinSent = some t0 → (s.meshDom n.domain).cfg = some c → n.state = 1 →
        (s.domainNs n.domain < t0 + 2 * c.joinWaitS * 1000000000 → exec (.joinTimeout h) s = .next s) ∧
        (t0 + 2 * c.joinWaitS * 1000000000 ≤ s.domainNs n.domain → n.domain < 64 → Gives (.joinTimeout h) s fun t =>
          Only [.host, .radio, .mesh, .pair, .ctr] s t ∧ t.node h = none ∧
            t.counter (.domain n.domain .joinTimeout) = (s.counter (.domain n.domain .joinTimeout) + 1) % 2 ^ 32)) ∧
      exec (.nodeStoreScrub h false) s = .next s ∧
      (Gives (.nodeStoreScrub h true) s fun t => Only [.host, .radio, .mesh, .pair, .ctr] s t ∧ t.node h = none)) ∧
    ∀ tag,
      (tget none s.mesh.reasm (reasmKey h tag) = none → exec (.reasmTimeout h tag) s = .next s) ∧
      ∀ x, tget none s.mesh.reasm (reasmKey h tag) = some x →
        (s.time.duration < x.since + 10 * secCounts → exec (.reasmTimeout h tag) s = .next s) ∧
        (x.since + 10 * secCounts ≤ s.time.duration → Gives (.reasmTimeout h tag) s fun t => Only [.mesh, .ctr] s t ∧
          tget none t.mesh.reasm (reasmKey h tag) = none ∧ (∀ k, k ≠ reasmKey h tag → tget none t.mesh.reasm k = tget none s.mesh.reasm k) ∧
          ∀ n, s.node h = some n →
            t.counter (.domain n.domain .reasmDrop) = (s.counter (.domain n.domain .reasmDrop) + 1) % 2 ^ 32)) ∧
  (∀ (s : State) (f : Fin 17) (tag : Nat),
    (s.mesh.sends.find? (fun c => c.fn == f.val && c.tag == tag) = none → exec (.nodeSendDeadline f tag) s = .next s) ∧
    ∀ c n, s.mesh.sends.find? (fun c => c.fn == f.val && c.tag == tag) = some c → s.node c.handle = some n →
      (s.domainNs n.domain < c.deadline ∨ s.mgcDown c.fn = true → exec (.nodeSendDeadline f tag) s = .next s) ∧
      (s.mgcDown c.fn = false → c.deadline ≤ s.domainNs n.domain → Gives (.nodeSendDeadline f tag) s fun t => Only [.host, .mesh, .pair] s t ∧
        t.mesh.sends = s.mesh.sends.filter fun x => !(x.fn == f.val && x.tag == tag))) ∧
  ∀ (s : State) (d : Fin 64),
    ((s.meshDom d.val).dist = none → exec (.distEnd d) s = .next s) ∧
    ∀ x, (s.meshDom d.val).dist = some x →
      (s.domainNs d.val < x.endNs → exec (.distEnd d) s = .next s) ∧
      (x.endNs ≤ s.domainNs d.val → Gives (.distEnd d) s fun t => Only [.host, .mesh, .pair] s t ∧ t.mesh.nodes = s.mesh.nodes ∧
        t.meshDom d.val = { s.meshDom d.val with dist := none } ∧ ∀ k, k ≠ d.val → t.meshDom k = s.meshDom k)

/-- The oldest staged commit is in force; a journal record waits while the journal is full, and a full journal is folded into
a blob unless an older one is kept (R510, R512, R513). -/
def CommitsComeIntoForce : Prop :=
  ∀ s : State,
    (s.nv.staged = [] → exec .mramCommitDone s = .next s) ∧
    (∀ c reply rest, s.nv.staged = .journal c reply :: rest →
      (journalSize ≤ s.nv.journalUsed → exec .mramCommitDone s = .next s) ∧
      (s.nv.journalUsed < journalSize → Gives .mramCommitDone s fun t => Only [.host, .nv, .ports, .ctr] s t ∧
        t.ports = (match reply with | some (r, _) => (s.cutAnswered r).ports | none => s.ports) ∧
        t.nv = { s.nv with staged := rest, journal := some c, journalUsed := s.nv.journalUsed + 1 } ∧
        t.counter (.device .journalRecords) = (s.counter (.device .journalRecords) + 1) % 2 ^ 32 ∧ (reply = none → t.host = s.host))) ∧
    (∀ d l rest, s.nv.staged = .lease [(d, l)] :: rest → (s.meshDom d).held = [] → Gives .mramCommitDone s fun t =>
      Only [.host, .nv, .mesh, .pair] s t ∧ t.nv = { s.nv with staged := rest, leases := tset {} s.nv.leases d l } ∧
      (let m := s.meshDom d
       let y := t.meshDom d
       (m.nextEpoch = some l.epoch → y.nextEpoch = none ∧ y.outCounter = 0 ∧ y.rekeys = []) ∧
       (m.nextEpoch ≠ some l.epoch → y.nextEpoch = m.nextEpoch ∧ y.outCounter = m.outCounter ∧ y.rekeys = m.rekeys)) ∧
      t.mesh.nodes = s.mesh.nodes) ∧
    (s.nv.journalUsed < journalSize ∨ s.nv.oldBlob.isSome = true → exec .journalCompaction s = .next s) ∧
    (journalSize ≤ s.nv.journalUsed → s.nv.oldBlob = none → Gives .journalCompaction s fun t => Only [.nv] s t ∧
      ∃ b, t.nv = { s.nv with blob := some b, journal := none, journalUsed := 0 } ∧ b.cfg = s.nv.journal.getD s.cfg ∧
        (∀ x, s.nv.blob = some x → b.seq = x.seq + 1) ∧ (s.nv.blob = none → b.seq = 1 ∧ b.version = s.ms.setVersion))

end Sys2Proof.Claims

/-- The mesh and its commits: secured frames, watches, joins, packets down, the timers, and what an MRAM commit brings into
force (R442, R446 to R450, R453, R455, R460, R463, R464, R467, R472, R510, R512, R513). -/
def Obligations.MeshAndCommitsTakeTheirEvents : Prop :=
  SecuredFramesAreChecked ∧ WatchesSettleTheirFrame ∧ JoinsAreJudgedInOrder ∧ PacketsAndMeshTimers ∧ CommitsComeIntoForce

/-! ### The pair -/

namespace Sys2Proof.Claims

/-- The item that a message of the Pair Link carries, with its release epoch. -/
def itemOf : Instr → Option (Nat × Release)
  | .pairEffect e x => some (e, .effect x)
  | .pairMeasure e x => some (e, .measure x)
  | .pairLearn e p m => some (e, match m with
    | .learn mac vlan port move => .learn p.val { mac := mac, vlan := vlan, port := port, move := move }
    | .aged mac vlan => .aged p.val mac vlan)
  | .pairRetire e c p => some (e, .retire c.toNat p.val)
  | .pairSeed e x => some (e, .seed (leBytes 16 x.toNat))
  | .pairInject e x => some (e, .inject x)
  | _ => none

/-- The items that either device may carry (R553, R554). -/
def eitherWay : Release → Prop
  | .retire _ _ => True
  | .effect (.leases _) => True
  | _ => False

/-- The Pair Link comes up, degrades, and goes down (R539, R542, R543, R570, R573). -/
def PairLinkComesAndGoes : Prop :=
  ∀ s : State,
    (s.procs.loaded = false ∨ s.pair.linkUp = true → exec .pairLinkUp s = .next s) ∧
    (s.procs.loaded = true → s.pair.linkUp = false → Gives .pairLinkUp s fun t => Only [.pair] s t ∧
      t.pair = { s.pair with linkUp := true, laneFailed := 0, helloRx := false, keySent := 0, keyFails := 0,
                             sent := .hello :: s.pair.sent, cseq := s.pair.cseq + 1, unacked := [(s.pair.cseq, 1)] }) ∧
    (s.pair.linkUp = false → exec .pairLinkTimeout s = .next s ∧ exec .pairCellResend s = .next s ∧
      ∀ lane, exec (.pairLaneFail lane) s = .next s) ∧
    (s.pair.linkUp = true → s.ms.mode ≠ .m6 → Gives .pairLinkTimeout s fun t =>
      t.pair.linkUp = false ∧ t.pair.formed = false ∧ t.ms.standbyHeld = false ∧
      (s.ms.mode = .m4 → s.ms.inTransition = false → t.ms.mode = .m3 ∧ t.pair.partnerLost = true) ∧
      (s.ms.mode = .m5 → s.pair.phase ≠ 0 → t.ms.mode = .m5 ∧ t.ms.synced = false ∧ t.pair.phase = 0 ∧
        t.pair.resumeAt = if 3 ≤ s.pair.phase then 3 else 2) ∧
      (s.ms.mode ≠ .m4 → s.ms.mode ≠ .m5 → Only [.ms, .pair] s t ∧ t.ms.mode = s.ms.mode ∧ t.pair.peerPhase = 0)) ∧
    (s.pair.linkUp = true → Gives .pairCellResend s fun t => Only [.ctr] s t ∧ t.counter (.device .pairCellResent) =
      (s.counter (.device .pairCellResent) + sumNat (s.pair.unacked.map (·.2))) % 2 ^ 64) ∧
    (∀ lane : Fin 8, s.pair.linkUp = true →
      let u := s.modPair fun p => { p with laneFailed := p.laneFailed ||| BitVec.ofNat 8 (2 ^ lane.val) }
      (u.pair.lanesUp = 0 → exec (.pairLaneFail lane) s = .next u.pairDown) ∧
      (u.pair.lanesUp = s.pair.lanesUp → u.pair.lanesUp ≠ 0 → exec (.pairLaneFail lane) s = .next u) ∧
      (u.pair.lanesUp ≠ s.pair.lanesUp → u.pair.lanesUp ≠ 0 → Gives (.pairLaneFail lane) s fun t => Only [.host, .pair] s t ∧
        t.pair = u.pair))

/-- HELLO and HEARTBEAT (R42, R541, R542, R565, R566, R570, R573). -/
def PairGreetings : Prop :=
  ∀ s : State,
    (∀ payload : Bytes,
      let h := helloOf payload
      let why := s.helloRefused h
      (s.pair.linkUp = false → exec (.pairHello payload) s = .next s) ∧
      (s.pair.linkUp = true → Gives (.pairHello payload) s fun t => Only [.ms, .host, .pair] s t ∧ t.ms.mode = s.ms.mode ∧
        t.pair.peer = some h ∧ t.pair.helloRx = true ∧ t.pair.refused = why ∧ t.pair.formed = (why == 0) ∧ t.pair.peerMode = h.mode ∧
        (why = 0 → t.ms.standbyHeld = false) ∧ (why ≠ 0 → s.ms.mode = .m5 → t.ms.standbyHeld = true) ∧
        (why = 0 → s.ms.mode = .m5 → syncMode h.mode = true → s.pair.phase ≤ 1 → t.pair.phase = s.pair.resumeAt))) ∧
    (∀ (mode : Fin 8) (synced faults : Bool) (cseq : BitVec 32),
      let c : Instr := .pairHeartbeat mode synced faults cseq
      (s.pair.linkUp = false → exec c s = .next s) ∧
      (s.pair.linkUp = true →
        (s.ms.inTransition = false → s.ms.mode = .m3 → mode.val = 5 → s.pair.formed = true → synced = true → Gives c s fun t => t.ms.mode = .m4 ∧
          t.pins.aliveIn = true ∧ t.pair.peerPhase = 6 ∧ t.pair.peerSynced = true) ∧
        (s.ms.inTransition = false → s.ms.mode = .m4 → mode.val ≠ 5 → mode.val ≠ 6 → Gives c s fun t => t.ms.mode = .m3 ∧ t.pair.partnerLost = true ∧
          t.pins.aliveIn = true) ∧
        (faults = false → s.ms.mode ≠ .m6 → Gives c s fun t => t.pins.aliveIn = true ∧ t.pair.peerMode = mode.val) ∧
        (faults = false → s.ms.inTransition = false → s.ms.mode = .m4 → mode.val = 5 ∨ mode.val = 6 → Gives c s fun t => Only [.pins, .pair] s t ∧
          t.pair.peerSynced = synced) ∧
        (faults = false → s.ms.inTransition = false → s.ms.mode = .m5 → syncMode mode.val = false → s.pair.phase ≠ 0 → Gives c s fun t =>
          Only [.ms, .host, .pins, .pair] s t ∧ t.ms.synced = false ∧ t.pair.phase = 0) ∧
        (faults = false → s.ms.mode ≠ .m3 → s.ms.mode ≠ .m4 → s.ms.mode ≠ .m5 → s.ms.mode ≠ .m6 → Gives c s fun t =>
          Only [.pins, .pair] s t)))

/-- Digests, arbitration and self-checks (R558 to R562). -/
def PairArbitrates : Prop :=
  ∀ s : State,
    (∀ (e : Nat) (l : List (Fin 256 × BitVec 64)),
      let theirs := l.map fun x => (x.1.val, x.2.toNat)
      let at_ (l : List (Nat × Nat)) (p : Nat) : Nat := match l.find? fun x => x.1 == p with | some x => x.2 | none => 0
      let differ := (List.range 256).filter fun p => at_ (s.pair.ownDigests e) p != at_ theirs p && !s.exemptPort p
      (s.pair.linkUp = false ∨ s.compares = false → exec (.pairDigest e l) s = .next s) ∧
      (s.pair.linkUp = true → s.compares = true →
        (s.pair.nextDigest ≤ e → exec (.pairDigest e l) s =
          .next (s.modPair fun p => { p with digests := tset none p.digests e (some theirs) })) ∧
        (e < s.pair.nextDigest → differ = [] → Gives (.pairDigest e l) s fun t => Only [.pair] s t ∧
          t.pair.agreed = s.pair.agreed + 1 ∧ t.pair.check = s.pair.check) ∧
        (e < s.pair.nextDigest → differ ≠ [] → s.ms.synced = true ∨ s.pair.peerSynced = true → s.pair.watchLeft = 0 →
          Gives (.pairDigest e l) s fun t => t.pair.check.isSome = true ∧ t.pair.agreed = 0))) ∧
    (∀ m, s.pair.linkUp = false ∨ s.paired = false → exec (.pairArbitrate m) s = .next s) ∧
    (∀ e p, s.pair.linkUp = true → s.paired = true → Gives (.pairArbitrate (.notice e p)) s fun t =>
      ∃ c, t.pair.check = some c ∧ ∀ x ∈ s.implicated (p % 256), x ∈ c.slices) ∧
    (s.pair.check = none → exec .selfCheckTimeout s = .next s ∧ ∀ f, exec (.selfCheckDone f) s = .next s) ∧
    (∀ c : SelfCheck, s.pair.check = some c →
      -- `mine` and `theirs` are the reports of this device and of its partner
      let ends (i : Instr) (mine theirs : Bool) : Prop := Gives i s fun t =>
        let standby := if s.follows then mine else theirs
        let active := if s.follows then theirs else mine
        t.pair.check = none ∧ t.pair.lastArb = (1 + b2n standby + 2 * b2n active, c.slices.headD (1, 0)) ∧
          (s.ms.inTransition = false → s.follows = true → standby = true → t.ms.mode = .m7 ∧ t.ms.safeCause = 6) ∧
          (s.ms.inTransition = false → s.follows = false → standby = false → active = true → t.ms.mode = .m7 ∧ t.ms.safeCause = 6) ∧
          (s.ms.inTransition = false → s.follows = false → s.ms.mode = .m4 → standby = true → t.ms.mode = .m3 ∧ t.pair.partnerLost = true) ∧
          (standby = false → active = false → t.ms = s.ms ∧ t.pair.watched = c.ports ∧ t.pair.watchLeft = 64)
      (∀ f, c.mine.isSome = true → exec (.selfCheckDone f) s = .next s) ∧
      (∀ f, c.mine = none → c.partner = none → Gives (.selfCheckDone f) s fun t => Only [.pair] s t ∧
        t.pair.check = some { c with mine := some f }) ∧
      (∀ f b, c.mine = none → c.partner = some b → ends (.selfCheckDone f) f b) ∧
      (∀ f, c.mine = none → s.pair.linkUp = true → s.paired = true → Gives (.pairArbitrate (.report f)) s fun t => Only [.pair] s t ∧
        t.pair.check = some { c with partner := some f }) ∧
      (∀ f a, c.mine = some a → s.pair.linkUp = true → s.paired = true → ends (.pairArbitrate (.report f)) a f) ∧
      ends .selfCheckTimeout (c.mine.getD true) (c.partner.getD true))

/-- Carried commands, their checks, and items with a release epoch (R545 to R555, R566, R570). -/
def PairCarriesItems : Prop :=
  (∀ (s : State) (opcode : BitVec 16) (r : Aci) (release : Nat),
    let c : Instr := .pairCommand opcode r release
    (s.pair.linkUp = false ∨ s.follows = false ∨ s.pair.phase < 3 → exec c s = .next s) ∧
    (s.pair.linkUp = true → s.follows = true → 3 ≤ s.pair.phase →
      (release < s.epoch + 8 → Gives c s fun t => Only [.ms, .host, .pair] s t ∧ t.ms.synced = false ∧ t.pair.phase = 3) ∧
      (s.epoch + 8 ≤ release → carriedSpec opcode.toNat = none → exec c s = .next s) ∧
      (∀ x, s.epoch + 8 ≤ release → carriedSpec opcode.toNat = some x → Gives c s fun t => Only [.host, .pair] s t ∧
        ∃ y, t.pair.carried = s.pair.carried ++ [y] ∧ y.epoch = release ∧ y.own = false ∧ y.mine = none ∧ y.req.opcode = x.op ∧
          y.req.fn = r.fn.val))) ∧
  (∀ (s : State) (fn : Fin 17) (tag : BitVec 12) (final : Bool) (status : BitVec 16) (sub : Byte),
    let c : Instr := .pairCheck fn tag final status sub
    let st := (status.toNat, sub.toNat)
    (s.pair.linkUp = false ∨ s.paired = false → exec c s = .next s) ∧
    (s.pair.linkUp = true → s.paired = true →
      (final = false → exec c s = .next (s.modPair fun p => { p with carried := p.carried.map fun x =>
        if x.req.fn = fn.val ∧ x.req.tag % 4096 = tag.toNat then { x with partner := some st } else x })) ∧
      (final = true → s.pair.finals = [] → Gives c s fun t => Only [.pair] s t ∧ t.pair = { s.pair with
        finals := [{ fn := fn.val, tag := tag.toNat, opcode := 0, partner := some st }] }) ∧
      (∀ op tg res own w, final = true → s.mgcDown fn.val = false → tg % 4096 = tag.toNat →
        s.pair.finals = [{ fn := fn.val, tag := tg, opcode := op, mine := some (st.1, st.2, res), own := own, well := w }] →
        Gives c s fun t => Only [.host, .pair] s t ∧ t.pair = { s.pair with finals := [] } ∧ (own = false → t.host = s.host)) ∧
      (∀ op tg a b res own w, final = true → s.mgcDown fn.val = false → tg % 4096 = tag.toNat → (a, b) ≠ st → op ≠ 0x0703 → s.follows = false →
        s.pair.finals = [{ fn := fn.val, tag := tg, opcode := op, mine := some (a, b, res), own := own, well := w }] →
        Gives c s fun t => Only [.host, .pair, .ctr] s t ∧ t.pair = { s.pair with finals := [] } ∧
          t.counter (.device .pairDivergedCmds) = (s.counter (.device .pairDivergedCmds) + 1) % 2 ^ 32))) ∧
  (∀ (s : State) (c : Instr) (e : Nat) (r : Release), itemOf c = some (e, r) →
    let taken : State := { s with pair := { s.pair with releases := insertRelease s.pair.releases e r } }
    (s.pair.linkUp = false ∨ s.paired = false → exec c s = .next s) ∧
    (s.pair.linkUp = true → s.follows = true →
      (s.pair.phase < 3 → exec c s = .next s) ∧
      (3 ≤ s.pair.phase → s.epoch + 8 ≤ e → exec c s = .next taken) ∧
      (3 ≤ s.pair.phase → e < s.epoch + 8 → Gives c s fun t => Only [.ms, .host, .pair] s t ∧ t.ms.synced = false ∧ t.pair.phase = 3)) ∧
    (s.pair.linkUp = true → s.follows = false → s.leads = true →
      (eitherWay r → exec c s = .next taken) ∧ (¬eitherWay r → exec c s = .next s))) ∧
  ∀ (s : State) (payload : Bytes),
    let v := Config.gcmOpen s.pairKp (slice payload 4 12) [] (slice payload 16 48)
    (s.pair.linkUp = false ∨ s.follows = false → exec (.pairKey payload) s = .next s) ∧
    (s.pair.linkUp = true → s.follows = true →
      (∀ x, v = some x → exec (.pairKey payload) s = .next (s.modPair fun p =>
        { p with rootKeys := tset none p.rootKeys (byteAt payload 0 % 16) (some (fit 32 x)), keyFails := 0 })) ∧
      (v = none → s.pair.keyFails < 2 → exec (.pairKey payload) s = .next (s.modPair ({ · with keyFails := s.pair.keyFails + 1 }))) ∧
      (v = none → 2 ≤ s.pair.keyFails → exec (.pairKey payload) s = .next s.pairDown)) ∧
    (s.pair.linkUp = false ∨ s.ms.mode ≠ .m5 ∨ stateCopy payload = none → exec (.pairState payload) s = .next s) ∧
    ∀ x, s.pair.linkUp = true → s.ms.mode = .m5 → stateCopy payload = some x →
      (s.pair.phase = 3 → x.join = false → Gives (.pairState payload) s fun t => t.fwd = x.fwd ∧ t.qos = { x.qos with banksRemoved := s.qos.banksRemoved, sparesUsed := s.qos.sparesUsed, bankMap := s.qos.bankMap } ∧
        t.time.bases = x.bases ∧ t.mesh.nodes = s.mesh.nodes ∧ t.cfg.own = s.cfg.own ∧ t.pair.peerUsable = some x.usable) ∧
      (s.pair.phase = 4 → x.join = true → Gives (.pairState payload) s fun t => Only [.radio, .mesh] s t ∧ t.mesh = x.mesh ∧
        t.radio.domains = x.radio.domains ∧ t.radio.lanes = s.radio.lanes) ∧
      (s.pair.phase ≠ 3 → s.pair.phase ≠ 4 → exec (.pairState payload) s = .next s)

/-- The phases of synchronisation, and the end of an epoch in which nothing waits (R541, R543, R566 to R569, R637). -/
def PairSynchronises : Prop :=
  ∀ s : State,
    let c : Instr := .syncPhaseDone
    let on := s.pair.linkUp = true ∧ s.pair.formed = true
    (¬on → exec c s = .next s) ∧
    (on → s.ms.mode = .m5 →
      (s.pair.phase = 2 → Gives c s fun t => Only [.time, .pair, .draws] s t ∧ t.pair.phase = 3 ∧ t.time.duration % 256 = 0) ∧
      (s.pair.phase = 3 → s.pair.peerUsable = none → exec c s = .next s) ∧
      (∀ u, s.pair.phase = 3 → s.pair.peerUsable = some u →
        (s.usableNow.short u = true → Gives c s fun t => Only [.host, .pair] s t ∧ t.pair.phase = 3 ∧ t.pair.mismatchTold = true) ∧
        (s.usableNow.short u = false → Gives c s fun t => Only [.nv, .ports, .radio, .pair, .bist] s t ∧ t.pair.phase = 4 ∧
          t.pair.rootKeys = [] ∧ ∃ l, t.nv = { s.nv with keys := { s.nv.keys with staged := s.nv.keys.staged ++ l } })) ∧
      (s.pair.phase = 4 → exec c s = .next (s.modPair ({ · with phase := 5, agreed := 0 }))) ∧
      (s.pair.phase = 5 → s.pair.agreed < 64 → exec c s = .next s) ∧
      (s.pair.phase = 5 → 64 ≤ s.pair.agreed → Gives c s fun t => Only [.ms, .host, .pair] s t ∧ t.ms = { s.ms with synced := true } ∧ t.pair.phase = 6) ∧
      (s.pair.phase = 6 → exec c s = .next (s.modPair ({ · with rejoining := none })))) ∧
    (on → s.ms.mode = .m3 ∨ s.ms.mode = .m4 →
      (s.pair.peerPhase = 2 → Gives c s fun t => Only [.pair, .draws] s t ∧ t.pair.peerPhase = 3) ∧
      (s.pair.peerPhase = 3 → Gives c s fun t => Only [.pair] s t ∧ t.pair.peerPhase = 4) ∧
      (s.pair.peerPhase = 4 → exec c s = .next (s.modPair ({ · with peerPhase := 5 })))) ∧
    (let due := if s.follows then s.pair.phase = 5 else s.pair.peerPhase = 5
     (s.pair.linkUp = false ∨ ¬due → exec .syncConvergeTimeout s = .next s) ∧
     (s.pair.linkUp = true → due → Gives .syncConvergeTimeout s fun t => Only [.qos, .ctr] s t ∧
       ∀ n ∈ s.qos.policers.map (·.1), (tget {} t.qos.policers n : Policer).full = true)) ∧
    (s.ms.mode = .m0 → exec .compareEpoch s = .next s) ∧
    (s.ms.mode ≠ .m0 → s.pair.carried = [] → s.pair.releases = [] → s.pair.finals = [] → s.epoch < s.pair.nextDigest + 4 →
      Gives .compareEpoch s fun t => Only [.pair] s t ∧ t.pair.sent =
        if s.pair.linkUp then .heartbeat :: ((if s.pair.helloRx then [] else [PairMsg.hello]) ++ s.pair.sent) else s.pair.sent)

/-- ACTIVE_IN, ALIVE_IN, takeover and conflicts (R39, R42, R572 to R575). -/
def PairRolesFollowTheirSignals : Prop :=
  ∀ s : State,
    (let waits := (s.ms.mode = .m1 ∨ s.ms.mode = .m2) ∧ s.ms.bootStep = 4 ∧ s.ms.inTransition = false
     Gives .activeInRise s fun t => t.pins.activeIn = true ∧ (waits → t.ms.mode = .m5 ∧ t.pins.activeOut = false) ∧
       (¬waits → Only [.ports, .pins, .pair] s t ∧ t.pair.backoff = s.pair.backoff ∧
         (s.pair.backoff.isSome = true → t.pair.backoffRise = true))) ∧
    (Gives .activeInFall s fun t => t.pins.activeIn = false ∧
      (s.ms.inTransition = false → s.ms.mode = .m5 → s.ms.synced = true → t.ms.mode = .m3 ∧ t.ms.synced = false ∧ t.pair.tookOver = true ∧
        t.pair.takeoverUs ≤ 250 ∧ (s.pair.backoff = none → t.pins.activeOut = true)) ∧
      (s.ms.mode = .m5 → s.ms.synced = false → Only [.pins] s t) ∧
      (s.ms.mode = .m3 → Only [.pins] s t ∧ (s.ms.inTransition = false → s.pair.backoff = none → t.pins.activeOut = true))) ∧
    (let cold := s.ms.mode = .m5 ∧ s.ms.synced = false ∧ s.pins.activeIn = false ∧ s.ms.inTransition = false
     (¬cold → exec .takeoverWaitExpiry s = .next s) ∧
     (cold → Gives .takeoverWaitExpiry s fun t => t.ms.mode = .m3 ∧ t.pair.phase = 0 ∧ t.pair.carried = [] ∧ t.pair.releases = [])) ∧
    (s.ms.inTransition = false → s.ms.mode = .m4 → Gives .partnerAliveLost s fun t => t.ms.mode = .m3 ∧ t.pair.partnerLost = true ∧ t.pins.aliveIn = false) ∧
    (s.ms.mode ≠ .m4 → s.ms.mode ≠ .m6 → exec .partnerAliveLost s = .next { s with pins := { s.pins with aliveIn := false } }) ∧
    (s.pins.activeOut = false ∨ s.pins.activeIn = false ∨ s.ms.mode = .m6 → exec .activeConflict s = .next s) ∧
    (s.pins.activeOut = true → s.pins.activeIn = true → s.ms.mode ≠ .m6 → Gives .activeConflict s fun t =>
      Only [.pins, .pair, .draws] s t ∧ t.pins = { s.pins with activeOut := false } ∧ t.pair.backoffRise = false ∧
        ∃ us, t.pair.backoff = some us ∧ (s.pins.pairId = false → 10 ≤ us ∧ us ≤ 100) ∧ (s.pins.pairId = true → 1010 ≤ us ∧ us ≤ 2000)) ∧
    (s.pair.backoff = none ∨ s.ms.inTransition = true → exec .backoffExpiry s = .next s) ∧
    (s.ms.inTransition = false → s.pair.backoff.isSome = true → s.ms.mode = .m3 ∨ s.ms.mode = .m4 → Gives .backoffExpiry s fun t => t.pair.backoff = none ∧
      (s.pair.backoffRise = true ∨ s.pins.activeIn = true → t.ms.mode = .m7 ∧ t.ms.safeCause = 6 ∧ t.pins.activeOut = false) ∧
      (s.pair.backoffRise = false → s.pins.activeIn = false → t.ms = s.ms ∧ t.pins = { s.pins with activeOut := true }))

/-- A planned swap: notice, decision, entry, t0, confirmation, end and abort (R576 to R580). -/
def EquinoxSwapsInOrder : Prop :=
  ∀ s : State,
    let pairMode := s.ms.mode = .m4 ∨ s.ms.mode = .m5
    let aborted (c : Instr) : Prop := s.ms.inTransition = false → Gives c s fun t => t.pair.agreement = none ∧ t.pair.radioHold = none ∧
      t.counter (.device .equinoxAborts) = (s.counter (.device .equinoxAborts) + 1) % 2 ^ 32 ∧
      (s.ms.mode ≠ .m6 → Only [.host, .pair, .ctr] s t) ∧
      (s.ms.mode = .m6 → t.pins.activeOut = s.pair.wasActive ∧ t.pair.swapped = false ∧
        t.ms.mode = if s.pair.wasActive then .m4 else .m5)
    (pairMode → s.pair.formed = true → Gives .equinoxNotice s fun t => Only [.host] s t) ∧
    (¬pairMode ∨ s.pair.formed = false → exec .equinoxNotice s = .next s ∧ exec .equinoxDecision s = .next s) ∧
    (pairMode → s.pair.formed = true → s.skipReason = 0 → Gives .equinoxDecision s fun t => Only [.pair, .draws] s t ∧
      (∀ a, s.pair.agreement = some a → t.pair.agreement = some a) ∧
      (s.pair.agreement = none → ∃ ns, ns ≤ 16384 ∧ t.pair.agreement = some (s.nextTs, ns)) ∧
      (s.pair.linkUp = true → t.pair.sent = .equinox .agree :: s.pair.sent)) ∧
    (pairMode → s.pair.formed = true → s.skipReason ≠ 0 → Gives .equinoxDecision s fun t => Only [.host, .pair, .ctr] s t ∧
      t.pair = { s.pair with skipNext := false, agreement := none } ∧
      t.counter (.device .equinoxSkips) = (s.counter (.device .equinoxSkips) + 1) % 2 ^ 32) ∧
    (s.pair.linkUp = false → ∀ m, exec (.pairEquinoxMsg m) s = .next s) ∧
    (s.pair.linkUp = true →
      (s.ms.mode = .m5 → s.pair.agreement = none → s.skipReason = 0 → Gives (.pairEquinoxMsg .agree) s fun t =>
        Only [.pair, .draws] s t ∧ ∃ ns, ns ≤ 16384 ∧ t.pair.agreement = some (s.nextTs, ns)) ∧
      (s.ms.mode ≠ .m5 ∨ s.pair.agreement.isSome = true ∨ s.skipReason ≠ 0 → exec (.pairEquinoxMsg .agree) s = .next s) ∧
      (s.pair.agreement = none → exec (.pairEquinoxMsg .abort) s = .next s) ∧
      (s.pair.agreement.isSome = true → aborted (.pairEquinoxMsg .abort))) ∧
    (s.ms.inTransition = false → pairMode → s.pair.agreement.isSome = true → Gives .equinoxEnter s fun t => t.ms.mode = .m6 ∧ t.pair.swapped = false ∧
      t.pair.wasActive = (s.ms.mode == .m4) ∧ t.pins.activeOut = s.pins.activeOut ∧ t.ms.synced = s.ms.synced) ∧
    (¬pairMode ∨ s.pair.agreement = none ∨ s.ms.inTransition = true → exec .equinoxEnter s = .next s) ∧
    (s.ms.mode = .m6 → exec .radioStartHold s = .next (s.modPair ({ · with radioHold := some (s.time.duration + 25600) }))) ∧
    (s.ms.mode ≠ .m6 → exec .radioStartHold s = .next s) ∧
    (s.ms.mode ≠ .m6 ∨ s.pair.swapped = true ∨ s.ms.inTransition = true → exec .equinoxSwap s = .next s) ∧
    (s.ms.inTransition = false → s.ms.mode = .m6 → s.pair.swapped = false → Gives .equinoxSwap s fun t => Only [.pins, .pair, .ctr] s t ∧
      t.pins = { s.pins with activeOut := !s.pair.wasActive } ∧ t.pair.swapped = true ∧
      ∀ p : Fin 256, s.sendsTraffic p.val = true →
        t.counter (.port p.val .equinoxLoss) = (s.counter (.port p.val .equinoxLoss) + 1) % 2 ^ 32) ∧
    (let unseen := s.ms.mode = .m6 ∧ s.pair.swapped = true ∧ s.pair.wasActive = true ∧ s.pins.activeIn = false
     (¬unseen → exec .equinoxConfirmTimeout s = .next s) ∧ (unseen → s.pair.agreement.isSome = true → aborted .equinoxConfirmTimeout)) ∧
    (s.ms.mode ≠ .m6 ∨ s.pair.swapped = false ∨ s.ms.inTransition = true → exec .equinoxComplete s = .next s) ∧
    (s.ms.inTransition = false → s.ms.mode = .m6 → s.pair.swapped = true → Gives .equinoxComplete s fun t => t.pair.agreement = none ∧ t.pair.swapped = false ∧
      t.counter (.device .equinoxSwaps) = (s.counter (.device .equinoxSwaps) + 1) % 2 ^ 32 ∧
      (s.pair.wasActive = true → t.ms.mode = .m5 ∧ t.ms.synced = true ∧ t.pair.phase = 6 ∧ t.pins.activeOut = false) ∧
      (s.pair.wasActive = false → t.ms.mode = .m4 ∧ t.ms.synced = false ∧ t.pair.peerSynced = true ∧ t.pair.peerPhase = 6 ∧
        t.pins.activeOut = s.pins.activeOut)) ∧
    (s.pair.swapped = true ∨ s.pair.agreement = none → exec .equinoxAbort s = .next s) ∧
    (s.pair.swapped = false → s.pair.agreement.isSome = true → aborted .equinoxAbort)

end Sys2Proof.Claims

/-- The Pair Link and its messages: link, greetings, arbitration, items and synchronisation (R539 to R571, R637). -/
def Obligations.PairLinkCarriesItsMessages : Prop :=
  PairLinkComesAndGoes ∧ PairGreetings ∧ PairArbitrates ∧ PairCarriesItems ∧ PairSynchronises

/-- Takeover, conflicts and planned swaps (R39, R42, R572 to R580). -/
def Obligations.PairRolesChangeInOrder : Prop := PairRolesFollowTheirSignals ∧ EquinoxSwapsInOrder

/-! ### Self-test, the Service Port and observation -/

namespace Sys2Proof.Claims

/-- Tests of pipes in service, and the end of a test by command (R628, R635, R636, R639). -/
def TestsIsolateAndRestore : Prop :=
  ∀ s : State,
    (let may := s.ms.mode = .m5 ∧ s.ms.synced = true ∧ s.pair.check = none ∧ s.cfg.pipeTestMin ≠ 0 ∧ s.swapNear = false ∧
        s.pair.testing = none ∧ s.pair.rejoining = none
     (¬may ∨ s.pipeFrom s.pair.nextPipe = none → exec .pipeTestStart s = .next s) ∧
     (∀ p, may → s.pipeFrom s.pair.nextPipe = some p → Gives .pipeTestStart s fun t => Only [.ports, .pair] s t ∧
       t.pair = { s.pair with testing := some p, nextPipe := (p + 1) % 8 } ∧ tget false t.ports.pipeReset p = true)) ∧
    (s.pair.testing = none → ∀ pass, exec (.pipeTestDone pass) s = .next s) ∧
    (∀ p, s.pair.testing = some p → p < 8 →
      (Gives (.pipeTestDone true) s fun t => Only [.host, .ports, .fwd, .pair, .ctr] s t ∧ tget false t.ports.pipeReset p = false ∧
        t.pair = { s.pair with testing := none, rejoining := some p } ∧
        t.counter (.device .pipeTests) = (s.counter (.device .pipeTests) + 1) % 2 ^ 32) ∧
      (s.follows = true → Gives (.pipeTestDone false) s fun t => t.pair.testing = none ∧ t.pair.lastArb = (2, 1, p) ∧
        t.ms.mode = .m7 ∧ t.ms.safeCause = 6 ∧ tget false t.ports.pipeReset p = false)) ∧
    (s.bist.running = [] → ∀ pass, exec (.bistRunDone pass) s = .next s) ∧
    (∀ x l pass, s.bist.running = x :: l → Gives (.bistRunDone pass) s fun t =>
      Only [.host, .ports, .fwd, .mesh, .pins, .pair, .bist, .ctr, .draws] s t ∧ t.bist = { s.bist with running := l } ∧
      (x.kind = 1 → tget false t.ports.pipeReset x.slice = false) ∧ (x.kind = 6 → tget false t.ports.laneReset x.slice = false) ∧
      (x.kind = 7 → (t.portSt x.slice).inReset = false) ∧
      (x.kind = 11 → ∀ h, h / 4096 = x.slice → t.node h = none) ∧ (x.kind ≠ 11 → t.mesh = s.mesh) ∧
      (let passed := pass = true ∧ 5 * (s.time.duration - x.since) ≤ 8 * budgetNs x.kind
       x.kind ≠ 1 →
         (passed → t.counter (.device .bistFails) = s.counter (.device .bistFails)) ∧
         (¬passed → t.counter (.device .bistFails) = (s.counter (.device .bistFails) + 1) % 2 ^ 32)))

/-- The Service Port: its frames, its sessions and the install (R595, R596, R603 to R607, R620, R626). -/
def ServicePortTakesItsFrames : Prop :=
  ∀ s : State,
    let fails (c : Instr) : Prop := Gives c s fun t => Only [.svc, .ctr, .draws] s t ∧ t.svc = { s.svc with linkUp := true } ∧
      t.counter (.device .svcAuthFail) = (s.counter (.device .svcAuthFail) + 1) % 2 ^ 32
    (∀ frame,
      (s.ms.mode = .m0 ∨ s.svcAccepts frame = true → exec (.servicePortForeignFrame frame) s = .next s) ∧
      (s.ms.mode ≠ .m0 → s.svcAccepts frame = false → Gives (.servicePortForeignFrame frame) s fun t => Only [.svc, .ctr] s t ∧
        t.svc = { s.svc with linkUp := true } ∧ t.counter (.device .svcForeign) = (s.counter (.device .svcForeign) + 1) % 2 ^ 32 ∧
        t.counter (.device .svcRxFrames) = (s.counter (.device .svcRxFrames) + 1) % 2 ^ 64)) ∧
    (s.ms.mode = .m0 ∨ s.svc.linkUp = true → exec .servicePortModeTimer s = .next s) ∧
    (s.ms.mode ≠ .m0 → s.svc.linkUp = false → exec .servicePortModeTimer s =
      .next { s with svc := { s.svc with mode := (s.svc.mode + 1) % 4 } }) ∧
    (∀ frame, (s.astFrame 1 frame = none → exec (.astOpen frame) s = .next s) ∧
      (s.astFrame 3 frame = none → exec (.astData frame) s = .next s) ∧ (s.astFrame 5 frame = none → exec (.astEnd frame) s = .next s) ∧
      (s.astFrame 7 frame = none → exec (.astAbort frame) s = .next s)) ∧
    (∀ frame p, s.astFrame 1 frame = some p →
      let tool := slice p 12 32
      (s.svc.session = none → fails (.astOpen frame)) ∧
      ∀ x, s.svc.session = some x →
        (astSession p ≠ x.number ∨ astLen p ≠ 32 ∨ p.length < 44 → fails (.astOpen frame)) ∧
        (astSession p = x.number → astLen p = 32 → 44 ≤ p.length →
          (x.bound = none → (x25519Job x.priv tool).1 ≠ 0 → fails (.astOpen frame)) ∧
          (x.bound = none → (x25519Job x.priv tool).1 = 0 → Gives (.astOpen frame) s fun t => Only [.svc, .ctr, .draws] s t ∧
            ∃ kt m, t.svc.session = some { x with bound := some (tool, kt, slice frame 6 6), state := 2 } ∧
              t.svc.sent = (slice frame 6 6, m) :: s.svc.sent) ∧
          (∀ b, x.bound = some b → b.1 ≠ tool → fails (.astOpen frame)) ∧
          (∀ b, x.bound = some b → b.1 = tool → Gives (.astOpen frame) s fun t => Only [.svc, .ctr, .draws] s t ∧
            t.svc.session = some x ∧ ∃ m, t.svc.sent = (b.2.2, m) :: s.svc.sent))) ∧
    (∀ frame p, s.astFrame 3 frame = some p →
      (s.astOpenFrame p = none → fails (.astData frame)) ∧
      ∀ x data, s.astOpenFrame p = some (x, data) →
        let next := x.state = 2 ∧ astBlock p = x.blocks ∧ x.bytes = 1024 * x.blocks ∧ x.bytes + data.length ≤ x.total
        (data = [] → fails (.astData frame)) ∧
        (data ≠ [] → ¬next → Gives (.astData frame) s fun t => Only [.svc, .ctr, .draws] s t ∧
          t.svc.session = some { x with acked := x.blocks } ∧ t.svc.stage = s.svc.stage ∧
          t.counter (.device .astDiscardedBlocks) = (s.counter (.device .astDiscardedBlocks) + 1) % 2 ^ 32) ∧
        (data ≠ [] → next → Gives (.astData frame) s fun t => (∃ y, t.svc.session = some y ∧ y.blocks = x.blocks + 1 ∧
            y.bytes = x.bytes + data.length ∧ y.state = 2 ∧ y.number = x.number ∧
            y.acked = if (x.blocks + 1) % 16 = 0 then x.blocks + 1 else x.acked) ∧
          (x.node = false → (t.flash x.bank).data = fit x.bytes (s.flash x.bank).data ++ data ++
              (s.flash x.bank).data.drop (x.bytes + data.length) ∧ t.flash (!x.bank) = s.flash (!x.bank)) ∧
          (x.node = true → t.nv = s.nv))) ∧
    (∀ frame p, s.astFrame 5 frame = some p →
      (s.astOpenFrame p = none → fails (.astEnd frame)) ∧
      ∀ x data, s.astOpenFrame p = some (x, data) →
        let whole := astBlock p = x.blocks ∧ x.bytes = x.total
        Gives (.astEnd frame) s fun t => Only [.host, .svc, .ctr, .draws] s t ∧ t.svc.sent.length = s.svc.sent.length + 1 ∧
          (whole → x.state = 2 → t.svc.session = some { x with state := 3 }) ∧
          (¬whole ∨ x.state ≠ 2 → t.svc.session = some x ∧ t.host = s.host)) ∧
    (∀ frame p, s.astFrame 7 frame = some p →
      (s.astOpenFrame p = none → fails (.astAbort frame)) ∧
      (s.astOpenFrame p ≠ none → Gives (.astAbort frame) s fun t => Only [.host, .pair, .svc, .ctr, .draws] s t ∧
        t.svc.session = none ∧ t.svc.lastEnd = 4 ∧ t.svc.stage = none)) ∧
    (s.svc.session = none → exec .astAckTimer s = .next s ∧ exec .sessionTimeout s = .next s ∧ exec .installDone s = .next s) ∧
    (∀ x, s.svc.session = some x →
      (x.state ≠ 2 → exec .astAckTimer s = .next s) ∧
      (x.state = 2 → Gives .astAckTimer s fun t => Only [.svc, .ctr, .draws] s t ∧ t.svc.session = some { x with acked := x.blocks }) ∧
      (x.state ≠ 1 → x.state ≠ 2 → exec .sessionTimeout s = .next s) ∧
      (x.state = 1 ∨ x.state = 2 → Gives .sessionTimeout s fun t => Only [.host, .pair, .svc, .ctr, .draws] s t ∧
        t.svc.session = none ∧ t.svc.lastEnd = 3 ∧ t.svc.stage = none) ∧
      (x.install = none → exec .installDone s = .next s) ∧
      (∀ f tag ignore, x.install = some (f, tag, ignore) → Gives .installDone s fun t =>
        Only [.host, .nv, .pair, .svc, .ctr, .draws] s t ∧ t.svc.session = none ∧
        (∀ e, s.installCheck x ignore = .inl e → t.nv = s.nv ∧ t.svc.lastEnd = 6) ∧
        (∀ set, s.installCheck x ignore = .inr set → t.svc.lastEnd = 1 ∧ t.flash (!x.bank) = s.flash (!x.bank) ∧
          (t.flash x.bank).data = (s.flash x.bank).data ∧ (s.topSeq < 0xFFFFFFFE →
            (t.flash x.bank).rec_ = some { seq := s.topSeq + 1, digest := set.digest, len := x.total }))))

/-- Snapshots and the Trace Port (R643, R644, R648, R651, R652). -/
def SnapshotsAndTraces : Prop :=
  ∀ s : State,
    (∀ w : BitVec 32,
      (s.answers = false ∨ bit w.toNat 0 = false → exec (.snapTake w) s = .next s) ∧
      (s.answers = true → bit w.toNat 0 = true →
        (s.snap.busy = true → exec (.snapTake w) s = .next { s with snap := { s.snap with ignored := true } }) ∧
        (s.snap.busy = false → Gives (.snapTake w) s fun t => Only [.snap, .ctr] s t ∧ t.snap = { s.snap with
          busy := true, taken := t.ctr, takenS := (s.now 0).1, takenNs := (s.now 0).2 }))) ∧
    (s.ms.mode = .m0 ∨ s.snap.period = 0 → exec .snapshotPeriodExpiry s = .next s) ∧
    (s.ms.mode ≠ .m0 → s.snap.period ≠ 0 → s.snap.busy = true →
      exec .snapshotPeriodExpiry s = .next { s with snap := { s.snap with ignored := true } }) ∧
    (s.ms.mode ≠ .m0 → s.snap.period ≠ 0 → s.snap.busy = false → Gives .snapshotPeriodExpiry s fun t => Only [.snap, .ctr] s t ∧
      t.snap.busy = true ∧ t.snap.taken = t.ctr) ∧
    (s.snap.busy = false → exec .snapshotPublished s = .next s) ∧
    (s.snap.busy = true → Gives .snapshotPublished s fun t => Only [.host, .snap, .ctr, .draws] s t ∧ t.snap.busy = false ∧
      t.snap.valid = true ∧ t.snap.seq = s.snap.seq + 1 ∧ t.snap.published = s.snap.taken ∧ t.snap.timeS = s.snap.takenS ∧
      t.snap.timeNs = s.snap.takenNs ∧ t.snap.lagUs ≤ 1000 ∧ t.snap.waiting = [] ∧
      t.counter (.device .snapshots) = (s.counter (.device .snapshots) + 1) % 2 ^ 32) ∧
    (s.trace.records = [] → exec .traceFrameSend s = .next s) ∧
    (s.trace.records ≠ [] → Gives .traceFrameSend s fun t => Only [.trace] s t ∧ t.trace.records = s.trace.records.drop 46 ∧
      t.trace.seq = s.trace.seq + 1 ∧ ∃ f : Bytes, t.trace.sent = f :: s.trace.sent ∧ 60 ≤ f.length) ∧
    (let c := s.cfg.own.trace
     (s.ms.mode = .m0 ∨ c.enable = false → exec .traceSampleTimer s = .next s) ∧
     (s.ms.mode ≠ .m0 → c.enable = true → Gives .traceSampleTimer s fun t => Only [.trace, .ctr, .draws] s t ∧
       t.trace.sent = s.trace.sent ∧ t.trace.seq = s.trace.seq ∧
       (let due := c.rtcPeriodMs ≠ 0 ∧ tget 0 s.trace.sampledAt 0 + 1600000 * c.rtcPeriodMs ≤ s.time.duration
        (due → tget 0 t.trace.sampledAt 0 = s.time.duration) ∧
        (¬due → tget 0 t.trace.sampledAt 0 = tget 0 s.trace.sampledAt 0 ∧ (c.samples = [] → t.trace = s.trace)))))

end Sys2Proof.Claims

/-- Self-tests, the Service Port with its sessions, snapshots and the Trace Port (R595, R603 to R607, R628, R635, R643 to R651). -/
def Obligations.TestsSessionsAndSnapshots : Prop := TestsIsolateAndRestore ∧ ServicePortTakesItsFrames ∧ SnapshotsAndTraces

/-! ### The whole block -/

namespace Sys2Proof.Claims

/-- Every part but the queue. -/
def everything : List Part :=
  [.ms, .host, .cfg, .nv, .procs, .time, .ports, .fwd, .qos, .radio, .mesh, .pins, .power, .jtag, .pair, .svc, .snap, .bist, .trace,
    .ctr, .draws]

/-- The parts of the state that a command may change. -/
def parts : Instr → List Part
  | .sysWarmReset _ | .sysShutdown _ | .modeReqSafe _ | .modeReqWarm _ | .registerWrite _ _ _ _ _ | .resetNLow
  | .powerFailDrainDone | .railOutOfRange _ | .bootStart _ | .bootSelfTestDone _ | .migrationStepError
  | .migrationTimeout | .processorFault _ | .bscFault | .worldViolation _ _ _ _ => everything
  | .sysConfigClear _ | .sysRingConfig _ | .portGetStatus _ | .tableStatus _ | .tableMacRead _ | .qosQueueStatus _
  | .qosCisternStatus _ | .timeGet _ | .radioFloorRead _ | .radioDwellRead _ | .schedStatus _ | .nodeDomainStatus _
  | .keyDomainKeyCreate _ | .keyDestroy _ | .keySlotAssign _ | .keySlotStatus _ | .pairGetStatus _ | .pairClear _
  | .bistStatus _ | .updateStatus _ | .updateBankInfo _ | .observeCounters _ | .keyMapRead _ => [.host, .nv, .pair]
  | .sysSetShares _ | .sysWellAssign _ | .timePortConfig _ | .timeSynceConfig _
  | .pairConfig _ | .pairLaneTrim _ | .bistConfig _ => [.host, .cfg, .nv, .pair]
  | .portSetCutThrough _ => [.host, .cfg, .nv, .ports, .pair]
  | .timeSetTenantBase _ => [.host, .cfg, .nv, .radio, .pair]
  | .tenantReset _ => [.host, .nv, .fwd, .radio, .mesh, .pair, .ctr]
  | .unknownOpcode _ _ | .mboxEnable _ _ | .cmdTail _ _ | .rspHead _ _ | .puntTail _ _ _ | .injTail _ _ _
  | .drainDone _ _ _ | .drainClose _ _ _ | .msixUnmask _ _ | .commandDmaTimeout _ _ _ | .msixModerationTimer _
  | .wellEnable _ _ _ | .wellEntryWrite _ _ | .pacedEntryDue _ | .puntCellArrival _ _ | .equinoxNotice | .pciePerstRelease
  | .busMasterEnable _ _ => [.host]
  | .portSetSpeed _ | .portSetRadio _ | .portSetPreempt _ => [.host, .cfg, .nv, .ports, .qos, .radio, .pair, .ctr]
  | .portOpticsMap _ => [.host, .cfg, .nv, .ports, .radio, .pins, .pair, .ctr, .draws]
  | .portRingPair _ => [.host, .cfg, .nv, .ports, .pins, .pair]
  | .portOpticsIo _ _ _ | .portMdioIo _ _ => [.host, .nv, .ports, .pair]
  | .tableCommit _ | .tableVrfConfig _ | .tablePortL2 _ | .tableVlanWrite _ | .tableIntfWrite _ | .tableMacWrite _
  | .tableNexthopWrite _ | .tableRouteWrite _ | .tableRuleWrite _ | .tableMirrorWrite _ => [.host, .nv, .fwd, .pair]
  | .tableMacFlush _ => [.host, .nv, .fwd, .pair, .ctr]
  | .qosSetLimits _ | .qosSetSched _ | .qosSetShaper _ | .qosSetLaunch _ | .qosSetClassMap _ | .qosPolicerWrite _ =>
    [.host, .nv, .qos, .pair]
  | .qosQueueFlush _ => [.host, .nv, .qos, .pair, .ctr]
  | .timeBaseConfig _ | .timePtpConfig _ => [.host, .cfg, .nv, .time, .pair]
  | .timeStep _ => [.host, .nv, .time, .qos, .radio, .pair, .ctr]
  | .timePpsConfig _ => [.host, .cfg, .nv, .time, .pins, .pair]
  | .radioSiteConfig _ => [.host, .cfg, .nv, .qos, .radio, .pair, .ctr]
  | .radioDwellConfig _ => [.host, .cfg, .nv, .radio, .pair]
  | .radioSiteStatus _ | .radioMapRead _ | .nodeRead _ | .keyTenantRootCreate _ =>
    [.host, .nv, .pair, .draws]
  | .radioSiteReset _ => [.host, .nv, .ports, .radio, .pair, .ctr]
  | .radioLoadingConfig _ | .schedDomainAllot _ | .schedSiteAllot _ | .schedLoadImage _ | .schedActivate _
  | .schedDeactivate _ | .schedUnload _ => [.host, .nv, .radio, .pair]
  | .nodeDomainAssign _ => [.host, .cfg, .nv, .mesh, .pair]
  | .nodeDomainConfig _ | .nodeWrite _ | .nodeDistStart _ | .nodeDistStop _ | .keyCacheShares _
  | .updateNodeImageDrop _ => [.host, .nv, .mesh, .pair]
  | .nodeRemove _ | .nodeDomainRekey _ | .keyStoreCommit => [.host, .nv, .radio, .mesh, .pair, .ctr]
  | .nodeSend _ | .keyImport _ | .keyReadPublic _ | .imageLoadDone _ _ _ | .decodeDone _ _ _ _ _ | .downlinkAckRx _ _
  | .floorWindowEnd _ _ => [.host, .nv, .radio, .mesh, .pair, .ctr, .draws]
  | .mramCommitDone => [.host, .nv, .ports, .radio, .mesh, .pair, .ctr, .draws]
  | .pairEquinox _ => [.ms, .host, .nv, .ports, .radio, .pins, .pair, .svc, .trace, .ctr, .draws]
  | .pairResync _ => [.ms, .host, .nv, .pair]
  | .bistRun _ => [.host, .nv, .ports, .pins, .pair, .bist, .ctr, .draws]
  | .updateOpen _ | .updateAbort _ | .installDone => [.host, .nv, .pair, .svc, .ctr, .draws]
  | .updateInstall _ => [.host, .nv, .mesh, .pair, .svc, .ctr, .draws]
  | .observeSnapshot _ => [.host, .nv, .pair, .snap, .ctr]
  | .observeTraceConfig _ => [.host, .cfg, .nv, .pair, .trace]
  | .snapTake _ | .snapshotPeriodExpiry => [.snap, .ctr]
  | .rtcLoad _ => [.time]
  | .rtcLoRead | .rtcHiRead | .sourceLost _ => [.host, .time]
  | .epochLoRead | .functionLevelReset _ | .pciePerst => [.host, .pair]
  | .tempPeakRead => [.host, .power]
  | .jtagIdcode | .jtagSample _ => [.host, .jtag]
  | .jtagBypass _ => [.jtag]
  | .powerFailWarning => [.ms, .nv, .pins]
  | .processorsLoaded => [.ms, .host, .cfg, .nv, .procs, .time, .ports, .radio, .mesh, .pins, .pair, .ctr, .draws]
  | .bootComplete | .pairingWaitExpiry | .coreDieFault _ _ | .activeInRise | .pairDigest _ _ | .pairEquinoxMsg _
  | .takeoverWaitExpiry | .backoffExpiry | .equinoxEnter | .equinoxConfirmTimeout | .equinoxComplete
  | .equinoxAbort => [.ms, .host, .ports, .radio, .pins, .pair, .svc, .trace, .ctr, .draws]
  | .migrationDone => [.ms, .host, .cfg, .nv, .ports, .radio, .pins, .pair, .svc, .trace, .ctr, .draws]
  | .lkgReached => [.ms, .nv]
  | .processorReloadDone _ => [.ms, .host, .nv, .procs, .radio, .mesh, .pair, .ctr, .draws]
  | .joinRequest _ => [.host, .nv, .procs, .radio, .mesh, .pair, .ctr, .draws]
  | .dataLevelFault _ _ _ => [.host, .ports, .fwd, .qos, .radio, .pins, .ctr, .draws]
  | .blockResetDone _ _ _ => [.host, .ports, .pins, .ctr, .draws]
  | .injectFrameRead _ _ _ _ | .frameRx _ _ => [.host, .fwd, .qos, .pair, .ctr, .draws]
  | .rxFrameEnd _ _ => [.host, .fwd, .qos, .pair, .ctr]
  | .maintenanceSlot _ => [.host, .fwd, .pair, .ctr]
  | .generationBoundary => [.host, .fwd, .qos, .ctr, .draws]
  | .cyclePlanStart => [.qos]
  | .egressSelect _ _ _ => [.host, .ports, .qos, .radio, .pair, .ctr]
  | .launchTimeReached _ => [.host, .time, .ports, .qos, .pair, .ctr]
  | .launchHoldStart _ => [.ports, .qos, .ctr]
  | .laneLockLost _ => [.ports, .ctr]
  | .linkUp _ => [.host, .ports, .radio]
  | .dcwPruAlarm _ _ => [.host, .ports, .qos, .radio, .ctr]
  | .linkDown _ _ | .pruLoadTimeout _ _ | .statusTimeout _ | .basebandLaneFault _ =>
    [.host, .ports, .radio, .ctr]
  | .preemptVerifyTimeout _ | .opticsProbe _ _ | .opticsFlagPoll _ _ => [.host, .ports]
  | .preemptVerifyResponse _ | .laneLockAcquired _ => [.ports]
  | .i2cStretchTimeout _ _ | .refclkLost _ => [.host, .ports, .radio, .pins, .ctr]
  | .offsetSample _ _ => [.pins, .host, .time, .qos, .radio, .pair, .ctr, .draws]
  | .ppsInEdge => [.host, .time, .qos, .radio, .pair, .ctr, .draws]
  | .freq10mLost | .ppsOutEdge => [.time, .pins]
  | .ptpMessageRx _ _ _ | .ptpSyncTx _ => [.time, .qos, .pair, .ctr]
  | .slotBoundary _ => [.radio, .trace, .ctr, .draws]
  | .imageActivation _ => [.host, .radio, .pair, .ctr]
  | .deactivateDone _ => [.host, .radio]
  | .txIssue _ _ _ | .ackIssue _ _ => [.host, .nv, .qos, .radio, .mesh, .pair, .ctr, .draws]
  | .roeUplinkFrame _ _ _ | .detection _ _ | .headerDecision _ _ | .softValuesDelivered _ _ _ _ _
  | .decodeAbandon _ _ => [.radio, .ctr]
  | .codewordReady _ _ => [.host, .radio, .ctr]
  | .securedFrameRx _ => [.host, .nv, .procs, .fwd, .qos, .radio, .mesh, .pair, .ctr, .draws]
  | .joinTimeout _ | .nodeStoreScrub _ _ => [.host, .radio, .mesh, .pair, .ctr]
  | .borderPacket _ _ => [.host, .nv, .fwd, .radio, .mesh, .pair, .ctr, .draws]
  | .reasmTimeout _ _ => [.mesh, .ctr]
  | .nodeSendDeadline _ _ | .distEnd _ => [.host, .mesh, .pair]
  | .journalCompaction => [.nv]
  | .echoSend _ | .gainDecision _ _ _ _ _ | .tunerStepIssue _ _ | .dcwReady _ _ | .dcwAck _ _ => [.qos, .radio, .ctr]
  | .floorPeriod _ _ _ | .linkHoldExpiry _ => [.radio]
  | .dcwHello _ _ _ | .dcwStatus _ _ | .dcwTunerReport _ _ _ => [.host, .qos, .radio, .ctr]
  | .dcwEchoReply _ _ _ _ => [.host, .ports, .qos, .radio, .pair, .ctr]
  | .dcwRetryTimeout _ _ => [.host, .ports, .qos, .radio, .ctr]
  | .basebandLaneRetestDone _ _ => [.host, .radio, .bist]
  | .pairHello _ | .pairEffect _ _ | .pairMeasure _ _ | .pairLearn _ _ _ | .pairRetire _ _ _ | .pairSeed _ _
  | .pairInject _ _ => [.ms, .host, .pair]
  | .pairHeartbeat _ _ _ _ | .pairKey _ | .pairLinkTimeout | .pairLaneFail _ | .activeInFall | .partnerAliveLost =>
    [.ms, .host, .nv, .time, .ports, .qos, .radio, .mesh, .pins, .pair, .svc, .trace, .ctr, .draws]
  | .pairArbitrate _ | .selfCheckDone _ | .selfCheckTimeout =>
    [.ms, .host, .ports, .fwd, .qos, .radio, .pins, .pair, .svc, .trace, .ctr, .draws]
  | .pairCommand _ _ _ | .compareEpoch =>
    [.ms, .host, .cfg, .nv, .time, .ports, .fwd, .qos, .radio, .mesh, .pins, .pair, .svc, .bist, .trace, .ctr, .draws]
  | .pairCheck _ _ _ _ _ => [.ms, .host, .radio, .pair, .ctr, .draws]
  | .pairState _ => [.cfg, .nv, .time, .ports, .fwd, .qos, .radio, .mesh, .pins, .pair]
  | .pairCellResend => [.ctr]
  | .syncPhaseDone => [.ms, .host, .nv, .time, .ports, .radio, .pair, .bist, .draws]
  | .syncConvergeTimeout => [.qos, .ctr]
  | .activeConflict => [.pins, .pair, .draws]
  | .equinoxDecision => [.host, .pair, .ctr, .draws]
  | .radioStartHold | .pairLinkUp => [.pair]
  | .equinoxSwap => [.pins, .pair, .ctr]
  | .pipeTestStart => [.ports, .pair]
  | .pipeTestDone _ => [.ms, .host, .ports, .fwd, .qos, .radio, .mesh, .pins, .pair, .svc, .trace, .ctr, .draws]
  | .bistRunDone _ => [.host, .ports, .fwd, .mesh, .pins, .pair, .bist, .ctr, .draws]
  | .astOpen _ | .astAckTimer => [.svc, .ctr, .draws]
  | .astData _ => [.nv, .pair, .svc, .ctr, .draws]
  | .astEnd _ => [.host, .svc, .ctr, .draws]
  | .astAbort _ | .sessionTimeout => [.host, .pair, .svc, .ctr, .draws]
  | .snapshotPublished => [.host, .snap, .ctr, .draws]
  | .traceFrameSend => [.trace]
  | .traceSampleTimer => [.trace, .ctr, .draws]
  | .sensorRead _ => [.host, .pins, .power]
  | .servicePortModeTimer => [.svc]
  | .servicePortForeignFrame _ => [.svc, .ctr]

end Sys2Proof.Claims

/-- The frame of every command: it leaves every part of the state as it is but those listed for it, and never the queue of
waiting commands, which is the model's own (log entry 4). -/
def Obligations.EveryCommandKeepsTheOtherParts : Prop :=
  ∀ (c : Instr) (s t : State), exec c s = .next t → Only (parts c) s t ∧ t.pending = s.pending

/-- Mode, SAFE_CAUSE, SYNCED, STANDBY_HELD, ACTIVE_OUT and ALIVE_OUT agree after every step from a state in which they do. -/
def Obligations.EveryStepKeepsModesInAgreement : Prop :=
  ∀ s t : State, s.ModesAgree → step s = .next t → t.ModesAgree

/-- They agree after reset (R39, R41). -/
def Obligations.ResetHasModesInAgreement : Prop := State.reset.ModesAgree
end

