-- ==== Sys2Proof/Laws/FrameFold.lean ====
section
/-! SUPPORT. A fold of operations that each leave a field of the state leaves it: one lemma for each field, for a fold over
a state and for one over a state with a further result. -/

namespace Sys2Proof.Machine

@[simp] theorem foldl_ms {α : Type} (g : State → α → State) (h : ∀ s e, (g s e).ms = s.ms) (l : List α) (s : State) :
    (l.foldl g s).ms = s.ms := by
  induction l generalizing s with
  | nil => rfl
  | cons e l ih => simp [ih, h]

@[simp] theorem foldl_host {α : Type} (g : State → α → State) (h : ∀ s e, (g s e).host = s.host) (l : List α) (s : State) :
    (l.foldl g s).host = s.host := by
  induction l generalizing s with
  | nil => rfl
  | cons e l ih => simp [ih, h]

@[simp] theorem foldl_cfg {α : Type} (g : State → α → State) (h : ∀ s e, (g s e).cfg = s.cfg) (l : List α) (s : State) :
    (l.foldl g s).cfg = s.cfg := by
  induction l generalizing s with
  | nil => rfl
  | cons e l ih => simp [ih, h]

@[simp] theorem foldl_nv {α : Type} (g : State → α → State) (h : ∀ s e, (g s e).nv = s.nv) (l : List α) (s : State) :
    (l.foldl g s).nv = s.nv := by
  induction l generalizing s with
  | nil => rfl
  | cons e l ih => simp [ih, h]

@[simp] theorem foldl_procs {α : Type} (g : State → α → State) (h : ∀ s e, (g s e).procs = s.procs) (l : List α) (s : State) :
    (l.foldl g s).procs = s.procs := by
  induction l generalizing s with
  | nil => rfl
  | cons e l ih => simp [ih, h]

@[simp] theorem foldl_time {α : Type} (g : State → α → State) (h : ∀ s e, (g s e).time = s.time) (l : List α) (s : State) :
    (l.foldl g s).time = s.time := by
  induction l generalizing s with
  | nil => rfl
  | cons e l ih => simp [ih, h]

@[simp] theorem foldl_ports {α : Type} (g : State → α → State) (h : ∀ s e, (g s e).ports = s.ports) (l : List α) (s : State) :
    (l.foldl g s).ports = s.ports := by
  induction l generalizing s with
  | nil => rfl
  | cons e l ih => simp [ih, h]

@[simp] theorem foldl_fwd {α : Type} (g : State → α → State) (h : ∀ s e, (g s e).fwd = s.fwd) (l : List α) (s : State) :
    (l.foldl g s).fwd = s.fwd := by
  induction l generalizing s with
  | nil => rfl
  | cons e l ih => simp [ih, h]

@[simp] theorem foldl_qos {α : Type} (g : State → α → State) (h : ∀ s e, (g s e).qos = s.qos) (l : List α) (s : State) :
    (l.foldl g s).qos = s.qos := by
  induction l generalizing s with
  | nil => rfl
  | cons e l ih => simp [ih, h]

@[simp] theorem foldl_radio {α : Type} (g : State → α → State) (h : ∀ s e, (g s e).radio = s.radio) (l : List α) (s : State) :
    (l.foldl g s).radio = s.radio := by
  induction l generalizing s with
  | nil => rfl
  | cons e l ih => simp [ih, h]

@[simp] theorem foldl_mesh {α : Type} (g : State → α → State) (h : ∀ s e, (g s e).mesh = s.mesh) (l : List α) (s : State) :
    (l.foldl g s).mesh = s.mesh := by
  induction l generalizing s with
  | nil => rfl
  | cons e l ih => simp [ih, h]

@[simp] theorem foldl_pins {α : Type} (g : State → α → State) (h : ∀ s e, (g s e).pins = s.pins) (l : List α) (s : State) :
    (l.foldl g s).pins = s.pins := by
  induction l generalizing s with
  | nil => rfl
  | cons e l ih => simp [ih, h]

@[simp] theorem foldl_power {α : Type} (g : State → α → State) (h : ∀ s e, (g s e).power = s.power) (l : List α) (s : State) :
    (l.foldl g s).power = s.power := by
  induction l generalizing s with
  | nil => rfl
  | cons e l ih => simp [ih, h]

@[simp] theorem foldl_jtag {α : Type} (g : State → α → State) (h : ∀ s e, (g s e).jtag = s.jtag) (l : List α) (s : State) :
    (l.foldl g s).jtag = s.jtag := by
  induction l generalizing s with
  | nil => rfl
  | cons e l ih => simp [ih, h]

@[simp] theorem foldl_pair {α : Type} (g : State → α → State) (h : ∀ s e, (g s e).pair = s.pair) (l : List α) (s : State) :
    (l.foldl g s).pair = s.pair := by
  induction l generalizing s with
  | nil => rfl
  | cons e l ih => simp [ih, h]

@[simp] theorem foldl_svc {α : Type} (g : State → α → State) (h : ∀ s e, (g s e).svc = s.svc) (l : List α) (s : State) :
    (l.foldl g s).svc = s.svc := by
  induction l generalizing s with
  | nil => rfl
  | cons e l ih => simp [ih, h]

@[simp] theorem foldl_snap {α : Type} (g : State → α → State) (h : ∀ s e, (g s e).snap = s.snap) (l : List α) (s : State) :
    (l.foldl g s).snap = s.snap := by
  induction l generalizing s with
  | nil => rfl
  | cons e l ih => simp [ih, h]

@[simp] theorem foldl_bist {α : Type} (g : State → α → State) (h : ∀ s e, (g s e).bist = s.bist) (l : List α) (s : State) :
    (l.foldl g s).bist = s.bist := by
  induction l generalizing s with
  | nil => rfl
  | cons e l ih => simp [ih, h]

@[simp] theorem foldl_trace {α : Type} (g : State → α → State) (h : ∀ s e, (g s e).trace = s.trace) (l : List α) (s : State) :
    (l.foldl g s).trace = s.trace := by
  induction l generalizing s with
  | nil => rfl
  | cons e l ih => simp [ih, h]

@[simp] theorem foldl_ctr {α : Type} (g : State → α → State) (h : ∀ s e, (g s e).ctr = s.ctr) (l : List α) (s : State) :
    (l.foldl g s).ctr = s.ctr := by
  induction l generalizing s with
  | nil => rfl
  | cons e l ih => simp [ih, h]

@[simp] theorem foldl_draws {α : Type} (g : State → α → State) (h : ∀ s e, (g s e).draws = s.draws) (l : List α) (s : State) :
    (l.foldl g s).draws = s.draws := by
  induction l generalizing s with
  | nil => rfl
  | cons e l ih => simp [ih, h]

@[simp] theorem foldl_pending {α : Type} (g : State → α → State) (h : ∀ s e, (g s e).pending = s.pending) (l : List α) (s : State) :
    (l.foldl g s).pending = s.pending := by
  induction l generalizing s with
  | nil => rfl
  | cons e l ih => simp [ih, h]


@[simp] theorem foldl1_ms {α β : Type} (g : State × β → α → State × β) (h : ∀ a e, (g a e).1.ms = a.1.ms) (l : List α) (a : State × β) :
    (l.foldl g a).1.ms = a.1.ms := by
  induction l generalizing a with
  | nil => rfl
  | cons e l ih => simp [ih, h]

@[simp] theorem foldl1_host {α β : Type} (g : State × β → α → State × β) (h : ∀ a e, (g a e).1.host = a.1.host) (l : List α) (a : State × β) :
    (l.foldl g a).1.host = a.1.host := by
  induction l generalizing a with
  | nil => rfl
  | cons e l ih => simp [ih, h]

@[simp] theorem foldl1_cfg {α β : Type} (g : State × β → α → State × β) (h : ∀ a e, (g a e).1.cfg = a.1.cfg) (l : List α) (a : State × β) :
    (l.foldl g a).1.cfg = a.1.cfg := by
  induction l generalizing a with
  | nil => rfl
  | cons e l ih => simp [ih, h]

@[simp] theorem foldl1_nv {α β : Type} (g : State × β → α → State × β) (h : ∀ a e, (g a e).1.nv = a.1.nv) (l : List α) (a : State × β) :
    (l.foldl g a).1.nv = a.1.nv := by
  induction l generalizing a with
  | nil => rfl
  | cons e l ih => simp [ih, h]

@[simp] theorem foldl1_procs {α β : Type} (g : State × β → α → State × β) (h : ∀ a e, (g a e).1.procs = a.1.procs) (l : List α) (a : State × β) :
    (l.foldl g a).1.procs = a.1.procs := by
  induction l generalizing a with
  | nil => rfl
  | cons e l ih => simp [ih, h]

@[simp] theorem foldl1_time {α β : Type} (g : State × β → α → State × β) (h : ∀ a e, (g a e).1.time = a.1.time) (l : List α) (a : State × β) :
    (l.foldl g a).1.time = a.1.time := by
  induction l generalizing a with
  | nil => rfl
  | cons e l ih => simp [ih, h]

@[simp] theorem foldl1_ports {α β : Type} (g : State × β → α → State × β) (h : ∀ a e, (g a e).1.ports = a.1.ports) (l : List α) (a : State × β) :
    (l.foldl g a).1.ports = a.1.ports := by
  induction l generalizing a with
  | nil => rfl
  | cons e l ih => simp [ih, h]

@[simp] theorem foldl1_fwd {α β : Type} (g : State × β → α → State × β) (h : ∀ a e, (g a e).1.fwd = a.1.fwd) (l : List α) (a : State × β) :
    (l.foldl g a).1.fwd = a.1.fwd := by
  induction l generalizing a with
  | nil => rfl
  | cons e l ih => simp [ih, h]

@[simp] theorem foldl1_qos {α β : Type} (g : State × β → α → State × β) (h : ∀ a e, (g a e).1.qos = a.1.qos) (l : List α) (a : State × β) :
    (l.foldl g a).1.qos = a.1.qos := by
  induction l generalizing a with
  | nil => rfl
  | cons e l ih => simp [ih, h]

@[simp] theorem foldl1_radio {α β : Type} (g : State × β → α → State × β) (h : ∀ a e, (g a e).1.radio = a.1.radio) (l : List α) (a : State × β) :
    (l.foldl g a).1.radio = a.1.radio := by
  induction l generalizing a with
  | nil => rfl
  | cons e l ih => simp [ih, h]

@[simp] theorem foldl1_mesh {α β : Type} (g : State × β → α → State × β) (h : ∀ a e, (g a e).1.mesh = a.1.mesh) (l : List α) (a : State × β) :
    (l.foldl g a).1.mesh = a.1.mesh := by
  induction l generalizing a with
  | nil => rfl
  | cons e l ih => simp [ih, h]

@[simp] theorem foldl1_pins {α β : Type} (g : State × β → α → State × β) (h : ∀ a e, (g a e).1.pins = a.1.pins) (l : List α) (a : State × β) :
    (l.foldl g a).1.pins = a.1.pins := by
  induction l generalizing a with
  | nil => rfl
  | cons e l ih => simp [ih, h]

@[simp] theorem foldl1_power {α β : Type} (g : State × β → α → State × β) (h : ∀ a e, (g a e).1.power = a.1.power) (l : List α) (a : State × β) :
    (l.foldl g a).1.power = a.1.power := by
  induction l generalizing a with
  | nil => rfl
  | cons e l ih => simp [ih, h]

@[simp] theorem foldl1_jtag {α β : Type} (g : State × β → α → State × β) (h : ∀ a e, (g a e).1.jtag = a.1.jtag) (l : List α) (a : State × β) :
    (l.foldl g a).1.jtag = a.1.jtag := by
  induction l generalizing a with
  | nil => rfl
  | cons e l ih => simp [ih, h]

@[simp] theorem foldl1_pair {α β : Type} (g : State × β → α → State × β) (h : ∀ a e, (g a e).1.pair = a.1.pair) (l : List α) (a : State × β) :
    (l.foldl g a).1.pair = a.1.pair := by
  induction l generalizing a with
  | nil => rfl
  | cons e l ih => simp [ih, h]

@[simp] theorem foldl1_svc {α β : Type} (g : State × β → α → State × β) (h : ∀ a e, (g a e).1.svc = a.1.svc) (l : List α) (a : State × β) :
    (l.foldl g a).1.svc = a.1.svc := by
  induction l generalizing a with
  | nil => rfl
  | cons e l ih => simp [ih, h]

@[simp] theorem foldl1_snap {α β : Type} (g : State × β → α → State × β) (h : ∀ a e, (g a e).1.snap = a.1.snap) (l : List α) (a : State × β) :
    (l.foldl g a).1.snap = a.1.snap := by
  induction l generalizing a with
  | nil => rfl
  | cons e l ih => simp [ih, h]

@[simp] theorem foldl1_bist {α β : Type} (g : State × β → α → State × β) (h : ∀ a e, (g a e).1.bist = a.1.bist) (l : List α) (a : State × β) :
    (l.foldl g a).1.bist = a.1.bist := by
  induction l generalizing a with
  | nil => rfl
  | cons e l ih => simp [ih, h]

@[simp] theorem foldl1_trace {α β : Type} (g : State × β → α → State × β) (h : ∀ a e, (g a e).1.trace = a.1.trace) (l : List α) (a : State × β) :
    (l.foldl g a).1.trace = a.1.trace := by
  induction l generalizing a with
  | nil => rfl
  | cons e l ih => simp [ih, h]

@[simp] theorem foldl1_ctr {α β : Type} (g : State × β → α → State × β) (h : ∀ a e, (g a e).1.ctr = a.1.ctr) (l : List α) (a : State × β) :
    (l.foldl g a).1.ctr = a.1.ctr := by
  induction l generalizing a with
  | nil => rfl
  | cons e l ih => simp [ih, h]

@[simp] theorem foldl1_draws {α β : Type} (g : State × β → α → State × β) (h : ∀ a e, (g a e).1.draws = a.1.draws) (l : List α) (a : State × β) :
    (l.foldl g a).1.draws = a.1.draws := by
  induction l generalizing a with
  | nil => rfl
  | cons e l ih => simp [ih, h]

@[simp] theorem foldl1_pending {α β : Type} (g : State × β → α → State × β) (h : ∀ a e, (g a e).1.pending = a.1.pending) (l : List α) (a : State × β) :
    (l.foldl g a).1.pending = a.1.pending := by
  induction l generalizing a with
  | nil => rfl
  | cons e l ih => simp [ih, h]

end Sys2Proof.Machine
end

