-- ==== Sys2Proof/Laws/FrameHost.lean ====
section
/-! SUPPORT. Frames of the operations of the host interface: for each operation, the parts of the
state that it leaves as they were. -/

namespace Sys2Proof.Machine

@[simp] theorem State.count_frame (s : State) (c) (n) :
    let t := State.count s c n
    t.ms = s.ms ∧ t.host = s.host ∧ t.cfg = s.cfg ∧ t.nv = s.nv ∧ t.procs = s.procs ∧ t.time = s.time ∧
    t.ports = s.ports ∧ t.fwd = s.fwd ∧ t.qos = s.qos ∧ t.radio = s.radio ∧ t.mesh = s.mesh ∧ t.pins = s.pins ∧
    t.power = s.power ∧ t.jtag = s.jtag ∧ t.pair = s.pair ∧ t.svc = s.svc ∧ t.snap = s.snap ∧ t.bist = s.bist ∧
    t.trace = s.trace ∧ t.draws = s.draws ∧ t.pending = s.pending := by
  unfold State.count
  repeat' (first | split | simp)

@[simp] theorem State.countIf_frame (s : State) (b) (c) :
    let t := State.countIf s b c
    t.ms = s.ms ∧ t.host = s.host ∧ t.cfg = s.cfg ∧ t.nv = s.nv ∧ t.procs = s.procs ∧ t.time = s.time ∧
    t.ports = s.ports ∧ t.fwd = s.fwd ∧ t.qos = s.qos ∧ t.radio = s.radio ∧ t.mesh = s.mesh ∧ t.pins = s.pins ∧
    t.power = s.power ∧ t.jtag = s.jtag ∧ t.pair = s.pair ∧ t.svc = s.svc ∧ t.snap = s.snap ∧ t.bist = s.bist ∧
    t.trace = s.trace ∧ t.draws = s.draws ∧ t.pending = s.pending := by
  unfold State.countIf
  repeat' (first | split | simp)

@[simp] theorem State.gauge_frame (s : State) (c) (v) :
    let t := State.gauge s c v
    t.ms = s.ms ∧ t.host = s.host ∧ t.cfg = s.cfg ∧ t.nv = s.nv ∧ t.procs = s.procs ∧ t.time = s.time ∧
    t.ports = s.ports ∧ t.fwd = s.fwd ∧ t.qos = s.qos ∧ t.radio = s.radio ∧ t.mesh = s.mesh ∧ t.pins = s.pins ∧
    t.power = s.power ∧ t.jtag = s.jtag ∧ t.pair = s.pair ∧ t.svc = s.svc ∧ t.snap = s.snap ∧ t.bist = s.bist ∧
    t.trace = s.trace ∧ t.draws = s.draws ∧ t.pending = s.pending := by
  unfold State.gauge
  repeat' (first | split | simp)

@[simp] theorem State.draw_frame (s : State) :
    let t := (State.draw s).2
    t.ms = s.ms ∧ t.host = s.host ∧ t.cfg = s.cfg ∧ t.nv = s.nv ∧ t.procs = s.procs ∧ t.time = s.time ∧
    t.ports = s.ports ∧ t.fwd = s.fwd ∧ t.qos = s.qos ∧ t.radio = s.radio ∧ t.mesh = s.mesh ∧ t.pins = s.pins ∧
    t.power = s.power ∧ t.jtag = s.jtag ∧ t.pair = s.pair ∧ t.svc = s.svc ∧ t.snap = s.snap ∧ t.bist = s.bist ∧
    t.trace = s.trace ∧ t.ctr = s.ctr ∧ t.pending = s.pending := by
  unfold State.draw
  repeat' (first | split | simp)

@[simp] theorem State.drawOctets_frame (s : State) (n) :
    let t := (State.drawOctets s n).2
    t.ms = s.ms ∧ t.host = s.host ∧ t.cfg = s.cfg ∧ t.nv = s.nv ∧ t.procs = s.procs ∧ t.time = s.time ∧
    t.ports = s.ports ∧ t.fwd = s.fwd ∧ t.qos = s.qos ∧ t.radio = s.radio ∧ t.mesh = s.mesh ∧ t.pins = s.pins ∧
    t.power = s.power ∧ t.jtag = s.jtag ∧ t.pair = s.pair ∧ t.svc = s.svc ∧ t.snap = s.snap ∧ t.bist = s.bist ∧
    t.trace = s.trace ∧ t.ctr = s.ctr ∧ t.pending = s.pending := by
  unfold State.drawOctets
  repeat' (first | split | simp)

@[simp] theorem State.modBase_frame (s : State) (b) (f) :
    let t := State.modBase s b f
    t.ms = s.ms ∧ t.host = s.host ∧ t.cfg = s.cfg ∧ t.nv = s.nv ∧ t.procs = s.procs ∧ t.ports = s.ports ∧
    t.fwd = s.fwd ∧ t.qos = s.qos ∧ t.radio = s.radio ∧ t.mesh = s.mesh ∧ t.pins = s.pins ∧ t.power = s.power ∧
    t.jtag = s.jtag ∧ t.pair = s.pair ∧ t.svc = s.svc ∧ t.snap = s.snap ∧ t.bist = s.bist ∧ t.trace = s.trace ∧
    t.ctr = s.ctr ∧ t.draws = s.draws ∧ t.pending = s.pending := by
  unfold State.modBase
  repeat' (first | split | simp)

@[simp] theorem State.modPair_frame (s : State) (f) :
    let t := State.modPair s f
    t.ms = s.ms ∧ t.host = s.host ∧ t.cfg = s.cfg ∧ t.nv = s.nv ∧ t.procs = s.procs ∧ t.time = s.time ∧
    t.ports = s.ports ∧ t.fwd = s.fwd ∧ t.qos = s.qos ∧ t.radio = s.radio ∧ t.mesh = s.mesh ∧ t.pins = s.pins ∧
    t.power = s.power ∧ t.jtag = s.jtag ∧ t.svc = s.svc ∧ t.snap = s.snap ∧ t.bist = s.bist ∧ t.trace = s.trace ∧
    t.ctr = s.ctr ∧ t.draws = s.draws ∧ t.pending = s.pending := by
  unfold State.modPair
  repeat' (first | split | simp)

@[simp] theorem State.pairSend_frame (s : State) (m) :
    let t := State.pairSend s m
    t.ms = s.ms ∧ t.host = s.host ∧ t.cfg = s.cfg ∧ t.nv = s.nv ∧ t.procs = s.procs ∧ t.time = s.time ∧
    t.ports = s.ports ∧ t.fwd = s.fwd ∧ t.qos = s.qos ∧ t.radio = s.radio ∧ t.mesh = s.mesh ∧ t.pins = s.pins ∧
    t.power = s.power ∧ t.jtag = s.jtag ∧ t.svc = s.svc ∧ t.snap = s.snap ∧ t.bist = s.bist ∧ t.trace = s.trace ∧
    t.ctr = s.ctr ∧ t.draws = s.draws ∧ t.pending = s.pending := by
  unfold State.pairSend
  repeat' (first | split | simp)

@[simp] theorem State.carry_frame (s : State) (delay) (r) :
    let t := State.carry s delay r
    t.ms = s.ms ∧ t.host = s.host ∧ t.cfg = s.cfg ∧ t.nv = s.nv ∧ t.procs = s.procs ∧ t.time = s.time ∧
    t.ports = s.ports ∧ t.fwd = s.fwd ∧ t.qos = s.qos ∧ t.radio = s.radio ∧ t.mesh = s.mesh ∧ t.pins = s.pins ∧
    t.power = s.power ∧ t.jtag = s.jtag ∧ t.svc = s.svc ∧ t.snap = s.snap ∧ t.bist = s.bist ∧ t.trace = s.trace ∧
    t.ctr = s.ctr ∧ t.draws = s.draws ∧ t.pending = s.pending := by
  unfold State.carry
  repeat' (first | split | simp)

@[simp] theorem State.meetEffect_frame (s : State) (shadow) (e) :
    let t := State.meetEffect s shadow e
    t.ms = s.ms ∧ t.host = s.host ∧ t.cfg = s.cfg ∧ t.nv = s.nv ∧ t.procs = s.procs ∧ t.time = s.time ∧
    t.ports = s.ports ∧ t.fwd = s.fwd ∧ t.qos = s.qos ∧ t.radio = s.radio ∧ t.mesh = s.mesh ∧ t.pins = s.pins ∧
    t.power = s.power ∧ t.jtag = s.jtag ∧ t.svc = s.svc ∧ t.snap = s.snap ∧ t.bist = s.bist ∧ t.trace = s.trace ∧
    t.draws = s.draws ∧ t.pending = s.pending := by
  unfold State.meetEffect
  repeat' (first | split | simp)

@[simp] theorem State.firmware_ms (s : State) (e : FwEffect) (apply : State → State) (h : (apply s).ms = s.ms) :
    (State.firmware s e apply).ms = s.ms := by
  unfold State.firmware
  repeat' (first | split | simp [h])

@[simp] theorem State.firmware_host (s : State) (e : FwEffect) (apply : State → State) (h : (apply s).host = s.host) :
    (State.firmware s e apply).host = s.host := by
  unfold State.firmware
  repeat' (first | split | simp [h])

@[simp] theorem State.firmware_cfg (s : State) (e : FwEffect) (apply : State → State) (h : (apply s).cfg = s.cfg) :
    (State.firmware s e apply).cfg = s.cfg := by
  unfold State.firmware
  repeat' (first | split | simp [h])

@[simp] theorem State.firmware_nv (s : State) (e : FwEffect) (apply : State → State) (h : (apply s).nv = s.nv) :
    (State.firmware s e apply).nv = s.nv := by
  unfold State.firmware
  repeat' (first | split | simp [h])

@[simp] theorem State.firmware_procs (s : State) (e : FwEffect) (apply : State → State) (h : (apply s).procs = s.procs) :
    (State.firmware s e apply).procs = s.procs := by
  unfold State.firmware
  repeat' (first | split | simp [h])

@[simp] theorem State.firmware_time (s : State) (e : FwEffect) (apply : State → State) (h : (apply s).time = s.time) :
    (State.firmware s e apply).time = s.time := by
  unfold State.firmware
  repeat' (first | split | simp [h])

@[simp] theorem State.firmware_ports (s : State) (e : FwEffect) (apply : State → State) (h : (apply s).ports = s.ports) :
    (State.firmware s e apply).ports = s.ports := by
  unfold State.firmware
  repeat' (first | split | simp [h])

@[simp] theorem State.firmware_fwd (s : State) (e : FwEffect) (apply : State → State) (h : (apply s).fwd = s.fwd) :
    (State.firmware s e apply).fwd = s.fwd := by
  unfold State.firmware
  repeat' (first | split | simp [h])

@[simp] theorem State.firmware_qos (s : State) (e : FwEffect) (apply : State → State) (h : (apply s).qos = s.qos) :
    (State.firmware s e apply).qos = s.qos := by
  unfold State.firmware
  repeat' (first | split | simp [h])

@[simp] theorem State.firmware_radio (s : State) (e : FwEffect) (apply : State → State) (h : (apply s).radio = s.radio) :
    (State.firmware s e apply).radio = s.radio := by
  unfold State.firmware
  repeat' (first | split | simp [h])

@[simp] theorem State.firmware_mesh (s : State) (e : FwEffect) (apply : State → State) (h : (apply s).mesh = s.mesh) :
    (State.firmware s e apply).mesh = s.mesh := by
  unfold State.firmware
  repeat' (first | split | simp [h])

@[simp] theorem State.firmware_pins (s : State) (e : FwEffect) (apply : State → State) (h : (apply s).pins = s.pins) :
    (State.firmware s e apply).pins = s.pins := by
  unfold State.firmware
  repeat' (first | split | simp [h])

@[simp] theorem State.firmware_power (s : State) (e : FwEffect) (apply : State → State) (h : (apply s).power = s.power) :
    (State.firmware s e apply).power = s.power := by
  unfold State.firmware
  repeat' (first | split | simp [h])

@[simp] theorem State.firmware_jtag (s : State) (e : FwEffect) (apply : State → State) (h : (apply s).jtag = s.jtag) :
    (State.firmware s e apply).jtag = s.jtag := by
  unfold State.firmware
  repeat' (first | split | simp [h])

@[simp] theorem State.firmware_svc (s : State) (e : FwEffect) (apply : State → State) (h : (apply s).svc = s.svc) :
    (State.firmware s e apply).svc = s.svc := by
  unfold State.firmware
  repeat' (first | split | simp [h])

@[simp] theorem State.firmware_snap (s : State) (e : FwEffect) (apply : State → State) (h : (apply s).snap = s.snap) :
    (State.firmware s e apply).snap = s.snap := by
  unfold State.firmware
  repeat' (first | split | simp [h])

@[simp] theorem State.firmware_bist (s : State) (e : FwEffect) (apply : State → State) (h : (apply s).bist = s.bist) :
    (State.firmware s e apply).bist = s.bist := by
  unfold State.firmware
  repeat' (first | split | simp [h])

@[simp] theorem State.firmware_trace (s : State) (e : FwEffect) (apply : State → State) (h : (apply s).trace = s.trace) :
    (State.firmware s e apply).trace = s.trace := by
  unfold State.firmware
  repeat' (first | split | simp [h])

@[simp] theorem State.firmware_draws (s : State) (e : FwEffect) (apply : State → State) (h : (apply s).draws = s.draws) :
    (State.firmware s e apply).draws = s.draws := by
  unfold State.firmware
  repeat' (first | split | simp [h])

@[simp] theorem State.firmware_pending (s : State) (e : FwEffect) (apply : State → State) (h : (apply s).pending = s.pending) :
    (State.firmware s e apply).pending = s.pending := by
  unfold State.firmware
  repeat' (first | split | simp [h])

@[simp] theorem State.measure_ms (s : State) (m : Measure) (apply : State → State) (h : (apply s).ms = s.ms) :
    (State.measure s m apply).ms = s.ms := by
  unfold State.measure
  repeat' (first | split | simp [h])

@[simp] theorem State.measure_host (s : State) (m : Measure) (apply : State → State) (h : (apply s).host = s.host) :
    (State.measure s m apply).host = s.host := by
  unfold State.measure
  repeat' (first | split | simp [h])

@[simp] theorem State.measure_cfg (s : State) (m : Measure) (apply : State → State) (h : (apply s).cfg = s.cfg) :
    (State.measure s m apply).cfg = s.cfg := by
  unfold State.measure
  repeat' (first | split | simp [h])

@[simp] theorem State.measure_nv (s : State) (m : Measure) (apply : State → State) (h : (apply s).nv = s.nv) :
    (State.measure s m apply).nv = s.nv := by
  unfold State.measure
  repeat' (first | split | simp [h])

@[simp] theorem State.measure_procs (s : State) (m : Measure) (apply : State → State) (h : (apply s).procs = s.procs) :
    (State.measure s m apply).procs = s.procs := by
  unfold State.measure
  repeat' (first | split | simp [h])

@[simp] theorem State.measure_time (s : State) (m : Measure) (apply : State → State) (h : (apply s).time = s.time) :
    (State.measure s m apply).time = s.time := by
  unfold State.measure
  repeat' (first | split | simp [h])

@[simp] theorem State.measure_ports (s : State) (m : Measure) (apply : State → State) (h : (apply s).ports = s.ports) :
    (State.measure s m apply).ports = s.ports := by
  unfold State.measure
  repeat' (first | split | simp [h])

@[simp] theorem State.measure_fwd (s : State) (m : Measure) (apply : State → State) (h : (apply s).fwd = s.fwd) :
    (State.measure s m apply).fwd = s.fwd := by
  unfold State.measure
  repeat' (first | split | simp [h])

@[simp] theorem State.measure_qos (s : State) (m : Measure) (apply : State → State) (h : (apply s).qos = s.qos) :
    (State.measure s m apply).qos = s.qos := by
  unfold State.measure
  repeat' (first | split | simp [h])

@[simp] theorem State.measure_radio (s : State) (m : Measure) (apply : State → State) (h : (apply s).radio = s.radio) :
    (State.measure s m apply).radio = s.radio := by
  unfold State.measure
  repeat' (first | split | simp [h])

@[simp] theorem State.measure_mesh (s : State) (m : Measure) (apply : State → State) (h : (apply s).mesh = s.mesh) :
    (State.measure s m apply).mesh = s.mesh := by
  unfold State.measure
  repeat' (first | split | simp [h])

@[simp] theorem State.measure_pins (s : State) (m : Measure) (apply : State → State) (h : (apply s).pins = s.pins) :
    (State.measure s m apply).pins = s.pins := by
  unfold State.measure
  repeat' (first | split | simp [h])

@[simp] theorem State.measure_power (s : State) (m : Measure) (apply : State → State) (h : (apply s).power = s.power) :
    (State.measure s m apply).power = s.power := by
  unfold State.measure
  repeat' (first | split | simp [h])

@[simp] theorem State.measure_jtag (s : State) (m : Measure) (apply : State → State) (h : (apply s).jtag = s.jtag) :
    (State.measure s m apply).jtag = s.jtag := by
  unfold State.measure
  repeat' (first | split | simp [h])

@[simp] theorem State.measure_svc (s : State) (m : Measure) (apply : State → State) (h : (apply s).svc = s.svc) :
    (State.measure s m apply).svc = s.svc := by
  unfold State.measure
  repeat' (first | split | simp [h])

@[simp] theorem State.measure_snap (s : State) (m : Measure) (apply : State → State) (h : (apply s).snap = s.snap) :
    (State.measure s m apply).snap = s.snap := by
  unfold State.measure
  repeat' (first | split | simp [h])

@[simp] theorem State.measure_bist (s : State) (m : Measure) (apply : State → State) (h : (apply s).bist = s.bist) :
    (State.measure s m apply).bist = s.bist := by
  unfold State.measure
  repeat' (first | split | simp [h])

@[simp] theorem State.measure_trace (s : State) (m : Measure) (apply : State → State) (h : (apply s).trace = s.trace) :
    (State.measure s m apply).trace = s.trace := by
  unfold State.measure
  repeat' (first | split | simp [h])

@[simp] theorem State.measure_ctr (s : State) (m : Measure) (apply : State → State) (h : (apply s).ctr = s.ctr) :
    (State.measure s m apply).ctr = s.ctr := by
  unfold State.measure
  repeat' (first | split | simp [h])

@[simp] theorem State.measure_draws (s : State) (m : Measure) (apply : State → State) (h : (apply s).draws = s.draws) :
    (State.measure s m apply).draws = s.draws := by
  unfold State.measure
  repeat' (first | split | simp [h])

@[simp] theorem State.measure_pending (s : State) (m : Measure) (apply : State → State) (h : (apply s).pending = s.pending) :
    (State.measure s m apply).pending = s.pending := by
  unfold State.measure
  repeat' (first | split | simp [h])

@[simp] theorem State.generate_frame (s : State) (gen) :
    let t := (State.generate s gen).2
    t.ms = s.ms ∧ t.host = s.host ∧ t.cfg = s.cfg ∧ t.nv = s.nv ∧ t.procs = s.procs ∧ t.time = s.time ∧
    t.ports = s.ports ∧ t.fwd = s.fwd ∧ t.qos = s.qos ∧ t.radio = s.radio ∧ t.mesh = s.mesh ∧ t.pins = s.pins ∧
    t.power = s.power ∧ t.jtag = s.jtag ∧ t.svc = s.svc ∧ t.snap = s.snap ∧ t.bist = s.bist ∧ t.trace = s.trace ∧
    t.ctr = s.ctr ∧ t.draws = s.draws ∧ t.pending = s.pending := by
  unfold State.generate
  repeat' (first | split | simp)

@[simp] theorem State.modMbox_frame (s : State) (f) (g) :
    let t := State.modMbox s f g
    t.ms = s.ms ∧ t.cfg = s.cfg ∧ t.nv = s.nv ∧ t.procs = s.procs ∧ t.time = s.time ∧ t.ports = s.ports ∧
    t.fwd = s.fwd ∧ t.qos = s.qos ∧ t.radio = s.radio ∧ t.mesh = s.mesh ∧ t.pins = s.pins ∧ t.power = s.power ∧
    t.jtag = s.jtag ∧ t.pair = s.pair ∧ t.svc = s.svc ∧ t.snap = s.snap ∧ t.bist = s.bist ∧ t.trace = s.trace ∧
    t.ctr = s.ctr ∧ t.draws = s.draws ∧ t.pending = s.pending := by
  unfold State.modMbox
  repeat' (first | split | simp)

@[simp] theorem State.raise_frame (s : State) (f) (v) :
    let t := State.raise s f v
    t.ms = s.ms ∧ t.cfg = s.cfg ∧ t.nv = s.nv ∧ t.procs = s.procs ∧ t.time = s.time ∧ t.ports = s.ports ∧
    t.fwd = s.fwd ∧ t.qos = s.qos ∧ t.radio = s.radio ∧ t.mesh = s.mesh ∧ t.pins = s.pins ∧ t.power = s.power ∧
    t.jtag = s.jtag ∧ t.pair = s.pair ∧ t.svc = s.svc ∧ t.snap = s.snap ∧ t.bist = s.bist ∧ t.trace = s.trace ∧
    t.ctr = s.ctr ∧ t.draws = s.draws ∧ t.pending = s.pending := by
  unfold State.raise
  repeat' (first | split | simp)

@[simp] theorem State.mboxError_frame (s : State) (f) (g) :
    let t := State.mboxError s f g
    t.ms = s.ms ∧ t.cfg = s.cfg ∧ t.nv = s.nv ∧ t.procs = s.procs ∧ t.time = s.time ∧ t.ports = s.ports ∧
    t.fwd = s.fwd ∧ t.qos = s.qos ∧ t.radio = s.radio ∧ t.mesh = s.mesh ∧ t.pins = s.pins ∧ t.power = s.power ∧
    t.jtag = s.jtag ∧ t.pair = s.pair ∧ t.svc = s.svc ∧ t.snap = s.snap ∧ t.bist = s.bist ∧ t.trace = s.trace ∧
    t.ctr = s.ctr ∧ t.draws = s.draws ∧ t.pending = s.pending := by
  unfold State.mboxError
  repeat' (first | split | simp)

@[simp] theorem State.setWell_frame (s : State) (w) (x2) :
    let t := State.setWell s w x2
    t.ms = s.ms ∧ t.cfg = s.cfg ∧ t.nv = s.nv ∧ t.procs = s.procs ∧ t.time = s.time ∧ t.ports = s.ports ∧
    t.fwd = s.fwd ∧ t.qos = s.qos ∧ t.radio = s.radio ∧ t.mesh = s.mesh ∧ t.pins = s.pins ∧ t.power = s.power ∧
    t.jtag = s.jtag ∧ t.pair = s.pair ∧ t.svc = s.svc ∧ t.snap = s.snap ∧ t.bist = s.bist ∧ t.trace = s.trace ∧
    t.ctr = s.ctr ∧ t.draws = s.draws ∧ t.pending = s.pending := by
  unfold State.setWell
  repeat' (first | split | simp)

@[simp] theorem State.putEntry_frame (s : State) (w) (source) (type) (body) :
    let t := State.putEntry s w source type body
    t.ms = s.ms ∧ t.cfg = s.cfg ∧ t.nv = s.nv ∧ t.procs = s.procs ∧ t.time = s.time ∧ t.ports = s.ports ∧
    t.fwd = s.fwd ∧ t.qos = s.qos ∧ t.radio = s.radio ∧ t.mesh = s.mesh ∧ t.pins = s.pins ∧ t.power = s.power ∧
    t.jtag = s.jtag ∧ t.pair = s.pair ∧ t.svc = s.svc ∧ t.snap = s.snap ∧ t.bist = s.bist ∧ t.trace = s.trace ∧
    t.ctr = s.ctr ∧ t.draws = s.draws ∧ t.pending = s.pending := by
  unfold State.putEntry
  repeat' (first | split | simp)

@[simp] theorem State.produce_frame (s : State) (w) (source) (type) (body) :
    let t := State.produce s w source type body
    t.ms = s.ms ∧ t.cfg = s.cfg ∧ t.nv = s.nv ∧ t.procs = s.procs ∧ t.time = s.time ∧ t.ports = s.ports ∧
    t.fwd = s.fwd ∧ t.qos = s.qos ∧ t.radio = s.radio ∧ t.mesh = s.mesh ∧ t.pins = s.pins ∧ t.power = s.power ∧
    t.jtag = s.jtag ∧ t.pair = s.pair ∧ t.svc = s.svc ∧ t.snap = s.snap ∧ t.bist = s.bist ∧ t.trace = s.trace ∧
    t.ctr = s.ctr ∧ t.draws = s.draws ∧ t.pending = s.pending := by
  unfold State.produce
  repeat' (first | split | simp)

@[simp] theorem State.alarm_frame (s : State) (source) (type) (body) :
    let t := State.alarm s source type body
    t.ms = s.ms ∧ t.cfg = s.cfg ∧ t.nv = s.nv ∧ t.procs = s.procs ∧ t.time = s.time ∧ t.ports = s.ports ∧
    t.fwd = s.fwd ∧ t.qos = s.qos ∧ t.radio = s.radio ∧ t.mesh = s.mesh ∧ t.pins = s.pins ∧ t.power = s.power ∧
    t.jtag = s.jtag ∧ t.pair = s.pair ∧ t.svc = s.svc ∧ t.snap = s.snap ∧ t.bist = s.bist ∧ t.trace = s.trace ∧
    t.ctr = s.ctr ∧ t.draws = s.draws ∧ t.pending = s.pending := by
  unfold State.alarm
  repeat' (first | split | simp)

@[simp] theorem State.toFaultWell_frame (s : State) (t_) (source) (type) (body) :
    let t := State.toFaultWell s t_ source type body
    t.ms = s.ms ∧ t.cfg = s.cfg ∧ t.nv = s.nv ∧ t.procs = s.procs ∧ t.time = s.time ∧ t.ports = s.ports ∧
    t.fwd = s.fwd ∧ t.qos = s.qos ∧ t.radio = s.radio ∧ t.mesh = s.mesh ∧ t.pins = s.pins ∧ t.power = s.power ∧
    t.jtag = s.jtag ∧ t.pair = s.pair ∧ t.svc = s.svc ∧ t.snap = s.snap ∧ t.bist = s.bist ∧ t.trace = s.trace ∧
    t.ctr = s.ctr ∧ t.draws = s.draws ∧ t.pending = s.pending := by
  unfold State.toFaultWell
  repeat' (first | split | simp)

@[simp] theorem State.writePaced_frame (s : State) (p) (n) :
    let t := State.writePaced s p n
    t.ms = s.ms ∧ t.cfg = s.cfg ∧ t.nv = s.nv ∧ t.procs = s.procs ∧ t.time = s.time ∧ t.ports = s.ports ∧
    t.fwd = s.fwd ∧ t.qos = s.qos ∧ t.radio = s.radio ∧ t.mesh = s.mesh ∧ t.pins = s.pins ∧ t.power = s.power ∧
    t.jtag = s.jtag ∧ t.pair = s.pair ∧ t.svc = s.svc ∧ t.snap = s.snap ∧ t.bist = s.bist ∧ t.trace = s.trace ∧
    t.ctr = s.ctr ∧ t.draws = s.draws ∧ t.pending = s.pending := by
  unfold State.writePaced
  repeat' (first | split | simp)

@[simp] theorem State.pace_frame (s : State) (obj) (well) (source) (type) (body) (countAt) (countLen) :
    let t := State.pace s obj well source type body countAt countLen
    t.ms = s.ms ∧ t.cfg = s.cfg ∧ t.nv = s.nv ∧ t.procs = s.procs ∧ t.time = s.time ∧ t.ports = s.ports ∧
    t.fwd = s.fwd ∧ t.qos = s.qos ∧ t.radio = s.radio ∧ t.mesh = s.mesh ∧ t.pins = s.pins ∧ t.power = s.power ∧
    t.jtag = s.jtag ∧ t.pair = s.pair ∧ t.svc = s.svc ∧ t.snap = s.snap ∧ t.bist = s.bist ∧ t.trace = s.trace ∧
    t.ctr = s.ctr ∧ t.draws = s.draws ∧ t.pending = s.pending := by
  unfold State.pace
  repeat' (first | split | simp)

@[simp] theorem State.store_frame (s : State) (f) :
    let t := State.store s f
    t.ms = s.ms ∧ t.host = s.host ∧ t.procs = s.procs ∧ t.time = s.time ∧ t.ports = s.ports ∧ t.fwd = s.fwd ∧
    t.qos = s.qos ∧ t.radio = s.radio ∧ t.mesh = s.mesh ∧ t.pins = s.pins ∧ t.power = s.power ∧ t.jtag = s.jtag ∧
    t.pair = s.pair ∧ t.svc = s.svc ∧ t.snap = s.snap ∧ t.bist = s.bist ∧ t.trace = s.trace ∧ t.ctr = s.ctr ∧
    t.draws = s.draws ∧ t.pending = s.pending := by
  unfold State.store
  repeat' (first | split | simp)

@[simp] theorem State.modPort_frame (s : State) (p) (f) :
    let t := State.modPort s p f
    t.ms = s.ms ∧ t.host = s.host ∧ t.cfg = s.cfg ∧ t.nv = s.nv ∧ t.procs = s.procs ∧ t.time = s.time ∧
    t.fwd = s.fwd ∧ t.qos = s.qos ∧ t.radio = s.radio ∧ t.mesh = s.mesh ∧ t.pins = s.pins ∧ t.power = s.power ∧
    t.jtag = s.jtag ∧ t.pair = s.pair ∧ t.svc = s.svc ∧ t.snap = s.snap ∧ t.bist = s.bist ∧ t.trace = s.trace ∧
    t.ctr = s.ctr ∧ t.draws = s.draws ∧ t.pending = s.pending := by
  unfold State.modPort
  repeat' (first | split | simp)

@[simp] theorem State.takeDesc_frame (s : State) (f) :
    let t := State.takeDesc s f
    t.ms = s.ms ∧ t.cfg = s.cfg ∧ t.nv = s.nv ∧ t.procs = s.procs ∧ t.time = s.time ∧ t.ports = s.ports ∧
    t.fwd = s.fwd ∧ t.qos = s.qos ∧ t.radio = s.radio ∧ t.mesh = s.mesh ∧ t.pins = s.pins ∧ t.power = s.power ∧
    t.jtag = s.jtag ∧ t.pair = s.pair ∧ t.svc = s.svc ∧ t.snap = s.snap ∧ t.bist = s.bist ∧ t.trace = s.trace ∧
    t.ctr = s.ctr ∧ t.draws = s.draws ∧ t.pending = s.pending := by
  unfold State.takeDesc
  repeat' (first | split | simp)

@[simp] theorem State.writeResponse_frame (s : State) (f) (tag) (y) :
    let t := State.writeResponse s f tag y
    t.ms = s.ms ∧ t.cfg = s.cfg ∧ t.nv = s.nv ∧ t.procs = s.procs ∧ t.time = s.time ∧ t.ports = s.ports ∧
    t.fwd = s.fwd ∧ t.qos = s.qos ∧ t.radio = s.radio ∧ t.mesh = s.mesh ∧ t.pins = s.pins ∧ t.power = s.power ∧
    t.jtag = s.jtag ∧ t.pair = s.pair ∧ t.svc = s.svc ∧ t.snap = s.snap ∧ t.bist = s.bist ∧ t.trace = s.trace ∧
    t.ctr = s.ctr ∧ t.draws = s.draws ∧ t.pending = s.pending := by
  unfold State.writeResponse
  repeat' (first | split | simp)

@[simp] theorem State.answer_frame (s : State) (r) (y) :
    let t := State.answer s r y
    t.ms = s.ms ∧ t.cfg = s.cfg ∧ t.nv = s.nv ∧ t.procs = s.procs ∧ t.time = s.time ∧ t.ports = s.ports ∧
    t.fwd = s.fwd ∧ t.qos = s.qos ∧ t.radio = s.radio ∧ t.mesh = s.mesh ∧ t.pins = s.pins ∧ t.power = s.power ∧
    t.jtag = s.jtag ∧ t.pair = s.pair ∧ t.svc = s.svc ∧ t.snap = s.snap ∧ t.bist = s.bist ∧ t.trace = s.trace ∧
    t.ctr = s.ctr ∧ t.draws = s.draws ∧ t.pending = s.pending := by
  unfold State.answer
  repeat' (first | split | simp)

@[simp] theorem State.answerLater_frame (s : State) (r) (y) :
    let t := State.answerLater s r y
    t.ms = s.ms ∧ t.cfg = s.cfg ∧ t.nv = s.nv ∧ t.procs = s.procs ∧ t.time = s.time ∧ t.ports = s.ports ∧
    t.fwd = s.fwd ∧ t.qos = s.qos ∧ t.radio = s.radio ∧ t.mesh = s.mesh ∧ t.pins = s.pins ∧ t.power = s.power ∧
    t.jtag = s.jtag ∧ t.pair = s.pair ∧ t.svc = s.svc ∧ t.snap = s.snap ∧ t.bist = s.bist ∧ t.trace = s.trace ∧
    t.ctr = s.ctr ∧ t.draws = s.draws ∧ t.pending = s.pending := by
  unfold State.answerLater
  repeat' (first | split | simp)

@[simp] theorem State.completionEvent_frame (s : State) (f) (tag) (opcode) (status) (sub) (result) (well) :
    let t := State.completionEvent s f tag opcode status sub result well
    t.ms = s.ms ∧ t.cfg = s.cfg ∧ t.nv = s.nv ∧ t.procs = s.procs ∧ t.time = s.time ∧ t.ports = s.ports ∧
    t.fwd = s.fwd ∧ t.qos = s.qos ∧ t.radio = s.radio ∧ t.mesh = s.mesh ∧ t.pins = s.pins ∧ t.power = s.power ∧
    t.jtag = s.jtag ∧ t.pair = s.pair ∧ t.svc = s.svc ∧ t.snap = s.snap ∧ t.bist = s.bist ∧ t.trace = s.trace ∧
    t.ctr = s.ctr ∧ t.draws = s.draws ∧ t.pending = s.pending := by
  unfold State.completionEvent
  repeat' (first | split | simp)

@[simp] theorem State.noteFinal_frame (s : State) (ref) (f) (status) (sub) (result) :
    let t := State.noteFinal s ref f status sub result
    t.ms = s.ms ∧ t.host = s.host ∧ t.cfg = s.cfg ∧ t.nv = s.nv ∧ t.procs = s.procs ∧ t.time = s.time ∧
    t.ports = s.ports ∧ t.fwd = s.fwd ∧ t.qos = s.qos ∧ t.radio = s.radio ∧ t.mesh = s.mesh ∧ t.pins = s.pins ∧
    t.power = s.power ∧ t.jtag = s.jtag ∧ t.svc = s.svc ∧ t.snap = s.snap ∧ t.bist = s.bist ∧ t.trace = s.trace ∧
    t.ctr = s.ctr ∧ t.draws = s.draws ∧ t.pending = s.pending := by
  unfold State.noteFinal
  repeat' (first | split | simp)

@[simp] theorem State.complete_frame (s : State) (f) (tag) (opcode) (status) (sub) (result) :
    let t := State.complete s f tag opcode status sub result
    t.ms = s.ms ∧ t.cfg = s.cfg ∧ t.nv = s.nv ∧ t.procs = s.procs ∧ t.time = s.time ∧ t.ports = s.ports ∧
    t.fwd = s.fwd ∧ t.qos = s.qos ∧ t.radio = s.radio ∧ t.mesh = s.mesh ∧ t.pins = s.pins ∧ t.power = s.power ∧
    t.jtag = s.jtag ∧ t.svc = s.svc ∧ t.snap = s.snap ∧ t.bist = s.bist ∧ t.trace = s.trace ∧ t.ctr = s.ctr ∧
    t.draws = s.draws ∧ t.pending = s.pending := by
  unfold State.complete
  repeat' (first | split | simp)

@[simp] theorem State.carryCommand_frame (s : State) (r) :
    let t := State.carryCommand s r
    t.ms = s.ms ∧ t.host = s.host ∧ t.cfg = s.cfg ∧ t.nv = s.nv ∧ t.procs = s.procs ∧ t.time = s.time ∧
    t.ports = s.ports ∧ t.fwd = s.fwd ∧ t.qos = s.qos ∧ t.radio = s.radio ∧ t.mesh = s.mesh ∧ t.pins = s.pins ∧
    t.power = s.power ∧ t.jtag = s.jtag ∧ t.svc = s.svc ∧ t.snap = s.snap ∧ t.bist = s.bist ∧ t.trace = s.trace ∧
    t.ctr = s.ctr ∧ t.draws = s.draws ∧ t.pending = s.pending := by
  unfold State.carryCommand
  repeat' (first | split | simp)

@[simp] theorem State.replyAfterCommit_frame (s : State) (r) (y) :
    let t := State.replyAfterCommit s r y
    t.ms = s.ms ∧ t.cfg = s.cfg ∧ t.procs = s.procs ∧ t.time = s.time ∧ t.ports = s.ports ∧ t.fwd = s.fwd ∧
    t.qos = s.qos ∧ t.radio = s.radio ∧ t.mesh = s.mesh ∧ t.pins = s.pins ∧ t.power = s.power ∧ t.jtag = s.jtag ∧
    t.pair = s.pair ∧ t.svc = s.svc ∧ t.snap = s.snap ∧ t.bist = s.bist ∧ t.trace = s.trace ∧ t.ctr = s.ctr ∧
    t.draws = s.draws ∧ t.pending = s.pending := by
  unfold State.replyAfterCommit
  repeat' (first | split | simp)

@[simp] theorem AciSpec.run_ms (c : AciSpec) (r : Req) (s : State) (h : ∀ r s, (c.effect r s).1.ms = s.ms) :
    (c.run r s).ms = s.ms := by
  unfold AciSpec.run
  repeat' (first | split | simp [h])

@[simp] theorem AciSpec.run_cfg (c : AciSpec) (r : Req) (s : State) (h : ∀ r s, (c.effect r s).1.cfg = s.cfg) :
    (c.run r s).cfg = s.cfg := by
  unfold AciSpec.run
  repeat' (first | split | simp [h])

@[simp] theorem AciSpec.run_procs (c : AciSpec) (r : Req) (s : State) (h : ∀ r s, (c.effect r s).1.procs = s.procs) :
    (c.run r s).procs = s.procs := by
  unfold AciSpec.run
  repeat' (first | split | simp [h])

@[simp] theorem AciSpec.run_time (c : AciSpec) (r : Req) (s : State) (h : ∀ r s, (c.effect r s).1.time = s.time) :
    (c.run r s).time = s.time := by
  unfold AciSpec.run
  repeat' (first | split | simp [h])

@[simp] theorem AciSpec.run_ports (c : AciSpec) (r : Req) (s : State) (h : ∀ r s, (c.effect r s).1.ports = s.ports) :
    (c.run r s).ports = s.ports := by
  unfold AciSpec.run
  repeat' (first | split | simp [h])

@[simp] theorem AciSpec.run_fwd (c : AciSpec) (r : Req) (s : State) (h : ∀ r s, (c.effect r s).1.fwd = s.fwd) :
    (c.run r s).fwd = s.fwd := by
  unfold AciSpec.run
  repeat' (first | split | simp [h])

@[simp] theorem AciSpec.run_qos (c : AciSpec) (r : Req) (s : State) (h : ∀ r s, (c.effect r s).1.qos = s.qos) :
    (c.run r s).qos = s.qos := by
  unfold AciSpec.run
  repeat' (first | split | simp [h])

@[simp] theorem AciSpec.run_radio (c : AciSpec) (r : Req) (s : State) (h : ∀ r s, (c.effect r s).1.radio = s.radio) :
    (c.run r s).radio = s.radio := by
  unfold AciSpec.run
  repeat' (first | split | simp [h])

@[simp] theorem AciSpec.run_mesh (c : AciSpec) (r : Req) (s : State) (h : ∀ r s, (c.effect r s).1.mesh = s.mesh) :
    (c.run r s).mesh = s.mesh := by
  unfold AciSpec.run
  repeat' (first | split | simp [h])

@[simp] theorem AciSpec.run_pins (c : AciSpec) (r : Req) (s : State) (h : ∀ r s, (c.effect r s).1.pins = s.pins) :
    (c.run r s).pins = s.pins := by
  unfold AciSpec.run
  repeat' (first | split | simp [h])

@[simp] theorem AciSpec.run_power (c : AciSpec) (r : Req) (s : State) (h : ∀ r s, (c.effect r s).1.power = s.power) :
    (c.run r s).power = s.power := by
  unfold AciSpec.run
  repeat' (first | split | simp [h])

@[simp] theorem AciSpec.run_jtag (c : AciSpec) (r : Req) (s : State) (h : ∀ r s, (c.effect r s).1.jtag = s.jtag) :
    (c.run r s).jtag = s.jtag := by
  unfold AciSpec.run
  repeat' (first | split | simp [h])

@[simp] theorem AciSpec.run_pair (c : AciSpec) (r : Req) (s : State) (h : ∀ r s, (c.effect r s).1.pair = s.pair) :
    (c.run r s).pair = s.pair := by
  unfold AciSpec.run
  repeat' (first | split | simp [h])

@[simp] theorem AciSpec.run_svc (c : AciSpec) (r : Req) (s : State) (h : ∀ r s, (c.effect r s).1.svc = s.svc) :
    (c.run r s).svc = s.svc := by
  unfold AciSpec.run
  repeat' (first | split | simp [h])

@[simp] theorem AciSpec.run_snap (c : AciSpec) (r : Req) (s : State) (h : ∀ r s, (c.effect r s).1.snap = s.snap) :
    (c.run r s).snap = s.snap := by
  unfold AciSpec.run
  repeat' (first | split | simp [h])

@[simp] theorem AciSpec.run_bist (c : AciSpec) (r : Req) (s : State) (h : ∀ r s, (c.effect r s).1.bist = s.bist) :
    (c.run r s).bist = s.bist := by
  unfold AciSpec.run
  repeat' (first | split | simp [h])

@[simp] theorem AciSpec.run_trace (c : AciSpec) (r : Req) (s : State) (h : ∀ r s, (c.effect r s).1.trace = s.trace) :
    (c.run r s).trace = s.trace := by
  unfold AciSpec.run
  repeat' (first | split | simp [h])

@[simp] theorem AciSpec.run_ctr (c : AciSpec) (r : Req) (s : State) (h : ∀ r s, (c.effect r s).1.ctr = s.ctr) :
    (c.run r s).ctr = s.ctr := by
  unfold AciSpec.run
  repeat' (first | split | simp [h])

@[simp] theorem AciSpec.run_draws (c : AciSpec) (r : Req) (s : State) (h : ∀ r s, (c.effect r s).1.draws = s.draws) :
    (c.run r s).draws = s.draws := by
  unfold AciSpec.run
  repeat' (first | split | simp [h])

@[simp] theorem AciSpec.run_pending (c : AciSpec) (r : Req) (s : State) (h : ∀ r s, (c.effect r s).1.pending = s.pending) :
    (c.run r s).pending = s.pending := by
  unfold AciSpec.run
  repeat' (first | split | simp [h])

@[simp] theorem AciSpec.start_ms (c : AciSpec) (r : Req) (carry : Bool) (s : State) (h : ∀ r s, (c.effect r s).1.ms = s.ms) :
    (c.start r carry s).ms = s.ms := by
  unfold AciSpec.start
  repeat' (first | split | simp [h])

@[simp] theorem AciSpec.start_cfg (c : AciSpec) (r : Req) (carry : Bool) (s : State) (h : ∀ r s, (c.effect r s).1.cfg = s.cfg) :
    (c.start r carry s).cfg = s.cfg := by
  unfold AciSpec.start
  repeat' (first | split | simp [h])

@[simp] theorem AciSpec.start_procs (c : AciSpec) (r : Req) (carry : Bool) (s : State) (h : ∀ r s, (c.effect r s).1.procs = s.procs) :
    (c.start r carry s).procs = s.procs := by
  unfold AciSpec.start
  repeat' (first | split | simp [h])

@[simp] theorem AciSpec.start_time (c : AciSpec) (r : Req) (carry : Bool) (s : State) (h : ∀ r s, (c.effect r s).1.time = s.time) :
    (c.start r carry s).time = s.time := by
  unfold AciSpec.start
  repeat' (first | split | simp [h])

@[simp] theorem AciSpec.start_ports (c : AciSpec) (r : Req) (carry : Bool) (s : State) (h : ∀ r s, (c.effect r s).1.ports = s.ports) :
    (c.start r carry s).ports = s.ports := by
  unfold AciSpec.start
  repeat' (first | split | simp [h])

@[simp] theorem AciSpec.start_fwd (c : AciSpec) (r : Req) (carry : Bool) (s : State) (h : ∀ r s, (c.effect r s).1.fwd = s.fwd) :
    (c.start r carry s).fwd = s.fwd := by
  unfold AciSpec.start
  repeat' (first | split | simp [h])

@[simp] theorem AciSpec.start_qos (c : AciSpec) (r : Req) (carry : Bool) (s : State) (h : ∀ r s, (c.effect r s).1.qos = s.qos) :
    (c.start r carry s).qos = s.qos := by
  unfold AciSpec.start
  repeat' (first | split | simp [h])

@[simp] theorem AciSpec.start_radio (c : AciSpec) (r : Req) (carry : Bool) (s : State) (h : ∀ r s, (c.effect r s).1.radio = s.radio) :
    (c.start r carry s).radio = s.radio := by
  unfold AciSpec.start
  repeat' (first | split | simp [h])

@[simp] theorem AciSpec.start_mesh (c : AciSpec) (r : Req) (carry : Bool) (s : State) (h : ∀ r s, (c.effect r s).1.mesh = s.mesh) :
    (c.start r carry s).mesh = s.mesh := by
  unfold AciSpec.start
  repeat' (first | split | simp [h])

@[simp] theorem AciSpec.start_pins (c : AciSpec) (r : Req) (carry : Bool) (s : State) (h : ∀ r s, (c.effect r s).1.pins = s.pins) :
    (c.start r carry s).pins = s.pins := by
  unfold AciSpec.start
  repeat' (first | split | simp [h])

@[simp] theorem AciSpec.start_power (c : AciSpec) (r : Req) (carry : Bool) (s : State) (h : ∀ r s, (c.effect r s).1.power = s.power) :
    (c.start r carry s).power = s.power := by
  unfold AciSpec.start
  repeat' (first | split | simp [h])

@[simp] theorem AciSpec.start_jtag (c : AciSpec) (r : Req) (carry : Bool) (s : State) (h : ∀ r s, (c.effect r s).1.jtag = s.jtag) :
    (c.start r carry s).jtag = s.jtag := by
  unfold AciSpec.start
  repeat' (first | split | simp [h])

@[simp] theorem AciSpec.start_svc (c : AciSpec) (r : Req) (carry : Bool) (s : State) (h : ∀ r s, (c.effect r s).1.svc = s.svc) :
    (c.start r carry s).svc = s.svc := by
  unfold AciSpec.start
  repeat' (first | split | simp [h])

@[simp] theorem AciSpec.start_snap (c : AciSpec) (r : Req) (carry : Bool) (s : State) (h : ∀ r s, (c.effect r s).1.snap = s.snap) :
    (c.start r carry s).snap = s.snap := by
  unfold AciSpec.start
  repeat' (first | split | simp [h])

@[simp] theorem AciSpec.start_bist (c : AciSpec) (r : Req) (carry : Bool) (s : State) (h : ∀ r s, (c.effect r s).1.bist = s.bist) :
    (c.start r carry s).bist = s.bist := by
  unfold AciSpec.start
  repeat' (first | split | simp [h])

@[simp] theorem AciSpec.start_trace (c : AciSpec) (r : Req) (carry : Bool) (s : State) (h : ∀ r s, (c.effect r s).1.trace = s.trace) :
    (c.start r carry s).trace = s.trace := by
  unfold AciSpec.start
  repeat' (first | split | simp [h])

@[simp] theorem AciSpec.start_ctr (c : AciSpec) (r : Req) (carry : Bool) (s : State) (h : ∀ r s, (c.effect r s).1.ctr = s.ctr) :
    (c.start r carry s).ctr = s.ctr := by
  unfold AciSpec.start
  repeat' (first | split | simp [h])

@[simp] theorem AciSpec.start_draws (c : AciSpec) (r : Req) (carry : Bool) (s : State) (h : ∀ r s, (c.effect r s).1.draws = s.draws) :
    (c.start r carry s).draws = s.draws := by
  unfold AciSpec.start
  repeat' (first | split | simp [h])

@[simp] theorem AciSpec.start_pending (c : AciSpec) (r : Req) (carry : Bool) (s : State) (h : ∀ r s, (c.effect r s).1.pending = s.pending) :
    (c.start r carry s).pending = s.pending := by
  unfold AciSpec.start
  repeat' (first | split | simp [h])

@[simp] theorem AciSpec.exec_ms (c : AciSpec) (a : Aci) (s : State) (h : ∀ r s, (c.effect r s).1.ms = s.ms) :
    (c.exec a s).ms = s.ms := by
  unfold AciSpec.exec
  repeat' (first | split | simp [h])

@[simp] theorem AciSpec.exec_cfg (c : AciSpec) (a : Aci) (s : State) (h : ∀ r s, (c.effect r s).1.cfg = s.cfg) :
    (c.exec a s).cfg = s.cfg := by
  unfold AciSpec.exec
  repeat' (first | split | simp [h])

@[simp] theorem AciSpec.exec_procs (c : AciSpec) (a : Aci) (s : State) (h : ∀ r s, (c.effect r s).1.procs = s.procs) :
    (c.exec a s).procs = s.procs := by
  unfold AciSpec.exec
  repeat' (first | split | simp [h])

@[simp] theorem AciSpec.exec_time (c : AciSpec) (a : Aci) (s : State) (h : ∀ r s, (c.effect r s).1.time = s.time) :
    (c.exec a s).time = s.time := by
  unfold AciSpec.exec
  repeat' (first | split | simp [h])

@[simp] theorem AciSpec.exec_ports (c : AciSpec) (a : Aci) (s : State) (h : ∀ r s, (c.effect r s).1.ports = s.ports) :
    (c.exec a s).ports = s.ports := by
  unfold AciSpec.exec
  repeat' (first | split | simp [h])

@[simp] theorem AciSpec.exec_fwd (c : AciSpec) (a : Aci) (s : State) (h : ∀ r s, (c.effect r s).1.fwd = s.fwd) :
    (c.exec a s).fwd = s.fwd := by
  unfold AciSpec.exec
  repeat' (first | split | simp [h])

@[simp] theorem AciSpec.exec_qos (c : AciSpec) (a : Aci) (s : State) (h : ∀ r s, (c.effect r s).1.qos = s.qos) :
    (c.exec a s).qos = s.qos := by
  unfold AciSpec.exec
  repeat' (first | split | simp [h])

@[simp] theorem AciSpec.exec_radio (c : AciSpec) (a : Aci) (s : State) (h : ∀ r s, (c.effect r s).1.radio = s.radio) :
    (c.exec a s).radio = s.radio := by
  unfold AciSpec.exec
  repeat' (first | split | simp [h])

@[simp] theorem AciSpec.exec_mesh (c : AciSpec) (a : Aci) (s : State) (h : ∀ r s, (c.effect r s).1.mesh = s.mesh) :
    (c.exec a s).mesh = s.mesh := by
  unfold AciSpec.exec
  repeat' (first | split | simp [h])

@[simp] theorem AciSpec.exec_pins (c : AciSpec) (a : Aci) (s : State) (h : ∀ r s, (c.effect r s).1.pins = s.pins) :
    (c.exec a s).pins = s.pins := by
  unfold AciSpec.exec
  repeat' (first | split | simp [h])

@[simp] theorem AciSpec.exec_power (c : AciSpec) (a : Aci) (s : State) (h : ∀ r s, (c.effect r s).1.power = s.power) :
    (c.exec a s).power = s.power := by
  unfold AciSpec.exec
  repeat' (first | split | simp [h])

@[simp] theorem AciSpec.exec_jtag (c : AciSpec) (a : Aci) (s : State) (h : ∀ r s, (c.effect r s).1.jtag = s.jtag) :
    (c.exec a s).jtag = s.jtag := by
  unfold AciSpec.exec
  repeat' (first | split | simp [h])

@[simp] theorem AciSpec.exec_svc (c : AciSpec) (a : Aci) (s : State) (h : ∀ r s, (c.effect r s).1.svc = s.svc) :
    (c.exec a s).svc = s.svc := by
  unfold AciSpec.exec
  repeat' (first | split | simp [h])

@[simp] theorem AciSpec.exec_snap (c : AciSpec) (a : Aci) (s : State) (h : ∀ r s, (c.effect r s).1.snap = s.snap) :
    (c.exec a s).snap = s.snap := by
  unfold AciSpec.exec
  repeat' (first | split | simp [h])

@[simp] theorem AciSpec.exec_bist (c : AciSpec) (a : Aci) (s : State) (h : ∀ r s, (c.effect r s).1.bist = s.bist) :
    (c.exec a s).bist = s.bist := by
  unfold AciSpec.exec
  repeat' (first | split | simp [h])

@[simp] theorem AciSpec.exec_trace (c : AciSpec) (a : Aci) (s : State) (h : ∀ r s, (c.effect r s).1.trace = s.trace) :
    (c.exec a s).trace = s.trace := by
  unfold AciSpec.exec
  repeat' (first | split | simp [h])

@[simp] theorem AciSpec.exec_ctr (c : AciSpec) (a : Aci) (s : State) (h : ∀ r s, (c.effect r s).1.ctr = s.ctr) :
    (c.exec a s).ctr = s.ctr := by
  unfold AciSpec.exec
  repeat' (first | split | simp [h])

@[simp] theorem AciSpec.exec_draws (c : AciSpec) (a : Aci) (s : State) (h : ∀ r s, (c.effect r s).1.draws = s.draws) :
    (c.exec a s).draws = s.draws := by
  unfold AciSpec.exec
  repeat' (first | split | simp [h])

@[simp] theorem AciSpec.exec_pending (c : AciSpec) (a : Aci) (s : State) (h : ∀ r s, (c.effect r s).1.pending = s.pending) :
    (c.exec a s).pending = s.pending := by
  unfold AciSpec.exec
  repeat' (first | split | simp [h])

@[simp] theorem State.writeMboxCtrl_frame (s : State) (f) (word) :
    let t := State.writeMboxCtrl s f word
    t.ms = s.ms ∧ t.cfg = s.cfg ∧ t.nv = s.nv ∧ t.procs = s.procs ∧ t.time = s.time ∧ t.ports = s.ports ∧
    t.fwd = s.fwd ∧ t.qos = s.qos ∧ t.radio = s.radio ∧ t.mesh = s.mesh ∧ t.pins = s.pins ∧ t.power = s.power ∧
    t.jtag = s.jtag ∧ t.pair = s.pair ∧ t.svc = s.svc ∧ t.snap = s.snap ∧ t.bist = s.bist ∧ t.trace = s.trace ∧
    t.ctr = s.ctr ∧ t.draws = s.draws ∧ t.pending = s.pending := by
  unfold State.writeMboxCtrl
  repeat' (first | split | simp)

@[simp] theorem State.ringCmd_frame (s : State) (f) (n) :
    let t := State.ringCmd s f n
    t.ms = s.ms ∧ t.cfg = s.cfg ∧ t.nv = s.nv ∧ t.procs = s.procs ∧ t.time = s.time ∧ t.ports = s.ports ∧
    t.fwd = s.fwd ∧ t.qos = s.qos ∧ t.radio = s.radio ∧ t.mesh = s.mesh ∧ t.pins = s.pins ∧ t.power = s.power ∧
    t.jtag = s.jtag ∧ t.pair = s.pair ∧ t.svc = s.svc ∧ t.snap = s.snap ∧ t.bist = s.bist ∧ t.trace = s.trace ∧
    t.ctr = s.ctr ∧ t.draws = s.draws ∧ t.pending = s.pending := by
  unfold State.ringCmd
  repeat' (first | split | simp)

@[simp] theorem State.ringRsp_frame (s : State) (f) (n) :
    let t := State.ringRsp s f n
    t.ms = s.ms ∧ t.cfg = s.cfg ∧ t.nv = s.nv ∧ t.procs = s.procs ∧ t.time = s.time ∧ t.ports = s.ports ∧
    t.fwd = s.fwd ∧ t.qos = s.qos ∧ t.radio = s.radio ∧ t.mesh = s.mesh ∧ t.pins = s.pins ∧ t.power = s.power ∧
    t.jtag = s.jtag ∧ t.pair = s.pair ∧ t.svc = s.svc ∧ t.snap = s.snap ∧ t.bist = s.bist ∧ t.trace = s.trace ∧
    t.ctr = s.ctr ∧ t.draws = s.draws ∧ t.pending = s.pending := by
  unfold State.ringRsp
  repeat' (first | split | simp)

@[simp] theorem State.modPunt_frame (s : State) (f) (n) (g) :
    let t := State.modPunt s f n g
    t.ms = s.ms ∧ t.cfg = s.cfg ∧ t.nv = s.nv ∧ t.procs = s.procs ∧ t.time = s.time ∧ t.ports = s.ports ∧
    t.fwd = s.fwd ∧ t.qos = s.qos ∧ t.radio = s.radio ∧ t.mesh = s.mesh ∧ t.pins = s.pins ∧ t.power = s.power ∧
    t.jtag = s.jtag ∧ t.pair = s.pair ∧ t.svc = s.svc ∧ t.snap = s.snap ∧ t.bist = s.bist ∧ t.trace = s.trace ∧
    t.ctr = s.ctr ∧ t.draws = s.draws ∧ t.pending = s.pending := by
  unfold State.modPunt
  repeat' (first | split | simp)

@[simp] theorem State.modInj_frame (s : State) (f) (n) (g) :
    let t := State.modInj s f n g
    t.ms = s.ms ∧ t.cfg = s.cfg ∧ t.nv = s.nv ∧ t.procs = s.procs ∧ t.time = s.time ∧ t.ports = s.ports ∧
    t.fwd = s.fwd ∧ t.qos = s.qos ∧ t.radio = s.radio ∧ t.mesh = s.mesh ∧ t.pins = s.pins ∧ t.power = s.power ∧
    t.jtag = s.jtag ∧ t.pair = s.pair ∧ t.svc = s.svc ∧ t.snap = s.snap ∧ t.bist = s.bist ∧ t.trace = s.trace ∧
    t.ctr = s.ctr ∧ t.draws = s.draws ∧ t.pending = s.pending := by
  unfold State.modInj
  repeat' (first | split | simp)

@[simp] theorem State.ringPunt_frame (s : State) (f) (n) (c) :
    let t := State.ringPunt s f n c
    t.ms = s.ms ∧ t.cfg = s.cfg ∧ t.nv = s.nv ∧ t.procs = s.procs ∧ t.time = s.time ∧ t.ports = s.ports ∧
    t.fwd = s.fwd ∧ t.qos = s.qos ∧ t.radio = s.radio ∧ t.mesh = s.mesh ∧ t.pins = s.pins ∧ t.power = s.power ∧
    t.jtag = s.jtag ∧ t.pair = s.pair ∧ t.svc = s.svc ∧ t.snap = s.snap ∧ t.bist = s.bist ∧ t.trace = s.trace ∧
    t.ctr = s.ctr ∧ t.draws = s.draws ∧ t.pending = s.pending := by
  unfold State.ringPunt
  repeat' (first | split | simp)

@[simp] theorem State.ringInj_frame (s : State) (f) (n) (c) :
    let t := State.ringInj s f n c
    t.ms = s.ms ∧ t.cfg = s.cfg ∧ t.nv = s.nv ∧ t.procs = s.procs ∧ t.time = s.time ∧ t.ports = s.ports ∧
    t.fwd = s.fwd ∧ t.qos = s.qos ∧ t.radio = s.radio ∧ t.mesh = s.mesh ∧ t.pins = s.pins ∧ t.power = s.power ∧
    t.jtag = s.jtag ∧ t.pair = s.pair ∧ t.svc = s.svc ∧ t.snap = s.snap ∧ t.bist = s.bist ∧ t.trace = s.trace ∧
    t.ctr = s.ctr ∧ t.draws = s.draws ∧ t.pending = s.pending := by
  unfold State.ringInj
  repeat' (first | split | simp)

@[simp] theorem State.writeWellCtrl_frame (s : State) (w) (word) :
    let t := State.writeWellCtrl s w word
    t.ms = s.ms ∧ t.cfg = s.cfg ∧ t.nv = s.nv ∧ t.procs = s.procs ∧ t.time = s.time ∧ t.ports = s.ports ∧
    t.fwd = s.fwd ∧ t.qos = s.qos ∧ t.radio = s.radio ∧ t.mesh = s.mesh ∧ t.pins = s.pins ∧ t.power = s.power ∧
    t.jtag = s.jtag ∧ t.pair = s.pair ∧ t.svc = s.svc ∧ t.snap = s.snap ∧ t.bist = s.bist ∧ t.trace = s.trace ∧
    t.ctr = s.ctr ∧ t.draws = s.draws ∧ t.pending = s.pending := by
  unfold State.writeWellCtrl
  repeat' (first | split | simp)

@[simp] theorem State.writeDrain_frame (s : State) (w) (word) :
    let t := State.writeDrain s w word
    t.ms = s.ms ∧ t.cfg = s.cfg ∧ t.nv = s.nv ∧ t.procs = s.procs ∧ t.time = s.time ∧ t.ports = s.ports ∧
    t.fwd = s.fwd ∧ t.qos = s.qos ∧ t.radio = s.radio ∧ t.mesh = s.mesh ∧ t.pins = s.pins ∧ t.power = s.power ∧
    t.jtag = s.jtag ∧ t.pair = s.pair ∧ t.svc = s.svc ∧ t.snap = s.snap ∧ t.bist = s.bist ∧ t.trace = s.trace ∧
    t.ctr = s.ctr ∧ t.draws = s.draws ∧ t.pending = s.pending := by
  unfold State.writeDrain
  repeat' (first | split | simp)

@[simp] theorem State.writeLatch_frame (s : State) (w) (word) :
    let t := State.writeLatch s w word
    t.ms = s.ms ∧ t.cfg = s.cfg ∧ t.nv = s.nv ∧ t.procs = s.procs ∧ t.time = s.time ∧ t.ports = s.ports ∧
    t.fwd = s.fwd ∧ t.qos = s.qos ∧ t.radio = s.radio ∧ t.mesh = s.mesh ∧ t.pins = s.pins ∧ t.power = s.power ∧
    t.jtag = s.jtag ∧ t.pair = s.pair ∧ t.svc = s.svc ∧ t.snap = s.snap ∧ t.bist = s.bist ∧ t.trace = s.trace ∧
    t.ctr = s.ctr ∧ t.draws = s.draws ∧ t.pending = s.pending := by
  unfold State.writeLatch
  repeat' (first | split | simp)

@[simp] theorem State.unmask_frame (s : State) (f) (v) :
    let t := State.unmask s f v
    t.ms = s.ms ∧ t.cfg = s.cfg ∧ t.nv = s.nv ∧ t.procs = s.procs ∧ t.time = s.time ∧ t.ports = s.ports ∧
    t.fwd = s.fwd ∧ t.qos = s.qos ∧ t.radio = s.radio ∧ t.mesh = s.mesh ∧ t.pins = s.pins ∧ t.power = s.power ∧
    t.jtag = s.jtag ∧ t.pair = s.pair ∧ t.svc = s.svc ∧ t.snap = s.snap ∧ t.bist = s.bist ∧ t.trace = s.trace ∧
    t.ctr = s.ctr ∧ t.draws = s.draws ∧ t.pending = s.pending := by
  unfold State.unmask
  repeat' (first | split | simp)

@[simp] theorem State.flrOne_frame (s : State) (f) :
    let t := State.flrOne s f
    t.ms = s.ms ∧ t.cfg = s.cfg ∧ t.nv = s.nv ∧ t.procs = s.procs ∧ t.time = s.time ∧ t.ports = s.ports ∧
    t.fwd = s.fwd ∧ t.qos = s.qos ∧ t.radio = s.radio ∧ t.mesh = s.mesh ∧ t.pins = s.pins ∧ t.power = s.power ∧
    t.jtag = s.jtag ∧ t.pair = s.pair ∧ t.svc = s.svc ∧ t.snap = s.snap ∧ t.bist = s.bist ∧ t.trace = s.trace ∧
    t.ctr = s.ctr ∧ t.draws = s.draws ∧ t.pending = s.pending := by
  unfold State.flrOne
  repeat' (first | split | simp)

@[simp] theorem State.dropResponses_frame (s : State) (f) :
    let t := State.dropResponses s f
    t.ms = s.ms ∧ t.cfg = s.cfg ∧ t.nv = s.nv ∧ t.procs = s.procs ∧ t.time = s.time ∧ t.ports = s.ports ∧
    t.fwd = s.fwd ∧ t.qos = s.qos ∧ t.radio = s.radio ∧ t.mesh = s.mesh ∧ t.pins = s.pins ∧ t.power = s.power ∧
    t.jtag = s.jtag ∧ t.svc = s.svc ∧ t.snap = s.snap ∧ t.bist = s.bist ∧ t.trace = s.trace ∧ t.ctr = s.ctr ∧
    t.draws = s.draws ∧ t.pending = s.pending := by
  unfold State.dropResponses
  repeat' (first | split | simp)

@[simp] theorem State.flr_frame (s : State) (f) :
    let t := State.flr s f
    t.ms = s.ms ∧ t.cfg = s.cfg ∧ t.nv = s.nv ∧ t.procs = s.procs ∧ t.time = s.time ∧ t.ports = s.ports ∧
    t.fwd = s.fwd ∧ t.qos = s.qos ∧ t.radio = s.radio ∧ t.mesh = s.mesh ∧ t.pins = s.pins ∧ t.power = s.power ∧
    t.jtag = s.jtag ∧ t.svc = s.svc ∧ t.snap = s.snap ∧ t.bist = s.bist ∧ t.trace = s.trace ∧ t.ctr = s.ctr ∧
    t.draws = s.draws ∧ t.pending = s.pending := by
  unfold State.flr
  repeat' (first | split | simp)

@[simp] theorem sysSetSharesSpec_frame (r : Req) (s : State) :
    let t := (sysSetSharesSpec.effect r s).1
    t.ms = s.ms ∧ t.host = s.host ∧ t.procs = s.procs ∧ t.time = s.time ∧ t.ports = s.ports ∧ t.fwd = s.fwd ∧
    t.qos = s.qos ∧ t.radio = s.radio ∧ t.mesh = s.mesh ∧ t.pins = s.pins ∧ t.power = s.power ∧ t.jtag = s.jtag ∧
    t.pair = s.pair ∧ t.svc = s.svc ∧ t.snap = s.snap ∧ t.bist = s.bist ∧ t.trace = s.trace ∧ t.ctr = s.ctr ∧
    t.draws = s.draws ∧ t.pending = s.pending := by
  unfold sysSetSharesSpec
  repeat' (first | split | simp)

@[simp] theorem sysWellAssignSpec_frame (r : Req) (s : State) :
    let t := (sysWellAssignSpec.effect r s).1
    t.ms = s.ms ∧ t.host = s.host ∧ t.procs = s.procs ∧ t.time = s.time ∧ t.ports = s.ports ∧ t.fwd = s.fwd ∧
    t.qos = s.qos ∧ t.radio = s.radio ∧ t.mesh = s.mesh ∧ t.pins = s.pins ∧ t.power = s.power ∧ t.jtag = s.jtag ∧
    t.pair = s.pair ∧ t.svc = s.svc ∧ t.snap = s.snap ∧ t.bist = s.bist ∧ t.trace = s.trace ∧ t.ctr = s.ctr ∧
    t.draws = s.draws ∧ t.pending = s.pending := by
  unfold sysWellAssignSpec
  repeat' (first | split | simp)

@[simp] theorem sysRingConfigSpec_frame (r : Req) (s : State) :
    let t := (sysRingConfigSpec.effect r s).1
    t.ms = s.ms ∧ t.cfg = s.cfg ∧ t.nv = s.nv ∧ t.procs = s.procs ∧ t.time = s.time ∧ t.ports = s.ports ∧
    t.fwd = s.fwd ∧ t.qos = s.qos ∧ t.radio = s.radio ∧ t.mesh = s.mesh ∧ t.pins = s.pins ∧ t.power = s.power ∧
    t.jtag = s.jtag ∧ t.pair = s.pair ∧ t.svc = s.svc ∧ t.snap = s.snap ∧ t.bist = s.bist ∧ t.trace = s.trace ∧
    t.ctr = s.ctr ∧ t.draws = s.draws ∧ t.pending = s.pending := by
  unfold sysRingConfigSpec
  repeat' (first | split | simp)

end Sys2Proof.Machine
end

