-- ==== Sys2Proof/Laws/FramePort.lean ====
section
/-! SUPPORT. Frames of the operations of the MAC tables, the Cistern, sites, slots and ports: for each operation, the parts of the
state that it leaves as they were. -/

namespace Sys2Proof.Machine

@[simp] theorem State.gaugeLearned_frame (s : State) (pipe) :
    let t := State.gaugeLearned s pipe
    t.ms = s.ms ∧ t.host = s.host ∧ t.cfg = s.cfg ∧ t.nv = s.nv ∧ t.procs = s.procs ∧ t.time = s.time ∧
    t.ports = s.ports ∧ t.fwd = s.fwd ∧ t.qos = s.qos ∧ t.radio = s.radio ∧ t.mesh = s.mesh ∧ t.pins = s.pins ∧
    t.power = s.power ∧ t.jtag = s.jtag ∧ t.pair = s.pair ∧ t.svc = s.svc ∧ t.snap = s.snap ∧ t.bist = s.bist ∧
    t.trace = s.trace ∧ t.draws = s.draws ∧ t.pending = s.pending := by
  unfold State.gaugeLearned
  repeat' (first | split | simp)

@[simp] theorem State.pipeEvent_frame (s : State) (type) (pipe) :
    let t := State.pipeEvent s type pipe
    t.ms = s.ms ∧ t.cfg = s.cfg ∧ t.nv = s.nv ∧ t.procs = s.procs ∧ t.time = s.time ∧ t.ports = s.ports ∧
    t.fwd = s.fwd ∧ t.qos = s.qos ∧ t.radio = s.radio ∧ t.mesh = s.mesh ∧ t.pins = s.pins ∧ t.power = s.power ∧
    t.jtag = s.jtag ∧ t.pair = s.pair ∧ t.svc = s.svc ∧ t.snap = s.snap ∧ t.bist = s.bist ∧ t.trace = s.trace ∧
    t.ctr = s.ctr ∧ t.draws = s.draws ∧ t.pending = s.pending := by
  unfold State.pipeEvent
  repeat' (first | split | simp)

@[simp] theorem State.queueLearn_frame (s : State) (pipe) (r) :
    let t := State.queueLearn s pipe r
    t.ms = s.ms ∧ t.cfg = s.cfg ∧ t.nv = s.nv ∧ t.procs = s.procs ∧ t.time = s.time ∧ t.ports = s.ports ∧
    t.qos = s.qos ∧ t.radio = s.radio ∧ t.mesh = s.mesh ∧ t.pins = s.pins ∧ t.power = s.power ∧ t.jtag = s.jtag ∧
    t.pair = s.pair ∧ t.svc = s.svc ∧ t.snap = s.snap ∧ t.bist = s.bist ∧ t.trace = s.trace ∧ t.draws = s.draws ∧
    t.pending = s.pending := by
  unfold State.queueLearn
  repeat' (first | split | simp)

@[simp] theorem State.decideLearn_frame (s : State) (pipe) (r) :
    let t := State.decideLearn s pipe r
    t.ms = s.ms ∧ t.cfg = s.cfg ∧ t.nv = s.nv ∧ t.procs = s.procs ∧ t.time = s.time ∧ t.ports = s.ports ∧
    t.qos = s.qos ∧ t.radio = s.radio ∧ t.mesh = s.mesh ∧ t.pins = s.pins ∧ t.power = s.power ∧ t.jtag = s.jtag ∧
    t.svc = s.svc ∧ t.snap = s.snap ∧ t.bist = s.bist ∧ t.trace = s.trace ∧ t.draws = s.draws ∧ t.pending = s.pending := by
  unfold State.decideLearn
  repeat' (first | split | simp)

@[simp] theorem State.sourceLookup_frame (s : State) (pipe) (port) (mac) (vlan) (may) :
    let t := State.sourceLookup s pipe port mac vlan may
    t.ms = s.ms ∧ t.cfg = s.cfg ∧ t.nv = s.nv ∧ t.procs = s.procs ∧ t.time = s.time ∧ t.ports = s.ports ∧
    t.qos = s.qos ∧ t.radio = s.radio ∧ t.mesh = s.mesh ∧ t.pins = s.pins ∧ t.power = s.power ∧ t.jtag = s.jtag ∧
    t.svc = s.svc ∧ t.snap = s.snap ∧ t.bist = s.bist ∧ t.trace = s.trace ∧ t.draws = s.draws ∧ t.pending = s.pending := by
  unfold State.sourceLookup
  repeat' (first | split | simp)

@[simp] theorem State.serveLearn_frame (s : State) (pipe) (r) :
    let t := State.serveLearn s pipe r
    t.ms = s.ms ∧ t.cfg = s.cfg ∧ t.nv = s.nv ∧ t.procs = s.procs ∧ t.time = s.time ∧ t.ports = s.ports ∧
    t.qos = s.qos ∧ t.radio = s.radio ∧ t.mesh = s.mesh ∧ t.pins = s.pins ∧ t.power = s.power ∧ t.jtag = s.jtag ∧
    t.pair = s.pair ∧ t.svc = s.svc ∧ t.snap = s.snap ∧ t.bist = s.bist ∧ t.trace = s.trace ∧ t.draws = s.draws ∧
    t.pending = s.pending := by
  unfold State.serveLearn
  repeat' (first | split | simp)

@[simp] theorem State.serveRefresh_frame (s : State) (pipe) (r) :
    let t := State.serveRefresh s pipe r
    t.ms = s.ms ∧ t.host = s.host ∧ t.cfg = s.cfg ∧ t.nv = s.nv ∧ t.procs = s.procs ∧ t.time = s.time ∧
    t.ports = s.ports ∧ t.qos = s.qos ∧ t.radio = s.radio ∧ t.mesh = s.mesh ∧ t.pins = s.pins ∧ t.power = s.power ∧
    t.jtag = s.jtag ∧ t.pair = s.pair ∧ t.svc = s.svc ∧ t.snap = s.snap ∧ t.bist = s.bist ∧ t.trace = s.trace ∧
    t.ctr = s.ctr ∧ t.draws = s.draws ∧ t.pending = s.pending := by
  unfold State.serveRefresh
  repeat' (first | split | simp)

@[simp] theorem State.removeAged_frame (s : State) (pipe) (mac) (vlan) :
    let t := State.removeAged s pipe mac vlan
    t.ms = s.ms ∧ t.host = s.host ∧ t.cfg = s.cfg ∧ t.nv = s.nv ∧ t.procs = s.procs ∧ t.time = s.time ∧
    t.ports = s.ports ∧ t.qos = s.qos ∧ t.radio = s.radio ∧ t.mesh = s.mesh ∧ t.pins = s.pins ∧ t.power = s.power ∧
    t.jtag = s.jtag ∧ t.pair = s.pair ∧ t.svc = s.svc ∧ t.snap = s.snap ∧ t.bist = s.bist ∧ t.trace = s.trace ∧
    t.draws = s.draws ∧ t.pending = s.pending := by
  unfold State.removeAged
  repeat' (first | split | simp)

@[simp] theorem State.sweepWay_frame (pipe) (b) (s : State) (w) :
    let t := State.sweepWay pipe b s w
    t.ms = s.ms ∧ t.host = s.host ∧ t.cfg = s.cfg ∧ t.nv = s.nv ∧ t.procs = s.procs ∧ t.time = s.time ∧
    t.ports = s.ports ∧ t.qos = s.qos ∧ t.radio = s.radio ∧ t.mesh = s.mesh ∧ t.pins = s.pins ∧ t.power = s.power ∧
    t.jtag = s.jtag ∧ t.svc = s.svc ∧ t.snap = s.snap ∧ t.bist = s.bist ∧ t.trace = s.trace ∧ t.draws = s.draws ∧
    t.pending = s.pending := by
  unfold State.sweepWay
  repeat' (first | split | simp)

@[simp] theorem State.sweepBucket_frame (s : State) (pipe) :
    let t := State.sweepBucket s pipe
    t.ms = s.ms ∧ t.host = s.host ∧ t.cfg = s.cfg ∧ t.nv = s.nv ∧ t.procs = s.procs ∧ t.time = s.time ∧
    t.ports = s.ports ∧ t.qos = s.qos ∧ t.radio = s.radio ∧ t.mesh = s.mesh ∧ t.pins = s.pins ∧ t.power = s.power ∧
    t.jtag = s.jtag ∧ t.svc = s.svc ∧ t.snap = s.snap ∧ t.bist = s.bist ∧ t.trace = s.trace ∧ t.draws = s.draws ∧
    t.pending = s.pending := by
  unfold State.sweepBucket
  repeat' (first | split | simp)

@[simp] theorem State.serveAll_frame (pipe) (x1 : State) (n2) (l3) :
    let t := (State.serveAll pipe x1 n2 l3).1
    t.ms = x1.ms ∧ t.cfg = x1.cfg ∧ t.nv = x1.nv ∧ t.procs = x1.procs ∧ t.time = x1.time ∧ t.ports = x1.ports ∧
    t.qos = x1.qos ∧ t.radio = x1.radio ∧ t.mesh = x1.mesh ∧ t.pins = x1.pins ∧ t.power = x1.power ∧
    t.jtag = x1.jtag ∧ t.pair = x1.pair ∧ t.svc = x1.svc ∧ t.snap = x1.snap ∧ t.bist = x1.bist ∧ t.trace = x1.trace ∧
    t.draws = x1.draws ∧ t.pending = x1.pending := by
  induction l3 generalizing pipe x1 n2 with
  | nil => simp [State.serveAll]
  | cons c l ih =>
    unfold State.serveAll
    repeat' (first | split | simp [ih])

@[simp] theorem State.maintenance_frame (s : State) (pipe) :
    let t := State.maintenance s pipe
    t.ms = s.ms ∧ t.cfg = s.cfg ∧ t.nv = s.nv ∧ t.procs = s.procs ∧ t.time = s.time ∧ t.ports = s.ports ∧
    t.qos = s.qos ∧ t.radio = s.radio ∧ t.mesh = s.mesh ∧ t.pins = s.pins ∧ t.power = s.power ∧ t.jtag = s.jtag ∧
    t.svc = s.svc ∧ t.snap = s.snap ∧ t.bist = s.bist ∧ t.trace = s.trace ∧ t.draws = s.draws ∧ t.pending = s.pending := by
  unfold State.maintenance
  repeat' (first | split | simp)

@[simp] theorem State.modSched_frame (s : State) (p) (f) :
    let t := State.modSched s p f
    t.ms = s.ms ∧ t.host = s.host ∧ t.cfg = s.cfg ∧ t.nv = s.nv ∧ t.procs = s.procs ∧ t.time = s.time ∧
    t.ports = s.ports ∧ t.fwd = s.fwd ∧ t.radio = s.radio ∧ t.mesh = s.mesh ∧ t.pins = s.pins ∧ t.power = s.power ∧
    t.jtag = s.jtag ∧ t.pair = s.pair ∧ t.svc = s.svc ∧ t.snap = s.snap ∧ t.bist = s.bist ∧ t.trace = s.trace ∧
    t.ctr = s.ctr ∧ t.draws = s.draws ∧ t.pending = s.pending := by
  unfold State.modSched
  repeat' (first | split | simp)

@[simp] theorem State.gaugeQueue_frame (s : State) (q) :
    let t := State.gaugeQueue s q
    t.ms = s.ms ∧ t.host = s.host ∧ t.cfg = s.cfg ∧ t.nv = s.nv ∧ t.procs = s.procs ∧ t.time = s.time ∧
    t.ports = s.ports ∧ t.fwd = s.fwd ∧ t.qos = s.qos ∧ t.radio = s.radio ∧ t.mesh = s.mesh ∧ t.pins = s.pins ∧
    t.power = s.power ∧ t.jtag = s.jtag ∧ t.pair = s.pair ∧ t.svc = s.svc ∧ t.snap = s.snap ∧ t.bist = s.bist ∧
    t.trace = s.trace ∧ t.draws = s.draws ∧ t.pending = s.pending := by
  unfold State.gaugeQueue
  repeat' (first | split | simp)

@[simp] theorem State.clearDeficit_frame (s : State) (q) :
    let t := State.clearDeficit s q
    t.ms = s.ms ∧ t.host = s.host ∧ t.cfg = s.cfg ∧ t.nv = s.nv ∧ t.procs = s.procs ∧ t.time = s.time ∧
    t.ports = s.ports ∧ t.fwd = s.fwd ∧ t.radio = s.radio ∧ t.mesh = s.mesh ∧ t.pins = s.pins ∧ t.power = s.power ∧
    t.jtag = s.jtag ∧ t.pair = s.pair ∧ t.svc = s.svc ∧ t.snap = s.snap ∧ t.bist = s.bist ∧ t.trace = s.trace ∧
    t.ctr = s.ctr ∧ t.draws = s.draws ∧ t.pending = s.pending := by
  unfold State.clearDeficit
  repeat' (first | split | simp)

@[simp] theorem State.setItems_frame (s : State) (q) (l) :
    let t := State.setItems s q l
    t.ms = s.ms ∧ t.host = s.host ∧ t.cfg = s.cfg ∧ t.nv = s.nv ∧ t.procs = s.procs ∧ t.time = s.time ∧
    t.ports = s.ports ∧ t.fwd = s.fwd ∧ t.radio = s.radio ∧ t.mesh = s.mesh ∧ t.pins = s.pins ∧ t.power = s.power ∧
    t.jtag = s.jtag ∧ t.pair = s.pair ∧ t.svc = s.svc ∧ t.snap = s.snap ∧ t.bist = s.bist ∧ t.trace = s.trace ∧
    t.ctr = s.ctr ∧ t.draws = s.draws ∧ t.pending = s.pending := by
  unfold State.setItems
  repeat' (first | split | simp)

@[simp] theorem State.letGo_frame (s : State) (id) :
    let t := State.letGo s id
    t.ms = s.ms ∧ t.host = s.host ∧ t.cfg = s.cfg ∧ t.nv = s.nv ∧ t.procs = s.procs ∧ t.time = s.time ∧
    t.ports = s.ports ∧ t.fwd = s.fwd ∧ t.radio = s.radio ∧ t.mesh = s.mesh ∧ t.pins = s.pins ∧ t.power = s.power ∧
    t.jtag = s.jtag ∧ t.pair = s.pair ∧ t.svc = s.svc ∧ t.snap = s.snap ∧ t.bist = s.bist ∧ t.trace = s.trace ∧
    t.ctr = s.ctr ∧ t.draws = s.draws ∧ t.pending = s.pending := by
  unfold State.letGo
  repeat' (first | split | simp)

@[simp] theorem State.settleList_frame (s : State) (q) (now) (late) (up) (l5) :
    let t := State.settleList s q now late up l5
    t.ms = s.ms ∧ t.host = s.host ∧ t.cfg = s.cfg ∧ t.nv = s.nv ∧ t.procs = s.procs ∧ t.time = s.time ∧
    t.ports = s.ports ∧ t.fwd = s.fwd ∧ t.radio = s.radio ∧ t.mesh = s.mesh ∧ t.pins = s.pins ∧ t.power = s.power ∧
    t.jtag = s.jtag ∧ t.pair = s.pair ∧ t.svc = s.svc ∧ t.snap = s.snap ∧ t.bist = s.bist ∧ t.trace = s.trace ∧
    t.draws = s.draws ∧ t.pending = s.pending := by
  induction l5 generalizing s q now late up with
  | nil => simp [State.settleList]
  | cons c l ih =>
    unfold State.settleList
    repeat' (first | split | simp [ih])

@[simp] theorem State.settle_frame (s : State) (q) :
    let t := State.settle s q
    t.ms = s.ms ∧ t.host = s.host ∧ t.cfg = s.cfg ∧ t.nv = s.nv ∧ t.procs = s.procs ∧ t.time = s.time ∧
    t.ports = s.ports ∧ t.fwd = s.fwd ∧ t.radio = s.radio ∧ t.mesh = s.mesh ∧ t.pins = s.pins ∧ t.power = s.power ∧
    t.jtag = s.jtag ∧ t.pair = s.pair ∧ t.svc = s.svc ∧ t.snap = s.snap ∧ t.bist = s.bist ∧ t.trace = s.trace ∧
    t.draws = s.draws ∧ t.pending = s.pending := by
  unfold State.settle
  repeat' (first | split | simp)

@[simp] theorem State.settleBase_frame (s : State) (tb) :
    let t := State.settleBase s tb
    t.ms = s.ms ∧ t.host = s.host ∧ t.cfg = s.cfg ∧ t.nv = s.nv ∧ t.procs = s.procs ∧ t.time = s.time ∧
    t.ports = s.ports ∧ t.fwd = s.fwd ∧ t.radio = s.radio ∧ t.mesh = s.mesh ∧ t.pins = s.pins ∧ t.power = s.power ∧
    t.jtag = s.jtag ∧ t.pair = s.pair ∧ t.svc = s.svc ∧ t.snap = s.snap ∧ t.bist = s.bist ∧ t.trace = s.trace ∧
    t.draws = s.draws ∧ t.pending = s.pending := by
  unfold State.settleBase
  repeat' (first | split | simp)

@[simp] theorem State.append_frame (s : State) (q) (x2) :
    let t := State.append s q x2
    t.ms = s.ms ∧ t.host = s.host ∧ t.cfg = s.cfg ∧ t.nv = s.nv ∧ t.procs = s.procs ∧ t.time = s.time ∧
    t.ports = s.ports ∧ t.fwd = s.fwd ∧ t.radio = s.radio ∧ t.mesh = s.mesh ∧ t.pins = s.pins ∧ t.power = s.power ∧
    t.jtag = s.jtag ∧ t.pair = s.pair ∧ t.svc = s.svc ∧ t.snap = s.snap ∧ t.bist = s.bist ∧ t.trace = s.trace ∧
    t.draws = s.draws ∧ t.pending = s.pending := by
  unfold State.append
  repeat' (first | split | simp)

@[simp] theorem State.takeIn_frame (s : State) (pipe) (q) (colour) (x4) :
    let t := (State.takeIn s pipe q colour x4).1
    t.ms = s.ms ∧ t.host = s.host ∧ t.cfg = s.cfg ∧ t.nv = s.nv ∧ t.procs = s.procs ∧ t.time = s.time ∧
    t.ports = s.ports ∧ t.fwd = s.fwd ∧ t.radio = s.radio ∧ t.mesh = s.mesh ∧ t.pins = s.pins ∧ t.power = s.power ∧
    t.jtag = s.jtag ∧ t.pair = s.pair ∧ t.svc = s.svc ∧ t.snap = s.snap ∧ t.bist = s.bist ∧ t.trace = s.trace ∧
    t.draws = s.draws ∧ t.pending = s.pending := by
  unfold State.takeIn
  repeat' (first | split | simp)

@[simp] theorem State.newId_frame (s : State) :
    let t := (State.newId s).2
    t.ms = s.ms ∧ t.host = s.host ∧ t.cfg = s.cfg ∧ t.nv = s.nv ∧ t.procs = s.procs ∧ t.time = s.time ∧
    t.ports = s.ports ∧ t.fwd = s.fwd ∧ t.radio = s.radio ∧ t.mesh = s.mesh ∧ t.pins = s.pins ∧ t.power = s.power ∧
    t.jtag = s.jtag ∧ t.pair = s.pair ∧ t.svc = s.svc ∧ t.snap = s.snap ∧ t.bist = s.bist ∧ t.trace = s.trace ∧
    t.ctr = s.ctr ∧ t.draws = s.draws ∧ t.pending = s.pending := by
  unfold State.newId
  repeat' (first | split | simp)

@[simp] theorem State.chargeShaper_frame (s : State) (level) (index) (len) :
    let t := State.chargeShaper s level index len
    t.ms = s.ms ∧ t.host = s.host ∧ t.cfg = s.cfg ∧ t.nv = s.nv ∧ t.procs = s.procs ∧ t.time = s.time ∧
    t.ports = s.ports ∧ t.fwd = s.fwd ∧ t.radio = s.radio ∧ t.mesh = s.mesh ∧ t.pins = s.pins ∧ t.power = s.power ∧
    t.jtag = s.jtag ∧ t.pair = s.pair ∧ t.svc = s.svc ∧ t.snap = s.snap ∧ t.bist = s.bist ∧ t.trace = s.trace ∧
    t.ctr = s.ctr ∧ t.draws = s.draws ∧ t.pending = s.pending := by
  unfold State.chargeShaper
  repeat' (first | split | simp)

@[simp] theorem State.noteStart_frame (s : State) (p) (id) :
    let t := State.noteStart s p id
    t.ms = s.ms ∧ t.host = s.host ∧ t.cfg = s.cfg ∧ t.nv = s.nv ∧ t.procs = s.procs ∧ t.time = s.time ∧
    t.ports = s.ports ∧ t.fwd = s.fwd ∧ t.qos = s.qos ∧ t.radio = s.radio ∧ t.mesh = s.mesh ∧ t.pins = s.pins ∧
    t.power = s.power ∧ t.jtag = s.jtag ∧ t.svc = s.svc ∧ t.snap = s.snap ∧ t.bist = s.bist ∧ t.trace = s.trace ∧
    t.ctr = s.ctr ∧ t.draws = s.draws ∧ t.pending = s.pending := by
  unfold State.noteStart
  repeat' (first | split | simp)

@[simp] theorem State.noteSent_frame (s : State) (p) (i) :
    let t := State.noteSent s p i
    t.ms = s.ms ∧ t.host = s.host ∧ t.cfg = s.cfg ∧ t.nv = s.nv ∧ t.procs = s.procs ∧ t.time = s.time ∧
    t.ports = s.ports ∧ t.fwd = s.fwd ∧ t.qos = s.qos ∧ t.radio = s.radio ∧ t.mesh = s.mesh ∧ t.pins = s.pins ∧
    t.power = s.power ∧ t.jtag = s.jtag ∧ t.svc = s.svc ∧ t.snap = s.snap ∧ t.bist = s.bist ∧ t.trace = s.trace ∧
    t.ctr = s.ctr ∧ t.draws = s.draws ∧ t.pending = s.pending := by
  unfold State.noteSent
  repeat' (first | split | simp)

@[simp] theorem State.start_frame (s : State) (q) (i) :
    let t := State.start s q i
    t.ms = s.ms ∧ t.host = s.host ∧ t.cfg = s.cfg ∧ t.nv = s.nv ∧ t.procs = s.procs ∧ t.time = s.time ∧
    t.ports = s.ports ∧ t.fwd = s.fwd ∧ t.radio = s.radio ∧ t.mesh = s.mesh ∧ t.pins = s.pins ∧ t.power = s.power ∧
    t.jtag = s.jtag ∧ t.svc = s.svc ∧ t.snap = s.snap ∧ t.bist = s.bist ∧ t.trace = s.trace ∧ t.draws = s.draws ∧
    t.pending = s.pending := by
  unfold State.start
  repeat' (first | split | simp)

@[simp] theorem State.emit_frame (s : State) (q) (i) :
    let t := State.emit s q i
    t.ms = s.ms ∧ t.host = s.host ∧ t.cfg = s.cfg ∧ t.nv = s.nv ∧ t.procs = s.procs ∧ t.time = s.time ∧
    t.ports = s.ports ∧ t.fwd = s.fwd ∧ t.radio = s.radio ∧ t.mesh = s.mesh ∧ t.pins = s.pins ∧ t.power = s.power ∧
    t.jtag = s.jtag ∧ t.svc = s.svc ∧ t.snap = s.snap ∧ t.bist = s.bist ∧ t.trace = s.trace ∧ t.draws = s.draws ∧
    t.pending = s.pending := by
  unfold State.emit
  repeat' (first | split | simp)

@[simp] theorem State.finish_frame (s : State) (p) :
    let t := State.finish s p
    t.ms = s.ms ∧ t.host = s.host ∧ t.cfg = s.cfg ∧ t.nv = s.nv ∧ t.procs = s.procs ∧ t.time = s.time ∧
    t.fwd = s.fwd ∧ t.radio = s.radio ∧ t.mesh = s.mesh ∧ t.pins = s.pins ∧ t.power = s.power ∧ t.jtag = s.jtag ∧
    t.pair = s.pair ∧ t.svc = s.svc ∧ t.snap = s.snap ∧ t.bist = s.bist ∧ t.trace = s.trace ∧ t.draws = s.draws ∧
    t.pending = s.pending := by
  unfold State.finish
  repeat' (first | split | simp)

@[simp] theorem State.discardHead_frame (s : State) (q) (i) :
    let t := State.discardHead s q i
    t.ms = s.ms ∧ t.host = s.host ∧ t.cfg = s.cfg ∧ t.nv = s.nv ∧ t.procs = s.procs ∧ t.time = s.time ∧
    t.ports = s.ports ∧ t.fwd = s.fwd ∧ t.radio = s.radio ∧ t.mesh = s.mesh ∧ t.pins = s.pins ∧ t.power = s.power ∧
    t.jtag = s.jtag ∧ t.pair = s.pair ∧ t.svc = s.svc ∧ t.snap = s.snap ∧ t.bist = s.bist ∧ t.trace = s.trace ∧
    t.draws = s.draws ∧ t.pending = s.pending := by
  unfold State.discardHead
  repeat' (first | split | simp)

@[simp] theorem State.choose_frame (s : State) (p) (expressOnly) :
    let t := (State.choose s p expressOnly).1
    t.ms = s.ms ∧ t.host = s.host ∧ t.cfg = s.cfg ∧ t.nv = s.nv ∧ t.procs = s.procs ∧ t.time = s.time ∧
    t.ports = s.ports ∧ t.fwd = s.fwd ∧ t.radio = s.radio ∧ t.mesh = s.mesh ∧ t.pins = s.pins ∧ t.power = s.power ∧
    t.jtag = s.jtag ∧ t.pair = s.pair ∧ t.svc = s.svc ∧ t.snap = s.snap ∧ t.bist = s.bist ∧ t.trace = s.trace ∧
    t.ctr = s.ctr ∧ t.draws = s.draws ∧ t.pending = s.pending := by
  unfold State.choose
  repeat' (first | split | simp)

@[simp] theorem State.loseCell_frame (s : State) (id) :
    let t := State.loseCell s id
    t.ms = s.ms ∧ t.host = s.host ∧ t.cfg = s.cfg ∧ t.nv = s.nv ∧ t.procs = s.procs ∧ t.time = s.time ∧
    t.ports = s.ports ∧ t.fwd = s.fwd ∧ t.radio = s.radio ∧ t.mesh = s.mesh ∧ t.pins = s.pins ∧ t.power = s.power ∧
    t.jtag = s.jtag ∧ t.pair = s.pair ∧ t.svc = s.svc ∧ t.snap = s.snap ∧ t.bist = s.bist ∧ t.trace = s.trace ∧
    t.ctr = s.ctr ∧ t.draws = s.draws ∧ t.pending = s.pending := by
  unfold State.loseCell
  repeat' (first | split | simp)

@[simp] theorem State.retireCell_frame (s : State) (cell) (port) :
    let t := State.retireCell s cell port
    t.ms = s.ms ∧ t.cfg = s.cfg ∧ t.nv = s.nv ∧ t.procs = s.procs ∧ t.time = s.time ∧ t.ports = s.ports ∧
    t.fwd = s.fwd ∧ t.radio = s.radio ∧ t.mesh = s.mesh ∧ t.pins = s.pins ∧ t.power = s.power ∧ t.jtag = s.jtag ∧
    t.pair = s.pair ∧ t.svc = s.svc ∧ t.snap = s.snap ∧ t.bist = s.bist ∧ t.trace = s.trace ∧ t.draws = s.draws ∧
    t.pending = s.pending := by
  unfold State.retireCell
  repeat' (first | split | simp)

@[simp] theorem State.cellError_frame (s : State) (p) (id) (e) :
    let t := State.cellError s p id e
    t.ms = s.ms ∧ t.cfg = s.cfg ∧ t.nv = s.nv ∧ t.procs = s.procs ∧ t.time = s.time ∧ t.ports = s.ports ∧
    t.fwd = s.fwd ∧ t.radio = s.radio ∧ t.mesh = s.mesh ∧ t.pins = s.pins ∧ t.power = s.power ∧ t.jtag = s.jtag ∧
    t.svc = s.svc ∧ t.snap = s.snap ∧ t.bist = s.bist ∧ t.trace = s.trace ∧ t.draws = s.draws ∧ t.pending = s.pending := by
  unfold State.cellError
  repeat' (first | split | simp)

@[simp] theorem State.flushQueue_frame (s : State) (q) :
    let t := State.flushQueue s q
    t.ms = s.ms ∧ t.host = s.host ∧ t.cfg = s.cfg ∧ t.nv = s.nv ∧ t.procs = s.procs ∧ t.time = s.time ∧
    t.ports = s.ports ∧ t.fwd = s.fwd ∧ t.radio = s.radio ∧ t.mesh = s.mesh ∧ t.pins = s.pins ∧ t.power = s.power ∧
    t.jtag = s.jtag ∧ t.pair = s.pair ∧ t.svc = s.svc ∧ t.snap = s.snap ∧ t.bist = s.bist ∧ t.trace = s.trace ∧
    t.draws = s.draws ∧ t.pending = s.pending := by
  unfold State.flushQueue
  repeat' (first | split | simp)

@[simp] theorem State.flushPort_frame (s : State) (p) :
    let t := State.flushPort s p
    t.ms = s.ms ∧ t.host = s.host ∧ t.cfg = s.cfg ∧ t.nv = s.nv ∧ t.procs = s.procs ∧ t.time = s.time ∧
    t.ports = s.ports ∧ t.fwd = s.fwd ∧ t.radio = s.radio ∧ t.mesh = s.mesh ∧ t.pins = s.pins ∧ t.power = s.power ∧
    t.jtag = s.jtag ∧ t.pair = s.pair ∧ t.svc = s.svc ∧ t.snap = s.snap ∧ t.bist = s.bist ∧ t.trace = s.trace ∧
    t.draws = s.draws ∧ t.pending = s.pending := by
  unfold State.flushPort
  repeat' (first | split | simp)

@[simp] theorem State.flushTenant_frame (s : State) (t_) :
    let t := State.flushTenant s t_
    t.ms = s.ms ∧ t.host = s.host ∧ t.cfg = s.cfg ∧ t.nv = s.nv ∧ t.procs = s.procs ∧ t.time = s.time ∧
    t.ports = s.ports ∧ t.fwd = s.fwd ∧ t.radio = s.radio ∧ t.mesh = s.mesh ∧ t.pins = s.pins ∧ t.power = s.power ∧
    t.jtag = s.jtag ∧ t.pair = s.pair ∧ t.svc = s.svc ∧ t.snap = s.snap ∧ t.bist = s.bist ∧ t.trace = s.trace ∧
    t.draws = s.draws ∧ t.pending = s.pending := by
  unfold State.flushTenant
  repeat' (first | split | simp)

@[simp] theorem State.police_frame (s : State) (n) (p) (len) :
    let t := (State.police s n p len).1
    t.ms = s.ms ∧ t.host = s.host ∧ t.cfg = s.cfg ∧ t.nv = s.nv ∧ t.procs = s.procs ∧ t.time = s.time ∧
    t.ports = s.ports ∧ t.fwd = s.fwd ∧ t.radio = s.radio ∧ t.mesh = s.mesh ∧ t.pins = s.pins ∧ t.power = s.power ∧
    t.jtag = s.jtag ∧ t.pair = s.pair ∧ t.svc = s.svc ∧ t.snap = s.snap ∧ t.bist = s.bist ∧ t.trace = s.trace ∧
    t.draws = s.draws ∧ t.pending = s.pending := by
  unfold State.police
  repeat' (first | split | simp)

@[simp] theorem State.modSite_frame (s : State) (n) (f) :
    let t := State.modSite s n f
    t.ms = s.ms ∧ t.host = s.host ∧ t.cfg = s.cfg ∧ t.nv = s.nv ∧ t.procs = s.procs ∧ t.time = s.time ∧
    t.ports = s.ports ∧ t.fwd = s.fwd ∧ t.qos = s.qos ∧ t.mesh = s.mesh ∧ t.pins = s.pins ∧ t.power = s.power ∧
    t.jtag = s.jtag ∧ t.pair = s.pair ∧ t.svc = s.svc ∧ t.snap = s.snap ∧ t.bist = s.bist ∧ t.trace = s.trace ∧
    t.ctr = s.ctr ∧ t.draws = s.draws ∧ t.pending = s.pending := by
  unfold State.modSite
  repeat' (first | split | simp)

@[simp] theorem State.modDomain_frame (s : State) (d) (f) :
    let t := State.modDomain s d f
    t.ms = s.ms ∧ t.host = s.host ∧ t.cfg = s.cfg ∧ t.nv = s.nv ∧ t.procs = s.procs ∧ t.time = s.time ∧
    t.ports = s.ports ∧ t.fwd = s.fwd ∧ t.qos = s.qos ∧ t.mesh = s.mesh ∧ t.pins = s.pins ∧ t.power = s.power ∧
    t.jtag = s.jtag ∧ t.pair = s.pair ∧ t.svc = s.svc ∧ t.snap = s.snap ∧ t.bist = s.bist ∧ t.trace = s.trace ∧
    t.ctr = s.ctr ∧ t.draws = s.draws ∧ t.pending = s.pending := by
  unfold State.modDomain
  repeat' (first | split | simp)

@[simp] theorem State.siteEvent_frame (s : State) (type) (site) (band) (reason) (channel) (value) :
    let t := State.siteEvent s type site band reason channel value
    t.ms = s.ms ∧ t.cfg = s.cfg ∧ t.nv = s.nv ∧ t.procs = s.procs ∧ t.time = s.time ∧ t.ports = s.ports ∧
    t.fwd = s.fwd ∧ t.qos = s.qos ∧ t.radio = s.radio ∧ t.mesh = s.mesh ∧ t.pins = s.pins ∧ t.power = s.power ∧
    t.jtag = s.jtag ∧ t.pair = s.pair ∧ t.svc = s.svc ∧ t.snap = s.snap ∧ t.bist = s.bist ∧ t.trace = s.trace ∧
    t.ctr = s.ctr ∧ t.draws = s.draws ∧ t.pending = s.pending := by
  unfold State.siteEvent
  repeat' (first | split | simp)

@[simp] theorem State.toRadioPort_frame (s : State) (site) (queue) (frame) (sync) :
    let t := (State.toRadioPort s site queue frame sync).1
    t.ms = s.ms ∧ t.host = s.host ∧ t.cfg = s.cfg ∧ t.nv = s.nv ∧ t.procs = s.procs ∧ t.time = s.time ∧
    t.ports = s.ports ∧ t.fwd = s.fwd ∧ t.radio = s.radio ∧ t.mesh = s.mesh ∧ t.pins = s.pins ∧ t.power = s.power ∧
    t.jtag = s.jtag ∧ t.pair = s.pair ∧ t.svc = s.svc ∧ t.snap = s.snap ∧ t.bist = s.bist ∧ t.trace = s.trace ∧
    t.draws = s.draws ∧ t.pending = s.pending := by
  unfold State.toRadioPort
  repeat' (first | split | simp)

@[simp] theorem State.putWord_frame (s : State) (site) (word) :
    let t := (State.putWord s site word).1
    t.ms = s.ms ∧ t.host = s.host ∧ t.cfg = s.cfg ∧ t.nv = s.nv ∧ t.procs = s.procs ∧ t.time = s.time ∧
    t.ports = s.ports ∧ t.fwd = s.fwd ∧ t.mesh = s.mesh ∧ t.pins = s.pins ∧ t.power = s.power ∧ t.jtag = s.jtag ∧
    t.pair = s.pair ∧ t.svc = s.svc ∧ t.snap = s.snap ∧ t.bist = s.bist ∧ t.trace = s.trace ∧ t.draws = s.draws ∧
    t.pending = s.pending := by
  unfold State.putWord
  repeat' (first | split | simp)

@[simp] theorem State.sendDcw_frame (s : State) (site) (op) (band) (act) (ack) (body) :
    let t := (State.sendDcw s site op band act ack body).1
    t.ms = s.ms ∧ t.host = s.host ∧ t.cfg = s.cfg ∧ t.nv = s.nv ∧ t.procs = s.procs ∧ t.time = s.time ∧
    t.ports = s.ports ∧ t.fwd = s.fwd ∧ t.mesh = s.mesh ∧ t.pins = s.pins ∧ t.power = s.power ∧ t.jtag = s.jtag ∧
    t.pair = s.pair ∧ t.svc = s.svc ∧ t.snap = s.snap ∧ t.bist = s.bist ∧ t.trace = s.trace ∧ t.draws = s.draws ∧
    t.pending = s.pending := by
  unfold State.sendDcw
  repeat' (first | split | simp)

@[simp] theorem State.releaseGains_frame (s : State) (r) :
    let t := State.releaseGains s r
    t.ms = s.ms ∧ t.host = s.host ∧ t.cfg = s.cfg ∧ t.nv = s.nv ∧ t.procs = s.procs ∧ t.time = s.time ∧
    t.ports = s.ports ∧ t.fwd = s.fwd ∧ t.qos = s.qos ∧ t.mesh = s.mesh ∧ t.pins = s.pins ∧ t.power = s.power ∧
    t.jtag = s.jtag ∧ t.pair = s.pair ∧ t.svc = s.svc ∧ t.snap = s.snap ∧ t.bist = s.bist ∧ t.trace = s.trace ∧
    t.ctr = s.ctr ∧ t.draws = s.draws ∧ t.pending = s.pending := by
  unfold State.releaseGains
  repeat' (first | split | simp)

@[simp] theorem State.setRecv_frame (s : State) (r) :
    let t := State.setRecv s r
    t.ms = s.ms ∧ t.host = s.host ∧ t.cfg = s.cfg ∧ t.nv = s.nv ∧ t.procs = s.procs ∧ t.time = s.time ∧
    t.ports = s.ports ∧ t.fwd = s.fwd ∧ t.qos = s.qos ∧ t.mesh = s.mesh ∧ t.pins = s.pins ∧ t.power = s.power ∧
    t.jtag = s.jtag ∧ t.pair = s.pair ∧ t.svc = s.svc ∧ t.snap = s.snap ∧ t.bist = s.bist ∧ t.trace = s.trace ∧
    t.ctr = s.ctr ∧ t.draws = s.draws ∧ t.pending = s.pending := by
  unfold State.setRecv
  repeat' (first | split | simp)

@[simp] theorem State.endRecv_frame (s : State) (r) :
    let t := State.endRecv s r
    t.ms = s.ms ∧ t.host = s.host ∧ t.cfg = s.cfg ∧ t.nv = s.nv ∧ t.procs = s.procs ∧ t.time = s.time ∧
    t.ports = s.ports ∧ t.fwd = s.fwd ∧ t.qos = s.qos ∧ t.mesh = s.mesh ∧ t.pins = s.pins ∧ t.power = s.power ∧
    t.jtag = s.jtag ∧ t.pair = s.pair ∧ t.svc = s.svc ∧ t.snap = s.snap ∧ t.bist = s.bist ∧ t.trace = s.trace ∧
    t.ctr = s.ctr ∧ t.draws = s.draws ∧ t.pending = s.pending := by
  unfold State.endRecv
  repeat' (first | split | simp)

@[simp] theorem State.settleRecv_frame (s : State) (r) :
    let t := State.settleRecv s r
    t.ms = s.ms ∧ t.host = s.host ∧ t.cfg = s.cfg ∧ t.nv = s.nv ∧ t.procs = s.procs ∧ t.time = s.time ∧
    t.ports = s.ports ∧ t.fwd = s.fwd ∧ t.qos = s.qos ∧ t.mesh = s.mesh ∧ t.pins = s.pins ∧ t.power = s.power ∧
    t.jtag = s.jtag ∧ t.pair = s.pair ∧ t.svc = s.svc ∧ t.snap = s.snap ∧ t.bist = s.bist ∧ t.trace = s.trace ∧
    t.ctr = s.ctr ∧ t.draws = s.draws ∧ t.pending = s.pending := by
  unfold State.settleRecv
  repeat' (first | split | simp)

@[simp] theorem State.finishRecv_frame (s : State) (r) :
    let t := State.finishRecv s r
    t.ms = s.ms ∧ t.host = s.host ∧ t.cfg = s.cfg ∧ t.nv = s.nv ∧ t.procs = s.procs ∧ t.time = s.time ∧
    t.ports = s.ports ∧ t.fwd = s.fwd ∧ t.qos = s.qos ∧ t.mesh = s.mesh ∧ t.pins = s.pins ∧ t.power = s.power ∧
    t.jtag = s.jtag ∧ t.pair = s.pair ∧ t.svc = s.svc ∧ t.snap = s.snap ∧ t.bist = s.bist ∧ t.trace = s.trace ∧
    t.ctr = s.ctr ∧ t.draws = s.draws ∧ t.pending = s.pending := by
  unfold State.finishRecv
  repeat' (first | split | simp)

@[simp] theorem State.endRecvs_frame (s : State) (p) :
    let t := State.endRecvs s p
    t.ms = s.ms ∧ t.host = s.host ∧ t.cfg = s.cfg ∧ t.nv = s.nv ∧ t.procs = s.procs ∧ t.time = s.time ∧
    t.ports = s.ports ∧ t.fwd = s.fwd ∧ t.qos = s.qos ∧ t.mesh = s.mesh ∧ t.pins = s.pins ∧ t.power = s.power ∧
    t.jtag = s.jtag ∧ t.pair = s.pair ∧ t.svc = s.svc ∧ t.snap = s.snap ∧ t.bist = s.bist ∧ t.trace = s.trace ∧
    t.ctr = s.ctr ∧ t.draws = s.draws ∧ t.pending = s.pending := by
  unfold State.endRecvs
  repeat' (first | split | simp)

@[simp] theorem State.loseContext_frame (which) (s : State) (r) :
    let t := State.loseContext which s r
    t.ms = s.ms ∧ t.host = s.host ∧ t.cfg = s.cfg ∧ t.nv = s.nv ∧ t.procs = s.procs ∧ t.time = s.time ∧
    t.ports = s.ports ∧ t.fwd = s.fwd ∧ t.qos = s.qos ∧ t.mesh = s.mesh ∧ t.pins = s.pins ∧ t.power = s.power ∧
    t.jtag = s.jtag ∧ t.pair = s.pair ∧ t.svc = s.svc ∧ t.snap = s.snap ∧ t.bist = s.bist ∧ t.trace = s.trace ∧
    t.ctr = s.ctr ∧ t.draws = s.draws ∧ t.pending = s.pending := by
  unfold State.loseContext
  repeat' (first | split | simp)

@[simp] theorem State.loseContexts_frame (s : State) (site) :
    let t := State.loseContexts s site
    t.ms = s.ms ∧ t.host = s.host ∧ t.cfg = s.cfg ∧ t.nv = s.nv ∧ t.procs = s.procs ∧ t.time = s.time ∧
    t.ports = s.ports ∧ t.fwd = s.fwd ∧ t.qos = s.qos ∧ t.mesh = s.mesh ∧ t.pins = s.pins ∧ t.power = s.power ∧
    t.jtag = s.jtag ∧ t.pair = s.pair ∧ t.svc = s.svc ∧ t.snap = s.snap ∧ t.bist = s.bist ∧ t.trace = s.trace ∧
    t.ctr = s.ctr ∧ t.draws = s.draws ∧ t.pending = s.pending := by
  unfold State.loseContexts
  repeat' (first | split | simp)

@[simp] theorem State.siteOut_frame (s : State) (site) (reason) :
    let t := State.siteOut s site reason
    t.ms = s.ms ∧ t.cfg = s.cfg ∧ t.nv = s.nv ∧ t.procs = s.procs ∧ t.time = s.time ∧ t.ports = s.ports ∧
    t.fwd = s.fwd ∧ t.qos = s.qos ∧ t.mesh = s.mesh ∧ t.pins = s.pins ∧ t.power = s.power ∧ t.jtag = s.jtag ∧
    t.pair = s.pair ∧ t.svc = s.svc ∧ t.snap = s.snap ∧ t.bist = s.bist ∧ t.trace = s.trace ∧ t.ctr = s.ctr ∧
    t.draws = s.draws ∧ t.pending = s.pending := by
  unfold State.siteOut
  repeat' (first | split | simp)

@[simp] theorem State.siteUnlocked_frame (s : State) (site) :
    let t := State.siteUnlocked s site
    t.ms = s.ms ∧ t.cfg = s.cfg ∧ t.nv = s.nv ∧ t.procs = s.procs ∧ t.time = s.time ∧ t.ports = s.ports ∧
    t.fwd = s.fwd ∧ t.qos = s.qos ∧ t.mesh = s.mesh ∧ t.pins = s.pins ∧ t.power = s.power ∧ t.jtag = s.jtag ∧
    t.pair = s.pair ∧ t.svc = s.svc ∧ t.snap = s.snap ∧ t.bist = s.bist ∧ t.trace = s.trace ∧ t.ctr = s.ctr ∧
    t.draws = s.draws ∧ t.pending = s.pending := by
  unfold State.siteUnlocked
  repeat' (first | split | simp)

@[simp] theorem State.siteFault_frame (s : State) (site) (number) :
    let t := State.siteFault s site number
    t.ms = s.ms ∧ t.cfg = s.cfg ∧ t.nv = s.nv ∧ t.procs = s.procs ∧ t.time = s.time ∧ t.ports = s.ports ∧
    t.fwd = s.fwd ∧ t.qos = s.qos ∧ t.mesh = s.mesh ∧ t.pins = s.pins ∧ t.power = s.power ∧ t.jtag = s.jtag ∧
    t.pair = s.pair ∧ t.svc = s.svc ∧ t.snap = s.snap ∧ t.bist = s.bist ∧ t.trace = s.trace ∧ t.ctr = s.ctr ∧
    t.draws = s.draws ∧ t.pending = s.pending := by
  unfold State.siteFault
  repeat' (first | split | simp)

@[simp] theorem State.siteFresh_frame (s : State) (site) :
    let t := State.siteFresh s site
    t.ms = s.ms ∧ t.host = s.host ∧ t.cfg = s.cfg ∧ t.nv = s.nv ∧ t.procs = s.procs ∧ t.time = s.time ∧
    t.ports = s.ports ∧ t.fwd = s.fwd ∧ t.qos = s.qos ∧ t.mesh = s.mesh ∧ t.pins = s.pins ∧ t.power = s.power ∧
    t.jtag = s.jtag ∧ t.pair = s.pair ∧ t.svc = s.svc ∧ t.snap = s.snap ∧ t.bist = s.bist ∧ t.trace = s.trace ∧
    t.ctr = s.ctr ∧ t.draws = s.draws ∧ t.pending = s.pending := by
  unfold State.siteFresh
  repeat' (first | split | simp)

@[simp] theorem State.siteLinkUp_frame (s : State) (p) :
    let t := State.siteLinkUp s p
    t.ms = s.ms ∧ t.host = s.host ∧ t.cfg = s.cfg ∧ t.nv = s.nv ∧ t.procs = s.procs ∧ t.time = s.time ∧
    t.ports = s.ports ∧ t.fwd = s.fwd ∧ t.qos = s.qos ∧ t.mesh = s.mesh ∧ t.pins = s.pins ∧ t.power = s.power ∧
    t.jtag = s.jtag ∧ t.pair = s.pair ∧ t.svc = s.svc ∧ t.snap = s.snap ∧ t.bist = s.bist ∧ t.trace = s.trace ∧
    t.ctr = s.ctr ∧ t.draws = s.draws ∧ t.pending = s.pending := by
  unfold State.siteLinkUp
  repeat' (first | split | simp)

@[simp] theorem State.sendBlocks_frame (s : State) (site) (image) (n3) :
    let t := State.sendBlocks s site image n3
    t.ms = s.ms ∧ t.host = s.host ∧ t.cfg = s.cfg ∧ t.nv = s.nv ∧ t.procs = s.procs ∧ t.time = s.time ∧
    t.ports = s.ports ∧ t.fwd = s.fwd ∧ t.mesh = s.mesh ∧ t.pins = s.pins ∧ t.power = s.power ∧ t.jtag = s.jtag ∧
    t.pair = s.pair ∧ t.svc = s.svc ∧ t.snap = s.snap ∧ t.bist = s.bist ∧ t.trace = s.trace ∧ t.draws = s.draws ∧
    t.pending = s.pending := by
  induction n3 generalizing s site image with
  | zero => simp [State.sendBlocks]
  | succ n ih =>
    unfold State.sendBlocks
    repeat' (first | split | simp [ih])

@[simp] theorem State.goOnLoading_frame (s : State) (site) :
    let t := State.goOnLoading s site
    t.ms = s.ms ∧ t.host = s.host ∧ t.cfg = s.cfg ∧ t.nv = s.nv ∧ t.procs = s.procs ∧ t.time = s.time ∧
    t.ports = s.ports ∧ t.fwd = s.fwd ∧ t.mesh = s.mesh ∧ t.pins = s.pins ∧ t.power = s.power ∧ t.jtag = s.jtag ∧
    t.pair = s.pair ∧ t.svc = s.svc ∧ t.snap = s.snap ∧ t.bist = s.bist ∧ t.trace = s.trace ∧ t.draws = s.draws ∧
    t.pending = s.pending := by
  unfold State.goOnLoading
  repeat' (first | split | simp)

@[simp] theorem State.sendGain_frame (s : State) (site) (n2) (gain) (timed) :
    let t := State.sendGain s site n2 gain timed
    t.ms = s.ms ∧ t.host = s.host ∧ t.cfg = s.cfg ∧ t.nv = s.nv ∧ t.procs = s.procs ∧ t.time = s.time ∧
    t.ports = s.ports ∧ t.fwd = s.fwd ∧ t.mesh = s.mesh ∧ t.pins = s.pins ∧ t.power = s.power ∧ t.jtag = s.jtag ∧
    t.pair = s.pair ∧ t.svc = s.svc ∧ t.snap = s.snap ∧ t.bist = s.bist ∧ t.trace = s.trace ∧ t.draws = s.draws ∧
    t.pending = s.pending := by
  unfold State.sendGain
  repeat' (first | split | simp)

@[simp] theorem State.sendSettings_frame (s : State) (site) :
    let t := State.sendSettings s site
    t.ms = s.ms ∧ t.host = s.host ∧ t.cfg = s.cfg ∧ t.nv = s.nv ∧ t.procs = s.procs ∧ t.time = s.time ∧
    t.ports = s.ports ∧ t.fwd = s.fwd ∧ t.mesh = s.mesh ∧ t.pins = s.pins ∧ t.power = s.power ∧ t.jtag = s.jtag ∧
    t.pair = s.pair ∧ t.svc = s.svc ∧ t.snap = s.snap ∧ t.bist = s.bist ∧ t.trace = s.trace ∧ t.draws = s.draws ∧
    t.pending = s.pending := by
  unfold State.sendSettings
  repeat' (first | split | simp)

@[simp] theorem State.configurePru_frame (s : State) (site) :
    let t := State.configurePru s site
    t.ms = s.ms ∧ t.host = s.host ∧ t.cfg = s.cfg ∧ t.nv = s.nv ∧ t.procs = s.procs ∧ t.time = s.time ∧
    t.ports = s.ports ∧ t.fwd = s.fwd ∧ t.mesh = s.mesh ∧ t.pins = s.pins ∧ t.power = s.power ∧ t.jtag = s.jtag ∧
    t.pair = s.pair ∧ t.svc = s.svc ∧ t.snap = s.snap ∧ t.bist = s.bist ∧ t.trace = s.trace ∧ t.draws = s.draws ∧
    t.pending = s.pending := by
  unfold State.configurePru
  repeat' (first | split | simp)

@[simp] theorem State.dwellCheck_frame (s : State) (site) (band) (freq) (t_) (d) :
    let t := (State.dwellCheck s site band freq t_ d).1
    t.ms = s.ms ∧ t.cfg = s.cfg ∧ t.nv = s.nv ∧ t.procs = s.procs ∧ t.time = s.time ∧ t.ports = s.ports ∧
    t.fwd = s.fwd ∧ t.qos = s.qos ∧ t.mesh = s.mesh ∧ t.pins = s.pins ∧ t.power = s.power ∧ t.jtag = s.jtag ∧
    t.pair = s.pair ∧ t.svc = s.svc ∧ t.snap = s.snap ∧ t.bist = s.bist ∧ t.trace = s.trace ∧ t.draws = s.draws ∧
    t.pending = s.pending := by
  unfold State.dwellCheck
  repeat' (first | split | simp)

@[simp] theorem State.tuneFor_frame (s : State) (b) :
    let t := State.tuneFor s b
    t.ms = s.ms ∧ t.host = s.host ∧ t.cfg = s.cfg ∧ t.nv = s.nv ∧ t.procs = s.procs ∧ t.time = s.time ∧
    t.ports = s.ports ∧ t.fwd = s.fwd ∧ t.mesh = s.mesh ∧ t.pins = s.pins ∧ t.power = s.power ∧ t.jtag = s.jtag ∧
    t.pair = s.pair ∧ t.svc = s.svc ∧ t.snap = s.snap ∧ t.bist = s.bist ∧ t.trace = s.trace ∧ t.draws = s.draws ∧
    t.pending = s.pending := by
  unfold State.tuneFor
  repeat' (first | split | simp)

@[simp] theorem State.sendBurst_frame (s : State) (b) :
    let t := State.sendBurst s b
    t.ms = s.ms ∧ t.host = s.host ∧ t.cfg = s.cfg ∧ t.nv = s.nv ∧ t.procs = s.procs ∧ t.time = s.time ∧
    t.ports = s.ports ∧ t.fwd = s.fwd ∧ t.mesh = s.mesh ∧ t.pins = s.pins ∧ t.power = s.power ∧ t.jtag = s.jtag ∧
    t.pair = s.pair ∧ t.svc = s.svc ∧ t.snap = s.snap ∧ t.bist = s.bist ∧ t.trace = s.trace ∧ t.draws = s.draws ∧
    t.pending = s.pending := by
  unfold State.sendBurst
  repeat' (first | split | simp)

@[simp] theorem State.sendDl_frame (site) (s : State) (frame) :
    let t := State.sendDl site s frame
    t.ms = s.ms ∧ t.host = s.host ∧ t.cfg = s.cfg ∧ t.nv = s.nv ∧ t.procs = s.procs ∧ t.time = s.time ∧
    t.ports = s.ports ∧ t.fwd = s.fwd ∧ t.radio = s.radio ∧ t.mesh = s.mesh ∧ t.pins = s.pins ∧ t.power = s.power ∧
    t.jtag = s.jtag ∧ t.pair = s.pair ∧ t.svc = s.svc ∧ t.snap = s.snap ∧ t.bist = s.bist ∧ t.trace = s.trace ∧
    t.draws = s.draws ∧ t.pending = s.pending := by
  unfold State.sendDl
  repeat' (first | split | simp)

@[simp] theorem State.releaseDl_frame (s : State) (site) :
    let t := State.releaseDl s site
    t.ms = s.ms ∧ t.host = s.host ∧ t.cfg = s.cfg ∧ t.nv = s.nv ∧ t.procs = s.procs ∧ t.time = s.time ∧
    t.ports = s.ports ∧ t.fwd = s.fwd ∧ t.mesh = s.mesh ∧ t.pins = s.pins ∧ t.power = s.power ∧ t.jtag = s.jtag ∧
    t.pair = s.pair ∧ t.svc = s.svc ∧ t.snap = s.snap ∧ t.bist = s.bist ∧ t.trace = s.trace ∧ t.draws = s.draws ∧
    t.pending = s.pending := by
  unfold State.releaseDl
  repeat' (first | split | simp)

@[simp] theorem State.pruStep_frame (t1) (t2) (s : State) (n) :
    let t := State.pruStep t1 t2 s n
    t.ms = s.ms ∧ t.host = s.host ∧ t.cfg = s.cfg ∧ t.nv = s.nv ∧ t.procs = s.procs ∧ t.time = s.time ∧
    t.ports = s.ports ∧ t.fwd = s.fwd ∧ t.mesh = s.mesh ∧ t.pins = s.pins ∧ t.power = s.power ∧ t.jtag = s.jtag ∧
    t.pair = s.pair ∧ t.svc = s.svc ∧ t.snap = s.snap ∧ t.bist = s.bist ∧ t.trace = s.trace ∧ t.draws = s.draws ∧
    t.pending = s.pending := by
  unfold State.pruStep
  repeat' (first | split | simp)

@[simp] theorem State.pruStepped_frame (s : State) (t1) (t2) :
    let t := State.pruStepped s t1 t2
    t.ms = s.ms ∧ t.host = s.host ∧ t.cfg = s.cfg ∧ t.nv = s.nv ∧ t.procs = s.procs ∧ t.time = s.time ∧
    t.ports = s.ports ∧ t.fwd = s.fwd ∧ t.mesh = s.mesh ∧ t.pins = s.pins ∧ t.power = s.power ∧ t.jtag = s.jtag ∧
    t.pair = s.pair ∧ t.svc = s.svc ∧ t.snap = s.snap ∧ t.bist = s.bist ∧ t.trace = s.trace ∧ t.draws = s.draws ∧
    t.pending = s.pending := by
  unfold State.pruStepped
  repeat' (first | split | simp)

@[simp] theorem State.endWindows_frame (s : State) (d) :
    let t := State.endWindows s d
    t.ms = s.ms ∧ t.host = s.host ∧ t.cfg = s.cfg ∧ t.nv = s.nv ∧ t.procs = s.procs ∧ t.time = s.time ∧
    t.ports = s.ports ∧ t.fwd = s.fwd ∧ t.qos = s.qos ∧ t.mesh = s.mesh ∧ t.pins = s.pins ∧ t.power = s.power ∧
    t.jtag = s.jtag ∧ t.pair = s.pair ∧ t.svc = s.svc ∧ t.snap = s.snap ∧ t.bist = s.bist ∧ t.trace = s.trace ∧
    t.ctr = s.ctr ∧ t.draws = s.draws ∧ t.pending = s.pending := by
  unfold State.endWindows
  repeat' (first | split | simp)

@[simp] theorem State.cutWindows_frame (s : State) (d) (at_) :
    let t := State.cutWindows s d at_
    t.ms = s.ms ∧ t.host = s.host ∧ t.cfg = s.cfg ∧ t.nv = s.nv ∧ t.procs = s.procs ∧ t.time = s.time ∧
    t.ports = s.ports ∧ t.fwd = s.fwd ∧ t.qos = s.qos ∧ t.mesh = s.mesh ∧ t.pins = s.pins ∧ t.power = s.power ∧
    t.jtag = s.jtag ∧ t.pair = s.pair ∧ t.svc = s.svc ∧ t.snap = s.snap ∧ t.bist = s.bist ∧ t.trace = s.trace ∧
    t.ctr = s.ctr ∧ t.draws = s.draws ∧ t.pending = s.pending := by
  unfold State.cutWindows
  repeat' (first | split | simp)

@[simp] theorem State.activate_frame (s : State) (d) :
    let t := State.activate s d
    t.ms = s.ms ∧ t.cfg = s.cfg ∧ t.nv = s.nv ∧ t.procs = s.procs ∧ t.time = s.time ∧ t.ports = s.ports ∧
    t.fwd = s.fwd ∧ t.qos = s.qos ∧ t.mesh = s.mesh ∧ t.pins = s.pins ∧ t.power = s.power ∧ t.jtag = s.jtag ∧
    t.svc = s.svc ∧ t.snap = s.snap ∧ t.bist = s.bist ∧ t.trace = s.trace ∧ t.draws = s.draws ∧ t.pending = s.pending := by
  unfold State.activate
  repeat' (first | split | simp)

@[simp] theorem State.cancelActivation_frame (s : State) (d) :
    let t := State.cancelActivation s d
    t.ms = s.ms ∧ t.cfg = s.cfg ∧ t.nv = s.nv ∧ t.procs = s.procs ∧ t.time = s.time ∧ t.ports = s.ports ∧
    t.fwd = s.fwd ∧ t.qos = s.qos ∧ t.mesh = s.mesh ∧ t.pins = s.pins ∧ t.power = s.power ∧ t.jtag = s.jtag ∧
    t.svc = s.svc ∧ t.snap = s.snap ∧ t.bist = s.bist ∧ t.trace = s.trace ∧ t.ctr = s.ctr ∧ t.draws = s.draws ∧
    t.pending = s.pending := by
  unfold State.cancelActivation
  repeat' (first | split | simp)

@[simp] theorem State.slotsEntry_frame (s : State) (d) (tb) (skipped) (held) :
    let t := State.slotsEntry s d tb skipped held
    t.ms = s.ms ∧ t.cfg = s.cfg ∧ t.nv = s.nv ∧ t.procs = s.procs ∧ t.time = s.time ∧ t.ports = s.ports ∧
    t.fwd = s.fwd ∧ t.qos = s.qos ∧ t.radio = s.radio ∧ t.mesh = s.mesh ∧ t.pins = s.pins ∧ t.power = s.power ∧
    t.jtag = s.jtag ∧ t.pair = s.pair ∧ t.svc = s.svc ∧ t.snap = s.snap ∧ t.bist = s.bist ∧ t.trace = s.trace ∧
    t.ctr = s.ctr ∧ t.draws = s.draws ∧ t.pending = s.pending := by
  unfold State.slotsEntry
  repeat' (first | split | simp)

@[simp] theorem State.activatePassed_frame (s : State) (d) (t2) :
    let t := State.activatePassed s d t2
    t.ms = s.ms ∧ t.cfg = s.cfg ∧ t.nv = s.nv ∧ t.procs = s.procs ∧ t.time = s.time ∧ t.ports = s.ports ∧
    t.fwd = s.fwd ∧ t.qos = s.qos ∧ t.mesh = s.mesh ∧ t.pins = s.pins ∧ t.power = s.power ∧ t.jtag = s.jtag ∧
    t.svc = s.svc ∧ t.snap = s.snap ∧ t.bist = s.bist ∧ t.trace = s.trace ∧ t.draws = s.draws ∧ t.pending = s.pending := by
  unfold State.activatePassed
  repeat' (first | split | simp)

@[simp] theorem State.slotsStep_frame (s : State) (tb) (t1) (t2) (d) :
    let t := State.slotsStep s tb t1 t2 d
    t.ms = s.ms ∧ t.cfg = s.cfg ∧ t.nv = s.nv ∧ t.procs = s.procs ∧ t.time = s.time ∧ t.ports = s.ports ∧
    t.fwd = s.fwd ∧ t.qos = s.qos ∧ t.mesh = s.mesh ∧ t.pins = s.pins ∧ t.power = s.power ∧ t.jtag = s.jtag ∧
    t.svc = s.svc ∧ t.snap = s.snap ∧ t.bist = s.bist ∧ t.trace = s.trace ∧ t.draws = s.draws ∧ t.pending = s.pending := by
  unfold State.slotsStep
  repeat' (first | split | simp)

@[simp] theorem State.slotsStepped_frame (s : State) (tb) (t1) (t2) :
    let t := State.slotsStepped s tb t1 t2
    t.ms = s.ms ∧ t.cfg = s.cfg ∧ t.nv = s.nv ∧ t.procs = s.procs ∧ t.time = s.time ∧ t.ports = s.ports ∧
    t.fwd = s.fwd ∧ t.qos = s.qos ∧ t.mesh = s.mesh ∧ t.pins = s.pins ∧ t.power = s.power ∧ t.jtag = s.jtag ∧
    t.svc = s.svc ∧ t.snap = s.snap ∧ t.bist = s.bist ∧ t.trace = s.trace ∧ t.draws = s.draws ∧ t.pending = s.pending := by
  unfold State.slotsStepped
  repeat' (first | split | simp)

@[simp] theorem State.portEvent_frame (s : State) (type) (port) (cage) (reason) (detail) :
    let t := State.portEvent s type port cage reason detail
    t.ms = s.ms ∧ t.cfg = s.cfg ∧ t.nv = s.nv ∧ t.procs = s.procs ∧ t.time = s.time ∧ t.ports = s.ports ∧
    t.fwd = s.fwd ∧ t.qos = s.qos ∧ t.radio = s.radio ∧ t.mesh = s.mesh ∧ t.pins = s.pins ∧ t.power = s.power ∧
    t.jtag = s.jtag ∧ t.pair = s.pair ∧ t.svc = s.svc ∧ t.snap = s.snap ∧ t.bist = s.bist ∧ t.trace = s.trace ∧
    t.ctr = s.ctr ∧ t.draws = s.draws ∧ t.pending = s.pending := by
  unfold State.portEvent
  repeat' (first | split | simp)

@[simp] theorem State.takeDownFor_frame (s : State) (p) (reason) (siteReason) :
    let t := State.takeDownFor s p reason siteReason
    t.ms = s.ms ∧ t.cfg = s.cfg ∧ t.nv = s.nv ∧ t.procs = s.procs ∧ t.time = s.time ∧ t.fwd = s.fwd ∧ t.qos = s.qos ∧
    t.mesh = s.mesh ∧ t.pins = s.pins ∧ t.power = s.power ∧ t.jtag = s.jtag ∧ t.pair = s.pair ∧ t.svc = s.svc ∧
    t.snap = s.snap ∧ t.bist = s.bist ∧ t.trace = s.trace ∧ t.draws = s.draws ∧ t.pending = s.pending := by
  unfold State.takeDownFor
  repeat' (first | split | simp)

@[simp] theorem State.takeDown_frame (s : State) (p) (reason) :
    let t := State.takeDown s p reason
    t.ms = s.ms ∧ t.cfg = s.cfg ∧ t.nv = s.nv ∧ t.procs = s.procs ∧ t.time = s.time ∧ t.fwd = s.fwd ∧ t.qos = s.qos ∧
    t.mesh = s.mesh ∧ t.pins = s.pins ∧ t.power = s.power ∧ t.jtag = s.jtag ∧ t.pair = s.pair ∧ t.svc = s.svc ∧
    t.snap = s.snap ∧ t.bist = s.bist ∧ t.trace = s.trace ∧ t.draws = s.draws ∧ t.pending = s.pending := by
  unfold State.takeDown
  repeat' (first | split | simp)

@[simp] theorem State.preemptEval_frame (s : State) (p) :
    let t := State.preemptEval s p
    t.ms = s.ms ∧ t.host = s.host ∧ t.cfg = s.cfg ∧ t.nv = s.nv ∧ t.procs = s.procs ∧ t.time = s.time ∧
    t.fwd = s.fwd ∧ t.qos = s.qos ∧ t.radio = s.radio ∧ t.mesh = s.mesh ∧ t.pins = s.pins ∧ t.power = s.power ∧
    t.jtag = s.jtag ∧ t.pair = s.pair ∧ t.svc = s.svc ∧ t.snap = s.snap ∧ t.bist = s.bist ∧ t.trace = s.trace ∧
    t.ctr = s.ctr ∧ t.draws = s.draws ∧ t.pending = s.pending := by
  unfold State.preemptEval
  repeat' (first | split | simp)

@[simp] theorem State.frameBoundary_frame (s : State) (p) :
    let t := State.frameBoundary s p
    t.ms = s.ms ∧ t.cfg = s.cfg ∧ t.nv = s.nv ∧ t.procs = s.procs ∧ t.time = s.time ∧ t.fwd = s.fwd ∧
    t.mesh = s.mesh ∧ t.pins = s.pins ∧ t.power = s.power ∧ t.jtag = s.jtag ∧ t.pair = s.pair ∧ t.svc = s.svc ∧
    t.snap = s.snap ∧ t.bist = s.bist ∧ t.trace = s.trace ∧ t.draws = s.draws ∧ t.pending = s.pending := by
  unfold State.frameBoundary
  repeat' (first | split | simp)

@[simp] theorem State.bringUp_frame (s : State) (p) :
    let t := State.bringUp s p
    t.ms = s.ms ∧ t.cfg = s.cfg ∧ t.nv = s.nv ∧ t.procs = s.procs ∧ t.time = s.time ∧ t.fwd = s.fwd ∧ t.qos = s.qos ∧
    t.mesh = s.mesh ∧ t.pins = s.pins ∧ t.power = s.power ∧ t.jtag = s.jtag ∧ t.pair = s.pair ∧ t.svc = s.svc ∧
    t.snap = s.snap ∧ t.bist = s.bist ∧ t.trace = s.trace ∧ t.ctr = s.ctr ∧ t.draws = s.draws ∧ t.pending = s.pending := by
  unfold State.bringUp
  repeat' (first | split | simp)

@[simp] theorem State.setRings_frame (s : State) :
    let t := State.setRings s
    t.ms = s.ms ∧ t.host = s.host ∧ t.cfg = s.cfg ∧ t.nv = s.nv ∧ t.procs = s.procs ∧ t.time = s.time ∧
    t.fwd = s.fwd ∧ t.qos = s.qos ∧ t.radio = s.radio ∧ t.mesh = s.mesh ∧ t.power = s.power ∧ t.jtag = s.jtag ∧
    t.pair = s.pair ∧ t.svc = s.svc ∧ t.snap = s.snap ∧ t.bist = s.bist ∧ t.trace = s.trace ∧ t.ctr = s.ctr ∧
    t.draws = s.draws ∧ t.pending = s.pending := by
  unfold State.setRings
  repeat' (first | split | simp)

@[simp] theorem State.switchRing_frame (s) (t_) (acc : State) (k) :
    let t := State.switchRing s t_ acc k
    t.ms = acc.ms ∧ t.host = acc.host ∧ t.cfg = acc.cfg ∧ t.nv = acc.nv ∧ t.procs = acc.procs ∧ t.time = acc.time ∧
    t.ports = acc.ports ∧ t.fwd = acc.fwd ∧ t.qos = acc.qos ∧ t.radio = acc.radio ∧ t.mesh = acc.mesh ∧
    t.pins = acc.pins ∧ t.power = acc.power ∧ t.jtag = acc.jtag ∧ t.pair = acc.pair ∧ t.svc = acc.svc ∧
    t.snap = acc.snap ∧ t.bist = acc.bist ∧ t.trace = acc.trace ∧ t.pending = acc.pending := by
  unfold State.switchRing
  repeat' (first | split | simp)

@[simp] theorem State.switchRings_frame (s : State) :
    let t := State.switchRings s
    t.ms = s.ms ∧ t.host = s.host ∧ t.cfg = s.cfg ∧ t.nv = s.nv ∧ t.procs = s.procs ∧ t.time = s.time ∧
    t.fwd = s.fwd ∧ t.qos = s.qos ∧ t.radio = s.radio ∧ t.mesh = s.mesh ∧ t.power = s.power ∧ t.jtag = s.jtag ∧
    t.pair = s.pair ∧ t.svc = s.svc ∧ t.snap = s.snap ∧ t.bist = s.bist ∧ t.trace = s.trace ∧ t.pending = s.pending := by
  unfold State.switchRings
  repeat' (first | split | simp)

@[simp] theorem State.dropHolds_frame (s : State) :
    let t := State.dropHolds s
    t.ms = s.ms ∧ t.host = s.host ∧ t.cfg = s.cfg ∧ t.nv = s.nv ∧ t.procs = s.procs ∧ t.time = s.time ∧
    t.ports = s.ports ∧ t.fwd = s.fwd ∧ t.qos = s.qos ∧ t.radio = s.radio ∧ t.mesh = s.mesh ∧ t.power = s.power ∧
    t.jtag = s.jtag ∧ t.pair = s.pair ∧ t.svc = s.svc ∧ t.snap = s.snap ∧ t.bist = s.bist ∧ t.trace = s.trace ∧
    t.ctr = s.ctr ∧ t.draws = s.draws ∧ t.pending = s.pending := by
  unfold State.dropHolds
  repeat' (first | split | simp)

@[simp] theorem State.modCage_frame (s : State) (c) (f) :
    let t := State.modCage s c f
    t.ms = s.ms ∧ t.host = s.host ∧ t.cfg = s.cfg ∧ t.nv = s.nv ∧ t.procs = s.procs ∧ t.time = s.time ∧
    t.fwd = s.fwd ∧ t.qos = s.qos ∧ t.radio = s.radio ∧ t.mesh = s.mesh ∧ t.pins = s.pins ∧ t.power = s.power ∧
    t.jtag = s.jtag ∧ t.pair = s.pair ∧ t.svc = s.svc ∧ t.snap = s.snap ∧ t.bist = s.bist ∧ t.trace = s.trace ∧
    t.ctr = s.ctr ∧ t.draws = s.draws ∧ t.pending = s.pending := by
  unfold State.modCage
  repeat' (first | split | simp)

@[simp] theorem State.resetCage_frame (s : State) (c) :
    let t := State.resetCage s c
    t.ms = s.ms ∧ t.cfg = s.cfg ∧ t.nv = s.nv ∧ t.procs = s.procs ∧ t.time = s.time ∧ t.fwd = s.fwd ∧ t.qos = s.qos ∧
    t.mesh = s.mesh ∧ t.pins = s.pins ∧ t.power = s.power ∧ t.jtag = s.jtag ∧ t.pair = s.pair ∧ t.svc = s.svc ∧
    t.snap = s.snap ∧ t.bist = s.bist ∧ t.trace = s.trace ∧ t.draws = s.draws ∧ t.pending = s.pending := by
  unfold State.resetCage
  repeat' (first | split | simp)

@[simp] theorem State.moduleUp_frame (s : State) (c) :
    let t := State.moduleUp s c
    t.ms = s.ms ∧ t.host = s.host ∧ t.cfg = s.cfg ∧ t.nv = s.nv ∧ t.procs = s.procs ∧ t.time = s.time ∧
    t.fwd = s.fwd ∧ t.qos = s.qos ∧ t.radio = s.radio ∧ t.mesh = s.mesh ∧ t.pins = s.pins ∧ t.power = s.power ∧
    t.jtag = s.jtag ∧ t.pair = s.pair ∧ t.svc = s.svc ∧ t.snap = s.snap ∧ t.bist = s.bist ∧ t.trace = s.trace ∧
    t.ctr = s.ctr ∧ t.draws = s.draws ∧ t.pending = s.pending := by
  unfold State.moduleUp
  repeat' (first | split | simp)

@[simp] theorem State.repath_frame (s : State) (p) :
    let t := State.repath s p
    t.ms = s.ms ∧ t.host = s.host ∧ t.cfg = s.cfg ∧ t.nv = s.nv ∧ t.procs = s.procs ∧ t.time = s.time ∧
    t.fwd = s.fwd ∧ t.qos = s.qos ∧ t.radio = s.radio ∧ t.mesh = s.mesh ∧ t.pins = s.pins ∧ t.power = s.power ∧
    t.jtag = s.jtag ∧ t.pair = s.pair ∧ t.svc = s.svc ∧ t.snap = s.snap ∧ t.bist = s.bist ∧ t.trace = s.trace ∧
    t.ctr = s.ctr ∧ t.draws = s.draws ∧ t.pending = s.pending := by
  unfold State.repath
  repeat' (first | split | simp)

@[simp] theorem State.markCage_frame (bus) (s : State) (c) :
    let t := State.markCage bus s c
    t.ms = s.ms ∧ t.cfg = s.cfg ∧ t.nv = s.nv ∧ t.procs = s.procs ∧ t.time = s.time ∧ t.fwd = s.fwd ∧ t.qos = s.qos ∧
    t.radio = s.radio ∧ t.mesh = s.mesh ∧ t.pins = s.pins ∧ t.power = s.power ∧ t.jtag = s.jtag ∧ t.pair = s.pair ∧
    t.svc = s.svc ∧ t.snap = s.snap ∧ t.bist = s.bist ∧ t.trace = s.trace ∧ t.ctr = s.ctr ∧ t.draws = s.draws ∧
    t.pending = s.pending := by
  unfold State.markCage
  repeat' (first | split | simp)

@[simp] theorem State.recoverBus_frame (s : State) (bus) (sda) :
    let t := State.recoverBus s bus sda
    t.ms = s.ms ∧ t.cfg = s.cfg ∧ t.nv = s.nv ∧ t.procs = s.procs ∧ t.time = s.time ∧ t.fwd = s.fwd ∧ t.qos = s.qos ∧
    t.mesh = s.mesh ∧ t.power = s.power ∧ t.jtag = s.jtag ∧ t.pair = s.pair ∧ t.svc = s.svc ∧ t.snap = s.snap ∧
    t.bist = s.bist ∧ t.trace = s.trace ∧ t.draws = s.draws ∧ t.pending = s.pending := by
  unfold State.recoverBus
  repeat' (first | split | simp)

@[simp] theorem State.wakeBus_frame (s : State) (b) :
    let t := State.wakeBus s b
    t.ms = s.ms ∧ t.cfg = s.cfg ∧ t.nv = s.nv ∧ t.procs = s.procs ∧ t.time = s.time ∧ t.fwd = s.fwd ∧ t.qos = s.qos ∧
    t.mesh = s.mesh ∧ t.power = s.power ∧ t.jtag = s.jtag ∧ t.pair = s.pair ∧ t.svc = s.svc ∧ t.snap = s.snap ∧
    t.bist = s.bist ∧ t.trace = s.trace ∧ t.pending = s.pending := by
  unfold State.wakeBus
  repeat' (first | split | simp)

@[simp] theorem State.busesBack_frame (s : State) :
    let t := State.busesBack s
    t.ms = s.ms ∧ t.host = s.host ∧ t.cfg = s.cfg ∧ t.nv = s.nv ∧ t.procs = s.procs ∧ t.time = s.time ∧
    t.fwd = s.fwd ∧ t.qos = s.qos ∧ t.radio = s.radio ∧ t.mesh = s.mesh ∧ t.pins = s.pins ∧ t.power = s.power ∧
    t.jtag = s.jtag ∧ t.pair = s.pair ∧ t.svc = s.svc ∧ t.snap = s.snap ∧ t.bist = s.bist ∧ t.trace = s.trace ∧
    t.ctr = s.ctr ∧ t.draws = s.draws ∧ t.pending = s.pending := by
  unfold State.busesBack
  repeat' (first | split | simp)

@[simp] theorem State.setDriving_frame (s : State) :
    let t := State.setDriving s
    t.ms = s.ms ∧ t.cfg = s.cfg ∧ t.nv = s.nv ∧ t.procs = s.procs ∧ t.time = s.time ∧ t.fwd = s.fwd ∧ t.qos = s.qos ∧
    t.mesh = s.mesh ∧ t.power = s.power ∧ t.jtag = s.jtag ∧ t.pair = s.pair ∧ t.svc = s.svc ∧ t.snap = s.snap ∧
    t.bist = s.bist ∧ t.trace = s.trace ∧ t.pending = s.pending := by
  unfold State.setDriving
  repeat' (first | split | simp)

end Sys2Proof.Machine
end

