-- ==== Sys2Proof/Laws/FrameNet.lean ====
section
/-! SUPPORT. Frames of the operations of forwarding: for each operation, the parts of the
state that it leaves as they were. -/

namespace Sys2Proof.Machine

@[simp] theorem State.punt_frame (s : State) (pipe) (fn) (ring) (f) :
    let t := State.punt s pipe fn ring f
    t.ms = s.ms ∧ t.cfg = s.cfg ∧ t.nv = s.nv ∧ t.procs = s.procs ∧ t.time = s.time ∧ t.ports = s.ports ∧
    t.fwd = s.fwd ∧ t.qos = s.qos ∧ t.radio = s.radio ∧ t.mesh = s.mesh ∧ t.pins = s.pins ∧ t.power = s.power ∧
    t.jtag = s.jtag ∧ t.pair = s.pair ∧ t.svc = s.svc ∧ t.snap = s.snap ∧ t.bist = s.bist ∧ t.trace = s.trace ∧
    t.draws = s.draws ∧ t.pending = s.pending := by
  unfold State.punt
  repeat' (first | split | simp)

@[simp] theorem State.crossBorder_frame (s : State) (pipe) (l) :
    let t := State.crossBorder s pipe l
    t.ms = s.ms ∧ t.host = s.host ∧ t.cfg = s.cfg ∧ t.nv = s.nv ∧ t.procs = s.procs ∧ t.time = s.time ∧
    t.ports = s.ports ∧ t.qos = s.qos ∧ t.radio = s.radio ∧ t.mesh = s.mesh ∧ t.pins = s.pins ∧ t.power = s.power ∧
    t.jtag = s.jtag ∧ t.pair = s.pair ∧ t.svc = s.svc ∧ t.snap = s.snap ∧ t.bist = s.bist ∧ t.trace = s.trace ∧
    t.draws = s.draws ∧ t.pending = s.pending := by
  unfold State.crossBorder
  induction l generalizing s with
  | nil => simp
  | cons c l ih =>
    rw [List.foldl_cons]
    split
    all_goals simp [ih]

@[simp] theorem State.sample_frame (s : State) (n) :
    let t := (State.sample s n).1
    t.ms = s.ms ∧ t.host = s.host ∧ t.cfg = s.cfg ∧ t.nv = s.nv ∧ t.procs = s.procs ∧ t.time = s.time ∧
    t.ports = s.ports ∧ t.qos = s.qos ∧ t.radio = s.radio ∧ t.mesh = s.mesh ∧ t.pins = s.pins ∧ t.power = s.power ∧
    t.jtag = s.jtag ∧ t.pair = s.pair ∧ t.svc = s.svc ∧ t.snap = s.snap ∧ t.bist = s.bist ∧ t.trace = s.trace ∧
    t.ctr = s.ctr ∧ t.draws = s.draws ∧ t.pending = s.pending := by
  unfold State.sample
  repeat' (first | split | simp)

@[simp] theorem State.mirrorCopy_frame (s : State) (pipe) (id) (len) (x4) (n) (b) :
    let t := (State.mirrorCopy s pipe id len x4 n b).1
    t.ms = s.ms ∧ t.host = s.host ∧ t.cfg = s.cfg ∧ t.nv = s.nv ∧ t.procs = s.procs ∧ t.time = s.time ∧
    t.ports = s.ports ∧ t.fwd = s.fwd ∧ t.radio = s.radio ∧ t.mesh = s.mesh ∧ t.pins = s.pins ∧ t.power = s.power ∧
    t.jtag = s.jtag ∧ t.pair = s.pair ∧ t.svc = s.svc ∧ t.snap = s.snap ∧ t.bist = s.bist ∧ t.trace = s.trace ∧
    t.draws = s.draws ∧ t.pending = s.pending := by
  unfold State.mirrorCopy
  repeat' (first | split | simp)

@[simp] theorem State.mirrorAll_frame (s : State) (pipe) (id) (len) (x4) (l5) (n6) (l7) (l8) :
    let t := (State.mirrorAll s pipe id len x4 l5 n6 l7 l8).1
    t.ms = s.ms ∧ t.host = s.host ∧ t.cfg = s.cfg ∧ t.nv = s.nv ∧ t.procs = s.procs ∧ t.time = s.time ∧
    t.ports = s.ports ∧ t.radio = s.radio ∧ t.mesh = s.mesh ∧ t.pins = s.pins ∧ t.power = s.power ∧ t.jtag = s.jtag ∧
    t.pair = s.pair ∧ t.svc = s.svc ∧ t.snap = s.snap ∧ t.bist = s.bist ∧ t.trace = s.trace ∧ t.draws = s.draws ∧
    t.pending = s.pending := by
  induction l5 generalizing s pipe id len x4 n6 l7 l8 with
  | nil => simp [State.mirrorAll]
  | cons c l ih =>
    unfold State.mirrorAll
    repeat' (first | split | simp [ih])

@[simp] theorem State.enqueueCopy_frame (s : State) (l) (q) (colour) (c) :
    let t := (State.enqueueCopy s l q colour c).1
    t.ms = s.ms ∧ t.host = s.host ∧ t.cfg = s.cfg ∧ t.nv = s.nv ∧ t.procs = s.procs ∧ t.time = s.time ∧
    t.ports = s.ports ∧ t.fwd = s.fwd ∧ t.radio = s.radio ∧ t.mesh = s.mesh ∧ t.pins = s.pins ∧ t.power = s.power ∧
    t.jtag = s.jtag ∧ t.pair = s.pair ∧ t.svc = s.svc ∧ t.snap = s.snap ∧ t.bist = s.bist ∧ t.trace = s.trace ∧
    t.draws = s.draws ∧ t.pending = s.pending := by
  unfold State.enqueueCopy
  repeat' (first | split | simp)

@[simp] theorem State.hitRule_frame (s : State) (r) :
    let t := State.hitRule s r
    t.ms = s.ms ∧ t.host = s.host ∧ t.cfg = s.cfg ∧ t.nv = s.nv ∧ t.procs = s.procs ∧ t.time = s.time ∧
    t.ports = s.ports ∧ t.fwd = s.fwd ∧ t.qos = s.qos ∧ t.radio = s.radio ∧ t.mesh = s.mesh ∧ t.pins = s.pins ∧
    t.power = s.power ∧ t.jtag = s.jtag ∧ t.pair = s.pair ∧ t.svc = s.svc ∧ t.snap = s.snap ∧ t.bist = s.bist ∧
    t.trace = s.trace ∧ t.draws = s.draws ∧ t.pending = s.pending := by
  unfold State.hitRule
  repeat' (first | split | simp)

@[simp] theorem State.policeHit_frame (s : State) (l) (r) :
    let t := (State.policeHit s l r).1
    t.ms = s.ms ∧ t.host = s.host ∧ t.cfg = s.cfg ∧ t.nv = s.nv ∧ t.procs = s.procs ∧ t.time = s.time ∧
    t.ports = s.ports ∧ t.fwd = s.fwd ∧ t.radio = s.radio ∧ t.mesh = s.mesh ∧ t.pins = s.pins ∧ t.power = s.power ∧
    t.jtag = s.jtag ∧ t.pair = s.pair ∧ t.svc = s.svc ∧ t.snap = s.snap ∧ t.bist = s.bist ∧ t.trace = s.trace ∧
    t.draws = s.draws ∧ t.pending = s.pending := by
  unfold State.policeHit
  repeat' (first | split | simp)

@[simp] theorem State.countDrop_frame (s : State) (pipe) (c) :
    let t := State.countDrop s pipe c
    t.ms = s.ms ∧ t.host = s.host ∧ t.cfg = s.cfg ∧ t.nv = s.nv ∧ t.procs = s.procs ∧ t.time = s.time ∧
    t.ports = s.ports ∧ t.fwd = s.fwd ∧ t.qos = s.qos ∧ t.radio = s.radio ∧ t.mesh = s.mesh ∧ t.pins = s.pins ∧
    t.power = s.power ∧ t.jtag = s.jtag ∧ t.pair = s.pair ∧ t.svc = s.svc ∧ t.snap = s.snap ∧ t.bist = s.bist ∧
    t.trace = s.trace ∧ t.draws = s.draws ∧ t.pending = s.pending := by
  unfold State.countDrop
  repeat' (first | split | simp)

@[simp] theorem copyOut_frame (l : Looked) (queueOf : Nat → Nat) (colour : Nat) (acc : State × List Nat) (c : Copy) :
    let t := (copyOut l queueOf colour acc c).1
    t.ms = acc.1.ms ∧ t.host = acc.1.host ∧ t.cfg = acc.1.cfg ∧ t.nv = acc.1.nv ∧ t.procs = acc.1.procs ∧
    t.time = acc.1.time ∧ t.ports = acc.1.ports ∧ t.fwd = acc.1.fwd ∧ t.radio = acc.1.radio ∧ t.mesh = acc.1.mesh ∧
    t.pins = acc.1.pins ∧ t.power = acc.1.power ∧ t.jtag = acc.1.jtag ∧ t.pair = acc.1.pair ∧ t.svc = acc.1.svc ∧
    t.snap = acc.1.snap ∧ t.bist = acc.1.bist ∧ t.trace = acc.1.trace ∧ t.draws = acc.1.draws ∧
    t.pending = acc.1.pending := by
  simp [copyOut]

@[simp] theorem State.lookedUp_frame (s : State) (l) :
    let t := (State.lookedUp s l).1
    t.ms = s.ms ∧ t.host = s.host ∧ t.cfg = s.cfg ∧ t.nv = s.nv ∧ t.procs = s.procs ∧ t.time = s.time ∧
    t.ports = s.ports ∧ t.radio = s.radio ∧ t.mesh = s.mesh ∧ t.pins = s.pins ∧ t.power = s.power ∧ t.jtag = s.jtag ∧
    t.pair = s.pair ∧ t.svc = s.svc ∧ t.snap = s.snap ∧ t.bist = s.bist ∧ t.trace = s.trace ∧ t.draws = s.draws ∧
    t.pending = s.pending := by
  unfold State.lookedUp
  repeat' (first | split | simp)

@[simp] theorem State.forwardRx_frame (s : State) (p) (b) (len) (room) (item) :
    let t := (State.forwardRx s p b len room item).1
    t.ms = s.ms ∧ t.cfg = s.cfg ∧ t.nv = s.nv ∧ t.procs = s.procs ∧ t.time = s.time ∧ t.ports = s.ports ∧
    t.radio = s.radio ∧ t.mesh = s.mesh ∧ t.pins = s.pins ∧ t.power = s.power ∧ t.jtag = s.jtag ∧ t.svc = s.svc ∧
    t.snap = s.snap ∧ t.bist = s.bist ∧ t.trace = s.trace ∧ t.pending = s.pending := by
  unfold State.forwardRx
  repeat' (first | split | simp)

@[simp] theorem State.mapItem_frame (s : State) (id) (queues) (f) :
    let t := State.mapItem s id queues f
    t.ms = s.ms ∧ t.host = s.host ∧ t.cfg = s.cfg ∧ t.nv = s.nv ∧ t.procs = s.procs ∧ t.time = s.time ∧
    t.ports = s.ports ∧ t.fwd = s.fwd ∧ t.radio = s.radio ∧ t.mesh = s.mesh ∧ t.pins = s.pins ∧ t.power = s.power ∧
    t.jtag = s.jtag ∧ t.pair = s.pair ∧ t.svc = s.svc ∧ t.snap = s.snap ∧ t.bist = s.bist ∧ t.trace = s.trace ∧
    t.draws = s.draws ∧ t.pending = s.pending := by
  unfold State.mapItem
  repeat' (first | split | simp)

@[simp] theorem State.dropFrame_frame (s : State) (id) (queues) :
    let t := State.dropFrame s id queues
    t.ms = s.ms ∧ t.host = s.host ∧ t.cfg = s.cfg ∧ t.nv = s.nv ∧ t.procs = s.procs ∧ t.time = s.time ∧
    t.ports = s.ports ∧ t.fwd = s.fwd ∧ t.radio = s.radio ∧ t.mesh = s.mesh ∧ t.pins = s.pins ∧ t.power = s.power ∧
    t.jtag = s.jtag ∧ t.pair = s.pair ∧ t.svc = s.svc ∧ t.snap = s.snap ∧ t.bist = s.bist ∧ t.trace = s.trace ∧
    t.draws = s.draws ∧ t.pending = s.pending := by
  unfold State.dropFrame
  repeat' (first | split | simp)

@[simp] theorem State.deliver_frame (s : State) (p) (h) (rest) :
    let t := State.deliver s p h rest
    t.ms = s.ms ∧ t.cfg = s.cfg ∧ t.nv = s.nv ∧ t.procs = s.procs ∧ t.time = s.time ∧ t.ports = s.ports ∧
    t.qos = s.qos ∧ t.radio = s.radio ∧ t.mesh = s.mesh ∧ t.pins = s.pins ∧ t.power = s.power ∧ t.jtag = s.jtag ∧
    t.pair = s.pair ∧ t.svc = s.svc ∧ t.snap = s.snap ∧ t.bist = s.bist ∧ t.trace = s.trace ∧ t.draws = s.draws ∧
    t.pending = s.pending := by
  unfold State.deliver
  repeat' (first | split | simp)

@[simp] theorem State.endCutQueue_frame (id) (rest) (keep) (cells) (stomp) (s : State) (q) :
    let t := State.endCutQueue id rest keep cells stomp s q
    t.ms = s.ms ∧ t.host = s.host ∧ t.cfg = s.cfg ∧ t.nv = s.nv ∧ t.procs = s.procs ∧ t.time = s.time ∧
    t.ports = s.ports ∧ t.fwd = s.fwd ∧ t.radio = s.radio ∧ t.mesh = s.mesh ∧ t.pins = s.pins ∧ t.power = s.power ∧
    t.jtag = s.jtag ∧ t.svc = s.svc ∧ t.snap = s.snap ∧ t.bist = s.bist ∧ t.trace = s.trace ∧ t.draws = s.draws ∧
    t.pending = s.pending := by
  unfold State.endCutQueue
  repeat' (first | split | simp)

@[simp] theorem State.endCut_frame (s : State) (id) (queues) (rest) (keep) (cells) (stomp) :
    let t := State.endCut s id queues rest keep cells stomp
    t.ms = s.ms ∧ t.host = s.host ∧ t.cfg = s.cfg ∧ t.nv = s.nv ∧ t.procs = s.procs ∧ t.time = s.time ∧
    t.ports = s.ports ∧ t.fwd = s.fwd ∧ t.radio = s.radio ∧ t.mesh = s.mesh ∧ t.pins = s.pins ∧ t.power = s.power ∧
    t.jtag = s.jtag ∧ t.svc = s.svc ∧ t.snap = s.snap ∧ t.bist = s.bist ∧ t.trace = s.trace ∧ t.draws = s.draws ∧
    t.pending = s.pending := by
  unfold State.endCut
  repeat' (first | split | simp)

@[simp] theorem State.countRx_frame (s : State) (p) (fin) :
    let t := State.countRx s p fin
    t.ms = s.ms ∧ t.host = s.host ∧ t.cfg = s.cfg ∧ t.nv = s.nv ∧ t.procs = s.procs ∧ t.time = s.time ∧
    t.ports = s.ports ∧ t.fwd = s.fwd ∧ t.qos = s.qos ∧ t.radio = s.radio ∧ t.mesh = s.mesh ∧ t.pins = s.pins ∧
    t.power = s.power ∧ t.jtag = s.jtag ∧ t.pair = s.pair ∧ t.svc = s.svc ∧ t.snap = s.snap ∧ t.bist = s.bist ∧
    t.trace = s.trace ∧ t.draws = s.draws ∧ t.pending = s.pending := by
  unfold State.countRx
  repeat' (first | split | simp)

@[simp] theorem State.injectLookup_frame (s : State) (tenant) (frame) (source) (launch) :
    let t := State.injectLookup s tenant frame source launch
    t.ms = s.ms ∧ t.cfg = s.cfg ∧ t.nv = s.nv ∧ t.procs = s.procs ∧ t.time = s.time ∧ t.ports = s.ports ∧
    t.radio = s.radio ∧ t.mesh = s.mesh ∧ t.pins = s.pins ∧ t.power = s.power ∧ t.jtag = s.jtag ∧ t.pair = s.pair ∧
    t.svc = s.svc ∧ t.snap = s.snap ∧ t.bist = s.bist ∧ t.trace = s.trace ∧ t.pending = s.pending := by
  unfold State.injectLookup
  repeat' (first | split | simp)

@[simp] theorem State.inject_frame (s : State) (x1) :
    let t := State.inject s x1
    t.ms = s.ms ∧ t.cfg = s.cfg ∧ t.nv = s.nv ∧ t.procs = s.procs ∧ t.time = s.time ∧ t.ports = s.ports ∧
    t.radio = s.radio ∧ t.mesh = s.mesh ∧ t.pins = s.pins ∧ t.power = s.power ∧ t.jtag = s.jtag ∧ t.pair = s.pair ∧
    t.svc = s.svc ∧ t.snap = s.snap ∧ t.bist = s.bist ∧ t.trace = s.trace ∧ t.pending = s.pending := by
  unfold State.inject
  repeat' (first | split | simp)

@[simp] theorem State.startFrame_frame (s : State) (q) (i) (ecc) :
    let t := State.startFrame s q i ecc
    t.ms = s.ms ∧ t.cfg = s.cfg ∧ t.nv = s.nv ∧ t.procs = s.procs ∧ t.time = s.time ∧ t.fwd = s.fwd ∧
    t.radio = s.radio ∧ t.mesh = s.mesh ∧ t.pins = s.pins ∧ t.power = s.power ∧ t.jtag = s.jtag ∧ t.svc = s.svc ∧
    t.snap = s.snap ∧ t.bist = s.bist ∧ t.trace = s.trace ∧ t.draws = s.draws ∧ t.pending = s.pending := by
  unfold State.startFrame
  repeat' (first | split | simp)

@[simp] theorem State.split_frame (s : State) (p) :
    let t := State.split s p
    t.ms = s.ms ∧ t.host = s.host ∧ t.cfg = s.cfg ∧ t.nv = s.nv ∧ t.procs = s.procs ∧ t.time = s.time ∧
    t.ports = s.ports ∧ t.fwd = s.fwd ∧ t.radio = s.radio ∧ t.mesh = s.mesh ∧ t.pins = s.pins ∧ t.power = s.power ∧
    t.jtag = s.jtag ∧ t.pair = s.pair ∧ t.svc = s.svc ∧ t.snap = s.snap ∧ t.bist = s.bist ∧ t.trace = s.trace ∧
    t.draws = s.draws ∧ t.pending = s.pending := by
  unfold State.split
  repeat' (first | split | simp)

@[simp] theorem State.dueNow_frame (s : State) (k) :
    let t := State.dueNow s k
    t.ms = s.ms ∧ t.host = s.host ∧ t.cfg = s.cfg ∧ t.nv = s.nv ∧ t.procs = s.procs ∧ t.time = s.time ∧
    t.ports = s.ports ∧ t.fwd = s.fwd ∧ t.radio = s.radio ∧ t.mesh = s.mesh ∧ t.pins = s.pins ∧ t.power = s.power ∧
    t.jtag = s.jtag ∧ t.pair = s.pair ∧ t.svc = s.svc ∧ t.snap = s.snap ∧ t.bist = s.bist ∧ t.trace = s.trace ∧
    t.ctr = s.ctr ∧ t.draws = s.draws ∧ t.pending = s.pending := by
  unfold State.dueNow
  repeat' (first | split | simp)

@[simp] theorem State.duesNow_frame (s : State) (p) :
    let t := State.duesNow s p
    t.ms = s.ms ∧ t.host = s.host ∧ t.cfg = s.cfg ∧ t.nv = s.nv ∧ t.procs = s.procs ∧ t.time = s.time ∧
    t.ports = s.ports ∧ t.fwd = s.fwd ∧ t.radio = s.radio ∧ t.mesh = s.mesh ∧ t.pins = s.pins ∧ t.power = s.power ∧
    t.jtag = s.jtag ∧ t.pair = s.pair ∧ t.svc = s.svc ∧ t.snap = s.snap ∧ t.bist = s.bist ∧ t.trace = s.trace ∧
    t.ctr = s.ctr ∧ t.draws = s.draws ∧ t.pending = s.pending := by
  unfold State.duesNow
  repeat' (first | split | simp)

@[simp] theorem State.pick_frame (s : State) (p) :
    let t := (State.pick s p).1
    t.ms = s.ms ∧ t.host = s.host ∧ t.cfg = s.cfg ∧ t.nv = s.nv ∧ t.procs = s.procs ∧ t.time = s.time ∧
    t.ports = s.ports ∧ t.fwd = s.fwd ∧ t.radio = s.radio ∧ t.mesh = s.mesh ∧ t.pins = s.pins ∧ t.power = s.power ∧
    t.jtag = s.jtag ∧ t.pair = s.pair ∧ t.svc = s.svc ∧ t.snap = s.snap ∧ t.bist = s.bist ∧ t.trace = s.trace ∧
    t.ctr = s.ctr ∧ t.draws = s.draws ∧ t.pending = s.pending := by
  unfold State.pick
  repeat' (first | split | simp)

@[simp] theorem State.dueHead_frame (at_) (s : State) (k) :
    let t := State.dueHead at_ s k
    t.ms = s.ms ∧ t.host = s.host ∧ t.cfg = s.cfg ∧ t.nv = s.nv ∧ t.procs = s.procs ∧ t.time = s.time ∧
    t.ports = s.ports ∧ t.fwd = s.fwd ∧ t.radio = s.radio ∧ t.mesh = s.mesh ∧ t.pins = s.pins ∧ t.power = s.power ∧
    t.jtag = s.jtag ∧ t.pair = s.pair ∧ t.svc = s.svc ∧ t.snap = s.snap ∧ t.bist = s.bist ∧ t.trace = s.trace ∧
    t.ctr = s.ctr ∧ t.draws = s.draws ∧ t.pending = s.pending := by
  unfold State.dueHead
  repeat' (first | split | simp)

@[simp] theorem State.dueTogether_frame (s : State) (p) (at_) :
    let t := State.dueTogether s p at_
    t.ms = s.ms ∧ t.host = s.host ∧ t.cfg = s.cfg ∧ t.nv = s.nv ∧ t.procs = s.procs ∧ t.time = s.time ∧
    t.ports = s.ports ∧ t.fwd = s.fwd ∧ t.radio = s.radio ∧ t.mesh = s.mesh ∧ t.pins = s.pins ∧ t.power = s.power ∧
    t.jtag = s.jtag ∧ t.pair = s.pair ∧ t.svc = s.svc ∧ t.snap = s.snap ∧ t.bist = s.bist ∧ t.trace = s.trace ∧
    t.ctr = s.ctr ∧ t.draws = s.draws ∧ t.pending = s.pending := by
  unfold State.dueTogether
  repeat' (first | split | simp)

@[simp] theorem State.launchChoice_frame (s : State) (p) (at_) (express) :
    let t := (State.launchChoice s p at_ express).1
    t.ms = s.ms ∧ t.host = s.host ∧ t.cfg = s.cfg ∧ t.nv = s.nv ∧ t.procs = s.procs ∧ t.ports = s.ports ∧
    t.fwd = s.fwd ∧ t.radio = s.radio ∧ t.mesh = s.mesh ∧ t.pins = s.pins ∧ t.power = s.power ∧ t.jtag = s.jtag ∧
    t.pair = s.pair ∧ t.svc = s.svc ∧ t.snap = s.snap ∧ t.bist = s.bist ∧ t.trace = s.trace ∧ t.ctr = s.ctr ∧
    t.draws = s.draws ∧ t.pending = s.pending := by
  unfold State.launchChoice
  repeat' (first | split | simp)

end Sys2Proof.Machine
end

