-- ==== Sys2Proof/Laws/FrameRadio.lean ====
section
/-! SUPPORT. Frames of the operations of the trace, the schedule engine and the sites: for each operation, the parts of the
state that it leaves as they were. -/

namespace Sys2Proof.Machine

@[simp] theorem State.traceRecord_frame (s : State) (type) (body) :
    let t := State.traceRecord s type body
    t.ms = s.ms ∧ t.host = s.host ∧ t.cfg = s.cfg ∧ t.nv = s.nv ∧ t.procs = s.procs ∧ t.time = s.time ∧
    t.ports = s.ports ∧ t.fwd = s.fwd ∧ t.qos = s.qos ∧ t.radio = s.radio ∧ t.mesh = s.mesh ∧ t.pins = s.pins ∧
    t.power = s.power ∧ t.jtag = s.jtag ∧ t.pair = s.pair ∧ t.svc = s.svc ∧ t.snap = s.snap ∧ t.bist = s.bist ∧
    t.draws = s.draws ∧ t.pending = s.pending := by
  unfold State.traceRecord
  repeat' (first | split | simp)

@[simp] theorem State.traceSlot_frame (s : State) (d) (slotIn) (traps) :
    let t := State.traceSlot s d slotIn traps
    t.ms = s.ms ∧ t.host = s.host ∧ t.cfg = s.cfg ∧ t.nv = s.nv ∧ t.procs = s.procs ∧ t.time = s.time ∧
    t.ports = s.ports ∧ t.fwd = s.fwd ∧ t.qos = s.qos ∧ t.radio = s.radio ∧ t.mesh = s.mesh ∧ t.pins = s.pins ∧
    t.power = s.power ∧ t.jtag = s.jtag ∧ t.pair = s.pair ∧ t.svc = s.svc ∧ t.snap = s.snap ∧ t.bist = s.bist ∧
    t.pending = s.pending := by
  unfold State.traceSlot
  repeat' (first | split | simp)

@[simp] theorem schedDomainAllotSpec_frame (r : Req) (s : State) :
    let t := (schedDomainAllotSpec.effect r s).1
    t.ms = s.ms ∧ t.host = s.host ∧ t.cfg = s.cfg ∧ t.nv = s.nv ∧ t.procs = s.procs ∧ t.time = s.time ∧
    t.ports = s.ports ∧ t.fwd = s.fwd ∧ t.qos = s.qos ∧ t.mesh = s.mesh ∧ t.pins = s.pins ∧ t.power = s.power ∧
    t.jtag = s.jtag ∧ t.pair = s.pair ∧ t.svc = s.svc ∧ t.snap = s.snap ∧ t.bist = s.bist ∧ t.trace = s.trace ∧
    t.ctr = s.ctr ∧ t.draws = s.draws ∧ t.pending = s.pending := by
  unfold schedDomainAllotSpec
  repeat' (first | split | simp)

@[simp] theorem schedSiteAllotSpec_frame (r : Req) (s : State) :
    let t := (schedSiteAllotSpec.effect r s).1
    t.ms = s.ms ∧ t.host = s.host ∧ t.cfg = s.cfg ∧ t.nv = s.nv ∧ t.procs = s.procs ∧ t.time = s.time ∧
    t.ports = s.ports ∧ t.fwd = s.fwd ∧ t.qos = s.qos ∧ t.mesh = s.mesh ∧ t.pins = s.pins ∧ t.power = s.power ∧
    t.jtag = s.jtag ∧ t.pair = s.pair ∧ t.svc = s.svc ∧ t.snap = s.snap ∧ t.bist = s.bist ∧ t.trace = s.trace ∧
    t.ctr = s.ctr ∧ t.draws = s.draws ∧ t.pending = s.pending := by
  unfold schedSiteAllotSpec
  repeat' (first | split | simp)

@[simp] theorem Bank.endLoad_frame (b) (s : State) :
    let t := Bank.endLoad b s
    t.ms = s.ms ∧ t.cfg = s.cfg ∧ t.nv = s.nv ∧ t.procs = s.procs ∧ t.time = s.time ∧ t.ports = s.ports ∧
    t.fwd = s.fwd ∧ t.qos = s.qos ∧ t.radio = s.radio ∧ t.mesh = s.mesh ∧ t.pins = s.pins ∧ t.power = s.power ∧
    t.jtag = s.jtag ∧ t.svc = s.svc ∧ t.snap = s.snap ∧ t.bist = s.bist ∧ t.trace = s.trace ∧ t.ctr = s.ctr ∧
    t.draws = s.draws ∧ t.pending = s.pending := by
  unfold Bank.endLoad
  repeat' (first | split | simp)

@[simp] theorem schedLoadImageSpec_frame (r : Req) (s : State) :
    let t := (schedLoadImageSpec.effect r s).1
    t.ms = s.ms ∧ t.host = s.host ∧ t.cfg = s.cfg ∧ t.nv = s.nv ∧ t.procs = s.procs ∧ t.time = s.time ∧
    t.ports = s.ports ∧ t.fwd = s.fwd ∧ t.qos = s.qos ∧ t.mesh = s.mesh ∧ t.pins = s.pins ∧ t.power = s.power ∧
    t.jtag = s.jtag ∧ t.pair = s.pair ∧ t.svc = s.svc ∧ t.snap = s.snap ∧ t.bist = s.bist ∧ t.trace = s.trace ∧
    t.ctr = s.ctr ∧ t.draws = s.draws ∧ t.pending = s.pending := by
  unfold schedLoadImageSpec
  repeat' (first | split | simp)

@[simp] theorem schedActivateSpec_frame (r : Req) (s : State) :
    let t := (schedActivateSpec.effect r s).1
    t.ms = s.ms ∧ t.cfg = s.cfg ∧ t.nv = s.nv ∧ t.procs = s.procs ∧ t.time = s.time ∧ t.ports = s.ports ∧
    t.fwd = s.fwd ∧ t.qos = s.qos ∧ t.mesh = s.mesh ∧ t.pins = s.pins ∧ t.power = s.power ∧ t.jtag = s.jtag ∧
    t.svc = s.svc ∧ t.snap = s.snap ∧ t.bist = s.bist ∧ t.trace = s.trace ∧ t.ctr = s.ctr ∧ t.draws = s.draws ∧
    t.pending = s.pending := by
  unfold schedActivateSpec
  repeat' (first | split | simp)

@[simp] theorem schedDeactivateSpec_frame (r : Req) (s : State) :
    let t := (schedDeactivateSpec.effect r s).1
    t.ms = s.ms ∧ t.cfg = s.cfg ∧ t.nv = s.nv ∧ t.procs = s.procs ∧ t.time = s.time ∧ t.ports = s.ports ∧
    t.fwd = s.fwd ∧ t.qos = s.qos ∧ t.mesh = s.mesh ∧ t.pins = s.pins ∧ t.power = s.power ∧ t.jtag = s.jtag ∧
    t.svc = s.svc ∧ t.snap = s.snap ∧ t.bist = s.bist ∧ t.trace = s.trace ∧ t.ctr = s.ctr ∧ t.draws = s.draws ∧
    t.pending = s.pending := by
  unfold schedDeactivateSpec
  repeat' (first | split | simp)

@[simp] theorem schedUnloadSpec_frame (r : Req) (s : State) :
    let t := (schedUnloadSpec.effect r s).1
    t.ms = s.ms ∧ t.cfg = s.cfg ∧ t.nv = s.nv ∧ t.procs = s.procs ∧ t.time = s.time ∧ t.ports = s.ports ∧
    t.fwd = s.fwd ∧ t.qos = s.qos ∧ t.mesh = s.mesh ∧ t.pins = s.pins ∧ t.power = s.power ∧ t.jtag = s.jtag ∧
    t.svc = s.svc ∧ t.snap = s.snap ∧ t.bist = s.bist ∧ t.trace = s.trace ∧ t.ctr = s.ctr ∧ t.draws = s.draws ∧
    t.pending = s.pending := by
  unfold schedUnloadSpec
  repeat' (first | split | simp)

@[simp] theorem schedStatusSpec_frame (r : Req) (s : State) :
    let t := (schedStatusSpec.effect r s).1
    t.ms = s.ms ∧ t.host = s.host ∧ t.cfg = s.cfg ∧ t.nv = s.nv ∧ t.procs = s.procs ∧ t.time = s.time ∧
    t.ports = s.ports ∧ t.fwd = s.fwd ∧ t.qos = s.qos ∧ t.radio = s.radio ∧ t.mesh = s.mesh ∧ t.pins = s.pins ∧
    t.power = s.power ∧ t.jtag = s.jtag ∧ t.pair = s.pair ∧ t.svc = s.svc ∧ t.snap = s.snap ∧ t.bist = s.bist ∧
    t.trace = s.trace ∧ t.ctr = s.ctr ∧ t.draws = s.draws ∧ t.pending = s.pending := by
  unfold schedStatusSpec
  repeat' (first | split | simp)

@[simp] theorem State.trapEntry_frame (s : State) (d) (code) (site) (band) (slot) :
    let t := State.trapEntry s d code site band slot
    t.ms = s.ms ∧ t.cfg = s.cfg ∧ t.nv = s.nv ∧ t.procs = s.procs ∧ t.time = s.time ∧ t.ports = s.ports ∧
    t.fwd = s.fwd ∧ t.qos = s.qos ∧ t.radio = s.radio ∧ t.mesh = s.mesh ∧ t.pins = s.pins ∧ t.power = s.power ∧
    t.jtag = s.jtag ∧ t.pair = s.pair ∧ t.svc = s.svc ∧ t.snap = s.snap ∧ t.bist = s.bist ∧ t.trace = s.trace ∧
    t.ctr = s.ctr ∧ t.draws = s.draws ∧ t.pending = s.pending := by
  unfold State.trapEntry
  repeat' (first | split | simp)

@[simp] theorem State.delayEntry_frame (s : State) (type) (d) (site) (ns) :
    let t := State.delayEntry s type d site ns
    t.ms = s.ms ∧ t.cfg = s.cfg ∧ t.nv = s.nv ∧ t.procs = s.procs ∧ t.time = s.time ∧ t.ports = s.ports ∧
    t.fwd = s.fwd ∧ t.qos = s.qos ∧ t.radio = s.radio ∧ t.mesh = s.mesh ∧ t.pins = s.pins ∧ t.power = s.power ∧
    t.jtag = s.jtag ∧ t.pair = s.pair ∧ t.svc = s.svc ∧ t.snap = s.snap ∧ t.bist = s.bist ∧ t.trace = s.trace ∧
    t.ctr = s.ctr ∧ t.draws = s.draws ∧ t.pending = s.pending := by
  unfold State.delayEntry
  repeat' (first | split | simp)

@[simp] theorem State.delayFor_frame (s : State) (site) (ns) (d) :
    let t := State.delayFor s site ns d
    t.ms = s.ms ∧ t.cfg = s.cfg ∧ t.nv = s.nv ∧ t.procs = s.procs ∧ t.time = s.time ∧ t.ports = s.ports ∧
    t.fwd = s.fwd ∧ t.qos = s.qos ∧ t.mesh = s.mesh ∧ t.pins = s.pins ∧ t.power = s.power ∧ t.jtag = s.jtag ∧
    t.pair = s.pair ∧ t.svc = s.svc ∧ t.snap = s.snap ∧ t.bist = s.bist ∧ t.trace = s.trace ∧ t.ctr = s.ctr ∧
    t.draws = s.draws ∧ t.pending = s.pending := by
  unfold State.delayFor
  repeat' (first | split | simp)

@[simp] theorem State.delayMeasured_frame (s : State) (site) (ns) :
    let t := State.delayMeasured s site ns
    t.ms = s.ms ∧ t.cfg = s.cfg ∧ t.nv = s.nv ∧ t.procs = s.procs ∧ t.time = s.time ∧ t.ports = s.ports ∧
    t.fwd = s.fwd ∧ t.qos = s.qos ∧ t.mesh = s.mesh ∧ t.pins = s.pins ∧ t.power = s.power ∧ t.jtag = s.jtag ∧
    t.pair = s.pair ∧ t.svc = s.svc ∧ t.snap = s.snap ∧ t.bist = s.bist ∧ t.trace = s.trace ∧ t.ctr = s.ctr ∧
    t.draws = s.draws ∧ t.pending = s.pending := by
  unfold State.delayMeasured
  repeat' (first | split | simp)

@[simp] theorem State.idleDomain_frame (s : State) (d) :
    let t := State.idleDomain s d
    t.ms = s.ms ∧ t.host = s.host ∧ t.cfg = s.cfg ∧ t.nv = s.nv ∧ t.procs = s.procs ∧ t.time = s.time ∧
    t.ports = s.ports ∧ t.fwd = s.fwd ∧ t.qos = s.qos ∧ t.mesh = s.mesh ∧ t.pins = s.pins ∧ t.power = s.power ∧
    t.jtag = s.jtag ∧ t.pair = s.pair ∧ t.svc = s.svc ∧ t.snap = s.snap ∧ t.bist = s.bist ∧ t.trace = s.trace ∧
    t.ctr = s.ctr ∧ t.draws = s.draws ∧ t.pending = s.pending := by
  unfold State.idleDomain
  repeat' (first | split | simp)

@[simp] theorem State.bounce_frame (s : State) (site) :
    let t := State.bounce s site
    t.ms = s.ms ∧ t.cfg = s.cfg ∧ t.nv = s.nv ∧ t.procs = s.procs ∧ t.time = s.time ∧ t.fwd = s.fwd ∧ t.qos = s.qos ∧
    t.mesh = s.mesh ∧ t.pins = s.pins ∧ t.power = s.power ∧ t.jtag = s.jtag ∧ t.pair = s.pair ∧ t.svc = s.svc ∧
    t.snap = s.snap ∧ t.bist = s.bist ∧ t.trace = s.trace ∧ t.draws = s.draws ∧ t.pending = s.pending := by
  unfold State.bounce
  repeat' (first | split | simp)

@[simp] theorem State.leave_frame (s : State) (site) (reason) :
    let t := State.leave s site reason
    t.ms = s.ms ∧ t.cfg = s.cfg ∧ t.nv = s.nv ∧ t.procs = s.procs ∧ t.time = s.time ∧ t.fwd = s.fwd ∧ t.qos = s.qos ∧
    t.mesh = s.mesh ∧ t.pins = s.pins ∧ t.power = s.power ∧ t.jtag = s.jtag ∧ t.pair = s.pair ∧ t.svc = s.svc ∧
    t.snap = s.snap ∧ t.bist = s.bist ∧ t.trace = s.trace ∧ t.draws = s.draws ∧ t.pending = s.pending := by
  unfold State.leave
  repeat' (first | split | simp)

@[simp] theorem State.loadFailed_frame (s : State) (site) (number) :
    let t := State.loadFailed s site number
    t.ms = s.ms ∧ t.cfg = s.cfg ∧ t.nv = s.nv ∧ t.procs = s.procs ∧ t.time = s.time ∧ t.fwd = s.fwd ∧ t.qos = s.qos ∧
    t.mesh = s.mesh ∧ t.pins = s.pins ∧ t.power = s.power ∧ t.jtag = s.jtag ∧ t.pair = s.pair ∧ t.svc = s.svc ∧
    t.snap = s.snap ∧ t.bist = s.bist ∧ t.trace = s.trace ∧ t.draws = s.draws ∧ t.pending = s.pending := by
  unfold State.loadFailed
  repeat' (first | split | simp)

@[simp] theorem State.dcwAnswer_frame (s : State) (site) (word) (result) :
    let t := State.dcwAnswer s site word result
    t.ms = s.ms ∧ t.host = s.host ∧ t.cfg = s.cfg ∧ t.nv = s.nv ∧ t.procs = s.procs ∧ t.time = s.time ∧
    t.ports = s.ports ∧ t.fwd = s.fwd ∧ t.mesh = s.mesh ∧ t.pins = s.pins ∧ t.power = s.power ∧ t.jtag = s.jtag ∧
    t.pair = s.pair ∧ t.svc = s.svc ∧ t.snap = s.snap ∧ t.bist = s.bist ∧ t.trace = s.trace ∧ t.draws = s.draws ∧
    t.pending = s.pending := by
  unfold State.dcwAnswer
  repeat' (first | split | simp)

@[simp] theorem State.enterService_frame (s : State) (n) :
    let t := State.enterService s n
    t.ms = s.ms ∧ t.cfg = s.cfg ∧ t.nv = s.nv ∧ t.procs = s.procs ∧ t.time = s.time ∧ t.ports = s.ports ∧
    t.fwd = s.fwd ∧ t.qos = s.qos ∧ t.mesh = s.mesh ∧ t.pins = s.pins ∧ t.power = s.power ∧ t.jtag = s.jtag ∧
    t.pair = s.pair ∧ t.svc = s.svc ∧ t.snap = s.snap ∧ t.bist = s.bist ∧ t.trace = s.trace ∧ t.draws = s.draws ∧
    t.pending = s.pending := by
  unfold State.enterService
  repeat' (first | split | simp)

@[simp] theorem State.applyDelay_frame (s : State) (site) (ns) :
    let t := State.applyDelay s site ns
    t.ms = s.ms ∧ t.cfg = s.cfg ∧ t.nv = s.nv ∧ t.procs = s.procs ∧ t.time = s.time ∧ t.fwd = s.fwd ∧ t.qos = s.qos ∧
    t.mesh = s.mesh ∧ t.pins = s.pins ∧ t.power = s.power ∧ t.jtag = s.jtag ∧ t.pair = s.pair ∧ t.svc = s.svc ∧
    t.snap = s.snap ∧ t.bist = s.bist ∧ t.trace = s.trace ∧ t.draws = s.draws ∧ t.pending = s.pending := by
  unfold State.applyDelay
  repeat' (first | split | simp)

@[simp] theorem State.floorEnd_frame (s : State) (site) (band) :
    let t := State.floorEnd s site band
    t.ms = s.ms ∧ t.cfg = s.cfg ∧ t.nv = s.nv ∧ t.procs = s.procs ∧ t.time = s.time ∧ t.ports = s.ports ∧
    t.fwd = s.fwd ∧ t.qos = s.qos ∧ t.mesh = s.mesh ∧ t.pins = s.pins ∧ t.power = s.power ∧ t.jtag = s.jtag ∧
    t.pair = s.pair ∧ t.svc = s.svc ∧ t.snap = s.snap ∧ t.bist = s.bist ∧ t.trace = s.trace ∧ t.ctr = s.ctr ∧
    t.draws = s.draws ∧ t.pending = s.pending := by
  unfold State.floorEnd
  repeat' (first | split | simp)

@[simp] theorem State.applyGain_frame (n) (c) (s : State) (n3) :
    let t := State.applyGain n c s n3
    t.ms = s.ms ∧ t.host = s.host ∧ t.cfg = s.cfg ∧ t.nv = s.nv ∧ t.procs = s.procs ∧ t.time = s.time ∧
    t.ports = s.ports ∧ t.fwd = s.fwd ∧ t.mesh = s.mesh ∧ t.pins = s.pins ∧ t.power = s.power ∧ t.jtag = s.jtag ∧
    t.pair = s.pair ∧ t.svc = s.svc ∧ t.snap = s.snap ∧ t.bist = s.bist ∧ t.trace = s.trace ∧ t.draws = s.draws ∧
    t.pending = s.pending := by
  unfold State.applyGain
  repeat' (first | split | simp)

@[simp] theorem radioSiteConfigSpec_frame (r : Req) (s : State) :
    let t := (radioSiteConfigSpec.effect r s).1
    t.ms = s.ms ∧ t.host = s.host ∧ t.procs = s.procs ∧ t.time = s.time ∧ t.ports = s.ports ∧ t.fwd = s.fwd ∧
    t.mesh = s.mesh ∧ t.pins = s.pins ∧ t.power = s.power ∧ t.jtag = s.jtag ∧ t.pair = s.pair ∧ t.svc = s.svc ∧
    t.snap = s.snap ∧ t.bist = s.bist ∧ t.trace = s.trace ∧ t.draws = s.draws ∧ t.pending = s.pending := by
  unfold radioSiteConfigSpec
  repeat' (first | split | simp)

@[simp] theorem State.replan_frame (b) (p) (s : State) (n) :
    let t := State.replan b p s n
    t.ms = s.ms ∧ t.host = s.host ∧ t.cfg = s.cfg ∧ t.nv = s.nv ∧ t.procs = s.procs ∧ t.time = s.time ∧
    t.ports = s.ports ∧ t.fwd = s.fwd ∧ t.qos = s.qos ∧ t.mesh = s.mesh ∧ t.pins = s.pins ∧ t.power = s.power ∧
    t.jtag = s.jtag ∧ t.pair = s.pair ∧ t.svc = s.svc ∧ t.snap = s.snap ∧ t.bist = s.bist ∧ t.trace = s.trace ∧
    t.ctr = s.ctr ∧ t.draws = s.draws ∧ t.pending = s.pending := by
  unfold State.replan
  repeat' (first | split | simp)

@[simp] theorem radioDwellConfigSpec_frame (r : Req) (s : State) :
    let t := (radioDwellConfigSpec.effect r s).1
    t.ms = s.ms ∧ t.host = s.host ∧ t.procs = s.procs ∧ t.time = s.time ∧ t.ports = s.ports ∧ t.fwd = s.fwd ∧
    t.qos = s.qos ∧ t.mesh = s.mesh ∧ t.pins = s.pins ∧ t.power = s.power ∧ t.jtag = s.jtag ∧ t.pair = s.pair ∧
    t.svc = s.svc ∧ t.snap = s.snap ∧ t.bist = s.bist ∧ t.trace = s.trace ∧ t.ctr = s.ctr ∧ t.draws = s.draws ∧
    t.pending = s.pending := by
  unfold radioDwellConfigSpec
  repeat' (first | split | simp)

@[simp] theorem radioSiteStatusSpec_frame (r : Req) (s : State) :
    let t := (radioSiteStatusSpec.effect r s).1
    t.ms = s.ms ∧ t.host = s.host ∧ t.cfg = s.cfg ∧ t.nv = s.nv ∧ t.procs = s.procs ∧ t.time = s.time ∧
    t.ports = s.ports ∧ t.fwd = s.fwd ∧ t.qos = s.qos ∧ t.radio = s.radio ∧ t.mesh = s.mesh ∧ t.pins = s.pins ∧
    t.power = s.power ∧ t.jtag = s.jtag ∧ t.pair = s.pair ∧ t.svc = s.svc ∧ t.snap = s.snap ∧ t.bist = s.bist ∧
    t.trace = s.trace ∧ t.ctr = s.ctr ∧ t.pending = s.pending := by
  unfold radioSiteStatusSpec
  repeat' (first | split | simp)

@[simp] theorem radioFloorReadSpec_frame (r : Req) (s : State) :
    let t := (radioFloorReadSpec.effect r s).1
    t.ms = s.ms ∧ t.host = s.host ∧ t.cfg = s.cfg ∧ t.nv = s.nv ∧ t.procs = s.procs ∧ t.time = s.time ∧
    t.ports = s.ports ∧ t.fwd = s.fwd ∧ t.qos = s.qos ∧ t.radio = s.radio ∧ t.mesh = s.mesh ∧ t.pins = s.pins ∧
    t.power = s.power ∧ t.jtag = s.jtag ∧ t.pair = s.pair ∧ t.svc = s.svc ∧ t.snap = s.snap ∧ t.bist = s.bist ∧
    t.trace = s.trace ∧ t.ctr = s.ctr ∧ t.draws = s.draws ∧ t.pending = s.pending := by
  unfold radioFloorReadSpec
  repeat' (first | split | simp)

@[simp] theorem radioDwellReadSpec_frame (r : Req) (s : State) :
    let t := (radioDwellReadSpec.effect r s).1
    t.ms = s.ms ∧ t.host = s.host ∧ t.cfg = s.cfg ∧ t.nv = s.nv ∧ t.procs = s.procs ∧ t.time = s.time ∧
    t.ports = s.ports ∧ t.fwd = s.fwd ∧ t.qos = s.qos ∧ t.radio = s.radio ∧ t.mesh = s.mesh ∧ t.pins = s.pins ∧
    t.power = s.power ∧ t.jtag = s.jtag ∧ t.pair = s.pair ∧ t.svc = s.svc ∧ t.snap = s.snap ∧ t.bist = s.bist ∧
    t.trace = s.trace ∧ t.ctr = s.ctr ∧ t.draws = s.draws ∧ t.pending = s.pending := by
  unfold radioDwellReadSpec
  repeat' (first | split | simp)

@[simp] theorem radioSiteResetSpec_frame (r : Req) (s : State) :
    let t := (radioSiteResetSpec.effect r s).1
    t.ms = s.ms ∧ t.cfg = s.cfg ∧ t.nv = s.nv ∧ t.procs = s.procs ∧ t.time = s.time ∧ t.fwd = s.fwd ∧ t.qos = s.qos ∧
    t.mesh = s.mesh ∧ t.pins = s.pins ∧ t.power = s.power ∧ t.jtag = s.jtag ∧ t.pair = s.pair ∧ t.svc = s.svc ∧
    t.snap = s.snap ∧ t.bist = s.bist ∧ t.trace = s.trace ∧ t.draws = s.draws ∧ t.pending = s.pending := by
  unfold radioSiteResetSpec
  repeat' (first | split | simp)

end Sys2Proof.Machine
end

