-- ==== Sys2Proof/Laws/FrameMesh.lean ====
section
/-! SUPPORT. Frames of the operations of keys, the mesh and the modem: for each operation, the parts of the
state that it leaves as they were. -/

namespace Sys2Proof.Machine

@[simp] theorem State.modMesh_frame (s : State) (d) (f) :
    let t := State.modMesh s d f
    t.ms = s.ms ∧ t.host = s.host ∧ t.cfg = s.cfg ∧ t.nv = s.nv ∧ t.procs = s.procs ∧ t.time = s.time ∧
    t.ports = s.ports ∧ t.fwd = s.fwd ∧ t.qos = s.qos ∧ t.radio = s.radio ∧ t.pins = s.pins ∧ t.power = s.power ∧
    t.jtag = s.jtag ∧ t.pair = s.pair ∧ t.svc = s.svc ∧ t.snap = s.snap ∧ t.bist = s.bist ∧ t.trace = s.trace ∧
    t.ctr = s.ctr ∧ t.draws = s.draws ∧ t.pending = s.pending := by
  unfold State.modMesh
  repeat' (first | split | simp)

@[simp] theorem State.setNode_frame (s : State) (h) (x2) :
    let t := State.setNode s h x2
    t.ms = s.ms ∧ t.host = s.host ∧ t.cfg = s.cfg ∧ t.nv = s.nv ∧ t.procs = s.procs ∧ t.time = s.time ∧
    t.ports = s.ports ∧ t.fwd = s.fwd ∧ t.qos = s.qos ∧ t.radio = s.radio ∧ t.pins = s.pins ∧ t.power = s.power ∧
    t.jtag = s.jtag ∧ t.pair = s.pair ∧ t.svc = s.svc ∧ t.snap = s.snap ∧ t.bist = s.bist ∧ t.trace = s.trace ∧
    t.ctr = s.ctr ∧ t.draws = s.draws ∧ t.pending = s.pending := by
  unfold State.setNode
  repeat' (first | split | simp)

@[simp] theorem State.modNode_frame (s : State) (h) (f) :
    let t := State.modNode s h f
    t.ms = s.ms ∧ t.host = s.host ∧ t.cfg = s.cfg ∧ t.nv = s.nv ∧ t.procs = s.procs ∧ t.time = s.time ∧
    t.ports = s.ports ∧ t.fwd = s.fwd ∧ t.qos = s.qos ∧ t.radio = s.radio ∧ t.pins = s.pins ∧ t.power = s.power ∧
    t.jtag = s.jtag ∧ t.pair = s.pair ∧ t.svc = s.svc ∧ t.snap = s.snap ∧ t.bist = s.bist ∧ t.trace = s.trace ∧
    t.ctr = s.ctr ∧ t.draws = s.draws ∧ t.pending = s.pending := by
  unfold State.modNode
  repeat' (first | split | simp)

@[simp] theorem State.engineWrite_frame (s : State) (h) (f) :
    let t := State.engineWrite s h f
    t.ms = s.ms ∧ t.host = s.host ∧ t.cfg = s.cfg ∧ t.nv = s.nv ∧ t.procs = s.procs ∧ t.time = s.time ∧
    t.ports = s.ports ∧ t.fwd = s.fwd ∧ t.qos = s.qos ∧ t.radio = s.radio ∧ t.pins = s.pins ∧ t.power = s.power ∧
    t.jtag = s.jtag ∧ t.pair = s.pair ∧ t.svc = s.svc ∧ t.snap = s.snap ∧ t.bist = s.bist ∧ t.trace = s.trace ∧
    t.ctr = s.ctr ∧ t.draws = s.draws ∧ t.pending = s.pending := by
  unfold State.engineWrite
  repeat' (first | split | simp)

@[simp] theorem State.meshEntry_frame (s : State) (d) (well) (type) (body) :
    let t := State.meshEntry s d well type body
    t.ms = s.ms ∧ t.cfg = s.cfg ∧ t.nv = s.nv ∧ t.procs = s.procs ∧ t.time = s.time ∧ t.ports = s.ports ∧
    t.fwd = s.fwd ∧ t.qos = s.qos ∧ t.radio = s.radio ∧ t.mesh = s.mesh ∧ t.pins = s.pins ∧ t.power = s.power ∧
    t.jtag = s.jtag ∧ t.pair = s.pair ∧ t.svc = s.svc ∧ t.snap = s.snap ∧ t.bist = s.bist ∧ t.trace = s.trace ∧
    t.draws = s.draws ∧ t.pending = s.pending := by
  unfold State.meshEntry
  repeat' (first | split | simp)

@[simp] theorem State.meshEvent_frame (s : State) (d) (type) (body) :
    let t := State.meshEvent s d type body
    t.ms = s.ms ∧ t.cfg = s.cfg ∧ t.nv = s.nv ∧ t.procs = s.procs ∧ t.time = s.time ∧ t.ports = s.ports ∧
    t.fwd = s.fwd ∧ t.qos = s.qos ∧ t.radio = s.radio ∧ t.mesh = s.mesh ∧ t.pins = s.pins ∧ t.power = s.power ∧
    t.jtag = s.jtag ∧ t.pair = s.pair ∧ t.svc = s.svc ∧ t.snap = s.snap ∧ t.bist = s.bist ∧ t.trace = s.trace ∧
    t.draws = s.draws ∧ t.pending = s.pending := by
  unfold State.meshEvent
  repeat' (first | split | simp)

@[simp] theorem State.meshAlarm_frame (s : State) (d) (type) (body) :
    let t := State.meshAlarm s d type body
    t.ms = s.ms ∧ t.cfg = s.cfg ∧ t.nv = s.nv ∧ t.procs = s.procs ∧ t.time = s.time ∧ t.ports = s.ports ∧
    t.fwd = s.fwd ∧ t.qos = s.qos ∧ t.radio = s.radio ∧ t.mesh = s.mesh ∧ t.pins = s.pins ∧ t.power = s.power ∧
    t.jtag = s.jtag ∧ t.pair = s.pair ∧ t.svc = s.svc ∧ t.snap = s.snap ∧ t.bist = s.bist ∧ t.trace = s.trace ∧
    t.draws = s.draws ∧ t.pending = s.pending := by
  unfold State.meshAlarm
  repeat' (first | split | simp)

@[simp] theorem State.forget_frame (s : State) (f) (tag) (opcode) :
    let t := State.forget s f tag opcode
    t.ms = s.ms ∧ t.cfg = s.cfg ∧ t.nv = s.nv ∧ t.procs = s.procs ∧ t.time = s.time ∧ t.ports = s.ports ∧
    t.fwd = s.fwd ∧ t.qos = s.qos ∧ t.radio = s.radio ∧ t.mesh = s.mesh ∧ t.pins = s.pins ∧ t.power = s.power ∧
    t.jtag = s.jtag ∧ t.pair = s.pair ∧ t.svc = s.svc ∧ t.snap = s.snap ∧ t.bist = s.bist ∧ t.trace = s.trace ∧
    t.ctr = s.ctr ∧ t.draws = s.draws ∧ t.pending = s.pending := by
  unfold State.forget
  repeat' (first | split | simp)

@[simp] theorem State.dropFrames_frame (s : State) (fn) (tag) :
    let t := State.dropFrames s fn tag
    t.ms = s.ms ∧ t.host = s.host ∧ t.cfg = s.cfg ∧ t.nv = s.nv ∧ t.procs = s.procs ∧ t.time = s.time ∧
    t.ports = s.ports ∧ t.fwd = s.fwd ∧ t.qos = s.qos ∧ t.radio = s.radio ∧ t.pins = s.pins ∧ t.power = s.power ∧
    t.jtag = s.jtag ∧ t.pair = s.pair ∧ t.svc = s.svc ∧ t.snap = s.snap ∧ t.bist = s.bist ∧ t.trace = s.trace ∧
    t.ctr = s.ctr ∧ t.draws = s.draws ∧ t.pending = s.pending := by
  unfold State.dropFrames
  repeat' (first | split | simp)

@[simp] theorem State.endSend_frame (s : State) (c) (status) (sub) :
    let t := State.endSend s c status sub
    t.ms = s.ms ∧ t.cfg = s.cfg ∧ t.nv = s.nv ∧ t.procs = s.procs ∧ t.time = s.time ∧ t.ports = s.ports ∧
    t.fwd = s.fwd ∧ t.qos = s.qos ∧ t.radio = s.radio ∧ t.pins = s.pins ∧ t.power = s.power ∧ t.jtag = s.jtag ∧
    t.svc = s.svc ∧ t.snap = s.snap ∧ t.bist = s.bist ∧ t.trace = s.trace ∧ t.ctr = s.ctr ∧ t.draws = s.draws ∧
    t.pending = s.pending := by
  unfold State.endSend
  repeat' (first | split | simp)

@[simp] theorem State.endSendsOf_frame (s : State) (h) (sub) :
    let t := State.endSendsOf s h sub
    t.ms = s.ms ∧ t.cfg = s.cfg ∧ t.nv = s.nv ∧ t.procs = s.procs ∧ t.time = s.time ∧ t.ports = s.ports ∧
    t.fwd = s.fwd ∧ t.qos = s.qos ∧ t.radio = s.radio ∧ t.pins = s.pins ∧ t.power = s.power ∧ t.jtag = s.jtag ∧
    t.svc = s.svc ∧ t.snap = s.snap ∧ t.bist = s.bist ∧ t.trace = s.trace ∧ t.ctr = s.ctr ∧ t.draws = s.draws ∧
    t.pending = s.pending := by
  unfold State.endSendsOf
  repeat' (first | split | simp)

@[simp] theorem State.forgetSends_frame (s : State) (d) :
    let t := State.forgetSends s d
    t.ms = s.ms ∧ t.cfg = s.cfg ∧ t.nv = s.nv ∧ t.procs = s.procs ∧ t.time = s.time ∧ t.ports = s.ports ∧
    t.fwd = s.fwd ∧ t.qos = s.qos ∧ t.radio = s.radio ∧ t.pins = s.pins ∧ t.power = s.power ∧ t.jtag = s.jtag ∧
    t.pair = s.pair ∧ t.svc = s.svc ∧ t.snap = s.snap ∧ t.bist = s.bist ∧ t.trace = s.trace ∧ t.ctr = s.ctr ∧
    t.draws = s.draws ∧ t.pending = s.pending := by
  unfold State.forgetSends
  repeat' (first | split | simp)

@[simp] theorem State.flushNode_frame (s : State) (d) (h) :
    let t := State.flushNode s d h
    t.ms = s.ms ∧ t.host = s.host ∧ t.cfg = s.cfg ∧ t.nv = s.nv ∧ t.procs = s.procs ∧ t.time = s.time ∧
    t.ports = s.ports ∧ t.fwd = s.fwd ∧ t.qos = s.qos ∧ t.radio = s.radio ∧ t.pins = s.pins ∧ t.power = s.power ∧
    t.jtag = s.jtag ∧ t.pair = s.pair ∧ t.svc = s.svc ∧ t.snap = s.snap ∧ t.bist = s.bist ∧ t.trace = s.trace ∧
    t.draws = s.draws ∧ t.pending = s.pending := by
  unfold State.flushNode
  repeat' (first | split | simp)

@[simp] theorem State.clearMaps_frame (s : State) (h) :
    let t := State.clearMaps s h
    t.ms = s.ms ∧ t.host = s.host ∧ t.cfg = s.cfg ∧ t.nv = s.nv ∧ t.procs = s.procs ∧ t.time = s.time ∧
    t.ports = s.ports ∧ t.fwd = s.fwd ∧ t.qos = s.qos ∧ t.mesh = s.mesh ∧ t.pins = s.pins ∧ t.power = s.power ∧
    t.jtag = s.jtag ∧ t.pair = s.pair ∧ t.svc = s.svc ∧ t.snap = s.snap ∧ t.bist = s.bist ∧ t.trace = s.trace ∧
    t.ctr = s.ctr ∧ t.draws = s.draws ∧ t.pending = s.pending := by
  unfold State.clearMaps
  repeat' (first | split | simp)

@[simp] theorem State.removeNode_frame (s : State) (h) (value) :
    let t := State.removeNode s h value
    t.ms = s.ms ∧ t.cfg = s.cfg ∧ t.nv = s.nv ∧ t.procs = s.procs ∧ t.time = s.time ∧ t.ports = s.ports ∧
    t.fwd = s.fwd ∧ t.qos = s.qos ∧ t.pins = s.pins ∧ t.power = s.power ∧ t.jtag = s.jtag ∧ t.svc = s.svc ∧
    t.snap = s.snap ∧ t.bist = s.bist ∧ t.trace = s.trace ∧ t.draws = s.draws ∧ t.pending = s.pending := by
  unfold State.removeNode
  repeat' (first | split | simp)

@[simp] theorem State.removeRecords_frame (s : State) (d) :
    let t := State.removeRecords s d
    t.ms = s.ms ∧ t.cfg = s.cfg ∧ t.nv = s.nv ∧ t.procs = s.procs ∧ t.time = s.time ∧ t.ports = s.ports ∧
    t.fwd = s.fwd ∧ t.qos = s.qos ∧ t.pins = s.pins ∧ t.power = s.power ∧ t.jtag = s.jtag ∧ t.svc = s.svc ∧
    t.snap = s.snap ∧ t.bist = s.bist ∧ t.trace = s.trace ∧ t.draws = s.draws ∧ t.pending = s.pending := by
  unfold State.removeRecords
  repeat' (first | split | simp)

@[simp] theorem State.aesJob_frame (s : State) :
    let t := State.aesJob s
    t.ms = s.ms ∧ t.host = s.host ∧ t.cfg = s.cfg ∧ t.nv = s.nv ∧ t.procs = s.procs ∧ t.time = s.time ∧
    t.ports = s.ports ∧ t.fwd = s.fwd ∧ t.qos = s.qos ∧ t.radio = s.radio ∧ t.mesh = s.mesh ∧ t.pins = s.pins ∧
    t.power = s.power ∧ t.jtag = s.jtag ∧ t.pair = s.pair ∧ t.svc = s.svc ∧ t.snap = s.snap ∧ t.bist = s.bist ∧
    t.trace = s.trace ∧ t.pending = s.pending := by
  unfold State.aesJob
  repeat' (first | split | simp)

@[simp] theorem State.eccJob_frame (s : State) (reason) :
    let t := State.eccJob s reason
    t.ms = s.ms ∧ t.host = s.host ∧ t.cfg = s.cfg ∧ t.nv = s.nv ∧ t.procs = s.procs ∧ t.time = s.time ∧
    t.ports = s.ports ∧ t.fwd = s.fwd ∧ t.qos = s.qos ∧ t.radio = s.radio ∧ t.mesh = s.mesh ∧ t.pins = s.pins ∧
    t.power = s.power ∧ t.jtag = s.jtag ∧ t.pair = s.pair ∧ t.svc = s.svc ∧ t.snap = s.snap ∧ t.bist = s.bist ∧
    t.trace = s.trace ∧ t.pending = s.pending := by
  unfold State.eccJob
  repeat' (first | split | simp)

@[simp] theorem State.setSlot_frame (s : State) (n) (x2) :
    let t := State.setSlot s n x2
    t.ms = s.ms ∧ t.host = s.host ∧ t.cfg = s.cfg ∧ t.procs = s.procs ∧ t.time = s.time ∧ t.ports = s.ports ∧
    t.fwd = s.fwd ∧ t.qos = s.qos ∧ t.radio = s.radio ∧ t.mesh = s.mesh ∧ t.pins = s.pins ∧ t.power = s.power ∧
    t.jtag = s.jtag ∧ t.pair = s.pair ∧ t.svc = s.svc ∧ t.snap = s.snap ∧ t.bist = s.bist ∧ t.trace = s.trace ∧
    t.ctr = s.ctr ∧ t.draws = s.draws ∧ t.pending = s.pending := by
  unfold State.setSlot
  repeat' (first | split | simp)

@[simp] theorem State.putKey_frame (s : State) (n) (x2) :
    let t := State.putKey s n x2
    t.ms = s.ms ∧ t.host = s.host ∧ t.cfg = s.cfg ∧ t.procs = s.procs ∧ t.time = s.time ∧ t.ports = s.ports ∧
    t.fwd = s.fwd ∧ t.qos = s.qos ∧ t.radio = s.radio ∧ t.mesh = s.mesh ∧ t.pins = s.pins ∧ t.power = s.power ∧
    t.jtag = s.jtag ∧ t.pair = s.pair ∧ t.svc = s.svc ∧ t.snap = s.snap ∧ t.bist = s.bist ∧ t.trace = s.trace ∧
    t.ctr = s.ctr ∧ t.draws = s.draws ∧ t.pending = s.pending := by
  unfold State.putKey
  repeat' (first | split | simp)

@[simp] theorem State.securityEntry_frame (s : State) (type) (slot) (kind) (owner) (value) (flags) :
    let t := State.securityEntry s type slot kind owner value flags
    t.ms = s.ms ∧ t.cfg = s.cfg ∧ t.nv = s.nv ∧ t.procs = s.procs ∧ t.time = s.time ∧ t.ports = s.ports ∧
    t.fwd = s.fwd ∧ t.qos = s.qos ∧ t.radio = s.radio ∧ t.mesh = s.mesh ∧ t.pins = s.pins ∧ t.power = s.power ∧
    t.jtag = s.jtag ∧ t.pair = s.pair ∧ t.svc = s.svc ∧ t.snap = s.snap ∧ t.bist = s.bist ∧ t.trace = s.trace ∧
    t.ctr = s.ctr ∧ t.draws = s.draws ∧ t.pending = s.pending := by
  unfold State.securityEntry
  repeat' (first | split | simp)

@[simp] theorem State.tellLost_frame (lost) (s : State) (p) :
    let t := State.tellLost lost s p
    t.ms = s.ms ∧ t.cfg = s.cfg ∧ t.nv = s.nv ∧ t.procs = s.procs ∧ t.time = s.time ∧ t.ports = s.ports ∧
    t.fwd = s.fwd ∧ t.qos = s.qos ∧ t.radio = s.radio ∧ t.mesh = s.mesh ∧ t.pins = s.pins ∧ t.power = s.power ∧
    t.jtag = s.jtag ∧ t.pair = s.pair ∧ t.svc = s.svc ∧ t.snap = s.snap ∧ t.bist = s.bist ∧ t.trace = s.trace ∧
    t.ctr = s.ctr ∧ t.draws = s.draws ∧ t.pending = s.pending := by
  unfold State.tellLost
  repeat' (first | split | simp)

@[simp] theorem State.dropLost_frame (old) (s : State) (d) :
    let t := State.dropLost old s d
    t.ms = s.ms ∧ t.cfg = s.cfg ∧ t.nv = s.nv ∧ t.procs = s.procs ∧ t.time = s.time ∧ t.ports = s.ports ∧
    t.fwd = s.fwd ∧ t.qos = s.qos ∧ t.pins = s.pins ∧ t.power = s.power ∧ t.jtag = s.jtag ∧ t.svc = s.svc ∧
    t.snap = s.snap ∧ t.bist = s.bist ∧ t.trace = s.trace ∧ t.draws = s.draws ∧ t.pending = s.pending := by
  unfold State.dropLost
  repeat' (first | split | simp)

@[simp] theorem State.settleKeys_frame (old) (s : State) :
    let t := State.settleKeys old s
    t.ms = s.ms ∧ t.cfg = s.cfg ∧ t.nv = s.nv ∧ t.procs = s.procs ∧ t.time = s.time ∧ t.ports = s.ports ∧
    t.fwd = s.fwd ∧ t.qos = s.qos ∧ t.pins = s.pins ∧ t.power = s.power ∧ t.jtag = s.jtag ∧ t.svc = s.svc ∧
    t.snap = s.snap ∧ t.bist = s.bist ∧ t.trace = s.trace ∧ t.draws = s.draws ∧ t.pending = s.pending := by
  unfold State.settleKeys
  repeat' (first | split | simp)

@[simp] theorem State.markUnusable_frame (s : State) (n) :
    let t := State.markUnusable s n
    t.ms = s.ms ∧ t.cfg = s.cfg ∧ t.procs = s.procs ∧ t.time = s.time ∧ t.ports = s.ports ∧ t.fwd = s.fwd ∧
    t.qos = s.qos ∧ t.pins = s.pins ∧ t.power = s.power ∧ t.jtag = s.jtag ∧ t.svc = s.svc ∧ t.snap = s.snap ∧
    t.bist = s.bist ∧ t.trace = s.trace ∧ t.draws = s.draws ∧ t.pending = s.pending := by
  unfold State.markUnusable
  repeat' (first | split | simp)

@[simp] theorem State.useSlot_frame (s : State) (n) :
    let t := (State.useSlot s n).1
    t.ms = s.ms ∧ t.cfg = s.cfg ∧ t.procs = s.procs ∧ t.time = s.time ∧ t.ports = s.ports ∧ t.fwd = s.fwd ∧
    t.qos = s.qos ∧ t.pins = s.pins ∧ t.power = s.power ∧ t.jtag = s.jtag ∧ t.svc = s.svc ∧ t.snap = s.snap ∧
    t.bist = s.bist ∧ t.trace = s.trace ∧ t.draws = s.draws ∧ t.pending = s.pending := by
  unfold State.useSlot
  repeat' (first | split | simp)

@[simp] theorem State.touchCache_frame (s : State) (t_) (d) (eui) (epoch) :
    let t := State.touchCache s t_ d eui epoch
    t.ms = s.ms ∧ t.host = s.host ∧ t.cfg = s.cfg ∧ t.nv = s.nv ∧ t.procs = s.procs ∧ t.time = s.time ∧
    t.ports = s.ports ∧ t.fwd = s.fwd ∧ t.qos = s.qos ∧ t.radio = s.radio ∧ t.pins = s.pins ∧ t.power = s.power ∧
    t.jtag = s.jtag ∧ t.pair = s.pair ∧ t.svc = s.svc ∧ t.snap = s.snap ∧ t.bist = s.bist ∧ t.trace = s.trace ∧
    t.draws = s.draws ∧ t.pending = s.pending := by
  unfold State.touchCache
  repeat' (first | split | simp)

@[simp] theorem State.nodeKey_frame (s : State) (d) (eui) :
    let t := (State.nodeKey s d eui).1
    t.ms = s.ms ∧ t.cfg = s.cfg ∧ t.procs = s.procs ∧ t.time = s.time ∧ t.ports = s.ports ∧ t.fwd = s.fwd ∧
    t.qos = s.qos ∧ t.pins = s.pins ∧ t.power = s.power ∧ t.jtag = s.jtag ∧ t.svc = s.svc ∧ t.snap = s.snap ∧
    t.bist = s.bist ∧ t.trace = s.trace ∧ t.draws = s.draws ∧ t.pending = s.pending := by
  unfold State.nodeKey
  repeat' (first | split | simp)

@[simp] theorem State.bcastKey_frame (s : State) (d) :
    let t := (State.bcastKey s d).1
    t.ms = s.ms ∧ t.cfg = s.cfg ∧ t.procs = s.procs ∧ t.time = s.time ∧ t.ports = s.ports ∧ t.fwd = s.fwd ∧
    t.qos = s.qos ∧ t.pins = s.pins ∧ t.power = s.power ∧ t.jtag = s.jtag ∧ t.svc = s.svc ∧ t.snap = s.snap ∧
    t.bist = s.bist ∧ t.trace = s.trace ∧ t.draws = s.draws ∧ t.pending = s.pending := by
  unfold State.bcastKey
  repeat' (first | split | simp)

@[simp] theorem State.signingKey_frame (s : State) (slot) (tenant) :
    let t := (State.signingKey s slot tenant).1
    t.ms = s.ms ∧ t.cfg = s.cfg ∧ t.procs = s.procs ∧ t.time = s.time ∧ t.ports = s.ports ∧ t.fwd = s.fwd ∧
    t.qos = s.qos ∧ t.pins = s.pins ∧ t.power = s.power ∧ t.jtag = s.jtag ∧ t.svc = s.svc ∧ t.snap = s.snap ∧
    t.bist = s.bist ∧ t.trace = s.trace ∧ t.draws = s.draws ∧ t.pending = s.pending := by
  unfold State.signingKey
  repeat' (first | split | simp)

@[simp] theorem State.stageLease_frame (s : State) (l) :
    let t := State.stageLease s l
    t.ms = s.ms ∧ t.host = s.host ∧ t.cfg = s.cfg ∧ t.procs = s.procs ∧ t.time = s.time ∧ t.ports = s.ports ∧
    t.fwd = s.fwd ∧ t.qos = s.qos ∧ t.radio = s.radio ∧ t.mesh = s.mesh ∧ t.pins = s.pins ∧ t.power = s.power ∧
    t.jtag = s.jtag ∧ t.pair = s.pair ∧ t.svc = s.svc ∧ t.snap = s.snap ∧ t.bist = s.bist ∧ t.trace = s.trace ∧
    t.ctr = s.ctr ∧ t.draws = s.draws ∧ t.pending = s.pending := by
  unfold State.stageLease
  repeat' (first | split | simp)

@[simp] theorem State.advanceEpoch_frame (s : State) (d) (cause) :
    let t := State.advanceEpoch s d cause
    t.ms = s.ms ∧ t.cfg = s.cfg ∧ t.procs = s.procs ∧ t.time = s.time ∧ t.ports = s.ports ∧ t.fwd = s.fwd ∧
    t.qos = s.qos ∧ t.pins = s.pins ∧ t.power = s.power ∧ t.jtag = s.jtag ∧ t.svc = s.svc ∧ t.snap = s.snap ∧
    t.bist = s.bist ∧ t.trace = s.trace ∧ t.draws = s.draws ∧ t.pending = s.pending := by
  unfold State.advanceEpoch
  repeat' (first | split | simp)

@[simp] theorem State.wantLease_frame (s : State) (d) :
    let t := State.wantLease s d
    t.ms = s.ms ∧ t.host = s.host ∧ t.cfg = s.cfg ∧ t.procs = s.procs ∧ t.time = s.time ∧ t.ports = s.ports ∧
    t.fwd = s.fwd ∧ t.qos = s.qos ∧ t.radio = s.radio ∧ t.pins = s.pins ∧ t.power = s.power ∧ t.jtag = s.jtag ∧
    t.pair = s.pair ∧ t.svc = s.svc ∧ t.snap = s.snap ∧ t.bist = s.bist ∧ t.trace = s.trace ∧ t.ctr = s.ctr ∧
    t.draws = s.draws ∧ t.pending = s.pending := by
  unfold State.wantLease
  repeat' (first | split | simp)

@[simp] theorem State.takeCounter_frame (s : State) (d) :
    let t := (State.takeCounter s d).1
    t.ms = s.ms ∧ t.cfg = s.cfg ∧ t.procs = s.procs ∧ t.time = s.time ∧ t.ports = s.ports ∧ t.fwd = s.fwd ∧
    t.qos = s.qos ∧ t.pins = s.pins ∧ t.power = s.power ∧ t.jtag = s.jtag ∧ t.svc = s.svc ∧ t.snap = s.snap ∧
    t.bist = s.bist ∧ t.trace = s.trace ∧ t.draws = s.draws ∧ t.pending = s.pending := by
  unfold State.takeCounter
  repeat' (first | split | simp)

@[simp] theorem State.nextSeq_frame (s : State) (d) :
    let t := (State.nextSeq s d).1
    t.ms = s.ms ∧ t.host = s.host ∧ t.cfg = s.cfg ∧ t.nv = s.nv ∧ t.procs = s.procs ∧ t.time = s.time ∧
    t.ports = s.ports ∧ t.fwd = s.fwd ∧ t.qos = s.qos ∧ t.radio = s.radio ∧ t.pins = s.pins ∧ t.power = s.power ∧
    t.jtag = s.jtag ∧ t.pair = s.pair ∧ t.svc = s.svc ∧ t.snap = s.snap ∧ t.bist = s.bist ∧ t.trace = s.trace ∧
    t.ctr = s.ctr ∧ t.draws = s.draws ∧ t.pending = s.pending := by
  unfold State.nextSeq
  repeat' (first | split | simp)

@[simp] theorem State.newFrame_frame (s : State) :
    let t := (State.newFrame s).1
    t.ms = s.ms ∧ t.host = s.host ∧ t.cfg = s.cfg ∧ t.nv = s.nv ∧ t.procs = s.procs ∧ t.time = s.time ∧
    t.ports = s.ports ∧ t.fwd = s.fwd ∧ t.qos = s.qos ∧ t.radio = s.radio ∧ t.pins = s.pins ∧ t.power = s.power ∧
    t.jtag = s.jtag ∧ t.pair = s.pair ∧ t.svc = s.svc ∧ t.snap = s.snap ∧ t.bist = s.bist ∧ t.trace = s.trace ∧
    t.ctr = s.ctr ∧ t.draws = s.draws ∧ t.pending = s.pending := by
  unfold State.newFrame
  repeat' (first | split | simp)

@[simp] theorem State.newPacket_frame (s : State) :
    let t := (State.newPacket s).1
    t.ms = s.ms ∧ t.host = s.host ∧ t.cfg = s.cfg ∧ t.nv = s.nv ∧ t.procs = s.procs ∧ t.time = s.time ∧
    t.ports = s.ports ∧ t.fwd = s.fwd ∧ t.qos = s.qos ∧ t.radio = s.radio ∧ t.pins = s.pins ∧ t.power = s.power ∧
    t.jtag = s.jtag ∧ t.pair = s.pair ∧ t.svc = s.svc ∧ t.snap = s.snap ∧ t.bist = s.bist ∧ t.trace = s.trace ∧
    t.ctr = s.ctr ∧ t.draws = s.draws ∧ t.pending = s.pending := by
  unfold State.newPacket
  repeat' (first | split | simp)

@[simp] theorem State.secured_frame (s : State) (d) (c) (key) (counter) (ftype) (dst) (ar) (ies) (payload) :
    let t := (State.secured s d c key counter ftype dst ar ies payload).1
    t.ms = s.ms ∧ t.host = s.host ∧ t.cfg = s.cfg ∧ t.nv = s.nv ∧ t.procs = s.procs ∧ t.time = s.time ∧
    t.ports = s.ports ∧ t.fwd = s.fwd ∧ t.qos = s.qos ∧ t.radio = s.radio ∧ t.pins = s.pins ∧ t.power = s.power ∧
    t.jtag = s.jtag ∧ t.pair = s.pair ∧ t.svc = s.svc ∧ t.snap = s.snap ∧ t.bist = s.bist ∧ t.trace = s.trace ∧
    t.pending = s.pending := by
  unfold State.secured
  repeat' (first | split | simp)

@[simp] theorem State.buildFrame_frame (s : State) (d) (x2) :
    let t := (State.buildFrame s d x2).1
    t.ms = s.ms ∧ t.cfg = s.cfg ∧ t.procs = s.procs ∧ t.time = s.time ∧ t.ports = s.ports ∧ t.fwd = s.fwd ∧
    t.qos = s.qos ∧ t.pins = s.pins ∧ t.power = s.power ∧ t.jtag = s.jtag ∧ t.svc = s.svc ∧ t.snap = s.snap ∧
    t.bist = s.bist ∧ t.trace = s.trace ∧ t.pending = s.pending := by
  unfold State.buildFrame
  repeat' (first | split | simp)

@[simp] theorem State.queueFrame_frame (s : State) (d) (x2) :
    let t := State.queueFrame s d x2
    t.ms = s.ms ∧ t.cfg = s.cfg ∧ t.procs = s.procs ∧ t.time = s.time ∧ t.ports = s.ports ∧ t.fwd = s.fwd ∧
    t.qos = s.qos ∧ t.pins = s.pins ∧ t.power = s.power ∧ t.jtag = s.jtag ∧ t.svc = s.svc ∧ t.snap = s.snap ∧
    t.bist = s.bist ∧ t.trace = s.trace ∧ t.pending = s.pending := by
  unfold State.queueFrame
  repeat' (first | split | simp)

@[simp] theorem State.releaseHeld_frame (s : State) (d) (n2) :
    let t := State.releaseHeld s d n2
    t.ms = s.ms ∧ t.cfg = s.cfg ∧ t.procs = s.procs ∧ t.time = s.time ∧ t.ports = s.ports ∧ t.fwd = s.fwd ∧
    t.qos = s.qos ∧ t.pins = s.pins ∧ t.power = s.power ∧ t.jtag = s.jtag ∧ t.svc = s.svc ∧ t.snap = s.snap ∧
    t.bist = s.bist ∧ t.trace = s.trace ∧ t.pending = s.pending := by
  induction n2 generalizing s d with
  | zero => simp [State.releaseHeld]
  | succ n ih =>
    unfold State.releaseHeld
    repeat' (first | split | simp [ih])

@[simp] theorem State.leaseCommitted_frame (s : State) (d) (l) :
    let t := State.leaseCommitted s d l
    t.ms = s.ms ∧ t.cfg = s.cfg ∧ t.procs = s.procs ∧ t.time = s.time ∧ t.ports = s.ports ∧ t.fwd = s.fwd ∧
    t.qos = s.qos ∧ t.pins = s.pins ∧ t.power = s.power ∧ t.jtag = s.jtag ∧ t.svc = s.svc ∧ t.snap = s.snap ∧
    t.bist = s.bist ∧ t.trace = s.trace ∧ t.pending = s.pending := by
  unfold State.leaseCommitted
  repeat' (first | split | simp)

@[simp] theorem State.datagramSize_frame (s : State) (n) :
    let t := (State.datagramSize s n).1
    t.ms = s.ms ∧ t.host = s.host ∧ t.cfg = s.cfg ∧ t.nv = s.nv ∧ t.procs = s.procs ∧ t.time = s.time ∧
    t.ports = s.ports ∧ t.fwd = s.fwd ∧ t.qos = s.qos ∧ t.radio = s.radio ∧ t.mesh = s.mesh ∧ t.pins = s.pins ∧
    t.power = s.power ∧ t.jtag = s.jtag ∧ t.pair = s.pair ∧ t.svc = s.svc ∧ t.snap = s.snap ∧ t.bist = s.bist ∧
    t.trace = s.trace ∧ t.ctr = s.ctr ∧ t.pending = s.pending := by
  unfold State.datagramSize
  repeat' (first | split | simp)

@[simp] theorem State.cut_frame (s : State) (d) (limit) (c) :
    let t := (State.cut s d limit c).1
    t.ms = s.ms ∧ t.host = s.host ∧ t.cfg = s.cfg ∧ t.nv = s.nv ∧ t.procs = s.procs ∧ t.time = s.time ∧
    t.ports = s.ports ∧ t.fwd = s.fwd ∧ t.qos = s.qos ∧ t.radio = s.radio ∧ t.pins = s.pins ∧ t.power = s.power ∧
    t.jtag = s.jtag ∧ t.svc = s.svc ∧ t.snap = s.snap ∧ t.bist = s.bist ∧ t.trace = s.trace ∧ t.ctr = s.ctr ∧
    t.pending = s.pending := by
  unfold State.cut
  repeat' (first | split | simp)

@[simp] theorem State.planUnicast_frame (s : State) (d) (h) (c) (pkt) :
    let t := (State.planUnicast s d h c pkt).1
    t.ms = s.ms ∧ t.host = s.host ∧ t.cfg = s.cfg ∧ t.nv = s.nv ∧ t.procs = s.procs ∧ t.time = s.time ∧
    t.ports = s.ports ∧ t.fwd = s.fwd ∧ t.qos = s.qos ∧ t.radio = s.radio ∧ t.pins = s.pins ∧ t.power = s.power ∧
    t.jtag = s.jtag ∧ t.svc = s.svc ∧ t.snap = s.snap ∧ t.bist = s.bist ∧ t.trace = s.trace ∧ t.ctr = s.ctr ∧
    t.pending = s.pending := by
  unfold State.planUnicast
  repeat' (first | split | simp)

@[simp] theorem State.queuePacket_frame (s : State) (d) (hop) (cmd) (payloads) :
    let t := State.queuePacket s d hop cmd payloads
    t.ms = s.ms ∧ t.cfg = s.cfg ∧ t.procs = s.procs ∧ t.time = s.time ∧ t.ports = s.ports ∧ t.fwd = s.fwd ∧
    t.qos = s.qos ∧ t.pins = s.pins ∧ t.power = s.power ∧ t.jtag = s.jtag ∧ t.svc = s.svc ∧ t.snap = s.snap ∧
    t.bist = s.bist ∧ t.trace = s.trace ∧ t.pending = s.pending := by
  unfold State.queuePacket
  repeat' (first | split | simp)

@[simp] theorem State.sendUnicast_frame (s : State) (d) (h) (c) (pkt) :
    let t := State.sendUnicast s d h c pkt
    t.ms = s.ms ∧ t.cfg = s.cfg ∧ t.procs = s.procs ∧ t.time = s.time ∧ t.ports = s.ports ∧ t.fwd = s.fwd ∧
    t.qos = s.qos ∧ t.pins = s.pins ∧ t.power = s.power ∧ t.jtag = s.jtag ∧ t.svc = s.svc ∧ t.snap = s.snap ∧
    t.bist = s.bist ∧ t.trace = s.trace ∧ t.pending = s.pending := by
  unfold State.sendUnicast
  repeat' (first | split | simp)

@[simp] theorem State.sendMulticast_frame (s : State) (d) (c) (pkt) :
    let t := State.sendMulticast s d c pkt
    t.ms = s.ms ∧ t.cfg = s.cfg ∧ t.procs = s.procs ∧ t.time = s.time ∧ t.ports = s.ports ∧ t.fwd = s.fwd ∧
    t.qos = s.qos ∧ t.pins = s.pins ∧ t.power = s.power ∧ t.jtag = s.jtag ∧ t.svc = s.svc ∧ t.snap = s.snap ∧
    t.bist = s.bist ∧ t.trace = s.trace ∧ t.pending = s.pending := by
  unfold State.sendMulticast
  repeat' (first | split | simp)

@[simp] theorem State.borderDown_frame (s : State) (d) (b) :
    let t := State.borderDown s d b
    t.ms = s.ms ∧ t.cfg = s.cfg ∧ t.procs = s.procs ∧ t.time = s.time ∧ t.ports = s.ports ∧ t.fwd = s.fwd ∧
    t.qos = s.qos ∧ t.pins = s.pins ∧ t.power = s.power ∧ t.jtag = s.jtag ∧ t.svc = s.svc ∧ t.snap = s.snap ∧
    t.bist = s.bist ∧ t.trace = s.trace ∧ t.pending = s.pending := by
  unfold State.borderDown
  repeat' (first | split | simp)

@[simp] theorem State.modMaps_frame (s : State) (h) (f) :
    let t := State.modMaps s h f
    t.ms = s.ms ∧ t.host = s.host ∧ t.cfg = s.cfg ∧ t.nv = s.nv ∧ t.procs = s.procs ∧ t.time = s.time ∧
    t.ports = s.ports ∧ t.fwd = s.fwd ∧ t.qos = s.qos ∧ t.mesh = s.mesh ∧ t.pins = s.pins ∧ t.power = s.power ∧
    t.jtag = s.jtag ∧ t.pair = s.pair ∧ t.svc = s.svc ∧ t.snap = s.snap ∧ t.bist = s.bist ∧ t.trace = s.trace ∧
    t.ctr = s.ctr ∧ t.draws = s.draws ∧ t.pending = s.pending := by
  unfold State.modMaps
  repeat' (first | split | simp)

@[simp] theorem State.dropUpdate_frame (s : State) (h) (f) :
    let t := State.dropUpdate s h f
    t.ms = s.ms ∧ t.host = s.host ∧ t.cfg = s.cfg ∧ t.nv = s.nv ∧ t.procs = s.procs ∧ t.time = s.time ∧
    t.ports = s.ports ∧ t.fwd = s.fwd ∧ t.qos = s.qos ∧ t.mesh = s.mesh ∧ t.pins = s.pins ∧ t.power = s.power ∧
    t.jtag = s.jtag ∧ t.pair = s.pair ∧ t.svc = s.svc ∧ t.snap = s.snap ∧ t.bist = s.bist ∧ t.trace = s.trace ∧
    t.ctr = s.ctr ∧ t.draws = s.draws ∧ t.pending = s.pending := by
  unfold State.dropUpdate
  repeat' (first | split | simp)

@[simp] theorem State.delivered_frame (s : State) (h) (f) (acked) :
    let t := State.delivered s h f acked
    t.ms = s.ms ∧ t.cfg = s.cfg ∧ t.nv = s.nv ∧ t.procs = s.procs ∧ t.time = s.time ∧ t.ports = s.ports ∧
    t.fwd = s.fwd ∧ t.qos = s.qos ∧ t.pins = s.pins ∧ t.power = s.power ∧ t.jtag = s.jtag ∧ t.svc = s.svc ∧
    t.snap = s.snap ∧ t.bist = s.bist ∧ t.trace = s.trace ∧ t.ctr = s.ctr ∧ t.draws = s.draws ∧ t.pending = s.pending := by
  unfold State.delivered
  repeat' (first | split | simp)

@[simp] theorem State.exhausted_frame (s : State) (d) (h) (f) :
    let t := State.exhausted s d h f
    t.ms = s.ms ∧ t.cfg = s.cfg ∧ t.nv = s.nv ∧ t.procs = s.procs ∧ t.time = s.time ∧ t.ports = s.ports ∧
    t.fwd = s.fwd ∧ t.qos = s.qos ∧ t.pins = s.pins ∧ t.power = s.power ∧ t.jtag = s.jtag ∧ t.svc = s.svc ∧
    t.snap = s.snap ∧ t.bist = s.bist ∧ t.trace = s.trace ∧ t.draws = s.draws ∧ t.pending = s.pending := by
  unfold State.exhausted
  repeat' (first | split | simp)

@[simp] theorem State.attempted_frame (s : State) (h) (f) :
    let t := State.attempted s h f
    t.ms = s.ms ∧ t.host = s.host ∧ t.cfg = s.cfg ∧ t.nv = s.nv ∧ t.procs = s.procs ∧ t.time = s.time ∧
    t.ports = s.ports ∧ t.fwd = s.fwd ∧ t.qos = s.qos ∧ t.radio = s.radio ∧ t.pins = s.pins ∧ t.power = s.power ∧
    t.jtag = s.jtag ∧ t.pair = s.pair ∧ t.svc = s.svc ∧ t.snap = s.snap ∧ t.bist = s.bist ∧ t.trace = s.trace ∧
    t.ctr = s.ctr ∧ t.draws = s.draws ∧ t.pending = s.pending := by
  unfold State.attempted
  repeat' (first | split | simp)

@[simp] theorem State.endDist_frame (s : State) (d) (status) (sub) :
    let t := State.endDist s d status sub
    t.ms = s.ms ∧ t.cfg = s.cfg ∧ t.nv = s.nv ∧ t.procs = s.procs ∧ t.time = s.time ∧ t.ports = s.ports ∧
    t.fwd = s.fwd ∧ t.qos = s.qos ∧ t.radio = s.radio ∧ t.pins = s.pins ∧ t.power = s.power ∧ t.jtag = s.jtag ∧
    t.svc = s.svc ∧ t.snap = s.snap ∧ t.bist = s.bist ∧ t.trace = s.trace ∧ t.ctr = s.ctr ∧ t.draws = s.draws ∧
    t.pending = s.pending := by
  unfold State.endDist
  repeat' (first | split | simp)

@[simp] theorem State.newRecv_frame (s : State) (f) (c) (copy) :
    let t := State.newRecv s f c copy
    t.ms = s.ms ∧ t.host = s.host ∧ t.cfg = s.cfg ∧ t.nv = s.nv ∧ t.procs = s.procs ∧ t.time = s.time ∧
    t.ports = s.ports ∧ t.fwd = s.fwd ∧ t.qos = s.qos ∧ t.mesh = s.mesh ∧ t.pins = s.pins ∧ t.power = s.power ∧
    t.jtag = s.jtag ∧ t.pair = s.pair ∧ t.svc = s.svc ∧ t.snap = s.snap ∧ t.bist = s.bist ∧ t.trace = s.trace ∧
    t.ctr = s.ctr ∧ t.draws = s.draws ∧ t.pending = s.pending := by
  unfold State.newRecv
  repeat' (first | split | simp)

@[simp] theorem State.number_frame (s : State) (f) (c') (old) (l4) (l5) :
    let t := State.number s f c' old l4 l5
    t.ms = s.ms ∧ t.host = s.host ∧ t.cfg = s.cfg ∧ t.nv = s.nv ∧ t.procs = s.procs ∧ t.time = s.time ∧
    t.ports = s.ports ∧ t.fwd = s.fwd ∧ t.qos = s.qos ∧ t.mesh = s.mesh ∧ t.pins = s.pins ∧ t.power = s.power ∧
    t.jtag = s.jtag ∧ t.pair = s.pair ∧ t.svc = s.svc ∧ t.snap = s.snap ∧ t.bist = s.bist ∧ t.trace = s.trace ∧
    t.ctr = s.ctr ∧ t.draws = s.draws ∧ t.pending = s.pending := by
  induction l4 generalizing s f c' old l5 with
  | nil => simp [State.number]
  | cons c l ih =>
    unfold State.number
    repeat' (first | split | simp [ih])

@[simp] theorem State.placeCopy_frame (s : State) (f) (c) (copy) :
    let t := State.placeCopy s f c copy
    t.ms = s.ms ∧ t.host = s.host ∧ t.cfg = s.cfg ∧ t.nv = s.nv ∧ t.procs = s.procs ∧ t.time = s.time ∧
    t.ports = s.ports ∧ t.fwd = s.fwd ∧ t.qos = s.qos ∧ t.mesh = s.mesh ∧ t.pins = s.pins ∧ t.power = s.power ∧
    t.jtag = s.jtag ∧ t.pair = s.pair ∧ t.svc = s.svc ∧ t.snap = s.snap ∧ t.bist = s.bist ∧ t.trace = s.trace ∧
    t.ctr = s.ctr ∧ t.draws = s.draws ∧ t.pending = s.pending := by
  unfold State.placeCopy
  repeat' (first | split | simp)

@[simp] theorem State.frameDelay_frame (s : State) (site) (band) (antenna) (ns) :
    let t := State.frameDelay s site band antenna ns
    t.ms = s.ms ∧ t.host = s.host ∧ t.cfg = s.cfg ∧ t.nv = s.nv ∧ t.procs = s.procs ∧ t.time = s.time ∧
    t.ports = s.ports ∧ t.fwd = s.fwd ∧ t.qos = s.qos ∧ t.mesh = s.mesh ∧ t.pins = s.pins ∧ t.power = s.power ∧
    t.jtag = s.jtag ∧ t.pair = s.pair ∧ t.svc = s.svc ∧ t.snap = s.snap ∧ t.bist = s.bist ∧ t.trace = s.trace ∧
    t.draws = s.draws ∧ t.pending = s.pending := by
  unfold State.frameDelay
  repeat' (first | split | simp)

@[simp] theorem State.decideHeader_frame (s : State) (r) (w) :
    let t := State.decideHeader s r w
    t.ms = s.ms ∧ t.host = s.host ∧ t.cfg = s.cfg ∧ t.nv = s.nv ∧ t.procs = s.procs ∧ t.time = s.time ∧
    t.ports = s.ports ∧ t.fwd = s.fwd ∧ t.qos = s.qos ∧ t.mesh = s.mesh ∧ t.pins = s.pins ∧ t.power = s.power ∧
    t.jtag = s.jtag ∧ t.pair = s.pair ∧ t.svc = s.svc ∧ t.snap = s.snap ∧ t.bist = s.bist ∧ t.trace = s.trace ∧
    t.draws = s.draws ∧ t.pending = s.pending := by
  unfold State.decideHeader
  repeat' (first | split | simp)

@[simp] theorem State.endCell_frame (s : State) (d) (cell) (slot) :
    let t := State.endCell s d cell slot
    t.ms = s.ms ∧ t.host = s.host ∧ t.cfg = s.cfg ∧ t.nv = s.nv ∧ t.procs = s.procs ∧ t.time = s.time ∧
    t.ports = s.ports ∧ t.fwd = s.fwd ∧ t.qos = s.qos ∧ t.mesh = s.mesh ∧ t.pins = s.pins ∧ t.power = s.power ∧
    t.jtag = s.jtag ∧ t.pair = s.pair ∧ t.svc = s.svc ∧ t.snap = s.snap ∧ t.bist = s.bist ∧ t.trace = s.trace ∧
    t.ctr = s.ctr ∧ t.draws = s.draws ∧ t.pending = s.pending := by
  unfold State.endCell
  repeat' (first | split | simp)

@[simp] theorem State.chargeTick_frame (s : State) (r) :
    let t := State.chargeTick s r
    t.ms = s.ms ∧ t.cfg = s.cfg ∧ t.nv = s.nv ∧ t.procs = s.procs ∧ t.time = s.time ∧ t.ports = s.ports ∧
    t.fwd = s.fwd ∧ t.qos = s.qos ∧ t.mesh = s.mesh ∧ t.pins = s.pins ∧ t.power = s.power ∧ t.jtag = s.jtag ∧
    t.pair = s.pair ∧ t.svc = s.svc ∧ t.snap = s.snap ∧ t.bist = s.bist ∧ t.trace = s.trace ∧ t.draws = s.draws ∧
    t.pending = s.pending := by
  unfold State.chargeTick
  repeat' (first | split | simp)

@[simp] theorem State.applyLoading_frame (s : State) (d) (h) (down) (m) :
    let t := State.applyLoading s d h down m
    t.ms = s.ms ∧ t.cfg = s.cfg ∧ t.procs = s.procs ∧ t.time = s.time ∧ t.ports = s.ports ∧ t.fwd = s.fwd ∧
    t.qos = s.qos ∧ t.pins = s.pins ∧ t.power = s.power ∧ t.jtag = s.jtag ∧ t.svc = s.svc ∧ t.snap = s.snap ∧
    t.bist = s.bist ∧ t.trace = s.trace ∧ t.pending = s.pending := by
  unfold State.applyLoading
  repeat' (first | split | simp)

@[simp] theorem State.sendUpdate_frame (s : State) (d) (h) (down) (m) :
    let t := State.sendUpdate s d h down m
    t.ms = s.ms ∧ t.cfg = s.cfg ∧ t.procs = s.procs ∧ t.time = s.time ∧ t.ports = s.ports ∧ t.fwd = s.fwd ∧
    t.qos = s.qos ∧ t.pins = s.pins ∧ t.power = s.power ∧ t.jtag = s.jtag ∧ t.svc = s.svc ∧ t.snap = s.snap ∧
    t.bist = s.bist ∧ t.trace = s.trace ∧ t.pending = s.pending := by
  unfold State.sendUpdate
  repeat' (first | split | simp)

@[simp] theorem State.remap_frame (s : State) (d) (h) (down) (n) (sig) (noise) :
    let t := State.remap s d h down n sig noise
    t.ms = s.ms ∧ t.cfg = s.cfg ∧ t.procs = s.procs ∧ t.time = s.time ∧ t.ports = s.ports ∧ t.fwd = s.fwd ∧
    t.qos = s.qos ∧ t.pins = s.pins ∧ t.power = s.power ∧ t.jtag = s.jtag ∧ t.svc = s.svc ∧ t.snap = s.snap ∧
    t.bist = s.bist ∧ t.trace = s.trace ∧ t.pending = s.pending := by
  unfold State.remap
  repeat' (first | split | simp)

@[simp] theorem State.remapNode_frame (s : State) (h) :
    let t := State.remapNode s h
    t.ms = s.ms ∧ t.cfg = s.cfg ∧ t.procs = s.procs ∧ t.time = s.time ∧ t.ports = s.ports ∧ t.fwd = s.fwd ∧
    t.qos = s.qos ∧ t.pins = s.pins ∧ t.power = s.power ∧ t.jtag = s.jtag ∧ t.svc = s.svc ∧ t.snap = s.snap ∧
    t.bist = s.bist ∧ t.trace = s.trace ∧ t.pending = s.pending := by
  unfold State.remapNode
  repeat' (first | split | simp)

@[simp] theorem State.heardFrom_frame (s : State) (h) (freq) (band) (lofdm) (heard) (under) :
    let t := State.heardFrom s h freq band lofdm heard under
    t.ms = s.ms ∧ t.cfg = s.cfg ∧ t.procs = s.procs ∧ t.time = s.time ∧ t.ports = s.ports ∧ t.fwd = s.fwd ∧
    t.qos = s.qos ∧ t.pins = s.pins ∧ t.power = s.power ∧ t.jtag = s.jtag ∧ t.svc = s.svc ∧ t.snap = s.snap ∧
    t.bist = s.bist ∧ t.trace = s.trace ∧ t.pending = s.pending := by
  unfold State.heardFrom
  repeat' (first | split | simp)

@[simp] theorem State.frameDecoded_frame (s : State) (r) (domain) (site) :
    let t := State.frameDecoded s r domain site
    t.ms = s.ms ∧ t.cfg = s.cfg ∧ t.procs = s.procs ∧ t.time = s.time ∧ t.ports = s.ports ∧ t.fwd = s.fwd ∧
    t.qos = s.qos ∧ t.pins = s.pins ∧ t.power = s.power ∧ t.jtag = s.jtag ∧ t.svc = s.svc ∧ t.snap = s.snap ∧
    t.bist = s.bist ∧ t.trace = s.trace ∧ t.pending = s.pending := by
  unfold State.frameDecoded
  repeat' (first | split | simp)

@[simp] theorem radioLoadingConfigSpec_frame (r : Req) (s : State) :
    let t := (radioLoadingConfigSpec.effect r s).1
    t.ms = s.ms ∧ t.host = s.host ∧ t.cfg = s.cfg ∧ t.nv = s.nv ∧ t.procs = s.procs ∧ t.time = s.time ∧
    t.ports = s.ports ∧ t.fwd = s.fwd ∧ t.qos = s.qos ∧ t.mesh = s.mesh ∧ t.pins = s.pins ∧ t.power = s.power ∧
    t.jtag = s.jtag ∧ t.pair = s.pair ∧ t.svc = s.svc ∧ t.snap = s.snap ∧ t.bist = s.bist ∧ t.trace = s.trace ∧
    t.ctr = s.ctr ∧ t.draws = s.draws ∧ t.pending = s.pending := by
  unfold radioLoadingConfigSpec
  repeat' (first | split | simp)

@[simp] theorem radioMapReadSpec_frame (r : Req) (s : State) :
    let t := (radioMapReadSpec.effect r s).1
    t.ms = s.ms ∧ t.host = s.host ∧ t.cfg = s.cfg ∧ t.nv = s.nv ∧ t.procs = s.procs ∧ t.time = s.time ∧
    t.ports = s.ports ∧ t.fwd = s.fwd ∧ t.qos = s.qos ∧ t.radio = s.radio ∧ t.mesh = s.mesh ∧ t.pins = s.pins ∧
    t.power = s.power ∧ t.jtag = s.jtag ∧ t.pair = s.pair ∧ t.svc = s.svc ∧ t.snap = s.snap ∧ t.bist = s.bist ∧
    t.trace = s.trace ∧ t.ctr = s.ctr ∧ t.pending = s.pending := by
  unfold radioMapReadSpec
  repeat' (first | split | simp)

@[simp] theorem State.act_frame (s : State) (i) (x2) :
    let t := (State.act s i x2).1
    t.ms = s.ms ∧ t.cfg = s.cfg ∧ t.nv = s.nv ∧ t.procs = s.procs ∧ t.time = s.time ∧ t.ports = s.ports ∧
    t.fwd = s.fwd ∧ t.mesh = s.mesh ∧ t.pins = s.pins ∧ t.power = s.power ∧ t.jtag = s.jtag ∧ t.pair = s.pair ∧
    t.svc = s.svc ∧ t.snap = s.snap ∧ t.bist = s.bist ∧ t.trace = s.trace ∧ t.draws = s.draws ∧ t.pending = s.pending := by
  unfold State.act
  repeat' (first | split | simp)

@[simp] theorem State.beacon_frame (s : State) (d) (c) (i) (slot) :
    let t := (State.beacon s d c i slot).1
    t.ms = s.ms ∧ t.host = s.host ∧ t.cfg = s.cfg ∧ t.nv = s.nv ∧ t.procs = s.procs ∧ t.time = s.time ∧
    t.ports = s.ports ∧ t.fwd = s.fwd ∧ t.qos = s.qos ∧ t.radio = s.radio ∧ t.pins = s.pins ∧ t.power = s.power ∧
    t.jtag = s.jtag ∧ t.pair = s.pair ∧ t.svc = s.svc ∧ t.snap = s.snap ∧ t.bist = s.bist ∧ t.trace = s.trace ∧
    t.ctr = s.ctr ∧ t.pending = s.pending := by
  unfold State.beacon
  repeat' (first | split | simp)

@[simp] theorem State.nextBlock_frame (s : State) (d) :
    let t := State.nextBlock s d
    t.ms = s.ms ∧ t.cfg = s.cfg ∧ t.nv = s.nv ∧ t.procs = s.procs ∧ t.time = s.time ∧ t.ports = s.ports ∧
    t.fwd = s.fwd ∧ t.qos = s.qos ∧ t.radio = s.radio ∧ t.pins = s.pins ∧ t.power = s.power ∧ t.jtag = s.jtag ∧
    t.svc = s.svc ∧ t.snap = s.snap ∧ t.bist = s.bist ∧ t.trace = s.trace ∧ t.ctr = s.ctr ∧ t.draws = s.draws ∧
    t.pending = s.pending := by
  unfold State.nextBlock
  repeat' (first | split | simp)

@[simp] theorem State.afterSend_frame (s : State) (d) (slotNs) (fin) (i) (cell) (c) (e) (x8) :
    let t := State.afterSend s d slotNs fin i cell c e x8
    t.ms = s.ms ∧ t.cfg = s.cfg ∧ t.nv = s.nv ∧ t.procs = s.procs ∧ t.time = s.time ∧ t.ports = s.ports ∧
    t.fwd = s.fwd ∧ t.qos = s.qos ∧ t.pins = s.pins ∧ t.power = s.power ∧ t.jtag = s.jtag ∧ t.svc = s.svc ∧
    t.snap = s.snap ∧ t.bist = s.bist ∧ t.trace = s.trace ∧ t.ctr = s.ctr ∧ t.draws = s.draws ∧ t.pending = s.pending := by
  unfold State.afterSend
  repeat' (first | split | simp)

@[simp] theorem State.tooLong_frame (s : State) (d) (x2) :
    let t := State.tooLong s d x2
    t.ms = s.ms ∧ t.cfg = s.cfg ∧ t.nv = s.nv ∧ t.procs = s.procs ∧ t.time = s.time ∧ t.ports = s.ports ∧
    t.fwd = s.fwd ∧ t.qos = s.qos ∧ t.pins = s.pins ∧ t.power = s.power ∧ t.jtag = s.jtag ∧ t.svc = s.svc ∧
    t.snap = s.snap ∧ t.bist = s.bist ∧ t.trace = s.trace ∧ t.draws = s.draws ∧ t.pending = s.pending := by
  unfold State.tooLong
  repeat' (first | split | simp)

@[simp] theorem State.unfit_frame (s : State) (d) (i) (c) (h) (len) (l) (what) :
    let t := State.unfit s d i c h len l what
    t.ms = s.ms ∧ t.cfg = s.cfg ∧ t.nv = s.nv ∧ t.procs = s.procs ∧ t.time = s.time ∧ t.ports = s.ports ∧
    t.fwd = s.fwd ∧ t.qos = s.qos ∧ t.pins = s.pins ∧ t.power = s.power ∧ t.jtag = s.jtag ∧ t.svc = s.svc ∧
    t.snap = s.snap ∧ t.bist = s.bist ∧ t.trace = s.trace ∧ t.draws = s.draws ∧ t.pending = s.pending := by
  unfold State.unfit
  repeat' (first | split | simp)

@[simp] theorem State.sendIn_ms (s : State) (d : Nat) (i : Image) (slot cell : Nat) (c : Cell) (e : Chan) (t : Nat) (what : Sent) (l : Load)
    (len : Nat) (mk : State → State × Option Bytes) (h : ∀ s, (mk s).1.ms = s.ms) :
    (s.sendIn d i slot cell c e t what l len mk).ms = s.ms := by
  unfold State.sendIn
  repeat' (first | split | simp [h])

@[simp] theorem State.sendIn_cfg (s : State) (d : Nat) (i : Image) (slot cell : Nat) (c : Cell) (e : Chan) (t : Nat) (what : Sent) (l : Load)
    (len : Nat) (mk : State → State × Option Bytes) (h : ∀ s, (mk s).1.cfg = s.cfg) :
    (s.sendIn d i slot cell c e t what l len mk).cfg = s.cfg := by
  unfold State.sendIn
  repeat' (first | split | simp [h])

@[simp] theorem State.sendIn_procs (s : State) (d : Nat) (i : Image) (slot cell : Nat) (c : Cell) (e : Chan) (t : Nat) (what : Sent) (l : Load)
    (len : Nat) (mk : State → State × Option Bytes) (h : ∀ s, (mk s).1.procs = s.procs) :
    (s.sendIn d i slot cell c e t what l len mk).procs = s.procs := by
  unfold State.sendIn
  repeat' (first | split | simp [h])

@[simp] theorem State.sendIn_time (s : State) (d : Nat) (i : Image) (slot cell : Nat) (c : Cell) (e : Chan) (t : Nat) (what : Sent) (l : Load)
    (len : Nat) (mk : State → State × Option Bytes) (h : ∀ s, (mk s).1.time = s.time) :
    (s.sendIn d i slot cell c e t what l len mk).time = s.time := by
  unfold State.sendIn
  repeat' (first | split | simp [h])

@[simp] theorem State.sendIn_ports (s : State) (d : Nat) (i : Image) (slot cell : Nat) (c : Cell) (e : Chan) (t : Nat) (what : Sent) (l : Load)
    (len : Nat) (mk : State → State × Option Bytes) (h : ∀ s, (mk s).1.ports = s.ports) :
    (s.sendIn d i slot cell c e t what l len mk).ports = s.ports := by
  unfold State.sendIn
  repeat' (first | split | simp [h])

@[simp] theorem State.sendIn_fwd (s : State) (d : Nat) (i : Image) (slot cell : Nat) (c : Cell) (e : Chan) (t : Nat) (what : Sent) (l : Load)
    (len : Nat) (mk : State → State × Option Bytes) (h : ∀ s, (mk s).1.fwd = s.fwd) :
    (s.sendIn d i slot cell c e t what l len mk).fwd = s.fwd := by
  unfold State.sendIn
  repeat' (first | split | simp [h])

@[simp] theorem State.sendIn_pins (s : State) (d : Nat) (i : Image) (slot cell : Nat) (c : Cell) (e : Chan) (t : Nat) (what : Sent) (l : Load)
    (len : Nat) (mk : State → State × Option Bytes) (h : ∀ s, (mk s).1.pins = s.pins) :
    (s.sendIn d i slot cell c e t what l len mk).pins = s.pins := by
  unfold State.sendIn
  repeat' (first | split | simp [h])

@[simp] theorem State.sendIn_power (s : State) (d : Nat) (i : Image) (slot cell : Nat) (c : Cell) (e : Chan) (t : Nat) (what : Sent) (l : Load)
    (len : Nat) (mk : State → State × Option Bytes) (h : ∀ s, (mk s).1.power = s.power) :
    (s.sendIn d i slot cell c e t what l len mk).power = s.power := by
  unfold State.sendIn
  repeat' (first | split | simp [h])

@[simp] theorem State.sendIn_jtag (s : State) (d : Nat) (i : Image) (slot cell : Nat) (c : Cell) (e : Chan) (t : Nat) (what : Sent) (l : Load)
    (len : Nat) (mk : State → State × Option Bytes) (h : ∀ s, (mk s).1.jtag = s.jtag) :
    (s.sendIn d i slot cell c e t what l len mk).jtag = s.jtag := by
  unfold State.sendIn
  repeat' (first | split | simp [h])

@[simp] theorem State.sendIn_svc (s : State) (d : Nat) (i : Image) (slot cell : Nat) (c : Cell) (e : Chan) (t : Nat) (what : Sent) (l : Load)
    (len : Nat) (mk : State → State × Option Bytes) (h : ∀ s, (mk s).1.svc = s.svc) :
    (s.sendIn d i slot cell c e t what l len mk).svc = s.svc := by
  unfold State.sendIn
  repeat' (first | split | simp [h])

@[simp] theorem State.sendIn_snap (s : State) (d : Nat) (i : Image) (slot cell : Nat) (c : Cell) (e : Chan) (t : Nat) (what : Sent) (l : Load)
    (len : Nat) (mk : State → State × Option Bytes) (h : ∀ s, (mk s).1.snap = s.snap) :
    (s.sendIn d i slot cell c e t what l len mk).snap = s.snap := by
  unfold State.sendIn
  repeat' (first | split | simp [h])

@[simp] theorem State.sendIn_bist (s : State) (d : Nat) (i : Image) (slot cell : Nat) (c : Cell) (e : Chan) (t : Nat) (what : Sent) (l : Load)
    (len : Nat) (mk : State → State × Option Bytes) (h : ∀ s, (mk s).1.bist = s.bist) :
    (s.sendIn d i slot cell c e t what l len mk).bist = s.bist := by
  unfold State.sendIn
  repeat' (first | split | simp [h])

@[simp] theorem State.sendIn_trace (s : State) (d : Nat) (i : Image) (slot cell : Nat) (c : Cell) (e : Chan) (t : Nat) (what : Sent) (l : Load)
    (len : Nat) (mk : State → State × Option Bytes) (h : ∀ s, (mk s).1.trace = s.trace) :
    (s.sendIn d i slot cell c e t what l len mk).trace = s.trace := by
  unfold State.sendIn
  repeat' (first | split | simp [h])

@[simp] theorem State.sendIn_pending (s : State) (d : Nat) (i : Image) (slot cell : Nat) (c : Cell) (e : Chan) (t : Nat) (what : Sent) (l : Load)
    (len : Nat) (mk : State → State × Option Bytes) (h : ∀ s, (mk s).1.pending = s.pending) :
    (s.sendIn d i slot cell c e t what l len mk).pending = s.pending := by
  unfold State.sendIn
  repeat' (first | split | simp [h])

@[simp] theorem State.train_frame (s : State) (pan) (dst) (e) (air) (left) (n6) :
    let t := (State.train s pan dst e air left n6).1
    t.ms = s.ms ∧ t.host = s.host ∧ t.cfg = s.cfg ∧ t.nv = s.nv ∧ t.procs = s.procs ∧ t.time = s.time ∧
    t.ports = s.ports ∧ t.fwd = s.fwd ∧ t.qos = s.qos ∧ t.radio = s.radio ∧ t.mesh = s.mesh ∧ t.pins = s.pins ∧
    t.power = s.power ∧ t.jtag = s.jtag ∧ t.svc = s.svc ∧ t.snap = s.snap ∧ t.bist = s.bist ∧ t.trace = s.trace ∧
    t.ctr = s.ctr ∧ t.draws = s.draws ∧ t.pending = s.pending := by
  induction n6 generalizing s pan dst e air left with
  | zero => simp [State.train]
  | succ n ih =>
    unfold State.train
    repeat' (first | split | simp [ih])

@[simp] theorem State.cslSend_frame (s : State) (d) (pan) (i) (slot) (cell) (c) (h) (e) (f) (n10) (u) (air) :
    let t := State.cslSend s d pan i slot cell c h e f n10 u air
    t.ms = s.ms ∧ t.cfg = s.cfg ∧ t.nv = s.nv ∧ t.procs = s.procs ∧ t.time = s.time ∧ t.ports = s.ports ∧
    t.fwd = s.fwd ∧ t.pins = s.pins ∧ t.power = s.power ∧ t.jtag = s.jtag ∧ t.svc = s.svc ∧ t.snap = s.snap ∧
    t.bist = s.bist ∧ t.trace = s.trace ∧ t.draws = s.draws ∧ t.pending = s.pending := by
  unfold State.cslSend
  repeat' (first | split | simp)

@[simp] theorem State.cslNode_frame (s : State) (d) (pan) (i) (slot) (cell) (c) (lo) (h) :
    let t := State.cslNode s d pan i slot cell c lo h
    t.ms = s.ms ∧ t.cfg = s.cfg ∧ t.nv = s.nv ∧ t.procs = s.procs ∧ t.time = s.time ∧ t.ports = s.ports ∧
    t.fwd = s.fwd ∧ t.pins = s.pins ∧ t.power = s.power ∧ t.jtag = s.jtag ∧ t.svc = s.svc ∧ t.snap = s.snap ∧
    t.bist = s.bist ∧ t.trace = s.trace ∧ t.draws = s.draws ∧ t.pending = s.pending := by
  unfold State.cslNode
  repeat' (first | split | simp)

@[simp] theorem State.cslCell_frame (s : State) (d) (pan) (i) (slot) (cell) (c) (lo) (l) :
    let t := State.cslCell s d pan i slot cell c lo l
    t.ms = s.ms ∧ t.cfg = s.cfg ∧ t.nv = s.nv ∧ t.procs = s.procs ∧ t.time = s.time ∧ t.ports = s.ports ∧
    t.fwd = s.fwd ∧ t.pins = s.pins ∧ t.power = s.power ∧ t.jtag = s.jtag ∧ t.svc = s.svc ∧ t.snap = s.snap ∧
    t.bist = s.bist ∧ t.trace = s.trace ∧ t.draws = s.draws ∧ t.pending = s.pending := by
  unfold State.cslCell
  repeat' (first | split | simp)

@[simp] theorem State.blockFrame_frame (d) (m) (ie) (s : State) :
    let t := (State.blockFrame d m ie s).1
    t.ms = s.ms ∧ t.cfg = s.cfg ∧ t.procs = s.procs ∧ t.time = s.time ∧ t.ports = s.ports ∧ t.fwd = s.fwd ∧
    t.qos = s.qos ∧ t.pins = s.pins ∧ t.power = s.power ∧ t.jtag = s.jtag ∧ t.svc = s.svc ∧ t.snap = s.snap ∧
    t.bist = s.bist ∧ t.trace = s.trace ∧ t.pending = s.pending := by
  unfold State.blockFrame
  repeat' (first | split | simp)

@[simp] theorem State.beaconFrame_frame (d) (m) (i) (slot) (s : State) :
    let t := (State.beaconFrame d m i slot s).1
    t.ms = s.ms ∧ t.host = s.host ∧ t.cfg = s.cfg ∧ t.nv = s.nv ∧ t.procs = s.procs ∧ t.time = s.time ∧
    t.ports = s.ports ∧ t.fwd = s.fwd ∧ t.qos = s.qos ∧ t.radio = s.radio ∧ t.pins = s.pins ∧ t.power = s.power ∧
    t.jtag = s.jtag ∧ t.pair = s.pair ∧ t.svc = s.svc ∧ t.snap = s.snap ∧ t.bist = s.bist ∧ t.trace = s.trace ∧
    t.ctr = s.ctr ∧ t.pending = s.pending := by
  unfold State.beaconFrame
  repeat' (first | split | simp)

@[simp] theorem State.issue_frame (s : State) (d) (m) (i) (slot) (cell) (c) (t_) :
    let t := State.issue s d m i slot cell c t_
    t.ms = s.ms ∧ t.cfg = s.cfg ∧ t.procs = s.procs ∧ t.time = s.time ∧ t.ports = s.ports ∧ t.fwd = s.fwd ∧
    t.pins = s.pins ∧ t.power = s.power ∧ t.jtag = s.jtag ∧ t.svc = s.svc ∧ t.snap = s.snap ∧ t.bist = s.bist ∧
    t.trace = s.trace ∧ t.pending = s.pending := by
  unfold State.issue
  repeat' (first | split | simp)

@[simp] theorem State.ackClash_frame (s : State) (d) (site) (band) (slot) :
    let t := State.ackClash s d site band slot
    t.ms = s.ms ∧ t.cfg = s.cfg ∧ t.nv = s.nv ∧ t.procs = s.procs ∧ t.time = s.time ∧ t.ports = s.ports ∧
    t.fwd = s.fwd ∧ t.qos = s.qos ∧ t.radio = s.radio ∧ t.mesh = s.mesh ∧ t.pins = s.pins ∧ t.power = s.power ∧
    t.jtag = s.jtag ∧ t.pair = s.pair ∧ t.svc = s.svc ∧ t.snap = s.snap ∧ t.bist = s.bist ∧ t.trace = s.trace ∧
    t.draws = s.draws ∧ t.pending = s.pending := by
  unfold State.ackClash
  repeat' (first | split | simp)

@[simp] theorem State.planAck_frame (s : State) (d) (i) (cell) (c) (h) (x6) (seq) :
    let t := State.planAck s d i cell c h x6 seq
    t.ms = s.ms ∧ t.cfg = s.cfg ∧ t.nv = s.nv ∧ t.procs = s.procs ∧ t.time = s.time ∧ t.ports = s.ports ∧
    t.fwd = s.fwd ∧ t.qos = s.qos ∧ t.mesh = s.mesh ∧ t.pins = s.pins ∧ t.power = s.power ∧ t.jtag = s.jtag ∧
    t.pair = s.pair ∧ t.svc = s.svc ∧ t.snap = s.snap ∧ t.bist = s.bist ∧ t.trace = s.trace ∧ t.draws = s.draws ∧
    t.pending = s.pending := by
  unfold State.planAck
  repeat' (first | split | simp)

@[simp] theorem State.buildAck_frame (s : State) (d) (m) (p) :
    let t := (State.buildAck s d m p).1
    t.ms = s.ms ∧ t.cfg = s.cfg ∧ t.procs = s.procs ∧ t.time = s.time ∧ t.ports = s.ports ∧ t.fwd = s.fwd ∧
    t.qos = s.qos ∧ t.pins = s.pins ∧ t.power = s.power ∧ t.jtag = s.jtag ∧ t.svc = s.svc ∧ t.snap = s.snap ∧
    t.bist = s.bist ∧ t.trace = s.trace ∧ t.pending = s.pending := by
  unfold State.buildAck
  repeat' (first | split | simp)

@[simp] theorem State.loadImage_frame (s : State) (d) (len) (dmaOk) (b) :
    let t := (State.loadImage s d len dmaOk b).1
    t.ms = s.ms ∧ t.cfg = s.cfg ∧ t.procs = s.procs ∧ t.time = s.time ∧ t.ports = s.ports ∧ t.fwd = s.fwd ∧
    t.qos = s.qos ∧ t.pins = s.pins ∧ t.power = s.power ∧ t.jtag = s.jtag ∧ t.svc = s.svc ∧ t.snap = s.snap ∧
    t.bist = s.bist ∧ t.trace = s.trace ∧ t.pending = s.pending := by
  unfold State.loadImage
  repeat' (first | split | simp)

@[simp] theorem State.takeDecoded_frame (s : State) (x1) :
    let t := State.takeDecoded s x1
    t.ms = s.ms ∧ t.host = s.host ∧ t.cfg = s.cfg ∧ t.nv = s.nv ∧ t.procs = s.procs ∧ t.time = s.time ∧
    t.ports = s.ports ∧ t.fwd = s.fwd ∧ t.qos = s.qos ∧ t.mesh = s.mesh ∧ t.pins = s.pins ∧ t.power = s.power ∧
    t.jtag = s.jtag ∧ t.pair = s.pair ∧ t.svc = s.svc ∧ t.snap = s.snap ∧ t.bist = s.bist ∧ t.trace = s.trace ∧
    t.ctr = s.ctr ∧ t.draws = s.draws ∧ t.pending = s.pending := by
  unfold State.takeDecoded
  repeat' (first | split | simp)

@[simp] theorem State.authFailure_frame (s : State) (d) (h) :
    let t := State.authFailure s d h
    t.ms = s.ms ∧ t.cfg = s.cfg ∧ t.nv = s.nv ∧ t.procs = s.procs ∧ t.time = s.time ∧ t.ports = s.ports ∧
    t.fwd = s.fwd ∧ t.qos = s.qos ∧ t.radio = s.radio ∧ t.pins = s.pins ∧ t.power = s.power ∧ t.jtag = s.jtag ∧
    t.pair = s.pair ∧ t.svc = s.svc ∧ t.snap = s.snap ∧ t.bist = s.bist ∧ t.trace = s.trace ∧ t.draws = s.draws ∧
    t.pending = s.pending := by
  unfold State.authFailure
  repeat' (first | split | simp)

@[simp] theorem State.linkHeard_frame (s : State) (h) (x2) (minute) :
    let t := State.linkHeard s h x2 minute
    t.ms = s.ms ∧ t.host = s.host ∧ t.cfg = s.cfg ∧ t.nv = s.nv ∧ t.procs = s.procs ∧ t.time = s.time ∧
    t.ports = s.ports ∧ t.fwd = s.fwd ∧ t.qos = s.qos ∧ t.radio = s.radio ∧ t.pins = s.pins ∧ t.power = s.power ∧
    t.jtag = s.jtag ∧ t.pair = s.pair ∧ t.svc = s.svc ∧ t.snap = s.snap ∧ t.bist = s.bist ∧ t.trace = s.trace ∧
    t.ctr = s.ctr ∧ t.pending = s.pending := by
  unfold State.linkHeard
  repeat' (first | split | simp)

@[simp] theorem State.accepted_frame (s : State) (d) (h) (x3) (f) :
    let t := State.accepted s d h x3 f
    t.ms = s.ms ∧ t.host = s.host ∧ t.cfg = s.cfg ∧ t.nv = s.nv ∧ t.procs = s.procs ∧ t.time = s.time ∧
    t.ports = s.ports ∧ t.fwd = s.fwd ∧ t.qos = s.qos ∧ t.radio = s.radio ∧ t.pins = s.pins ∧ t.power = s.power ∧
    t.jtag = s.jtag ∧ t.pair = s.pair ∧ t.svc = s.svc ∧ t.snap = s.snap ∧ t.bist = s.bist ∧ t.trace = s.trace ∧
    t.ctr = s.ctr ∧ t.pending = s.pending := by
  unfold State.accepted
  repeat' (first | split | simp)

@[simp] theorem State.authenticate_frame (s : State) (d) (x2) (f) :
    let t := (State.authenticate s d x2 f).1
    t.ms = s.ms ∧ t.cfg = s.cfg ∧ t.procs = s.procs ∧ t.time = s.time ∧ t.ports = s.ports ∧ t.fwd = s.fwd ∧
    t.qos = s.qos ∧ t.pins = s.pins ∧ t.power = s.power ∧ t.jtag = s.jtag ∧ t.svc = s.svc ∧ t.snap = s.snap ∧
    t.bist = s.bist ∧ t.trace = s.trace ∧ t.pending = s.pending := by
  unfold State.authenticate
  repeat' (first | split | simp)

@[simp] theorem State.linkEntry_frame (s : State) (d) (h) (y) (b) (seq) (k) :
    let t := State.linkEntry s d h y b seq k
    t.ms = s.ms ∧ t.cfg = s.cfg ∧ t.nv = s.nv ∧ t.procs = s.procs ∧ t.time = s.time ∧ t.ports = s.ports ∧
    t.fwd = s.fwd ∧ t.qos = s.qos ∧ t.radio = s.radio ∧ t.mesh = s.mesh ∧ t.pins = s.pins ∧ t.power = s.power ∧
    t.jtag = s.jtag ∧ t.pair = s.pair ∧ t.svc = s.svc ∧ t.snap = s.snap ∧ t.bist = s.bist ∧ t.trace = s.trace ∧
    t.draws = s.draws ∧ t.pending = s.pending := by
  unfold State.linkEntry
  repeat' (first | split | simp)

@[simp] theorem State.linkReport_frame (s : State) (d) (h) (b) :
    let t := State.linkReport s d h b
    t.ms = s.ms ∧ t.cfg = s.cfg ∧ t.nv = s.nv ∧ t.procs = s.procs ∧ t.time = s.time ∧ t.ports = s.ports ∧
    t.fwd = s.fwd ∧ t.qos = s.qos ∧ t.radio = s.radio ∧ t.pins = s.pins ∧ t.power = s.power ∧ t.jtag = s.jtag ∧
    t.pair = s.pair ∧ t.svc = s.svc ∧ t.snap = s.snap ∧ t.bist = s.bist ∧ t.trace = s.trace ∧ t.draws = s.draws ∧
    t.pending = s.pending := by
  unfold State.linkReport
  repeat' (first | split | simp)

@[simp] theorem State.distReport_frame (s : State) (d) (h) (b) :
    let t := State.distReport s d h b
    t.ms = s.ms ∧ t.cfg = s.cfg ∧ t.nv = s.nv ∧ t.procs = s.procs ∧ t.time = s.time ∧ t.ports = s.ports ∧
    t.fwd = s.fwd ∧ t.qos = s.qos ∧ t.radio = s.radio ∧ t.pins = s.pins ∧ t.power = s.power ∧ t.jtag = s.jtag ∧
    t.svc = s.svc ∧ t.snap = s.snap ∧ t.bist = s.bist ∧ t.trace = s.trace ∧ t.draws = s.draws ∧ t.pending = s.pending := by
  unfold State.distReport
  repeat' (first | split | simp)

@[simp] theorem State.applyReports_frame (s : State) (d) (h) (link) (dist) :
    let t := State.applyReports s d h link dist
    t.ms = s.ms ∧ t.cfg = s.cfg ∧ t.nv = s.nv ∧ t.procs = s.procs ∧ t.time = s.time ∧ t.ports = s.ports ∧
    t.fwd = s.fwd ∧ t.qos = s.qos ∧ t.radio = s.radio ∧ t.pins = s.pins ∧ t.power = s.power ∧ t.jtag = s.jtag ∧
    t.svc = s.svc ∧ t.snap = s.snap ∧ t.bist = s.bist ∧ t.trace = s.trace ∧ t.draws = s.draws ∧ t.pending = s.pending := by
  unfold State.applyReports
  repeat' (first | split | simp)

@[simp] theorem State.takeReports_frame (s : State) (d) (h) (l) :
    let t := State.takeReports s d h l
    t.ms = s.ms ∧ t.cfg = s.cfg ∧ t.nv = s.nv ∧ t.procs = s.procs ∧ t.time = s.time ∧ t.ports = s.ports ∧
    t.fwd = s.fwd ∧ t.qos = s.qos ∧ t.radio = s.radio ∧ t.pins = s.pins ∧ t.power = s.power ∧ t.jtag = s.jtag ∧
    t.svc = s.svc ∧ t.snap = s.snap ∧ t.bist = s.bist ∧ t.trace = s.trace ∧ t.draws = s.draws ∧ t.pending = s.pending := by
  unfold State.takeReports
  repeat' (first | split | simp)

@[simp] theorem State.hold_frame (s : State) (join) (x2) :
    let t := State.hold s join x2
    t.ms = s.ms ∧ t.host = s.host ∧ t.cfg = s.cfg ∧ t.nv = s.nv ∧ t.time = s.time ∧ t.ports = s.ports ∧
    t.fwd = s.fwd ∧ t.qos = s.qos ∧ t.radio = s.radio ∧ t.mesh = s.mesh ∧ t.pins = s.pins ∧ t.power = s.power ∧
    t.jtag = s.jtag ∧ t.pair = s.pair ∧ t.svc = s.svc ∧ t.snap = s.snap ∧ t.bist = s.bist ∧ t.trace = s.trace ∧
    t.ctr = s.ctr ∧ t.draws = s.draws ∧ t.pending = s.pending := by
  unfold State.hold
  repeat' (first | split | simp)

@[simp] theorem State.uplinkPacket_frame (s : State) (d) (site) (c) (b) :
    let t := State.uplinkPacket s d site c b
    t.ms = s.ms ∧ t.cfg = s.cfg ∧ t.nv = s.nv ∧ t.procs = s.procs ∧ t.time = s.time ∧ t.ports = s.ports ∧
    t.radio = s.radio ∧ t.mesh = s.mesh ∧ t.pins = s.pins ∧ t.power = s.power ∧ t.jtag = s.jtag ∧ t.pair = s.pair ∧
    t.svc = s.svc ∧ t.snap = s.snap ∧ t.bist = s.bist ∧ t.trace = s.trace ∧ t.pending = s.pending := by
  unfold State.uplinkPacket
  repeat' (first | split | simp)

@[simp] theorem State.fragment_frame (s : State) (d) (h) (site) (c) (size) (tag) (off) (piece) :
    let t := State.fragment s d h site c size tag off piece
    t.ms = s.ms ∧ t.cfg = s.cfg ∧ t.nv = s.nv ∧ t.procs = s.procs ∧ t.time = s.time ∧ t.ports = s.ports ∧
    t.radio = s.radio ∧ t.pins = s.pins ∧ t.power = s.power ∧ t.jtag = s.jtag ∧ t.pair = s.pair ∧ t.svc = s.svc ∧
    t.snap = s.snap ∧ t.bist = s.bist ∧ t.trace = s.trace ∧ t.pending = s.pending := by
  unfold State.fragment
  repeat' (first | split | simp)

@[simp] theorem State.borderUp_frame (s : State) (d) (h) (site) (c) (f) (b) :
    let t := State.borderUp s d h site c f b
    t.ms = s.ms ∧ t.cfg = s.cfg ∧ t.nv = s.nv ∧ t.procs = s.procs ∧ t.time = s.time ∧ t.ports = s.ports ∧
    t.radio = s.radio ∧ t.pins = s.pins ∧ t.power = s.power ∧ t.jtag = s.jtag ∧ t.pair = s.pair ∧ t.svc = s.svc ∧
    t.snap = s.snap ∧ t.bist = s.bist ∧ t.trace = s.trace ∧ t.pending = s.pending := by
  unfold State.borderUp
  repeat' (first | split | simp)

@[simp] theorem State.deliverUp_frame (s : State) (d) (h) (c) (x4) (f) (p) :
    let t := State.deliverUp s d h c x4 f p
    t.ms = s.ms ∧ t.cfg = s.cfg ∧ t.nv = s.nv ∧ t.time = s.time ∧ t.ports = s.ports ∧ t.radio = s.radio ∧
    t.pins = s.pins ∧ t.power = s.power ∧ t.jtag = s.jtag ∧ t.svc = s.svc ∧ t.snap = s.snap ∧ t.bist = s.bist ∧
    t.trace = s.trace ∧ t.pending = s.pending := by
  unfold State.deliverUp
  repeat' (first | split | simp)

@[simp] theorem State.securedRx_frame (s : State) (x1) :
    let t := State.securedRx s x1
    t.ms = s.ms ∧ t.cfg = s.cfg ∧ t.time = s.time ∧ t.ports = s.ports ∧ t.pins = s.pins ∧ t.power = s.power ∧
    t.jtag = s.jtag ∧ t.svc = s.svc ∧ t.snap = s.snap ∧ t.bist = s.bist ∧ t.trace = s.trace ∧ t.pending = s.pending := by
  unfold State.securedRx
  repeat' (first | split | simp)

@[simp] theorem State.settleFrame_frame (s : State) (d) (h) (id) (ok) :
    let t := State.settleFrame s d h id ok
    t.ms = s.ms ∧ t.cfg = s.cfg ∧ t.nv = s.nv ∧ t.procs = s.procs ∧ t.time = s.time ∧ t.ports = s.ports ∧
    t.fwd = s.fwd ∧ t.qos = s.qos ∧ t.pins = s.pins ∧ t.power = s.power ∧ t.jtag = s.jtag ∧ t.svc = s.svc ∧
    t.snap = s.snap ∧ t.bist = s.bist ∧ t.trace = s.trace ∧ t.draws = s.draws ∧ t.pending = s.pending := by
  unfold State.settleFrame
  repeat' (first | split | simp)

@[simp] theorem State.respond_frame (s : State) (d) (c) (handle) (eui) (body) :
    let t := State.respond s d c handle eui body
    t.ms = s.ms ∧ t.host = s.host ∧ t.cfg = s.cfg ∧ t.nv = s.nv ∧ t.procs = s.procs ∧ t.time = s.time ∧
    t.ports = s.ports ∧ t.fwd = s.fwd ∧ t.qos = s.qos ∧ t.radio = s.radio ∧ t.pins = s.pins ∧ t.power = s.power ∧
    t.jtag = s.jtag ∧ t.pair = s.pair ∧ t.svc = s.svc ∧ t.snap = s.snap ∧ t.bist = s.bist ∧ t.trace = s.trace ∧
    t.ctr = s.ctr ∧ t.draws = s.draws ∧ t.pending = s.pending := by
  unfold State.respond
  repeat' (first | split | simp)

@[simp] theorem State.applyRefuse_frame (s : State) (d) (eui) (result) :
    let t := State.applyRefuse s d eui result
    t.ms = s.ms ∧ t.cfg = s.cfg ∧ t.nv = s.nv ∧ t.procs = s.procs ∧ t.time = s.time ∧ t.ports = s.ports ∧
    t.fwd = s.fwd ∧ t.qos = s.qos ∧ t.radio = s.radio ∧ t.pins = s.pins ∧ t.power = s.power ∧ t.jtag = s.jtag ∧
    t.pair = s.pair ∧ t.svc = s.svc ∧ t.snap = s.snap ∧ t.bist = s.bist ∧ t.trace = s.trace ∧ t.pending = s.pending := by
  unfold State.applyRefuse
  repeat' (first | split | simp)

@[simp] theorem State.refuseJoin_frame (s : State) (d) (eui) (result) :
    let t := State.refuseJoin s d eui result
    t.ms = s.ms ∧ t.cfg = s.cfg ∧ t.nv = s.nv ∧ t.procs = s.procs ∧ t.time = s.time ∧ t.ports = s.ports ∧
    t.fwd = s.fwd ∧ t.qos = s.qos ∧ t.radio = s.radio ∧ t.pins = s.pins ∧ t.power = s.power ∧ t.jtag = s.jtag ∧
    t.svc = s.svc ∧ t.snap = s.snap ∧ t.bist = s.bist ∧ t.trace = s.trace ∧ t.pending = s.pending := by
  unfold State.refuseJoin
  repeat' (first | split | simp)

@[simp] theorem State.writeJoin_frame (s : State) (d) (h) (eui) (c) (b) :
    let t := State.writeJoin s d h eui c b
    t.ms = s.ms ∧ t.cfg = s.cfg ∧ t.nv = s.nv ∧ t.procs = s.procs ∧ t.time = s.time ∧ t.ports = s.ports ∧
    t.fwd = s.fwd ∧ t.qos = s.qos ∧ t.pins = s.pins ∧ t.power = s.power ∧ t.jtag = s.jtag ∧ t.svc = s.svc ∧
    t.snap = s.snap ∧ t.bist = s.bist ∧ t.trace = s.trace ∧ t.draws = s.draws ∧ t.pending = s.pending := by
  unfold State.writeJoin
  repeat' (first | split | simp)

@[simp] theorem State.applyJoin_frame (s : State) (d) (h) (eui) (b) (body) (moved) :
    let t := State.applyJoin s d h eui b body moved
    t.ms = s.ms ∧ t.cfg = s.cfg ∧ t.nv = s.nv ∧ t.procs = s.procs ∧ t.time = s.time ∧ t.ports = s.ports ∧
    t.fwd = s.fwd ∧ t.qos = s.qos ∧ t.pins = s.pins ∧ t.power = s.power ∧ t.jtag = s.jtag ∧ t.svc = s.svc ∧
    t.snap = s.snap ∧ t.bist = s.bist ∧ t.trace = s.trace ∧ t.draws = s.draws ∧ t.pending = s.pending := by
  unfold State.applyJoin
  repeat' (first | split | simp)

@[simp] theorem State.joinNode_frame (s : State) (d) (eui) (dk) (jk) (b) :
    let t := State.joinNode s d eui dk jk b
    t.ms = s.ms ∧ t.cfg = s.cfg ∧ t.nv = s.nv ∧ t.procs = s.procs ∧ t.time = s.time ∧ t.ports = s.ports ∧
    t.fwd = s.fwd ∧ t.qos = s.qos ∧ t.pins = s.pins ∧ t.power = s.power ∧ t.jtag = s.jtag ∧ t.svc = s.svc ∧
    t.snap = s.snap ∧ t.bist = s.bist ∧ t.trace = s.trace ∧ t.pending = s.pending := by
  unfold State.joinNode
  repeat' (first | split | simp)

@[simp] theorem State.joinRx_frame (s : State) (x1) :
    let t := State.joinRx s x1
    t.ms = s.ms ∧ t.cfg = s.cfg ∧ t.procs = s.procs ∧ t.time = s.time ∧ t.ports = s.ports ∧ t.fwd = s.fwd ∧
    t.qos = s.qos ∧ t.pins = s.pins ∧ t.power = s.power ∧ t.jtag = s.jtag ∧ t.svc = s.svc ∧ t.snap = s.snap ∧
    t.bist = s.bist ∧ t.trace = s.trace ∧ t.pending = s.pending := by
  unfold State.joinRx
  repeat' (first | split | simp)

@[simp] theorem State.tookBorder_frame (s : State) (d) (packet) :
    let t := State.tookBorder s d packet
    t.ms = s.ms ∧ t.host = s.host ∧ t.cfg = s.cfg ∧ t.nv = s.nv ∧ t.procs = s.procs ∧ t.time = s.time ∧
    t.ports = s.ports ∧ t.qos = s.qos ∧ t.radio = s.radio ∧ t.mesh = s.mesh ∧ t.pins = s.pins ∧ t.power = s.power ∧
    t.jtag = s.jtag ∧ t.pair = s.pair ∧ t.svc = s.svc ∧ t.snap = s.snap ∧ t.bist = s.bist ∧ t.trace = s.trace ∧
    t.ctr = s.ctr ∧ t.draws = s.draws ∧ t.pending = s.pending := by
  unfold State.tookBorder
  repeat' (first | split | simp)

end Sys2Proof.Machine
end

