-- ==== Sys2Proof/Laws/FrameModes.lean ====
section
/-! SUPPORT. Frames of the operations of time, update and the modes: for each operation, the parts of the
state that it leaves as they were. -/

namespace Sys2Proof.Machine

@[simp] theorem State.timeEvent_frame (s : State) (type) (tb) (body) :
    let t := State.timeEvent s type tb body
    t.ms = s.ms ∧ t.cfg = s.cfg ∧ t.nv = s.nv ∧ t.procs = s.procs ∧ t.time = s.time ∧ t.ports = s.ports ∧
    t.fwd = s.fwd ∧ t.qos = s.qos ∧ t.radio = s.radio ∧ t.mesh = s.mesh ∧ t.pins = s.pins ∧ t.power = s.power ∧
    t.jtag = s.jtag ∧ t.pair = s.pair ∧ t.svc = s.svc ∧ t.snap = s.snap ∧ t.bist = s.bist ∧ t.trace = s.trace ∧
    t.ctr = s.ctr ∧ t.draws = s.draws ∧ t.pending = s.pending := by
  unfold State.timeEvent
  repeat' (first | split | simp)

@[simp] theorem State.setBaseState_frame (s : State) (tb) (n) :
    let t := State.setBaseState s tb n
    t.ms = s.ms ∧ t.cfg = s.cfg ∧ t.nv = s.nv ∧ t.procs = s.procs ∧ t.ports = s.ports ∧ t.fwd = s.fwd ∧
    t.qos = s.qos ∧ t.radio = s.radio ∧ t.mesh = s.mesh ∧ t.pins = s.pins ∧ t.power = s.power ∧ t.jtag = s.jtag ∧
    t.pair = s.pair ∧ t.svc = s.svc ∧ t.snap = s.snap ∧ t.bist = s.bist ∧ t.trace = s.trace ∧ t.ctr = s.ctr ∧
    t.draws = s.draws ∧ t.pending = s.pending := by
  unfold State.setBaseState
  repeat' (first | split | simp)

@[simp] theorem State.stepBase_frame (s : State) (tb) (t2) (delta) (byHost) :
    let t := State.stepBase s tb t2 delta byHost
    t.ms = s.ms ∧ t.cfg = s.cfg ∧ t.nv = s.nv ∧ t.procs = s.procs ∧ t.ports = s.ports ∧ t.fwd = s.fwd ∧
    t.mesh = s.mesh ∧ t.pins = s.pins ∧ t.power = s.power ∧ t.jtag = s.jtag ∧ t.svc = s.svc ∧ t.snap = s.snap ∧
    t.bist = s.bist ∧ t.trace = s.trace ∧ t.draws = s.draws ∧ t.pending = s.pending := by
  unfold State.stepBase
  repeat' (first | split | simp)

@[simp] theorem State.applySample_frame (s : State) (tb) (theta) :
    let t := State.applySample s tb theta
    t.ms = s.ms ∧ t.cfg = s.cfg ∧ t.nv = s.nv ∧ t.procs = s.procs ∧ t.ports = s.ports ∧ t.fwd = s.fwd ∧
    t.mesh = s.mesh ∧ t.pins = s.pins ∧ t.power = s.power ∧ t.jtag = s.jtag ∧ t.svc = s.svc ∧ t.snap = s.snap ∧
    t.bist = s.bist ∧ t.trace = s.trace ∧ t.pending = s.pending := by
  unfold State.applySample
  repeat' (first | split | simp)

@[simp] theorem State.takeSample_frame (s : State) (tb) (theta) :
    let t := State.takeSample s tb theta
    t.ms = s.ms ∧ t.cfg = s.cfg ∧ t.nv = s.nv ∧ t.procs = s.procs ∧ t.ports = s.ports ∧ t.fwd = s.fwd ∧
    t.mesh = s.mesh ∧ t.pins = s.pins ∧ t.power = s.power ∧ t.jtag = s.jtag ∧ t.svc = s.svc ∧ t.snap = s.snap ∧
    t.bist = s.bist ∧ t.trace = s.trace ∧ t.pending = s.pending := by
  unfold State.takeSample
  repeat' (first | split | simp)

@[simp] theorem State.loseOn10m_frame (s : State) (tb) :
    let t := State.loseOn10m s tb
    t.ms = s.ms ∧ t.host = s.host ∧ t.cfg = s.cfg ∧ t.nv = s.nv ∧ t.procs = s.procs ∧ t.ports = s.ports ∧
    t.fwd = s.fwd ∧ t.qos = s.qos ∧ t.radio = s.radio ∧ t.mesh = s.mesh ∧ t.pins = s.pins ∧ t.power = s.power ∧
    t.jtag = s.jtag ∧ t.pair = s.pair ∧ t.svc = s.svc ∧ t.snap = s.snap ∧ t.bist = s.bist ∧ t.trace = s.trace ∧
    t.ctr = s.ctr ∧ t.draws = s.draws ∧ t.pending = s.pending := by
  unfold State.loseOn10m
  repeat' (first | split | simp)

@[simp] theorem State.lose10m_frame (s : State) :
    let t := State.lose10m s
    t.ms = s.ms ∧ t.host = s.host ∧ t.cfg = s.cfg ∧ t.nv = s.nv ∧ t.procs = s.procs ∧ t.ports = s.ports ∧
    t.fwd = s.fwd ∧ t.qos = s.qos ∧ t.radio = s.radio ∧ t.mesh = s.mesh ∧ t.power = s.power ∧ t.jtag = s.jtag ∧
    t.pair = s.pair ∧ t.svc = s.svc ∧ t.snap = s.snap ∧ t.bist = s.bist ∧ t.trace = s.trace ∧ t.ctr = s.ctr ∧
    t.draws = s.draws ∧ t.pending = s.pending := by
  unfold State.lose10m
  repeat' (first | split | simp)

@[simp] theorem State.sees10m_frame (s : State) (tb) (x2) :
    let t := State.sees10m s tb x2
    t.ms = s.ms ∧ t.host = s.host ∧ t.cfg = s.cfg ∧ t.nv = s.nv ∧ t.procs = s.procs ∧ t.ports = s.ports ∧
    t.fwd = s.fwd ∧ t.qos = s.qos ∧ t.radio = s.radio ∧ t.mesh = s.mesh ∧ t.power = s.power ∧ t.jtag = s.jtag ∧
    t.pair = s.pair ∧ t.svc = s.svc ∧ t.snap = s.snap ∧ t.bist = s.bist ∧ t.trace = s.trace ∧ t.ctr = s.ctr ∧
    t.draws = s.draws ∧ t.pending = s.pending := by
  unfold State.sees10m
  repeat' (first | split | simp)

@[simp] theorem State.modPtpPort_frame (s : State) (p) (f) :
    let t := State.modPtpPort s p f
    t.ms = s.ms ∧ t.host = s.host ∧ t.cfg = s.cfg ∧ t.nv = s.nv ∧ t.procs = s.procs ∧ t.ports = s.ports ∧
    t.fwd = s.fwd ∧ t.qos = s.qos ∧ t.radio = s.radio ∧ t.mesh = s.mesh ∧ t.pins = s.pins ∧ t.power = s.power ∧
    t.jtag = s.jtag ∧ t.pair = s.pair ∧ t.svc = s.svc ∧ t.snap = s.snap ∧ t.bist = s.bist ∧ t.trace = s.trace ∧
    t.ctr = s.ctr ∧ t.draws = s.draws ∧ t.pending = s.pending := by
  unfold State.modPtpPort
  repeat' (first | split | simp)

@[simp] theorem State.ptpRoles_frame (s : State) (n) :
    let t := State.ptpRoles s n
    t.ms = s.ms ∧ t.host = s.host ∧ t.cfg = s.cfg ∧ t.nv = s.nv ∧ t.procs = s.procs ∧ t.ports = s.ports ∧
    t.fwd = s.fwd ∧ t.qos = s.qos ∧ t.radio = s.radio ∧ t.mesh = s.mesh ∧ t.pins = s.pins ∧ t.power = s.power ∧
    t.jtag = s.jtag ∧ t.pair = s.pair ∧ t.svc = s.svc ∧ t.snap = s.snap ∧ t.bist = s.bist ∧ t.trace = s.trace ∧
    t.ctr = s.ctr ∧ t.draws = s.draws ∧ t.pending = s.pending := by
  unfold State.ptpRoles
  repeat' (first | split | simp)

@[simp] theorem State.applyPtp_frame (s : State) (p) (f) :
    let t := State.applyPtp s p f
    t.ms = s.ms ∧ t.host = s.host ∧ t.cfg = s.cfg ∧ t.nv = s.nv ∧ t.procs = s.procs ∧ t.ports = s.ports ∧
    t.fwd = s.fwd ∧ t.radio = s.radio ∧ t.mesh = s.mesh ∧ t.pins = s.pins ∧ t.power = s.power ∧ t.jtag = s.jtag ∧
    t.pair = s.pair ∧ t.svc = s.svc ∧ t.snap = s.snap ∧ t.bist = s.bist ∧ t.trace = s.trace ∧ t.draws = s.draws ∧
    t.pending = s.pending := by
  unfold State.applyPtp
  repeat' (first | split | simp)

@[simp] theorem State.ptpSend_frame (s : State) (p) (c) (m) :
    let t := State.ptpSend s p c m
    t.ms = s.ms ∧ t.host = s.host ∧ t.cfg = s.cfg ∧ t.nv = s.nv ∧ t.procs = s.procs ∧ t.ports = s.ports ∧
    t.fwd = s.fwd ∧ t.radio = s.radio ∧ t.mesh = s.mesh ∧ t.pins = s.pins ∧ t.power = s.power ∧ t.jtag = s.jtag ∧
    t.svc = s.svc ∧ t.snap = s.snap ∧ t.bist = s.bist ∧ t.trace = s.trace ∧ t.draws = s.draws ∧ t.pending = s.pending := by
  unfold State.ptpSend
  repeat' (first | split | simp)

@[simp] theorem State.askDelay_frame (s : State) (n) (p) (syncSeq) :
    let t := State.askDelay s n p syncSeq
    t.ms = s.ms ∧ t.host = s.host ∧ t.cfg = s.cfg ∧ t.nv = s.nv ∧ t.procs = s.procs ∧ t.ports = s.ports ∧
    t.fwd = s.fwd ∧ t.radio = s.radio ∧ t.mesh = s.mesh ∧ t.pins = s.pins ∧ t.power = s.power ∧ t.jtag = s.jtag ∧
    t.svc = s.svc ∧ t.snap = s.snap ∧ t.bist = s.bist ∧ t.trace = s.trace ∧ t.draws = s.draws ∧ t.pending = s.pending := by
  unfold State.askDelay
  repeat' (first | split | simp)

@[simp] theorem State.syncDone_frame (s : State) (n) (p) (origin) :
    let t := State.syncDone s n p origin
    t.ms = s.ms ∧ t.host = s.host ∧ t.cfg = s.cfg ∧ t.nv = s.nv ∧ t.procs = s.procs ∧ t.ports = s.ports ∧
    t.fwd = s.fwd ∧ t.radio = s.radio ∧ t.mesh = s.mesh ∧ t.pins = s.pins ∧ t.power = s.power ∧ t.jtag = s.jtag ∧
    t.svc = s.svc ∧ t.snap = s.snap ∧ t.bist = s.bist ∧ t.trace = s.trace ∧ t.draws = s.draws ∧ t.pending = s.pending := by
  unfold State.syncDone
  repeat' (first | split | simp)

@[simp] theorem State.announceEnds_frame (s : State) (p) :
    let t := State.announceEnds s p
    t.ms = s.ms ∧ t.host = s.host ∧ t.cfg = s.cfg ∧ t.nv = s.nv ∧ t.procs = s.procs ∧ t.ports = s.ports ∧
    t.fwd = s.fwd ∧ t.qos = s.qos ∧ t.radio = s.radio ∧ t.mesh = s.mesh ∧ t.pins = s.pins ∧ t.power = s.power ∧
    t.jtag = s.jtag ∧ t.pair = s.pair ∧ t.svc = s.svc ∧ t.snap = s.snap ∧ t.bist = s.bist ∧ t.trace = s.trace ∧
    t.ctr = s.ctr ∧ t.draws = s.draws ∧ t.pending = s.pending := by
  unfold State.announceEnds
  repeat' (first | split | simp)

@[simp] theorem State.syncRx_frame (s : State) (n) (p) (m) :
    let t := State.syncRx s n p m
    t.ms = s.ms ∧ t.host = s.host ∧ t.cfg = s.cfg ∧ t.nv = s.nv ∧ t.procs = s.procs ∧ t.ports = s.ports ∧
    t.fwd = s.fwd ∧ t.radio = s.radio ∧ t.mesh = s.mesh ∧ t.pins = s.pins ∧ t.power = s.power ∧ t.jtag = s.jtag ∧
    t.svc = s.svc ∧ t.snap = s.snap ∧ t.bist = s.bist ∧ t.trace = s.trace ∧ t.draws = s.draws ∧ t.pending = s.pending := by
  unfold State.syncRx
  repeat' (first | split | simp)

@[simp] theorem State.sendSync_frame (s : State) (p) (c) (tb) :
    let t := State.sendSync s p c tb
    t.ms = s.ms ∧ t.host = s.host ∧ t.cfg = s.cfg ∧ t.nv = s.nv ∧ t.procs = s.procs ∧ t.ports = s.ports ∧
    t.fwd = s.fwd ∧ t.radio = s.radio ∧ t.mesh = s.mesh ∧ t.pins = s.pins ∧ t.power = s.power ∧ t.jtag = s.jtag ∧
    t.svc = s.svc ∧ t.snap = s.snap ∧ t.bist = s.bist ∧ t.trace = s.trace ∧ t.draws = s.draws ∧ t.pending = s.pending := by
  unfold State.sendSync
  repeat' (first | split | simp)

@[simp] theorem State.masterSends_frame (s : State) (p) (c) (tb) :
    let t := State.masterSends s p c tb
    t.ms = s.ms ∧ t.host = s.host ∧ t.cfg = s.cfg ∧ t.nv = s.nv ∧ t.procs = s.procs ∧ t.ports = s.ports ∧
    t.fwd = s.fwd ∧ t.radio = s.radio ∧ t.mesh = s.mesh ∧ t.pins = s.pins ∧ t.power = s.power ∧ t.jtag = s.jtag ∧
    t.svc = s.svc ∧ t.snap = s.snap ∧ t.bist = s.bist ∧ t.trace = s.trace ∧ t.draws = s.draws ∧ t.pending = s.pending := by
  unfold State.masterSends
  repeat' (first | split | simp)

@[simp] theorem State.selectOn10m_frame (s : State) (tb) :
    let t := State.selectOn10m s tb
    t.ms = s.ms ∧ t.host = s.host ∧ t.cfg = s.cfg ∧ t.nv = s.nv ∧ t.procs = s.procs ∧ t.ports = s.ports ∧
    t.fwd = s.fwd ∧ t.qos = s.qos ∧ t.radio = s.radio ∧ t.mesh = s.mesh ∧ t.pins = s.pins ∧ t.power = s.power ∧
    t.jtag = s.jtag ∧ t.pair = s.pair ∧ t.svc = s.svc ∧ t.snap = s.snap ∧ t.bist = s.bist ∧ t.trace = s.trace ∧
    t.ctr = s.ctr ∧ t.draws = s.draws ∧ t.pending = s.pending := by
  unfold State.selectOn10m
  repeat' (first | split | simp)

@[simp] theorem State.selectSources_frame (s : State) :
    let t := State.selectSources s
    t.ms = s.ms ∧ t.host = s.host ∧ t.cfg = s.cfg ∧ t.nv = s.nv ∧ t.procs = s.procs ∧ t.ports = s.ports ∧
    t.fwd = s.fwd ∧ t.qos = s.qos ∧ t.radio = s.radio ∧ t.mesh = s.mesh ∧ t.pins = s.pins ∧ t.power = s.power ∧
    t.jtag = s.jtag ∧ t.pair = s.pair ∧ t.svc = s.svc ∧ t.snap = s.snap ∧ t.bist = s.bist ∧ t.trace = s.trace ∧
    t.ctr = s.ctr ∧ t.draws = s.draws ∧ t.pending = s.pending := by
  unfold State.selectSources
  repeat' (first | split | simp)

@[simp] theorem timeBaseConfigSpec_frame (r : Req) (s : State) :
    let t := (timeBaseConfigSpec.effect r s).1
    t.ms = s.ms ∧ t.procs = s.procs ∧ t.ports = s.ports ∧ t.fwd = s.fwd ∧ t.qos = s.qos ∧ t.radio = s.radio ∧
    t.mesh = s.mesh ∧ t.pins = s.pins ∧ t.power = s.power ∧ t.jtag = s.jtag ∧ t.pair = s.pair ∧ t.svc = s.svc ∧
    t.snap = s.snap ∧ t.bist = s.bist ∧ t.trace = s.trace ∧ t.ctr = s.ctr ∧ t.draws = s.draws ∧ t.pending = s.pending := by
  unfold timeBaseConfigSpec
  repeat' (first | split | simp)

@[simp] theorem timeGetSpec_frame (r : Req) (s : State) :
    let t := (timeGetSpec.effect r s).1
    t.ms = s.ms ∧ t.host = s.host ∧ t.cfg = s.cfg ∧ t.nv = s.nv ∧ t.procs = s.procs ∧ t.time = s.time ∧
    t.ports = s.ports ∧ t.fwd = s.fwd ∧ t.qos = s.qos ∧ t.radio = s.radio ∧ t.mesh = s.mesh ∧ t.pins = s.pins ∧
    t.power = s.power ∧ t.jtag = s.jtag ∧ t.pair = s.pair ∧ t.svc = s.svc ∧ t.snap = s.snap ∧ t.bist = s.bist ∧
    t.trace = s.trace ∧ t.ctr = s.ctr ∧ t.draws = s.draws ∧ t.pending = s.pending := by
  unfold timeGetSpec
  repeat' (first | split | simp)

@[simp] theorem timeStepSpec_frame (r : Req) (s : State) :
    let t := (timeStepSpec.effect r s).1
    t.ms = s.ms ∧ t.cfg = s.cfg ∧ t.nv = s.nv ∧ t.procs = s.procs ∧ t.ports = s.ports ∧ t.fwd = s.fwd ∧
    t.mesh = s.mesh ∧ t.pins = s.pins ∧ t.power = s.power ∧ t.jtag = s.jtag ∧ t.svc = s.svc ∧ t.snap = s.snap ∧
    t.bist = s.bist ∧ t.trace = s.trace ∧ t.draws = s.draws ∧ t.pending = s.pending := by
  unfold timeStepSpec
  repeat' (first | split | simp)

@[simp] theorem timePtpConfigSpec_frame (r : Req) (s : State) :
    let t := (timePtpConfigSpec.effect r s).1
    t.ms = s.ms ∧ t.host = s.host ∧ t.procs = s.procs ∧ t.ports = s.ports ∧ t.fwd = s.fwd ∧ t.qos = s.qos ∧
    t.radio = s.radio ∧ t.mesh = s.mesh ∧ t.pins = s.pins ∧ t.power = s.power ∧ t.jtag = s.jtag ∧ t.pair = s.pair ∧
    t.svc = s.svc ∧ t.snap = s.snap ∧ t.bist = s.bist ∧ t.trace = s.trace ∧ t.ctr = s.ctr ∧ t.draws = s.draws ∧
    t.pending = s.pending := by
  unfold timePtpConfigSpec
  repeat' (first | split | simp)

@[simp] theorem timePortConfigSpec_frame (r : Req) (s : State) :
    let t := (timePortConfigSpec.effect r s).1
    t.ms = s.ms ∧ t.host = s.host ∧ t.procs = s.procs ∧ t.time = s.time ∧ t.ports = s.ports ∧ t.fwd = s.fwd ∧
    t.qos = s.qos ∧ t.radio = s.radio ∧ t.mesh = s.mesh ∧ t.pins = s.pins ∧ t.power = s.power ∧ t.jtag = s.jtag ∧
    t.pair = s.pair ∧ t.svc = s.svc ∧ t.snap = s.snap ∧ t.bist = s.bist ∧ t.trace = s.trace ∧ t.ctr = s.ctr ∧
    t.draws = s.draws ∧ t.pending = s.pending := by
  unfold timePortConfigSpec
  repeat' (first | split | simp)

@[simp] theorem timePpsConfigSpec_frame (r : Req) (s : State) :
    let t := (timePpsConfigSpec.effect r s).1
    t.ms = s.ms ∧ t.host = s.host ∧ t.procs = s.procs ∧ t.ports = s.ports ∧ t.fwd = s.fwd ∧ t.qos = s.qos ∧
    t.radio = s.radio ∧ t.mesh = s.mesh ∧ t.power = s.power ∧ t.jtag = s.jtag ∧ t.pair = s.pair ∧ t.svc = s.svc ∧
    t.snap = s.snap ∧ t.bist = s.bist ∧ t.trace = s.trace ∧ t.ctr = s.ctr ∧ t.draws = s.draws ∧ t.pending = s.pending := by
  unfold timePpsConfigSpec
  repeat' (first | split | simp)

@[simp] theorem timeSynceConfigSpec_frame (r : Req) (s : State) :
    let t := (timeSynceConfigSpec.effect r s).1
    t.ms = s.ms ∧ t.host = s.host ∧ t.procs = s.procs ∧ t.time = s.time ∧ t.ports = s.ports ∧ t.fwd = s.fwd ∧
    t.qos = s.qos ∧ t.radio = s.radio ∧ t.mesh = s.mesh ∧ t.pins = s.pins ∧ t.power = s.power ∧ t.jtag = s.jtag ∧
    t.pair = s.pair ∧ t.svc = s.svc ∧ t.snap = s.snap ∧ t.bist = s.bist ∧ t.trace = s.trace ∧ t.ctr = s.ctr ∧
    t.draws = s.draws ∧ t.pending = s.pending := by
  unfold timeSynceConfigSpec
  repeat' (first | split | simp)

@[simp] theorem State.leaveBase_frame (s : State) (t_) :
    let t := State.leaveBase s t_
    t.ms = s.ms ∧ t.host = s.host ∧ t.cfg = s.cfg ∧ t.nv = s.nv ∧ t.procs = s.procs ∧ t.time = s.time ∧
    t.ports = s.ports ∧ t.fwd = s.fwd ∧ t.qos = s.qos ∧ t.mesh = s.mesh ∧ t.pins = s.pins ∧ t.power = s.power ∧
    t.jtag = s.jtag ∧ t.pair = s.pair ∧ t.svc = s.svc ∧ t.snap = s.snap ∧ t.bist = s.bist ∧ t.trace = s.trace ∧
    t.ctr = s.ctr ∧ t.draws = s.draws ∧ t.pending = s.pending := by
  unfold State.leaveBase
  repeat' (first | split | simp)

@[simp] theorem timeSetTenantBaseSpec_frame (r : Req) (s : State) :
    let t := (timeSetTenantBaseSpec.effect r s).1
    t.ms = s.ms ∧ t.host = s.host ∧ t.procs = s.procs ∧ t.time = s.time ∧ t.ports = s.ports ∧ t.fwd = s.fwd ∧
    t.qos = s.qos ∧ t.mesh = s.mesh ∧ t.pins = s.pins ∧ t.power = s.power ∧ t.jtag = s.jtag ∧ t.pair = s.pair ∧
    t.svc = s.svc ∧ t.snap = s.snap ∧ t.bist = s.bist ∧ t.trace = s.trace ∧ t.ctr = s.ctr ∧ t.draws = s.draws ∧
    t.pending = s.pending := by
  unfold timeSetTenantBaseSpec
  repeat' (first | split | simp)

@[simp] theorem State.modRtc_frame (s : State) (f) :
    let t := State.modRtc s f
    t.ms = s.ms ∧ t.host = s.host ∧ t.cfg = s.cfg ∧ t.nv = s.nv ∧ t.procs = s.procs ∧ t.ports = s.ports ∧
    t.fwd = s.fwd ∧ t.qos = s.qos ∧ t.radio = s.radio ∧ t.mesh = s.mesh ∧ t.pins = s.pins ∧ t.power = s.power ∧
    t.jtag = s.jtag ∧ t.pair = s.pair ∧ t.svc = s.svc ∧ t.snap = s.snap ∧ t.bist = s.bist ∧ t.trace = s.trace ∧
    t.ctr = s.ctr ∧ t.draws = s.draws ∧ t.pending = s.pending := by
  unfold State.modRtc
  repeat' (first | split | simp)

@[simp] theorem State.reads_frame (s : State) (v) :
    let t := State.reads s v
    t.ms = s.ms ∧ t.cfg = s.cfg ∧ t.nv = s.nv ∧ t.procs = s.procs ∧ t.time = s.time ∧ t.ports = s.ports ∧
    t.fwd = s.fwd ∧ t.qos = s.qos ∧ t.radio = s.radio ∧ t.mesh = s.mesh ∧ t.pins = s.pins ∧ t.power = s.power ∧
    t.jtag = s.jtag ∧ t.pair = s.pair ∧ t.svc = s.svc ∧ t.snap = s.snap ∧ t.bist = s.bist ∧ t.trace = s.trace ∧
    t.ctr = s.ctr ∧ t.draws = s.draws ∧ t.pending = s.pending := by
  unfold State.reads
  repeat' (first | split | simp)

@[simp] theorem State.writeRtcCtrl_frame (s : State) (word) :
    let t := State.writeRtcCtrl s word
    t.ms = s.ms ∧ t.host = s.host ∧ t.cfg = s.cfg ∧ t.nv = s.nv ∧ t.procs = s.procs ∧ t.ports = s.ports ∧
    t.fwd = s.fwd ∧ t.qos = s.qos ∧ t.radio = s.radio ∧ t.mesh = s.mesh ∧ t.pins = s.pins ∧ t.power = s.power ∧
    t.jtag = s.jtag ∧ t.pair = s.pair ∧ t.svc = s.svc ∧ t.snap = s.snap ∧ t.bist = s.bist ∧ t.trace = s.trace ∧
    t.ctr = s.ctr ∧ t.draws = s.draws ∧ t.pending = s.pending := by
  unfold State.writeRtcCtrl
  repeat' (first | split | simp)

@[simp] theorem State.releaseSite_frame (s : State) (n) :
    let t := State.releaseSite s n
    t.ms = s.ms ∧ t.host = s.host ∧ t.cfg = s.cfg ∧ t.nv = s.nv ∧ t.procs = s.procs ∧ t.time = s.time ∧
    t.ports = s.ports ∧ t.fwd = s.fwd ∧ t.mesh = s.mesh ∧ t.pins = s.pins ∧ t.power = s.power ∧ t.jtag = s.jtag ∧
    t.pair = s.pair ∧ t.svc = s.svc ∧ t.snap = s.snap ∧ t.bist = s.bist ∧ t.trace = s.trace ∧ t.draws = s.draws ∧
    t.pending = s.pending := by
  unfold State.releaseSite
  repeat' (first | split | simp)

@[simp] theorem State.releaseDls_frame (s : State) :
    let t := State.releaseDls s
    t.ms = s.ms ∧ t.host = s.host ∧ t.cfg = s.cfg ∧ t.nv = s.nv ∧ t.procs = s.procs ∧ t.time = s.time ∧
    t.ports = s.ports ∧ t.fwd = s.fwd ∧ t.mesh = s.mesh ∧ t.pins = s.pins ∧ t.power = s.power ∧ t.jtag = s.jtag ∧
    t.pair = s.pair ∧ t.svc = s.svc ∧ t.snap = s.snap ∧ t.bist = s.bist ∧ t.trace = s.trace ∧ t.draws = s.draws ∧
    t.pending = s.pending := by
  unfold State.releaseDls
  repeat' (first | split | simp)

@[simp] theorem State.announcesEnd_frame (s : State) :
    let t := State.announcesEnd s
    t.ms = s.ms ∧ t.host = s.host ∧ t.cfg = s.cfg ∧ t.nv = s.nv ∧ t.procs = s.procs ∧ t.ports = s.ports ∧
    t.fwd = s.fwd ∧ t.qos = s.qos ∧ t.radio = s.radio ∧ t.mesh = s.mesh ∧ t.pins = s.pins ∧ t.power = s.power ∧
    t.jtag = s.jtag ∧ t.pair = s.pair ∧ t.svc = s.svc ∧ t.snap = s.snap ∧ t.bist = s.bist ∧ t.trace = s.trace ∧
    t.ctr = s.ctr ∧ t.draws = s.draws ∧ t.pending = s.pending := by
  unfold State.announcesEnd
  repeat' (first | split | simp)

@[simp] theorem State.idle_frame (s : State) :
    let t := State.idle s
    t.ms = s.ms ∧ t.host = s.host ∧ t.cfg = s.cfg ∧ t.nv = s.nv ∧ t.procs = s.procs ∧ t.ports = s.ports ∧
    t.fwd = s.fwd ∧ t.mesh = s.mesh ∧ t.power = s.power ∧ t.jtag = s.jtag ∧ t.pair = s.pair ∧ t.svc = s.svc ∧
    t.snap = s.snap ∧ t.bist = s.bist ∧ t.trace = s.trace ∧ t.draws = s.draws ∧ t.pending = s.pending := by
  unfold State.idle
  repeat' (first | split | simp)

@[simp] theorem State.modFlash_frame (s : State) (bank) (f) :
    let t := State.modFlash s bank f
    t.ms = s.ms ∧ t.host = s.host ∧ t.cfg = s.cfg ∧ t.procs = s.procs ∧ t.time = s.time ∧ t.ports = s.ports ∧
    t.fwd = s.fwd ∧ t.qos = s.qos ∧ t.radio = s.radio ∧ t.mesh = s.mesh ∧ t.pins = s.pins ∧ t.power = s.power ∧
    t.jtag = s.jtag ∧ t.pair = s.pair ∧ t.svc = s.svc ∧ t.snap = s.snap ∧ t.bist = s.bist ∧ t.trace = s.trace ∧
    t.ctr = s.ctr ∧ t.draws = s.draws ∧ t.pending = s.pending := by
  unfold State.modFlash
  repeat' (first | split | simp)

@[simp] theorem State.modBoot_frame (s : State) (bank) (f) :
    let t := State.modBoot s bank f
    t.ms = s.ms ∧ t.host = s.host ∧ t.cfg = s.cfg ∧ t.procs = s.procs ∧ t.time = s.time ∧ t.ports = s.ports ∧
    t.fwd = s.fwd ∧ t.qos = s.qos ∧ t.radio = s.radio ∧ t.mesh = s.mesh ∧ t.pins = s.pins ∧ t.power = s.power ∧
    t.jtag = s.jtag ∧ t.pair = s.pair ∧ t.svc = s.svc ∧ t.snap = s.snap ∧ t.bist = s.bist ∧ t.trace = s.trace ∧
    t.ctr = s.ctr ∧ t.draws = s.draws ∧ t.pending = s.pending := by
  unfold State.modBoot
  repeat' (first | split | simp)

@[simp] theorem State.updateEntry_frame (s : State) (type) (n2) (b) (value) :
    let t := State.updateEntry s type n2 b value
    t.ms = s.ms ∧ t.cfg = s.cfg ∧ t.nv = s.nv ∧ t.procs = s.procs ∧ t.time = s.time ∧ t.ports = s.ports ∧
    t.fwd = s.fwd ∧ t.qos = s.qos ∧ t.radio = s.radio ∧ t.mesh = s.mesh ∧ t.pins = s.pins ∧ t.power = s.power ∧
    t.jtag = s.jtag ∧ t.pair = s.pair ∧ t.svc = s.svc ∧ t.snap = s.snap ∧ t.bist = s.bist ∧ t.trace = s.trace ∧
    t.ctr = s.ctr ∧ t.draws = s.draws ∧ t.pending = s.pending := by
  unfold State.updateEntry
  repeat' (first | split | simp)

@[simp] theorem State.svcSend_frame (s : State) (x1) (op) (block) (body) :
    let t := State.svcSend s x1 op block body
    t.ms = s.ms ∧ t.host = s.host ∧ t.cfg = s.cfg ∧ t.nv = s.nv ∧ t.procs = s.procs ∧ t.time = s.time ∧
    t.ports = s.ports ∧ t.fwd = s.fwd ∧ t.qos = s.qos ∧ t.radio = s.radio ∧ t.mesh = s.mesh ∧ t.pins = s.pins ∧
    t.power = s.power ∧ t.jtag = s.jtag ∧ t.pair = s.pair ∧ t.snap = s.snap ∧ t.bist = s.bist ∧ t.trace = s.trace ∧
    t.pending = s.pending := by
  unfold State.svcSend
  repeat' (first | split | simp)

@[simp] theorem State.setSession_frame (s : State) (x1) :
    let t := State.setSession s x1
    t.ms = s.ms ∧ t.host = s.host ∧ t.cfg = s.cfg ∧ t.nv = s.nv ∧ t.procs = s.procs ∧ t.time = s.time ∧
    t.ports = s.ports ∧ t.fwd = s.fwd ∧ t.qos = s.qos ∧ t.radio = s.radio ∧ t.mesh = s.mesh ∧ t.pins = s.pins ∧
    t.power = s.power ∧ t.jtag = s.jtag ∧ t.pair = s.pair ∧ t.snap = s.snap ∧ t.bist = s.bist ∧ t.trace = s.trace ∧
    t.ctr = s.ctr ∧ t.draws = s.draws ∧ t.pending = s.pending := by
  unfold State.setSession
  repeat' (first | split | simp)

@[simp] theorem State.finishInstall_frame (s : State) (f) (tag) (st) (sub) (result) :
    let t := State.finishInstall s f tag st sub result
    t.ms = s.ms ∧ t.cfg = s.cfg ∧ t.nv = s.nv ∧ t.procs = s.procs ∧ t.time = s.time ∧ t.ports = s.ports ∧
    t.fwd = s.fwd ∧ t.qos = s.qos ∧ t.radio = s.radio ∧ t.mesh = s.mesh ∧ t.pins = s.pins ∧ t.power = s.power ∧
    t.jtag = s.jtag ∧ t.svc = s.svc ∧ t.snap = s.snap ∧ t.bist = s.bist ∧ t.trace = s.trace ∧ t.ctr = s.ctr ∧
    t.draws = s.draws ∧ t.pending = s.pending := by
  unfold State.finishInstall
  repeat' (first | split | simp)

@[simp] theorem State.endSession_frame (s : State) (last) :
    let t := State.endSession s last
    t.ms = s.ms ∧ t.cfg = s.cfg ∧ t.nv = s.nv ∧ t.procs = s.procs ∧ t.time = s.time ∧ t.ports = s.ports ∧
    t.fwd = s.fwd ∧ t.qos = s.qos ∧ t.radio = s.radio ∧ t.mesh = s.mesh ∧ t.pins = s.pins ∧ t.power = s.power ∧
    t.jtag = s.jtag ∧ t.snap = s.snap ∧ t.bist = s.bist ∧ t.trace = s.trace ∧ t.pending = s.pending := by
  unfold State.endSession
  repeat' (first | split | simp)

@[simp] theorem State.sessionMode_frame (s : State) (new) :
    let t := State.sessionMode s new
    t.ms = s.ms ∧ t.cfg = s.cfg ∧ t.nv = s.nv ∧ t.procs = s.procs ∧ t.time = s.time ∧ t.ports = s.ports ∧
    t.fwd = s.fwd ∧ t.qos = s.qos ∧ t.radio = s.radio ∧ t.mesh = s.mesh ∧ t.pins = s.pins ∧ t.power = s.power ∧
    t.jtag = s.jtag ∧ t.snap = s.snap ∧ t.bist = s.bist ∧ t.trace = s.trace ∧ t.pending = s.pending := by
  unfold State.sessionMode
  repeat' (first | split | simp)

@[simp] theorem State.traceMode_frame (s : State) (old) (t_) :
    let t := State.traceMode s old t_
    t.ms = s.ms ∧ t.host = s.host ∧ t.cfg = s.cfg ∧ t.nv = s.nv ∧ t.procs = s.procs ∧ t.time = s.time ∧
    t.ports = s.ports ∧ t.fwd = s.fwd ∧ t.qos = s.qos ∧ t.radio = s.radio ∧ t.mesh = s.mesh ∧ t.pins = s.pins ∧
    t.power = s.power ∧ t.jtag = s.jtag ∧ t.pair = s.pair ∧ t.svc = s.svc ∧ t.snap = s.snap ∧ t.bist = s.bist ∧
    t.draws = s.draws ∧ t.pending = s.pending := by
  unfold State.traceMode
  repeat' (first | split | simp)

@[simp] theorem State.tellMode_frame (s : State) (old) (t_) :
    let t := State.tellMode s old t_
    t.ms = s.ms ∧ t.cfg = s.cfg ∧ t.nv = s.nv ∧ t.procs = s.procs ∧ t.time = s.time ∧ t.ports = s.ports ∧
    t.fwd = s.fwd ∧ t.qos = s.qos ∧ t.radio = s.radio ∧ t.mesh = s.mesh ∧ t.pins = s.pins ∧ t.power = s.power ∧
    t.jtag = s.jtag ∧ t.pair = s.pair ∧ t.svc = s.svc ∧ t.snap = s.snap ∧ t.bist = s.bist ∧ t.draws = s.draws ∧
    t.pending = s.pending := by
  unfold State.tellMode
  repeat' (first | split | simp)

@[simp] theorem State.noteMode_frame (s : State) (old) (t_) :
    let t := State.noteMode s old t_
    t.host = s.host ∧ t.cfg = s.cfg ∧ t.nv = s.nv ∧ t.procs = s.procs ∧ t.time = s.time ∧ t.ports = s.ports ∧
    t.fwd = s.fwd ∧ t.qos = s.qos ∧ t.radio = s.radio ∧ t.mesh = s.mesh ∧ t.pins = s.pins ∧ t.power = s.power ∧
    t.jtag = s.jtag ∧ t.pair = s.pair ∧ t.svc = s.svc ∧ t.snap = s.snap ∧ t.bist = s.bist ∧ t.trace = s.trace ∧
    t.ctr = s.ctr ∧ t.draws = s.draws ∧ t.pending = s.pending := by
  unfold State.noteMode
  repeat' (first | split | simp)

@[simp] theorem State.addCause_frame (s : State) (bit) :
    let t := State.addCause s bit
    t.host = s.host ∧ t.cfg = s.cfg ∧ t.nv = s.nv ∧ t.procs = s.procs ∧ t.time = s.time ∧ t.ports = s.ports ∧
    t.fwd = s.fwd ∧ t.qos = s.qos ∧ t.radio = s.radio ∧ t.mesh = s.mesh ∧ t.pins = s.pins ∧ t.power = s.power ∧
    t.jtag = s.jtag ∧ t.pair = s.pair ∧ t.svc = s.svc ∧ t.snap = s.snap ∧ t.bist = s.bist ∧ t.trace = s.trace ∧
    t.ctr = s.ctr ∧ t.draws = s.draws ∧ t.pending = s.pending := by
  unfold State.addCause
  repeat' (first | split | simp)

@[simp] theorem State.pairEntry_frame (s : State) (type) (reason) (b19) (w20) (value) :
    let t := State.pairEntry s type reason b19 w20 value
    t.ms = s.ms ∧ t.cfg = s.cfg ∧ t.nv = s.nv ∧ t.procs = s.procs ∧ t.time = s.time ∧ t.ports = s.ports ∧
    t.fwd = s.fwd ∧ t.qos = s.qos ∧ t.radio = s.radio ∧ t.mesh = s.mesh ∧ t.pins = s.pins ∧ t.power = s.power ∧
    t.jtag = s.jtag ∧ t.pair = s.pair ∧ t.svc = s.svc ∧ t.snap = s.snap ∧ t.bist = s.bist ∧ t.trace = s.trace ∧
    t.ctr = s.ctr ∧ t.draws = s.draws ∧ t.pending = s.pending := by
  unfold State.pairEntry
  repeat' (first | split | simp)

@[simp] theorem State.setActive_frame (s : State) :
    let t := State.setActive s
    t.ms = s.ms ∧ t.host = s.host ∧ t.cfg = s.cfg ∧ t.nv = s.nv ∧ t.procs = s.procs ∧ t.time = s.time ∧
    t.ports = s.ports ∧ t.fwd = s.fwd ∧ t.qos = s.qos ∧ t.radio = s.radio ∧ t.mesh = s.mesh ∧ t.power = s.power ∧
    t.jtag = s.jtag ∧ t.pair = s.pair ∧ t.svc = s.svc ∧ t.snap = s.snap ∧ t.bist = s.bist ∧ t.trace = s.trace ∧
    t.ctr = s.ctr ∧ t.draws = s.draws ∧ t.pending = s.pending := by
  unfold State.setActive
  repeat' (first | split | simp)

@[simp] theorem State.setAlive_frame (s : State) :
    let t := State.setAlive s
    t.ms = s.ms ∧ t.host = s.host ∧ t.cfg = s.cfg ∧ t.nv = s.nv ∧ t.procs = s.procs ∧ t.time = s.time ∧
    t.ports = s.ports ∧ t.fwd = s.fwd ∧ t.qos = s.qos ∧ t.radio = s.radio ∧ t.mesh = s.mesh ∧ t.power = s.power ∧
    t.jtag = s.jtag ∧ t.pair = s.pair ∧ t.svc = s.svc ∧ t.snap = s.snap ∧ t.bist = s.bist ∧ t.trace = s.trace ∧
    t.ctr = s.ctr ∧ t.draws = s.draws ∧ t.pending = s.pending := by
  unfold State.setAlive
  repeat' (first | split | simp)

@[simp] theorem State.allDown_frame (s : State) :
    let t := State.allDown s
    t.ms = s.ms ∧ t.cfg = s.cfg ∧ t.nv = s.nv ∧ t.procs = s.procs ∧ t.time = s.time ∧ t.fwd = s.fwd ∧ t.qos = s.qos ∧
    t.mesh = s.mesh ∧ t.pins = s.pins ∧ t.power = s.power ∧ t.jtag = s.jtag ∧ t.pair = s.pair ∧ t.svc = s.svc ∧
    t.snap = s.snap ∧ t.bist = s.bist ∧ t.trace = s.trace ∧ t.draws = s.draws ∧ t.pending = s.pending := by
  unfold State.allDown
  repeat' (first | split | simp)

@[simp] theorem State.stopContexts_frame (s : State) :
    let t := State.stopContexts s
    t.ms = s.ms ∧ t.host = s.host ∧ t.cfg = s.cfg ∧ t.nv = s.nv ∧ t.procs = s.procs ∧ t.time = s.time ∧
    t.ports = s.ports ∧ t.fwd = s.fwd ∧ t.qos = s.qos ∧ t.mesh = s.mesh ∧ t.pins = s.pins ∧ t.power = s.power ∧
    t.jtag = s.jtag ∧ t.pair = s.pair ∧ t.svc = s.svc ∧ t.snap = s.snap ∧ t.bist = s.bist ∧ t.trace = s.trace ∧
    t.ctr = s.ctr ∧ t.draws = s.draws ∧ t.pending = s.pending := by
  unfold State.stopContexts
  repeat' (first | split | simp)

@[simp] theorem State.setStart_frame (s : State) :
    let t := State.setStart s
    t.host = s.host ∧ t.cfg = s.cfg ∧ t.nv = s.nv ∧ t.procs = s.procs ∧ t.time = s.time ∧ t.ports = s.ports ∧
    t.fwd = s.fwd ∧ t.qos = s.qos ∧ t.radio = s.radio ∧ t.mesh = s.mesh ∧ t.pins = s.pins ∧ t.power = s.power ∧
    t.jtag = s.jtag ∧ t.pair = s.pair ∧ t.svc = s.svc ∧ t.snap = s.snap ∧ t.bist = s.bist ∧ t.trace = s.trace ∧
    t.ctr = s.ctr ∧ t.draws = s.draws ∧ t.pending = s.pending := by
  unfold State.setStart
  repeat' (first | split | simp)

@[simp] theorem State.changeMode_frame (s : State) (new) (t_) (cause) :
    let t := State.changeMode s new t_ cause
    t.cfg = s.cfg ∧ t.nv = s.nv ∧ t.procs = s.procs ∧ t.time = s.time ∧ t.fwd = s.fwd ∧ t.qos = s.qos ∧
    t.mesh = s.mesh ∧ t.power = s.power ∧ t.jtag = s.jtag ∧ t.snap = s.snap ∧ t.bist = s.bist ∧ t.pending = s.pending := by
  unfold State.changeMode
  repeat' (first | split | simp)

@[simp] theorem State.enterSafe_frame (s : State) (cause) :
    let t := State.enterSafe s cause
    t.cfg = s.cfg ∧ t.nv = s.nv ∧ t.procs = s.procs ∧ t.time = s.time ∧ t.fwd = s.fwd ∧ t.qos = s.qos ∧
    t.mesh = s.mesh ∧ t.power = s.power ∧ t.jtag = s.jtag ∧ t.snap = s.snap ∧ t.bist = s.bist ∧ t.pending = s.pending := by
  unfold State.enterSafe
  repeat' (first | split | simp)

@[simp] theorem State.readBlobs_frame (s : State) :
    let t := State.readBlobs s
    t.host = s.host ∧ t.nv = s.nv ∧ t.procs = s.procs ∧ t.time = s.time ∧ t.fwd = s.fwd ∧ t.qos = s.qos ∧
    t.radio = s.radio ∧ t.mesh = s.mesh ∧ t.power = s.power ∧ t.jtag = s.jtag ∧ t.pair = s.pair ∧ t.svc = s.svc ∧
    t.snap = s.snap ∧ t.bist = s.bist ∧ t.trace = s.trace ∧ t.ctr = s.ctr ∧ t.draws = s.draws ∧ t.pending = s.pending := by
  unfold State.readBlobs
  repeat' (first | split | simp)

@[simp] theorem State.useBlob_frame (s : State) (b) :
    let t := State.useBlob s b
    t.host = s.host ∧ t.cfg = s.cfg ∧ t.procs = s.procs ∧ t.time = s.time ∧ t.ports = s.ports ∧ t.fwd = s.fwd ∧
    t.qos = s.qos ∧ t.radio = s.radio ∧ t.mesh = s.mesh ∧ t.pins = s.pins ∧ t.power = s.power ∧ t.jtag = s.jtag ∧
    t.pair = s.pair ∧ t.svc = s.svc ∧ t.snap = s.snap ∧ t.bist = s.bist ∧ t.trace = s.trace ∧ t.ctr = s.ctr ∧
    t.draws = s.draws ∧ t.pending = s.pending := by
  unfold State.useBlob
  repeat' (first | split | simp)

@[simp] theorem State.chooseBlob_frame (s : State) (x1) :
    let t := State.chooseBlob s x1
    t.host = s.host ∧ t.cfg = s.cfg ∧ t.procs = s.procs ∧ t.time = s.time ∧ t.ports = s.ports ∧ t.fwd = s.fwd ∧
    t.qos = s.qos ∧ t.radio = s.radio ∧ t.mesh = s.mesh ∧ t.pins = s.pins ∧ t.power = s.power ∧ t.jtag = s.jtag ∧
    t.pair = s.pair ∧ t.svc = s.svc ∧ t.snap = s.snap ∧ t.bist = s.bist ∧ t.trace = s.trace ∧ t.ctr = s.ctr ∧
    t.draws = s.draws ∧ t.pending = s.pending := by
  unfold State.chooseBlob
  repeat' (first | split | simp)

@[simp] theorem State.rejectBank_frame (s : State) (bank) (reason) :
    let t := State.rejectBank s bank reason
    t.host = s.host ∧ t.cfg = s.cfg ∧ t.procs = s.procs ∧ t.time = s.time ∧ t.ports = s.ports ∧ t.fwd = s.fwd ∧
    t.qos = s.qos ∧ t.radio = s.radio ∧ t.mesh = s.mesh ∧ t.pins = s.pins ∧ t.power = s.power ∧ t.jtag = s.jtag ∧
    t.pair = s.pair ∧ t.svc = s.svc ∧ t.snap = s.snap ∧ t.bist = s.bist ∧ t.trace = s.trace ∧ t.ctr = s.ctr ∧
    t.draws = s.draws ∧ t.pending = s.pending := by
  unfold State.rejectBank
  repeat' (first | split | simp)

@[simp] theorem State.tryBank_frame (s : State) (bank) (committed) :
    let t := (State.tryBank s bank committed).1
    t.host = s.host ∧ t.cfg = s.cfg ∧ t.procs = s.procs ∧ t.time = s.time ∧ t.ports = s.ports ∧ t.fwd = s.fwd ∧
    t.qos = s.qos ∧ t.radio = s.radio ∧ t.mesh = s.mesh ∧ t.pins = s.pins ∧ t.power = s.power ∧ t.jtag = s.jtag ∧
    t.pair = s.pair ∧ t.svc = s.svc ∧ t.snap = s.snap ∧ t.bist = s.bist ∧ t.trace = s.trace ∧ t.ctr = s.ctr ∧
    t.draws = s.draws ∧ t.pending = s.pending := by
  unfold State.tryBank
  repeat' (first | split | simp)

@[simp] theorem State.selectBank_frame (s : State) :
    let t := (State.selectBank s).1
    t.host = s.host ∧ t.cfg = s.cfg ∧ t.procs = s.procs ∧ t.time = s.time ∧ t.ports = s.ports ∧ t.fwd = s.fwd ∧
    t.qos = s.qos ∧ t.radio = s.radio ∧ t.mesh = s.mesh ∧ t.pins = s.pins ∧ t.power = s.power ∧ t.jtag = s.jtag ∧
    t.pair = s.pair ∧ t.svc = s.svc ∧ t.snap = s.snap ∧ t.bist = s.bist ∧ t.trace = s.trace ∧ t.ctr = s.ctr ∧
    t.draws = s.draws ∧ t.pending = s.pending := by
  unfold State.selectBank
  repeat' (first | split | simp)

@[simp] theorem State.takeSet_frame (s : State) (bank) (x2) :
    let t := State.takeSet s bank x2
    t.host = s.host ∧ t.cfg = s.cfg ∧ t.nv = s.nv ∧ t.procs = s.procs ∧ t.time = s.time ∧ t.ports = s.ports ∧
    t.fwd = s.fwd ∧ t.qos = s.qos ∧ t.mesh = s.mesh ∧ t.pins = s.pins ∧ t.power = s.power ∧ t.jtag = s.jtag ∧
    t.pair = s.pair ∧ t.svc = s.svc ∧ t.snap = s.snap ∧ t.bist = s.bist ∧ t.trace = s.trace ∧ t.ctr = s.ctr ∧
    t.draws = s.draws ∧ t.pending = s.pending := by
  unfold State.takeSet
  repeat' (first | split | simp)

@[simp] theorem State.rewrap_frame (s : State) (x1) :
    let t := State.rewrap s x1
    t.host = s.host ∧ t.cfg = s.cfg ∧ t.procs = s.procs ∧ t.time = s.time ∧ t.ports = s.ports ∧ t.fwd = s.fwd ∧
    t.qos = s.qos ∧ t.radio = s.radio ∧ t.mesh = s.mesh ∧ t.pins = s.pins ∧ t.power = s.power ∧ t.jtag = s.jtag ∧
    t.pair = s.pair ∧ t.svc = s.svc ∧ t.snap = s.snap ∧ t.bist = s.bist ∧ t.trace = s.trace ∧ t.ctr = s.ctr ∧
    t.draws = s.draws ∧ t.pending = s.pending := by
  unfold State.rewrap
  repeat' (first | split | simp)

@[simp] theorem State.takeMark_frame (s : State) :
    let t := State.takeMark s
    t.host = s.host ∧ t.cfg = s.cfg ∧ t.procs = s.procs ∧ t.time = s.time ∧ t.ports = s.ports ∧ t.fwd = s.fwd ∧
    t.qos = s.qos ∧ t.radio = s.radio ∧ t.mesh = s.mesh ∧ t.pins = s.pins ∧ t.power = s.power ∧ t.jtag = s.jtag ∧
    t.pair = s.pair ∧ t.svc = s.svc ∧ t.snap = s.snap ∧ t.bist = s.bist ∧ t.trace = s.trace ∧ t.ctr = s.ctr ∧
    t.draws = s.draws ∧ t.pending = s.pending := by
  unfold State.takeMark
  repeat' (first | split | simp)

@[simp] theorem State.writeMaps_frame (s : State) :
    let t := State.writeMaps s
    t.host = s.host ∧ t.cfg = s.cfg ∧ t.nv = s.nv ∧ t.procs = s.procs ∧ t.time = s.time ∧ t.ports = s.ports ∧
    t.fwd = s.fwd ∧ t.qos = s.qos ∧ t.radio = s.radio ∧ t.mesh = s.mesh ∧ t.pins = s.pins ∧ t.power = s.power ∧
    t.jtag = s.jtag ∧ t.pair = s.pair ∧ t.svc = s.svc ∧ t.snap = s.snap ∧ t.bist = s.bist ∧ t.trace = s.trace ∧
    t.ctr = s.ctr ∧ t.draws = s.draws ∧ t.pending = s.pending := by
  unfold State.writeMaps
  repeat' (first | split | simp)

@[simp] theorem State.bootChain_frame (s : State) (b) :
    let t := State.bootChain s b
    t.procs = s.procs ∧ t.time = s.time ∧ t.fwd = s.fwd ∧ t.qos = s.qos ∧ t.mesh = s.mesh ∧ t.power = s.power ∧
    t.jtag = s.jtag ∧ t.snap = s.snap ∧ t.bist = s.bist ∧ t.pending = s.pending := by
  unfold State.bootChain
  repeat' (first | split | simp)

@[simp] theorem State.toSolo_frame (s : State) (t_) :
    let t := State.toSolo s t_
    t.cfg = s.cfg ∧ t.nv = s.nv ∧ t.procs = s.procs ∧ t.time = s.time ∧ t.fwd = s.fwd ∧ t.qos = s.qos ∧
    t.mesh = s.mesh ∧ t.power = s.power ∧ t.jtag = s.jtag ∧ t.snap = s.snap ∧ t.bist = s.bist ∧ t.pending = s.pending := by
  unfold State.toSolo
  repeat' (first | split | simp)

@[simp] theorem State.toStandby_frame (s : State) (t_) :
    let t := State.toStandby s t_
    t.cfg = s.cfg ∧ t.nv = s.nv ∧ t.procs = s.procs ∧ t.time = s.time ∧ t.fwd = s.fwd ∧ t.qos = s.qos ∧
    t.mesh = s.mesh ∧ t.power = s.power ∧ t.jtag = s.jtag ∧ t.snap = s.snap ∧ t.bist = s.bist ∧ t.pending = s.pending := by
  unfold State.toStandby
  repeat' (first | split | simp)

@[simp] theorem State.leaveBoot_frame (s : State) :
    let t := State.leaveBoot s
    t.cfg = s.cfg ∧ t.nv = s.nv ∧ t.procs = s.procs ∧ t.time = s.time ∧ t.fwd = s.fwd ∧ t.qos = s.qos ∧
    t.mesh = s.mesh ∧ t.power = s.power ∧ t.jtag = s.jtag ∧ t.snap = s.snap ∧ t.bist = s.bist ∧ t.pending = s.pending := by
  unfold State.leaveBoot
  repeat' (first | split | simp)

@[simp] theorem State.applySlices_frame (s : State) (l) :
    let t := State.applySlices s l
    t.ms = s.ms ∧ t.host = s.host ∧ t.cfg = s.cfg ∧ t.nv = s.nv ∧ t.procs = s.procs ∧ t.time = s.time ∧
    t.fwd = s.fwd ∧ t.mesh = s.mesh ∧ t.pins = s.pins ∧ t.power = s.power ∧ t.jtag = s.jtag ∧ t.pair = s.pair ∧
    t.svc = s.svc ∧ t.snap = s.snap ∧ t.trace = s.trace ∧ t.ctr = s.ctr ∧ t.draws = s.draws ∧ t.pending = s.pending := by
  unfold State.applySlices
  repeat' (first | split | simp)

@[simp] theorem State.bistEntry_frame (s : State) (type) (kind) (slice) (spare) (result) :
    let t := State.bistEntry s type kind slice spare result
    t.ms = s.ms ∧ t.cfg = s.cfg ∧ t.nv = s.nv ∧ t.procs = s.procs ∧ t.time = s.time ∧ t.ports = s.ports ∧
    t.fwd = s.fwd ∧ t.qos = s.qos ∧ t.radio = s.radio ∧ t.mesh = s.mesh ∧ t.pins = s.pins ∧ t.power = s.power ∧
    t.jtag = s.jtag ∧ t.pair = s.pair ∧ t.svc = s.svc ∧ t.snap = s.snap ∧ t.bist = s.bist ∧ t.trace = s.trace ∧
    t.ctr = s.ctr ∧ t.draws = s.draws ∧ t.pending = s.pending := by
  unfold State.bistEntry
  repeat' (first | split | simp)

@[simp] theorem State.levelFault_frame (s : State) (level) (action) (number) (cause) :
    let t := State.levelFault s level action number cause
    t.ms = s.ms ∧ t.cfg = s.cfg ∧ t.nv = s.nv ∧ t.procs = s.procs ∧ t.time = s.time ∧ t.ports = s.ports ∧
    t.fwd = s.fwd ∧ t.qos = s.qos ∧ t.radio = s.radio ∧ t.mesh = s.mesh ∧ t.pins = s.pins ∧ t.power = s.power ∧
    t.jtag = s.jtag ∧ t.pair = s.pair ∧ t.svc = s.svc ∧ t.snap = s.snap ∧ t.bist = s.bist ∧ t.trace = s.trace ∧
    t.ctr = s.ctr ∧ t.draws = s.draws ∧ t.pending = s.pending := by
  unfold State.levelFault
  repeat' (first | split | simp)

@[simp] theorem State.drawResult_frame (s : State) :
    let t := (State.drawResult s).2
    t.ms = s.ms ∧ t.host = s.host ∧ t.cfg = s.cfg ∧ t.nv = s.nv ∧ t.procs = s.procs ∧ t.time = s.time ∧
    t.ports = s.ports ∧ t.fwd = s.fwd ∧ t.qos = s.qos ∧ t.radio = s.radio ∧ t.mesh = s.mesh ∧ t.pins = s.pins ∧
    t.power = s.power ∧ t.jtag = s.jtag ∧ t.pair = s.pair ∧ t.svc = s.svc ∧ t.snap = s.snap ∧ t.bist = s.bist ∧
    t.trace = s.trace ∧ t.ctr = s.ctr ∧ t.pending = s.pending := by
  unfold State.drawResult
  repeat' (first | split | simp)

@[simp] theorem State.tellSpared_frame (s : State) (y) :
    let t := State.tellSpared s y
    t.ms = s.ms ∧ t.cfg = s.cfg ∧ t.nv = s.nv ∧ t.procs = s.procs ∧ t.time = s.time ∧ t.ports = s.ports ∧
    t.fwd = s.fwd ∧ t.qos = s.qos ∧ t.radio = s.radio ∧ t.mesh = s.mesh ∧ t.pins = s.pins ∧ t.power = s.power ∧
    t.jtag = s.jtag ∧ t.pair = s.pair ∧ t.svc = s.svc ∧ t.snap = s.snap ∧ t.bist = s.bist ∧ t.trace = s.trace ∧
    t.ctr = s.ctr ∧ t.pending = s.pending := by
  unfold State.tellSpared
  repeat' (first | split | simp)

@[simp] theorem State.tellRemoved_frame (s : State) (x1) :
    let t := State.tellRemoved s x1
    t.ms = s.ms ∧ t.cfg = s.cfg ∧ t.nv = s.nv ∧ t.procs = s.procs ∧ t.time = s.time ∧ t.ports = s.ports ∧
    t.fwd = s.fwd ∧ t.qos = s.qos ∧ t.radio = s.radio ∧ t.mesh = s.mesh ∧ t.pins = s.pins ∧ t.power = s.power ∧
    t.jtag = s.jtag ∧ t.pair = s.pair ∧ t.svc = s.svc ∧ t.snap = s.snap ∧ t.bist = s.bist ∧ t.trace = s.trace ∧
    t.ctr = s.ctr ∧ t.pending = s.pending := by
  unfold State.tellRemoved
  repeat' (first | split | simp)

@[simp] theorem State.tellUnusable_frame (s : State) (x1) :
    let t := State.tellUnusable s x1
    t.ms = s.ms ∧ t.cfg = s.cfg ∧ t.nv = s.nv ∧ t.procs = s.procs ∧ t.time = s.time ∧ t.ports = s.ports ∧
    t.fwd = s.fwd ∧ t.qos = s.qos ∧ t.radio = s.radio ∧ t.mesh = s.mesh ∧ t.pins = s.pins ∧ t.power = s.power ∧
    t.jtag = s.jtag ∧ t.pair = s.pair ∧ t.svc = s.svc ∧ t.snap = s.snap ∧ t.bist = s.bist ∧ t.trace = s.trace ∧
    t.ctr = s.ctr ∧ t.draws = s.draws ∧ t.pending = s.pending := by
  unfold State.tellUnusable
  repeat' (first | split | simp)

@[simp] theorem State.tellDie_frame (s : State) :
    let t := State.tellDie s
    t.cfg = s.cfg ∧ t.nv = s.nv ∧ t.procs = s.procs ∧ t.time = s.time ∧ t.ports = s.ports ∧ t.fwd = s.fwd ∧
    t.qos = s.qos ∧ t.radio = s.radio ∧ t.mesh = s.mesh ∧ t.pins = s.pins ∧ t.power = s.power ∧ t.jtag = s.jtag ∧
    t.pair = s.pair ∧ t.svc = s.svc ∧ t.snap = s.snap ∧ t.bist = s.bist ∧ t.trace = s.trace ∧ t.ctr = s.ctr ∧
    t.draws = s.draws ∧ t.pending = s.pending := by
  unfold State.tellDie
  repeat' (first | split | simp)

@[simp] theorem State.tellSlices_frame (s : State) :
    let t := State.tellSlices s
    t.cfg = s.cfg ∧ t.nv = s.nv ∧ t.procs = s.procs ∧ t.time = s.time ∧ t.ports = s.ports ∧ t.fwd = s.fwd ∧
    t.qos = s.qos ∧ t.mesh = s.mesh ∧ t.pins = s.pins ∧ t.power = s.power ∧ t.jtag = s.jtag ∧ t.pair = s.pair ∧
    t.svc = s.svc ∧ t.snap = s.snap ∧ t.bist = s.bist ∧ t.trace = s.trace ∧ t.ctr = s.ctr ∧ t.pending = s.pending := by
  unfold State.tellSlices
  repeat' (first | split | simp)

@[simp] theorem State.tellEntries_frame (s : State) :
    let t := State.tellEntries s
    t.cfg = s.cfg ∧ t.nv = s.nv ∧ t.procs = s.procs ∧ t.time = s.time ∧ t.ports = s.ports ∧ t.fwd = s.fwd ∧
    t.qos = s.qos ∧ t.radio = s.radio ∧ t.mesh = s.mesh ∧ t.pins = s.pins ∧ t.power = s.power ∧ t.jtag = s.jtag ∧
    t.pair = s.pair ∧ t.svc = s.svc ∧ t.snap = s.snap ∧ t.bist = s.bist ∧ t.trace = s.trace ∧ t.ctr = s.ctr ∧
    t.draws = s.draws ∧ t.pending = s.pending := by
  unfold State.tellEntries
  repeat' (first | split | simp)

@[simp] theorem State.tellRails_frame (s : State) :
    let t := State.tellRails s
    t.ms = s.ms ∧ t.cfg = s.cfg ∧ t.nv = s.nv ∧ t.procs = s.procs ∧ t.time = s.time ∧ t.ports = s.ports ∧
    t.fwd = s.fwd ∧ t.qos = s.qos ∧ t.radio = s.radio ∧ t.mesh = s.mesh ∧ t.pins = s.pins ∧ t.power = s.power ∧
    t.jtag = s.jtag ∧ t.pair = s.pair ∧ t.svc = s.svc ∧ t.snap = s.snap ∧ t.bist = s.bist ∧ t.trace = s.trace ∧
    t.ctr = s.ctr ∧ t.draws = s.draws ∧ t.pending = s.pending := by
  unfold State.tellRails
  repeat' (first | split | simp)

@[simp] theorem State.tellKeys_frame (s : State) :
    let t := State.tellKeys s
    t.ms = s.ms ∧ t.cfg = s.cfg ∧ t.procs = s.procs ∧ t.time = s.time ∧ t.ports = s.ports ∧ t.fwd = s.fwd ∧
    t.qos = s.qos ∧ t.pins = s.pins ∧ t.power = s.power ∧ t.jtag = s.jtag ∧ t.svc = s.svc ∧ t.snap = s.snap ∧
    t.bist = s.bist ∧ t.trace = s.trace ∧ t.draws = s.draws ∧ t.pending = s.pending := by
  unfold State.tellKeys
  repeat' (first | split | simp)

@[simp] theorem State.advanceAll_frame (s : State) :
    let t := State.advanceAll s
    t.ms = s.ms ∧ t.cfg = s.cfg ∧ t.procs = s.procs ∧ t.time = s.time ∧ t.ports = s.ports ∧ t.fwd = s.fwd ∧
    t.qos = s.qos ∧ t.radio = s.radio ∧ t.pins = s.pins ∧ t.power = s.power ∧ t.jtag = s.jtag ∧ t.pair = s.pair ∧
    t.svc = s.svc ∧ t.snap = s.snap ∧ t.bist = s.bist ∧ t.trace = s.trace ∧ t.draws = s.draws ∧ t.pending = s.pending := by
  unfold State.advanceAll
  repeat' (first | split | simp)

@[simp] theorem State.resumeNode_frame (s : State) (e) :
    let t := State.resumeNode s e
    t.ms = s.ms ∧ t.host = s.host ∧ t.cfg = s.cfg ∧ t.nv = s.nv ∧ t.procs = s.procs ∧ t.time = s.time ∧
    t.ports = s.ports ∧ t.fwd = s.fwd ∧ t.qos = s.qos ∧ t.radio = s.radio ∧ t.pins = s.pins ∧ t.power = s.power ∧
    t.jtag = s.jtag ∧ t.pair = s.pair ∧ t.svc = s.svc ∧ t.snap = s.snap ∧ t.bist = s.bist ∧ t.trace = s.trace ∧
    t.ctr = s.ctr ∧ t.draws = s.draws ∧ t.pending = s.pending := by
  unfold State.resumeNode
  repeat' (first | split | simp)

@[simp] theorem State.resumeNodes_frame (s : State) :
    let t := State.resumeNodes s
    t.ms = s.ms ∧ t.host = s.host ∧ t.cfg = s.cfg ∧ t.procs = s.procs ∧ t.time = s.time ∧ t.ports = s.ports ∧
    t.fwd = s.fwd ∧ t.qos = s.qos ∧ t.radio = s.radio ∧ t.pins = s.pins ∧ t.power = s.power ∧ t.jtag = s.jtag ∧
    t.pair = s.pair ∧ t.svc = s.svc ∧ t.snap = s.snap ∧ t.bist = s.bist ∧ t.trace = s.trace ∧ t.ctr = s.ctr ∧
    t.draws = s.draws ∧ t.pending = s.pending := by
  unfold State.resumeNodes
  repeat' (first | split | simp)

@[simp] theorem State.bootSettings_frame (s : State) :
    let t := State.bootSettings s
    t.ms = s.ms ∧ t.host = s.host ∧ t.nv = s.nv ∧ t.procs = s.procs ∧ t.time = s.time ∧ t.ports = s.ports ∧
    t.fwd = s.fwd ∧ t.qos = s.qos ∧ t.radio = s.radio ∧ t.mesh = s.mesh ∧ t.pins = s.pins ∧ t.power = s.power ∧
    t.jtag = s.jtag ∧ t.pair = s.pair ∧ t.svc = s.svc ∧ t.snap = s.snap ∧ t.bist = s.bist ∧ t.trace = s.trace ∧
    t.ctr = s.ctr ∧ t.draws = s.draws ∧ t.pending = s.pending := by
  unfold State.bootSettings
  repeat' (first | split | simp)

@[simp] theorem State.supplied_frame (s : State) (vbat) (io18) (io33) :
    let t := State.supplied s vbat io18 io33
    t.host = s.host ∧ t.cfg = s.cfg ∧ t.nv = s.nv ∧ t.procs = s.procs ∧ t.ports = s.ports ∧ t.fwd = s.fwd ∧
    t.qos = s.qos ∧ t.radio = s.radio ∧ t.mesh = s.mesh ∧ t.jtag = s.jtag ∧ t.pair = s.pair ∧ t.svc = s.svc ∧
    t.snap = s.snap ∧ t.bist = s.bist ∧ t.trace = s.trace ∧ t.ctr = s.ctr ∧ t.draws = s.draws ∧ t.pending = s.pending := by
  unfold State.supplied
  repeat' (first | split | simp)

@[simp] theorem State.thermalEntry_frame (s : State) (type) (die) (temp) :
    let t := State.thermalEntry s type die temp
    t.ms = s.ms ∧ t.cfg = s.cfg ∧ t.nv = s.nv ∧ t.procs = s.procs ∧ t.time = s.time ∧ t.ports = s.ports ∧
    t.fwd = s.fwd ∧ t.qos = s.qos ∧ t.radio = s.radio ∧ t.mesh = s.mesh ∧ t.pins = s.pins ∧ t.power = s.power ∧
    t.jtag = s.jtag ∧ t.pair = s.pair ∧ t.svc = s.svc ∧ t.snap = s.snap ∧ t.bist = s.bist ∧ t.trace = s.trace ∧
    t.ctr = s.ctr ∧ t.draws = s.draws ∧ t.pending = s.pending := by
  unfold State.thermalEntry
  repeat' (first | split | simp)

@[simp] theorem State.dieWarning_frame (s : State) (v) :
    let t := State.dieWarning s v
    t.ms = s.ms ∧ t.cfg = s.cfg ∧ t.nv = s.nv ∧ t.procs = s.procs ∧ t.time = s.time ∧ t.ports = s.ports ∧
    t.fwd = s.fwd ∧ t.qos = s.qos ∧ t.radio = s.radio ∧ t.mesh = s.mesh ∧ t.pins = s.pins ∧ t.jtag = s.jtag ∧
    t.pair = s.pair ∧ t.svc = s.svc ∧ t.snap = s.snap ∧ t.bist = s.bist ∧ t.trace = s.trace ∧ t.ctr = s.ctr ∧
    t.draws = s.draws ∧ t.pending = s.pending := by
  unfold State.dieWarning
  repeat' (first | split | simp)

@[simp] theorem State.hbmWarning_frame (s : State) (v) :
    let t := State.hbmWarning s v
    t.ms = s.ms ∧ t.cfg = s.cfg ∧ t.nv = s.nv ∧ t.procs = s.procs ∧ t.time = s.time ∧ t.ports = s.ports ∧
    t.fwd = s.fwd ∧ t.qos = s.qos ∧ t.radio = s.radio ∧ t.mesh = s.mesh ∧ t.pins = s.pins ∧ t.jtag = s.jtag ∧
    t.pair = s.pair ∧ t.svc = s.svc ∧ t.snap = s.snap ∧ t.bist = s.bist ∧ t.trace = s.trace ∧ t.ctr = s.ctr ∧
    t.draws = s.draws ∧ t.pending = s.pending := by
  unfold State.hbmWarning
  repeat' (first | split | simp)

@[simp] theorem State.unlockLane_frame (s : State) (l) :
    let t := State.unlockLane s l
    t.ms = s.ms ∧ t.host = s.host ∧ t.cfg = s.cfg ∧ t.nv = s.nv ∧ t.procs = s.procs ∧ t.time = s.time ∧
    t.fwd = s.fwd ∧ t.qos = s.qos ∧ t.radio = s.radio ∧ t.mesh = s.mesh ∧ t.pins = s.pins ∧ t.power = s.power ∧
    t.jtag = s.jtag ∧ t.pair = s.pair ∧ t.svc = s.svc ∧ t.snap = s.snap ∧ t.bist = s.bist ∧ t.trace = s.trace ∧
    t.draws = s.draws ∧ t.pending = s.pending := by
  unfold State.unlockLane
  repeat' (first | split | simp)

@[simp] theorem State.tileLost_frame (s : State) (tile) :
    let t := State.tileLost s tile
    t.ms = s.ms ∧ t.cfg = s.cfg ∧ t.nv = s.nv ∧ t.procs = s.procs ∧ t.time = s.time ∧ t.fwd = s.fwd ∧ t.qos = s.qos ∧
    t.mesh = s.mesh ∧ t.power = s.power ∧ t.jtag = s.jtag ∧ t.pair = s.pair ∧ t.svc = s.svc ∧ t.snap = s.snap ∧
    t.bist = s.bist ∧ t.trace = s.trace ∧ t.draws = s.draws ∧ t.pending = s.pending := by
  unfold State.tileLost
  repeat' (first | split | simp)

@[simp] theorem State.resetPipe_frame (s : State) (pipe) :
    let t := State.resetPipe s pipe
    t.ms = s.ms ∧ t.host = s.host ∧ t.cfg = s.cfg ∧ t.nv = s.nv ∧ t.procs = s.procs ∧ t.time = s.time ∧
    t.ports = s.ports ∧ t.qos = s.qos ∧ t.radio = s.radio ∧ t.mesh = s.mesh ∧ t.pins = s.pins ∧ t.power = s.power ∧
    t.jtag = s.jtag ∧ t.pair = s.pair ∧ t.svc = s.svc ∧ t.snap = s.snap ∧ t.bist = s.bist ∧ t.trace = s.trace ∧
    t.draws = s.draws ∧ t.pending = s.pending := by
  unfold State.resetPipe
  repeat' (first | split | simp)

@[simp] theorem State.resetPort_frame (s : State) (p) :
    let t := State.resetPort s p
    t.ms = s.ms ∧ t.cfg = s.cfg ∧ t.nv = s.nv ∧ t.procs = s.procs ∧ t.time = s.time ∧ t.fwd = s.fwd ∧
    t.mesh = s.mesh ∧ t.pins = s.pins ∧ t.power = s.power ∧ t.jtag = s.jtag ∧ t.pair = s.pair ∧ t.svc = s.svc ∧
    t.snap = s.snap ∧ t.bist = s.bist ∧ t.trace = s.trace ∧ t.draws = s.draws ∧ t.pending = s.pending := by
  unfold State.resetPort
  repeat' (first | split | simp)

@[simp] theorem State.beginReset_frame (s : State) (level) (number) :
    let t := State.beginReset s level number
    t.ms = s.ms ∧ t.cfg = s.cfg ∧ t.nv = s.nv ∧ t.procs = s.procs ∧ t.time = s.time ∧ t.mesh = s.mesh ∧
    t.pins = s.pins ∧ t.power = s.power ∧ t.jtag = s.jtag ∧ t.pair = s.pair ∧ t.svc = s.svc ∧ t.snap = s.snap ∧
    t.bist = s.bist ∧ t.trace = s.trace ∧ t.draws = s.draws ∧ t.pending = s.pending := by
  unfold State.beginReset
  repeat' (first | split | simp)

@[simp] theorem State.abandonResets_frame (s : State) :
    let t := State.abandonResets s
    t.ms = s.ms ∧ t.host = s.host ∧ t.cfg = s.cfg ∧ t.nv = s.nv ∧ t.procs = s.procs ∧ t.time = s.time ∧
    t.fwd = s.fwd ∧ t.qos = s.qos ∧ t.radio = s.radio ∧ t.mesh = s.mesh ∧ t.pins = s.pins ∧ t.power = s.power ∧
    t.jtag = s.jtag ∧ t.pair = s.pair ∧ t.svc = s.svc ∧ t.snap = s.snap ∧ t.bist = s.bist ∧ t.trace = s.trace ∧
    t.ctr = s.ctr ∧ t.draws = s.draws ∧ t.pending = s.pending := by
  unfold State.abandonResets
  repeat' (first | split | simp)

@[simp] theorem State.endReset_frame (s : State) (level) (number) (out) :
    let t := State.endReset s level number out
    t.ms = s.ms ∧ t.host = s.host ∧ t.cfg = s.cfg ∧ t.nv = s.nv ∧ t.procs = s.procs ∧ t.time = s.time ∧
    t.fwd = s.fwd ∧ t.qos = s.qos ∧ t.radio = s.radio ∧ t.mesh = s.mesh ∧ t.pins = s.pins ∧ t.power = s.power ∧
    t.jtag = s.jtag ∧ t.pair = s.pair ∧ t.svc = s.svc ∧ t.snap = s.snap ∧ t.bist = s.bist ∧ t.trace = s.trace ∧
    t.ctr = s.ctr ∧ t.draws = s.draws ∧ t.pending = s.pending := by
  unfold State.endReset
  repeat' (first | split | simp)

end Sys2Proof.Machine
end

