-- ==== Sys2Proof/Laws/FrameCmds.lean ====
section
/-! SUPPORT. Frames of the operations of the commands: for each operation, the parts of the
state that it leaves as they were. -/

namespace Sys2Proof.Machine

@[simp] theorem State.stageKey_frame (s : State) (r) (op) :
    let t := (State.stageKey s r op).1
    t.ms = s.ms ∧ t.host = s.host ∧ t.cfg = s.cfg ∧ t.procs = s.procs ∧ t.time = s.time ∧ t.ports = s.ports ∧
    t.fwd = s.fwd ∧ t.qos = s.qos ∧ t.radio = s.radio ∧ t.mesh = s.mesh ∧ t.pins = s.pins ∧ t.power = s.power ∧
    t.jtag = s.jtag ∧ t.pair = s.pair ∧ t.svc = s.svc ∧ t.snap = s.snap ∧ t.bist = s.bist ∧ t.trace = s.trace ∧
    t.ctr = s.ctr ∧ t.draws = s.draws ∧ t.pending = s.pending := by
  unfold State.stageKey
  repeat' (first | split | simp)

@[simp] theorem State.applyKey_frame (s : State) (x1) :
    let t := State.applyKey s x1
    t.ms = s.ms ∧ t.host = s.host ∧ t.cfg = s.cfg ∧ t.procs = s.procs ∧ t.time = s.time ∧ t.ports = s.ports ∧
    t.fwd = s.fwd ∧ t.qos = s.qos ∧ t.radio = s.radio ∧ t.mesh = s.mesh ∧ t.pins = s.pins ∧ t.power = s.power ∧
    t.jtag = s.jtag ∧ t.pair = s.pair ∧ t.svc = s.svc ∧ t.snap = s.snap ∧ t.bist = s.bist ∧ t.trace = s.trace ∧
    t.ctr = s.ctr ∧ t.draws = s.draws ∧ t.pending = s.pending := by
  unfold State.applyKey
  repeat' (first | split | simp)

@[simp] theorem State.keyView_frame (s : State) :
    let t := State.keyView s
    t.ms = s.ms ∧ t.host = s.host ∧ t.cfg = s.cfg ∧ t.procs = s.procs ∧ t.time = s.time ∧ t.ports = s.ports ∧
    t.fwd = s.fwd ∧ t.qos = s.qos ∧ t.radio = s.radio ∧ t.mesh = s.mesh ∧ t.pins = s.pins ∧ t.power = s.power ∧
    t.jtag = s.jtag ∧ t.pair = s.pair ∧ t.svc = s.svc ∧ t.snap = s.snap ∧ t.bist = s.bist ∧ t.trace = s.trace ∧
    t.ctr = s.ctr ∧ t.draws = s.draws ∧ t.pending = s.pending := by
  unfold State.keyView
  repeat' (first | split | simp)

@[simp] theorem State.rootValue_frame (s : State) (t_) :
    let t := (State.rootValue s t_).1
    t.ms = s.ms ∧ t.host = s.host ∧ t.cfg = s.cfg ∧ t.nv = s.nv ∧ t.procs = s.procs ∧ t.time = s.time ∧
    t.ports = s.ports ∧ t.fwd = s.fwd ∧ t.qos = s.qos ∧ t.radio = s.radio ∧ t.mesh = s.mesh ∧ t.pins = s.pins ∧
    t.power = s.power ∧ t.jtag = s.jtag ∧ t.svc = s.svc ∧ t.snap = s.snap ∧ t.bist = s.bist ∧ t.trace = s.trace ∧
    t.ctr = s.ctr ∧ t.pending = s.pending := by
  unfold State.rootValue
  repeat' (first | split | simp)

@[simp] theorem keyTenantRootCreateSpec_frame (r : Req) (s : State) :
    let t := (keyTenantRootCreateSpec.effect r s).1
    t.ms = s.ms ∧ t.host = s.host ∧ t.cfg = s.cfg ∧ t.procs = s.procs ∧ t.time = s.time ∧ t.ports = s.ports ∧
    t.fwd = s.fwd ∧ t.qos = s.qos ∧ t.radio = s.radio ∧ t.mesh = s.mesh ∧ t.pins = s.pins ∧ t.power = s.power ∧
    t.jtag = s.jtag ∧ t.svc = s.svc ∧ t.snap = s.snap ∧ t.bist = s.bist ∧ t.trace = s.trace ∧ t.ctr = s.ctr ∧
    t.pending = s.pending := by
  unfold keyTenantRootCreateSpec
  repeat' (first | split | simp)

@[simp] theorem keyDomainKeyCreateSpec_frame (r : Req) (s : State) :
    let t := (keyDomainKeyCreateSpec.effect r s).1
    t.ms = s.ms ∧ t.host = s.host ∧ t.cfg = s.cfg ∧ t.procs = s.procs ∧ t.time = s.time ∧ t.ports = s.ports ∧
    t.fwd = s.fwd ∧ t.qos = s.qos ∧ t.radio = s.radio ∧ t.mesh = s.mesh ∧ t.pins = s.pins ∧ t.power = s.power ∧
    t.jtag = s.jtag ∧ t.pair = s.pair ∧ t.svc = s.svc ∧ t.snap = s.snap ∧ t.bist = s.bist ∧ t.trace = s.trace ∧
    t.ctr = s.ctr ∧ t.draws = s.draws ∧ t.pending = s.pending := by
  unfold keyDomainKeyCreateSpec
  repeat' (first | split | simp)

@[simp] theorem State.importJoin_frame (s : State) (r) :
    let t := (State.importJoin s r).1
    t.ms = s.ms ∧ t.cfg = s.cfg ∧ t.procs = s.procs ∧ t.time = s.time ∧ t.ports = s.ports ∧ t.fwd = s.fwd ∧
    t.qos = s.qos ∧ t.pins = s.pins ∧ t.power = s.power ∧ t.jtag = s.jtag ∧ t.svc = s.svc ∧ t.snap = s.snap ∧
    t.bist = s.bist ∧ t.trace = s.trace ∧ t.pending = s.pending := by
  unfold State.importJoin
  repeat' (first | split | simp)

@[simp] theorem keyImportSpec_frame (r : Req) (s : State) :
    let t := (keyImportSpec.effect r s).1
    t.ms = s.ms ∧ t.cfg = s.cfg ∧ t.procs = s.procs ∧ t.time = s.time ∧ t.ports = s.ports ∧ t.fwd = s.fwd ∧
    t.qos = s.qos ∧ t.pins = s.pins ∧ t.power = s.power ∧ t.jtag = s.jtag ∧ t.svc = s.svc ∧ t.snap = s.snap ∧
    t.bist = s.bist ∧ t.trace = s.trace ∧ t.pending = s.pending := by
  unfold keyImportSpec
  repeat' (first | split | simp)

@[simp] theorem keyDestroySpec_frame (r : Req) (s : State) :
    let t := (keyDestroySpec.effect r s).1
    t.ms = s.ms ∧ t.host = s.host ∧ t.cfg = s.cfg ∧ t.procs = s.procs ∧ t.time = s.time ∧ t.ports = s.ports ∧
    t.fwd = s.fwd ∧ t.qos = s.qos ∧ t.radio = s.radio ∧ t.mesh = s.mesh ∧ t.pins = s.pins ∧ t.power = s.power ∧
    t.jtag = s.jtag ∧ t.pair = s.pair ∧ t.svc = s.svc ∧ t.snap = s.snap ∧ t.bist = s.bist ∧ t.trace = s.trace ∧
    t.ctr = s.ctr ∧ t.draws = s.draws ∧ t.pending = s.pending := by
  unfold keyDestroySpec
  repeat' (first | split | simp)

@[simp] theorem keySlotAssignSpec_frame (r : Req) (s : State) :
    let t := (keySlotAssignSpec.effect r s).1
    t.ms = s.ms ∧ t.host = s.host ∧ t.cfg = s.cfg ∧ t.procs = s.procs ∧ t.time = s.time ∧ t.ports = s.ports ∧
    t.fwd = s.fwd ∧ t.qos = s.qos ∧ t.radio = s.radio ∧ t.mesh = s.mesh ∧ t.pins = s.pins ∧ t.power = s.power ∧
    t.jtag = s.jtag ∧ t.pair = s.pair ∧ t.svc = s.svc ∧ t.snap = s.snap ∧ t.bist = s.bist ∧ t.trace = s.trace ∧
    t.ctr = s.ctr ∧ t.draws = s.draws ∧ t.pending = s.pending := by
  unfold keySlotAssignSpec
  repeat' (first | split | simp)

@[simp] theorem keySlotStatusSpec_frame (r : Req) (s : State) :
    let t := (keySlotStatusSpec.effect r s).1
    t.ms = s.ms ∧ t.host = s.host ∧ t.cfg = s.cfg ∧ t.nv = s.nv ∧ t.procs = s.procs ∧ t.time = s.time ∧
    t.ports = s.ports ∧ t.fwd = s.fwd ∧ t.qos = s.qos ∧ t.radio = s.radio ∧ t.mesh = s.mesh ∧ t.pins = s.pins ∧
    t.power = s.power ∧ t.jtag = s.jtag ∧ t.pair = s.pair ∧ t.svc = s.svc ∧ t.snap = s.snap ∧ t.bist = s.bist ∧
    t.trace = s.trace ∧ t.ctr = s.ctr ∧ t.draws = s.draws ∧ t.pending = s.pending := by
  unfold keySlotStatusSpec
  repeat' (first | split | simp)

@[simp] theorem State.publicOf_frame (s : State) (n) (k) :
    let t := (State.publicOf s n k).1
    t.ms = s.ms ∧ t.host = s.host ∧ t.cfg = s.cfg ∧ t.nv = s.nv ∧ t.procs = s.procs ∧ t.time = s.time ∧
    t.ports = s.ports ∧ t.fwd = s.fwd ∧ t.qos = s.qos ∧ t.radio = s.radio ∧ t.mesh = s.mesh ∧ t.pins = s.pins ∧
    t.power = s.power ∧ t.jtag = s.jtag ∧ t.pair = s.pair ∧ t.svc = s.svc ∧ t.snap = s.snap ∧ t.bist = s.bist ∧
    t.trace = s.trace ∧ t.pending = s.pending := by
  unfold State.publicOf
  repeat' (first | split | simp)

@[simp] theorem keyReadPublicSpec_frame (r : Req) (s : State) :
    let t := (keyReadPublicSpec.effect r s).1
    t.ms = s.ms ∧ t.cfg = s.cfg ∧ t.procs = s.procs ∧ t.time = s.time ∧ t.ports = s.ports ∧ t.fwd = s.fwd ∧
    t.qos = s.qos ∧ t.pins = s.pins ∧ t.power = s.power ∧ t.jtag = s.jtag ∧ t.svc = s.svc ∧ t.snap = s.snap ∧
    t.bist = s.bist ∧ t.trace = s.trace ∧ t.pending = s.pending := by
  unfold keyReadPublicSpec
  repeat' (first | split | simp)

@[simp] theorem keyCacheSharesSpec_frame (r : Req) (s : State) :
    let t := (keyCacheSharesSpec.effect r s).1
    t.ms = s.ms ∧ t.host = s.host ∧ t.cfg = s.cfg ∧ t.nv = s.nv ∧ t.procs = s.procs ∧ t.time = s.time ∧
    t.ports = s.ports ∧ t.fwd = s.fwd ∧ t.qos = s.qos ∧ t.radio = s.radio ∧ t.pins = s.pins ∧ t.power = s.power ∧
    t.jtag = s.jtag ∧ t.pair = s.pair ∧ t.svc = s.svc ∧ t.snap = s.snap ∧ t.bist = s.bist ∧ t.trace = s.trace ∧
    t.ctr = s.ctr ∧ t.draws = s.draws ∧ t.pending = s.pending := by
  unfold keyCacheSharesSpec
  repeat' (first | split | simp)

@[simp] theorem keyMapReadSpec_frame (r : Req) (s : State) :
    let t := (keyMapReadSpec.effect r s).1
    t.ms = s.ms ∧ t.host = s.host ∧ t.cfg = s.cfg ∧ t.nv = s.nv ∧ t.procs = s.procs ∧ t.time = s.time ∧
    t.ports = s.ports ∧ t.fwd = s.fwd ∧ t.qos = s.qos ∧ t.radio = s.radio ∧ t.mesh = s.mesh ∧ t.pins = s.pins ∧
    t.power = s.power ∧ t.jtag = s.jtag ∧ t.pair = s.pair ∧ t.svc = s.svc ∧ t.snap = s.snap ∧ t.bist = s.bist ∧
    t.trace = s.trace ∧ t.ctr = s.ctr ∧ t.draws = s.draws ∧ t.pending = s.pending := by
  unfold keyMapReadSpec
  repeat' (first | split | simp)

@[simp] theorem State.tellLeases_frame (s : State) (l) :
    let t := State.tellLeases s l
    t.ms = s.ms ∧ t.host = s.host ∧ t.cfg = s.cfg ∧ t.nv = s.nv ∧ t.procs = s.procs ∧ t.time = s.time ∧
    t.ports = s.ports ∧ t.fwd = s.fwd ∧ t.qos = s.qos ∧ t.radio = s.radio ∧ t.mesh = s.mesh ∧ t.pins = s.pins ∧
    t.power = s.power ∧ t.jtag = s.jtag ∧ t.svc = s.svc ∧ t.snap = s.snap ∧ t.bist = s.bist ∧ t.trace = s.trace ∧
    t.ctr = s.ctr ∧ t.draws = s.draws ∧ t.pending = s.pending := by
  unfold State.tellLeases
  repeat' (first | split | simp)

@[simp] theorem State.cutAnswered_frame (s : State) (r) :
    let t := State.cutAnswered s r
    t.ms = s.ms ∧ t.host = s.host ∧ t.cfg = s.cfg ∧ t.nv = s.nv ∧ t.procs = s.procs ∧ t.time = s.time ∧
    t.fwd = s.fwd ∧ t.qos = s.qos ∧ t.radio = s.radio ∧ t.mesh = s.mesh ∧ t.pins = s.pins ∧ t.power = s.power ∧
    t.jtag = s.jtag ∧ t.pair = s.pair ∧ t.svc = s.svc ∧ t.snap = s.snap ∧ t.bist = s.bist ∧ t.trace = s.trace ∧
    t.ctr = s.ctr ∧ t.draws = s.draws ∧ t.pending = s.pending := by
  unfold State.cutAnswered
  repeat' (first | split | simp)

@[simp] theorem State.commitOne_frame (s : State) (x1) :
    let t := State.commitOne s x1
    t.ms = s.ms ∧ t.cfg = s.cfg ∧ t.procs = s.procs ∧ t.time = s.time ∧ t.fwd = s.fwd ∧ t.qos = s.qos ∧
    t.pins = s.pins ∧ t.power = s.power ∧ t.jtag = s.jtag ∧ t.svc = s.svc ∧ t.snap = s.snap ∧ t.bist = s.bist ∧
    t.trace = s.trace ∧ t.pending = s.pending := by
  unfold State.commitOne
  repeat' (first | split | simp)

@[simp] theorem nodeDomainAssignSpec_frame (r : Req) (s : State) :
    let t := (nodeDomainAssignSpec.effect r s).1
    t.ms = s.ms ∧ t.host = s.host ∧ t.procs = s.procs ∧ t.time = s.time ∧ t.ports = s.ports ∧ t.fwd = s.fwd ∧
    t.qos = s.qos ∧ t.radio = s.radio ∧ t.pins = s.pins ∧ t.power = s.power ∧ t.jtag = s.jtag ∧ t.pair = s.pair ∧
    t.svc = s.svc ∧ t.snap = s.snap ∧ t.bist = s.bist ∧ t.trace = s.trace ∧ t.ctr = s.ctr ∧ t.draws = s.draws ∧
    t.pending = s.pending := by
  unfold nodeDomainAssignSpec
  repeat' (first | split | simp)

@[simp] theorem nodeDomainConfigSpec_frame (r : Req) (s : State) :
    let t := (nodeDomainConfigSpec.effect r s).1
    t.ms = s.ms ∧ t.host = s.host ∧ t.cfg = s.cfg ∧ t.nv = s.nv ∧ t.procs = s.procs ∧ t.time = s.time ∧
    t.ports = s.ports ∧ t.fwd = s.fwd ∧ t.qos = s.qos ∧ t.radio = s.radio ∧ t.pins = s.pins ∧ t.power = s.power ∧
    t.jtag = s.jtag ∧ t.pair = s.pair ∧ t.svc = s.svc ∧ t.snap = s.snap ∧ t.bist = s.bist ∧ t.trace = s.trace ∧
    t.ctr = s.ctr ∧ t.draws = s.draws ∧ t.pending = s.pending := by
  unfold nodeDomainConfigSpec
  repeat' (first | split | simp)

@[simp] theorem nodeDomainStatusSpec_frame (r : Req) (s : State) :
    let t := (nodeDomainStatusSpec.effect r s).1
    t.ms = s.ms ∧ t.host = s.host ∧ t.cfg = s.cfg ∧ t.nv = s.nv ∧ t.procs = s.procs ∧ t.time = s.time ∧
    t.ports = s.ports ∧ t.fwd = s.fwd ∧ t.qos = s.qos ∧ t.radio = s.radio ∧ t.mesh = s.mesh ∧ t.pins = s.pins ∧
    t.power = s.power ∧ t.jtag = s.jtag ∧ t.pair = s.pair ∧ t.svc = s.svc ∧ t.snap = s.snap ∧ t.bist = s.bist ∧
    t.trace = s.trace ∧ t.ctr = s.ctr ∧ t.draws = s.draws ∧ t.pending = s.pending := by
  unfold nodeDomainStatusSpec
  repeat' (first | split | simp)

@[simp] theorem nodeReadSpec_frame (r : Req) (s : State) :
    let t := (nodeReadSpec.effect r s).1
    t.ms = s.ms ∧ t.host = s.host ∧ t.cfg = s.cfg ∧ t.nv = s.nv ∧ t.procs = s.procs ∧ t.time = s.time ∧
    t.ports = s.ports ∧ t.fwd = s.fwd ∧ t.qos = s.qos ∧ t.radio = s.radio ∧ t.mesh = s.mesh ∧ t.pins = s.pins ∧
    t.power = s.power ∧ t.jtag = s.jtag ∧ t.pair = s.pair ∧ t.svc = s.svc ∧ t.snap = s.snap ∧ t.bist = s.bist ∧
    t.trace = s.trace ∧ t.ctr = s.ctr ∧ t.pending = s.pending := by
  unfold nodeReadSpec
  repeat' (first | split | simp)

@[simp] theorem nodeWriteSpec_frame (r : Req) (s : State) :
    let t := (nodeWriteSpec.effect r s).1
    t.ms = s.ms ∧ t.host = s.host ∧ t.cfg = s.cfg ∧ t.nv = s.nv ∧ t.procs = s.procs ∧ t.time = s.time ∧
    t.ports = s.ports ∧ t.fwd = s.fwd ∧ t.qos = s.qos ∧ t.radio = s.radio ∧ t.pins = s.pins ∧ t.power = s.power ∧
    t.jtag = s.jtag ∧ t.pair = s.pair ∧ t.svc = s.svc ∧ t.snap = s.snap ∧ t.bist = s.bist ∧ t.trace = s.trace ∧
    t.ctr = s.ctr ∧ t.draws = s.draws ∧ t.pending = s.pending := by
  unfold nodeWriteSpec
  repeat' (first | split | simp)

@[simp] theorem nodeRemoveSpec_frame (r : Req) (s : State) :
    let t := (nodeRemoveSpec.effect r s).1
    t.ms = s.ms ∧ t.cfg = s.cfg ∧ t.nv = s.nv ∧ t.procs = s.procs ∧ t.time = s.time ∧ t.ports = s.ports ∧
    t.fwd = s.fwd ∧ t.qos = s.qos ∧ t.pins = s.pins ∧ t.power = s.power ∧ t.jtag = s.jtag ∧ t.svc = s.svc ∧
    t.snap = s.snap ∧ t.bist = s.bist ∧ t.trace = s.trace ∧ t.draws = s.draws ∧ t.pending = s.pending := by
  unfold nodeRemoveSpec
  repeat' (first | split | simp)

@[simp] theorem State.sendPlan_frame (s : State) (d) (h) (c) (pkt) :
    let t := (State.sendPlan s d h c pkt).1
    t.ms = s.ms ∧ t.host = s.host ∧ t.cfg = s.cfg ∧ t.nv = s.nv ∧ t.procs = s.procs ∧ t.time = s.time ∧
    t.ports = s.ports ∧ t.fwd = s.fwd ∧ t.qos = s.qos ∧ t.radio = s.radio ∧ t.pins = s.pins ∧ t.power = s.power ∧
    t.jtag = s.jtag ∧ t.svc = s.svc ∧ t.snap = s.snap ∧ t.bist = s.bist ∧ t.trace = s.trace ∧ t.ctr = s.ctr ∧
    t.pending = s.pending := by
  unfold State.sendPlan
  repeat' (first | split | simp)

@[simp] theorem State.startSend_frame (s : State) (r) (n) (c) :
    let t := (State.startSend s r n c).1
    t.ms = s.ms ∧ t.cfg = s.cfg ∧ t.procs = s.procs ∧ t.time = s.time ∧ t.ports = s.ports ∧ t.fwd = s.fwd ∧
    t.qos = s.qos ∧ t.pins = s.pins ∧ t.power = s.power ∧ t.jtag = s.jtag ∧ t.svc = s.svc ∧ t.snap = s.snap ∧
    t.bist = s.bist ∧ t.trace = s.trace ∧ t.pending = s.pending := by
  unfold State.startSend
  repeat' (first | split | simp)

@[simp] theorem nodeSendSpec_frame (r : Req) (s : State) :
    let t := (nodeSendSpec.effect r s).1
    t.ms = s.ms ∧ t.cfg = s.cfg ∧ t.procs = s.procs ∧ t.time = s.time ∧ t.ports = s.ports ∧ t.fwd = s.fwd ∧
    t.qos = s.qos ∧ t.pins = s.pins ∧ t.power = s.power ∧ t.jtag = s.jtag ∧ t.svc = s.svc ∧ t.snap = s.snap ∧
    t.bist = s.bist ∧ t.trace = s.trace ∧ t.pending = s.pending := by
  unfold nodeSendSpec
  repeat' (first | split | simp)

@[simp] theorem nodeDomainRekeySpec_frame (r : Req) (s : State) :
    let t := (nodeDomainRekeySpec.effect r s).1
    t.ms = s.ms ∧ t.cfg = s.cfg ∧ t.procs = s.procs ∧ t.time = s.time ∧ t.ports = s.ports ∧ t.fwd = s.fwd ∧
    t.qos = s.qos ∧ t.pins = s.pins ∧ t.power = s.power ∧ t.jtag = s.jtag ∧ t.svc = s.svc ∧ t.snap = s.snap ∧
    t.bist = s.bist ∧ t.trace = s.trace ∧ t.draws = s.draws ∧ t.pending = s.pending := by
  unfold nodeDomainRekeySpec
  repeat' (first | split | simp)

@[simp] theorem nodeDistStartSpec_frame (r : Req) (s : State) :
    let t := (nodeDistStartSpec.effect r s).1
    t.ms = s.ms ∧ t.cfg = s.cfg ∧ t.nv = s.nv ∧ t.procs = s.procs ∧ t.time = s.time ∧ t.ports = s.ports ∧
    t.fwd = s.fwd ∧ t.qos = s.qos ∧ t.radio = s.radio ∧ t.pins = s.pins ∧ t.power = s.power ∧ t.jtag = s.jtag ∧
    t.svc = s.svc ∧ t.snap = s.snap ∧ t.bist = s.bist ∧ t.trace = s.trace ∧ t.ctr = s.ctr ∧ t.draws = s.draws ∧
    t.pending = s.pending := by
  unfold nodeDistStartSpec
  repeat' (first | split | simp)

@[simp] theorem nodeDistStopSpec_frame (r : Req) (s : State) :
    let t := (nodeDistStopSpec.effect r s).1
    t.ms = s.ms ∧ t.cfg = s.cfg ∧ t.nv = s.nv ∧ t.procs = s.procs ∧ t.time = s.time ∧ t.ports = s.ports ∧
    t.fwd = s.fwd ∧ t.qos = s.qos ∧ t.radio = s.radio ∧ t.pins = s.pins ∧ t.power = s.power ∧ t.jtag = s.jtag ∧
    t.svc = s.svc ∧ t.snap = s.snap ∧ t.bist = s.bist ∧ t.trace = s.trace ∧ t.ctr = s.ctr ∧ t.draws = s.draws ∧
    t.pending = s.pending := by
  unfold nodeDistStopSpec
  repeat' (first | split | simp)

@[simp] theorem State.dropStaged_frame (s : State) (fn) :
    let t := State.dropStaged s fn
    t.ms = s.ms ∧ t.host = s.host ∧ t.cfg = s.cfg ∧ t.nv = s.nv ∧ t.procs = s.procs ∧ t.time = s.time ∧
    t.ports = s.ports ∧ t.qos = s.qos ∧ t.radio = s.radio ∧ t.mesh = s.mesh ∧ t.pins = s.pins ∧ t.power = s.power ∧
    t.jtag = s.jtag ∧ t.pair = s.pair ∧ t.svc = s.svc ∧ t.snap = s.snap ∧ t.bist = s.bist ∧ t.trace = s.trace ∧
    t.ctr = s.ctr ∧ t.draws = s.draws ∧ t.pending = s.pending := by
  unfold State.dropStaged
  repeat' (first | split | simp)

@[simp] theorem State.commit_frame (s : State) (r) :
    let t := (State.commit s r).1
    t.ms = s.ms ∧ t.host = s.host ∧ t.cfg = s.cfg ∧ t.nv = s.nv ∧ t.procs = s.procs ∧ t.time = s.time ∧
    t.ports = s.ports ∧ t.qos = s.qos ∧ t.radio = s.radio ∧ t.mesh = s.mesh ∧ t.pins = s.pins ∧ t.power = s.power ∧
    t.jtag = s.jtag ∧ t.pair = s.pair ∧ t.svc = s.svc ∧ t.snap = s.snap ∧ t.bist = s.bist ∧ t.trace = s.trace ∧
    t.ctr = s.ctr ∧ t.draws = s.draws ∧ t.pending = s.pending := by
  unfold State.commit
  repeat' (first | split | simp)

@[simp] theorem State.stage_frame (s : State) (r) (auto) (w) :
    let t := (State.stage s r auto w).1
    t.ms = s.ms ∧ t.host = s.host ∧ t.cfg = s.cfg ∧ t.nv = s.nv ∧ t.procs = s.procs ∧ t.time = s.time ∧
    t.ports = s.ports ∧ t.qos = s.qos ∧ t.radio = s.radio ∧ t.mesh = s.mesh ∧ t.pins = s.pins ∧ t.power = s.power ∧
    t.jtag = s.jtag ∧ t.pair = s.pair ∧ t.svc = s.svc ∧ t.snap = s.snap ∧ t.bist = s.bist ∧ t.trace = s.trace ∧
    t.ctr = s.ctr ∧ t.draws = s.draws ∧ t.pending = s.pending := by
  unfold State.stage
  repeat' (first | split | simp)

@[simp] theorem State.factoryBundles_frame (s : State) (t_) :
    let t := State.factoryBundles s t_
    t.ms = s.ms ∧ t.host = s.host ∧ t.cfg = s.cfg ∧ t.nv = s.nv ∧ t.procs = s.procs ∧ t.time = s.time ∧
    t.ports = s.ports ∧ t.fwd = s.fwd ∧ t.radio = s.radio ∧ t.mesh = s.mesh ∧ t.pins = s.pins ∧ t.power = s.power ∧
    t.jtag = s.jtag ∧ t.pair = s.pair ∧ t.svc = s.svc ∧ t.snap = s.snap ∧ t.bist = s.bist ∧ t.trace = s.trace ∧
    t.ctr = s.ctr ∧ t.draws = s.draws ∧ t.pending = s.pending := by
  unfold State.factoryBundles
  repeat' (first | split | simp)

@[simp] theorem State.finishTenantReset_frame (s : State) (t_) :
    let t := State.finishTenantReset s t_
    t.ms = s.ms ∧ t.cfg = s.cfg ∧ t.nv = s.nv ∧ t.procs = s.procs ∧ t.time = s.time ∧ t.ports = s.ports ∧
    t.fwd = s.fwd ∧ t.radio = s.radio ∧ t.mesh = s.mesh ∧ t.pins = s.pins ∧ t.power = s.power ∧ t.jtag = s.jtag ∧
    t.pair = s.pair ∧ t.svc = s.svc ∧ t.snap = s.snap ∧ t.bist = s.bist ∧ t.trace = s.trace ∧ t.pending = s.pending := by
  unfold State.finishTenantReset
  repeat' (first | split | simp)

@[simp] theorem State.dropGens_frame (s : State) (keep) :
    let t := State.dropGens s keep
    t.ms = s.ms ∧ t.host = s.host ∧ t.cfg = s.cfg ∧ t.nv = s.nv ∧ t.procs = s.procs ∧ t.time = s.time ∧
    t.ports = s.ports ∧ t.qos = s.qos ∧ t.radio = s.radio ∧ t.mesh = s.mesh ∧ t.pins = s.pins ∧ t.power = s.power ∧
    t.jtag = s.jtag ∧ t.pair = s.pair ∧ t.svc = s.svc ∧ t.snap = s.snap ∧ t.bist = s.bist ∧ t.trace = s.trace ∧
    t.ctr = s.ctr ∧ t.draws = s.draws ∧ t.pending = s.pending := by
  unfold State.dropGens
  repeat' (first | split | simp)

@[simp] theorem tableCommitSpec_frame (r : Req) (s : State) :
    let t := (tableCommitSpec.effect r s).1
    t.ms = s.ms ∧ t.host = s.host ∧ t.cfg = s.cfg ∧ t.nv = s.nv ∧ t.procs = s.procs ∧ t.time = s.time ∧
    t.ports = s.ports ∧ t.qos = s.qos ∧ t.radio = s.radio ∧ t.mesh = s.mesh ∧ t.pins = s.pins ∧ t.power = s.power ∧
    t.jtag = s.jtag ∧ t.pair = s.pair ∧ t.svc = s.svc ∧ t.snap = s.snap ∧ t.bist = s.bist ∧ t.trace = s.trace ∧
    t.ctr = s.ctr ∧ t.draws = s.draws ∧ t.pending = s.pending := by
  unfold tableCommitSpec
  repeat' (first | split | simp)

@[simp] theorem tableStatusSpec_frame (r : Req) (s : State) :
    let t := (tableStatusSpec.effect r s).1
    t.ms = s.ms ∧ t.host = s.host ∧ t.cfg = s.cfg ∧ t.nv = s.nv ∧ t.procs = s.procs ∧ t.time = s.time ∧
    t.ports = s.ports ∧ t.fwd = s.fwd ∧ t.qos = s.qos ∧ t.radio = s.radio ∧ t.mesh = s.mesh ∧ t.pins = s.pins ∧
    t.power = s.power ∧ t.jtag = s.jtag ∧ t.pair = s.pair ∧ t.svc = s.svc ∧ t.snap = s.snap ∧ t.bist = s.bist ∧
    t.trace = s.trace ∧ t.ctr = s.ctr ∧ t.draws = s.draws ∧ t.pending = s.pending := by
  unfold tableStatusSpec
  repeat' (first | split | simp)

@[simp] theorem tableVrfConfigSpec_frame (r : Req) (s : State) :
    let t := (tableVrfConfigSpec.effect r s).1
    t.ms = s.ms ∧ t.host = s.host ∧ t.cfg = s.cfg ∧ t.nv = s.nv ∧ t.procs = s.procs ∧ t.time = s.time ∧
    t.ports = s.ports ∧ t.qos = s.qos ∧ t.radio = s.radio ∧ t.mesh = s.mesh ∧ t.pins = s.pins ∧ t.power = s.power ∧
    t.jtag = s.jtag ∧ t.pair = s.pair ∧ t.svc = s.svc ∧ t.snap = s.snap ∧ t.bist = s.bist ∧ t.trace = s.trace ∧
    t.ctr = s.ctr ∧ t.draws = s.draws ∧ t.pending = s.pending := by
  unfold tableVrfConfigSpec
  repeat' (first | split | simp)

@[simp] theorem tablePortL2Spec_frame (r : Req) (s : State) :
    let t := (tablePortL2Spec.effect r s).1
    t.ms = s.ms ∧ t.host = s.host ∧ t.cfg = s.cfg ∧ t.nv = s.nv ∧ t.procs = s.procs ∧ t.time = s.time ∧
    t.ports = s.ports ∧ t.qos = s.qos ∧ t.radio = s.radio ∧ t.mesh = s.mesh ∧ t.pins = s.pins ∧ t.power = s.power ∧
    t.jtag = s.jtag ∧ t.pair = s.pair ∧ t.svc = s.svc ∧ t.snap = s.snap ∧ t.bist = s.bist ∧ t.trace = s.trace ∧
    t.ctr = s.ctr ∧ t.draws = s.draws ∧ t.pending = s.pending := by
  unfold tablePortL2Spec
  repeat' (first | split | simp)

@[simp] theorem tableVlanWriteSpec_frame (r : Req) (s : State) :
    let t := (tableVlanWriteSpec.effect r s).1
    t.ms = s.ms ∧ t.host = s.host ∧ t.cfg = s.cfg ∧ t.nv = s.nv ∧ t.procs = s.procs ∧ t.time = s.time ∧
    t.ports = s.ports ∧ t.qos = s.qos ∧ t.radio = s.radio ∧ t.mesh = s.mesh ∧ t.pins = s.pins ∧ t.power = s.power ∧
    t.jtag = s.jtag ∧ t.pair = s.pair ∧ t.svc = s.svc ∧ t.snap = s.snap ∧ t.bist = s.bist ∧ t.trace = s.trace ∧
    t.ctr = s.ctr ∧ t.draws = s.draws ∧ t.pending = s.pending := by
  unfold tableVlanWriteSpec
  repeat' (first | split | simp)

@[simp] theorem tableIntfWriteSpec_frame (r : Req) (s : State) :
    let t := (tableIntfWriteSpec.effect r s).1
    t.ms = s.ms ∧ t.host = s.host ∧ t.cfg = s.cfg ∧ t.nv = s.nv ∧ t.procs = s.procs ∧ t.time = s.time ∧
    t.ports = s.ports ∧ t.qos = s.qos ∧ t.radio = s.radio ∧ t.mesh = s.mesh ∧ t.pins = s.pins ∧ t.power = s.power ∧
    t.jtag = s.jtag ∧ t.pair = s.pair ∧ t.svc = s.svc ∧ t.snap = s.snap ∧ t.bist = s.bist ∧ t.trace = s.trace ∧
    t.ctr = s.ctr ∧ t.draws = s.draws ∧ t.pending = s.pending := by
  unfold tableIntfWriteSpec
  repeat' (first | split | simp)

@[simp] theorem tableMacWriteSpec_frame (r : Req) (s : State) :
    let t := (tableMacWriteSpec.effect r s).1
    t.ms = s.ms ∧ t.host = s.host ∧ t.cfg = s.cfg ∧ t.nv = s.nv ∧ t.procs = s.procs ∧ t.time = s.time ∧
    t.ports = s.ports ∧ t.qos = s.qos ∧ t.radio = s.radio ∧ t.mesh = s.mesh ∧ t.pins = s.pins ∧ t.power = s.power ∧
    t.jtag = s.jtag ∧ t.pair = s.pair ∧ t.svc = s.svc ∧ t.snap = s.snap ∧ t.bist = s.bist ∧ t.trace = s.trace ∧
    t.ctr = s.ctr ∧ t.draws = s.draws ∧ t.pending = s.pending := by
  unfold tableMacWriteSpec
  repeat' (first | split | simp)

@[simp] theorem tableMacReadSpec_frame (r : Req) (s : State) :
    let t := (tableMacReadSpec.effect r s).1
    t.ms = s.ms ∧ t.host = s.host ∧ t.cfg = s.cfg ∧ t.nv = s.nv ∧ t.procs = s.procs ∧ t.time = s.time ∧
    t.ports = s.ports ∧ t.fwd = s.fwd ∧ t.qos = s.qos ∧ t.radio = s.radio ∧ t.mesh = s.mesh ∧ t.pins = s.pins ∧
    t.power = s.power ∧ t.jtag = s.jtag ∧ t.pair = s.pair ∧ t.svc = s.svc ∧ t.snap = s.snap ∧ t.bist = s.bist ∧
    t.trace = s.trace ∧ t.ctr = s.ctr ∧ t.draws = s.draws ∧ t.pending = s.pending := by
  unfold tableMacReadSpec
  repeat' (first | split | simp)

@[simp] theorem tableMacFlushSpec_frame (r : Req) (s : State) :
    let t := (tableMacFlushSpec.effect r s).1
    t.ms = s.ms ∧ t.host = s.host ∧ t.cfg = s.cfg ∧ t.nv = s.nv ∧ t.procs = s.procs ∧ t.time = s.time ∧
    t.ports = s.ports ∧ t.qos = s.qos ∧ t.radio = s.radio ∧ t.mesh = s.mesh ∧ t.pins = s.pins ∧ t.power = s.power ∧
    t.jtag = s.jtag ∧ t.pair = s.pair ∧ t.svc = s.svc ∧ t.snap = s.snap ∧ t.bist = s.bist ∧ t.trace = s.trace ∧
    t.draws = s.draws ∧ t.pending = s.pending := by
  unfold tableMacFlushSpec
  repeat' (first | split | simp)

@[simp] theorem tableNexthopWriteSpec_frame (r : Req) (s : State) :
    let t := (tableNexthopWriteSpec.effect r s).1
    t.ms = s.ms ∧ t.host = s.host ∧ t.cfg = s.cfg ∧ t.nv = s.nv ∧ t.procs = s.procs ∧ t.time = s.time ∧
    t.ports = s.ports ∧ t.qos = s.qos ∧ t.radio = s.radio ∧ t.mesh = s.mesh ∧ t.pins = s.pins ∧ t.power = s.power ∧
    t.jtag = s.jtag ∧ t.pair = s.pair ∧ t.svc = s.svc ∧ t.snap = s.snap ∧ t.bist = s.bist ∧ t.trace = s.trace ∧
    t.ctr = s.ctr ∧ t.draws = s.draws ∧ t.pending = s.pending := by
  unfold tableNexthopWriteSpec
  repeat' (first | split | simp)

@[simp] theorem tableRouteWriteSpec_frame (r : Req) (s : State) :
    let t := (tableRouteWriteSpec.effect r s).1
    t.ms = s.ms ∧ t.host = s.host ∧ t.cfg = s.cfg ∧ t.nv = s.nv ∧ t.procs = s.procs ∧ t.time = s.time ∧
    t.ports = s.ports ∧ t.qos = s.qos ∧ t.radio = s.radio ∧ t.mesh = s.mesh ∧ t.pins = s.pins ∧ t.power = s.power ∧
    t.jtag = s.jtag ∧ t.pair = s.pair ∧ t.svc = s.svc ∧ t.snap = s.snap ∧ t.bist = s.bist ∧ t.trace = s.trace ∧
    t.ctr = s.ctr ∧ t.draws = s.draws ∧ t.pending = s.pending := by
  unfold tableRouteWriteSpec
  repeat' (first | split | simp)

@[simp] theorem tableRuleWriteSpec_frame (r : Req) (s : State) :
    let t := (tableRuleWriteSpec.effect r s).1
    t.ms = s.ms ∧ t.host = s.host ∧ t.cfg = s.cfg ∧ t.nv = s.nv ∧ t.procs = s.procs ∧ t.time = s.time ∧
    t.ports = s.ports ∧ t.qos = s.qos ∧ t.radio = s.radio ∧ t.mesh = s.mesh ∧ t.pins = s.pins ∧ t.power = s.power ∧
    t.jtag = s.jtag ∧ t.pair = s.pair ∧ t.svc = s.svc ∧ t.snap = s.snap ∧ t.bist = s.bist ∧ t.trace = s.trace ∧
    t.ctr = s.ctr ∧ t.draws = s.draws ∧ t.pending = s.pending := by
  unfold tableRuleWriteSpec
  repeat' (first | split | simp)

@[simp] theorem tableMirrorWriteSpec_frame (r : Req) (s : State) :
    let t := (tableMirrorWriteSpec.effect r s).1
    t.ms = s.ms ∧ t.host = s.host ∧ t.cfg = s.cfg ∧ t.nv = s.nv ∧ t.procs = s.procs ∧ t.time = s.time ∧
    t.ports = s.ports ∧ t.qos = s.qos ∧ t.radio = s.radio ∧ t.mesh = s.mesh ∧ t.pins = s.pins ∧ t.power = s.power ∧
    t.jtag = s.jtag ∧ t.pair = s.pair ∧ t.svc = s.svc ∧ t.snap = s.snap ∧ t.bist = s.bist ∧ t.trace = s.trace ∧
    t.ctr = s.ctr ∧ t.draws = s.draws ∧ t.pending = s.pending := by
  unfold tableMirrorWriteSpec
  repeat' (first | split | simp)

@[simp] theorem qosSetLimitsSpec_frame (r : Req) (s : State) :
    let t := (qosSetLimitsSpec.effect r s).1
    t.ms = s.ms ∧ t.host = s.host ∧ t.cfg = s.cfg ∧ t.nv = s.nv ∧ t.procs = s.procs ∧ t.time = s.time ∧
    t.ports = s.ports ∧ t.fwd = s.fwd ∧ t.radio = s.radio ∧ t.mesh = s.mesh ∧ t.pins = s.pins ∧ t.power = s.power ∧
    t.jtag = s.jtag ∧ t.pair = s.pair ∧ t.svc = s.svc ∧ t.snap = s.snap ∧ t.bist = s.bist ∧ t.trace = s.trace ∧
    t.ctr = s.ctr ∧ t.draws = s.draws ∧ t.pending = s.pending := by
  unfold qosSetLimitsSpec
  repeat' (first | split | simp)

@[simp] theorem qosSetSchedSpec_frame (r : Req) (s : State) :
    let t := (qosSetSchedSpec.effect r s).1
    t.ms = s.ms ∧ t.host = s.host ∧ t.cfg = s.cfg ∧ t.nv = s.nv ∧ t.procs = s.procs ∧ t.time = s.time ∧
    t.ports = s.ports ∧ t.fwd = s.fwd ∧ t.radio = s.radio ∧ t.mesh = s.mesh ∧ t.pins = s.pins ∧ t.power = s.power ∧
    t.jtag = s.jtag ∧ t.pair = s.pair ∧ t.svc = s.svc ∧ t.snap = s.snap ∧ t.bist = s.bist ∧ t.trace = s.trace ∧
    t.ctr = s.ctr ∧ t.draws = s.draws ∧ t.pending = s.pending := by
  unfold qosSetSchedSpec
  repeat' (first | split | simp)

@[simp] theorem qosSetShaperSpec_frame (r : Req) (s : State) :
    let t := (qosSetShaperSpec.effect r s).1
    t.ms = s.ms ∧ t.host = s.host ∧ t.cfg = s.cfg ∧ t.nv = s.nv ∧ t.procs = s.procs ∧ t.time = s.time ∧
    t.ports = s.ports ∧ t.fwd = s.fwd ∧ t.radio = s.radio ∧ t.mesh = s.mesh ∧ t.pins = s.pins ∧ t.power = s.power ∧
    t.jtag = s.jtag ∧ t.pair = s.pair ∧ t.svc = s.svc ∧ t.snap = s.snap ∧ t.bist = s.bist ∧ t.trace = s.trace ∧
    t.ctr = s.ctr ∧ t.draws = s.draws ∧ t.pending = s.pending := by
  unfold qosSetShaperSpec
  repeat' (first | split | simp)

@[simp] theorem qosSetLaunchSpec_frame (r : Req) (s : State) :
    let t := (qosSetLaunchSpec.effect r s).1
    t.ms = s.ms ∧ t.host = s.host ∧ t.cfg = s.cfg ∧ t.nv = s.nv ∧ t.procs = s.procs ∧ t.time = s.time ∧
    t.ports = s.ports ∧ t.fwd = s.fwd ∧ t.radio = s.radio ∧ t.mesh = s.mesh ∧ t.pins = s.pins ∧ t.power = s.power ∧
    t.jtag = s.jtag ∧ t.pair = s.pair ∧ t.svc = s.svc ∧ t.snap = s.snap ∧ t.bist = s.bist ∧ t.trace = s.trace ∧
    t.ctr = s.ctr ∧ t.draws = s.draws ∧ t.pending = s.pending := by
  unfold qosSetLaunchSpec
  repeat' (first | split | simp)

@[simp] theorem qosSetClassMapSpec_frame (r : Req) (s : State) :
    let t := (qosSetClassMapSpec.effect r s).1
    t.ms = s.ms ∧ t.host = s.host ∧ t.cfg = s.cfg ∧ t.nv = s.nv ∧ t.procs = s.procs ∧ t.time = s.time ∧
    t.ports = s.ports ∧ t.fwd = s.fwd ∧ t.radio = s.radio ∧ t.mesh = s.mesh ∧ t.pins = s.pins ∧ t.power = s.power ∧
    t.jtag = s.jtag ∧ t.pair = s.pair ∧ t.svc = s.svc ∧ t.snap = s.snap ∧ t.bist = s.bist ∧ t.trace = s.trace ∧
    t.ctr = s.ctr ∧ t.draws = s.draws ∧ t.pending = s.pending := by
  unfold qosSetClassMapSpec
  repeat' (first | split | simp)

@[simp] theorem qosPolicerWriteSpec_frame (r : Req) (s : State) :
    let t := (qosPolicerWriteSpec.effect r s).1
    t.ms = s.ms ∧ t.host = s.host ∧ t.cfg = s.cfg ∧ t.nv = s.nv ∧ t.procs = s.procs ∧ t.time = s.time ∧
    t.ports = s.ports ∧ t.fwd = s.fwd ∧ t.radio = s.radio ∧ t.mesh = s.mesh ∧ t.pins = s.pins ∧ t.power = s.power ∧
    t.jtag = s.jtag ∧ t.pair = s.pair ∧ t.svc = s.svc ∧ t.snap = s.snap ∧ t.bist = s.bist ∧ t.trace = s.trace ∧
    t.ctr = s.ctr ∧ t.draws = s.draws ∧ t.pending = s.pending := by
  unfold qosPolicerWriteSpec
  repeat' (first | split | simp)

@[simp] theorem qosQueueFlushSpec_frame (r : Req) (s : State) :
    let t := (qosQueueFlushSpec.effect r s).1
    t.ms = s.ms ∧ t.host = s.host ∧ t.cfg = s.cfg ∧ t.nv = s.nv ∧ t.procs = s.procs ∧ t.time = s.time ∧
    t.ports = s.ports ∧ t.fwd = s.fwd ∧ t.radio = s.radio ∧ t.mesh = s.mesh ∧ t.pins = s.pins ∧ t.power = s.power ∧
    t.jtag = s.jtag ∧ t.pair = s.pair ∧ t.svc = s.svc ∧ t.snap = s.snap ∧ t.bist = s.bist ∧ t.trace = s.trace ∧
    t.draws = s.draws ∧ t.pending = s.pending := by
  unfold qosQueueFlushSpec
  repeat' (first | split | simp)

@[simp] theorem qosQueueStatusSpec_frame (r : Req) (s : State) :
    let t := (qosQueueStatusSpec.effect r s).1
    t.ms = s.ms ∧ t.host = s.host ∧ t.cfg = s.cfg ∧ t.nv = s.nv ∧ t.procs = s.procs ∧ t.time = s.time ∧
    t.ports = s.ports ∧ t.fwd = s.fwd ∧ t.qos = s.qos ∧ t.radio = s.radio ∧ t.mesh = s.mesh ∧ t.pins = s.pins ∧
    t.power = s.power ∧ t.jtag = s.jtag ∧ t.pair = s.pair ∧ t.svc = s.svc ∧ t.snap = s.snap ∧ t.bist = s.bist ∧
    t.trace = s.trace ∧ t.ctr = s.ctr ∧ t.draws = s.draws ∧ t.pending = s.pending := by
  unfold qosQueueStatusSpec
  repeat' (first | split | simp)

@[simp] theorem qosCisternStatusSpec_frame (r : Req) (s : State) :
    let t := (qosCisternStatusSpec.effect r s).1
    t.ms = s.ms ∧ t.host = s.host ∧ t.cfg = s.cfg ∧ t.nv = s.nv ∧ t.procs = s.procs ∧ t.time = s.time ∧
    t.ports = s.ports ∧ t.fwd = s.fwd ∧ t.qos = s.qos ∧ t.radio = s.radio ∧ t.mesh = s.mesh ∧ t.pins = s.pins ∧
    t.power = s.power ∧ t.jtag = s.jtag ∧ t.pair = s.pair ∧ t.svc = s.svc ∧ t.snap = s.snap ∧ t.bist = s.bist ∧
    t.trace = s.trace ∧ t.ctr = s.ctr ∧ t.draws = s.draws ∧ t.pending = s.pending := by
  unfold qosCisternStatusSpec
  repeat' (first | split | simp)

@[simp] theorem State.isolate_frame (s : State) (kind) (slice) (on) :
    let t := State.isolate s kind slice on
    t.ms = s.ms ∧ t.host = s.host ∧ t.cfg = s.cfg ∧ t.nv = s.nv ∧ t.procs = s.procs ∧ t.time = s.time ∧
    t.fwd = s.fwd ∧ t.qos = s.qos ∧ t.radio = s.radio ∧ t.mesh = s.mesh ∧ t.pins = s.pins ∧ t.power = s.power ∧
    t.jtag = s.jtag ∧ t.pair = s.pair ∧ t.svc = s.svc ∧ t.snap = s.snap ∧ t.bist = s.bist ∧ t.trace = s.trace ∧
    t.ctr = s.ctr ∧ t.draws = s.draws ∧ t.pending = s.pending := by
  unfold State.isolate
  repeat' (first | split | simp)

@[simp] theorem State.reinit_frame (s : State) (kind) (slice) :
    let t := State.reinit s kind slice
    t.ms = s.ms ∧ t.host = s.host ∧ t.cfg = s.cfg ∧ t.nv = s.nv ∧ t.procs = s.procs ∧ t.time = s.time ∧
    t.ports = s.ports ∧ t.qos = s.qos ∧ t.radio = s.radio ∧ t.pins = s.pins ∧ t.power = s.power ∧ t.jtag = s.jtag ∧
    t.pair = s.pair ∧ t.svc = s.svc ∧ t.snap = s.snap ∧ t.bist = s.bist ∧ t.trace = s.trace ∧ t.draws = s.draws ∧
    t.pending = s.pending := by
  unfold State.reinit
  repeat' (first | split | simp)

@[simp] theorem bistRunSpec_frame (r : Req) (s : State) :
    let t := (bistRunSpec.effect r s).1
    t.ms = s.ms ∧ t.host = s.host ∧ t.cfg = s.cfg ∧ t.nv = s.nv ∧ t.procs = s.procs ∧ t.time = s.time ∧
    t.fwd = s.fwd ∧ t.qos = s.qos ∧ t.radio = s.radio ∧ t.mesh = s.mesh ∧ t.power = s.power ∧ t.jtag = s.jtag ∧
    t.pair = s.pair ∧ t.svc = s.svc ∧ t.snap = s.snap ∧ t.trace = s.trace ∧ t.pending = s.pending := by
  unfold bistRunSpec
  repeat' (first | split | simp)

@[simp] theorem bistStatusSpec_frame (r : Req) (s : State) :
    let t := (bistStatusSpec.effect r s).1
    t.ms = s.ms ∧ t.host = s.host ∧ t.cfg = s.cfg ∧ t.nv = s.nv ∧ t.procs = s.procs ∧ t.time = s.time ∧
    t.ports = s.ports ∧ t.fwd = s.fwd ∧ t.qos = s.qos ∧ t.radio = s.radio ∧ t.mesh = s.mesh ∧ t.pins = s.pins ∧
    t.power = s.power ∧ t.jtag = s.jtag ∧ t.pair = s.pair ∧ t.svc = s.svc ∧ t.snap = s.snap ∧ t.bist = s.bist ∧
    t.trace = s.trace ∧ t.ctr = s.ctr ∧ t.draws = s.draws ∧ t.pending = s.pending := by
  unfold bistStatusSpec
  repeat' (first | split | simp)

@[simp] theorem bistConfigSpec_frame (r : Req) (s : State) :
    let t := (bistConfigSpec.effect r s).1
    t.ms = s.ms ∧ t.host = s.host ∧ t.procs = s.procs ∧ t.time = s.time ∧ t.ports = s.ports ∧ t.fwd = s.fwd ∧
    t.qos = s.qos ∧ t.radio = s.radio ∧ t.mesh = s.mesh ∧ t.pins = s.pins ∧ t.power = s.power ∧ t.jtag = s.jtag ∧
    t.pair = s.pair ∧ t.svc = s.svc ∧ t.snap = s.snap ∧ t.bist = s.bist ∧ t.trace = s.trace ∧ t.ctr = s.ctr ∧
    t.draws = s.draws ∧ t.pending = s.pending := by
  unfold bistConfigSpec
  repeat' (first | split | simp)

@[simp] theorem State.take_frame (s : State) :
    let t := State.take s
    t.ms = s.ms ∧ t.host = s.host ∧ t.cfg = s.cfg ∧ t.nv = s.nv ∧ t.procs = s.procs ∧ t.time = s.time ∧
    t.ports = s.ports ∧ t.fwd = s.fwd ∧ t.qos = s.qos ∧ t.radio = s.radio ∧ t.mesh = s.mesh ∧ t.pins = s.pins ∧
    t.power = s.power ∧ t.jtag = s.jtag ∧ t.pair = s.pair ∧ t.svc = s.svc ∧ t.bist = s.bist ∧ t.trace = s.trace ∧
    t.draws = s.draws ∧ t.pending = s.pending := by
  unfold State.take
  repeat' (first | split | simp)

@[simp] theorem State.writeSnapCtrl_frame (s : State) (word) :
    let t := State.writeSnapCtrl s word
    t.ms = s.ms ∧ t.host = s.host ∧ t.cfg = s.cfg ∧ t.nv = s.nv ∧ t.procs = s.procs ∧ t.time = s.time ∧
    t.ports = s.ports ∧ t.fwd = s.fwd ∧ t.qos = s.qos ∧ t.radio = s.radio ∧ t.mesh = s.mesh ∧ t.pins = s.pins ∧
    t.power = s.power ∧ t.jtag = s.jtag ∧ t.pair = s.pair ∧ t.svc = s.svc ∧ t.bist = s.bist ∧ t.trace = s.trace ∧
    t.draws = s.draws ∧ t.pending = s.pending := by
  unfold State.writeSnapCtrl
  repeat' (first | split | simp)

@[simp] theorem observeSnapshotSpec_frame (r : Req) (s : State) :
    let t := (observeSnapshotSpec.effect r s).1
    t.ms = s.ms ∧ t.host = s.host ∧ t.cfg = s.cfg ∧ t.nv = s.nv ∧ t.procs = s.procs ∧ t.time = s.time ∧
    t.ports = s.ports ∧ t.fwd = s.fwd ∧ t.qos = s.qos ∧ t.radio = s.radio ∧ t.mesh = s.mesh ∧ t.pins = s.pins ∧
    t.power = s.power ∧ t.jtag = s.jtag ∧ t.pair = s.pair ∧ t.svc = s.svc ∧ t.bist = s.bist ∧ t.trace = s.trace ∧
    t.draws = s.draws ∧ t.pending = s.pending := by
  unfold observeSnapshotSpec
  repeat' (first | split | simp)

@[simp] theorem observeCountersSpec_frame (r : Req) (s : State) :
    let t := (observeCountersSpec.effect r s).1
    t.ms = s.ms ∧ t.host = s.host ∧ t.cfg = s.cfg ∧ t.nv = s.nv ∧ t.procs = s.procs ∧ t.time = s.time ∧
    t.ports = s.ports ∧ t.fwd = s.fwd ∧ t.qos = s.qos ∧ t.radio = s.radio ∧ t.mesh = s.mesh ∧ t.pins = s.pins ∧
    t.power = s.power ∧ t.jtag = s.jtag ∧ t.pair = s.pair ∧ t.svc = s.svc ∧ t.snap = s.snap ∧ t.bist = s.bist ∧
    t.trace = s.trace ∧ t.ctr = s.ctr ∧ t.draws = s.draws ∧ t.pending = s.pending := by
  unfold observeCountersSpec
  repeat' (first | split | simp)

@[simp] theorem observeTraceConfigSpec_frame (r : Req) (s : State) :
    let t := (observeTraceConfigSpec.effect r s).1
    t.ms = s.ms ∧ t.host = s.host ∧ t.procs = s.procs ∧ t.time = s.time ∧ t.ports = s.ports ∧ t.fwd = s.fwd ∧
    t.qos = s.qos ∧ t.radio = s.radio ∧ t.mesh = s.mesh ∧ t.pins = s.pins ∧ t.power = s.power ∧ t.jtag = s.jtag ∧
    t.pair = s.pair ∧ t.svc = s.svc ∧ t.snap = s.snap ∧ t.bist = s.bist ∧ t.ctr = s.ctr ∧ t.draws = s.draws ∧
    t.pending = s.pending := by
  unfold observeTraceConfigSpec
  repeat' (first | split | simp)

@[simp] theorem State.dropSync_frame (s : State) (reason) (restart) (now) :
    let t := State.dropSync s reason restart now
    t.cfg = s.cfg ∧ t.nv = s.nv ∧ t.procs = s.procs ∧ t.time = s.time ∧ t.ports = s.ports ∧ t.fwd = s.fwd ∧
    t.qos = s.qos ∧ t.radio = s.radio ∧ t.mesh = s.mesh ∧ t.pins = s.pins ∧ t.power = s.power ∧ t.jtag = s.jtag ∧
    t.svc = s.svc ∧ t.snap = s.snap ∧ t.bist = s.bist ∧ t.trace = s.trace ∧ t.ctr = s.ctr ∧ t.draws = s.draws ∧
    t.pending = s.pending := by
  unfold State.dropSync
  repeat' (first | split | simp)

@[simp] theorem State.partnerLost_frame (s : State) (reason) :
    let t := State.partnerLost s reason
    t.cfg = s.cfg ∧ t.nv = s.nv ∧ t.procs = s.procs ∧ t.time = s.time ∧ t.fwd = s.fwd ∧ t.qos = s.qos ∧
    t.mesh = s.mesh ∧ t.power = s.power ∧ t.jtag = s.jtag ∧ t.snap = s.snap ∧ t.bist = s.bist ∧ t.pending = s.pending := by
  unfold State.partnerLost
  repeat' (first | split | simp)

@[simp] theorem State.abortSwap_frame (s : State) (kind) :
    let t := State.abortSwap s kind
    t.cfg = s.cfg ∧ t.nv = s.nv ∧ t.procs = s.procs ∧ t.time = s.time ∧ t.fwd = s.fwd ∧ t.qos = s.qos ∧
    t.mesh = s.mesh ∧ t.power = s.power ∧ t.jtag = s.jtag ∧ t.snap = s.snap ∧ t.bist = s.bist ∧ t.pending = s.pending := by
  unfold State.abortSwap
  repeat' (first | split | simp)

@[simp] theorem State.abortBefore_frame (s : State) :
    let t := State.abortBefore s
    t.cfg = s.cfg ∧ t.nv = s.nv ∧ t.procs = s.procs ∧ t.time = s.time ∧ t.fwd = s.fwd ∧ t.qos = s.qos ∧
    t.mesh = s.mesh ∧ t.power = s.power ∧ t.jtag = s.jtag ∧ t.snap = s.snap ∧ t.bist = s.bist ∧ t.pending = s.pending := by
  unfold State.abortBefore
  repeat' (first | split | simp)

@[simp] theorem pairConfigSpec_frame (r : Req) (s : State) :
    let t := (pairConfigSpec.effect r s).1
    t.ms = s.ms ∧ t.host = s.host ∧ t.procs = s.procs ∧ t.time = s.time ∧ t.ports = s.ports ∧ t.fwd = s.fwd ∧
    t.qos = s.qos ∧ t.radio = s.radio ∧ t.mesh = s.mesh ∧ t.pins = s.pins ∧ t.power = s.power ∧ t.jtag = s.jtag ∧
    t.pair = s.pair ∧ t.svc = s.svc ∧ t.snap = s.snap ∧ t.bist = s.bist ∧ t.trace = s.trace ∧ t.ctr = s.ctr ∧
    t.draws = s.draws ∧ t.pending = s.pending := by
  unfold pairConfigSpec
  repeat' (first | split | simp)

@[simp] theorem pairGetStatusSpec_frame (r : Req) (s : State) :
    let t := (pairGetStatusSpec.effect r s).1
    t.ms = s.ms ∧ t.host = s.host ∧ t.cfg = s.cfg ∧ t.nv = s.nv ∧ t.procs = s.procs ∧ t.time = s.time ∧
    t.ports = s.ports ∧ t.fwd = s.fwd ∧ t.qos = s.qos ∧ t.radio = s.radio ∧ t.mesh = s.mesh ∧ t.pins = s.pins ∧
    t.power = s.power ∧ t.jtag = s.jtag ∧ t.pair = s.pair ∧ t.svc = s.svc ∧ t.snap = s.snap ∧ t.bist = s.bist ∧
    t.trace = s.trace ∧ t.ctr = s.ctr ∧ t.draws = s.draws ∧ t.pending = s.pending := by
  unfold pairGetStatusSpec
  repeat' (first | split | simp)

@[simp] theorem pairEquinoxSpec_frame (r : Req) (s : State) :
    let t := (pairEquinoxSpec.effect r s).1
    t.cfg = s.cfg ∧ t.nv = s.nv ∧ t.procs = s.procs ∧ t.time = s.time ∧ t.fwd = s.fwd ∧ t.qos = s.qos ∧
    t.mesh = s.mesh ∧ t.power = s.power ∧ t.jtag = s.jtag ∧ t.snap = s.snap ∧ t.bist = s.bist ∧ t.pending = s.pending := by
  unfold pairEquinoxSpec
  repeat' (first | split | simp)

@[simp] theorem pairLaneTrimSpec_frame (r : Req) (s : State) :
    let t := (pairLaneTrimSpec.effect r s).1
    t.ms = s.ms ∧ t.host = s.host ∧ t.procs = s.procs ∧ t.time = s.time ∧ t.ports = s.ports ∧ t.fwd = s.fwd ∧
    t.qos = s.qos ∧ t.radio = s.radio ∧ t.mesh = s.mesh ∧ t.pins = s.pins ∧ t.power = s.power ∧ t.jtag = s.jtag ∧
    t.pair = s.pair ∧ t.svc = s.svc ∧ t.snap = s.snap ∧ t.bist = s.bist ∧ t.trace = s.trace ∧ t.ctr = s.ctr ∧
    t.draws = s.draws ∧ t.pending = s.pending := by
  unfold pairLaneTrimSpec
  repeat' (first | split | simp)

@[simp] theorem pairClearSpec_frame (r : Req) (s : State) :
    let t := (pairClearSpec.effect r s).1
    t.ms = s.ms ∧ t.host = s.host ∧ t.cfg = s.cfg ∧ t.nv = s.nv ∧ t.procs = s.procs ∧ t.time = s.time ∧
    t.ports = s.ports ∧ t.fwd = s.fwd ∧ t.qos = s.qos ∧ t.radio = s.radio ∧ t.mesh = s.mesh ∧ t.pins = s.pins ∧
    t.power = s.power ∧ t.jtag = s.jtag ∧ t.svc = s.svc ∧ t.snap = s.snap ∧ t.bist = s.bist ∧ t.trace = s.trace ∧
    t.ctr = s.ctr ∧ t.draws = s.draws ∧ t.pending = s.pending := by
  unfold pairClearSpec
  repeat' (first | split | simp)

@[simp] theorem pairResyncSpec_frame (r : Req) (s : State) :
    let t := (pairResyncSpec.effect r s).1
    t.cfg = s.cfg ∧ t.nv = s.nv ∧ t.procs = s.procs ∧ t.time = s.time ∧ t.ports = s.ports ∧ t.fwd = s.fwd ∧
    t.qos = s.qos ∧ t.radio = s.radio ∧ t.mesh = s.mesh ∧ t.pins = s.pins ∧ t.power = s.power ∧ t.jtag = s.jtag ∧
    t.svc = s.svc ∧ t.snap = s.snap ∧ t.bist = s.bist ∧ t.trace = s.trace ∧ t.ctr = s.ctr ∧ t.draws = s.draws ∧
    t.pending = s.pending := by
  unfold pairResyncSpec
  repeat' (first | split | simp)

@[simp] theorem State.saveNodes_frame (s : State) :
    let t := State.saveNodes s
    t.ms = s.ms ∧ t.host = s.host ∧ t.cfg = s.cfg ∧ t.procs = s.procs ∧ t.time = s.time ∧ t.ports = s.ports ∧
    t.fwd = s.fwd ∧ t.qos = s.qos ∧ t.radio = s.radio ∧ t.mesh = s.mesh ∧ t.pins = s.pins ∧ t.power = s.power ∧
    t.jtag = s.jtag ∧ t.pair = s.pair ∧ t.svc = s.svc ∧ t.snap = s.snap ∧ t.bist = s.bist ∧ t.trace = s.trace ∧
    t.ctr = s.ctr ∧ t.draws = s.draws ∧ t.pending = s.pending := by
  unfold State.saveNodes
  repeat' (first | split | simp)

@[simp] theorem sysConfigClearSpec_frame (r : Req) (s : State) :
    let t := (sysConfigClearSpec.effect r s).1
    t.ms = s.ms ∧ t.host = s.host ∧ t.cfg = s.cfg ∧ t.procs = s.procs ∧ t.time = s.time ∧ t.ports = s.ports ∧
    t.fwd = s.fwd ∧ t.qos = s.qos ∧ t.radio = s.radio ∧ t.mesh = s.mesh ∧ t.pins = s.pins ∧ t.power = s.power ∧
    t.jtag = s.jtag ∧ t.pair = s.pair ∧ t.svc = s.svc ∧ t.snap = s.snap ∧ t.bist = s.bist ∧ t.trace = s.trace ∧
    t.ctr = s.ctr ∧ t.draws = s.draws ∧ t.pending = s.pending := by
  unfold sysConfigClearSpec
  repeat' (first | split | simp)

@[simp] theorem State.endStale_frame (f) (was) (s : State) (c) :
    let t := State.endStale f was s c
    t.ms = s.ms ∧ t.cfg = s.cfg ∧ t.nv = s.nv ∧ t.procs = s.procs ∧ t.time = s.time ∧ t.ports = s.ports ∧
    t.fwd = s.fwd ∧ t.qos = s.qos ∧ t.radio = s.radio ∧ t.mesh = s.mesh ∧ t.pins = s.pins ∧ t.power = s.power ∧
    t.jtag = s.jtag ∧ t.pair = s.pair ∧ t.svc = s.svc ∧ t.snap = s.snap ∧ t.bist = s.bist ∧ t.trace = s.trace ∧
    t.ctr = s.ctr ∧ t.draws = s.draws ∧ t.pending = s.pending := by
  unfold State.endStale
  repeat' (first | split | simp)

@[simp] theorem State.endTenantCommands_frame (s : State) (t_) (r) :
    let t := State.endTenantCommands s t_ r
    t.ms = s.ms ∧ t.cfg = s.cfg ∧ t.nv = s.nv ∧ t.procs = s.procs ∧ t.time = s.time ∧ t.ports = s.ports ∧
    t.qos = s.qos ∧ t.radio = s.radio ∧ t.mesh = s.mesh ∧ t.pins = s.pins ∧ t.power = s.power ∧ t.jtag = s.jtag ∧
    t.svc = s.svc ∧ t.snap = s.snap ∧ t.bist = s.bist ∧ t.trace = s.trace ∧ t.ctr = s.ctr ∧ t.draws = s.draws ∧
    t.pending = s.pending := by
  unfold State.endTenantCommands
  repeat' (first | split | simp [-List.foldl_reverse])

@[simp] theorem State.tearDown_frame (s : State) (d) :
    let t := State.tearDown s d
    t.ms = s.ms ∧ t.cfg = s.cfg ∧ t.procs = s.procs ∧ t.time = s.time ∧ t.ports = s.ports ∧ t.fwd = s.fwd ∧
    t.qos = s.qos ∧ t.pins = s.pins ∧ t.power = s.power ∧ t.jtag = s.jtag ∧ t.svc = s.svc ∧ t.snap = s.snap ∧
    t.bist = s.bist ∧ t.trace = s.trace ∧ t.draws = s.draws ∧ t.pending = s.pending := by
  unfold State.tearDown
  repeat' (first | split | simp)

@[simp] theorem tenantResetSpec_frame (r : Req) (s : State) :
    let t := (tenantResetSpec.effect r s).1
    t.ms = s.ms ∧ t.cfg = s.cfg ∧ t.procs = s.procs ∧ t.time = s.time ∧ t.ports = s.ports ∧ t.qos = s.qos ∧
    t.pins = s.pins ∧ t.power = s.power ∧ t.jtag = s.jtag ∧ t.svc = s.svc ∧ t.snap = s.snap ∧ t.bist = s.bist ∧
    t.trace = s.trace ∧ t.draws = s.draws ∧ t.pending = s.pending := by
  unfold tenantResetSpec
  repeat' (first | split | simp)

@[simp] theorem State.cutEnds_frame (s : State) (p) :
    let t := State.cutEnds s p
    t.ms = s.ms ∧ t.host = s.host ∧ t.cfg = s.cfg ∧ t.nv = s.nv ∧ t.procs = s.procs ∧ t.time = s.time ∧
    t.fwd = s.fwd ∧ t.qos = s.qos ∧ t.radio = s.radio ∧ t.mesh = s.mesh ∧ t.pins = s.pins ∧ t.power = s.power ∧
    t.jtag = s.jtag ∧ t.pair = s.pair ∧ t.svc = s.svc ∧ t.snap = s.snap ∧ t.bist = s.bist ∧ t.trace = s.trace ∧
    t.ctr = s.ctr ∧ t.draws = s.draws ∧ t.pending = s.pending := by
  unfold State.cutEnds
  repeat' (first | split | simp)

@[simp] theorem portSetSpeedSpec_frame (r : Req) (s : State) :
    let t := (portSetSpeedSpec.effect r s).1
    t.ms = s.ms ∧ t.procs = s.procs ∧ t.time = s.time ∧ t.fwd = s.fwd ∧ t.mesh = s.mesh ∧ t.pins = s.pins ∧
    t.power = s.power ∧ t.jtag = s.jtag ∧ t.pair = s.pair ∧ t.svc = s.svc ∧ t.snap = s.snap ∧ t.bist = s.bist ∧
    t.trace = s.trace ∧ t.draws = s.draws ∧ t.pending = s.pending := by
  unfold portSetSpeedSpec
  repeat' (first | split | simp)

@[simp] theorem portSetCutThroughSpec_frame (r : Req) (s : State) :
    let t := (portSetCutThroughSpec.effect r s).1
    t.ms = s.ms ∧ t.host = s.host ∧ t.procs = s.procs ∧ t.time = s.time ∧ t.fwd = s.fwd ∧ t.qos = s.qos ∧
    t.radio = s.radio ∧ t.mesh = s.mesh ∧ t.pins = s.pins ∧ t.power = s.power ∧ t.jtag = s.jtag ∧ t.pair = s.pair ∧
    t.svc = s.svc ∧ t.snap = s.snap ∧ t.bist = s.bist ∧ t.trace = s.trace ∧ t.ctr = s.ctr ∧ t.draws = s.draws ∧
    t.pending = s.pending := by
  unfold portSetCutThroughSpec
  repeat' (first | split | simp)

@[simp] theorem portSetPreemptSpec_frame (r : Req) (s : State) :
    let t := (portSetPreemptSpec.effect r s).1
    t.ms = s.ms ∧ t.procs = s.procs ∧ t.time = s.time ∧ t.fwd = s.fwd ∧ t.mesh = s.mesh ∧ t.pins = s.pins ∧
    t.power = s.power ∧ t.jtag = s.jtag ∧ t.pair = s.pair ∧ t.svc = s.svc ∧ t.snap = s.snap ∧ t.bist = s.bist ∧
    t.trace = s.trace ∧ t.draws = s.draws ∧ t.pending = s.pending := by
  unfold portSetPreemptSpec
  repeat' (first | split | simp)

@[simp] theorem portSetRadioSpec_frame (r : Req) (s : State) :
    let t := (portSetRadioSpec.effect r s).1
    t.ms = s.ms ∧ t.procs = s.procs ∧ t.time = s.time ∧ t.fwd = s.fwd ∧ t.mesh = s.mesh ∧ t.pins = s.pins ∧
    t.power = s.power ∧ t.jtag = s.jtag ∧ t.pair = s.pair ∧ t.svc = s.svc ∧ t.snap = s.snap ∧ t.bist = s.bist ∧
    t.trace = s.trace ∧ t.draws = s.draws ∧ t.pending = s.pending := by
  unfold portSetRadioSpec
  repeat' (first | split | simp)

@[simp] theorem portRingPairSpec_frame (r : Req) (s : State) :
    let t := (portRingPairSpec.effect r s).1
    t.ms = s.ms ∧ t.host = s.host ∧ t.procs = s.procs ∧ t.time = s.time ∧ t.fwd = s.fwd ∧ t.qos = s.qos ∧
    t.radio = s.radio ∧ t.mesh = s.mesh ∧ t.power = s.power ∧ t.jtag = s.jtag ∧ t.pair = s.pair ∧ t.svc = s.svc ∧
    t.snap = s.snap ∧ t.bist = s.bist ∧ t.trace = s.trace ∧ t.ctr = s.ctr ∧ t.draws = s.draws ∧ t.pending = s.pending := by
  unfold portRingPairSpec
  repeat' (first | split | simp)

@[simp] theorem portGetStatusSpec_frame (r : Req) (s : State) :
    let t := (portGetStatusSpec.effect r s).1
    t.ms = s.ms ∧ t.host = s.host ∧ t.cfg = s.cfg ∧ t.nv = s.nv ∧ t.procs = s.procs ∧ t.time = s.time ∧
    t.ports = s.ports ∧ t.fwd = s.fwd ∧ t.qos = s.qos ∧ t.radio = s.radio ∧ t.mesh = s.mesh ∧ t.pins = s.pins ∧
    t.power = s.power ∧ t.jtag = s.jtag ∧ t.pair = s.pair ∧ t.svc = s.svc ∧ t.snap = s.snap ∧ t.bist = s.bist ∧
    t.trace = s.trace ∧ t.ctr = s.ctr ∧ t.draws = s.draws ∧ t.pending = s.pending := by
  unfold portGetStatusSpec
  repeat' (first | split | simp)

@[simp] theorem portOpticsMapSpec_frame (r : Req) (s : State) :
    let t := (portOpticsMapSpec.effect r s).1
    t.ms = s.ms ∧ t.procs = s.procs ∧ t.time = s.time ∧ t.fwd = s.fwd ∧ t.qos = s.qos ∧ t.mesh = s.mesh ∧
    t.power = s.power ∧ t.jtag = s.jtag ∧ t.pair = s.pair ∧ t.svc = s.svc ∧ t.snap = s.snap ∧ t.bist = s.bist ∧
    t.trace = s.trace ∧ t.pending = s.pending := by
  unfold portOpticsMapSpec
  repeat' (first | split | simp)

@[simp] theorem State.svcArrives_frame (s : State) :
    let t := State.svcArrives s
    t.ms = s.ms ∧ t.host = s.host ∧ t.cfg = s.cfg ∧ t.nv = s.nv ∧ t.procs = s.procs ∧ t.time = s.time ∧
    t.ports = s.ports ∧ t.fwd = s.fwd ∧ t.qos = s.qos ∧ t.radio = s.radio ∧ t.mesh = s.mesh ∧ t.pins = s.pins ∧
    t.power = s.power ∧ t.jtag = s.jtag ∧ t.pair = s.pair ∧ t.snap = s.snap ∧ t.bist = s.bist ∧ t.trace = s.trace ∧
    t.draws = s.draws ∧ t.pending = s.pending := by
  unfold State.svcArrives
  repeat' (first | split | simp)

@[simp] theorem State.svcAuthFail_frame (s : State) :
    let t := State.svcAuthFail s
    t.ms = s.ms ∧ t.host = s.host ∧ t.cfg = s.cfg ∧ t.nv = s.nv ∧ t.procs = s.procs ∧ t.time = s.time ∧
    t.ports = s.ports ∧ t.fwd = s.fwd ∧ t.qos = s.qos ∧ t.radio = s.radio ∧ t.mesh = s.mesh ∧ t.pins = s.pins ∧
    t.power = s.power ∧ t.jtag = s.jtag ∧ t.pair = s.pair ∧ t.svc = s.svc ∧ t.snap = s.snap ∧ t.bist = s.bist ∧
    t.trace = s.trace ∧ t.draws = s.draws ∧ t.pending = s.pending := by
  unfold State.svcAuthFail
  repeat' (first | split | simp)

@[simp] theorem State.sendOpenAck_frame (s : State) (x1) :
    let t := State.sendOpenAck s x1
    t.ms = s.ms ∧ t.host = s.host ∧ t.cfg = s.cfg ∧ t.nv = s.nv ∧ t.procs = s.procs ∧ t.time = s.time ∧
    t.ports = s.ports ∧ t.fwd = s.fwd ∧ t.qos = s.qos ∧ t.radio = s.radio ∧ t.mesh = s.mesh ∧ t.pins = s.pins ∧
    t.power = s.power ∧ t.jtag = s.jtag ∧ t.pair = s.pair ∧ t.snap = s.snap ∧ t.bist = s.bist ∧ t.trace = s.trace ∧
    t.pending = s.pending := by
  unfold State.sendOpenAck
  repeat' (first | split | simp)

@[simp] theorem State.sendAck_frame (s : State) (x1) :
    let t := State.sendAck s x1
    t.ms = s.ms ∧ t.host = s.host ∧ t.cfg = s.cfg ∧ t.nv = s.nv ∧ t.procs = s.procs ∧ t.time = s.time ∧
    t.ports = s.ports ∧ t.fwd = s.fwd ∧ t.qos = s.qos ∧ t.radio = s.radio ∧ t.mesh = s.mesh ∧ t.pins = s.pins ∧
    t.power = s.power ∧ t.jtag = s.jtag ∧ t.pair = s.pair ∧ t.snap = s.snap ∧ t.bist = s.bist ∧ t.trace = s.trace ∧
    t.pending = s.pending := by
  unfold State.sendAck
  repeat' (first | split | simp)

@[simp] theorem State.bind_frame (s : State) (x1) (tool) (src) :
    let t := State.bind s x1 tool src
    t.ms = s.ms ∧ t.host = s.host ∧ t.cfg = s.cfg ∧ t.nv = s.nv ∧ t.procs = s.procs ∧ t.time = s.time ∧
    t.ports = s.ports ∧ t.fwd = s.fwd ∧ t.qos = s.qos ∧ t.radio = s.radio ∧ t.mesh = s.mesh ∧ t.pins = s.pins ∧
    t.power = s.power ∧ t.jtag = s.jtag ∧ t.pair = s.pair ∧ t.snap = s.snap ∧ t.bist = s.bist ∧ t.trace = s.trace ∧
    t.pending = s.pending := by
  unfold State.bind
  repeat' (first | split | simp)

@[simp] theorem State.stageBlock_frame (s : State) (slot) (owner) (off) (data) :
    let t := State.stageBlock s slot owner off data
    t.ms = s.ms ∧ t.host = s.host ∧ t.cfg = s.cfg ∧ t.nv = s.nv ∧ t.procs = s.procs ∧ t.time = s.time ∧
    t.ports = s.ports ∧ t.fwd = s.fwd ∧ t.qos = s.qos ∧ t.radio = s.radio ∧ t.mesh = s.mesh ∧ t.pins = s.pins ∧
    t.power = s.power ∧ t.jtag = s.jtag ∧ t.pair = s.pair ∧ t.snap = s.snap ∧ t.bist = s.bist ∧ t.trace = s.trace ∧
    t.ctr = s.ctr ∧ t.draws = s.draws ∧ t.pending = s.pending := by
  unfold State.stageBlock
  repeat' (first | split | simp)

@[simp] theorem State.programBlock_frame (s : State) (x1) (data) :
    let t := State.programBlock s x1 data
    t.ms = s.ms ∧ t.host = s.host ∧ t.cfg = s.cfg ∧ t.procs = s.procs ∧ t.time = s.time ∧ t.ports = s.ports ∧
    t.fwd = s.fwd ∧ t.qos = s.qos ∧ t.radio = s.radio ∧ t.mesh = s.mesh ∧ t.pins = s.pins ∧ t.power = s.power ∧
    t.jtag = s.jtag ∧ t.snap = s.snap ∧ t.bist = s.bist ∧ t.trace = s.trace ∧ t.draws = s.draws ∧
    t.pending = s.pending := by
  unfold State.programBlock
  repeat' (first | split | simp)

@[simp] theorem updateOpenSpec_frame (r : Req) (s : State) :
    let t := (updateOpenSpec.effect r s).1
    t.ms = s.ms ∧ t.host = s.host ∧ t.cfg = s.cfg ∧ t.procs = s.procs ∧ t.time = s.time ∧ t.ports = s.ports ∧
    t.fwd = s.fwd ∧ t.qos = s.qos ∧ t.radio = s.radio ∧ t.mesh = s.mesh ∧ t.pins = s.pins ∧ t.power = s.power ∧
    t.jtag = s.jtag ∧ t.pair = s.pair ∧ t.snap = s.snap ∧ t.bist = s.bist ∧ t.trace = s.trace ∧ t.pending = s.pending := by
  unfold updateOpenSpec
  repeat' (first | split | simp)

@[simp] theorem updateStatusSpec_frame (r : Req) (s : State) :
    let t := (updateStatusSpec.effect r s).1
    t.ms = s.ms ∧ t.host = s.host ∧ t.cfg = s.cfg ∧ t.nv = s.nv ∧ t.procs = s.procs ∧ t.time = s.time ∧
    t.ports = s.ports ∧ t.fwd = s.fwd ∧ t.qos = s.qos ∧ t.radio = s.radio ∧ t.mesh = s.mesh ∧ t.pins = s.pins ∧
    t.power = s.power ∧ t.jtag = s.jtag ∧ t.pair = s.pair ∧ t.svc = s.svc ∧ t.snap = s.snap ∧ t.bist = s.bist ∧
    t.trace = s.trace ∧ t.ctr = s.ctr ∧ t.draws = s.draws ∧ t.pending = s.pending := by
  unfold updateStatusSpec
  repeat' (first | split | simp)

@[simp] theorem updateInstallSpec_frame (r : Req) (s : State) :
    let t := (updateInstallSpec.effect r s).1
    t.ms = s.ms ∧ t.cfg = s.cfg ∧ t.nv = s.nv ∧ t.procs = s.procs ∧ t.time = s.time ∧ t.ports = s.ports ∧
    t.fwd = s.fwd ∧ t.qos = s.qos ∧ t.radio = s.radio ∧ t.pins = s.pins ∧ t.power = s.power ∧ t.jtag = s.jtag ∧
    t.snap = s.snap ∧ t.bist = s.bist ∧ t.trace = s.trace ∧ t.pending = s.pending := by
  unfold updateInstallSpec
  repeat' (first | split | simp)

@[simp] theorem updateAbortSpec_frame (r : Req) (s : State) :
    let t := (updateAbortSpec.effect r s).1
    t.ms = s.ms ∧ t.cfg = s.cfg ∧ t.nv = s.nv ∧ t.procs = s.procs ∧ t.time = s.time ∧ t.ports = s.ports ∧
    t.fwd = s.fwd ∧ t.qos = s.qos ∧ t.radio = s.radio ∧ t.mesh = s.mesh ∧ t.pins = s.pins ∧ t.power = s.power ∧
    t.jtag = s.jtag ∧ t.snap = s.snap ∧ t.bist = s.bist ∧ t.trace = s.trace ∧ t.pending = s.pending := by
  unfold updateAbortSpec
  repeat' (first | split | simp)

@[simp] theorem updateBankInfoSpec_frame (r : Req) (s : State) :
    let t := (updateBankInfoSpec.effect r s).1
    t.ms = s.ms ∧ t.host = s.host ∧ t.cfg = s.cfg ∧ t.nv = s.nv ∧ t.procs = s.procs ∧ t.time = s.time ∧
    t.ports = s.ports ∧ t.fwd = s.fwd ∧ t.qos = s.qos ∧ t.radio = s.radio ∧ t.mesh = s.mesh ∧ t.pins = s.pins ∧
    t.power = s.power ∧ t.jtag = s.jtag ∧ t.pair = s.pair ∧ t.svc = s.svc ∧ t.snap = s.snap ∧ t.bist = s.bist ∧
    t.trace = s.trace ∧ t.ctr = s.ctr ∧ t.draws = s.draws ∧ t.pending = s.pending := by
  unfold updateBankInfoSpec
  repeat' (first | split | simp)

@[simp] theorem updateNodeImageDropSpec_frame (r : Req) (s : State) :
    let t := (updateNodeImageDropSpec.effect r s).1
    t.ms = s.ms ∧ t.host = s.host ∧ t.cfg = s.cfg ∧ t.nv = s.nv ∧ t.procs = s.procs ∧ t.time = s.time ∧
    t.ports = s.ports ∧ t.fwd = s.fwd ∧ t.qos = s.qos ∧ t.radio = s.radio ∧ t.pins = s.pins ∧ t.power = s.power ∧
    t.jtag = s.jtag ∧ t.pair = s.pair ∧ t.svc = s.svc ∧ t.snap = s.snap ∧ t.bist = s.bist ∧ t.trace = s.trace ∧
    t.ctr = s.ctr ∧ t.draws = s.draws ∧ t.pending = s.pending := by
  unfold updateNodeImageDropSpec
  repeat' (first | split | simp)

end Sys2Proof.Machine
end

