-- ==== Sys2Proof/Laws/FramePair.lean ====
section
/-! SUPPORT. Frames of the operations of the pair, the registers and the cycle plan: for each operation, the parts of the
state that it leaves as they were. -/

namespace Sys2Proof.Machine

@[simp] theorem State.checkState_frame (s : State) :
    let t := State.checkState s
    t.host = s.host ∧ t.cfg = s.cfg ∧ t.nv = s.nv ∧ t.procs = s.procs ∧ t.time = s.time ∧ t.ports = s.ports ∧
    t.fwd = s.fwd ∧ t.qos = s.qos ∧ t.radio = s.radio ∧ t.mesh = s.mesh ∧ t.pins = s.pins ∧ t.power = s.power ∧
    t.jtag = s.jtag ∧ t.pair = s.pair ∧ t.svc = s.svc ∧ t.snap = s.snap ∧ t.bist = s.bist ∧ t.trace = s.trace ∧
    t.ctr = s.ctr ∧ t.draws = s.draws ∧ t.pending = s.pending := by
  unfold State.checkState
  repeat' (first | split | simp)

@[simp] theorem State.sendKey_frame (s : State) (t_) (v) :
    let t := State.sendKey s t_ v
    t.ms = s.ms ∧ t.host = s.host ∧ t.cfg = s.cfg ∧ t.nv = s.nv ∧ t.procs = s.procs ∧ t.time = s.time ∧
    t.ports = s.ports ∧ t.fwd = s.fwd ∧ t.qos = s.qos ∧ t.radio = s.radio ∧ t.mesh = s.mesh ∧ t.pins = s.pins ∧
    t.power = s.power ∧ t.jtag = s.jtag ∧ t.svc = s.svc ∧ t.snap = s.snap ∧ t.bist = s.bist ∧ t.trace = s.trace ∧
    t.ctr = s.ctr ∧ t.draws = s.draws ∧ t.pending = s.pending := by
  unfold State.sendKey
  repeat' (first | split | simp)

@[simp] theorem State.carryRoot_frame (s : State) (r) :
    let t := State.carryRoot s r
    t.ms = s.ms ∧ t.host = s.host ∧ t.cfg = s.cfg ∧ t.nv = s.nv ∧ t.procs = s.procs ∧ t.time = s.time ∧
    t.ports = s.ports ∧ t.fwd = s.fwd ∧ t.qos = s.qos ∧ t.radio = s.radio ∧ t.mesh = s.mesh ∧ t.pins = s.pins ∧
    t.power = s.power ∧ t.jtag = s.jtag ∧ t.svc = s.svc ∧ t.snap = s.snap ∧ t.bist = s.bist ∧ t.trace = s.trace ∧
    t.ctr = s.ctr ∧ t.pending = s.pending := by
  unfold State.carryRoot
  repeat' (first | split | simp)

@[simp] theorem State.modTagged_frame (s : State) (f) (tag) (g) :
    let t := State.modTagged s f tag g
    t.ms = s.ms ∧ t.host = s.host ∧ t.cfg = s.cfg ∧ t.nv = s.nv ∧ t.procs = s.procs ∧ t.time = s.time ∧
    t.ports = s.ports ∧ t.fwd = s.fwd ∧ t.qos = s.qos ∧ t.radio = s.radio ∧ t.mesh = s.mesh ∧ t.pins = s.pins ∧
    t.power = s.power ∧ t.jtag = s.jtag ∧ t.svc = s.svc ∧ t.snap = s.snap ∧ t.bist = s.bist ∧ t.trace = s.trace ∧
    t.ctr = s.ctr ∧ t.draws = s.draws ∧ t.pending = s.pending := by
  unfold State.modTagged
  repeat' (first | split | simp)

@[simp] theorem State.modCarried_frame (s : State) (f) (tag) (g) :
    let t := State.modCarried s f tag g
    t.ms = s.ms ∧ t.host = s.host ∧ t.cfg = s.cfg ∧ t.nv = s.nv ∧ t.procs = s.procs ∧ t.time = s.time ∧
    t.ports = s.ports ∧ t.fwd = s.fwd ∧ t.qos = s.qos ∧ t.radio = s.radio ∧ t.mesh = s.mesh ∧ t.pins = s.pins ∧
    t.power = s.power ∧ t.jtag = s.jtag ∧ t.svc = s.svc ∧ t.snap = s.snap ∧ t.bist = s.bist ∧ t.trace = s.trace ∧
    t.ctr = s.ctr ∧ t.draws = s.draws ∧ t.pending = s.pending := by
  unfold State.modCarried
  repeat' (first | split | simp)

@[simp] theorem State.checkCarried_frame (s : State) (c) :
    let t := State.checkCarried s c
    t.procs = s.procs ∧ t.power = s.power ∧ t.jtag = s.jtag ∧ t.snap = s.snap ∧ t.pending = s.pending := by
  unfold State.checkCarried
  repeat' (first | split | simp)

@[simp] theorem State.diverged_frame (s : State) (sub) (tag) (opcode) :
    let t := State.diverged s sub tag opcode
    t.ms = s.ms ∧ t.cfg = s.cfg ∧ t.nv = s.nv ∧ t.procs = s.procs ∧ t.time = s.time ∧ t.ports = s.ports ∧
    t.fwd = s.fwd ∧ t.qos = s.qos ∧ t.radio = s.radio ∧ t.mesh = s.mesh ∧ t.pins = s.pins ∧ t.power = s.power ∧
    t.jtag = s.jtag ∧ t.pair = s.pair ∧ t.svc = s.svc ∧ t.snap = s.snap ∧ t.bist = s.bist ∧ t.trace = s.trace ∧
    t.draws = s.draws ∧ t.pending = s.pending := by
  unfold State.diverged
  repeat' (first | split | simp)

theorem carriedSpec_frame {op : Nat} {c : AciSpec} (h : carriedSpec op = some c) (r : Req) (s : State) :
    (c.effect r s).1.procs = s.procs ∧ (c.effect r s).1.power = s.power ∧ (c.effect r s).1.jtag = s.jtag ∧
      (c.effect r s).1.snap = s.snap ∧ (c.effect r s).1.pending = s.pending := by
  have h := List.mem_of_find?_eq_some h
  simp only [carriedSpecs, List.mem_append, List.mem_cons, List.not_mem_nil, or_false] at h
  repeat' (first | (simp; done) | (rcases h with h | h))

@[simp] theorem State.applyCarried_frame (s c) :
    let t := State.applyCarried s c
    t.procs = s.procs ∧ t.power = s.power ∧ t.jtag = s.jtag ∧ t.snap = s.snap ∧ t.pending = s.pending := by
  unfold State.applyCarried
  dsimp only
  split
  next spec st hs hm =>
    have h := carriedSpec_frame hs
    repeat' (first | split | simp [h])
  next => simp

@[simp] theorem State.undoLoad_frame (s : State) (f) (tag) :
    let t := State.undoLoad s f tag
    t.ms = s.ms ∧ t.host = s.host ∧ t.cfg = s.cfg ∧ t.nv = s.nv ∧ t.procs = s.procs ∧ t.time = s.time ∧
    t.ports = s.ports ∧ t.fwd = s.fwd ∧ t.qos = s.qos ∧ t.mesh = s.mesh ∧ t.pins = s.pins ∧ t.power = s.power ∧
    t.jtag = s.jtag ∧ t.pair = s.pair ∧ t.svc = s.svc ∧ t.snap = s.snap ∧ t.bist = s.bist ∧ t.trace = s.trace ∧
    t.ctr = s.ctr ∧ t.draws = s.draws ∧ t.pending = s.pending := by
  unfold State.undoLoad
  repeat' (first | split | simp)

@[simp] theorem State.settleFinal_frame (s : State) (x1) :
    let t := State.settleFinal s x1
    t.cfg = s.cfg ∧ t.nv = s.nv ∧ t.procs = s.procs ∧ t.time = s.time ∧ t.ports = s.ports ∧ t.fwd = s.fwd ∧
    t.qos = s.qos ∧ t.mesh = s.mesh ∧ t.pins = s.pins ∧ t.power = s.power ∧ t.jtag = s.jtag ∧ t.svc = s.svc ∧
    t.snap = s.snap ∧ t.bist = s.bist ∧ t.trace = s.trace ∧ t.pending = s.pending := by
  unfold State.settleFinal
  repeat' (first | split | simp)

@[simp] theorem State.settleDone_frame (s : State) (x1) :
    let t := State.settleDone s x1
    t.cfg = s.cfg ∧ t.nv = s.nv ∧ t.procs = s.procs ∧ t.time = s.time ∧ t.ports = s.ports ∧ t.fwd = s.fwd ∧
    t.qos = s.qos ∧ t.mesh = s.mesh ∧ t.pins = s.pins ∧ t.power = s.power ∧ t.jtag = s.jtag ∧ t.svc = s.svc ∧
    t.snap = s.snap ∧ t.bist = s.bist ∧ t.trace = s.trace ∧ t.pending = s.pending := by
  unfold State.settleDone
  repeat' (first | split | simp)

@[simp] theorem State.settleFinals_frame (s : State) :
    let t := State.settleFinals s
    t.cfg = s.cfg ∧ t.nv = s.nv ∧ t.procs = s.procs ∧ t.time = s.time ∧ t.ports = s.ports ∧ t.fwd = s.fwd ∧
    t.qos = s.qos ∧ t.mesh = s.mesh ∧ t.pins = s.pins ∧ t.power = s.power ∧ t.jtag = s.jtag ∧ t.svc = s.svc ∧
    t.snap = s.snap ∧ t.bist = s.bist ∧ t.trace = s.trace ∧ t.pending = s.pending := by
  unfold State.settleFinals
  repeat' (first | split | simp)

@[simp] theorem State.applyEffect_frame (s : State) (x1) :
    let t := State.applyEffect s x1
    t.ms = s.ms ∧ t.cfg = s.cfg ∧ t.procs = s.procs ∧ t.ports = s.ports ∧ t.fwd = s.fwd ∧ t.pins = s.pins ∧
    t.power = s.power ∧ t.jtag = s.jtag ∧ t.snap = s.snap ∧ t.bist = s.bist ∧ t.trace = s.trace ∧
    t.pending = s.pending := by
  unfold State.applyEffect
  repeat' (first | split | simp)

@[simp] theorem State.applyRelease_frame (s : State) (x1) :
    let t := State.applyRelease s x1
    t.ms = s.ms ∧ t.cfg = s.cfg ∧ t.procs = s.procs ∧ t.pins = s.pins ∧ t.power = s.power ∧ t.jtag = s.jtag ∧
    t.snap = s.snap ∧ t.bist = s.bist ∧ t.trace = s.trace ∧ t.pending = s.pending := by
  unfold State.applyRelease
  repeat' (first | split | simp)

@[simp] theorem State.releaseDue_frame (s : State) :
    let t := State.releaseDue s
    t.procs = s.procs ∧ t.power = s.power ∧ t.jtag = s.jtag ∧ t.snap = s.snap ∧ t.pending = s.pending := by
  unfold State.releaseDue
  repeat' (first | split | simp)

@[simp] theorem State.receive_frame (s : State) (release) (r) :
    let t := State.receive s release r
    t.cfg = s.cfg ∧ t.nv = s.nv ∧ t.procs = s.procs ∧ t.time = s.time ∧ t.ports = s.ports ∧ t.fwd = s.fwd ∧
    t.qos = s.qos ∧ t.radio = s.radio ∧ t.mesh = s.mesh ∧ t.pins = s.pins ∧ t.power = s.power ∧ t.jtag = s.jtag ∧
    t.svc = s.svc ∧ t.snap = s.snap ∧ t.bist = s.bist ∧ t.trace = s.trace ∧ t.ctr = s.ctr ∧ t.draws = s.draws ∧
    t.pending = s.pending := by
  unfold State.receive
  repeat' (first | split | simp)

@[simp] theorem State.ownAll_frame (s : State) :
    let t := State.ownAll s
    t.ms = s.ms ∧ t.cfg = s.cfg ∧ t.nv = s.nv ∧ t.procs = s.procs ∧ t.time = s.time ∧ t.ports = s.ports ∧
    t.fwd = s.fwd ∧ t.qos = s.qos ∧ t.radio = s.radio ∧ t.mesh = s.mesh ∧ t.pins = s.pins ∧ t.power = s.power ∧
    t.jtag = s.jtag ∧ t.svc = s.svc ∧ t.snap = s.snap ∧ t.bist = s.bist ∧ t.trace = s.trace ∧ t.ctr = s.ctr ∧
    t.draws = s.draws ∧ t.pending = s.pending := by
  unfold State.ownAll
  repeat' (first | split | simp)

@[simp] theorem State.useShadow_frame (s : State) :
    let t := State.useShadow s
    t.ms = s.ms ∧ t.cfg = s.cfg ∧ t.procs = s.procs ∧ t.ports = s.ports ∧ t.fwd = s.fwd ∧ t.pins = s.pins ∧
    t.power = s.power ∧ t.jtag = s.jtag ∧ t.snap = s.snap ∧ t.bist = s.bist ∧ t.trace = s.trace ∧
    t.pending = s.pending := by
  unfold State.useShadow
  repeat' (first | split | simp)

@[simp] theorem State.takeOver_frame (s : State) :
    let t := State.takeOver s
    t.cfg = s.cfg ∧ t.procs = s.procs ∧ t.fwd = s.fwd ∧ t.power = s.power ∧ t.jtag = s.jtag ∧ t.snap = s.snap ∧
    t.bist = s.bist ∧ t.pending = s.pending := by
  unfold State.takeOver
  repeat' (first | split | simp)

@[simp] theorem State.coldTake_frame (s : State) :
    let t := State.coldTake s
    t.cfg = s.cfg ∧ t.nv = s.nv ∧ t.procs = s.procs ∧ t.time = s.time ∧ t.fwd = s.fwd ∧ t.qos = s.qos ∧
    t.mesh = s.mesh ∧ t.power = s.power ∧ t.jtag = s.jtag ∧ t.snap = s.snap ∧ t.bist = s.bist ∧ t.pending = s.pending := by
  unfold State.coldTake
  repeat' (first | split | simp)

@[simp] theorem State.lostInSwap_frame (s : State) (reason) :
    let t := State.lostInSwap s reason
    t.cfg = s.cfg ∧ t.procs = s.procs ∧ t.fwd = s.fwd ∧ t.power = s.power ∧ t.jtag = s.jtag ∧ t.snap = s.snap ∧
    t.bist = s.bist ∧ t.pending = s.pending := by
  unfold State.lostInSwap
  repeat' (first | split | simp)

@[simp] theorem State.pairDown_frame (s : State) :
    let t := State.pairDown s
    t.cfg = s.cfg ∧ t.procs = s.procs ∧ t.fwd = s.fwd ∧ t.power = s.power ∧ t.jtag = s.jtag ∧ t.snap = s.snap ∧
    t.bist = s.bist ∧ t.pending = s.pending := by
  unfold State.pairDown
  repeat' (first | split | simp)

@[simp] theorem State.selfCheck_frame (s : State) (e) (p) (tell) :
    let t := State.selfCheck s e p tell
    t.cfg = s.cfg ∧ t.nv = s.nv ∧ t.procs = s.procs ∧ t.time = s.time ∧ t.fwd = s.fwd ∧ t.qos = s.qos ∧
    t.mesh = s.mesh ∧ t.power = s.power ∧ t.jtag = s.jtag ∧ t.snap = s.snap ∧ t.bist = s.bist ∧ t.pending = s.pending := by
  unfold State.selfCheck
  repeat' (first | split | simp)

@[simp] theorem State.mismatch_frame (s : State) (e) (p) :
    let t := State.mismatch s e p
    t.cfg = s.cfg ∧ t.nv = s.nv ∧ t.procs = s.procs ∧ t.time = s.time ∧ t.fwd = s.fwd ∧ t.qos = s.qos ∧
    t.mesh = s.mesh ∧ t.power = s.power ∧ t.jtag = s.jtag ∧ t.snap = s.snap ∧ t.bist = s.bist ∧ t.pending = s.pending := by
  unfold State.mismatch
  repeat' (first | split | simp)

@[simp] theorem State.compareDigests_frame (s : State) (e) (theirs) :
    let t := State.compareDigests s e theirs
    t.cfg = s.cfg ∧ t.nv = s.nv ∧ t.procs = s.procs ∧ t.time = s.time ∧ t.fwd = s.fwd ∧ t.qos = s.qos ∧
    t.mesh = s.mesh ∧ t.power = s.power ∧ t.jtag = s.jtag ∧ t.snap = s.snap ∧ t.bist = s.bist ∧ t.pending = s.pending := by
  unfold State.compareDigests
  repeat' (first | split | simp)

@[simp] theorem State.digestsDue_frame (s : State) (n1) :
    let t := State.digestsDue s n1
    t.cfg = s.cfg ∧ t.nv = s.nv ∧ t.procs = s.procs ∧ t.time = s.time ∧ t.fwd = s.fwd ∧ t.qos = s.qos ∧
    t.mesh = s.mesh ∧ t.power = s.power ∧ t.jtag = s.jtag ∧ t.snap = s.snap ∧ t.bist = s.bist ∧ t.pending = s.pending := by
  induction n1 generalizing s with
  | zero => simp [State.digestsDue]
  | succ n ih =>
    unfold State.digestsDue
    repeat' (first | split | simp [ih])

@[simp] theorem State.unexplained_frame (s : State) :
    let t := State.unexplained s
    t.ms = s.ms ∧ t.cfg = s.cfg ∧ t.nv = s.nv ∧ t.procs = s.procs ∧ t.time = s.time ∧ t.ports = s.ports ∧
    t.fwd = s.fwd ∧ t.qos = s.qos ∧ t.radio = s.radio ∧ t.mesh = s.mesh ∧ t.pins = s.pins ∧ t.power = s.power ∧
    t.jtag = s.jtag ∧ t.svc = s.svc ∧ t.snap = s.snap ∧ t.bist = s.bist ∧ t.trace = s.trace ∧ t.draws = s.draws ∧
    t.pending = s.pending := by
  unfold State.unexplained
  repeat' (first | split | simp)

@[simp] theorem State.outcome_frame (s : State) (result) (slice) (ports) :
    let t := State.outcome s result slice ports
    t.cfg = s.cfg ∧ t.nv = s.nv ∧ t.procs = s.procs ∧ t.time = s.time ∧ t.mesh = s.mesh ∧ t.power = s.power ∧
    t.jtag = s.jtag ∧ t.snap = s.snap ∧ t.bist = s.bist ∧ t.pending = s.pending := by
  unfold State.outcome
  repeat' (first | split | simp)

@[simp] theorem State.settleCheck_frame (s : State) :
    let t := State.settleCheck s
    t.cfg = s.cfg ∧ t.nv = s.nv ∧ t.procs = s.procs ∧ t.time = s.time ∧ t.mesh = s.mesh ∧ t.power = s.power ∧
    t.jtag = s.jtag ∧ t.snap = s.snap ∧ t.bist = s.bist ∧ t.pending = s.pending := by
  unfold State.settleCheck
  repeat' (first | split | simp)

@[simp] theorem State.failRef_frame (f) (s : State) (c) :
    let t := State.failRef f s c
    t.ms = s.ms ∧ t.cfg = s.cfg ∧ t.nv = s.nv ∧ t.procs = s.procs ∧ t.time = s.time ∧ t.ports = s.ports ∧
    t.fwd = s.fwd ∧ t.qos = s.qos ∧ t.radio = s.radio ∧ t.mesh = s.mesh ∧ t.pins = s.pins ∧ t.power = s.power ∧
    t.jtag = s.jtag ∧ t.pair = s.pair ∧ t.svc = s.svc ∧ t.snap = s.snap ∧ t.bist = s.bist ∧ t.trace = s.trace ∧
    t.ctr = s.ctr ∧ t.draws = s.draws ∧ t.pending = s.pending := by
  unfold State.failRef
  repeat' (first | split | simp)

@[simp] theorem State.failSend_frame (f) (s : State) (c) :
    let t := State.failSend f s c
    t.ms = s.ms ∧ t.host = s.host ∧ t.cfg = s.cfg ∧ t.nv = s.nv ∧ t.procs = s.procs ∧ t.time = s.time ∧
    t.ports = s.ports ∧ t.fwd = s.fwd ∧ t.qos = s.qos ∧ t.radio = s.radio ∧ t.pins = s.pins ∧ t.power = s.power ∧
    t.jtag = s.jtag ∧ t.pair = s.pair ∧ t.svc = s.svc ∧ t.snap = s.snap ∧ t.bist = s.bist ∧ t.trace = s.trace ∧
    t.ctr = s.ctr ∧ t.draws = s.draws ∧ t.pending = s.pending := by
  unfold State.failSend
  repeat' (first | split | simp)

@[simp] theorem State.failAccepted_frame (f) (s : State) (c) :
    let t := State.failAccepted f s c
    t.ms = s.ms ∧ t.cfg = s.cfg ∧ t.nv = s.nv ∧ t.procs = s.procs ∧ t.time = s.time ∧ t.ports = s.ports ∧
    t.fwd = s.fwd ∧ t.qos = s.qos ∧ t.radio = s.radio ∧ t.mesh = s.mesh ∧ t.pins = s.pins ∧ t.power = s.power ∧
    t.jtag = s.jtag ∧ t.svc = s.svc ∧ t.snap = s.snap ∧ t.bist = s.bist ∧ t.trace = s.trace ∧ t.ctr = s.ctr ∧
    t.draws = s.draws ∧ t.pending = s.pending := by
  unfold State.failAccepted
  repeat' (first | split | simp)

@[simp] theorem State.answerInternal_frame (s : State) (f) :
    let t := State.answerInternal s f
    t.ms = s.ms ∧ t.cfg = s.cfg ∧ t.nv = s.nv ∧ t.procs = s.procs ∧ t.time = s.time ∧ t.ports = s.ports ∧
    t.fwd = s.fwd ∧ t.qos = s.qos ∧ t.radio = s.radio ∧ t.mesh = s.mesh ∧ t.pins = s.pins ∧ t.power = s.power ∧
    t.jtag = s.jtag ∧ t.pair = s.pair ∧ t.svc = s.svc ∧ t.snap = s.snap ∧ t.bist = s.bist ∧ t.trace = s.trace ∧
    t.ctr = s.ctr ∧ t.draws = s.draws ∧ t.pending = s.pending := by
  unfold State.answerInternal
  repeat' (first | split | simp [-List.foldl_reverse])

@[simp] theorem State.completeInternal_frame (s : State) (f) :
    let t := State.completeInternal s f
    t.ms = s.ms ∧ t.cfg = s.cfg ∧ t.nv = s.nv ∧ t.procs = s.procs ∧ t.time = s.time ∧ t.ports = s.ports ∧
    t.fwd = s.fwd ∧ t.qos = s.qos ∧ t.radio = s.radio ∧ t.pins = s.pins ∧ t.power = s.power ∧ t.jtag = s.jtag ∧
    t.svc = s.svc ∧ t.snap = s.snap ∧ t.bist = s.bist ∧ t.trace = s.trace ∧ t.ctr = s.ctr ∧ t.draws = s.draws ∧
    t.pending = s.pending := by
  unfold State.completeInternal
  repeat' (first | split | simp [-List.foldl_reverse])

@[simp] theorem State.dropLoading_frame (s : State) (f) :
    let t := State.dropLoading s f
    t.ms = s.ms ∧ t.host = s.host ∧ t.cfg = s.cfg ∧ t.nv = s.nv ∧ t.procs = s.procs ∧ t.time = s.time ∧
    t.ports = s.ports ∧ t.fwd = s.fwd ∧ t.qos = s.qos ∧ t.mesh = s.mesh ∧ t.pins = s.pins ∧ t.power = s.power ∧
    t.jtag = s.jtag ∧ t.pair = s.pair ∧ t.svc = s.svc ∧ t.snap = s.snap ∧ t.bist = s.bist ∧ t.trace = s.trace ∧
    t.ctr = s.ctr ∧ t.draws = s.draws ∧ t.pending = s.pending := by
  unfold State.dropLoading
  repeat' (first | split | simp)

@[simp] theorem State.heldReports_frame (s : State) (x1) :
    let t := State.heldReports s x1
    t.ms = s.ms ∧ t.cfg = s.cfg ∧ t.procs = s.procs ∧ t.time = s.time ∧ t.ports = s.ports ∧ t.fwd = s.fwd ∧
    t.qos = s.qos ∧ t.pins = s.pins ∧ t.power = s.power ∧ t.jtag = s.jtag ∧ t.svc = s.svc ∧ t.snap = s.snap ∧
    t.bist = s.bist ∧ t.trace = s.trace ∧ t.draws = s.draws ∧ t.pending = s.pending := by
  unfold State.heldReports
  repeat' (first | split | simp)

@[simp] theorem State.processHeld_frame (s : State) (p) :
    let t := State.processHeld s p
    t.ms = s.ms ∧ t.cfg = s.cfg ∧ t.time = s.time ∧ t.ports = s.ports ∧ t.fwd = s.fwd ∧ t.qos = s.qos ∧
    t.pins = s.pins ∧ t.power = s.power ∧ t.jtag = s.jtag ∧ t.svc = s.svc ∧ t.snap = s.snap ∧ t.bist = s.bist ∧
    t.trace = s.trace ∧ t.pending = s.pending := by
  unfold State.processHeld
  repeat' (first | split | simp)

@[simp] theorem State.startSync_frame (s : State) :
    let t := State.startSync s
    t.ms = s.ms ∧ t.host = s.host ∧ t.cfg = s.cfg ∧ t.nv = s.nv ∧ t.procs = s.procs ∧ t.time = s.time ∧
    t.ports = s.ports ∧ t.fwd = s.fwd ∧ t.qos = s.qos ∧ t.radio = s.radio ∧ t.mesh = s.mesh ∧ t.pins = s.pins ∧
    t.power = s.power ∧ t.jtag = s.jtag ∧ t.svc = s.svc ∧ t.snap = s.snap ∧ t.bist = s.bist ∧ t.trace = s.trace ∧
    t.ctr = s.ctr ∧ t.draws = s.draws ∧ t.pending = s.pending := by
  unfold State.startSync
  repeat' (first | split | simp)

@[simp] theorem State.peerState_frame (s : State) (mode) (synced) :
    let t := State.peerState s mode synced
    t.cfg = s.cfg ∧ t.procs = s.procs ∧ t.fwd = s.fwd ∧ t.power = s.power ∧ t.jtag = s.jtag ∧ t.snap = s.snap ∧
    t.bist = s.bist ∧ t.pending = s.pending := by
  unfold State.peerState
  repeat' (first | split | simp)

@[simp] theorem State.copyConfig_frame (s : State) (x1) :
    let t := State.copyConfig s x1
    t.ms = s.ms ∧ t.host = s.host ∧ t.procs = s.procs ∧ t.mesh = s.mesh ∧ t.power = s.power ∧ t.jtag = s.jtag ∧
    t.svc = s.svc ∧ t.snap = s.snap ∧ t.bist = s.bist ∧ t.trace = s.trace ∧ t.ctr = s.ctr ∧ t.draws = s.draws ∧
    t.pending = s.pending := by
  unfold State.copyConfig
  repeat' (first | split | simp)

@[simp] theorem State.removeExcess_frame (s : State) (u) :
    let t := State.removeExcess s u
    t.ms = s.ms ∧ t.host = s.host ∧ t.cfg = s.cfg ∧ t.nv = s.nv ∧ t.procs = s.procs ∧ t.time = s.time ∧
    t.fwd = s.fwd ∧ t.qos = s.qos ∧ t.mesh = s.mesh ∧ t.pins = s.pins ∧ t.power = s.power ∧ t.jtag = s.jtag ∧
    t.pair = s.pair ∧ t.svc = s.svc ∧ t.snap = s.snap ∧ t.trace = s.trace ∧ t.ctr = s.ctr ∧ t.draws = s.draws ∧
    t.pending = s.pending := by
  unfold State.removeExcess
  repeat' (first | split | simp)

@[simp] theorem State.endConfig_frame (s : State) :
    let t := State.endConfig s
    t.ms = s.ms ∧ t.cfg = s.cfg ∧ t.procs = s.procs ∧ t.time = s.time ∧ t.fwd = s.fwd ∧ t.qos = s.qos ∧
    t.mesh = s.mesh ∧ t.pins = s.pins ∧ t.power = s.power ∧ t.jtag = s.jtag ∧ t.svc = s.svc ∧ t.snap = s.snap ∧
    t.trace = s.trace ∧ t.ctr = s.ctr ∧ t.draws = s.draws ∧ t.pending = s.pending := by
  unfold State.endConfig
  repeat' (first | split | simp)

@[simp] theorem State.setSynced_frame (s : State) :
    let t := State.setSynced s
    t.cfg = s.cfg ∧ t.nv = s.nv ∧ t.procs = s.procs ∧ t.time = s.time ∧ t.ports = s.ports ∧ t.fwd = s.fwd ∧
    t.qos = s.qos ∧ t.radio = s.radio ∧ t.mesh = s.mesh ∧ t.pins = s.pins ∧ t.power = s.power ∧ t.jtag = s.jtag ∧
    t.svc = s.svc ∧ t.snap = s.snap ∧ t.bist = s.bist ∧ t.trace = s.trace ∧ t.ctr = s.ctr ∧ t.draws = s.draws ∧
    t.pending = s.pending := by
  unfold State.setSynced
  repeat' (first | split | simp)

@[simp] theorem State.alignClock_frame (s : State) :
    let t := State.alignClock s
    t.ms = s.ms ∧ t.host = s.host ∧ t.cfg = s.cfg ∧ t.nv = s.nv ∧ t.procs = s.procs ∧ t.ports = s.ports ∧
    t.fwd = s.fwd ∧ t.qos = s.qos ∧ t.radio = s.radio ∧ t.mesh = s.mesh ∧ t.pins = s.pins ∧ t.power = s.power ∧
    t.jtag = s.jtag ∧ t.svc = s.svc ∧ t.snap = s.snap ∧ t.bist = s.bist ∧ t.trace = s.trace ∧ t.ctr = s.ctr ∧
    t.pending = s.pending := by
  unfold State.alignClock
  repeat' (first | split | simp)

@[simp] theorem State.sendRoot_frame (s : State) (t_) :
    let t := State.sendRoot s t_
    t.ms = s.ms ∧ t.host = s.host ∧ t.cfg = s.cfg ∧ t.nv = s.nv ∧ t.procs = s.procs ∧ t.time = s.time ∧
    t.ports = s.ports ∧ t.fwd = s.fwd ∧ t.qos = s.qos ∧ t.radio = s.radio ∧ t.mesh = s.mesh ∧ t.pins = s.pins ∧
    t.power = s.power ∧ t.jtag = s.jtag ∧ t.svc = s.svc ∧ t.snap = s.snap ∧ t.bist = s.bist ∧ t.trace = s.trace ∧
    t.ctr = s.ctr ∧ t.draws = s.draws ∧ t.pending = s.pending := by
  unfold State.sendRoot
  repeat' (first | split | simp)

@[simp] theorem State.sendConfig_frame (s : State) :
    let t := State.sendConfig s
    t.ms = s.ms ∧ t.host = s.host ∧ t.cfg = s.cfg ∧ t.nv = s.nv ∧ t.procs = s.procs ∧ t.time = s.time ∧
    t.ports = s.ports ∧ t.fwd = s.fwd ∧ t.qos = s.qos ∧ t.radio = s.radio ∧ t.mesh = s.mesh ∧ t.pins = s.pins ∧
    t.power = s.power ∧ t.jtag = s.jtag ∧ t.svc = s.svc ∧ t.snap = s.snap ∧ t.bist = s.bist ∧ t.trace = s.trace ∧
    t.ctr = s.ctr ∧ t.pending = s.pending := by
  unfold State.sendConfig
  repeat' (first | split | simp)

@[simp] theorem State.agree_frame (s : State) :
    let t := State.agree s
    t.ms = s.ms ∧ t.host = s.host ∧ t.cfg = s.cfg ∧ t.nv = s.nv ∧ t.procs = s.procs ∧ t.time = s.time ∧
    t.ports = s.ports ∧ t.fwd = s.fwd ∧ t.qos = s.qos ∧ t.radio = s.radio ∧ t.mesh = s.mesh ∧ t.pins = s.pins ∧
    t.power = s.power ∧ t.jtag = s.jtag ∧ t.svc = s.svc ∧ t.snap = s.snap ∧ t.bist = s.bist ∧ t.trace = s.trace ∧
    t.ctr = s.ctr ∧ t.pending = s.pending := by
  unfold State.agree
  repeat' (first | split | simp)

@[simp] theorem State.setResult_frame (s : State) (n) :
    let t := State.setResult s n
    t.host = s.host ∧ t.cfg = s.cfg ∧ t.nv = s.nv ∧ t.procs = s.procs ∧ t.time = s.time ∧ t.ports = s.ports ∧
    t.fwd = s.fwd ∧ t.qos = s.qos ∧ t.radio = s.radio ∧ t.mesh = s.mesh ∧ t.pins = s.pins ∧ t.power = s.power ∧
    t.jtag = s.jtag ∧ t.pair = s.pair ∧ t.svc = s.svc ∧ t.snap = s.snap ∧ t.bist = s.bist ∧ t.trace = s.trace ∧
    t.ctr = s.ctr ∧ t.draws = s.draws ∧ t.pending = s.pending := by
  unfold State.setResult
  repeat' (first | split | simp)

@[simp] theorem State.writeMbox_frame (s : State) (f) (off) (v) :
    let t := State.writeMbox s f off v
    t.ms = s.ms ∧ t.cfg = s.cfg ∧ t.nv = s.nv ∧ t.procs = s.procs ∧ t.time = s.time ∧ t.ports = s.ports ∧
    t.fwd = s.fwd ∧ t.qos = s.qos ∧ t.radio = s.radio ∧ t.mesh = s.mesh ∧ t.pins = s.pins ∧ t.power = s.power ∧
    t.jtag = s.jtag ∧ t.pair = s.pair ∧ t.svc = s.svc ∧ t.snap = s.snap ∧ t.bist = s.bist ∧ t.trace = s.trace ∧
    t.ctr = s.ctr ∧ t.draws = s.draws ∧ t.pending = s.pending := by
  unfold State.writeMbox
  repeat' (first | split | simp)

@[simp] theorem State.writeDoorbell_frame (s : State) (f) (off) (v) :
    let t := State.writeDoorbell s f off v
    t.ms = s.ms ∧ t.cfg = s.cfg ∧ t.nv = s.nv ∧ t.procs = s.procs ∧ t.time = s.time ∧ t.ports = s.ports ∧
    t.fwd = s.fwd ∧ t.qos = s.qos ∧ t.radio = s.radio ∧ t.mesh = s.mesh ∧ t.pins = s.pins ∧ t.power = s.power ∧
    t.jtag = s.jtag ∧ t.pair = s.pair ∧ t.svc = s.svc ∧ t.snap = s.snap ∧ t.bist = s.bist ∧ t.trace = s.trace ∧
    t.ctr = s.ctr ∧ t.draws = s.draws ∧ t.pending = s.pending := by
  unfold State.writeDoorbell
  repeat' (first | split | simp)

@[simp] theorem State.writeWell_frame (s : State) (f) (slot) (off) (v) :
    let t := State.writeWell s f slot off v
    t.ms = s.ms ∧ t.cfg = s.cfg ∧ t.nv = s.nv ∧ t.procs = s.procs ∧ t.time = s.time ∧ t.ports = s.ports ∧
    t.fwd = s.fwd ∧ t.qos = s.qos ∧ t.radio = s.radio ∧ t.mesh = s.mesh ∧ t.pins = s.pins ∧ t.power = s.power ∧
    t.jtag = s.jtag ∧ t.pair = s.pair ∧ t.svc = s.svc ∧ t.snap = s.snap ∧ t.bist = s.bist ∧ t.trace = s.trace ∧
    t.ctr = s.ctr ∧ t.draws = s.draws ∧ t.pending = s.pending := by
  unfold State.writeWell
  repeat' (first | split | simp)

@[simp] theorem State.writeMsix_frame (s : State) (f) (off) (v) :
    let t := State.writeMsix s f off v
    t.ms = s.ms ∧ t.cfg = s.cfg ∧ t.nv = s.nv ∧ t.procs = s.procs ∧ t.time = s.time ∧ t.ports = s.ports ∧
    t.fwd = s.fwd ∧ t.qos = s.qos ∧ t.radio = s.radio ∧ t.mesh = s.mesh ∧ t.pins = s.pins ∧ t.power = s.power ∧
    t.jtag = s.jtag ∧ t.pair = s.pair ∧ t.svc = s.svc ∧ t.snap = s.snap ∧ t.bist = s.bist ∧ t.trace = s.trace ∧
    t.ctr = s.ctr ∧ t.draws = s.draws ∧ t.pending = s.pending := by
  unfold State.writeMsix
  repeat' (first | split | simp)

@[simp] theorem State.writePair_frame (s : State) (off) (v) :
    let t := State.writePair s off v
    t.ms = s.ms ∧ t.host = s.host ∧ t.cfg = s.cfg ∧ t.nv = s.nv ∧ t.procs = s.procs ∧ t.time = s.time ∧
    t.ports = s.ports ∧ t.fwd = s.fwd ∧ t.qos = s.qos ∧ t.radio = s.radio ∧ t.mesh = s.mesh ∧ t.pins = s.pins ∧
    t.power = s.power ∧ t.jtag = s.jtag ∧ t.svc = s.svc ∧ t.snap = s.snap ∧ t.bist = s.bist ∧ t.trace = s.trace ∧
    t.ctr = s.ctr ∧ t.draws = s.draws ∧ t.pending = s.pending := by
  unfold State.writePair
  repeat' (first | split | simp)

@[simp] theorem State.writeRtc_frame (s : State) (off) (v) :
    let t := State.writeRtc s off v
    t.ms = s.ms ∧ t.host = s.host ∧ t.cfg = s.cfg ∧ t.nv = s.nv ∧ t.procs = s.procs ∧ t.ports = s.ports ∧
    t.fwd = s.fwd ∧ t.qos = s.qos ∧ t.radio = s.radio ∧ t.mesh = s.mesh ∧ t.pins = s.pins ∧ t.power = s.power ∧
    t.jtag = s.jtag ∧ t.pair = s.pair ∧ t.svc = s.svc ∧ t.snap = s.snap ∧ t.bist = s.bist ∧ t.trace = s.trace ∧
    t.ctr = s.ctr ∧ t.draws = s.draws ∧ t.pending = s.pending := by
  unfold State.writeRtc
  repeat' (first | split | simp)

@[simp] theorem State.writeSnap_frame (s : State) (off) (v) :
    let t := State.writeSnap s off v
    t.ms = s.ms ∧ t.host = s.host ∧ t.cfg = s.cfg ∧ t.nv = s.nv ∧ t.procs = s.procs ∧ t.time = s.time ∧
    t.ports = s.ports ∧ t.fwd = s.fwd ∧ t.qos = s.qos ∧ t.radio = s.radio ∧ t.mesh = s.mesh ∧ t.pins = s.pins ∧
    t.power = s.power ∧ t.jtag = s.jtag ∧ t.pair = s.pair ∧ t.svc = s.svc ∧ t.bist = s.bist ∧ t.trace = s.trace ∧
    t.draws = s.draws ∧ t.pending = s.pending := by
  unfold State.writeSnap
  repeat' (first | split | simp)

@[simp] theorem State.writeVf_frame (s : State) (f) (off) (v) :
    let t := State.writeVf s f off v
    t.ms = s.ms ∧ t.cfg = s.cfg ∧ t.nv = s.nv ∧ t.procs = s.procs ∧ t.time = s.time ∧ t.ports = s.ports ∧
    t.fwd = s.fwd ∧ t.qos = s.qos ∧ t.radio = s.radio ∧ t.mesh = s.mesh ∧ t.pins = s.pins ∧ t.power = s.power ∧
    t.jtag = s.jtag ∧ t.pair = s.pair ∧ t.svc = s.svc ∧ t.snap = s.snap ∧ t.bist = s.bist ∧ t.trace = s.trace ∧
    t.ctr = s.ctr ∧ t.draws = s.draws ∧ t.pending = s.pending := by
  unfold State.writeVf
  repeat' (first | split | simp)

@[simp] theorem State.withFetchWord_frame (s : State) (nbits) (w) :
    let t := State.withFetchWord s nbits w
    t.ms = s.ms ∧ t.host = s.host ∧ t.cfg = s.cfg ∧ t.nv = s.nv ∧ t.procs = s.procs ∧ t.time = s.time ∧
    t.ports = s.ports ∧ t.fwd = s.fwd ∧ t.qos = s.qos ∧ t.radio = s.radio ∧ t.mesh = s.mesh ∧ t.pins = s.pins ∧
    t.power = s.power ∧ t.jtag = s.jtag ∧ t.pair = s.pair ∧ t.svc = s.svc ∧ t.snap = s.snap ∧ t.bist = s.bist ∧
    t.trace = s.trace ∧ t.ctr = s.ctr ∧ t.draws = s.draws := by
  unfold State.withFetchWord
  repeat' (first | split | simp)

end Sys2Proof.Machine
end

