-- ==== Sys2Proof/Laws/Tab.lean ====
section
/-! SUPPORT. The laws of the canonical sparse table: reading after a write, and that every write keeps the canonical form
(numbers strictly rising, no default listed). -/

namespace Sys2Proof.Machine

variable {α : Type}

theorem tget_tput_self (d : α) (t : Tab α) (n : Nat) (v : α) : tget d (tput t n v) n = v := by
  induction t with
  | nil => simp [tput, tget]
  | cons e t ih => unfold tput; split; · simp [tget]
                   split
                   · simp [tget]
                   · simp [tget, ih, Ne.symm ‹¬n = e.1›]

theorem tget_tput_ne (d : α) (t : Tab α) {n m : Nat} (v : α) (h : m ≠ n) : tget d (tput t n v) m = tget d t m := by
  induction t with
  | nil => simp [tput, tget, h.symm]
  | cons e t ih =>
    unfold tput
    split
    · simp [tget, h.symm]
    split
    next hk => simp [tget, ← hk, h.symm]
    next => simp [tget, ih]

theorem tget_filter_self (d : α) (t : Tab α) (n : Nat) : tget d (t.filter fun e => e.1 != n) n = d := by
  induction t with
  | nil => rfl
  | cons e t ih =>
    by_cases h : e.1 = n
    · simpa [h] using ih
    · simpa [h, tget] using ih

theorem tget_filter_ne (d : α) (t : Tab α) {n m : Nat} (h : m ≠ n) :
    tget d (t.filter fun e => e.1 != n) m = tget d t m := by
  induction t with
  | nil => rfl
  | cons e t ih =>
    by_cases hn : e.1 = n
    · simp [hn, tget, h.symm, ih]
    · simp [hn, tget, ih]

variable [DecidableEq α]

/-- What is written at a number is read there. -/
@[simp] theorem tget_tset_self (d : α) (t : Tab α) (n : Nat) (v : α) : tget d (tset d t n v) n = v := by
  unfold tset
  split
  next h => rw [h]; exact tget_filter_self d t n
  next => exact tget_tput_self d t n v

/-- A write leaves every other number alone. -/
theorem tget_tset_ne (d : α) (t : Tab α) {n m : Nat} (v : α) (h : m ≠ n) : tget d (tset d t n v) m = tget d t m := by
  unfold tset
  split
  · exact tget_filter_ne d t h
  · exact tget_tput_ne d t v h

@[simp] theorem tget_tmod_self (d : α) (t : Tab α) (n : Nat) (f : α → α) : tget d (tmod d t n f) n = f (tget d t n) := by
  simp [tmod]

theorem tget_tmod_ne (d : α) (t : Tab α) {n m : Nat} (f : α → α) (h : m ≠ n) : tget d (tmod d t n f) m = tget d t m :=
  tget_tset_ne d t _ h

omit [DecidableEq α] in
theorem risingFrom_mono (t : Tab α) {a b : Nat} (h : a ≤ b) (hr : risingFrom b t = true) : risingFrom a t = true := by
  cases t with
  | nil => rfl
  | cons e t =>
    simp only [risingFrom, Bool.and_eq_true, decide_eq_true_eq] at hr ⊢
    exact ⟨Nat.le_trans h hr.1, hr.2⟩

omit [DecidableEq α] in
theorem risingFrom_filter (t : Tab α) (p : Nat × α → Bool) {a : Nat} (hr : risingFrom a t = true) :
    risingFrom a (t.filter p) = true := by
  induction t generalizing a with
  | nil => rfl
  | cons e t ih =>
    simp only [risingFrom, Bool.and_eq_true, decide_eq_true_eq] at hr
    by_cases h : p e = true
    · rw [List.filter_cons_of_pos h]
      simp only [risingFrom, Bool.and_eq_true, decide_eq_true_eq]
      exact ⟨hr.1, ih hr.2⟩
    · rw [List.filter_cons_of_neg h]
      exact risingFrom_mono _ (by omega) (ih hr.2)

omit [DecidableEq α] in
theorem risingFrom_tput (t : Tab α) (n : Nat) (v : α) {a : Nat} (ha : a ≤ n) (hr : risingFrom a t = true) :
    risingFrom a (tput t n v) = true := by
  induction t generalizing a with
  | nil => simp [tput, risingFrom, ha]
  | cons e t ih =>
    simp only [risingFrom, Bool.and_eq_true, decide_eq_true_eq] at hr
    unfold tput
    split
    next hlt =>
      simp only [risingFrom, Bool.and_eq_true, decide_eq_true_eq]
      exact ⟨ha, by omega, hr.2⟩
    split
    next heq =>
      simp only [risingFrom, Bool.and_eq_true, decide_eq_true_eq]
      exact ⟨ha, by rw [heq]; exact hr.2⟩
    next h1 h2 =>
      simp only [risingFrom, Bool.and_eq_true, decide_eq_true_eq]
      exact ⟨hr.1, ih (by omega) hr.2⟩

omit [DecidableEq α] in
theorem mem_tput (t : Tab α) (n : Nat) (v : α) {e : Nat × α} (h : e ∈ tput t n v) : e = (n, v) ∨ e ∈ t := by
  induction t with
  | nil => simpa [tput] using h
  | cons x t ih =>
    unfold tput at h
    split at h
    · simpa using h
    split at h
    · rcases List.mem_cons.1 h with h | h
      · exact .inl h
      · exact .inr (List.mem_cons_of_mem _ h)
    · rcases List.mem_cons.1 h with h | h
      · exact .inr (h ▸ List.mem_cons_self)
      · rcases ih h with h | h
        · exact .inl h
        · exact .inr (List.mem_cons_of_mem _ h)

/-- Every write keeps the canonical form. -/
theorem twf_tset (d : α) (t : Tab α) (n : Nat) (v : α) (h : twf d t = true) : twf d (tset d t n v) = true := by
  simp only [twf, Bool.and_eq_true, List.all_eq_true, decide_eq_true_eq] at h ⊢
  unfold tset
  split
  · exact ⟨risingFrom_filter _ _ h.1, fun e he => h.2 e ((List.mem_filter.1 he).1)⟩
  next hv =>
    refine ⟨risingFrom_tput _ _ _ (Nat.zero_le n) h.1, fun e he => ?_⟩
    rcases mem_tput _ _ _ he with rfl | he
    · exact hv
    · exact h.2 e he

theorem twf_tmod (d : α) (t : Tab α) (n : Nat) (f : α → α) (h : twf d t = true) : twf d (tmod d t n f) = true :=
  twf_tset d t n _ h

end Sys2Proof.Machine
end

