-- ==== Sys2Proof/Laws/MinSum.lean ====
section
/-! SUPPORT. The min-sum decoder of R366 on soft values that all favour a 0 bit: whatever the rounding and whatever the hard decision on
0, it ends after its first iteration with the word of zeros. -/

namespace Sys2Proof.Machine

theorem syndromeOk_zero (rate z : Nat) : syndromeOk rate z 0 = true := by
  have h (l : List Nat) (i acc : Nat) : l.foldl (fun acc j => match ldpcH rate z i j with
      | some t => acc ^^^ rotate z (blockOf z 0 j) t
      | none => acc) acc = acc := by
    induction l generalizing acc with
    | nil => rfl
    | cons j l ih =>
      rw [List.foldl_cons, ih]
      cases ldpcH rate z i j <;> simp [rotate, blockOf]
  simp only [syndromeOk, syndromeRow, List.all_eq_true, beq_iff_eq]
  exact fun i _ => h _ i 0

theorem natOf_false (l : List Bool) (h : ∀ b ∈ l, b = false) : natOf l = 0 := by
  induction l with
  | nil => rfl
  | cons b l ih =>
    simp only [List.mem_cons, forall_eq_or_imp] at h
    simp [natOf, h.1, ih h.2, b2n]

theorem divRound_nonneg {a : Int} (h : 0 ≤ a) : 0 ≤ divRound a 4 := by
  unfold divRound
  split
  · omega
  · split <;> omega

theorem foldl_min_nonneg (l : List Int) (m : Int) (h : 0 ≤ m) : 0 ≤ l.foldl (fun m v => min m (v.natAbs : Int)) m := by
  induction l generalizing m with
  | nil => exact h
  | cons v l ih => exact ih _ (le_min h (by omega))

/-- The messages of a check whose inputs favour 0 favour 0. -/
theorem checkRow_nonneg (q : List Int) (h : ∀ v ∈ q, 0 ≤ v) (k : Nat) : 0 ≤ (checkRow q).getD k 0 := by
  unfold checkRow
  rw [List.getD_eq_getElem?_getD, List.getElem?_map]
  cases hk : (List.range q.length)[k]? with
  | none => simp
  | some i =>
    have hn : (q.eraseIdx i).filter (fun v => decide (v < 0)) = [] := by
      rw [List.filter_eq_nil_iff]
      intro v hv
      have := h v (List.mem_of_mem_eraseIdx hv)
      simpa using this
    have hm := foldl_min_nonneg (q.eraseIdx i) 127 (by omega)
    have hd : 0 ≤ divRound (3 * (q.eraseIdx i).foldl (fun m v => min m (v.natAbs : Int)) 127) 4 := divRound_nonneg (by omega)
    simpa [hn] using hd

theorem clampInt_nonneg {v : Int} (h : 0 ≤ v) : 0 ≤ clampInt (-127) 127 v := by
  unfold clampInt; split <;> [omega; (split <;> omega)]

theorem clampInt_pos {v : Int} (h : 0 < v) : 0 < clampInt (-512) 511 v := by
  unfold clampInt; split <;> [omega; (split <;> omega)]

/-- Before layer `i`: every posterior favours 0, and the layers from `i` on have no messages. -/
def MinSum.Favours (z i : Nat) (x : MinSum) : Prop :=
  (∃ f : Nat → Nat → Int, (∀ j p, 0 < f j p) ∧ x.post = (List.range 24).map fun j => (List.range z).map (f j)) ∧
  ∀ k j, i ≤ k → j < 24 → tget [] x.msgs (24 * k + j) = []

theorem tget_foldl_tset (l : List ((Nat × Nat) × Nat)) (i n : Nat) (v : (Nat × Nat) × Nat → List Int) (m : Tab (List Int))
    (h : ∀ c ∈ l, 24 * i + c.1.1 ≠ n) :
    tget [] (l.foldl (fun m c => tset [] m (24 * i + c.1.1) (v c)) m) n = tget [] m n := by
  induction l generalizing m with
  | nil => rfl
  | cons c l ih =>
    simp only [List.mem_cons, forall_eq_or_imp] at h
    rw [List.foldl_cons, ih _ h.2, tget_tset_ne [] m _ (Ne.symm h.1)]

theorem layerCols_lt {rate z i : Nat} {c : Nat × Nat} (h : c ∈ layerCols rate z i) : c.1 < 24 := by
  simp only [layerCols, List.mem_filterMap, List.mem_range, Option.map_eq_some_iff] at h
  obtain ⟨j, hj, t, -, rfl⟩ := h
  exact hj

/-- Rows that each favour 0 are those of one function. -/
theorem rows_of {z : Nat} (g : Nat → List Int) (h : ∀ j, j < 24 → ∃ f : Nat → Int, (∀ p, 0 < f p) ∧ g j = (List.range z).map f) :
    ∃ f : Nat → Nat → Int, (∀ j p, 0 < f j p) ∧ (List.range 24).map g = (List.range 24).map fun j => (List.range z).map (f j) := by
  have h' (j : Nat) : ∃ f : Nat → Int, (∀ p, 0 < f p) ∧ (j < 24 → g j = (List.range z).map f) := by
    by_cases hj : j < 24
    · obtain ⟨f, hf, e⟩ := h j hj
      exact ⟨f, hf, fun _ => e⟩
    · exact ⟨fun _ => 1, by simp, fun k => absurd k hj⟩
  choose f hf e using h'
  exact ⟨f, hf, List.map_congr_left fun j hj => e j (List.mem_range.mp hj)⟩

theorem MinSum.Favours.layer {rate z i : Nat} {x : MinSum} (h : x.Favours z i) : (MinSum.layer rate z x i).Favours z (i + 1) := by
  obtain ⟨⟨f, hf, hp⟩, hm⟩ := h
  have post (j p : Nat) : 0 ≤ (x.post.getD j []).getD p 0 := by
    rw [hp, List.getD_eq_getElem?_getD, List.getD_eq_getElem?_getD, List.getElem?_map]
    cases (List.range 24)[j]? with
    | none => simp
    | some j =>
      simp only [Option.map_some, Option.getD_some, List.getElem?_map]
      cases (List.range z)[p]? with
      | none => simp
      | some p => simpa using (hf j p).le
  have row (j : Nat) (hj : j < 24) : x.post.getD j [] = (List.range z).map (f j) := by simp [hp, hj]
  constructor
  · unfold MinSum.layer
    dsimp only
    apply rows_of
    intro j hj
    cases hk : (layerCols rate z i).findIdx? (·.1 == j) with
    | none => exact ⟨f j, hf j, row j hj⟩
    | some k =>
      refine ⟨fun p => if p < z then _ else 1, ?_, List.map_congr_left fun p hp => (if_pos (List.mem_range.mp hp)).symm⟩
      intro p
      dsimp only
      split
      · rename_i hz
        apply clampInt_pos
        simp only [hm i j le_rfl hj, List.getD_nil, sub_zero]
        have h1 : 0 < (x.post.getD j []).getD p 0 := by rw [row j hj]; simpa [hz] using hf j p
        refine Int.add_pos_of_pos_of_nonneg h1 ?_
        rw [List.getD_eq_getElem?_getD (l := List.map _ (List.range z)), List.getElem?_map]
        cases (List.range z)[(p + z - ((layerCols rate z i).getD k (0, 0)).2 % z) % z]? with
        | none => simp
        | some r =>
          refine checkRow_nonneg _ ?_ k
          intro v hv
          obtain ⟨c, hc, rfl⟩ := List.mem_map.mp hv
          exact clampInt_nonneg (by simpa [hm i c.1 le_rfl (layerCols_lt hc)] using post c.1 ((r + c.2) % z))
      · omega
  · intro k j hk hj
    unfold MinSum.layer
    dsimp only
    rw [tget_foldl_tset]
    · exact hm k j (by omega) hj
    · intro c hc
      have := layerCols_lt (List.fst_mem_of_mem_zipIdx hc)
      omega

theorem MinSum.Favours.layers {rate z : Nat} (n : Nat) {x : MinSum} (h : x.Favours z 0) :
    ((List.range n).foldl (MinSum.layer rate z) x).Favours z n := by
  induction n with
  | zero => simpa using h
  | succ n ih => rw [List.range_succ, List.foldl_append]; exact ih.layer

theorem MinSum.Favours.hard {z i : Nat} {x : MinSum} (h : x.Favours z i) : ∀ b ∈ x.hard, b = false := by
  obtain ⟨⟨f, hf, hp⟩, -⟩ := h
  intro b hb
  simp only [MinSum.hard, List.mem_map] at hb
  obtain ⟨v, hv, rfl⟩ := hb
  have hm := List.fst_mem_of_mem_zipIdx hv
  simp only [hp, List.mem_flatten, List.mem_map] at hm
  obtain ⟨l, ⟨j, -, rfl⟩, hl⟩ := hm
  obtain ⟨p, -, e⟩ := List.mem_map.mp hl
  have := hf j p
  unfold hardBit
  rw [if_neg (by omega)]
  simp; omega

/-- Soft values that all favour 0 decode, in one iteration, to the word of zeros. -/
theorem minSum_of_pos (rate z : Nat) (soft : List Int) (h : ∀ i, i < 24 * z → 0 < soft.getD i 0) :
    (minSum rate z soft).2 = (1, true) ∧ ∀ b ∈ (minSum rate z soft).1, b = false := by
  have h0 : MinSum.Favours z 0 { post := (List.range 24).map fun j => (List.range z).map fun p => soft.getD (z * j + p) 0 } := by
    refine ⟨rows_of _ fun j hj => ⟨fun p => if p < z then soft.getD (z * j + p) 0 else 1, ?_,
      List.map_congr_left fun p hp => (if_pos (List.mem_range.mp hp)).symm⟩, fun _ _ _ _ => rfl⟩
    intro p
    dsimp only
    split
    · exact h _ (by nlinarith)
    · omega
  have h1 := h0.layers (rate := rate) (24 - ldpcKb rate)
  have hn := natOf_false _ h1.hard
  simp only [minSum, MinSum.run]
  rw [hn, syndromeOk_zero]
  exact ⟨rfl, h1.hard⟩

end Sys2Proof.Machine
end

