-- ==== Sys2Proof/Laws/State.lean ====
section
/-! SUPPORT. Each named update and its reading: what was updated is read back, every other object of the same kind is as it
was, and reading one kind of object is not touched by the update of another. -/

namespace Sys2Proof.Machine

/-! ### Updates of one record -/

@[simp] theorem State.modPair_pair (s : State) (f : Pair → Pair) : (s.modPair f).pair = f s.pair := rfl
@[simp] theorem State.modRtc_rtc (s : State) (f : Rtc → Rtc) : (s.modRtc f).time.rtc = f s.time.rtc := rfl
@[simp] theorem State.modRtc_bases (s : State) (f : Rtc → Rtc) : (s.modRtc f).time.bases = s.time.bases := rfl
@[simp] theorem State.modRtc_duration (s : State) (f : Rtc → Rtc) : (s.modRtc f).time.duration = s.time.duration := rfl
@[simp] theorem State.setResult_ms (s : State) (n : Nat) : (s.setResult n).ms = { s.ms with reqResult := n } := rfl
@[simp] theorem State.setSession_svc (s : State) (x : Option Session) : (s.setSession x).svc = { s.svc with session := x } := rfl
@[simp] theorem State.reads_data (s : State) (v : Nat) : (s.reads v).host.readData = v := rfl
@[simp] theorem State.draw_draws (s : State) : s.draw.2.draws = s.draws + 1 := rfl
@[simp] theorem State.drawOctets_draws (s : State) (n : Nat) : (s.drawOctets n).2.draws = s.draws + 1 := rfl

theorem State.store_cfg (s : State) (f : Cfg → Cfg) : (s.store f).cfg = f s.cfg := by
  unfold State.store; simp only []; split <;> rfl

/-- A setting that the blob can hold is staged for the journal. -/
theorem State.store_staged (s : State) (f : Cfg → Cfg) (h : s.unstored = false) :
    (s.store f).nv = { s.nv with staged := s.nv.staged ++ [.journal (f s.cfg) none] } := by
  unfold State.store
  have : State.unstored { s with cfg := f s.cfg } = false := h
  simp [this]

/-! ### Updates of one object of a table -/

@[simp] theorem State.modMbox_mbox (s : State) (f : Nat) (g : Mbox → Mbox) : (s.modMbox f g).mbox f = g (s.mbox f) := by
  simp [State.modMbox, State.mbox]

theorem State.modMbox_mbox_ne (s : State) {f k : Nat} (g : Mbox → Mbox) (hne : k ≠ f) : (s.modMbox f g).mbox k = s.mbox k := by
  simp [State.modMbox, State.mbox, tget_tmod_ne _ _ _ hne]

@[simp] theorem State.modPort_portSt (s : State) (p : Nat) (g : PortSt → PortSt) : (s.modPort p g).portSt p = g (s.portSt p) := by
  simp [State.modPort, State.portSt]

theorem State.modPort_portSt_ne (s : State) {p k : Nat} (g : PortSt → PortSt) (hne : k ≠ p) : (s.modPort p g).portSt k = s.portSt k := by
  simp [State.modPort, State.portSt, tget_tmod_ne _ _ _ hne]

@[simp] theorem State.modBase_base (s : State) (b : Nat) (g : Base → Base) : (s.modBase b g).base b = g (s.base b) := by
  simp [State.modBase, State.base]

theorem State.modBase_base_ne (s : State) {b k : Nat} (g : Base → Base) (hne : k ≠ b) : (s.modBase b g).base k = s.base k := by
  simp [State.modBase, State.base, tget_tmod_ne _ _ _ hne]

@[simp] theorem State.modCage_cageSt (s : State) (c : Nat) (g : CageSt → CageSt) : (s.modCage c g).cageSt c = g (s.cageSt c) := by
  simp [State.modCage, State.cageSt]

theorem State.modCage_cageSt_ne (s : State) {c k : Nat} (g : CageSt → CageSt) (hne : k ≠ c) : (s.modCage c g).cageSt k = s.cageSt k := by
  simp [State.modCage, State.cageSt, tget_tmod_ne _ _ _ hne]

@[simp] theorem State.modSched_sched (s : State) (p : Nat) (g : Sched → Sched) : (s.modSched p g).sched p = g (s.sched p) := by
  simp [State.modSched, State.sched]

theorem State.modSched_sched_ne (s : State) {p k : Nat} (g : Sched → Sched) (hne : k ≠ p) : (s.modSched p g).sched k = s.sched k := by
  simp [State.modSched, State.sched, tget_tmod_ne _ _ _ hne]

@[simp] theorem State.modSite_site (s : State) (n : Nat) (g : Site → Site) : (s.modSite n g).site n = g (s.site n) := by
  simp [State.modSite, State.site]

theorem State.modSite_site_ne (s : State) {n k : Nat} (g : Site → Site) (hne : k ≠ n) : (s.modSite n g).site k = s.site k := by
  simp [State.modSite, State.site, tget_tmod_ne _ _ _ hne]

@[simp] theorem State.modDomain_domain (s : State) (d : Nat) (g : SchedDomain → SchedDomain) : (s.modDomain d g).domain d = g (s.domain d) := by
  simp [State.modDomain, State.domain]

theorem State.modDomain_domain_ne (s : State) {d k : Nat} (g : SchedDomain → SchedDomain) (hne : k ≠ d) : (s.modDomain d g).domain k = s.domain k := by
  simp [State.modDomain, State.domain, tget_tmod_ne _ _ _ hne]

@[simp] theorem State.modMesh_meshDom (s : State) (d : Nat) (g : MeshDomain → MeshDomain) : (s.modMesh d g).meshDom d = g (s.meshDom d) := by
  simp [State.modMesh, State.meshDom]

theorem State.modMesh_meshDom_ne (s : State) {d k : Nat} (g : MeshDomain → MeshDomain) (hne : k ≠ d) : (s.modMesh d g).meshDom k = s.meshDom k := by
  simp [State.modMesh, State.meshDom, tget_tmod_ne _ _ _ hne]

@[simp] theorem State.modPtpPort_ptpPort (s : State) (p : Nat) (g : PtpPort → PtpPort) : (s.modPtpPort p g).ptpPort p = g (s.ptpPort p) := by
  simp [State.modPtpPort, State.ptpPort]

theorem State.modPtpPort_ptpPort_ne (s : State) {p k : Nat} (g : PtpPort → PtpPort) (hne : k ≠ p) : (s.modPtpPort p g).ptpPort k = s.ptpPort k := by
  simp [State.modPtpPort, State.ptpPort, tget_tmod_ne _ _ _ hne]

@[simp] theorem State.setWell_well (s : State) (w : Nat) (x : Well) : (s.setWell w x).well w = x := by
  simp [State.setWell, State.well]

theorem State.setWell_well_ne (s : State) {w k : Nat} (x : Well) (hne : k ≠ w) : (s.setWell w x).well k = s.well k := by
  simp [State.setWell, State.well, tget_tset_ne _ _ _ hne]

@[simp] theorem State.setNode_node (s : State) (h : Nat) (x : Option NodeRec) : (s.setNode h x).node h = x := by
  simp [State.setNode, State.node]

theorem State.setNode_node_ne (s : State) {h k : Nat} (x : Option NodeRec) (hne : k ≠ h) : (s.setNode h x).node k = s.node k := by
  simp [State.setNode, State.node, tget_tset_ne _ _ _ hne]

@[simp] theorem State.setSlot_keySlot (s : State) (n : Nat) (x : KeySlot) : (s.setSlot n x).keySlot n = x := by
  simp [State.setSlot, State.keySlot]

theorem State.setSlot_keySlot_ne (s : State) {n k : Nat} (x : KeySlot) (hne : k ≠ n) : (s.setSlot n x).keySlot k = s.keySlot k := by
  simp [State.setSlot, State.keySlot, tget_tset_ne _ _ _ hne]

@[simp] theorem State.modPunt_puntRing (s : State) (f n : Nat) (g : Ring → Ring) : (s.modPunt f n g).puntRing f n = g (s.puntRing f n) := by
  simp [State.modPunt, State.puntRing]

@[simp] theorem State.modInj_injRing (s : State) (f n : Nat) (g : Ring → Ring) : (s.modInj f n g).injRing f n = g (s.injRing f n) := by
  simp [State.modInj, State.injRing]

@[simp] theorem State.modFlash_flash (s : State) (b : Bool) (g : FlashBank → FlashBank) : (s.modFlash b g).flash b = g (s.flash b) := by
  cases b <;> rfl

@[simp] theorem State.modFlash_flash_not (s : State) (b : Bool) (g : FlashBank → FlashBank) : (s.modFlash b g).flash (!b) = s.flash (!b) := by
  cases b <;> rfl

@[simp] theorem State.modBoot_bootRec (s : State) (b : Bool) (g : BootRec → BootRec) : (s.modBoot b g).bootRec b = g (s.bootRec b) := by
  cases b <;> rfl

@[simp] theorem State.modBoot_bootRec_not (s : State) (b : Bool) (g : BootRec → BootRec) : (s.modBoot b g).bootRec (!b) = s.bootRec (!b) := by
  cases b <;> rfl

/-! ### Counters -/

@[simp] theorem State.count_counter (s : State) (c : Ctr) (n : Nat) :
    (s.count c n).counter c = wrapAdd c.width (s.counter c) n := by
  simp [State.count, State.counter]

theorem State.count_counter_ne (s : State) {c k : Ctr} (n : Nat) (hne : k.slot ≠ c.slot) :
    (s.count c n).counter k = s.counter k := by
  simp [State.count, State.counter, tget_tset_ne _ _ _ hne]

@[simp] theorem State.gauge_counter (s : State) (c : Ctr) (v : Nat) : (s.gauge c v).counter c = v % 2 ^ c.width := by
  simp [State.gauge, State.counter]

/-! ### Reading one kind of object after the update of another -/

@[simp] theorem State.setWell_mbox (s : State) (w f : Nat) (x : Well) : (s.setWell w x).mbox f = s.mbox f := rfl
@[simp] theorem State.modMbox_well (s : State) (f w : Nat) (g : Mbox → Mbox) : (s.modMbox f g).well w = s.well w := rfl
@[simp] theorem State.modMbox_busMaster (s : State) (f k : Nat) (g : Mbox → Mbox) :
    (s.modMbox f g).busMaster k = s.busMaster k := rfl
@[simp] theorem State.setWell_busMaster (s : State) (w k : Nat) (x : Well) : (s.setWell w x).busMaster k = s.busMaster k := rfl
@[simp] theorem State.modMbox_punt (s : State) (f a n : Nat) (g : Mbox → Mbox) :
    (s.modMbox f g).puntRing a n = s.puntRing a n := rfl
@[simp] theorem State.modMbox_inj (s : State) (f a n : Nat) (g : Mbox → Mbox) :
    (s.modMbox f g).injRing a n = s.injRing a n := rfl

/-- Asking for a vector leaves mailboxes and Wells. -/
@[simp] theorem State.raise_mbox (s : State) (f v k : Nat) : (s.raise f v).mbox k = s.mbox k := by
  unfold State.raise; simp only []; split; · rfl
  split <;> rfl

@[simp] theorem State.raise_well (s : State) (f v k : Nat) : (s.raise f v).well k = s.well k := by
  unfold State.raise; simp only []; split; · rfl
  split <;> rfl

@[simp] theorem State.mboxError_mbox (s : State) (f : Nat) (g : Mbox → Mbox) : (s.mboxError f g).mbox f = g (s.mbox f) := by
  unfold State.mboxError; simp only []; split <;> simp

@[simp] theorem State.mboxError_well (s : State) (f w : Nat) (g : Mbox → Mbox) : (s.mboxError f g).well w = s.well w := by
  unfold State.mboxError; simp only []; split <;> simp

/-- An entry for a Well leaves mailboxes. -/
@[simp] theorem State.putEntry_mbox (s : State) (w source type : Nat) (body : Bytes) (f : Nat) :
    (s.putEntry w source type body).mbox f = s.mbox f := rfl

@[simp] theorem State.produce_mbox (s : State) (w source type : Nat) (body : Bytes) (f : Nat) :
    (s.produce w source type body).mbox f = s.mbox f := by
  unfold State.produce; split <;> rfl

/-- A Well whose number differs is as it was. -/
theorem State.produce_well_ne (s : State) {w k : Nat} (source type : Nat) (body : Bytes) (hne : k ≠ w) :
    (s.produce w source type body).well k = s.well k := by
  unfold State.produce State.putEntry; split
  · rfl
  · exact State.setWell_well_ne s _ hne

/-- A credit Well that is disabled, or whose owner may not use DMA, lets the entry wait; an enabled one numbers it as it is made. -/
theorem Well.make_waits (w : Well) (bm : Bool) (now : Nat × Nat) (source type : Nat) (body : Bytes)
    (h : (w.enable && bm) = false) (room : w.waiting.length < maxWaiting) :
    w.make true bm now source type body = { w with
      nextSeq := if w.enable then w.nextSeq + 1 else w.nextSeq
      waiting := w.waiting ++ [{ seq := w.nextSeq.toNat, source := source, type := type, timeS := now.1, timeNs := now.2,
                                 body := fit 14 body }] } := by
  cases he : w.enable <;> simp_all [Well.make]

/-- An overwrite Well that takes the entry stages it with the next number. -/
theorem Well.make_stages (w : Well) (now : Nat × Nat) (source type : Nat) (body : Bytes) (h : w.enable = true) :
    w.make false true now source type body = { w with
      nextSeq := w.nextSeq + 1
      staged := w.staged ++ [{ seq := w.nextSeq.toNat, source := source, type := type, timeS := now.1, timeNs := now.2, body := fit 14 body }] } := by
  simp [Well.make, h]

end Sys2Proof.Machine
end

