-- ==== Sys2Proof/Tests/Slice0.lean ====
section
/-! SUPPORT. Small tests of the model, one step each, and the witnesses of the statements: for every statement that has
hypotheses, a theorem here shows a state and operands that meet them. Expected values are worked out from the rules cited. A
clause that hangs on the value of an opaque constant (a decryption, a digest, a copy of a partner's state) has no closed
witness; its docstring says so. -/

namespace Sys2Proof.Tests

set_option Elab.async false

open Sys2Proof Sys2Proof.Machine Sys2Proof.Claims

/-! ### Helpers -/

/-- Bytes from numbers. -/
def by_ (l : List Nat) : Bytes := l.map (BitVec.ofNat 8)

/-- A descriptor with an inline payload, of a function. -/
def cmd (l : List Nat) (f : Fin 17 := 0) : Aci :=
  { fn := f, tagWord := 1, byte4 := 0, byte5 := 0, len := BitVec.ofNat 16 l.length, buffer := 0, inl := fit 48 (by_ l), buf := [] }

/-- A descriptor with a host buffer: the bytes listed, then zeros up to the length. -/
def cmdBuf (n : Nat) (l : List Nat) (f : Fin 17 := 0) : Aci :=
  { fn := f, tagWord := 1, byte4 := 0, byte5 := 0, len := BitVec.ofNat 16 n, buffer := 64, inl := fit 48 [], buf := fit n (by_ l) }

/-- A descriptor with an inline payload and a result buffer. -/
def cmdRes (l : List Nat) (f : Fin 17 := 0) : Aci := { cmd l f with buffer := 64 }

/-- A mailbox that is enabled, with rings of 64 entries and one descriptor to read. -/
def box : Mbox := { enable := true, cmdLog2 := 6, rspLog2 := 6, cmdTail := 1 }

/-- The device in a mode after its start, with the rings of PF0 and VF1 open. -/
def live (m : Mode) (cause : Nat := 0) : State :=
  { State.reset with
    ms := { State.reset.ms with mode := m, safeCause := cause, setVersion := 5 }
    procs := { loaded := true }
    host := { mbox := [(0, box), (1, box)], busMaster := [(0, true), (1, true)] }
    nv := { blob := some { seq := 1, version := 5, cfg := {} } } }

/-- The same with the configuration changed. -/
def withCfg (f : Cfg → Cfg) (s : State) : State := { s with cfg := f s.cfg }

/-- It is the turn of VF1 at MGC0. -/
def vfTurn (s : State) : State := { s with host := { s.host with turn0 := 1 } }

/-- What a step gives, seen through a function. -/
def after {α : Type} (i : Instr) (s : State) (f : State → α) : Option α :=
  match exec i s with
  | .next t => some (f t)
  | _ => none

/-- The latest response of PF0's ring: TAG, STATUS and SUBCODE. -/
def rsp (s : State) : List (Nat × Nat × Nat) := ((s.mbox 0).responses.take 1).map fun x => (x.tag, x.status, x.sub)

/-! ### Ill-formed commands are refused by the check -/

/-- 48 inline bytes, at most 65,535 buffer bytes (R73). -/
theorem test_wf_descriptor : Instr.wf (.sysShutdown { cmd [] with inl := [] }) = false ∧
    Instr.wf (.tableCommit (cmd [])) = true := by decide +kernel

/-- A first cell holds 1 to 256 bytes, and 256 unless the frame ends in it (R194). -/
theorem test_wf_first_cell :
    Instr.wf (.frameRx 0 { bytes := [], ends := true, preemptable := false, stamp := 0 }) = false ∧
    Instr.wf (.frameRx 0 { bytes := [0], ends := false, preemptable := false, stamp := 0 }) = false ∧
    Instr.wf (.frameRx 0 { bytes := [0], ends := true, preemptable := false, stamp := 0 }) = true := by decide +kernel

/-- A frame from the modem. -/
def air (psdu : Bytes) (rel : Nat) : AirFrame :=
  { domain := 0, cell := 0, slot := 0, site := 0, instantNs := 0, endNs := 0, freq := 868100000, phy := 0, copies := 1,
    reliability := rel, rssi := -90, snrQdb := 40, heard := [], psdu := psdu }

/-- RELIABILITY is a byte (R440). -/
theorem test_wf_air_frame : Instr.wf (.securedFrameRx (air [] 256)) = false ∧ Instr.wf (.joinRequest (air [] 255)) = true ∧
    Instr.wf (.downlinkAckRx 0 (some (air [] 256))) = false := by decide +kernel

/-- The sensors of the dies (R682). -/
theorem test_wf_sensors :
    Instr.wf (.sensorRead { core := [], rc := [], tiles := [], reservoir := [], watts := 0, railMv := [] }) = false := by decide +kernel

/-- Operands of fixed widths: self-test causes, regions' masters, descriptors, flag addresses, soft values (R341), codewords,
counts of samples and the messages of the Pair Link (R541). -/
theorem test_wf_operands :
    Instr.wf (.bootSelfTestDone [(14, 0)]) = false ∧ Instr.wf (.worldViolation 0 16 false 0) = false ∧
    Instr.wf (.injectFrameRead 0 0 [[]] []) = false ∧ Instr.wf (.opticsFlagPoll 0 [(256, 0)]) = false ∧
    Instr.wf (.softValuesDelivered 0 0 0 [] { values := [128] }) = false ∧ Instr.wf (.softValuesDelivered 0 0 0 [] { values := [-127, 127] }) = true ∧
    Instr.wf (.decodeDone 0 0 [] 0 256) = false ∧ Instr.wf (.gainDecision 0 0 1 2 0) = false ∧
    Instr.wf (.dcwHello 0 [] (2 ^ 48)) = false ∧ Instr.wf (.pairHello []) = false ∧ Instr.wf (.pairKey []) = false ∧
    Instr.wf (.pairCommand 0 { cmd [] with inl := [] } 0) = false ∧
    Instr.wf (.portOpticsIo { cmd [] with inl := [] } true []) = false ∧
    Instr.wf (.unknownOpcode 0 { cmd [] with inl := [] }) = false := by decide +kernel

/-! ### The queue, the modes, registers and the mailbox -/

/-- A step takes the front command (StepRunsFrontCommand). -/
theorem wit_step_front : { live .m3 with pending := [.rtcLoRead, .jtagIdcode] }.pending = .rtcLoRead :: [.jtagIdcode] := rfl

/-- IDCODE of stepping B (R684), run from the queue after reset. -/
theorem test_step_idcode : (match step { State.reset with pending := [.jtagIdcode] } with
    | .next t => (t.host.readData, t.pending.length) | _ => (0, 1)) = (0x29651A4B, 0) := by decide +kernel

/-- EmptyQueueLetsTimePass: an idle plan is 80 ns, 128 counts of 1.6 GHz (R143). -/
theorem test_idle_plan : (match step (live .m3) with | .next t => t.time.duration | _ => 0) = 128 := by decide +kernel

/-- ModeRequestIsJudgedInOrder: states in which each clause applies (R45). -/
theorem wit_mode_request : (live .m3).answers = true ∧ (live .m7 1).answers = true ∧ State.reset.answers = true ∧
    bits (0x4D520007 : BitVec 32).toNat 16 16 = 0x4D52 ∧ bits (0x4D520007 : BitVec 32).toNat 0 4 = 7 ∧
    bit (0x4D520010 : BitVec 32).toNat 4 = true ∧ bits (0x4D520010 : BitVec 32).toNat 0 4 = 0 := by decide +kernel

/-- TARGET 7 with the key in M3 enters M7 SAFE by cause 1; a wrong key is judged before the mode (R45). -/
theorem test_mode_request : after (.modeReqSafe 0x4D520007) (live .m3) (fun t => (t.ms.mode, t.ms.safeCause)) = some (.m7, 1) ∧
    after (.modeReqSafe 0x00000007) (live .m2) (fun t => t.ms.reqResult) = some 3 ∧
    after (.modeReqSafe 0x4D520007) (live .m2) (fun t => t.ms.reqResult) = some 2 ∧
    after (.modeReqWarm 0x4D520010) { live .m2 with ms := { (live .m2).ms with inTransition := true } }
      (fun t => t.ms.reqResult) = some 4 := by decide +kernel

/-- A warm reset on MODE_REQ goes to M1 BOOT, or to M7 SAFE for want of an image (R45, R51). -/
theorem test_mode_request_warm : after (.modeReqWarm 0x4D520010) (live .m3)
    (fun t => (t.ms.mode, t.ms.safeCause, t.ms.resetCause.getLsbD 3)) = some (.m7, 3, true) := by decide +kernel

/-- RegisterWriteActsByAccessCode, RtcReadsAndJtag and the clauses of doorbells are about any state that answers. -/
theorem wit_answers : (live .m3).answers = true ∧ (live .m5).answers = true := by decide +kernel

/-- W1C clears the bits written as 1 (R7). -/
theorem test_register_w1c : after (.registerWrite 0 0 0x100C 4 1) State.reset (fun t => t.ms.resetCause) = some 0 := by decide +kernel

/-- A write of two bytes is discarded (R68). -/
theorem test_register_width : after (.registerWrite 0 0 0x100C 2 1) State.reset (fun t => t.ms.resetCause) = some 1 := by decide +kernel

/-- WARN_C is held within 60 to 120 (R682). -/
theorem test_therm_limits : after (.registerWrite 0 0 0x4018 4 0x0000FFFF) (live .m3) (fun t => (t.power.warnC, t.power.hbmWarnC))
    = some (120, 95) := by decide +kernel

/-- An RTC of 2^32 + 5. -/
def rtcState : State := { live .m3 with time := { rtc := { count := 0x100000005 } } }

/-- RTC_LO freezes RTC_HI until it is read (R153). -/
theorem test_rtc_shadow : after .rtcLoRead rtcState (fun t => (t.host.readData, t.time.rtc.frozen)) = some (5, true) ∧
    after .rtcHiRead rtcState (fun t => t.host.readData) = some 1 ∧
    after (.rtcLoad 0x4C440002) rtcState (fun t => t.time.rtc.loadPending) = some true ∧
    after (.rtcLoad 0x4C430002) rtcState (fun t => t.time.rtc.loadPending) = some false := by decide +kernel

/-- EPOCH_LO latches EPOCH_HI; TEMP_PEAK clears on a read (R584, R682). -/
theorem test_latching_reads :
    after .epochLoRead { live .m3 with time := { duration := 2 ^ 56 } } (fun t => (t.host.readData, t.pair.epochHi))
      = some (0, 640) ∧
    after .tempPeakRead { live .m3 with power := { tempPeak := 7 } } (fun t => (t.host.readData, t.power.tempPeak)) = some (7, 0) := by
  decide +kernel

/-- The test port captures and bypasses (R684). -/
theorem test_jtag : after (.jtagSample 5) State.reset (fun t => (t.jtag.ir, t.jtag.boundary)) = some (2, 5) ∧
    after (.jtagBypass 15) State.reset (fun t => t.jtag.ir) = some 15 := by decide +kernel

/-- MailboxesStartAndStayInTheirRings: a mailbox whose rings can be used, and one whose rings cannot (R84). -/
theorem wit_mbox_enable :
    let m : Mbox := { cmdBase := 0x1000, rspBase := 0x2000, cmdLog2 := 6, rspLog2 := 12 }
    m.enable = false ∧ m.cmdBase.toNat % 4096 = 0 ∧ m.rspBase.toNat % 4096 = 0 ∧ 6 ≤ m.cmdLog2.toNat ∧ m.rspLog2.toNat ≤ 12 ∧
      ¬6 ≤ (({} : Mbox).cmdLog2.toNat) := by decide +kernel

/-- ENABLE with LOG2 5 sets CONFIG_ERROR (R84). -/
theorem test_mbox_config_error : after (.mboxEnable 2 1) (live .m3) (fun t => ((t.mbox 2).enable, (t.mbox 2).configError))
    = some (false, true) := by decide +kernel

/-- A command doorbell of 65 for a ring of 64 is discarded, 64 is taken (R72). -/
theorem test_doorbell : after (.cmdTail 0 65) (live .m3) (fun t => ((t.mbox 0).cmdTail, (t.mbox 0).doorbellError)) = some (1, true) ∧
    after (.cmdTail 0 64) (live .m3) (fun t => (t.mbox 0).cmdTail) = some 64 ∧
    after (.rspHead 0 1) (live .m3) (fun t => (t.mbox 0).doorbellError) = some true := by decide +kernel

/-- Rings 0 of PF0, of two entries. -/
def rings : State :=
  let r : Ring := { configured := true, enable := true, log2 := 1, bufUnits := 1 }
  { live .m3 with host := { (live .m3).host with punt := [(0, r)], inject := [(0, r)] } }

/-- Ring doorbells (R72): within the ring, beyond it, and of a ring that is not enabled. -/
theorem test_ring_doorbells : after (.puntTail 0 0 2) rings (fun t => (t.puntRing 0 0).tail) = some 2 ∧
    after (.puntTail 0 0 3) rings (fun t => (t.mbox 0).doorbellError) = some true ∧
    after (.injTail 0 0 2) rings (fun t => (t.injRing 0 0).tail) = some 2 ∧
    after (.injTail 0 1 1) rings (fun t => (t.mbox 0).doorbellError) = some true := by decide +kernel

/-- An entry, and PF0 Wells 4 (overwrite) and 1 (credit) with entries. -/
def entry : WellEntry := { seq := 0, source := 1, type := 2, timeS := 0, timeNs := 0, body := [] }

def wells : State :=
  let w : Well := { enable := true, fill := [entry], staged := [entry] }
  { live .m3 with host := { (live .m3).host with wells := [(1, { w with ready := [entry] }), (4, w), (5, { w with ready := [entry] }),
    (6, { enable := true, ready := [entry], staged := [entry], fill := List.replicate 127 entry }),
    (7, { enable := true, staged := [entry], fill := List.replicate 127 entry })] } }

/-- WellsFillAndClose: Wells for each clause (R87 to R96). -/
theorem wit_wells : wells.busMaster 0 = true ∧ wells.wellFn 4 = 0 ∧ wells.wellWrite 0 4 = some 4 ∧ wells.wellWrite 0 1 = some 1 ∧ wells.wellWrite 0 8 = some 8 ∧
    (wells.well 8).enable = false ∧ (wells.well 4).fill ≠ [] ∧ (wells.well 4).ready = [] ∧ (wells.well 5).ready ≠ [] ∧
    (wells.well 4).staged = entry :: [] ∧ (wells.well 6).size ≤ (wells.well 6).fill.length + 1 ∧ (wells.well 6).ready ≠ [] ∧
    (wells.well 7).size ≤ (wells.well 7).fill.length + 1 ∧ (wells.well 7).ready = [] := by decide +kernel

/-- ENABLE, DONE and CLOSE (R87, R89, R91). -/
theorem test_well_control : after (.wellEnable 0 8 0x29) wells (fun t => ((t.well 8).enable, (t.well 8).log2)) = some (true, 7) ∧
    after (.drainDone 0 5 1) wells (fun t => (t.well 5).ready.length) = some 0 ∧
    after (.drainDone 0 5 0x10001) wells (fun t => (t.well 5).ready.length) = some 1 ∧
    after (.drainClose 0 4 2) wells (fun t => ((t.well 4).ready.length, (t.well 4).fill.length, (t.well 4).readyGen)) = some (1, 0, 1) ∧
    after (.drainClose 0 5 2) wells (fun t => (t.well 5).closeRefused) = some true := by decide +kernel

/-- A bank of 128 closes with its 128th entry, over an undrained one (R90). -/
theorem test_well_pump : after (.wellEntryWrite 6 false) wells (fun t => ((t.well 6).ready.length, (t.well 6).lost, (t.well 6).overwritten))
    = some (128, 1, true) ∧
    after (.wellEntryWrite 4 true) wells (fun t => ((t.well 4).fill.length, (t.well 4).poisoned)) = some (2, 1) ∧
    (({ wells with host := { wells.host with busMaster := [] } }).busMaster (wells.wellFn 4)) = false := by decide +kernel

/-- A pending, masked vector 3 of PF0, and responses not yet raised. -/
def msix : State :=
  { live .m3 with host := { (live .m3).host with
      msix := [(0, { masked := false }), (3, { pending := true })]
      mbox := [(0, { box with rspIrqEn := true, unraised := 1, modTimeUs := 5 })]
      paced := [(7, some { well := 1, source := 1, type := 2, body := [], countAt := 0, countLen := 0, events := 1, running := true }),
        (8, some { well := 1, source := 1, type := 2, body := [], countAt := 0, countLen := 0, events := 0, running := true })] } }

/-- MessagesFailuresAndPacedEntries: the clauses' hypotheses together (R71, R97, R693, R697). -/
theorem wit_msix : msix.busMaster 0 = true ∧ msix.answers = true ∧ (3 : Nat) < vectorCount 0 ∧ (msix.mbox 0).rspIrqEn = true ∧
    (msix.mbox 0).unraised ≠ 0 ∧ (msix.mbox 0).modTimeUs ≠ 0 ∧ (tget ({} : MsixVec) msix.host.msix 0).masked = false ∧
    (msix.mbox 0).rspVector.toNat < vectorCount 0 ∧ (msix.mbox 0).enable = true := by decide +kernel

theorem test_msix : after (.msixUnmask 0 3) msix (fun t => t.host.messages) = some [(0, 3)] ∧
    after (.msixModerationTimer 0) msix (fun t => (t.host.messages, (t.mbox 0).unraised)) = some ([(0, 0)], 0) ∧
    after (.commandDmaTimeout 0 true 0) msix (fun t => ((t.mbox 0).enable, (t.mbox 0).dmaError)) = some (false, true) := by decide +kernel

/-- A paced entry ends its pacing when its second held no event (R697). -/
theorem test_paced : after (.pacedEntryDue 8) msix (fun t => (tget none t.host.paced 8).map (·.running)) = some (some false) ∧
    after (.pacedEntryDue 7) msix (fun t => (tget none t.host.paced 7).map (·.events)) = some (some 0) := by decide +kernel

/-- FunctionResetsStopMailboxes: a function-level reset of PF0 acts on VF1 (R103); PCIE_PERST_N takes the endpoint away (R665). -/
theorem test_function_resets : after (.functionLevelReset 0) (live .m3) (fun t => (t.mbox 1).enable) = some false ∧
    after (.functionLevelReset 1) (live .m3) (fun t => (t.mbox 0).enable) = some true ∧
    after .pciePerst (live .m3) (fun t => (t.answers, t.ms.mode)) = some (false, .m3) ∧
    after .pciePerstRelease { live .m3 with host := { perst := true } } (fun t => t.host.perst) = some false ∧
    after (.busMasterEnable 2 true) (live .m3) (fun t => t.busMaster 2) = some true := by decide +kernel

/-! ### The mailbox and the ACI commands -/

/-- FullResponseRingStopsReading: a response ring of 64 that is full. -/
theorem wit_response_ring_full : let s := { live .m3 with host := { (live .m3).host with mbox := [(0, { box with rspTail := 64 })] } }
    (s.mbox 0).rspSize ≤ (s.mbox 0).rspUsed ∧ after (.timeGet (cmd [0])) s (fun t => (t.mbox 0).cmdHead) = some 0 := by decide +kernel

/-- A command that carries FENCE is in flight, then one of group 5. -/
def busy (fence : Bool) : State :=
  { live .m3 with host := { (live .m3).host with mbox :=
      [(0, { box with inflight := [{ tag := 9, opcode := 0x0501, fence := fence }] })] } }

/-- DescriptorWaitsInItsRing: a state for each clause; TIME_GET waits in flight behind its own group, PORT_GET_STATUS behind a
fence only (R78), and VF1 behind PF0 (R33). -/
theorem wit_descriptor_waits : (State.reset.mbox 0).enable = false ∧ (State.reset.mbox 0).cmdTail = (State.reset.mbox 0).cmdHead ∧
    State.reset.busMaster 0 = false ∧ (live .m6).ms.mode = .m6 ∧ 0 ∈ (live .m3).before 1 ∧ (live .m3).readable 0 = true ∧
    (live .m3).canRead 1 = false ∧ (vfTurn (live .m3)).canRead 1 = true ∧
    ((busy true).mbox 0).inflight.any (fun x => x.own && x.fence) = true ∧ reads timeGetSpec (cmd [0]) (busy false) = true ∧
    let waits (t : State) : Nat × Nat := ((t.mbox 0).waiting.length, (t.mbox 0).responses.length)
    after (.timeGet (cmd [0])) (busy false) waits = some (1, 0) ∧
    after (.portGetStatus (cmd [0])) (busy false) waits = some (0, 1) ∧
    after (.portGetStatus (cmd [0])) (busy true) waits = some (1, 0) ∧
    after (.portGetStatus { cmd [0] with byte4 := 1 }) (busy false) waits = some (1, 0) := by decide +kernel

/-- A waiting command starts, in a plan in which nothing is commanded, once the earlier one has been answered (R78). -/
theorem test_waiting_starts : let held : State := match exec (.timeGet (cmd [0])) (busy false) with | .next t => t | _ => State.reset
    (held.tick.mbox 0).responses.length = 0 ∧
    let t := (held.modMbox 0 fun m => { m with inflight := m.inflight.filter (·.tag != 9) }).tick
    ((t.mbox 0).waiting.length, rsp t, (t.mbox 0).inflight.length) = (0, [(1, 0, 0)], 0) := by decide +kernel

/-- FirstFailedCheckAnswers: TAG beyond 4,095 is BAD_PARAM 0x02, a reserved bit BAD_PARAM 0x01, a wrong LENGTH BAD_LENGTH 0x01,
a VF's PF0-only command DENIED 0x01, another tenant's object DENIED 0x02, a mode NOT_IN_MODE, a full share BUSY 0x01 (R80). -/
theorem test_order_of_checks :
    [after (.timeGet { cmd [0] with tagWord := 4097 }) (live .m3) rsp == some [(1, 0x11, 2)],
    after (.timeGet { cmd [0] with byte4 := 2 }) (live .m3) rsp == some [(1, 0x11, 1)],
    after (.timeGet (cmd [0, 0])) (live .m3) rsp == some [(1, 0x12, 1)],
    after (.timeGet (cmd [8])) (live .m3) rsp == some [(1, 0x11, 1)],
    after (.tablePortL2 (cmd [0, 0, 0, 0])) (live .m3) rsp == some [(1, 0x11, 4)],
    after (.sysConfigClear (cmd [])) (live .m3) rsp == some [(1, 0x31, 0)],
    after (.timeGet (cmd [0])) (withCfg (fun c => { c with shares := [0] }) (live .m3)) rsp == some [(1, 0x20, 1)],
    after (.tableCommit (cmd [])) (live .m7 1) rsp == some [(1, 0x31, 0)]].all id = true := by decide +kernel

theorem test_denied : let r (s : State) := ((s.mbox 1).responses.take 1).map fun x => (x.status, x.sub)
    after (.sysSetShares (cmdBuf 50 [64] 1)) (vfTurn (live .m3)) r = some [(0x30, 1)] ∧
    after (.timeGet (cmd [1] 1)) (vfTurn (live .m3)) r = some [(0x30, 2)] := by decide +kernel

/-- UndefinedOpcodeAnswersBadOpcode: opcode 0x0107 is in a listed group and unused. -/
theorem wit_bad_opcode : (live .m3).canRead 0 = true ∧ (0x0107 : BitVec 16).toNat ∉ definedOps ∧
    after (.unknownOpcode 0x0107 (cmd [])) (live .m3) rsp = some [(1, 0x10, 0)] := by decide +kernel

/-- M4 ACTIVE with a partner. -/
def leading : State := { live .m4 with pair := { linkUp := true, peerSynced := true, peerPhase := 6, peerMode := 5 }, pins := { activeOut := true } }

/-- SettingCommandsAreCarried. -/
theorem wit_carried : mayStart tableCommitSpec (cmd []) leading = true ∧
    (descCheck tableCommitSpec (cmd []) (taken (cmd []) leading)).isNone = true ∧
    tableCommitSpec.params (tableCommitSpec.req (cmd []) leading) (taken (cmd []) leading) = none ∧
    tableCommitSpec.carries (tableCommitSpec.req (cmd []) leading) (taken (cmd []) leading) = true ∧ leading.pair.linkUp = true ∧
    after (.tableCommit (cmd [])) leading (fun t => t.pair.carried.map (·.epoch)) = some [64] := by decide +kernel

/-- The SYS and PORT commands' statements: each is accepted somewhere, with the conditions of its clauses. -/
theorem wit_sys : ([accepted sysWarmResetSpec (cmd [0]) (live .m3), accepted sysWarmResetSpec (cmd [1]) (live .m7 1),
    accepted sysShutdownSpec (cmd []) (live .m3), accepted sysConfigClearSpec (cmd []) (live .m7 4),
    accepted sysSetSharesSpec (cmdBuf 50 [64]) (live .m3), accepted sysSetSharesSpec (cmdBuf 50 [64]) (live .m7 5),
    accepted sysWellAssignSpec (cmd [4, 0, 0, 0, 1, 0, 0, 0]) (live .m3), accepted sysWellAssignSpec (cmd [4, 0, 16, 0, 0, 0, 0, 0]) (live .m3),
    accepted sysRingConfigSpec (cmd ([0x80, 6, 4] ++ List.replicate 13 0)) (live .m3), accepted sysRingConfigSpec (cmd ([0, 6, 4] ++ List.replicate 13 0)) rings,
    accepted sysRingConfigSpec (cmd ([0xC0, 6] ++ List.replicate 14 0)) (live .m3), accepted sysRingConfigSpec (cmd ([0x40, 6] ++ List.replicate 14 0)) rings,
    accepted tenantResetSpec (cmd [0]) (live .m3), (live .m3).pins.refclkRc, !(live .m3).journalStuck, (live .m7 5).unstored].all id) = true := by
  decide +kernel

/-- SYS_SET_SHARES waits for its journal record, and is answered at once with no blob in force (R512, R696). -/
theorem test_set_shares : after (.sysSetShares (cmdBuf 50 [64, 0, 200])) (live .m3)
    (fun t => (t.share 0, t.share 1, t.nv.staged.length, (t.mbox 0).responses.length)) = some (64, 200, 1, 0) ∧
    after (.sysSetShares (cmdBuf 50 [64])) (live .m7 5) rsp = some [(1, 0, 0)] := by decide +kernel

/-- SYS_SHUTDOWN answers first, then enters M0 DORMANT with the clean mark (R63). -/
theorem test_shutdown : after (.sysShutdown (cmd [])) (live .m3) (fun t => (t.ms.mode, t.nv.cleanMark, t.ms.armed, t.host.parting.map (·.2.status)))
    = some (.m0, true, false, [0]) := by decide +kernel

/-- Ports 0 and 1 in mode 2, port 4 the radio port of site 3, ports 8 and 9 for a ring, cage 0 with a module. -/
def wired : State :=
  withCfg (fun c => { c with
    ports := [(0, { mode := 2 }), (1, { mode := 2, firstLane := 1 }), (4, { mode := 2, firstLane := 4, site := some 3 }),
      (8, { mode := 2, firstLane := 8 }), (9, { mode := 2, firstLane := 9 })]
    cages := [(0, some { master := 0, muxAddr := 0, muxChannel := 0, resetGpio := 0xFF, firstPort := 0, portCount := 1, fast := false, muxResetGpio := 0xFF })]
    rings := [(1, some (40, 41))] })
    { live .m3 with ports := { st := [(0, { linkUp := true })], driving := true } }

theorem wit_port : ([accepted portSetSpeedSpec (cmd [0, 2, 0, 1, 0xEE, 5]) (live .m3), accepted portSetSpeedSpec (cmd [0, 2, 0, 1, 0xF2, 5]) wired,
    accepted portSetCutThroughSpec (cmd [0, 1, 1]) wired, accepted portSetPreemptSpec (cmd [0, 1, 10]) wired, accepted portSetPreemptSpec (cmd [0, 3, 10]) wired,
    accepted portSetRadioSpec (cmd [0, 0x80]) wired, accepted portSetRadioSpec (cmd [4, 3]) wired, accepted portSetRadioSpec (cmd [0, 0]) wired,
    accepted portRingPairSpec (cmd [0x80, 8, 9, 0]) wired, accepted portRingPairSpec (cmd [1, 0, 0, 0]) wired,
    accepted portGetStatusSpec (cmd [0]) wired,
    accepted (portOpticsIoSpec true []) (cmdBuf 4 [0]) wired, accepted (portOpticsIoSpec true []) (cmdBuf 5 [0x80]) wired,
    accepted (portMdioIoSpec 7) (cmd [4, 0, 0, 0, 0, 0, 0, 0]) wired, accepted (portMdioIoSpec 7) (cmd [12, 0, 0, 0, 0, 0, 1, 0]) wired,
    !wired.journalStuck, (wired.portSite 4).isSome, (wired.portSite 0).isNone].all id) = true := by decide +kernel

/-- MAX_FRAME below 1,518 is BAD_PARAM 0x04, a first lane that is not aligned 0x12 (R157, R171). -/
theorem test_port_set_speed : after (.portSetSpeed (cmd [0, 2, 0, 1, 0xED, 5])) (live .m3) rsp = some [(1, 0x11, 4)] ∧
    after (.portSetSpeed (cmd [0, 6, 2, 1, 0xEE, 5])) (live .m3) rsp = some [(1, 0x11, 0x12)] ∧
    after (.portSetSpeed (cmd [0, 2, 0, 0, 0xEE, 5])) wired (fun t => (t.portSt 0).linkUp) = some false := by decide +kernel

/-- A cage map of zeros, which holds no valid cage. -/
def noCages : Aci := { cmdBuf 0 [] with len := 1024 }

theorem zeros_at (n i : Nat) : byteAt (List.replicate n 0) i = 0 := by
  induction n generalizing i with
  | zero => rfl
  | succ n ih => cases i with
    | zero => rfl
    | succ i => exact ih i

theorem zeros_le (n : Nat) : leNat (List.replicate n 0#8) = 0 := by
  induction n with
  | zero => rfl
  | succ n ih => rw [List.replicate_succ, leNat, ih]; rfl

theorem no_cage (r : Req) (n c : Nat) (h : r.pl = List.replicate n 0) : cageOf r c = none := by
  simp [cageOf, Req.bl, Req.b, h, leAt, List.drop_replicate, List.take_replicate, zeros_le, bit]

theorem no_cages_reserved (r : Req) (h : r.pl = List.replicate 1024 0) : (portOpticsMapSpec.rsv r.pl).all (maskZero r.pl) = true :=
  List.all_eq_true.mpr fun m _ => by
    have h : byteAt r.pl m.1 = 0 := by rw [h]; exact zeros_at 1024 m.1
    rw [maskZero, h, Nat.zero_and]; rfl

theorem no_cages_par (r : Req) (s : State) (h : r.pl = List.replicate 1024 0) : portOpticsMapSpec.par r s = none := by
  have h : (List.range 128).filterMap (cageOf r) = [] := List.filterMap_eq_nil_iff.mpr fun c _ => no_cage r 1024 c h
  simp only [portOpticsMapSpec, h]; rfl

theorem noCages_req (s : State) : (portOpticsMapSpec.req noCages s).pl = List.replicate 1024 0 := rfl

/-- PORT_OPTICS_MAP is accepted (R181). -/
theorem wit_optics_map : accepted portOpticsMapSpec noCages wired = true := by
  unfold accepted AciSpec.check AciSpec.params
  simp only [no_cages_reserved _ (noCages_req _), no_cages_par _ _ (noCages_req _)]
  decide +kernel

theorem test_port_get_status : after (.portGetStatus (cmd [0])) wired (fun t => ((t.mbox 0).responses.map fun x => x.results.take 2))
    = some [[1, 2]] := by decide +kernel

theorem test_mdio_read : after (.portMdioIo (cmd [4, 0, 0, 0, 0, 0, 0, 0]) 0x1234) wired (fun t => ((t.mbox 0).responses.map (·.results)))
    = some [[0x34, 0x12]] := by decide +kernel

/-! ### Tables, queues, time, radio and schedule commands -/

def vlan2 : List Nat := [2, 0, 0x30, 0, 44, 1]

theorem wit_table : ([accepted tableVlanWriteSpec (cmdBuf 72 vlan2) (live .m3), accepted tableVlanWriteSpec (cmdBuf 72 [2, 0x20, 0x30]) (live .m3),
    accepted tableIntfWriteSpec (cmd ([1, 0, 0, 0, 2, 0, 2, 0, 0, 0, 0, 1, 0xDC, 5] ++ List.replicate 6 0)) (live .m3),
    accepted tableIntfWriteSpec (cmd ([1, 0x20, 0, 0, 2, 0, 2, 0, 0, 0, 0, 1, 0xDC, 5] ++ List.replicate 6 0)) (live .m3),
    accepted tableMacWriteSpec (cmd [2, 0, 0, 0, 0, 1, 2, 0, 5, 0, 0, 0]) (live .m3), accepted tableMacWriteSpec (cmd [2, 0, 0, 0, 0, 1, 2, 0x20, 5, 0, 0, 0]) (live .m3),
    accepted tableNexthopWriteSpec (cmd (List.replicate 16 0)) (live .m3), accepted tableNexthopWriteSpec (cmd ([0, 0, 8] ++ List.replicate 13 0)) (live .m3),
    accepted tableRouteWriteSpec (cmd (List.replicate 24 0)) (live .m3), accepted tableRouteWriteSpec (cmd ([0x60] ++ List.replicate 23 0)) (live .m3),
    accepted tableRuleWriteSpec (cmdBuf 120 [3, 0, 16]) (live .m3), accepted tableRuleWriteSpec (cmdBuf 120 [3, 0x80, 16]) (live .m3),
    accepted tableMirrorWriteSpec (cmdBuf 56 [1, 0, 7, 0, 0, 0, 0, 0, 1, 0, 0, 0, 1]) (live .m3),
    accepted tableMirrorWriteSpec (cmdBuf 56 [0x21, 0, 7, 0, 0, 0, 0, 0, 1, 0, 0, 0, 1]) (live .m3),
    accepted tableCommitSpec (cmd []) (live .m3), accepted tableStatusSpec (cmd []) (live .m3), accepted tableVrfConfigSpec (cmd (List.replicate 16 0)) (live .m3),
    accepted tablePortL2Spec (cmd [0, 2, 0x70, 0]) (live .m3), accepted tableMacReadSpec (cmd [2, 0, 0, 0, 0, 1, 2, 0, 3]) (live .m3),
    accepted tableMacFlushSpec (cmd [0, 3, 2, 0]) (live .m3)].all id) = true := by decide +kernel

/-- What a staged write must pass to be committed by AUTO_COMMIT, one of each kind (R219, R221). -/
theorem wit_auto_commit :
    let ok (w : TableWrite) : Bool := !(live .m3).overrun 0 ((live .m3).stagedOf 0 ++ [w]) && ((live .m3).commitCheck 0 ((live .m3).stagedOf 0 ++ [w])).isNone
    ([ok (.vlan 2 (some vlanOne)), ok (.intf 1 none), ok (.mac 0x020000000001 2 (some (5, false))), ok (.route 0 none),
      ok (.nexthop 0 (some { type := 0, tenant := 0, intf := 0, dstMac := 0, domain := 0 })), ok (.rule 3 none), ok (.mirror 1 {})].all id)
      = true := by decide +kernel

/-- A VLAN that is staged and committed. -/
def staged : State := { live .m3 with fwd := { (live .m3).fwd with staged := [(0, .vlan 2 (some vlanOne))] } }

/-- A generation that waits, of TABLE_COMMIT and of TENANT_RESET of tenant 0. -/
def waiting (reset : Option Nat) (w : List TableWrite) : State :=
  withCfg (fun c => { c with wells := [(9, some { tenant := 0, slot := 0, fault := false })] })
    { live .m3 with
      fwd := { (live .m3).fwd with pendingGens := [{ fn := 0, cmd := some (1, 0x0301), writes := w, slots := [], reset := reset }] }
      host := { (live .m3).host with mbox := [(0, { box with inflight := [{ tag := 1, opcode := 0x0301, fence := false }] }), (1, { box with tenantHeld := true })]
                                     punt := [(64, { enable := true })] } }

/-- A pipe in which the two buckets of a key, and those of the entries in them, are full (R206). -/
def fullMacs : MacTab :=
  let e : MacEntry := { mac := 0x020000000002, vlan := 1, port := 1, static := true, drop := false, age := 0 }
  ([macH0 0x020000000001 1, macH1 0x020000000001 1, macH0 0x020000000002 1, macH1 0x020000000002 1].flatMap fun b =>
    (List.range 4).map (macSlot 0 b)).foldl (fun t k => tput t k (some e)) []

/-- GenerationsBecomeCurrentWhole: each clause's hypotheses (R219 to R223). -/
theorem wit_generations : (live .m3).overrun 0 [] = false ∧ (live .m3).stagedOf 0 = [] ∧ (live .m3).fwd.pendingGens = [] ∧
    accepted tableCommitSpec (cmd []) staged = true ∧ staged.stagedOf 0 ≠ [] ∧ staged.commitCheck 0 (staged.stagedOf 0) = none ∧ staged.overrun 0 (staged.stagedOf 0) = false ∧
    (staticWrites [] [] [.mac 0x020000000001 1 (some (5, false))]).isSome = true ∧
    (staticWrites fullMacs [] [.mac 0x020000000001 1 (some (5, false))]).isNone = true := by decide +kernel

/-- The VLAN becomes current and the command is answered OK; the removal of TENANT_RESET ends at its boundary (R219, R35). -/
theorem test_generation :
    [after .generationBoundary (waiting none [.vlan 2 (some vlanOne)])
      (fun t => ((tget none t.fwd.tables.vlans 2).isSome, t.fwd.generation, rsp t)) == some (true, 1, [(1, 0, 0)]),
    after .generationBoundary (waiting (some 0) []) (fun t => ((t.mbox 1).tenantHeld, t.host.punt.map (·.2.enable))) == some (false, [false]),
    (let s := waiting none [.mac 0x020000000001 1 (some (5, false))]
     after .generationBoundary { s with fwd := { s.fwd with macs := fullMacs } } (fun t => (t.fwd.generation, rsp t))
       == some (0, [(1, 0x21, 0x23)]))].all id = true := by decide +kernel

/-- A route to a next hop that does not exist cannot be committed: BAD_PARAM 0x21 (R221). -/
theorem test_commit_dangling : after (.tableRouteWrite (cmd ([0x40] ++ List.replicate 23 0))) (live .m3) rsp = some [(1, 0x11, 0x21)] := by
  decide +kernel

/-- A learned and a static entry of VLAN 2, flushed by VLAN: only the learned one goes (R238). -/
def twoMacs : State :=
  let e : MacEntry := { mac := 2, vlan := 2, port := 1, static := false, drop := false, age := 0 }
  { live .m3 with fwd := { (live .m3).fwd with macs := [(4, some e), (5, some { e with static := true }), (9, some { e with vlan := 3 })] } }

theorem test_mac_flush : after (.tableMacFlush (cmd [0, 2, 2, 0])) twoMacs (fun t => t.fwd.macs.map (·.1)) = some [5, 9] := by decide +kernel

/-- TABLE_MAC_READ finds a static entry that a commit placed (R237). -/
theorem test_mac_read : after (.tableMacRead (cmd [2, 0, 0, 0, 0, 1, 2, 0, 3])) { live .m3 with fwd := { (live .m3).fwd with
    macs := ((staticWrites [] [] [.mac 0x020000000001 2 (some (5, false))]).getD ([], [])).1 } }
    (fun t => (t.mbox 0).responses.map fun x => x.results.take 2) = some [[3, 5]] := by decide +kernel

theorem wit_qos : ([accepted qosSetLimitsSpec (cmd [0, 8, 1, 0, 64, 0, 32, 0, 16, 0, 0, 0]) (live .m3),
    accepted qosSetSchedSpec (cmd ([3, 20, 1, 0] ++ List.replicate 16 1)) (live .m3),
    accepted qosSetShaperSpec (cmd [4, 0, 5, 0, 1, 0, 0, 0, 64, 0, 0, 0, 0, 0, 0, 0]) (live .m3),
    accepted qosSetShaperSpec (cmd [0, 0, 5, 0, 1, 0, 0, 0, 64, 0, 0, 0, 0, 0, 0, 0]) (live .m3),
    accepted qosSetLaunchSpec (cmd [5, 0, 3, 0]) (live .m3), accepted qosSetClassMapSpec (cmdBuf 76 []) (live .m3),
    accepted qosPolicerWriteSpec (cmd ([0, 1, 1, 16, 0, 0, 0, 0, 1, 0, 0, 0, 0, 0, 0, 0, 64] ++ List.replicate 23 0)) (live .m3),
    accepted qosQueueFlushSpec (cmd [5, 0]) (live .m3), accepted qosQueueStatusSpec (cmd [5, 0]) (live .m3),
    accepted qosCisternStatusSpec (cmd []) (live .m3)].all id) = true := by decide +kernel

/-- Limits below the colour thresholds are BAD_PARAM 0x31 (R276); a shaper that is enabled starts full (R265). -/
theorem test_qos : after (.qosSetLimits (cmd [0, 8, 1, 0, 64, 0, 65, 0, 16, 0, 0, 0])) (live .m3) rsp = some [(1, 0x11, 0x31)] ∧
    after (.qosSetShaper (cmd [4, 0, 5, 0, 1, 0, 0, 0, 64, 0, 0, 0, 0, 0, 0, 0])) (live .m3) (fun t => (t.shaper 0 5).credit) = some 6400000 := by
  decide +kernel

theorem wit_time : ([accepted timeBaseConfigSpec (cmd [0, 1, 0, 0, 1, 0, 0, 0, 1, 0, 0, 0, 0, 4, 0, 0, 1, 0, 0, 0]) (live .m3),
    accepted timeBaseConfigSpec (cmd [8, 0, 0, 0, 1, 0, 0, 0, 1, 0, 0, 0, 0, 4, 0, 0, 1, 0, 0, 0]) (live .m3),
    accepted timeGetSpec (cmd [0]) (live .m5), accepted timeStepSpec (cmd ([8] ++ List.replicate 17 0)) (live .m3),
    accepted timeStepSpec (cmd (List.replicate 18 0)) (live .m3), accepted timeStepSpec (cmd ([0, 0, 0, 0, 0, 0, 0, 0, 1] ++ List.replicate 9 0)) (live .m3),
    accepted timePtpConfigSpec (cmdBuf 88 []) (live .m3), accepted timePtpConfigSpec (cmdBuf 88 ([9, 0] ++ List.replicate 22 0 ++ [1])) (live .m3),
    accepted timePortConfigSpec (cmd ([3, 1] ++ List.replicate 14 0)) (live .m3),
    accepted timePpsConfigSpec (cmd ([8] ++ List.replicate 7 0 ++ [1] ++ List.replicate 7 0)) (live .m3),
    accepted timePpsConfigSpec (cmd (List.replicate 8 0 ++ [1] ++ List.replicate 7 0)) (live .m3),
    accepted timeSynceConfigSpec (cmd [3, 0, 7, 0]) (live .m3), accepted timeSetTenantBaseSpec (cmd [1, 2]) (live .m3)].all id) = true := by
  decide +kernel

/-- TIME_STEP sets a base to 1 s; a relative step of 1 ns adds to it (R114). -/
theorem test_time_step : after (.timeStep (cmd ([8, 0, 0, 0, 0, 0, 0, 0, 1] ++ List.replicate 9 0))) (live .m3) (fun t => (t.ns 0, (t.base 0).steps))
    = some (1000000000, 1) ∧
    after (.timeStep (cmd ([1, 0, 0, 0, 0, 0, 0, 0, 1] ++ List.replicate 9 0))) (live .m3) (fun t => t.ns 1) = some 1 := by decide +kernel

/-- A KP beyond 1,000,000 is BAD_PARAM 0x04 (R112). -/
theorem test_base_config : after (.timeBaseConfig (cmd [0, 1, 0, 0, 0x41, 0x42, 0x0F, 0, 1, 0, 0, 0, 0, 4, 0, 0, 1, 0, 0, 0])) (live .m3) rsp
    = some [(1, 0x11, 4)] := by decide +kernel

/-- A cell of an image: an uplink unicast cell of site 3, band 0 (L). -/
def cell : Cell :=
  { type := 0, ackReq := false, grouped := false, site := 3, band := 0, ctx := 1, start := 0, len := 4, node := 16, chset := 0, chOffset := 0,
    group := 0, decPeak := 1, ackDelay := 0, power := 0, keyed := 0 }

/-- An image of domain 0 on TB0: slots of 25 ms, two a Season, one channel at 868.1 MHz with PHY code 0. -/
def image : Image :=
  { domain := 0, tenant := 0, serial := 7, slotUnits := 100, k := 1, tb := 0, guard := 0, keySlot := 32, asnOrigin := 0
    sites := [{ site := 3, bands := 1, fhMax := 100 }], slots := [{ cells := [(0, cell)], vects := [] }, { cells := [], vects := [] }]
    chsets := [[{ freq := 868100000, phy := 0, band := 0 }]], groups := [], csls := [], routes := [] }

/-- A Node Record of domain 0 with the EUI-64 5. -/
def node5 : NodeRec := { eui := 5, domain := 0, state := 2 }

/-- Settings of a domain. -/
def meshCfg : DomainCfg :=
  { joinOpen := true, retryLimit := 3, panId := 0x1234, deviceEui := 9, pfx := 0xFD00000000000000, mtu := 1280, fragPayload := 64,
            eventWell := some 8, linkWell := none, joinSpreadS := 0, joinWaitS := 30, dlqDefault := 16 }

/-- Domain 0 of tenant 0, with handles from 16; its Tenant Root and Domain Key; a radio port; a completion Well. -/
def net : State :=
  withCfg (fun c => { c with
    domainOwner := [(0, some { tenant := 0, base := 16, max := 100 })]
    ports := [(0, { mode := 2, site := some 3 })]
    wells := [(8, some { tenant := 0, slot := 0, fault := true })] })
    { live .m3 with
      host := { (live .m3).host with mbox := [(0, { box with complWell := 4, complValid := true }), (1, { box with complWell := 0, complValid := true })] }
      radio := { domains := [(0, { imageMib := 16, decShare := 64 })] }
      nv := { (live .m3).nv with keys := { slots := [(0, { kind := 1, owner := 0, gen := 1 }), (32, { kind := 2, owner := 0, parent := 0, gen := 1, parentGen := 1 })] } }
      mesh := { domains := [(0, { cfg := some meshCfg })]
                nodes := [(16, some node5)]
                nodeImages := [(1, some { owner := 0, data := by_ [1, 2, 3] })] } }

/-- The domain changed. -/
def netDom (f : SchedDomain → SchedDomain) : State := net.modDomain 0 f

theorem wit_radio : ([accepted radioSiteConfigSpec (cmd ([3, 7, 60, 60, 60, 0, 0, 0x80, 0, 0x80, 0, 0x80, 24, 24, 56] ++ List.replicate 17 0)) net,
    !(net.siteRuns 3), !net.journalStuck,
    accepted radioDwellConfigSpec (cmd [3, 0, 0, 0, 0, 0, 0, 0, 0xE8, 3, 0, 0, 1, 0, 0, 0, 1, 0, 0, 0, 1, 0, 0, 0, 1, 0, 0, 0]) net,
    accepted radioSiteStatusSpec (cmd [3]) net, (net.sitePort 3).isSome, accepted radioFloorReadSpec { cmdBuf 4 [] with fn := 0 } net,
    accepted radioDwellReadSpec (cmd [3, 0, 0, 0]) net, accepted radioSiteResetSpec (cmd [3]) net,
    accepted radioLoadingConfigSpec (cmd [0, 12, 0x0C, 60, 12, 0, 0, 0]) net, accepted radioMapReadSpec (cmdBuf 4 [16]) net].all id) = true := by
  decide +kernel

theorem wit_sched : ([accepted schedDomainAllotSpec (cmd [0, 0, 8, 0, 1, 0]) (live .m3),
    accepted schedSiteAllotSpec (cmdBuf 203 [3, 0, 40, 0, 0]) (live .m3),
    accepted schedLoadImageSpec (cmd [0, 0, 0, 0, 0x68, 1, 0, 0, 0, 0x10, 0, 0, 0, 0, 0, 0]) net,
    accepted schedDeactivateSpec (cmd [0]) net, ((net.domain 0).active).isNone,
    accepted schedDeactivateSpec (cmd [0]) (netDom fun x => { x with bankA := .loaded image, active := some false }),
    accepted schedUnloadSpec (cmd [0x40]) net, accepted schedStatusSpec (cmd [0]) net,
    accepted schedActivateSpec (cmd ([0, 0, 0, 0, 1] ++ List.replicate 9 0)) (netDom fun x => { x with bankA := .loaded image })].all id) = true := by
  decide +kernel

/-! ### Node, key, pair, self-test, update and observation commands -/

/-- An IPv6 packet without payload to the node 16, whose short address is 0. -/
def packet : List Nat := [0x60, 0, 0, 0, 0, 0, 59, 64] ++ List.replicate 16 0x20 ++ [0xFD, 0, 0, 0, 0, 0, 0, 0, 0, 0, 0, 0xFF, 0xFE, 0, 0, 0]

/-- The domain runs an image with a unicast cell down to node 16, which has a link to site 3. -/
def netDown : State :=
  let s := netDom fun x => { x with active := some false, bankA := .loaded { image with
    slots := [{ cells := [(0, { cell with type := 1, ackReq := true, start := 5000, keyed := 2000 })], vects := [] }, { cells := [], vects := [] }] } }
  { s with mesh := { s.mesh with nodes := [(16, some { node5 with links := [{ site := 3 }, {}, {}, {}] })] } }

theorem wit_node : ([accepted nodeDomainAssignSpec (cmd [1, 2, 10, 0, 0, 1, 0, 0]) net, accepted nodeDomainAssignSpec (cmd [0x40, 0, 0, 0, 0, 0, 0, 0])
      { net with mesh := {} }, !net.journalStuck,
    accepted nodeDomainConfigSpec (cmd ([0x40, 3, 0x34, 0x12, 9, 0, 0, 0, 0, 0, 0, 0, 0xFD, 0, 0, 0, 0, 0, 0, 0, 0, 5, 64, 0, 8, 0, 0, 0, 0, 0, 30, 0, 16, 0] ++ List.replicate 14 0)) net,
    accepted nodeDomainConfigSpec (cmd ([0x41, 3, 0x34, 0x12, 9, 0, 0, 0, 0, 0, 0, 0, 0xFD, 0, 0, 0, 0, 0, 0, 0, 0, 5, 64, 0, 8, 0, 0, 0, 0, 0, 30, 0, 16, 0] ++ List.replicate 14 0)) net,
    (net.meshDom 0).cfg.isSome, accepted nodeDomainStatusSpec (cmd [0]) net, accepted nodeReadSpec (cmdBuf 16 [16]) net,
    accepted nodeReadSpec (cmdBuf 16 [0, 0, 0, 0, 1, 0, 0, 0, 5]) net, accepted nodeWriteSpec (cmdBuf 264 ([16, 0, 0, 0, 0x1F] ++ List.replicate 97 0 ++ [9])) net,
    accepted nodeWriteSpec (cmdBuf 264 [16, 0, 0, 0, 0x20]) net, accepted nodeRemoveSpec (cmd (16 :: List.replicate 15 0)) net,
    accepted nodeRemoveSpec (cmd ([0, 0, 0, 0, 5, 0, 0, 0, 5] ++ List.replicate 7 0)) net,
    accepted nodeRemoveSpec (cmd ([0, 0, 0, 0, 6, 0, 0, 0, 5] ++ List.replicate 7 0)) { net with mesh := { net.mesh with barred := [(0, 5)] } },
    accepted nodeDomainRekeySpec (cmd [0]) net,
    accepted nodeDistStartSpec (cmdBuf 24 [0, 1, 64, 0, 0xFF, 0, 0, 0, 32, 0, 100]) net, !(net.distTargets 0 0xFF).isEmpty,
    accepted nodeDistStopSpec (cmd [0]) net].all id) = true := by decide +kernel

/-- NODE_SEND of a packet that has a way (R465 to R468). -/
theorem wit_node_send : (accepted nodeSendSpec (cmdBuf 56 ([16, 0, 0, 0, 0, 0, 0, 0] ++ List.replicate 8 0 ++ packet)) netDown &&
    (node5.matching 0).isNone) = true := by decide +kernel

/-- A packet of less than 40 octets is BAD_PARAM 0x73 (R482). -/
theorem test_node_send_short : after (.nodeSend (cmdBuf 16 [16])) netDown rsp = some [(1, 0x11, 0x73)] := by decide +kernel

/-- NODE_WRITE of HOST_TAG keeps the rest and adds 2 to the record's hidden sequence number (R443, R480). -/
theorem test_node_write : after (.nodeWrite (cmdBuf 264 ([16, 0, 0, 0, 0x20] ++ List.replicate 163 0 ++ [7]))) net
    (fun t => (t.node 16).map fun n => (n.hostTag.take 2, n.seqNo, n.rxCounter)) = some (some ([7, 0], 2, 0)) := by decide +kernel

/-- Removing and barring a node; a removal without record is BAD_PARAM 0x44 (R481). -/
theorem test_node_remove : after (.nodeRemove (cmd ([16, 0, 0, 0, 1] ++ List.replicate 11 0))) net (fun t => (t.node 16, t.mesh.barred)) =
      some (none, [(0, 5)]) ∧
    after (.nodeRemove (cmd (17 :: List.replicate 15 0))) net rsp = some [(1, 0x11, 0x44)] := by decide +kernel

/-- NODE_DOMAIN_REKEY advances the epoch at once, and its lease waits for the MRAM (R454, R483). -/
theorem test_rekey : after (.nodeDomainRekey (cmd [0])) net (fun t => (t.epochOfDomain 0, t.node 16, t.nv.staged.length)) = some (1, none, 1) := by
  decide +kernel

/-- The base point of P-384 (FIPS 186-4), a valid public key. -/
def p384Base : Bytes :=
  beBytes 48 0xaa87ca22be8b05378eb1c71ef320ad746e1d3b628ba79b9859f741e082542a385502f25dbf55296c3a545e3872760ab7 ++
    beBytes 48 0x3617de4a96262c6f5d9e98bf9292dc29f8f41dbd289a147ce9da3113b5f0b8c00a60b1ce1d7e819d7a431d7c90ea0e5f

/-- KEY_IMPORT of a P-384 public key into slot 200, of the base point or of zeros. -/
def importPoint (good : Bool) : Aci :=
  { cmdBuf 104 [] with buf := by_ [200, 0, 5, 0, 0, 0, 0, 0] ++ (if good then p384Base else List.replicate 96 0) }

/-- The key store with slot 200 given to tenant 0. -/
def keys : State := { net with nv := { net.nv with keys := { net.nv.keys with slots := net.nv.keys.slots ++ [(200, { owner := 0 })] } } }

theorem wit_key : ([accepted keyTenantRootCreateSpec (cmd [1]) net, (tget none net.pair.rootKeys 1).isNone,
    accepted keyDomainKeyCreateSpec (cmd [0]) { net with mesh := {} }, accepted keyImportSpec (importPoint true) keys, accepted keyImportSpec (importPoint false) keys,
    p384.pointReason p384Base == 0, p384.pointReason (List.replicate 96 0) != 0, accepted keyImportSpec (cmdBuf 84 [16, 0, 4]) keys,
    accepted keyDestroySpec (cmd [32, 0]) net, net.slotState 32 != 0, accepted keyDestroySpec (cmd [40, 0]) net, net.slotState 40 == 0,
    accepted keySlotAssignSpec (cmd [200, 0, 2]) net, accepted keySlotStatusSpec (cmd [32, 0]) net,
    accepted keyReadPublicSpec { cmdRes [0, 0] with fn := 0 } net, (net.keySlot 0).tagOk, accepted keyCacheSharesSpec (cmd (List.replicate 32 0)) net,
    accepted keyMapReadSpec (cmdRes []) net].all id) = true := by decide +kernel

/-- A tenant join key cannot be read (DENIED 0x03), and an empty slot has no public value (BAD_PARAM 0x91) (R524). -/
theorem test_key_read : after (.keyReadPublic (cmdRes [16, 0])) net rsp = some [(1, 0x30, 3)] ∧
    after (.keyReadPublic (cmdRes [200, 0])) net rsp = some [(1, 0x11, 0x91)] := by decide +kernel

/-- The commit of an assignment, and one that must wait for 10 s after the last (R511). -/
theorem test_key_commit :
    let k (c : Option Nat) : State := { net with nv := { net.nv with keys := { net.nv.keys with staged := [{ op := .assign 200 2, reply := none }], commitAt := c } } }
    after .keyStoreCommit (k none) (fun t => (t.keySlot 200).owner) = some 2 ∧
    after .keyStoreCommit (k (some 0)) (fun t => (t.keySlot 200).owner) = some 16 := by decide +kernel

/-- The active device with a standby in M5. -/
def active : State := { leading with pair := { leading.pair with formed := true } }

/-- A carried command that passed on both devices. -/
def passed (op : Nat) (pl : Bytes) : Carried :=
  { req := { fn := 0, opcode := op, tag := 1, fence := false, len := pl.length, buffer := 0, pl := pl }, epoch := 64, own := true, mine := some (stOk, 0),
    partner := some (stOk, 0) }

theorem wit_pair_cmds : ([accepted pairConfigSpec (cmd ([1, 4, 24] ++ List.replicate 13 0)) (live .m3), accepted pairGetStatusSpec (cmd []) (live .m3),
    accepted pairLaneTrimSpec (cmdBuf 6 [4, 0, 2, 0, 1, 0xFF]) (live .m3), accepted pairClearSpec (cmd []) (live .m3),
    mayStart pairEquinoxSpec (cmd [1]) active,
    (pairEquinoxSpec.params (pairEquinoxSpec.req (cmd [1]) active) (taken (cmd [1]) active)).isNone,
    (pairResyncSpec.params (pairResyncSpec.req (cmd []) active) (taken (cmd []) active)).isNone,
    mayStart pairResyncSpec (cmd []) active,
    (live .m5).follows, !active.follows].all id) = true := by decide +kernel

/-- PAIR_EQUINOX skips or holds the next swap; PAIR_RESYNC sends the standby back to phase 3 (R589, R591). -/
theorem test_pair_actions : (active.applyCarried (passed 0x0A03 (by_ [0]))).pair.skipNext = true ∧
    (active.applyCarried (passed 0x0A03 (by_ [1]))).pair.hold = true ∧ (active.applyCarried (passed 0x0A06 [])).pair.peerPhase = 3 ∧
    ({ live .m5 with pair := { phase := 6 } }.applyCarried (passed 0x0A06 [])).pair.phase = 3 := by decide +kernel

/-- A session: of a bank or of a node image, in a state. -/
def session (node : Bool) (st : Nat) : Session := { number := 1, node := node, total := 8192, priv := [], pub := [], state := st }

/-- The device with a session. -/
def updating (m : Mode) (cause : Nat) (x : Option Session) : State :=
  { net with ms := { (live m cause).ms with lkg := true }, svc := { session := x, stage := x.bind fun y => if y.node then some (2, 0, [1]) else none } }

theorem wit_bist_observe : ([accepted bistRunSpec (cmd [1, 0, 2, 0]) { withCfg (fun c => { c with ports := (List.range 32).map fun i => (64 + i, { adminUp := false }) }) (live .m7 1) with
      host := { net.host with wells := [] } }, accepted bistRunSpec (cmd [6, 0, 5, 0]) net, accepted bistRunSpec (cmd [7, 0, 9, 0])
      (withCfg (fun c => { c with ports := [(9, { adminUp := false })] }) net),
    accepted bistStatusSpec (cmdRes [1]) net, accepted bistConfigSpec (cmd [60, 0]) net, accepted observeSnapshotSpec (cmd []) net,
    accepted observeCountersSpec (cmdBuf 12 [1, 0, 0, 0, 0, 0, 0, 0, 1]) { net with snap := { valid := true } },
    accepted observeTraceConfigSpec (cmdBuf 16 [1]) net].all id) = true := by decide +kernel

theorem wit_update : ([accepted updateOpenSpec (cmdBuf 12 [0, 2, 0, 0, 0, 0x20]) (updating .m3 0 none), accepted updateOpenSpec (cmdBuf 12 [1, 0, 2, 0, 100]) (updating .m3 0 none),
    accepted updateStatusSpec (cmd []) net,
    accepted updateInstallSpec (cmd [0]) (updating .m3 0 (some (session false 3))), !(updating .m3 0 (some (session false 3))).imageReceived,
    accepted updateInstallSpec (cmd [0]) (updating .m7 3 (some (session false 3))), (updating .m7 3 (some (session false 3))).noImage,
    accepted updateInstallSpec (cmd [0]) (updating .m3 0 (some (session true 3))), (updating .m3 0 (some (session true 3))).imageReceived,
    accepted updateAbortSpec (cmd []) (updating .m3 0 (some (session false 2))), accepted updateAbortSpec (cmd []) net,
    accepted updateBankInfoSpec (cmd [1]) net, accepted updateNodeImageDropSpec (cmd [1]) net].all id) = true := by decide +kernel

/-- UPDATE_INSTALL of a session that is not received is BAD_PARAM 0xC2; dropping a slot that is empty 0xC4 (R620, R623). -/
theorem test_update : after (.updateInstall (cmd [0])) (updating .m3 0 (some (session false 2))) rsp = some [(1, 0x11, 0xC2)] ∧
    after (.updateNodeImageDrop (cmd [5])) net rsp = some [(1, 0x11, 0xC4)] := by decide +kernel

/-! ### Commands that an event ends -/

/-- What is seen after a command and the event that ends it. -/
def ended {α : Type} (i j : Instr) (s : State) (f : State → α) : Option α :=
  match exec i s with
  | .next t => after j t f
  | _ => none

/-- The completion statements of the KEY commands and of NODE_DOMAIN_REKEY: the slot and the response after the commit (R483, R511,
R518 to R522). -/
theorem wit_key_ends :
    [ended (.keyTenantRootCreate (cmd [1])) .keyStoreCommit net (fun u => ((u.keySlot 1).kind, (u.keySlot 1).gen, rsp u)) ==
      some (1, (net.keySlot 1).gen + 1, [(1, 0, 0)]),
    ended (.keyDomainKeyCreate (cmd [0])) .keyStoreCommit { net with mesh := {} } (fun u => ((u.keySlot 32).kind, (u.keySlot 32).gen, rsp u)) ==
      some (2, (net.keySlot 32).gen + 1, [(1, 0, 0)]),
    ended (.keyImport (importPoint true)) .keyStoreCommit keys (fun u => ((u.keySlot 200).kind, (u.keySlot 200).value == p384Base, rsp u)) ==
      some (5, true, [(1, 0, 0)]),
    ended (.keyDestroy (cmd [32, 0])) .keyStoreCommit net (fun u => ((u.keySlot 32).kind, (u.keySlot 32).value, rsp u)) == some (0, [], [(1, 0, 0)]),
    ended (.keySlotAssign (cmd [200, 0, 2])) .keyStoreCommit net (fun u => ((u.keySlot 200).owner, rsp u)) == some (2, [(1, 0, 0)]),
    ended (.nodeDomainRekey (cmd [0])) .mramCommitDone net (fun u => (u.lease 0, (u.meshDom 0).nextEpoch, rsp u)) ==
      some ({ epoch := 1, leaseEnd := 65536 }, none, [(1, 0, 0)])].all id = true := by decide +kernel

/-- The same of TENANT_RESET, TABLE_COMMIT, SCHED_DEACTIVATE and OBSERVE_SNAPSHOT (R35, R219, R431, R648). -/
theorem wit_others_end :
    [ended (.tenantReset (cmd [0])) .generationBoundary net (fun u => ((u.mbox 1).tenantHeld, (u.meshDom 0).cfg.isNone, rsp u)) == some (false, true, [(1, 0, 0)]),
    ended (.tableCommit (cmd [])) .generationBoundary { staged with fwd := { staged.fwd with placed := (List.range 8).map fun p => (p, 9) } } (fun u => (u.fwd.generation, u.fwd.pendingGens.length, rsp u)) == some (1, 0, [(1, 0, 0)]),
    ended (.observeSnapshot (cmd [])) .snapshotPublished net (fun u => (u.snap.seq, u.snap.valid, rsp u)) == some (1, true, [(1, 0, 0)]),
    (let s := netDom fun x => { x with bankA := .loaded image, active := some false }
     let w := { s.time with bases := [(0, { t := 65536 * 1000000000 })] }
     match exec (.schedDeactivate (cmd [0])) s with
     | .next t => after (.deactivateDone 0) { t with time := w } (fun u => ((u.domain 0).active, rsp u)) == some (none, [(1, 0, 0)])
     | _ => false)].all id = true := by decide +kernel

/-- PAIR_EQUINOX and PAIR_RESYNC run through their check to their release (R545, R589, R591). -/
theorem wit_pair_ends :
    (let run (i : Instr) (f : State → Nat × Bool × Bool) : Bool × Option (Nat × Bool × Bool) :=
      match exec i { active with pair := { active.pair with peerMode := 5, peerPhase := 6 } } with
      | .next t => match exec (.pairCheck 0 1 false 0 0) t with
        | .next v => let x := { v with time := { v.time with duration := 131072 * 20 } }
                     (decide (80 ≤ x.epoch), after .compareEpoch x f)
        | _ => (false, none)
      | _ => (false, none)
    [run (.pairEquinox (cmd [0])) (fun u => ((rsp u).length, u.pair.skipNext, u.pair.hold)) == (true, some (1, true, false)),
    run (.pairEquinox (cmd [1])) (fun u => ((rsp u).length, u.pair.skipNext, u.pair.hold)) == (true, some (1, false, true)),
    run (.pairResync (cmd [])) (fun u => ((rsp u).length, u.pair.peerPhase == 3, u.pair.peerSynced)) == (true, some (1, true, false))]).all id = true := by
  decide +kernel

/-! ### Rings, resets, the start, faults, forwarding and ports -/

/-- An inject descriptor that is SOF and EOF, for a queue. -/
def desc (q : Nat) (n : Nat := 60) : Bytes := List.replicate 8 0 ++ leBytes 2 n ++ [3, 0] ++ leBytes 2 q ++ List.replicate 18 0

/-- A frame of 60 octets without FCS, from station 02-00-00-00-00-02 to 02-00-00-00-00-01. -/
def eth : Bytes := by_ ([2, 0, 0, 0, 0, 1, 2, 0, 0, 0, 0, 2, 0x88, 0xB5] ++ List.replicate 46 0)

/-- Ports 0 and 1 with their links up, and a station of VLAN 1 at port 1; the rings of PF0 hold descriptors. -/
def bridge : State :=
  let r : Ring := { configured := true, enable := true, log2 := 6, bufUnits := 1, tail := 4 }
  withCfg (fun c => { c with ports := [(0, { mode := 2 }), (1, { mode := 2, firstLane := 1 })] })
    { live .m3 with
      ports := { st := [(0, { linkUp := true }), (1, { linkUp := true })] }
      fwd := { (live .m3).fwd with macs := ((staticWrites [] [] [.mac 0x020000000001 1 (some (1, false))]).getD ([], [])).1 }
      host := { (live .m3).host with
        inject := [(0, r)]
        punt := [(0, { r with frames := [{ bytes := eth, reason := 16, source := 0, rule := 0, stamp := none }] }),
          (1, { r with tail := 0, frames := [{ bytes := eth ++ List.replicate 300 0, reason := 16, source := 0, rule := 0, stamp := none }] }),
          (2, { r with tail := 1, bufs := [eth], frames := [{ bytes := List.replicate 600 0, reason := 16, source := 0, rule := 0, stamp := none, arrived := 256 }] })] } }

/-- InjectedAndPuntedFrames: the hypotheses of each clause (R99 to R102). -/
theorem wit_inject_punt : ((bridge.injRing 0 0).enable && bridge.busMaster 0 && decide (1 ≤ ((bridge.injRing 0 0).tail - (bridge.injRing 0 0).head).toNat) &&
    injFlag (desc 128) 1 && (bridge.injStatus 0 [desc 128] eth == 0) && (bridge.injStatus 0 [desc 128 13] (eth.take 13) == 1) &&
    !injFlag (desc 128) 2 && !bridge.isRadio 1 && !(bridge.queue 128).launchEn && bridge.fits 128 (cellsOf 64) 0 && !bridge.noCell (cellsOf 64) &&
    (bridge.puntRing 0 0).configured && !(bridge.puntRing 0 0).dropping && ((bridge.puntRing 0 1).freeBufs == 0) &&
    ((bridge.puntRing 0 2).freeBufs == 0) && ((bridge.puntRing 0 2).bufSize == 256)) = true := by decide +kernel

/-- An injected frame goes to its queue; one that is too short is refused with status 1 (R102). -/
theorem test_inject : after (.injectFrameRead 0 0 [desc 128] eth) bridge (fun t => ((t.queue 128).items.map (·.bytes.length), (t.injRing 0 0).head,
      (t.injRing 0 0).statuses)) = some ([60], 1, [(0, 0)]) ∧
    after (.injectFrameRead 0 0 [desc 128 13] (eth.take 13)) bridge (fun t => (t.injRing 0 0).statuses) = some [(0, 1)] := by decide +kernel

/-- A frame of one cell takes one buffer; without a buffer it is dropped, at its start or in its middle (R100). -/
theorem test_punt : after (.puntCellArrival 0 0) bridge (fun t => (t.puntRing 0 0).written.map fun d => (d.length, d.sof, d.eof, d.phase)) =
      some [(60, true, true, true)] ∧
    after (.puntCellArrival 0 1) bridge (fun t => ((t.puntRing 0 1).nobufDrop, (t.puntRing 0 1).dropping)) = some (1, true) ∧
    after (.puntCellArrival 0 2) bridge (fun t => ((t.puntRing 0 2).truncDrop, (t.puntRing 0 2).written.map (·.discard))) = some (1, [true]) := by
  decide +kernel

/-- ResetsEnterDormant: the clauses' states and what comes of them (R42, R49, R65). -/
theorem test_resets : [after .resetNLow (live .m3) (fun t => (t.ms.mode, t.ms.resetCause)) == some (.m0, 3),
    after (.railOutOfRange 5) (live .m3) (fun t => (t.ms.mode, t.power.railFault.toNat)) == some (.m0, 5),
    after .powerFailWarning leading (fun t => (t.ms.inTransition, t.pins.activeOut)) == some (true, false),
    after .powerFailDrainDone { live .m3 with ms := { (live .m3).ms with inTransition := true } } (fun t => t.ms.mode) == some .m0,
    after .powerFailDrainDone (live .m3) (fun t => t.ms.mode) == some .m3].all id = true := by decide +kernel

/-- The board's straps and clocks. -/
def straps : BootInput := { pairId := true, vbatKept := true, refclkTile := 0xFF, refclkRc := true }

/-- StartSelectsABank. The bank that starts needs a signature that verifies, which is opaque; without an image the start ends in
M7 SAFE by cause 3 (R55). -/
theorem test_boot_start : [after (.bootStart straps) State.reset (fun t => (t.ms.mode, t.ms.safeCause, t.pins.pairId)) == some (.m7, 3, true),
    after (.bootStart { straps with refclkRc := false }) { live .m0 with ms := { (live .m0).ms with armed := true } }
      (fun t => (t.ms.mode, t.ms.bootStep)) == some (.m1, 0),
    after (.bootStart straps) { live .m0 with ms := { (live .m0).ms with armed := false } } (fun t => t.ms.mode) == some .m0].all id = true := by
  decide +kernel

theorem wit_no_bank : ([State.reset.checkBank false, State.reset.checkBank true].all fun x => match x with | .inl _ => true | .inr _ => false) = true ∧
    State.reset.ms.bootStep = 0 ∧ (State.reset.bootRec State.reset.committed).failed = false ∧
    (State.reset.bootRec State.reset.committed).tried < 3 := by decide +kernel

/-- At a step of the start. -/
def starting (n : Nat) (f : Modes → Modes := id) (en active pid : Bool := false) : State :=
  let s := withCfg (fun c => { c with pair := { c.pair with pairingEn := en } }) (live .m1)
  { s with ms := f { s.ms with bootStep := n }, pins := { s.pins with activeIn := active, pairId := pid } }

/-- StartStepsFollowInOrder (R42, R51, R631): every clause's state and its end. -/
theorem test_start_steps : [after (.bootSelfTestDone [(13, 0)]) (starting 1) (fun t => (t.ms.bootStep, t.ms.bootSafe)) == some (2, 2),
    after (.bootSelfTestDone []) (starting 1) (fun t => (t.ms.bootStep, t.ms.bootSafe, t.bist.unusable)) == some (2, 0, []),
    after (.bootSelfTestDone ((List.range 8).map fun i => (10, i))) (starting 1) (fun t => (t.ms.mode, t.ms.safeCause)) == some (.m7, 3),
    after .processorsLoaded (starting 2) (fun t => (t.procs.loaded, t.ms.bootStep, t.pins.aliveOut)) == some (true, 3, true),
    after .processorsLoaded (starting 2 fun m => { m with unclean := true }) (fun t => t.lease 3) == some { epoch := 1, leaseEnd := 65536 },
    after .bootComplete (starting 3) (fun t => t.ms.mode) == some .m3,
    after .bootComplete (starting 3 fun m => { m with bootSafe := 4 }) (fun t => (t.ms.mode, t.ms.safeCause)) == some (.m7, 4),
    after .bootComplete (starting 3 fun m => { m with migrating := true }) (fun t => t.ms.mode) == some .m2,
    after .bootComplete (starting 3 id true true) (fun t => t.ms.mode) == some .m5,
    after .bootComplete (starting 3 id true false false) (fun t => t.ms.mode) == some .m3,
    after .bootComplete (starting 3 id true false true) (fun t => (t.ms.mode, t.ms.bootStep)) == some (.m1, 4),
    after .pairingWaitExpiry (starting 4) (fun t => t.ms.mode) == some .m3,
    after .pairingWaitExpiry (starting 4 id true true) (fun t => t.ms.mode) == some .m1].all id = true := by decide +kernel

/-- Triggers in the power-fail drain are held, a warm reset acts at once and the drain goes on (R43, R49, R65). -/
theorem test_drain : let s (m : Mode) : State := { live m with ms := { (live m).ms with inTransition := true, synced := true } }
    [after .activeInFall (s .m5) (fun t => (t.ms.mode, t.ms.inTransition)) == some (.m5, true),
    after (.coreDieFault false 0) (s .m3) (fun t => (t.ms.mode, t.ms.inTransition)) == some (.m3, true),
    after .bscFault (s .m3) (fun t => (t.ms.mode, t.ms.inTransition, t.pins.bypassHold)) == some (.m1, true, []),
    after .powerFailDrainDone (s .m1) (fun t => (t.ms.mode, t.ms.inTransition)) == some (.m0, false)].all id = true := by decide +kernel

/-- A core-die fault in M1: held for the entries and T10, or T10 at once while it waits for ACTIVE_IN (R42, R695). -/
theorem test_core_die : [after (.coreDieFault false 5) { starting 1 with procs := {} } (fun t => (t.ms.dieFaults, t.ms.bootSafe)) == some ([5], 2),
    after (.coreDieFault true 1) (starting 4) (fun t => (t.ms.mode, t.ms.safeCause)) == some (.m7, 7),
    after (.coreDieFault false 1) (live .m7) (fun t => t == ((live .m7).levelFault 4 4 0 1)) == some true,
    State.reset.ms.noted == [changeBody .m0 .m1 4 0 0 false]].all id = true := by decide +kernel

/-- A set that runs, of bank A. -/
def imageSet : ImageSet :=
  { major := 1, minor := 0, setVersion := 5, kalxusMin := 0, kalxusMax := 0, blobFrom := [4], partners := [], signKey := 1, revoke := 3, pru := [],
    digest := [], steps := false }

/-- MigrationAndLastKnownGood: the states of the clauses; the first mark revokes key 0, and not the running key 1 (R602). -/
theorem test_lkg : let s : State := { live .m3 with ms := { (live .m3).ms with running := some imageSet } }
    after .lkgReached s (fun t => (t.ms.lkg, t.nv.bootA.lkg, t.nv.fuses.revoked)) = some (true, true, 1) ∧
    after .migrationTimeout { live .m2 with ms := { (live .m2).ms with bootStep := 3 } } (fun t => (t.ms.mode, t.nv.bootA.failed)) = some (.m7, true) ∧
    after .migrationStepError (live .m3) (fun t => t.ms.mode) = some .m3 := by decide +kernel

/-- MIGRATION_DONE: a blob of version 4 is in force; what its conversion gives is opaque. -/
theorem wit_migration : let s : State := { live .m2 with ms := { (live .m2).ms with bootStep := 3 }, nv := { blob := some { seq := 1, version := 4, cfg := {} } } }
    s.ms.mode = .m2 ∧ s.ms.bootStep = 3 ∧ s.nv.blob.isSome = true := by decide +kernel

/-- ProcessorFaultsReloadOrRestart (R21 to R24). -/
theorem test_processor_faults : [after .bscFault (live .m3) (fun t => t.ms.resetCause.getLsbD 4) == some true,
    after (.processorFault 0) (live .m5) (fun t => t.ms.resetCause.getLsbD 4) == some true,
    after (.processorFault 8) (live .m4) (fun t => t.ms.resetCause.getLsbD 4) == some true,
    after (.processorFault 8) (live .m3) (fun t => t.procs.reloading) == some [8],
    after (.processorFault 3) State.reset (fun t => t.procs.reloading) == some [],
    after (.processorReloadDone 1) { busy true with procs := { loaded := true, reloading := [1] } } (fun t => (t.procs.reloading, (t.mbox 0).inflight.length, rsp t))
      == some ([], 0, [(9, 0xFF, 0)]),
    after (.worldViolation 0 9 true 0) (live .m3) (fun t => t.counter (.worldViolations 9)) == some 1].all id = true := by decide +kernel

/-- DataLevelFaultsResetTheirBlock (R29, R30, R41). -/
theorem test_level_faults : [after (.dataLevelFault 2 0 1) bridge (fun t => (t.inBlockReset 2 0, (t.portSt 0).linkUp)) == some (true, false),
    after (.dataLevelFault 3 0 1) bridge (fun t => (t.inBlockReset 3 0, (t.portSt 1).linkUp)) == some (true, false),
    after (.blockResetDone 2 0 false) { bridge with ports := { st := [(0, { inReset := true })] } } (fun t => ((t.portSt 0).inReset, (t.portSt 0).outOfService))
      == some (false, true),
    after (.blockResetDone 2 0 false) bridge (fun t => (t.portSt 0).outOfService) == some false,
    after (.coreDieFault true 1) (live .m3) (fun t => (t.ms.mode, t.ms.safeCause)) == some (.m7, 7),
    after (.coreDieFault false 1) (live .m1) (fun t => (t.ms.mode, t.ms.bootSafe)) == some (.m1, 2)].all id = true := by decide +kernel

theorem wit_level_fault : ((live .m3).levelBusy 1 3 == false && decide (3 < levelCount 1) && decide (levelCount 3 ≤ 8)) = true := by decide +kernel

/-! ### Forwarding -/

/-- A whole frame with room for its FCS. -/
def rx (b : Bytes) : RxFrame := { bytes := b, ends := true, preemptable := false, stamp := 0 }

/-- ReceivedFramesAreLookedUp: the hypotheses of the last clause hold, and the frame takes its class's queue (R198 to R201). -/
theorem wit_frame : (bridge.inService && (bridge.portSt 0).linkUp && bridge.portUsable 0 && (bridge.fwd.tables.intfAt 0 1).isNone &&
    bridge.fwd.tables.rules.isEmpty && bridge.fwd.tables.mirrors.isEmpty && !isGroup (parseFrame eth).dst &&
    ((bridge.macLookup 0 (parseFrame eth).dst 1).map (·.port) == some 1) && !bridge.isRadio 1 && !tget false bridge.cfg.cutThrough 1 &&
    !(bridge.queue 136).launchEn && bridge.fits 136 (cellsOf 64) 0 && !bridge.noCell (cellsOf 64) &&
    ((tget none bridge.fwd.tables.vlans 1).map fun v => bit v.members 0) == some true) = true := by decide +kernel

/-- To the station's port by tenant 0's class 0 (queue 8 of port 1); a PAUSE frame is counted; a runt takes no queue; a radio port
counts a foreign frame (R176, R198, R256). -/
theorem test_frame_rx : [after (.frameRx 0 (rx (eth ++ [0, 0, 0, 0]))) bridge (fun t => (t.queue 136).items.length) == some 1,
    after (.frameRx 0 (rx (by_ ([1, 0x80, 0xC2, 0, 0, 1, 2, 0, 0, 0, 0, 2, 0x88, 8] ++ List.replicate 50 0)))) bridge (fun t => t.counter (.port 0 .rxPause)) == some 1,
    after (.frameRx 0 (rx (eth.take 40))) bridge (fun t => (t.queue 136).items.length) == some 1,
    after (.frameRx 0 (rx (eth ++ [0, 0, 0, 0]))) (withCfg (fun c => { c with ports := [(0, { mode := 2, site := some 3 })] }) bridge)
      (fun t => t.counter (.port 0 .rxRadioForeign)) == some 1,
    after (.frameRx 0 (rx (eth ++ [0, 0, 0, 0]))) { bridge with fwd := { bridge.fwd with portL2 := [(0, { untagged := false })] } }
      (fun t => t.counter (.pipe 0 .vlanDrop)) == some 1,
    after (.frameRx 5 (rx eth)) bridge (fun t => t.qos.nextId) == some 0].all id = true := by decide +kernel

/-- A frame in hand that one queue holds. -/
def inHand (q : List Nat) : State :=
  { bridge with qos := { rx := [(0, some { id := 4, bytes := eth ++ [0, 0, 0, 0], queues := q, punts := [], borders := [], stamp := 0, top := 1522 })]
                         queues := [(136, { items := [{ id := 4, bytes := eth ++ [0, 0, 0, 0], cells := 1, complete := false, maxLen := 1522 }] })]
                         stored := [(4, some { cells := 1, holders := 1 })], nextId := 5 } }

/-- The end of a frame, its FCS right or wrong, with so many octets more. -/
def fin (ok : Bool) (n : Nat) : RxEnd :=
  { preemptable := false, rest := List.replicate n 0, fcsOk := ok, frags := 0, assemblyErr := false, smdErrs := 0, fecCorrected := 0, fecUncorrected := 0,
    fecSymbols := [] }

/-- FrameEndJudgesTheFrame: a good frame becomes complete, a bad or oversize one leaves its queue (R162, R190, R251). -/
theorem test_frame_end : [after (.rxFrameEnd 0 (fin true 0)) (inHand [136]) (fun t => ((t.queue 136).items.map (·.complete), t.counter (.port 0 .rxFramesOk)))
      == some ([true], 1),
    after (.rxFrameEnd 0 (fin false 0)) (inHand [136]) (fun t => ((t.queue 136).items.length, t.counter (.port 0 .rxFcsErr))) == some (0, 1),
    after (.rxFrameEnd 0 (fin true 1459)) (inHand [136]) (fun t => ((t.queue 136).items.length, t.counter (.port 0 .rxOversize))) == some (0, 1),
    after (.rxFrameEnd 1 (fin true 0)) (inHand []) (fun t => t.counter (.port 1 .rxOctets)) == some 0].all id = true := by decide +kernel

theorem test_runts : let s (n : Nat) : State := { bridge with qos := { rx := [(0, some { id := 4, bytes := eth.take n, queues := [], punts := [], borders := [], stamp := 0, top := 1522 })] } }
    after (.rxFrameEnd 0 (fin true 0)) (s 40) (fun t => t.counter (.port 0 .rxRunt)) = some 1 ∧
    after (.rxFrameEnd 0 (fin false 0)) (s 40) (fun t => t.counter (.port 0 .rxFragment)) = some 1 := by decide +kernel

/-- MaintenanceAndCyclePlan: a learn request is served (R195, R209); a shaper gains its rate (R265). -/
theorem test_maintenance : let r : LearnReq := { mac := 0x020000000002, vlan := 1, port := 0, move := false }
    let s : State := { bridge with fwd := { tables := {}, learnQ := [(0, [r])], planNo := [(0, 1)] } }
    after (.maintenanceSlot 0) s (fun t => ((t.macLookup 0 r.mac 1).map (·.port), tget 0 t.fwd.planNo 0)) = some (some 0, 2) := by decide +kernel

theorem test_cycle_plan : let s : State := { bridge with qos := { shapers := [(136, { enable := true, rate := 1000, burst := 64, credit := 0 })], policers := [(0, { enable := true, cir := 10, cbs := 64, ebs := 64 })] } }
    after .cyclePlanStart s (fun t => ((t.shaper 0 136).credit, (t.policer 0).tc)) = some (1000, 10) := by decide +kernel

/-- A frame on the express queue 2 of port 1. -/
def queued (launch : Option Nat) (late : Bool) (up : Bool := true) : State :=
  { bridge with
    ports := { st := [(1, { linkUp := up, preActive := true })] }
    qos := { queues := [(130, { items := [{ id := 4, bytes := eth, cells := 1, launch := launch }], launchEn := launch.isSome, launchLate := late })]
             stored := [(4, some { cells := 1, holders := 1 })], nextId := 5 } }

/-- EgressSendsTheHighestExpress: its hypotheses, and what is sent (R161, R163, R190, R248). -/
theorem wit_egress : let s := queued none false
    (s.inService && s.portUsable 1 && (s.sched 1).sending.isNone && ((s.eligible 130).map (·.id) == some 4) &&
      ([131, 132, 133, 134, 135].all fun q => (s.eligible q).isNone) && decide (eth.length + 4 ≤ (s.portCfg 1).maxFrame)) = true := by decide +kernel

theorem test_egress : [after (.egressSelect 1 false none) (queued none false) (fun t => (t.qos.sent.map (fun x => (x.1, x.2.length)), t.counter (.port 1 .txFrames)))
      == some ([(1, 64)], 1),
    after (.egressSelect 1 false none) (queued none false false) (fun t => (t.qos.sent.length, t.counter (.port 1 .txLinkDownDrop))) == some (0, 1),
    after (.egressSelect 1 false (some { cell := 0, uncorrectable := true, begun := false })) (queued none false)
      (fun t => (t.qos.sent.length, t.counter (.port 1 .cellEccDrop))) == some (0, 1)].all id = true := by decide +kernel

/-- LaunchQueuesMeetTheirTime: sent at its time on an idle port; late or dropped on one that sends; its hold (R144 to R146, R267). -/
theorem test_launch : let b (s : State) : State := { s with qos := { s.qos with scheds := [(1, { sending := some (128, { id := 9, bytes := eth, cells := 1 }) })] } }
    [after (.launchTimeReached 130) (queued (some 5) false) (fun t => t.qos.sent.length) == some 1,
    after (.launchTimeReached 130) (b (queued (some 5) true)) (fun t => (t.queue 130).items.map fun i => (i.due, i.late)) == some [(true, true)],
    after (.launchTimeReached 130) (b (queued (some 5) false)) (fun t => ((t.queue 130).items.length, t.counter (.queue 130 .lateDrop))) == some (0, 1),
    after (.launchTimeReached 130) (queued (some 5) false false) (fun t => t.counter (.port 1 .txLinkDownDrop)) == some 1,
    after (.launchHoldStart 130) (queued (some 5) false) (fun t => ((t.portSt 1).mmHolds.length, t.counter (.port 1 .mmHold))) == some (1, 1)].all id = true := by
  decide +kernel

/-- LinksAndLanesFollowTheirEvents (R160, R168, R169, R189). -/
theorem test_links : let s : State := { bridge with ports := { st := [(1, { linkUp := true, verifyTries := 3 }), (2, { linkUp := true, verifyTries := 1 })], laneLocked := [(0, true), (1, true)] } }
    [after (.linkUp 0) s (fun t => (t.portSt 0).linkUp) == some true, after (.linkUp 7) s (fun t => (t.portSt 7).linkUp) == some false,
    after (.linkDown 1 4) s (fun t => ((t.portSt 1).linkUp, (t.portSt 1).localFault, t.counter (.port 1 .linkDownEvents))) == some (false, true, 1),
    after (.preemptVerifyTimeout 1) s (fun t => (t.portSt 1).verifyTries) == some 0, after (.preemptVerifyTimeout 2) s (fun t => (t.portSt 2).verifyTries) == some 2,
    after (.preemptVerifyResponse 2) s (fun t => ((t.portSt 2).verifyTries, (t.portSt 2).preActive)) == some (0, true),
    after (.laneLockLost 0) s (fun t => (tget false t.ports.laneLocked 0, t.counter (.lane 0 .lockLoss))) == some (false, 1),
    after (.laneLockAcquired 9) s (fun t => tget false t.ports.laneLocked 9) == some true,
    after (.laneLockAcquired 9) { s with pins := { s.pins with refclkTile := 0xFE } } (fun t => tget false t.ports.laneLocked 9) == some false].all id = true := by
  decide +kernel

/-- OpticsClocksAndSensors (R182, R185, R672, R679, R682). -/
theorem test_optics : [after (.opticsProbe 0 true) wired (fun t => ((t.cageSt 0).present, (t.cageSt 0).ready)) == some (true, true),
    after (.opticsProbe 0 false) { wired with ports := { wired.ports with cages := [(0, { present := true, fault := true })] } } (fun t => ((t.cageSt 0).present, (t.cageSt 0).ready)) == some (false, false),
    after (.opticsFlagPoll 0 [(3, 1)]) { wired with ports := { wired.ports with cages := [(0, { present := true })] } } (fun t => (t.cageSt 0).flags) == some [(3, 1)],
    after (.i2cStretchTimeout 0 []) wired (fun t => tget BusState.untried t.ports.buses 0) == some .recovering,
    after (.i2cStretchTimeout 3 (List.replicate 33 false)) wired (fun t => tget BusState.untried t.ports.buses 3) == some .outOfService,
    (wired.busCages 3).isEmpty, after (.refclkLost 8) wired (fun t => t.pins.refclkRc) == some false,
    after (.refclkLost 0) wired (fun t => (t.pins.refclkTile, (t.portSt 0).linkUp)) == some (0xFE, false)].all id = true := by decide +kernel

/-- A reading of 25 degrees C everywhere, but for the first sensor of the core die. -/
def reading (t : Int) : SensorReading :=
  { core := t :: List.replicate 7 400, rc := List.replicate 8 400, tiles := List.replicate 64 400, reservoir := List.replicate 4 400, watts := 300,
    railMv := List.replicate 10 800 }

/-- 125 degrees C trips, 100 degrees C warns (R679, R682). -/
theorem test_sensors : [after (.sensorRead (reading 2000)) (live .m3) (fun t => (t.pins.thermtrip, t.power.tripSeen)) == some (true, true),
    after (.sensorRead (reading 1600)) (live .m3) (fun t => (t.pins.thermtrip, t.power.warnActive, t.power.warnHit)) == some (false, true, true),
    after (.sensorRead (reading 400)) (live .m3) (fun t => (t.power.warnActive, t.power.tempCore)) == some (false, 400)].all id = true := by decide +kernel

/-! ### Time bases, PTP, the schedule engine and the modem -/

/-- A base 0 whose PTP instance has an offset from its master, in a state with a lock count, on a device in a mode. -/
def clock (m : Mode) (st : BaseState) (theta : Int := 0) (n : Nat := 0) : State :=
  withCfg (fun c => { c with bases := [(0, { source := 1 })], ptp := [(0, { ports := [1] })] })
    { live m with time := { bases := [(0, { t := 2 ^ 50, state := st, lockCount := n, freq := 9, integ := 5, seen := 640 })]
                            ptpPorts := [(1, { role := .slave, offset := theta })] } }

/-- TimeBasesFollowTheirSamples: a first sample is ACQUIRING, the sixteenth within LOCK_NS locks, 401 ns unlocks a base locked to
100 ns, more than STEP_NS steps while the base was never locked; a lost source is HOLDOVER at the integral (R108 to R111). -/
theorem test_samples : [after (.offsetSample 0 .fromMaster) (clock .m3 .free 6553600) (fun t => ((t.base 0).state, (t.base 0).lockCount, (t.base 0).lastTheta))
      == some (.acquiring, 1, 6553600),
    after (.offsetSample 0 .fromMaster) (clock .m3 .acquiring 65536 15) (fun t => ((t.base 0).state, (t.base 0).everLocked)) == some (.locked, true),
    after (.offsetSample 0 .fromMaster) (clock .m3 .locked 26279936) (fun t => (t.base 0).state) == some .acquiring,
    after (.offsetSample 0 .fromMaster) (clock .m3 .free 65536065536) (fun t => ((t.base 0).steps, (t.base 0).t)) == some (1, 2 ^ 50 - 65536065536),
    after (.sourceLost 0) (clock .m3 .locked) (fun t => ((t.base 0).state, (t.base 0).freq)) == some (.holdover, 5),
    after (.sourceLost 0) (clock .m3 .free) (fun t => (t.base 0).state) == some .free].all id = true := by decide +kernel

/-- In a pair the active carries the sample 16 epochs on, and the standby leaves it (R549). -/
theorem test_samples_pair : [after (.offsetSample 0 .fromMaster) (clock .m4 .free 5) (fun t => t.pair.releases.map (·.1)) == some [16],
    after (.offsetSample 0 .fromMaster) (clock .m5 .free 5) (fun t => (t.base 0).lastTheta) == some 0, (clock .m4 .free).leads, (clock .m5 .free).follows,
    (clock .m3 .free).tmcRuns, !(clock .m3 .free).leads, !(clock .m3 .free).follows].all id = true := by decide +kernel

/-- Beyond STEP_NS with no step permitted the servo slews at the limit; FREQ_10M counts cycles of 100 ns since its selection, and shows
the input present again (R110, R111, R131). -/
theorem test_slew : let s := clock .m3 .free 65536065536
    let m (f : BaseCfg) (p : Bool) : State := { withCfg (fun c => { c with bases := [(0, f)] }) s with pins := { s.pins with freq10m := p } }
    [after (.offsetSample 0 .fromMaster) (m { source := 1, stepMode := 1 } true) (fun t => ((t.base 0).freq, (t.base 0).saturated, (t.base 0).steps))
      == some (-500000000 * 65536, true, 0),
    after (.offsetSample 0 (.cycles 4)) (m { source := 3, kp := 0 } false) (fun t => ((t.base 0).lastTheta, t.pins.freq10m)) == some (2 ^ 50 - 4 * 6553600, true),
    after (.offsetSample 0 .fromMaster) (m { source := 3 } true) (fun t => (t.base 0).lastTheta) == some 0].all id = true := by decide +kernel

/-- Base 0 at 7 ns past a second. -/
def ppsLive : State := { live .m3 with time := { bases := [(0, { t := 65536 * 1000000007 })], duration := 5 } }

/-- PPS edges: captured, early within 900 ms, and driven; FREQ_10M lost (R129 to R131). -/
theorem test_pps : let s : State := withCfg (fun c => { c with pps := { outEn := true, outWidthUs := 2 }, bases := [(0, { source := 2 }), (1, { source := 3 })] }) ppsLive
    [after .ppsInEdge s (fun t => ((t.base 0).lastTheta, t.time.ppsInAt)) == some (7 * 65536, some 5),
    after .ppsInEdge { s with time := { s.time with ppsInAt := some 1 } } (fun t => t.counter (.device .ppsInEarly)) == some 1,
    after .ppsOutEdge s (fun t => (t.pins.ppsOut, t.time.ppsHighFor)) == some (true, 3200),
    after .freq10mLost s (fun t => ((t.base 1).sourceLost, (t.base 0).sourceLost)) == some (true, false)].all id = true := by decide +kernel

/-- Instance 2 on port 1, a boundary clock in the default profile or in Peer-to-Peer, with a role; port 0 a radio port. -/
def ptp (role : PtpRole) (profile : Nat) : State :=
  withCfg (fun c => { c with ports := [(0, { mode := 2, site := some 3 })], ptp := [(2, { enable := true, profile := profile, ports := [1] })] })
    { live .m3 with ports := { st := [(0, { linkUp := true }), (1, { linkUp := true })] }, time := { ptpPorts := [(1, { role := role })] } }

/-- A PTPv2 message of a type, sequence 7. -/
def ptpMsg (ty : Nat) : Bytes := by_ ([ty, 2] ++ List.replicate 28 0 ++ [0, 7] ++ List.replicate 32 0)

/-- The latest Delay_Req of port 1 has an answer. -/
theorem test_asked (i : Bytes) (h : fit 8 Config.clockIdentity = i) (hl : i.length = 8) :
    ({ reqSeq := 8 } : PtpPort).asked 1 (by_ ([9, 2] ++ List.replicate 28 0 ++ [0, 7] ++ List.replicate 12 0) ++ i ++ [0, 2]) = true := by
  unfold PtpPort.asked
  rw [h]
  match i, hl with
  | [a, b, c, d, e, f, g, k], _ => simp [by_, slice, beAt, beNat, beBytes, leBytes, List.replicate]

/-- An Announce of another clock is taken: of two that differ in their identity, one at least is (R125). -/
theorem test_announce : announceOk (ptpMsg 0xB) = true ∨
    announceOk (by_ ([0xB, 2] ++ List.replicate 18 0 ++ [1] ++ List.replicate 43 0)) = true := by
  unfold announceOk
  generalize fit 8 Config.clockIdentity = i
  by_cases h : slice (ptpMsg 0xB) 20 8 = i
  · exact .inr (by subst h; decide +kernel)
  · exact .inl (by rw [bne_iff_ne.mpr h]; decide +kernel)

/-- PtpInstancesAnswerTheirPorts: every clause's state (R124 to R127). What the device sends holds its opaque clockIdentity, and
so what a queue that it stands in holds. -/
theorem test_ptp : [after (.ptpMessageRx 2 1 (ptpMsg 0)) (ptp .slave 0) (fun t => ((t.ptpPort 1).syncHeard, (t.ptpPort 1).lastSyncSeq)) == some (true, 7),
    after (.ptpMessageRx 2 1 (ptpMsg 1)) (ptp .master 0) (fun t => t.time.ptpSent.map (·.1)) == some [1],
    after (.ptpMessageRx 2 1 (ptpMsg 2)) (ptp .master 1) (fun t => t.time.ptpSent.map (·.1)) == some [1],
    after (.ptpMessageRx 2 1 (ptpMsg 1)) (ptp .slave 0) (fun t => t.time.ptpSent.length) == some 0,
    after (.ptpMessageRx 1 1 (ptpMsg 0)) (ptp .slave 0) (fun t => (t.ptpPort 1).syncHeard) == some false,
    ((ptp .slave 0).portSite 0).isSome && (ptp .slave 0).tmcRuns && (ptp .slave 0).inService && ((ptp .slave 0).portSt 0).linkUp,
    after (.ptpSyncTx 1) (ptp .master 0) (fun t => t.time.ptpSent.map (·.1)) == some [1, 1],
    after (.ptpMessageRx 2 1 (ptpMsg 8)) (let s := ptp .slave 0; { s with time := { s.time with ptpPorts := [(1, { role := .slave, twoStep := true, lastSyncSeq := 7 })] } })
      (fun t => (t.ptpPort 1).twoStep) == some false,
    after (.ptpSyncTx 5) (ptp .master 0) (fun t => t.time.ptpSent.length) == some 0].all id = true := by decide +kernel

/-- Domain 0 with an active image, on TB0 at an instant in ns; site 3 in service, tuned to the image's channel. -/
def air0 (c : Cell) (ns : Nat) (f : SchedDomain → SchedDomain := id) : State :=
  let s := netDom fun x => f { x with active := some false, bankA := .loaded { image with
    slots := [{ cells := [(0, c)], vects := [{ site := 3, ctx := 0, txBands := 1, comb := 0, dwell := [20000, 0, 0], decPeak := 0 }] }, { cells := [], vects := [] }]
    chsets := [[{ freq := 868100000, phy := 4, band := 0 }]], groups := [{ members := 2, ackMember := 0, sites := [3, 5], alignUs := 100, deadlineUs := 200 }] } }
  { s with
    time := { bases := [(0, { t := ns * 65536 })] }
    radio := { s.radio with sites := [(3, { state := .inService, tuned := [(0, some 868100000)] })] }
    nv := { s.nv with leases := [(0, { epoch := 0, leaseEnd := 65536 })] }
    mesh := { s.mesh with domains := tmod {} s.mesh.domains 0 fun m => { m with bcast := [{ id := 1, mpdu := by_ [1, 2, 3, 4, 5, 6], packet := 1 }] } } }

/-- ScheduleFollowsTheBase: slots, activation, deactivation and loads (R137, R411, R431). -/
theorem test_schedule : [after (.slotBoundary 0) (air0 cell 60000000) (fun t => (t.domain 0).slot) == some 2,
    after (.slotBoundary 0) (air0 cell 60000000 fun x => { x with hold := some 90000000 }) (fun t => (t.counter (.domain 0 .slotsHeld), (t.domain 0).hold))
      == some (2, some 90000000),
    after (.slotBoundary 0) net (fun t => (t.domain 0).slot) == some 0,
    after (.imageActivation 0) (air0 cell 60000000 fun x => { x with active := none, activation := some { at_ := 50000000, bank := false, fn := 0, tag := 1 } })
      (fun t => ((t.domain 0).active, (t.domain 0).slot, t.counter (.domain 0 .activations))) == some (some false, 2, 1),
    after (.imageActivation 0) (air0 cell 40000000 fun x => { x with active := none, activation := some { at_ := 50000000, bank := false, fn := 0, tag := 1 } })
      (fun t => (t.domain 0).active) == some none,
    after (.deactivateDone 0) (air0 cell 60000000 fun x => { x with stopping := [schedDeactivateSpec.req (cmd [0]) (live .m3)], stopSlot := 1 }) (fun t => (t.domain 0).active)
      == some none,
    after (.deactivateDone 0) (air0 cell 60000000 fun x => { x with stopping := [schedDeactivateSpec.req (cmd [0]) (live .m3)], stopSlot := 2 }) (fun t => (t.domain 0).active)
      == some (some false),
    after (.imageLoadDone 0 false []) (netDom fun x => { x with bankB := .loading 0 1 360 }) (fun t => (t.domain 0).bankB) == some .empty,
    after (.imageLoadDone 0 true [1]) (netDom fun x => { x with bankB := .loading 0 1 360 }) (fun t => (t.domain 0).bankB) == some .empty,
    ((air0 cell 0).domain 0).activeImage.isSome,
    (((air0 cell 0).domain 0).imageFor fun _ => 1000000).isSome,
    after (.deactivateDone 0) (air0 cell 60000000 fun x => { x with stopping := [schedDeactivateSpec.req (cmd [0]) (live .m3)], stopSlot := 1 })
      (fun t => (((t.domain 0).imageFor fun _ => 59999999).isSome, ((t.domain 0).imageFor fun _ => 60000000).isSome)) == some (true, false)].all id = true := by decide +kernel

/-- A broadcast cell from 5 ms. -/
def bcastCell : Cell := { cell with type := 3, start := 5000, len := 19000, keyed := 19000 }

/-- TransmitCellsAreCheckedAndSent: what the clause of a broadcast assumes (R414, R416, R423). -/
theorem wit_tx : let s := air0 bcastCell 4600000
    let a := airOf (phyCode 868100000 4) uniform (6 + fcsLen 4)
    let us := keyedUs 0 (burstSamples 0 a)
    (s.inService && bcastCell.tx && s.serves 0 bcastCell && s.canSend 3 0 && decide (5000000 ≤ s.domainNs 0 + 460000 + 100 * 1000) &&
      ((s.issueDue 0 0 0).any fun x => (x.1.hop 0 x.2).isSome && x.1.fitsCell x.2 a) && psduFits 4 (6 + fcsLen 4) && !s.fronthaulTrap 0 3 &&
      decide ((s.domain 0).usedAt 0 9 + us ≤ 19000) && decide ((s.domain 0).usedAt 0 1000 + us ≤ 19000) && !s.needsTune 3 0 868100000 &&
      (s.dwellCheck 3 0 868100000 (s.durationAt 0 (s.toTb0 0 5000000)) us).2) = true := by decide +kernel

/-- The broadcast leaves its queue once, is charged, and not sent under trap 4 or too early. -/
theorem test_tx : [after (.txIssue 0 0 0) (air0 bcastCell 4600000) (fun t => ((t.meshDom 0).bcast.length, (t.domain 0).issued)) == some (0, [(5000000, 0)]),
    after (.txIssue 0 0 0) (air0 bcastCell 4600000 fun x => { x with issued := [(5000000, 0)] }) (fun t => (t.meshDom 0).bcast.length) == some 1,
    after (.txIssue 0 0 0) (air0 bcastCell 4600000 fun x => { x with late := [(3, some 0)] }) (fun t => ((t.meshDom 0).bcast.length, t.counter (.domain 0 .trapFronthaul)))
      == some (1, 1),
    after (.txIssue 0 0 0) (air0 bcastCell 4000000) (fun t => (t.domain 0).issued) == some []].all id = true := by decide +kernel

/-- An acknowledgement for node 16, planned at 5 ms. -/
def ackPlan : AckPlan :=
  { id := 0, cell := 0, handle := 16, site := 3, band := 0, freq := 868100000, phy := 4, power := 0, startNs := 5000000, endNs := 7000000, seqNo := 1 }

def acking (ns : Nat) (f : SchedDomain → SchedDomain := id) : State :=
  air0 { cell with ackReq := true, len := 19000, keyed := 19000 } ns fun x => f { x with acks := [ackPlan] }

theorem wit_ack : let s := acking 4600000
    (((s.buildAck 0 meshCfg ackPlan).2).isSome && s.canSend 3 0 && s.inService && decide ((s.plan 3 0).channel 868100000 ≤ 256) && !s.needsTune 3 0 868100000 &&
      ((s.domain 0).activeImage.any fun i => !(s.domain 0).passed (s.domainNs 0) i ackPlan) &&
      (s.dwellCheck 3 0 868100000 (s.durationAt 0 5000000) (keyedUs 0 (burstSamples 0 2000000))).2 &&
      decide (keyedUs 0 (burstSamples 0 2000000) ≤ 19000)) = true := by decide +kernel

theorem test_ack : [after (.ackIssue 0 0) (acking 4600000) (fun t => (t.domain 0).acks.map (·.issued)) == some [true],
    after (.ackIssue 0 0) (acking 4600000 fun x => { x with late := [(3, some 0)] }) (fun t => (t.counter (.domain 0 .ackSent), t.counter (.domain 0 .trapFronthaul)))
      == some (0, 1),
    after (.ackIssue 0 0) (acking 5000001) (fun t => (t.counter (.domain 0 .ackSent))) == some 0,
    after (.ackIssue 0 0) (acking 4000000) (fun t => (t.domain 0).acks.map (·.issued)) == some [false]].all id = true := by decide +kernel

/-- A detection at 1 ms in the window of the cell. -/
def detect : Detect :=
  { domain := 0, cell := 0, entry := 0, instantNs := 1000000, corr := 50, antenna := 0, gainPeriods := [], rssi := -90, snrQdb := 40, power := [] }

def rxCell (n : Nat) : Cell := { cell with ctx := n, len := 20000 }

/-- A transmission of one copy, with its header's soft values, at PHY code 4 (LOFDM) or 2. -/
def recv (phy : Nat) : Recv :=
  { id := 0, domain := 0, cell := 0, rec_ := rxCell 1, slot := 0, windowEnd := 20000000, entry := { freq := 868100000, phy := phy, band := 0 }, alignUs := 0,
    deadlineUs := none, copies := [{ site := 3, instant := 1000000, corr := 50, headerEnd := 1400000, headerAt := some 0, header := (hdrCoded (hdrWord 0 10 768 0 1 1)).map fun b => if b then -100 else 100 }] }

/-- The header of 10 octets at rate 0 with uniform loading is decided: one codeword of 768 bits, which waits. -/
def decoding (phy : Nat) (q : List (Nat × Nat × List Int)) : Recv :=
  { recv phy with header := some 0, members := [3], len := 10, n := 768, rate := 0, ncw := 1, ends := [3000000], frameEnd := 3000000, queued := q }

/-- Its context has delivered its values. -/
def delivered (q : List (Nat × Nat × List Int)) : Recv :=
  { decoding 2 q with copies := (recv 4).copies.map fun c => { c with held := false, delivered := [0] } }

/-- Seventeen codewords for sixteen cores: the last one waits. -/
def waitingCores : Recv := { decoding 4 ((List.range 17).map fun k => (16 - k, 0, [])) with ncw := 17 }

/-- The domain with a transmission in reception. -/
def receiving (r : List Recv) (n : Nat := 1) : State := let s := air0 (rxCell n) 1000000
  { s with radio := { s.radio with recvs := r, recvIds := r.length } }

/-- ReceptionRunsToItsFrame: detections that open a context or overflow; soft values; headers; codewords (R339 to R374). -/
theorem test_detection : [after (.detection 3 detect) (receiving []) (fun t => (t.radio.recvs.map fun r => r.copies.length, t.counter (.site 3 .detections))) == some ([1], 1),
    after (.detection 3 detect) (receiving [] 0) (fun t => (t.radio.recvs.length, t.counter (.site 3 .ctxOverflow))) == some (0, 1),
    after (.detection 4 detect) (receiving []) (fun t => t.radio.recvs.length) == some 0,
    after (.softValuesDelivered 0 3 0 [(0, 9), (1, 8), (2, 128)] { values := [] }) (receiving [recv 4]) (fun t => t.counter (.site 3 .symbolsErased)) == some 2,
    after (.softValuesDelivered 0 3 1 [] { values := [5, -5] }) (receiving [decoding 4 []]) (fun t => (t.radio.recvs.map fun r => r.copies.map fun c => tget [] c.soft 0)) == some [[[5, -5]]]].all id
      = true := by decide +kernel

/-- A header that comes after its due instant is discarded; one with no context left to deliver goes with its frame (R340, R374). -/
theorem test_late : let r : Recv := { recv 4 with deadlineUs := some 20, resolved := [(1400000, 0)], copies := [{ site := 3, instant := 1000000, corr := 50, headerEnd := 1400000 }] }
    let s (r : Recv) : State := { receiving [r] with time := { duration := 32001 } }
    [after (.softValuesDelivered 0 3 0 [] { values := [] }) (s r) (fun t => (t.counter (.site 3 .combLate), t.radio.recvs.map fun r => r.copies.map (·.headerAt))) == some (1, [[none]]),
    after (.headerDecision 0 (.phr 5 true)) (s r) (fun t => t.radio.recvs.map (·.finished)) == some [true],
    after (.softValuesDelivered 0 3 0 [] { values := [] }) (s { r with finished := true }) (fun t => t.radio.recvs.length) == some 0].all id
      = true := by decide +kernel

/-- The header that its soft values give is decided; one whose check fails goes (R350, R372). -/
theorem test_header : (after (.headerDecision 0 .lofdm) (receiving [recv 4]) fun t => t.radio.recvs.map fun r => (r.len, r.ncw, r.members)) =
    some [(10, 1, [3])] := by decide +kernel

/-- The same with bit 0 of the header turned. -/
def badHeader : Recv :=
  { recv 4 with copies := (recv 4).copies.map fun c => { c with header := (hdrCoded (hdrWord 0 10 768 0 1 1 + 1)).map fun b => if b then -1 else 1 } }

theorem test_bad_header : (after (.headerDecision 0 .lofdm) (receiving [badHeader]) fun t => (t.radio.recvs.length, t.counter (.site 3 .hdrFail))) =
    some (0, 1) := by decide +kernel

theorem test_codeword : [after (.codewordReady 0 0) (receiving [{ decoding 2 [] with copies := [{ site := 3, instant := 1000000, corr := 50, headerEnd := 1400000, soft := [(0, [1])], delivered := [0] }] }])
      (fun t => t.radio.recvs.map (·.queued)) == some [[(0, 0, [1])]],
    after (.decodeDone 0 0 (List.replicate 80 false) 3 200) (receiving [delivered [(0, 0, [5])]]) (fun t => (t.radio.recvs.length, t.radio.decoded.map fun a => (a.site.val, a.psdu.length)))
      == some (0, [(3, 10)]),
    (receiving [delivered [(0, 0, [5])]]).begun (delivered [(0, 0, [5])]) 0,
    after (.decodeAbandon 0 16) { receiving [waitingCores] with time := { duration := 160000 } } (fun t => (t.radio.recvs.all (·.finished), t.counter (.device .decOverrun)))
      == some (true, 1)].all id = true := by decide +kernel

/-- A LOFDM codeword whose values all favour 0, its shortened bits among them. -/
def zeros : Recv := { delivered [(0, 0, List.replicate 464 9)] with entry := { freq := 868100000, phy := 4, band := 0 } }

/-- It has a core, and its decode succeeds after one iteration whatever the opaque constants of the decoder are. That a decode fails
after 24 iterations hangs on those constants and has no closed witness. -/
theorem wit_lofdm_decode : (receiving [zeros]).begun zeros 0 = true ∧ (zeros.decode 0 (List.replicate 464 9)).2 = (1, true) := by
  have h : ∀ i, i < 24 * (zeros.n / 24) → 0 < (zeros.filled 0 (List.replicate 464 9)).getD i 0 := by
    have h : ((List.range (24 * (zeros.n / 24))).all fun i => decide (0 < (zeros.filled 0 (List.replicate 464 9)).getD i 0)) = true := by
      decide +kernel
    simpa only [List.all_eq_true, List.mem_range, decide_eq_true_eq] using h
  exact ⟨by decide +kernel, (minSum_of_pos zeros.rate (zeros.n / 24) _ h).1⟩

/-- A group's cell: the first copy makes a transmission with the group's deadline, a second site joins it, and a copy that comes after
the header's decision is no member (R371, R372, R375). -/
theorem test_combine : let c : Cell := { rxCell 1 with grouped := true, ctx := 2 }
    let s := air0 c 1000000
    let decided : State := { s with radio := { s.radio with recvs := [{ recv 4 with rec_ := { c with site := 5 }, header := some 0, members := [5], deadlineUs := some 200, copies := [{ site := 5, instant := 1000000, corr := 40, headerEnd := 1400000 }] }], recvIds := 1 } }
    let s : State := { s with radio := { s.radio with recvs := [{ recv 4 with rec_ := { c with site := 5 }, alignUs := 100, copies := [{ site := 5, instant := 1000000, corr := 40, headerEnd := 1400000 }] }], recvIds := 1 } }
    [s.combines, after (.detection 3 detect) (air0 c 1000000) (fun t => t.radio.recvs.map fun r => (r.sites, r.deadlineUs)) == some [([3, 5], some 200)],
      after (.detection 3 detect) s (fun t => t.radio.recvs.map fun r => (r.id, (r.copies.map (·.site)).length)) == some [(0, 2)],
      after (.detection 3 detect) decided (fun t => t.radio.recvs.map fun r => (r.members, r.copies.length)) == some [([5], 2)]].all id = true := by decide +kernel

/-- A RoE data frame of flow 1 with two samples, ORDERINFO at second 1 sample 100. -/
def roe : Bytes := by_ ([2, 0, 0, 0, 0, 1, 2, 0, 0, 0, 0, 2, 0xFC, 0x3D, 0x10, 1, 0, 6]) ++ beBytes 4 (2 ^ 27 + 100) ++ List.replicate 38 0

theorem wit_roe : (bridge.portSite 0).isNone = true ∧ beAt roe 12 2 = 0xFC3D ∧ byteAt roe 15 = 1 := by decide +kernel

/-- R348, R351 to R353: the first values of P2, the second and last points of the scales, a pilot, and the tones of P1. -/
theorem test_lofdm_symbols : ((p2Values.take 12 == [1, 1, 1, 1, 1, -1, -1, -1, -1, 1, -1, -1]) &&
    constellation [false, true] == .point (-1) 1 2 && constellation [true, false, false, true] == .point 3 (-1) 10 &&
    constellation [true, false, false, false, true, false] == .point 7 (-1) 42 && constellation [] == .zero &&
    pilotAt 0 7 == p2At 7 && (p1Symbol.filter (· != .zero)).length == 12 && p1Symbol[16]? == some (.chirp 0) &&
    (p2Symbol.filter (· != .zero)).length == 104) = true := by decide +kernel

/-- R345: a detection starts the equaliser of its PHY; pilots as sent turn nothing. -/
theorem test_equaliser : (startEqualiser 4 == .carriers [] [] && startEqualiser 2 == .carriers [] [] && (dfeShape 3 == some (12, 6)) &&
    ((Equaliser.carriers [] []).run 4 (.carriers (p2Values.map fun v => (3 * v, 0)) [pilotCarriers.map fun k => (3 * pilotAt 0 k, 0)]) ==
      .carriers (List.replicate 104 (3, 0)) [(72, 0)])) = true := by decide +kernel

/-- R311: the floor sees the samples scaled against a gain of 35 dB, from its ACT on. -/
theorem test_scale : let x : Site := ({ state := .inService } : Site).noteGain 4 0 100 70
    ((x.scale 4 99, x.scale 4 100) == (0, -10) && x.gains.getD 4 0 == 70) = true := by decide +kernel

/-- A uplink stream gains the frame, or finds it more than 1 ms late (R295, R297). -/
theorem test_roe : let s (w : Option Nat) : State := { withCfg (fun c => { c with ports := [(0, { mode := 2, site := some 3 })] }) bridge with
      radio := { sites := [(3, { streams := [(1, { newest := w })] })] }, time := { bases := [(0, { t := 65536 * 1000000000 })] } }
    [after (.roeUplinkFrame 0 roe 77) (s none) (fun t => ((tget {} (t.site 3).streams 1 : UlStream).stamps.map (·.2.2), t.counter (.site 3 .ulFrames))) == some ([77], 1),
    after (.roeUplinkFrame 0 roe 77) (s (some (2 ^ 40))) (fun t => ((tget {} (t.site 3).streams 1 : UlStream).stamps.length, t.counter (.site 3 .ulLatePkt))) == some (0, 1)].all id = true := by
  decide +kernel
/-! ### Sites -/

/-- Site 3 behind port 0, its lane up, with its tuner on. -/
def atSite (x : Site) (f : Tab Tuner := []) : State :=
  withCfg (fun c => { c with ports := [(0, { mode := 2, site := some 3 })], sites := [(3, { tunerEn := true })] })
    { live .m3 with ports := { st := [(0, { linkUp := true })] }, radio := { sites := [(3, { x with tuners := f })], pruImages := [(7, 1, by_ [1])] },
                    time := { duration := 16000000000 } }

/-- A word of a PRU, for no band, that asks for no ACK (R301). -/
def dcw (op : Nat) (body : List Nat) : Bytes := dcwWord op 3 none false 0 (by_ body)

def hello : Bytes := dcw 0x80 ([7, 0, 1] ++ List.replicate 13 0)

/-- A DCW word that waits for its ACK. -/
def word (n sends : Nat) : DcwWait := { wseq := n, word := by_ (List.replicate 8 0), sends := sends }

/-- SitesFollowTheirPrus: the states of the front end's clauses (R298, R310, R314, R315). -/
theorem wit_sites : ((atSite { state := .inService }).siteRuns 3, (atSite {}).siteRuns 9, gainStep 60 100 0 (-70000), gainStep 60 100 0 (-60000),
    gainStep 60 100 1 0, bit ((atSite {}).siteCfg 3).gainFixed (antennaBand 0), ((atSite {}).siteCfg 3).rlTarget) = (true, false, 62, 60, 48, false, 56) := by
  decide +kernel

theorem test_front_end : [after (.echoSend 3) (atSite { state := .inService }) (fun t => ((t.site 3).echoToken, (t.site 3).wseq.toNat)) == some (1, 1),
    after (.gainDecision 3 0 100 0 (-70000)) (atSite { state := .inService }) (fun t => ((t.site 3).gains, (t.site 3).waiting.map fun w => wordOp w.word)) ==
      some ([62, 60, 60, 60, 60], [0x11]),
    after (.gainDecision 3 0 100 0 (-70000)) (atSite {}) (fun t => (t.site 3).gains.length) == some 5,
    after (.floorPeriod 3 2 [(1, -400), (1, -410), (8, -500)]) (atSite { state := .inService }) (fun t => (tget {} (t.site 3).floors 2 : Floor).running) == some [(1, some (-410))],
    after (.floorWindowEnd 3 2) (atSite { state := .inService, floors := [(2, { running := [(1, some (-410))], previous := [(1, some (-420))] })] })
      (fun t => (tget {} (t.site 3).floors 2 : Floor).floors) == some [(1, some (-412))],
    after (.tunerStepIssue 3 0) (atSite { state := .inService } [(0, { rl := some 40 })]) (fun t => (t.counter (.site 3 .tunerSteps), (t.site 3).waiting.map fun w => wordOp w.word))
      == some (1, [0x30]),
    after (.tunerStepIssue 3 0) (atSite { state := .inService } [(0, { rl := some 56 })]) (fun t => t.counter (.site 3 .tunerSteps)) == some 0,
    after (.tunerStepIssue 3 0) (atSite { state := .inService } [(0, { rl := some 40, stepAt := some 1 })]) (fun t => t.counter (.site 3 .tunerSteps)) == some 0,
    after (.linkHoldExpiry 3) (atSite { held := true }) (fun t => (t.site 3).held) == some false].all id = true := by decide +kernel

/-- A failed lane is replaced by lane 96; with every spare bad the site is in FAULT (R289). -/
theorem test_lanes : let full := { atSite { state := .inService } with radio := { (atSite { state := .inService }).radio with badLanes := [96, 97, 98, 99, 100, 101, 102, 103] } }
    [after (.basebandLaneFault 3) (atSite { state := .inService }) (fun t => ((t.site 3).state, (t.site 3).held, (t.portSt 0).linkUp)) == some (.down, true, false),
    after (.basebandLaneFault 100) (atSite { state := .inService }) (fun t => (t.site 3).state) == some .inService,
    after (.basebandLaneRetestDone 3 false) (atSite { state := .down }) (fun t => (t.laneOf 3, t.radio.badLanes)) == some (some 96, [3]),
    after (.basebandLaneRetestDone 3 false) full (fun t => (t.laneOf 3, (t.site 3).state)) == some (none, .fault)].all id = true := by decide +kernel

/-- HELLO, READY, ACK and the reports (R303, R314, R323 to R326). -/
theorem test_pru : [after (.dcwHello 3 hello 5) (atSite { state := .loading, step := 1 }) (fun t => ((t.site 3).model, (t.site 3).mac, (t.site 3).state)) == some (7, 5, .loading),
    after (.dcwHello 3 (dcw 0x80 ([8, 0, 1] ++ List.replicate 13 0)) 5) (atSite { state := .loading, step := 1 }) (fun t => (t.site 3).state) == some .fault,
    after (.dcwHello 3 hello 5) (atSite { state := .inService, step := 5 }) (fun t => ((t.site 3).state, (t.site 3).step)) == some (.inService, 5),
    after (.dcwReady 3 (dcw 0x81 [9, 0, 0, 0])) (atSite { state := .loading, step := 3 }) (fun t => ((t.site 3).state, (t.site 3).imageVer, (t.site 3).waiting.length)) == some (.syncing, 9, 7),
    after (.dcwAck 3 (dcw 0x82 [4, 0, 2, 0])) (atSite { waiting := [word 4 1] }) (fun t => ((t.site 3).waiting.length, t.counter (.site 3 .txRangeRefused))) == some (0, 1),
    after (.dcwAck 3 (dcw 0x82 [5, 0, 2, 0])) (atSite { waiting := [word 4 1] }) (fun t => (t.site 3).waiting.length) == some 1,
    after (.dcwTunerReport 3 0 (dcwWord 0x83 0 none false 0 (by_ [8, 0, 0, 0, 0, 0, 0, 0]))) (atSite { state := .inService } [(0, { low := 2 })])
      (fun t => ((tget {} (t.site 3).tuners 0 : Tuner).rl, (tget {} (t.site 3).tuners 0 : Tuner).alarm)) == some (some 8, true),
    after (.dcwStatus 3 (dcw 0x84 (1 :: List.replicate 19 0))) (atSite { state := .syncing, step := 4 }) (fun t => ((t.site 3).state, (t.site 3).loads)) == some (.inService, 1),
    after (.dcwStatus 3 (dcw 0x84 (0 :: List.replicate 19 0))) (atSite { state := .inService, step := 5 }) (fun t => ((t.site 3).state, (t.site 3).reason)) == some (.syncing, 5),
    after (.dcwEchoReply 3 (dcw 0x85 [1, 0, 0, 0, 0, 0, 0, 0]) 0 600000) (atSite { state := .inService, echo := some (1, 0) }) (fun t => ((t.site 3).delayNs, (t.site 3).reason)) == some (300000, 8),
    after (.dcwEchoReply 3 (dcw 0x85 [1, 0, 0, 0, 0, 0, 0, 0]) 0 500000) (atSite { state := .inService, echo := some (1, 0) }) (fun t => ((t.site 3).delayNs, (t.site 3).state))
      == some (250000, .inService),
    after (.dcwEchoReply 3 (dcw 0x85 [2, 0, 0, 0, 0, 0, 0, 0]) 0 500000) (atSite { state := .inService, echo := some (1, 0) }) (fun t => (t.site 3).delayNs) == some 0].all id = true := by
  decide +kernel

/-- PRU_ALARM and the timers: four sends in all, three failures to FAULT (R303, R323, R326). -/
theorem test_pru_timers : [after (.dcwPruAlarm 3 (dcw 0x86 [6, 0, 0, 0])) (atSite { state := .loading, step := 3 }) (fun t => (t.site 3).failures) == some 1,
    after (.dcwPruAlarm 3 (dcw 0x86 [2, 0, 0, 0])) (atSite { state := .inService }) (fun t => t.counter (.site 3 .txRangeRefused)) == some 1,
    after (.dcwRetryTimeout 3 4) (atSite { state := .inService, waiting := [word 4 3] }) (fun t => ((t.site 3).waiting.map (·.sends), t.counter (.site 3 .dcwRetries))) == some ([4], 1),
    after (.dcwRetryTimeout 3 4) (atSite { state := .inService, waiting := [word 4 4] }) (fun t => ((t.site 3).state, (t.site 3).reason)) == some (.down, 3),
    after (.dcwRetryTimeout 3 4) (atSite { state := .loading, failures := 2, waiting := [word 4 4] }) (fun t => (t.site 3).state) == some .fault,
    after (.pruLoadTimeout 3 0) (atSite { state := .loading, step := 1 }) (fun t => (t.site 3).failures) == some 1,
    after (.pruLoadTimeout 3 0) (atSite { state := .loading, step := 2 }) (fun t => (t.site 3).failures) == some 0,
    after (.statusTimeout 3) (atSite { state := .inService }) (fun t => (t.site 3).reason) == some 4,
    after (.statusTimeout 3) (atSite { state := .down }) (fun t => (t.site 3).reason) == some 0].all id = true := by decide +kernel
/-! ### The mesh and the MRAM -/

/-- A data frame (type 1) or acknowledgement (2) of node 5 to the device, secured at level 6 with key index `ki`. -/
def secured (ty ki counter : Nat) : Bytes :=
  leBytes 2 (59464 + ty) ++ by_ [9] ++ leBytes 2 0x1234 ++ leBytes 2 deviceShort ++ leBytes 8 5 ++ by_ [14] ++ leBytes 4 counter ++ by_ [ki] ++ List.replicate 12 0

/-- A frame from the air with a right FCS, at cell 0 of slot 0. -/
def heard (m : Bytes) : AirFrame := air (psduOf 0 m) 200

/-- Node 5 with counter 7 in an active cell that receives. -/
def meshed (f : NodeRec → NodeRec := id) (type : Nat := 0) : State :=
  let s := air0 { rxCell 1 with type := type } 1000000
  { s with mesh := { s.mesh with nodes := [(16, some (f { node5 with rxCounter := 7 }))] } }

/-- MeshAndCommitsTakeTheirEvents: what a secured frame needs (R453, R455). The clauses on a frame that opens, and on one that
does not, hang on the opaque ccmOpen. -/
theorem wit_secured : (let s := meshed
    [s.inService, (mpduOf (heard (secured 1 1 8))).isSome, ((parseMac (secured 1 1 8)).map fun f => (f.secured6 1 0x1234, f.counter, f.keyIndex)) == some (true, 8, 1),
     ((parseMac (secured 1 1 8)).bind (s.sourceOf 0)) == some 16, (s.nodeKey 0 5).2.isSome, s.keyIndex 0 == 1,
     ((s.domain 0).imageFor fun j => 0 * j.slotNs).any fun i => (i.cellIn 0 0).any fun c => c.rx && c.type != 4 && c.node == 16,
     (mpduOf (air [] 0)).isNone]).all id = true := by decide +kernel

theorem test_secured : [after (.securedFrameRx (heard (secured 1 2 8))) meshed (fun t => t.counter (.domain 0 .rxBadIndex)) == some 1,
    after (.securedFrameRx (heard (secured 1 1 7))) meshed (fun t => (t.node 16).map fun n => (n.replay, n.rxCounter)) == some (some (1, 7)),
    after (.securedFrameRx { heard (secured 1 1 7) with site := 1 }) (meshed fun n => { n with lastRx := some (0, 0, 9, psduOf 0 (secured 1 1 7)) })
      (fun t => (t.counter (.domain 0 .rxDup), (t.node 16).map (·.replay))) == some (0, some 1),
    after (.securedFrameRx { heard (secured 1 1 7) with endNs := 1, site := 1 }) (meshed fun n => { n with lastRx := some (0, 0, 9, psduOf 0 (secured 1 1 7)) })
      (fun t => (t.counter (.domain 0 .rxDup), (t.node 16).map (·.replay))) == some (1, some 0),
    after (.securedFrameRx { heard (secured 1 1 8) with psdu := [1, 2, 3] }) meshed (fun t => t.mesh.nodes == meshed.mesh.nodes) == some true].all id = true := by
  decide +kernel

/-- A frame of packet 1 that has had so many attempts, on air to node 16. -/
def watching (attempts : Nat) (closes : Nat := 1000) : State :=
  let s := meshed fun n => { n with queue := [{ id := 4, mpdu := by_ [1], packet := 1, attempts := attempts }] }
  { s with mesh := { s.mesh with awaits := [{ domain := 0, handle := 16, frame := 4, cell := 0, site := 3, band := 0, freq := 868100000, phy := 0, opens := 0, closes := closes }] } }

/-- Watches (R420, R463): the retry limit is 3; what an acknowledgement that opens does hangs on the opaque ccmOpen. -/
theorem test_watch : [after (.downlinkAckRx 16 none) (watching 1) (fun t => ((t.node 16).map fun n => n.queue.length, t.mesh.awaits.length)) == some (some 1, 0),
    after (.downlinkAckRx 16 none) (watching 4) (fun t => ((t.node 16).map fun n => n.queue.length, t.mesh.awaits.length)) == some (some 0, 0),
    after (.downlinkAckRx 16 none) (watching 4 9000000) (fun t => t.mesh.awaits.length) == some 1,
    after (.downlinkAckRx 17 none) (watching 4) (fun t => t.mesh.awaits.length) == some 1,
    ((parseMac (secured 2 1 8)).map fun f => f.secured6 2 0x1234) == some true].all id = true := by decide +kernel

/-- A join request of node 6 (R446): its IE holds the point and a MIC. -/
def joinMpdu (body : Bytes) : Bytes :=
  leBytes 2 (59464 - 8 + 512 + 1) ++ by_ [9] ++ leBytes 2 0x1234 ++ leBytes 2 deviceShort ++ leBytes 8 6 ++ headerEnd1 ++ vendorIe 0x06 body

/-- A domain open to joins. -/
def joining (f : DomainCfg → DomainCfg := id) : State :=
  let s := meshed id 4
  { s with mesh := { s.mesh with domains := [(0, { cfg := some (f meshCfg) })] } }

/-- Joins (R446 to R450). What follows the MIC hangs on the opaque CMAC, and how many
requests are held on the opaque holdingMax. -/
theorem wit_join : (let s := joining
    let pt := beBytes 32 0x6B17D1F2E12C4247F8BCE6E563A440F277037D812DEB33A0F4A13945D898C296 ++ beBytes 32 0x4FE342E2FE1A7F9B8EE7EB4A7C0F9E162BCE33576B315ECECBB6406837BF51F5
    let m := joinMpdu (List.replicate 18 0 ++ pt ++ List.replicate 8 0)
    [s.cellType (heard m) == 4, (s.inProcess 0).isEmpty, ((parseMac m).bind fun f => joinIe f 0x1234).any fun x => x.1 == 6 && slice x.2 22 64 == pt, (s.useSlot 16).2.isNone,
      (State.useSlot { s with nv := { s.nv with keys := { s.nv.keys with slots := s.nv.keys.slots ++ [(16, { kind := 3, owner := 0, parent := 0, gen := 1, parentGen := 1 })] } } } 16).2.isSome,
      (s.useSlot 32).2.isSome, s.chooseHandle 0 6 none == some 17, s.chooseHandle 0 6 (some 40) == some 40, s.chooseHandle 0 5 none == some 16,
      p256.pointReason pt == 0, p256.pointReason (List.replicate 64 0) != 0, !s.leads && !s.follows]).all id = true := by decide +kernel

theorem test_join : [after (.joinRequest (heard (secured 1 1 8))) joining (fun t => t.counter (.domain 0 .joinMalformed)) == some 1,
    after (.joinRequest (heard (secured 1 1 8))) (joining fun c => { c with joinOpen := false }) (fun t => t.counter (.domain 0 .joinClosed)) == some 1,
    after (.joinRequest (heard (secured 1 1 8))) { joining with mesh := {} } (fun t => t.counter (.domain 0 .joinClosed)) == some 1].all id = true := by
  decide +kernel

/-- An IPv6 packet of 40 octets to the node of a short address in fd00::/64. -/
def packetTo (short : Nat) : Bytes := by_ ([0x60, 0, 0, 0, 0, 0, 59, 64] ++ List.replicate 16 0 ++ [0xFD, 0, 0, 0, 0, 0, 0, 0, 0, 0, 0, 0xFF, 0xFE, 0]) ++ beBytes 2 short

/-- Packets down (R460) and the timers of the mesh. -/
theorem wit_packet : (let s := meshed
    [s.isJoined 16, (shortOf meshCfg.pfx (slice (packetTo 0) 24 16)).isSome, byteAt (packetTo 0) 0 / 16 == 6, (s.planUnicast 0 16 meshCfg (packetTo 0)).2.isNone,
     (State.planUnicast { s with mesh := { s.mesh with nodes := [(16, some { node5 with links := [{ site := 3 }] })] } } 0 16 meshCfg (packetTo 0)).2.isSome]).all id = true := by decide +kernel

theorem test_packet : [after (.borderPacket 0 (by_ [0x40])) meshed (fun t => t.counter (.domain 0 .borderDrop)) == some 1,
    after (.borderPacket 0 (packetTo 0x3FFF)) meshed (fun t => t.counter (.domain 0 .noNodeDrop)) == some 1,
    after (.borderPacket 1 (packetTo 0)) meshed (fun t => t.counter (.domain 1 .borderDrop)) == some 1].all id = true := by decide +kernel

def dist0 (ns : Nat) : Dist :=
  { fn := 0, tag := 0, id := 1, slot := 1, image := [], blockSize := 64, maxIndex := 0, target := 0, endNs := ns, targets := [] }

def send0 (ns : Nat) : SendCmd := { fn := 1, tag := 2, handle := 16, cmdId := 0, deadline := ns, frames := 1 }

/-- 100 s on TB0, 200 s on the duration counter. -/
def later (f : NodeRec → NodeRec := id) : State := { meshed f with time := { bases := [(0, { t := 100 * 1000000000 * 65536 })], duration := 200 * 1600000000 } }

theorem test_mesh_timers : [after (.joinTimeout 16) (later fun n => { n with state := 1, joinSent := some 1 }) (fun t => ((t.node 16).isNone, t.counter (.domain 0 .joinTimeout)))
      == some (true, 1),
    after (.joinTimeout 16) (later fun n => { n with state := 1, joinSent := some (90 * 1000000000) }) (fun t => (t.node 16).isSome) == some true,
    after (.joinTimeout 16) later (fun t => (t.node 16).isSome) == some true,
    after (.nodeStoreScrub 16 true) later (fun t => (t.node 16).isNone) == some true,
    after (.nodeStoreScrub 16 false) later (fun t => (t.node 16).isSome) == some true,
    after (.reasmTimeout 16 9) { later with mesh := { (later).mesh with reasm := [(reasmKey 16 9, some { size := 100, since := 1, pieces := [] })] } }
      (fun t => ((tget none t.mesh.reasm (reasmKey 16 9)).isNone, t.counter (.domain 0 .reasmDrop))) == some (true, 1),
    after (.reasmTimeout 16 9) { later with mesh := { (later).mesh with reasm := [(reasmKey 16 9, some { size := 100, since := 190 * 1600000000 + 1, pieces := [] })] } }
      (fun t => t.counter (.domain 0 .reasmDrop)) == some 0,
    after (.nodeSendDeadline 1 2) { later with mesh := { (later).mesh with sends := [send0 (100 * 1000000000)] } }
      (fun t => t.mesh.sends.length) == some 0,
    after (.nodeSendDeadline 1 2) { later with mesh := { (later).mesh with sends := [send0 (100 * 1000000000 + 1)] } }
      (fun t => t.mesh.sends.length) == some 1,
    after (.distEnd 0) { later with mesh := { (later).mesh with domains := [(0, { cfg := some meshCfg, dist := some (dist0 (100 * 1000000000)) })] } } (fun t => (t.meshDom 0).dist.isNone) == some true].all id = true := by decide +kernel

/-- Commits: a journal record, one that finds the journal full, a lease, and the fold into a blob (R510, R512, R513). -/
theorem test_commits : let s (x : Nvm) : State := { meshed with nv := x }
    [after .mramCommitDone (s { staged := [.journal {} none] }) (fun t => (t.nv.staged.length, t.nv.journalUsed, t.counter (.device .journalRecords))) == some (0, 1, 1),
    after .mramCommitDone (s { staged := [.journal {} none], journalUsed := journalSize }) (fun t => t.nv.staged.length) == some 1,
    after .mramCommitDone (s { staged := [.lease [(0, { epoch := 3, leaseEnd := 9 })]] }) (fun t => (t.lease 0).epoch) == some 3,
    after .mramCommitDone { s { staged := [.lease [(0, { epoch := 3, leaseEnd := 9 })]] } with mesh := { domains := [(0, { nextEpoch := some 3, outCounter := 5 })] } }
      (fun t => ((t.meshDom 0).nextEpoch, (t.meshDom 0).outCounter)) == some (none, 0),
    after .journalCompaction (s { journalUsed := journalSize, blob := some { seq := 4, version := 5, cfg := {} } }) (fun t => (t.nv.blob.map (·.seq), t.nv.journalUsed)) == some (some 5, 0),
    after .journalCompaction (s { journalUsed := 3 }) (fun t => t.nv.journalUsed) == some 3].all id = true := by decide +kernel
/-! ### The pair -/

/-- A synchronised standby, or one at a phase, with the pair formed. -/
def standby (f : Pair → Pair := id) : State :=
  let s := live .m5
  { s with ms := { s.ms with synced := true }, pins := { activeIn := true, pairId := true },
           pair := f { linkUp := true, formed := true, helloRx := true, phase := 6, peerMode := 4 } }

/-- The active device of a formed pair. -/
def pairLead (f : Pair → Pair := id) : State := { active with pair := f { active.pair with helloRx := true } }

/-- HELLO of an active of stepping B, release 1.0, PAIR_ID 0; the device runs a release that accepts 1.0. -/
def greeting (rev : Nat) : Bytes := fit 40 (by_ [0, 4, stepping, 1, rev, 0, 5, 0])

def runs10 (s : State) : State := { s with ms := { s.ms with running := some { imageSet with partners := [256] } } }

/-- PairLinkCarriesItsMessages: the link (R539, R573). -/
theorem test_pair_link : [after .pairLinkUp (live .m3) (fun t => (t.pair.linkUp, t.pair.sent.length)) == some (true, 1),
    after .pairLinkUp (standby) (fun t => t.pair.sent.length) == some 0,
    after .pairLinkTimeout pairLead (fun t => (t.ms.mode, t.pair.partnerLost, t.pair.linkUp)) == some (.m3, true, false),
    after .pairLinkTimeout (standby) (fun t => (t.ms.mode, t.ms.synced, t.pair.phase, t.pair.resumeAt)) == some (.m5, false, 0, 3),
    after .pairLinkTimeout (standby ({ · with phase := 2 })) (fun t => (t.pair.phase, t.pair.resumeAt)) == some (0, 2),
    after .pairLinkTimeout { live .m3 with pair := { linkUp := true } } (fun t => (t.ms.mode, t.pair.linkUp)) == some (.m3, false),
    after .pairCellResend (standby ({ · with unacked := [(1, 2), (3, 3)] })) (fun t => t.counter (.device .pairCellResent)) == some 5,
    after (.pairLaneFail 3) (standby) (fun t => (t.pair.laneFailed.toNat, t.pair.linkUp)) == some (8, true),
    after (.pairLaneFail 3) (standby ({ · with laneFailed := 8 })) (fun t => t.pair.laneFailed.toNat) == some 8,
    after (.pairLaneFail 3) (standby ({ · with laneFailed := 0xF7 })) (fun t => t.pair.linkUp) == some false].all id = true := by decide +kernel

/-- HELLO and HEARTBEAT (R42, R541, R565, R570). -/
theorem test_greetings : [after (.pairHello (greeting 0)) (runs10 (standby ({ · with formed := false, phase := 0 }))) (fun t => (t.pair.formed, t.pair.refused, t.pair.phase))
      == some (true, 0, 2),
    after (.pairHello (greeting 1)) (runs10 (standby)) (fun t => (t.pair.formed, t.pair.refused, t.ms.standbyHeld)) == some (false, 1, true),
    after (.pairHello (greeting 0)) (live .m3) (fun t => t.pair.peer.isNone) == some true,
    after (.pairHeartbeat 5 true false 0) { live .m3 with pair := { linkUp := true, formed := true, peerPhase := 5 } } (fun t => (t.ms.mode, t.pair.peerPhase)) == some (.m4, 6),
    after (.pairHeartbeat 3 false false 0) pairLead (fun t => (t.ms.mode, t.pair.partnerLost)) == some (.m3, true),
    after (.pairHeartbeat 5 true false 0) pairLead (fun t => (t.ms.mode, t.pins.aliveIn, t.pair.peerSynced)) == some (.m4, true, true),
    after (.pairHeartbeat 7 false false 0) (standby) (fun t => (t.ms.synced, t.pair.phase, t.pair.peerMode)) == some (false, 0, 7),
    after (.pairHeartbeat 2 false false 0) { live .m2 with pair := { linkUp := true } } (fun t => t.pair.peerMode) == some 2,
    after (.pairHeartbeat 5 true false 0) (live .m3) (fun t => t.pins.aliveIn) == some false].all id = true := by decide +kernel

/-- A self-check of slice 2 of kind 1 over port 4. -/
def check (mine partner : Option Bool) (p : Pair) : Pair := { p with check := some { slices := [(1, 2)], ports := [4], mine := mine, partner := partner } }

/-- Digests of epoch 0, arbitration and self-checks (R558 to R562): both stay, the active or the standby leaves. -/
theorem test_arbitration : [(standby).compares, after (.pairDigest 0 []) (standby) (fun t => (tget none t.pair.digests 0).isSome) == some true,
    after (.pairDigest 0 []) (standby ({ · with nextDigest := 1 })) (fun t => t.pair.agreed) == some 1,
    after (.pairDigest 0 [(0, 7)]) (standby ({ · with nextDigest := 1 })) (fun t => (t.pair.check.isSome, t.pair.agreed)) == some (true, 0),
    after (.pairDigest 0 [(0, 7)]) (live .m3) (fun t => t.pair.check.isSome) == some false,
    after (.pairArbitrate (.notice 0 4)) (standby) (fun t => t.pair.check.isSome) == some true,
    after (.pairArbitrate (.report true)) (standby (check none none)) (fun t => t.pair.check.map (·.partner)) == some (some (some true)),
    after (.selfCheckDone false) (standby (check none none)) (fun t => t.pair.check.map (·.mine)) == some (some (some false)),
    after (.selfCheckDone true) (standby (check none (some false))) (fun t => (t.ms.mode, t.ms.safeCause, t.pair.lastArb)) == some (.m7, 6, (2, 1, 2)),
    after (.selfCheckDone false) (pairLead (check none (some true))) (fun t => (t.ms.mode, t.pair.lastArb)) == some (.m3, (2, 1, 2)),
    after (.selfCheckDone true) (pairLead (check none (some false))) (fun t => (t.ms.mode, t.pair.lastArb)) == some (.m7, (3, 1, 2)),
    after (.selfCheckDone false) (pairLead (check none (some false))) (fun t => (t.ms.mode, t.pair.lastArb, t.pair.watchLeft)) == some (.m4, (1, 1, 2), 64),
    after .selfCheckTimeout (standby (check (some false) (some false))) (fun t => (t.ms.mode, t.pair.watched)) == some (.m5, [4]),
    after .selfCheckTimeout (pairLead (check (some false) none)) (fun t => (t.ms.mode, t.pair.lastArb.1)) == some (.m3, 2)].all id = true := by decide +kernel

/-- Carried commands, checks, items and keys (R545 to R555); release epochs less than 8 ahead are late (R566). What PAIR_KEY
opens hangs on the opaque gcmOpen, and what a STATE message holds on the opaque stateCopy. -/
theorem test_carries : [after (.pairCommand 0x0301 (cmd [1]) 8) (standby) (fun t => t.pair.carried.map fun c => (c.epoch, c.own, c.req.opcode)) == some [(8, false, 0x0301)],
    after (.pairCommand 0x0301 (cmd [1]) 7) (standby) (fun t => (t.ms.synced, t.pair.phase)) == some (false, 3),
    after (.pairCommand 0x0A02 (cmd [1]) 8) (standby) (fun t => t.pair.carried.length) == some 0,
    after (.pairCommand 0x0301 (cmd [1]) 8) pairLead (fun t => t.pair.carried.length) == some 0,
    after (.pairCheck 0 1 false 0 0) (standby ({ · with carried := [{ (passed 0x0301 []) with partner := none }] })) (fun t => t.pair.carried.map (·.partner)) == some [some (0, 0)],
    after (.pairCheck 0 1 true 0 0) (standby) (fun t => t.pair.finals.map (·.partner)) == some [some (0, 0)],
    after (.pairCheck 0 1 true 0 0) (standby ({ · with finals := [{ fn := 0, tag := 1, opcode := 0x0703, mine := some (0, 0, []), own := false }] }))
      (fun t => t.pair.finals.length) == some 0,
    after (.pairCheck 0 1 true 5 0) (pairLead ({ · with finals := [{ fn := 0, tag := 1, opcode := 0x0601, mine := some (0, 0, []), own := true }] }))
      (fun t => (t.pair.finals.length, t.counter (.device .pairDivergedCmds))) == some (0, 1),
    after (.pairRetire 8 5 9) (standby) (fun t => t.pair.releases) == some [(8, .retire 5 9)],
    after (.pairRetire 7 5 9) (standby) (fun t => t.pair.phase) == some 3,
    after (.pairRetire 8 5 9) pairLead (fun t => t.pair.releases) == some [(8, .retire 5 9)],
    after (.pairSeed 8 1) pairLead (fun t => t.pair.releases) == some [],
    after (.pairSeed 8 1) (standby) (fun t => t.pair.releases.length) == some 1].all id = true := by decide +kernel

theorem wit_pair_key : (standby).follows = true ∧ pairLead.follows = false ∧ pairLead.leads = true ∧ (standby).pair.keyFails < 2 ∧
    eitherWay (.retire 5 9) ∧ ¬eitherWay (.seed []) := by
  refine ⟨by decide +kernel, by decide +kernel, by decide +kernel, by decide +kernel, trivial, fun h => h⟩

/-- Phases of synchronisation (R566 to R569, R637) and the end of an epoch. -/
theorem test_sync : let u (n : Nat) : Usable := { pipes := [0, 1, 2, 3, 4, 5, 6], cores := n, combiner := true, sites := [3] }
    [after .syncPhaseDone (standby ({ · with phase := 3 })) (fun t => t.pair.phase) == some 3,
    after .syncPhaseDone (standby ({ · with phase := 3, peerUsable := some (u 17) })) (fun t => (t.pair.phase, t.pair.mismatchTold)) == some (3, true),
    after .syncPhaseDone (standby ({ · with phase := 3, peerUsable := some (u 16) })) (fun t => (t.pair.phase, t.usableNow.pipes.contains 7)) == some (4, false),
    after .syncPhaseDone (standby ({ · with phase := 4, agreed := 9 })) (fun t => (t.pair.phase, t.pair.agreed)) == some (5, 0),
    after .syncPhaseDone (standby ({ · with phase := 5, agreed := 63 })) (fun t => t.pair.phase) == some 5,
    after .syncPhaseDone (standby ({ · with phase := 5, agreed := 64 })) (fun t => (t.pair.phase, t.ms.synced)) == some (6, true),
    after .syncPhaseDone (standby ({ · with rejoining := some 1 })) (fun t => t.pair.rejoining) == some none,
    after .syncPhaseDone { live .m3 with pair := { linkUp := true, formed := true, peerPhase := 3 } } (fun t => t.pair.peerPhase) == some 4,
    after .syncPhaseDone { live .m3 with pair := { linkUp := true, formed := true, peerPhase := 4 } } (fun t => t.pair.peerPhase) == some 5,
    after .syncPhaseDone (live .m3) (fun t => t.pair.peerPhase) == some 0,
    after .syncConvergeTimeout { standby ({ · with phase := 5 }) with qos := { policers := [(4, { cbs := 1 })] } } (fun t => (tget {} t.qos.policers 4 : Policer).full) == some true,
    after .syncConvergeTimeout (standby) (fun t => t.qos.policers.length) == some 0,
    after .compareEpoch (standby) (fun t => t.pair.sent.length) == some 1, after .compareEpoch (live .m3) (fun t => t.pair.sent.length) == some 0].all id = true := by
  decide +kernel

/-- PHASE 2 ends with phase 3 and the clock at a multiple of 256, whatever the free value is. -/
theorem test_sync2 : (match exec .syncPhaseDone (standby ({ · with phase := 2 })) with | .next t => t.pair.phase | _ => 0) = 3 := by decide +kernel

/-- PairRolesChangeInOrder: signals and takeover (R39, R572 to R575). -/
theorem test_roles : let b (rise : Bool) : State := { pairLead with pair := { pairLead.pair with backoff := some 20, backoffRise := rise }, pins := {} }
    [after .activeInRise (starting 4) (fun t => (t.ms.mode, t.pins.activeIn, t.pins.activeOut)) == some (.m5, true, false),
    after .activeInRise (b false) (fun t => (t.pair.backoffRise, t.ms.mode)) == some (true, .m4),
    after .activeInFall (standby) (fun t => (t.ms.mode, t.pins.activeOut, t.pair.tookOver)) == some (.m3, true, true),
    after .activeInFall { standby with ms := (live .m5).ms } (fun t => (t.ms.mode, t.pins.activeIn)) == some (.m5, false),
    after .activeInFall { live .m3 with pins := { activeIn := true } } (fun t => t.pins.activeOut) == some true,
    after .takeoverWaitExpiry { live .m5 with pair := { phase := 3 } } (fun t => (t.ms.mode, t.pair.phase)) == some (.m3, 0),
    after .takeoverWaitExpiry (standby) (fun t => t.ms.mode) == some .m5,
    after .partnerAliveLost pairLead (fun t => (t.ms.mode, t.pair.partnerLost)) == some (.m3, true),
    after .partnerAliveLost { standby with pins := { aliveIn := true } } (fun t => (t.ms.mode, t.pins.aliveIn)) == some (.m5, false),
    after .activeConflict { pairLead with pins := { activeOut := true, activeIn := true } } (fun t => (t.pins.activeOut, t.pair.backoff.isSome)) == some (false, true),
    after .activeConflict pairLead (fun t => t.pins.activeOut) == some true,
    after .backoffExpiry (b true) (fun t => (t.ms.mode, t.ms.safeCause)) == some (.m7, 6),
    after .backoffExpiry (b false) (fun t => (t.ms.mode, t.pins.activeOut)) == some (.m4, true),
    after .backoffExpiry pairLead (fun t => t.ms.mode) == some .m4].all id = true := by decide +kernel

/-- A device in a swap: was active or not, t0 passed or not. -/
def swapping (was done : Bool) : State :=
  { live .m6 with ms := { (live .m6).ms with synced := !was }, pins := { activeOut := if done then !was else was, activeIn := was && done },
                  pair := { linkUp := true, formed := true, agreement := some (60, 0), wasActive := was, swapped := done, peerPhase := 6, phase := 6 } }

/-- Planned swaps (R576 to R580). -/
theorem wit_swap : pairLead.skipReason = 0 ∧ (standby).skipReason = 0 ∧ (standby ({ · with hold := true })).skipReason = 1 := by decide +kernel

theorem test_swap : [after .equinoxNotice pairLead (fun t => t.ms.mode) == some .m4,
    after .equinoxDecision pairLead (fun t => (t.pair.agreement.isSome, t.pair.sent.length)) == some (true, 1),
    after .equinoxDecision (standby ({ · with hold := true })) (fun t => (t.pair.agreement.isSome, t.counter (.device .equinoxSkips))) == some (false, 1),
    after .equinoxDecision (live .m3) (fun t => t.pair.agreement.isSome) == some false,
    after (.pairEquinoxMsg .agree) (standby) (fun t => t.pair.agreement.isSome) == some true,
    after (.pairEquinoxMsg .agree) pairLead (fun t => t.pair.agreement.isSome) == some false,
    after (.pairEquinoxMsg .abort) (standby ({ · with agreement := some (60, 0) })) (fun t => (t.pair.agreement, t.counter (.device .equinoxAborts))) == some (none, 1),
    after .equinoxEnter (pairLead ({ · with agreement := some (60, 0) })) (fun t => (t.ms.mode, t.pair.wasActive, t.pins.activeOut)) == some (.m6, true, true),
    after .equinoxEnter pairLead (fun t => t.ms.mode) == some .m4,
    after .radioStartHold (swapping true false) (fun t => t.pair.radioHold) == some (some 25600),
    after .radioStartHold pairLead (fun t => t.pair.radioHold) == some none,
    after .equinoxSwap (swapping true false) (fun t => (t.pins.activeOut, t.pair.swapped)) == some (false, true),
    after .equinoxSwap (swapping false false) (fun t => (t.pins.activeOut, t.pair.swapped)) == some (true, true),
    after .equinoxSwap { swapping false false with qos := { scheds := [(9, { sending := some (8, { id := 0, bytes := [], cells := 1 }) })] } } (fun t => t.counter (.port 9 .equinoxLoss)) == some 1,
    after .equinoxConfirmTimeout { swapping true true with pins := {} } (fun t => (t.ms.mode, t.pins.activeOut)) == some (.m4, true),
    after .equinoxConfirmTimeout (swapping true true) (fun t => t.ms.mode) == some .m6,
    after .equinoxComplete (swapping true true) (fun t => (t.ms.mode, t.ms.synced, t.pins.activeOut)) == some (.m5, true, false),
    after .equinoxComplete (swapping false true) (fun t => (t.ms.mode, t.ms.synced, t.pins.activeOut)) == some (.m4, false, true),
    after .equinoxComplete (swapping false false) (fun t => t.ms.mode) == some .m6,
    after .equinoxAbort (swapping false false) (fun t => (t.ms.mode, t.pins.activeOut)) == some (.m5, false),
    after .equinoxAbort (pairLead ({ · with agreement := some (60, 0) })) (fun t => (t.ms.mode, t.pair.agreement)) == some (.m4, none),
    after .equinoxAbort (swapping true true) (fun t => t.ms.mode) == some .m6].all id = true := by decide +kernel
/-! ### Self-tests, the Service Port and observation -/

/-- A standby that may test a pipe: Equinox is off, so that no swap is near. -/
def mayTest (f : Pair → Pair := id) : State := withCfg (fun c => { c with pipeTestMin := 60, pair := { c.pair with equinoxEn := false } }) (standby f)

/-- A test of a kind and slice runs, begun at 0. -/
def testing (kind slice : Nat) (now : Nat := 0) : State :=
  { net with bist := { running := [{ kind := kind, slice := slice, fn := 0, tag := 3, since := 0 }] }, time := { duration := now },
             ports := { pipeReset := [(2, true)], st := [(4, { inReset := true })] } }

/-- TestsSessionsAndSnapshots: tests of pipes and of slices (R628, R635, R636, R639). -/
theorem test_tests : [after .pipeTestStart (mayTest) (fun t => (t.pair.testing, t.pair.nextPipe, tget false t.ports.pipeReset 0)) == some (some 0, 1, true),
    after .pipeTestStart (mayTest ({ · with testing := some 3 })) (fun t => t.pair.testing) == some (some 3),
    after (.pipeTestDone true) (mayTest ({ · with testing := some 3 })) (fun t => (t.pair.testing, t.pair.rejoining, t.counter (.device .pipeTests))) == some (none, some 3, 1),
    after (.pipeTestDone false) (mayTest ({ · with testing := some 3 })) (fun t => (t.ms.mode, t.pair.lastArb)) == some (.m7, (2, 1, 3)),
    after (.pipeTestDone true) (mayTest) (fun t => t.counter (.device .pipeTests)) == some 0,
    after (.bistRunDone true) (testing 6 2) (fun t => (t.bist.running.length, t.counter (.device .bistFails))) == some (0, 0),
    after (.bistRunDone false) (testing 7 4) (fun t => ((t.portSt 4).inReset, t.counter (.device .bistFails))) == some (false, 1),
    after (.bistRunDone true) (testing 1 2) (fun t => tget false t.ports.pipeReset 2) == some false,
    after (.bistRunDone true) (testing 11 0) (fun t => (t.node 16).isNone) == some true,
    after (.bistRunDone true) (testing 6 2 (budgetNs 6 * 8 / 5)) (fun t => t.counter (.device .bistFails)) == some 0,
    after (.bistRunDone true) (testing 6 2 (budgetNs 6 * 8 / 5 + 1)) (fun t => t.counter (.device .bistFails)) == some 1,
    after (.bistRunDone true) net (fun t => t.counter (.device .bistFails)) == some 0].all id = true := by decide +kernel

/-- A frame of the Service Port to all, and one of OP `op` for session 1. -/
def ast (op : Nat) (rest : Bytes) : Bytes := List.replicate 6 0xFF ++ by_ [2, 0, 0, 0, 0, 9, 0x88, 0xB5, op, 1] ++ rest

/-- OPEN with a tool key u. -/
def astOpenOf (n u : Nat) : Bytes := ast 1 (leBytes 4 n ++ leBytes 4 0 ++ leBytes 2 32 ++ leBytes 32 u)

/-- A session, bound to the tool key u = 9. -/
def bound (x : Session) : Session := { x with bound := some (leBytes 32 9, [], by_ [2, 0, 0, 0, 0, 9]) }

/-- Frames and sessions (R595, R596, R604 to R607, R620). What X25519 gives, and DATA, END and ABORT frames that open, hang on
opaque constants; so does the check of an install, whose bundle is verified with them. -/
theorem wit_service : [(net.astFrame 1 (astOpenOf 1 9)).isSome, (net.astFrame 3 (ast 3 [])).isSome, (net.astFrame 5 (ast 5 [])).isSome, (net.astFrame 7 (ast 7 [])).isSome,
    (net.astFrame 3 (ast 5 [])).isNone, (net.astOpenFrame ((ast 3 []).drop 14)).isNone, !net.svcAccepts [], net.svcAccepts (ast 1 []),
    astSession ((astOpenOf 1 9).drop 14) == 1, astLen ((astOpenOf 1 9).drop 14) == 32,
    (x25519Job [] (leBytes 32 (2 ^ 255 - 19))).1 == 2].all id = true := by decide +kernel

theorem test_service : let s (x : Session) : State := { net with svc := { session := some x } }
    [after (.servicePortForeignFrame []) net (fun t => (t.svc.linkUp, t.counter (.device .svcForeign), t.counter (.device .svcRxFrames))) == some (true, 1, 1),
    after (.servicePortForeignFrame (ast 1 [])) net (fun t => t.counter (.device .svcForeign)) == some 0,
    after .servicePortModeTimer net (fun t => t.svc.mode) == some 1,
    after .servicePortModeTimer { net with svc := { linkUp := true } } (fun t => t.svc.mode) == some 0,
    after (.astOpen (astOpenOf 1 9)) net (fun t => t.counter (.device .svcAuthFail)) == some 1,
    after (.astOpen (astOpenOf 2 9)) (s (session false 1)) (fun t => t.counter (.device .svcAuthFail)) == some 1,
    after (.astOpen (astOpenOf 1 (2 ^ 255 - 19))) (s (session false 1)) (fun t => t.svc.session.map (·.state)) == some (some 1),
    after (.astOpen (astOpenOf 1 8)) (s (bound (session false 2))) (fun t => t.counter (.device .svcAuthFail)) == some 1,
    after (.astOpen (astOpenOf 1 9)) (s (bound (session false 2))) (fun t => t.svc.sent.length) == some 1,
    after (.astOpen (ast 3 [])) net (fun t => t.svc.linkUp) == some false,
    after (.astData (ast 3 [])) (s (session false 2)) (fun t => (t.svc.linkUp, t.svc.session.isSome)) == some (true, true),
    after (.astEnd (ast 5 [])) (s (session false 2)) (fun t => (t.svc.linkUp, t.svc.session.isSome)) == some (true, true),
    after (.astAbort (ast 7 [])) (s (session false 2)) (fun t => (t.svc.linkUp, t.svc.session.isSome)) == some (true, true)].all id = true := by
  decide +kernel

theorem test_sessions : let s (x : Session) : State := { net with svc := { session := some x } }
    [after .astAckTimer (s { bound (session false 2) with blocks := 5 }) (fun t => t.svc.session.map (·.acked)) == some (some 5),
    after .astAckTimer (s { bound (session false 3) with blocks := 5 }) (fun t => t.svc.session.map (·.acked)) == some (some 0),
    after .sessionTimeout (s (session false 1)) (fun t => (t.svc.session.isNone, t.svc.lastEnd)) == some (true, 3),
    after .sessionTimeout (s (session false 3)) (fun t => t.svc.session.isNone) == some false,
    after .installDone (s (session false 4)) (fun t => t.svc.session.isSome) == some true,
    after .installDone (s { session false 4 with install := some (0, 3, false) }) (fun t => (t.svc.session.isNone, t.svc.lastEnd, t.nv == net.nv)) == some (true, 6, true)].all id = true := by
  decide +kernel

/-- Snapshots and the Trace Port (R643, R644, R648, R651, R652). -/
theorem test_snapshots : let s := { net with snap := { busy := true, taken := [(0, 7)], takenS := 4 } }
    let t0 := withCfg (fun c => { c with own := { c.own with trace := { enable := true, rtcPeriodMs := 1 } } }) net
    [after (.snapTake 1) net (fun t => t.snap.busy) == some true, after (.snapTake 0) net (fun t => t.snap.busy) == some false,
    after (.snapTake 1) s (fun t => t.snap.ignored) == some true,
    after .snapshotPeriodExpiry { net with snap := { period := 10 } } (fun t => t.snap.busy) == some true,
    after .snapshotPeriodExpiry { net with snap := { period := 10, busy := true } } (fun t => t.snap.ignored) == some true,
    after .snapshotPeriodExpiry net (fun t => t.snap.busy) == some false,
    after .snapshotPublished s (fun t => (t.snap.busy, t.snap.valid, t.snap.seq.toNat, t.snap.published, t.snap.timeS)) == some (false, true, 1, [(0, 7)], 4),
    after .snapshotPublished net (fun t => t.snap.valid) == some false,
    after .traceFrameSend { net with trace := { records := [by_ (List.replicate 16 1)] } } (fun t => (t.trace.records.length, t.trace.seq.toNat, t.trace.sent.length)) == some (0, 1, 1),
    after .traceFrameSend net (fun t => t.trace.sent.length) == some 0,
    after .traceSampleTimer { t0 with time := { duration := 1600000 } } (fun t => tget 0 t.trace.sampledAt 0) == some 1600000,
    after .traceSampleTimer { t0 with time := { duration := 1599999 } } (fun t => tget 0 t.trace.sampledAt 0) == some 0,
    after .traceSampleTimer net (fun t => tget 0 t.trace.sampledAt 0) == some 0].all id = true := by decide +kernel

/-! ### The whole block -/

/-- A command that answers a next state (EveryCommandKeepsTheOtherParts), and states in which the modes agree
(EveryStepKeepsModesInAgreement). -/
theorem wit_whole : after .rtcLoRead (live .m3) (fun t => t.ms.mode) = some .m3 := by decide +kernel

theorem wit_modes : (standby).ModesAgree ∧ (live .m7 1).ModesAgree ∧ State.reset.ModesAgree := by
  refine ⟨?_, ?_, ?_⟩ <;> unfold State.ModesAgree <;> decide +kernel
/-! ### Hypotheses of further clauses -/

/-- Entry 0 of the region map: an open page at 0, which masters 1 and 9 may read; entry 1: the region map itself. -/
def mapped : State :=
  { live .m3 with ms := { (live .m3).ms with maps :=
      { blocks := [], locked := true
        regions := [{ base := 0, pages := 1, area := none, readMask := 0x202, writeMask := 0 },
                    { base := 4096, pages := 1, area := some .regionMap, readMask := 0xFFFF, writeMask := 0xFFFF }] } } }

/-- What the maps refuse, and what they let pass; a failed core die ends every reset and takes no more faults (R29, R489 to R491). -/
theorem wit_worlds : [mapped.ms.maps.governs 5 == some (0, { base := 0, pages := 1, area := none, readMask := 0x202, writeMask := 0 }),
    (mapped.ms.maps.governs 4096).isSome, (mapped.ms.maps.governs 8192).isNone,
    !mapped.ms.maps.refuses 0 9 false 5, mapped.ms.maps.refuses 0 9 true 5, mapped.ms.maps.refuses 1 9 false 4096, !mapped.ms.maps.refuses 1 0 false 4096,
    mapped.ms.maps.refuses 1 0 true 4096,
    after (.worldViolation 0 9 false 5) mapped (fun t => t.counter (.worldViolations 9)) == some 0,
    after (.worldViolation 1 4 false 4096) mapped (fun t => (t.counter (.worldViolations 4), t.procs.reloading)) == some (1, [4]),
    (live .m7 2).coreFailed, !(live .m7 7).coreFailed,
    after (.coreDieFault false 1) { live .m3 with ports := { pipeReset := [(0, true)], laneReset := [(3, true)] } } (fun t => (t.inBlockReset 3 0, t.inBlockReset 1 3)) == some (false, false)].all id
      = true := by decide +kernel

/-- A generation whose entries are not placed yet waits (R195, R219). -/
theorem wit_unplaced : let g (n : Nat) : State := let s := waiting none []
      { s with fwd := { s.fwd with placed := [(0, n)], pendingGens := s.fwd.pendingGens.map fun g => { g with slots := [1] } } }
    [after .generationBoundary (g 0) (fun t => t.fwd.generation) == some 0,
     after .generationBoundary (g 1) (fun t => (t.fwd.generation, t.fwd.placed)) == some (1, [(0, 0)])].all id = true := by decide +kernel

/-- A base stepped in this clock takes no sample; a count of the 10 MHz input out of range, or of another source, gives none (R111, R115, R131). -/
theorem wit_samples : let ten (n : Nat) : State := withCfg (fun c => { c with bases := [(0, { source := 3 })] }) { live .m3 with time := { bases := [(0, { t := 400 * 65536, seen := n })] } }
    let stepped : State := let s := clock .m3 .free 5; { s with time := { s.time with bases := s.time.bases.map fun e => (e.1, { e.2 with stepped := true }) } }
    [after (.offsetSample 0 .fromMaster) stepped (fun t => (t.base 0).lastTheta) == some 0,
     (ten 640).thetaOf 0 (.cycles 4) == some 0, ((ten 640).thetaOf 0 (.cycles 5)).isNone, ((ten 640).thetaOf 0 (.cycles 3)).isNone,
     ((ten 640).thetaOf 0 .fromMaster).isNone,
     after (.offsetSample 0 (.cycles 5)) (ten 640) (fun t => (t.pins.freq10m, (t.base 0).sourceLost)) == some (false, true),
     (ten 640).tmcRuns].all id = true := by decide +kernel

/-- A frame that holds the preemptable MAC already begins no second hold; a radio port's queue 7 has room for a Sync (R267, R273). -/
theorem wit_holds : [(let s := queued (some 5) false
      let h : State := s.modPort 1 fun x => { x with mmHolds := ((s.queue 130).items.map (·.id)) }
      after (.launchHoldStart 130) h (fun t => t.counter (.port 1 .mmHold)) == some 0 && h.mmHold 1),
    (let s := ptp .slave 0
     s.sitePort 3 == some 0 && !(s.queue 7).launchEn && s.fits 7 1 0 && !s.noCell 1)].all id = true := by decide +kernel

/-- TIME_SET_TENANT_BASE moves a tenant with a domain to another base, or leaves it (R135). -/
theorem wit_tenant_base : [accepted timeSetTenantBaseSpec (cmd [0, 3]) net, net.domainTenant 0 == some 0, tget 0 net.cfg.tenantBase 0 == 0,
    accepted timeSetTenantBaseSpec (cmd [0, 0]) net].all id = true := by decide +kernel

/-- A header that has not come from every member waits, before its due instant; a codeword with no core waits; a watch hears a frame on its
channel alone (R367, R372, R420). -/
theorem wit_waits : let r : Recv := { recv 4 with sites := [3, 5], deadlineUs := some 20 }
    let s : State := { receiving [r] with radio := { (receiving [r]).radio with sites := [(3, { state := .inService }), (5, { state := .inService })] } }
    [!s.headersIn r && !s.headerDue r, !(receiving [waitingCores]).begun waitingCores 16, (receiving [waitingCores]).begun waitingCores 15,
     s.issueDue 0 0 0 == none, !s.heardIn { domain := 0, handle := 16, frame := 0, cell := 0, site := 3, band := 0, freq := 1, phy := 0, opens := 0, closes := 9 } (heard [])].all id
      = true := by decide +kernel

/-- The clauses of DCW words: one of another length, one that asks for its ACK, and one of a band (R301, R303, R304, R327). -/
theorem wit_words : [(dcwBody 0x80 16 (dcw 0x80 [7])).isNone, (dcwBody 0x80 16 (dcw 0x81 (List.replicate 16 0))).isNone,
    after (.dcwReady 3 (dcwWord 0x81 3 none true 5 (by_ [9, 0, 0, 0]))) (atSite { state := .inService }) (fun t => (t.site 3).wseq) == some 1,
    (dcwBody 0x86 4 (dcwWord 0x86 1 none false 0 (by_ [3, 0, 0, 0]))).isSome, wordBand (dcwWord 0x86 1 none false 0 []) == 1].all id = true := by
  decide +kernel

/-- A join request in a cell of another type; a queue and a store with room; no MGC that is reloaded (R23, R26, R394). -/
theorem wit_mesh : [meshed.cellType (heard []) == 0, joining.cellType (heard []) == 4, (later.storeRoom [by_ [1]]), !later.mgcDown 1,
    { later with procs := { loaded := true, reloading := [1] } }.mgcDown 1, later.busMaster 1].all id = true := by decide +kernel

end Sys2Proof.Tests
end

/-! PROOFS. The statements of the scope: the front command, registers by access code, and the frame of every command. -/

/-! ### Lists of parts that a step leaves alone -/

namespace Sys2Proof.Claims

open Machine

theorem Only.refl (l : List Part) (s : State) : Only l s s := by
  intro p _
  cases p <;> rfl

theorem Part.same_trans {p : Part} {s t u : State} (hst : p.same s t) (htu : p.same t u) : p.same s u := by
  cases p <;> exact Eq.trans htu hst

theorem Part.same_symm {p : Part} {s t : State} (h : p.same s t) : p.same t s := by
  cases p <;> exact Eq.symm h

theorem Only.trans {l : List Part} {s t u : State} (hst : Only l s t) (htu : Only l t u) : Only l s u :=
  fun p hp => Part.same_trans (hst p hp) (htu p hp)

theorem Only.mono {k l : List Part} {s t : State} (h : Only k s t) (hk : k ⊆ l) : Only l s t :=
  fun p hp => h p fun hmem => hp (hk hmem)

/-- A choice keeps what both of its branches keep. -/
theorem only_ite {l : List Part} {s t u : State} {c : Prop} [Decidable c] :
    Only l s (if c then t else u) ↔ if c then Only l s t else Only l s u := by
  split <;> rfl

/-- A fold of operations that each keep the parts keeps them. -/
theorem Only.foldl {α : Type} {l : List Part} {g : State → α → State} (h : ∀ s e, Only l s (g s e)) (es : List α) (s : State) :
    Only l s (es.foldl g s) := by
  induction es generalizing s with
  | nil => exact Only.refl l s
  | cons e es ih => exact (h s e).trans (ih (g s e))

/-- The conjunction of what the parts of a list say, in the form of the frames of the operations. -/
def AllSame (s t : State) : List Part → Prop
  | [] => True
  | [p] => p.same s t
  | p :: q :: l => p.same s t ∧ AllSame s t (q :: l)

theorem AllSame.same {s t : State} {l : List Part} (h : AllSame s t l) {p : Part} (hp : p ∈ l) : p.same s t := by
  induction l with
  | nil => cases hp
  | cons q l ih =>
    cases l with
    | nil => exact List.mem_singleton.1 hp ▸ h
    | cons r l =>
      rcases List.mem_cons.1 hp with rfl | hp
      · exact h.1
      · exact ih h.2 hp

/-- The parts that a list leaves out, in the order of the state. -/
def others (l : List Part) : List Part := (everything ++ [Part.pending]).filter fun p => !l.contains p

theorem mem_others {p : Part} {l : List Part} (hp : p ∉ l) : p ∈ others l := by
  refine List.mem_filter.2 ⟨?_, by simpa using hp⟩
  cases p <;> decide

/-- The frame of an operation, which names what it keeps, says what it may change. -/
theorem Only.of_frame {k : List Part} {s t : State} (h : AllSame s t (others k)) : Only k s t :=
  fun _ hp => h.same (mem_others hp)

/-- After an operation that keeps the parts, they are kept exactly where they were kept before. -/
theorem only_iff_of_kept {l : List Part} {s t u : State} (h : Only l t u) : Only l s u ↔ Only l s t :=
  ⟨fun hu p hp => Part.same_trans (hu p hp) (Part.same_symm (h p hp)), fun ht => Only.trans ht h⟩

theorem only_step {k l : List Part} {s t u : State} (hk : k ⊆ l) (h : AllSame t u (others k)) : Only l s u ↔ Only l s t :=
  only_iff_of_kept (Only.mono (Only.of_frame h) hk)

/-- The frame of a command: the parts listed are all that it may change. -/
def Frame (c : Instr) (l : List Part) : Prop := ∀ s t, exec c s = .next t → Only l s t

/-- It is enough to look at the state that the dispatch answers. -/
theorem Frame.of_next {c : Instr} {l : List Part} {f : State → State} (h : ∀ s, exec c s = .next (f s))
    (hf : ∀ s, Only l s (f s)) : Frame c l := by
  intro s t ht
  cases (h s).symm.trans ht
  exact hf s

end Sys2Proof.Claims
/-! ### The front command, the reads that change state, and the test port -/

section
open Sys2Proof Sys2Proof.Machine Sys2Proof.Claims

/-- Settles O1: a step with a command in front is the dispatch of it on the rest of the queue. -/
theorem stepRunsFrontCommand : Obligations.StepRunsFrontCommand := by
  intro s c rest hfront
  unfold step
  rw [hfront]

end

namespace Sys2Proof.Machine

/-- The word of RTC_CTRL without its key is discarded (R153). -/
theorem State.writeRtcCtrl_of_badKey (s : State) {word : Nat} (h : bits word 16 16 ≠ 0x4C44) : s.writeRtcCtrl word = s := by
  simp [State.writeRtcCtrl, h]

theorem State.writeRtcCtrl_of_key (s : State) {word : Nat} (hload : bit word 1 = true) (hkey : bits word 16 16 = 0x4C44) :
    s.writeRtcCtrl word = s.modRtc fun c => { c with loadPending := true } := by
  simp [State.writeRtcCtrl, hload, hkey]

end Sys2Proof.Machine

namespace Sys2Proof.Claims

open Machine

theorem rtcAccessFollowsTheShadow : RtcAccessFollowsTheShadow := by
  intro s hs
  refine ⟨?_, fun hfrozen => ?_, fun hlive => ?_, fun w => ⟨fun hload hkey => ?_, fun hkey => ?_⟩⟩
  · exact congrArg Host.Outcome.next (if_pos hs)
  · exact congrArg Host.Outcome.next ((if_pos hs).trans (by simp [hfrozen, State.modRtc, State.reads]))
  · have hsame : s.modRtc (fun c => { c with frozen := false }) = s := by simp [State.modRtc, ← hlive]
    exact congrArg Host.Outcome.next ((if_pos hs).trans (by simp [hlive, hsame, State.reads]))
  · exact congrArg Host.Outcome.next ((if_pos hs).trans (State.writeRtcCtrl_of_key s hload hkey))
  · exact congrArg Host.Outcome.next ((if_pos hs).trans (State.writeRtcCtrl_of_badKey s hkey))

theorem readsThatChangeStateChangeOnlyThat : ReadsThatChangeStateChangeOnlyThat := by
  intro s hs
  constructor
  · exact congrArg Host.Outcome.next (if_pos hs)
  · exact congrArg Host.Outcome.next (if_pos hs)

theorem jtagTouchesOnlyItsRegisters : JtagTouchesOnlyItsRegisters := by
  intro s
  refine ⟨rfl, fun _ => rfl, fun i hidcode hsample => ?_⟩
  exact congrArg Host.Outcome.next (if_neg (not_or.2 ⟨hidcode, hsample⟩))

end Sys2Proof.Claims

section
open Sys2Proof Sys2Proof.Machine Sys2Proof.Claims

/-- Settles O8, register block by register block. -/
theorem rtcReadsAndJtag : Obligations.RtcReadsAndJtag :=
  ⟨rtcAccessFollowsTheShadow, readsThatChangeStateChangeOnlyThat, jtagTouchesOnlyItsRegisters⟩

end

/-! ### Restarts keep the queue -/

namespace Sys2Proof.Machine

@[simp] theorem State.fresh_pending (s : State) (m : Mode) : (s.fresh m).pending = s.pending := rfl

@[simp] theorem State.dormant_pending (s : State) : s.dormant.pending = s.pending := rfl

@[simp] theorem State.powerUp_pending (s : State) : s.powerUp.pending = s.pending := by
  simp [State.powerUp]

@[simp] theorem State.warmReset_pending (s : State) (cause t : Nat) : (s.warmReset cause t).pending = s.pending := by
  simp [State.warmReset]

@[simp] theorem State.fatal_pending (s : State) : s.fatal.pending = s.pending := by
  unfold State.fatal
  split <;> simp

@[simp] theorem State.restart_pending (s : State) (cause t : Nat) : (s.restart cause t).pending = s.pending := by
  simp [State.restart]

@[simp] theorem State.crash_pending (s : State) : s.crash.pending = s.pending := by
  unfold State.crash
  split <;> simp

@[simp] theorem State.processorFails_pending (s : State) (p : Nat) : (s.processorFails p).pending = s.pending := by
  dsimp only [State.processorFails]
  repeat' split
  all_goals simp

@[simp] theorem State.failMigration_pending (s : State) : s.failMigration.pending = s.pending := by
  unfold State.failMigration
  split <;> simp

@[simp] theorem State.writeModeReq_pending (s : State) (word : Nat) : (s.writeModeReq word).pending = s.pending := by
  unfold State.writeModeReq
  repeat' split
  all_goals simp

@[simp] theorem State.writeMode_pending (s : State) (off v : Nat) : (s.writeMode off v).pending = s.pending := by
  unfold State.writeMode
  split <;> simp

@[simp] theorem State.writePf0_pending (s : State) (off v : Nat) : (s.writePf0 off v).pending = s.pending := by
  unfold State.writePf0
  repeat' split
  all_goals simp

@[simp] theorem State.writeReg_pending (s : State) (f bar off v : Nat) : (s.writeReg f bar off v).pending = s.pending := by
  unfold State.writeReg
  repeat' split
  all_goals simp

@[simp] theorem sysWarmResetSpec_pending (r : Req) (s : State) : (sysWarmResetSpec.effect r s).1.pending = s.pending := by
  simp only [sysWarmResetSpec]
  split <;> simp

@[simp] theorem sysShutdownSpec_pending (r : Req) (s : State) : (sysShutdownSpec.effect r s).1.pending = s.pending := by
  simp [sysShutdownSpec]

@[simp] theorem State.sampleDue_frame (s : State) (i period : Nat) (body : State → Bytes) (type : Nat) :
    let t := s.sampleDue i period body type
    t.ms = s.ms ∧ t.host = s.host ∧ t.cfg = s.cfg ∧ t.nv = s.nv ∧ t.procs = s.procs ∧ t.time = s.time ∧
    t.ports = s.ports ∧ t.fwd = s.fwd ∧ t.qos = s.qos ∧ t.radio = s.radio ∧ t.mesh = s.mesh ∧ t.pins = s.pins ∧
    t.power = s.power ∧ t.jtag = s.jtag ∧ t.pair = s.pair ∧ t.svc = s.svc ∧ t.snap = s.snap ∧ t.bist = s.bist ∧
    t.draws = s.draws ∧ t.pending = s.pending := by
  unfold State.sampleDue
  split <;> simp

end Sys2Proof.Machine

/-! ### What each operation leaves to be looked at

`Only ps s` holds after an operation where it held before it, if the parts that the operation may change are among `ps`. So `simp` with
these lemmas peels a chain of operations off a state, and a subset of two lists is all that is left to check. -/

namespace Sys2Proof.Claims

open Machine

section Operations

variable {ps : List Part} {s t : State}

theorem only_abandonResets (h : [.ports] ⊆ ps) : Only ps s t.abandonResets ↔ Only ps s t :=
  only_step h (State.abandonResets_frame t)

theorem only_abortBefore (h : [.ms, .host, .ports, .radio, .pins, .pair, .svc, .trace, .ctr, .draws] ⊆ ps) :
    Only ps s t.abortBefore ↔ Only ps s t :=
  only_step h (State.abortBefore_frame t)

theorem only_abortSwap {kind} (h : [.ms, .host, .ports, .radio, .pins, .pair, .svc, .trace, .ctr, .draws] ⊆ ps) :
    Only ps s (t.abortSwap kind) ↔ Only ps s t :=
  only_step h (State.abortSwap_frame t kind)

theorem only_act {i} {x2} (h : [.host, .qos, .radio, .ctr] ⊆ ps) : Only ps s (t.act i x2).1 ↔ Only ps s t :=
  only_step h (State.act_frame t i x2)

theorem only_activate {d} (h : [.host, .radio, .pair, .ctr] ⊆ ps) : Only ps s (t.activate d) ↔ Only ps s t :=
  only_step h (State.activate_frame t d)

theorem only_addCause {bit} (h : [.ms] ⊆ ps) : Only ps s (t.addCause bit) ↔ Only ps s t :=
  only_step h (State.addCause_frame t bit)

theorem only_advanceAll (h : [.host, .nv, .mesh, .ctr] ⊆ ps) : Only ps s t.advanceAll ↔ Only ps s t :=
  only_step h (State.advanceAll_frame t)

theorem only_aesJob (h : [.ctr, .draws] ⊆ ps) : Only ps s t.aesJob ↔ Only ps s t :=
  only_step h (State.aesJob_frame t)

theorem only_agree (h : [.pair, .draws] ⊆ ps) : Only ps s t.agree ↔ Only ps s t :=
  only_step h (State.agree_frame t)

theorem only_alarm {source} {type} {body} (h : [.host] ⊆ ps) : Only ps s (t.alarm source type body) ↔ Only ps s t :=
  only_step h (State.alarm_frame t source type body)

theorem only_alignClock (h : [.time, .pair, .draws] ⊆ ps) : Only ps s t.alignClock ↔ Only ps s t :=
  only_step h (State.alignClock_frame t)

theorem only_answerInternal {f} (h : [.host] ⊆ ps) : Only ps s (t.answerInternal f) ↔ Only ps s t :=
  only_step h (State.answerInternal_frame t f)

theorem only_answerLater {r} {y} (h : [.host] ⊆ ps) : Only ps s (t.answerLater r y) ↔ Only ps s t :=
  only_step h (State.answerLater_frame t r y)

theorem only_applyDelay {site} {ns} (h : [.host, .ports, .radio, .ctr] ⊆ ps) : Only ps s (t.applyDelay site ns) ↔ Only ps s t :=
  only_step h (State.applyDelay_frame t site ns)

theorem only_applyKey {x1} (h : [.nv] ⊆ ps) : Only ps s (t.applyKey x1) ↔ Only ps s t :=
  only_step h (State.applyKey_frame t x1)

theorem only_applySlices {l_} (h : [.ports, .qos, .radio, .bist] ⊆ ps) : Only ps s (t.applySlices l_) ↔ Only ps s t :=
  only_step h (State.applySlices_frame t l_)

theorem only_authenticate {d} {x2} {f} (h : [.host, .nv, .radio, .mesh, .pair, .ctr, .draws] ⊆ ps) :
    Only ps s (t.authenticate d x2 f).1 ↔ Only ps s t :=
  only_step h (State.authenticate_frame t d x2 f)

theorem only_beginReset {level} {number} (h : [.host, .ports, .fwd, .qos, .radio, .ctr] ⊆ ps) :
    Only ps s (t.beginReset level number) ↔ Only ps s t :=
  only_step h (State.beginReset_frame t level number)

theorem only_bind {x1} {tool} {src} (h : [.svc, .ctr, .draws] ⊆ ps) : Only ps s (t.bind x1 tool src) ↔ Only ps s t :=
  only_step h (State.bind_frame t x1 tool src)

theorem only_bistEntry {type} {kind} {slice} {spare} {result} (h : [.host] ⊆ ps) :
    Only ps s (t.bistEntry type kind slice spare result) ↔ Only ps s t :=
  only_step h (State.bistEntry_frame t type kind slice spare result)

theorem only_bootChain {b} (h : [.ms, .host, .cfg, .nv, .ports, .radio, .pins, .pair, .svc, .trace, .ctr, .draws] ⊆ ps) :
    Only ps s (t.bootChain b) ↔ Only ps s t :=
  only_step h (State.bootChain_frame t b)

theorem only_bootSettings (h : [.cfg] ⊆ ps) : Only ps s t.bootSettings ↔ Only ps s t :=
  only_step h (State.bootSettings_frame t)

theorem only_borderDown {d} {b} (h : [.host, .nv, .radio, .mesh, .pair, .ctr, .draws] ⊆ ps) :
    Only ps s (t.borderDown d b) ↔ Only ps s t :=
  only_step h (State.borderDown_frame t d b)

theorem only_bringUp {p} (h : [.host, .ports, .radio] ⊆ ps) : Only ps s (t.bringUp p) ↔ Only ps s t :=
  only_step h (State.bringUp_frame t p)

theorem only_buildAck {d} {m} {p} (h : [.host, .nv, .radio, .mesh, .pair, .ctr, .draws] ⊆ ps) :
    Only ps s (t.buildAck d m p).1 ↔ Only ps s t :=
  only_step h (State.buildAck_frame t d m p)

theorem only_carry {delay} {r} (h : [.pair] ⊆ ps) : Only ps s (t.carry delay r) ↔ Only ps s t :=
  only_step h (State.carry_frame t delay r)

theorem only_changeMode {new} {t_} {cause} (h : [.ms, .host, .ports, .radio, .pins, .pair, .svc, .trace, .ctr, .draws] ⊆ ps) :
    Only ps s (t.changeMode new t_ cause) ↔ Only ps s t :=
  only_step h (State.changeMode_frame t new t_ cause)

theorem only_chargeTick {r} (h : [.host, .radio, .ctr] ⊆ ps) : Only ps s (t.chargeTick r) ↔ Only ps s t :=
  only_step h (State.chargeTick_frame t r)

theorem only_coldTake (h : [.ms, .host, .ports, .radio, .pins, .pair, .svc, .trace, .ctr, .draws] ⊆ ps) :
    Only ps s t.coldTake ↔ Only ps s t :=
  only_step h (State.coldTake_frame t)

theorem only_commitOne {x1} (h : [.host, .nv, .ports, .radio, .mesh, .pair, .ctr, .draws] ⊆ ps) :
    Only ps s (t.commitOne x1) ↔ Only ps s t :=
  only_step h (State.commitOne_frame t x1)

theorem only_compareDigests {e} {theirs} (h : [.ms, .host, .ports, .radio, .pins, .pair, .svc, .trace, .ctr, .draws] ⊆ ps) :
    Only ps s (t.compareDigests e theirs) ↔ Only ps s t :=
  only_step h (State.compareDigests_frame t e theirs)

theorem only_complete {f} {tag} {opcode} {status} {sub} {result} (h : [.host, .pair] ⊆ ps) :
    Only ps s (t.complete f tag opcode status sub result) ↔ Only ps s t :=
  only_step h (State.complete_frame t f tag opcode status sub result)

theorem only_completeInternal {f} (h : [.host, .mesh, .pair] ⊆ ps) : Only ps s (t.completeInternal f) ↔ Only ps s t :=
  only_step h (State.completeInternal_frame t f)

theorem only_configurePru {site} (h : [.qos, .radio, .ctr] ⊆ ps) : Only ps s (t.configurePru site) ↔ Only ps s t :=
  only_step h (State.configurePru_frame t site)

theorem only_copyConfig {x1} (h : [.cfg, .nv, .time, .ports, .fwd, .qos, .radio, .pins, .pair] ⊆ ps) :
    Only ps s (t.copyConfig x1) ↔ Only ps s t :=
  only_step h (State.copyConfig_frame t x1)

theorem only_count {c} {n} (h : [.ctr] ⊆ ps) : Only ps s (t.count c n) ↔ Only ps s t :=
  only_step h (State.count_frame t c n)

theorem only_countIf {b} {c} (h : [.ctr] ⊆ ps) : Only ps s (t.countIf b c) ↔ Only ps s t :=
  only_step h (State.countIf_frame t b c)

theorem only_countRx {p} {fin} (h : [.ctr] ⊆ ps) : Only ps s (t.countRx p fin) ↔ Only ps s t :=
  only_step h (State.countRx_frame t p fin)

theorem only_crash (h : everything ⊆ ps) : Only ps s t.crash ↔ Only ps s t :=
  only_step h (State.crash_pending t)

theorem only_dcwAnswer {site} {word} {result} (h : [.qos, .radio, .ctr] ⊆ ps) :
    Only ps s (t.dcwAnswer site word result) ↔ Only ps s t :=
  only_step h (State.dcwAnswer_frame t site word result)

theorem only_decideHeader {r} {w} (h : [.radio, .ctr] ⊆ ps) : Only ps s (t.decideHeader r w) ↔ Only ps s t :=
  only_step h (State.decideHeader_frame t r w)

theorem only_deliver {p} {h_} {rest} (h : [.host, .fwd, .ctr] ⊆ ps) : Only ps s (t.deliver p h_ rest) ↔ Only ps s t :=
  only_step h (State.deliver_frame t p h_ rest)

theorem only_dieWarning {v} (h : [.host, .power] ⊆ ps) : Only ps s (t.dieWarning v) ↔ Only ps s t :=
  only_step h (State.dieWarning_frame t v)

theorem only_digestsDue {n1} (h : [.ms, .host, .ports, .radio, .pins, .pair, .svc, .trace, .ctr, .draws] ⊆ ps) :
    Only ps s (t.digestsDue n1) ↔ Only ps s t :=
  only_step h (State.digestsDue_frame t n1)

theorem only_discardHead {q} {i} (h : [.qos, .ctr] ⊆ ps) : Only ps s (t.discardHead q i) ↔ Only ps s t :=
  only_step h (State.discardHead_frame t q i)

theorem only_dormant (h : everything ⊆ ps) : Only ps s t.dormant ↔ Only ps s t :=
  only_step h (State.dormant_pending t)

theorem only_draw (h : [.draws] ⊆ ps) : Only ps s t.draw.2 ↔ Only ps s t :=
  only_step h (State.draw_frame t)

theorem only_drawOctets {n} (h : [.draws] ⊆ ps) : Only ps s (t.drawOctets n).2 ↔ Only ps s t :=
  only_step h (State.drawOctets_frame t n)

theorem only_dropFrame {id} {queues} (h : [.qos, .ctr] ⊆ ps) : Only ps s (t.dropFrame id queues) ↔ Only ps s t :=
  only_step h (State.dropFrame_frame t id queues)

theorem only_dropHolds (h : [.pins] ⊆ ps) : Only ps s t.dropHolds ↔ Only ps s t :=
  only_step h (State.dropHolds_frame t)

theorem only_dropLoading {f} (h : [.radio] ⊆ ps) : Only ps s (t.dropLoading f) ↔ Only ps s t :=
  only_step h (State.dropLoading_frame t f)

theorem only_dropSync {reason} {restart} {now} (h : [.ms, .host, .pair] ⊆ ps) :
    Only ps s (t.dropSync reason restart now) ↔ Only ps s t :=
  only_step h (State.dropSync_frame t reason restart now)

theorem only_endConfig (h : [.host, .nv, .ports, .radio, .pair, .bist] ⊆ ps) : Only ps s t.endConfig ↔ Only ps s t :=
  only_step h (State.endConfig_frame t)

theorem only_endCut {id} {queues} {rest} {keep} {cells} {stomp} (h : [.qos, .pair, .ctr] ⊆ ps) :
    Only ps s (t.endCut id queues rest keep cells stomp) ↔ Only ps s t :=
  only_step h (State.endCut_frame t id queues rest keep cells stomp)

theorem only_endDist {d} {status} {sub} (h : [.host, .mesh, .pair] ⊆ ps) : Only ps s (t.endDist d status sub) ↔ Only ps s t :=
  only_step h (State.endDist_frame t d status sub)

theorem only_endReset {level} {number} {out} (h : [.ports] ⊆ ps) : Only ps s (t.endReset level number out) ↔ Only ps s t :=
  only_step h (State.endReset_frame t level number out)

theorem only_endSend {c} {status} {sub} (h : [.host, .mesh, .pair] ⊆ ps) : Only ps s (t.endSend c status sub) ↔ Only ps s t :=
  only_step h (State.endSend_frame t c status sub)

theorem only_endSession {last} (h : [.host, .pair, .svc, .ctr, .draws] ⊆ ps) : Only ps s (t.endSession last) ↔ Only ps s t :=
  only_step h (State.endSession_frame t last)

theorem only_endWindows {d} (h : [.radio] ⊆ ps) : Only ps s (t.endWindows d) ↔ Only ps s t :=
  only_step h (State.endWindows_frame t d)

theorem only_enterSafe {cause} (h : [.ms, .host, .ports, .radio, .pins, .pair, .svc, .trace, .ctr, .draws] ⊆ ps) :
    Only ps s (t.enterSafe cause) ↔ Only ps s t :=
  only_step h (State.enterSafe_frame t cause)

theorem only_enterService {n} (h : [.host, .radio, .ctr] ⊆ ps) : Only ps s (t.enterService n) ↔ Only ps s t :=
  only_step h (State.enterService_frame t n)

theorem only_failMigration (h : everything ⊆ ps) : Only ps s t.failMigration ↔ Only ps s t :=
  only_step h (State.failMigration_pending t)

theorem only_finish {p} (h : [.ports, .qos, .ctr] ⊆ ps) : Only ps s (t.finish p) ↔ Only ps s t :=
  only_step h (State.finish_frame t p)

theorem only_finishInstall {f} {tag} {st} {sub} {result} (h : [.host, .pair] ⊆ ps) :
    Only ps s (t.finishInstall f tag st sub result) ↔ Only ps s t :=
  only_step h (State.finishInstall_frame t f tag st sub result)

theorem only_finishRecv {r} (h : [.radio] ⊆ ps) : Only ps s (t.finishRecv r) ↔ Only ps s t :=
  only_step h (State.finishRecv_frame t r)

theorem only_finishTenantReset {t_} (h : [.host, .qos, .ctr, .draws] ⊆ ps) : Only ps s (t.finishTenantReset t_) ↔ Only ps s t :=
  only_step h (State.finishTenantReset_frame t t_)

theorem only_floorEnd {site} {band} (h : [.host, .radio] ⊆ ps) : Only ps s (t.floorEnd site band) ↔ Only ps s t :=
  only_step h (State.floorEnd_frame t site band)

theorem only_flr {f} (h : [.host, .pair] ⊆ ps) : Only ps s (t.flr f) ↔ Only ps s t :=
  only_step h (State.flr_frame t f)

theorem only_flushPort {p} (h : [.qos, .ctr] ⊆ ps) : Only ps s (t.flushPort p) ↔ Only ps s t :=
  only_step h (State.flushPort_frame t p)

theorem only_forwardRx {p} {b} {len} {room} {item} (h : [.host, .fwd, .qos, .pair, .ctr, .draws] ⊆ ps) :
    Only ps s (t.forwardRx p b len room item).1 ↔ Only ps s t :=
  only_step h (State.forwardRx_frame t p b len room item)

theorem only_frameBoundary {p} (h : [.host, .ports, .qos, .radio, .ctr] ⊆ ps) : Only ps s (t.frameBoundary p) ↔ Only ps s t :=
  only_step h (State.frameBoundary_frame t p)

theorem only_frameDecoded {r} {domain} {site} (h : [.host, .nv, .radio, .mesh, .pair, .ctr, .draws] ⊆ ps) :
    Only ps s (t.frameDecoded r domain site) ↔ Only ps s t :=
  only_step h (State.frameDecoded_frame t r domain site)

theorem only_frameDelay {site} {band} {antenna} {ns} (h : [.radio, .ctr] ⊆ ps) :
    Only ps s (t.frameDelay site band antenna ns) ↔ Only ps s t :=
  only_step h (State.frameDelay_frame t site band antenna ns)

theorem only_gauge {c} {v} (h : [.ctr] ⊆ ps) : Only ps s (t.gauge c v) ↔ Only ps s t :=
  only_step h (State.gauge_frame t c v)

theorem only_gaugeLearned {pipe} (h : [.ctr] ⊆ ps) : Only ps s (t.gaugeLearned pipe) ↔ Only ps s t :=
  only_step h (State.gaugeLearned_frame t pipe)

theorem only_generate {gen} (h : [.pair] ⊆ ps) : Only ps s (t.generate gen).2 ↔ Only ps s t :=
  only_step h (State.generate_frame t gen)

theorem only_goOnLoading {site} (h : [.qos, .radio, .ctr] ⊆ ps) : Only ps s (t.goOnLoading site) ↔ Only ps s t :=
  only_step h (State.goOnLoading_frame t site)

theorem only_hbmWarning {v} (h : [.host, .power] ⊆ ps) : Only ps s (t.hbmWarning v) ↔ Only ps s t :=
  only_step h (State.hbmWarning_frame t v)

theorem only_heardFrom {h_} {freq} {band} {lofdm} {heard} {under} (h : [.host, .nv, .radio, .mesh, .pair, .ctr, .draws] ⊆ ps) :
    Only ps s (t.heardFrom h_ freq band lofdm heard under) ↔ Only ps s t :=
  only_step h (State.heardFrom_frame t h_ freq band lofdm heard under)

theorem only_hold {join} {x2} (h : [.procs] ⊆ ps) : Only ps s (t.hold join x2) ↔ Only ps s t :=
  only_step h (State.hold_frame t join x2)

theorem only_idleDomain {d} (h : [.radio] ⊆ ps) : Only ps s (t.idleDomain d) ↔ Only ps s t :=
  only_step h (State.idleDomain_frame t d)

theorem only_inject {x1} (h : [.host, .fwd, .qos, .ctr, .draws] ⊆ ps) : Only ps s (t.inject x1) ↔ Only ps s t :=
  only_step h (State.inject_frame t x1)

theorem only_isolate {kind} {slice} {on} (h : [.ports] ⊆ ps) : Only ps s (t.isolate kind slice on) ↔ Only ps s t :=
  only_step h (State.isolate_frame t kind slice on)

theorem only_issue {d} {m} {i} {slot} {cell} {c} {t_} (h : [.host, .nv, .qos, .radio, .mesh, .pair, .ctr, .draws] ⊆ ps) :
    Only ps s (t.issue d m i slot cell c t_) ↔ Only ps s t :=
  only_step h (State.issue_frame t d m i slot cell c t_)

theorem only_joinRx {x1} (h : [.host, .nv, .radio, .mesh, .pair, .ctr, .draws] ⊆ ps) : Only ps s (t.joinRx x1) ↔ Only ps s t :=
  only_step h (State.joinRx_frame t x1)

theorem only_launchChoice {p} {at_} {express} (h : [.time, .qos] ⊆ ps) :
    Only ps s (t.launchChoice p at_ express).1 ↔ Only ps s t :=
  only_step h (State.launchChoice_frame t p at_ express)

theorem only_leave {site} {reason} (h : [.host, .ports, .radio, .ctr] ⊆ ps) : Only ps s (t.leave site reason) ↔ Only ps s t :=
  only_step h (State.leave_frame t site reason)

theorem only_leaveBoot (h : [.ms, .host, .ports, .radio, .pins, .pair, .svc, .trace, .ctr, .draws] ⊆ ps) :
    Only ps s t.leaveBoot ↔ Only ps s t :=
  only_step h (State.leaveBoot_frame t)

theorem only_levelFault {level} {action} {number} {cause} (h : [.host] ⊆ ps) :
    Only ps s (t.levelFault level action number cause) ↔ Only ps s t :=
  only_step h (State.levelFault_frame t level action number cause)

theorem only_loadFailed {site} {number} (h : [.host, .ports, .radio, .ctr] ⊆ ps) :
    Only ps s (t.loadFailed site number) ↔ Only ps s t :=
  only_step h (State.loadFailed_frame t site number)

theorem only_loadImage {d} {len} {dmaOk} {b} (h : [.host, .nv, .radio, .mesh, .pair, .ctr, .draws] ⊆ ps) :
    Only ps s (t.loadImage d len dmaOk b).1 ↔ Only ps s t :=
  only_step h (State.loadImage_frame t d len dmaOk b)

theorem only_lose10m (h : [.time, .pins] ⊆ ps) : Only ps s t.lose10m ↔ Only ps s t :=
  only_step h (State.lose10m_frame t)

theorem only_lostInSwap {reason} (h : [.ms, .host, .nv, .time, .ports, .qos, .radio, .mesh, .pins, .pair, .svc, .trace, .ctr,
    .draws] ⊆ ps) :
    Only ps s (t.lostInSwap reason) ↔ Only ps s t :=
  only_step h (State.lostInSwap_frame t reason)

theorem only_maintenance {pipe} (h : [.host, .fwd, .pair, .ctr] ⊆ ps) : Only ps s (t.maintenance pipe) ↔ Only ps s t :=
  only_step h (State.maintenance_frame t pipe)

theorem only_mapItem {id} {queues} {f} (h : [.qos, .ctr] ⊆ ps) : Only ps s (t.mapItem id queues f) ↔ Only ps s t :=
  only_step h (State.mapItem_frame t id queues f)

theorem only_masterSends {p} {c} {tb} (h : [.time, .qos, .pair, .ctr] ⊆ ps) : Only ps s (t.masterSends p c tb) ↔ Only ps s t :=
  only_step h (State.masterSends_frame t p c tb)

theorem only_mboxError {f} {g} (h : [.host] ⊆ ps) : Only ps s (t.mboxError f g) ↔ Only ps s t :=
  only_step h (State.mboxError_frame t f g)

theorem only_meshAlarm {d} {type} {body} (h : [.host, .ctr] ⊆ ps) : Only ps s (t.meshAlarm d type body) ↔ Only ps s t :=
  only_step h (State.meshAlarm_frame t d type body)

theorem only_modBase {b} {f} (h : [.time] ⊆ ps) : Only ps s (t.modBase b f) ↔ Only ps s t :=
  only_step h (State.modBase_frame t b f)

theorem only_modBoot {bank} {f} (h : [.nv] ⊆ ps) : Only ps s (t.modBoot bank f) ↔ Only ps s t :=
  only_step h (State.modBoot_frame t bank f)

theorem only_modCage {c} {f} (h : [.ports] ⊆ ps) : Only ps s (t.modCage c f) ↔ Only ps s t :=
  only_step h (State.modCage_frame t c f)

theorem only_modDomain {d} {f} (h : [.radio] ⊆ ps) : Only ps s (t.modDomain d f) ↔ Only ps s t :=
  only_step h (State.modDomain_frame t d f)

theorem only_modFlash {bank} {f} (h : [.nv] ⊆ ps) : Only ps s (t.modFlash bank f) ↔ Only ps s t :=
  only_step h (State.modFlash_frame t bank f)

theorem only_modInj {f} {n} {g} (h : [.host] ⊆ ps) : Only ps s (t.modInj f n g) ↔ Only ps s t :=
  only_step h (State.modInj_frame t f n g)

theorem only_modMbox {f} {g} (h : [.host] ⊆ ps) : Only ps s (t.modMbox f g) ↔ Only ps s t :=
  only_step h (State.modMbox_frame t f g)

theorem only_modPair {f} (h : [.pair] ⊆ ps) : Only ps s (t.modPair f) ↔ Only ps s t :=
  only_step h (State.modPair_frame t f)

theorem only_modPort {p} {f} (h : [.ports] ⊆ ps) : Only ps s (t.modPort p f) ↔ Only ps s t :=
  only_step h (State.modPort_frame t p f)

theorem only_modPtpPort {p} {f} (h : [.time] ⊆ ps) : Only ps s (t.modPtpPort p f) ↔ Only ps s t :=
  only_step h (State.modPtpPort_frame t p f)

theorem only_modPunt {f} {n} {g} (h : [.host] ⊆ ps) : Only ps s (t.modPunt f n g) ↔ Only ps s t :=
  only_step h (State.modPunt_frame t f n g)

theorem only_modRtc {f} (h : [.time] ⊆ ps) : Only ps s (t.modRtc f) ↔ Only ps s t :=
  only_step h (State.modRtc_frame t f)

theorem only_modSched {p} {f} (h : [.qos] ⊆ ps) : Only ps s (t.modSched p f) ↔ Only ps s t :=
  only_step h (State.modSched_frame t p f)

theorem only_modSite {n} {f} (h : [.radio] ⊆ ps) : Only ps s (t.modSite n f) ↔ Only ps s t :=
  only_step h (State.modSite_frame t n f)

theorem only_modTagged {f} {tag} {g} (h : [.pair] ⊆ ps) : Only ps s (t.modTagged f tag g) ↔ Only ps s t :=
  only_step h (State.modTagged_frame t f tag g)

theorem only_moduleUp {c} (h : [.ports] ⊆ ps) : Only ps s (t.moduleUp c) ↔ Only ps s t :=
  only_step h (State.moduleUp_frame t c)

theorem only_newId (h : [.qos] ⊆ ps) : Only ps s t.newId.2 ↔ Only ps s t :=
  only_step h (State.newId_frame t)

theorem only_outcome {result} {slice} {ports} (h : [.ms, .host, .ports, .fwd, .qos, .radio, .pins, .pair, .svc, .trace, .ctr,
    .draws] ⊆ ps) :
    Only ps s (t.outcome result slice ports) ↔ Only ps s t :=
  only_step h (State.outcome_frame t result slice ports)

theorem only_pairDown (h : [.ms, .host, .nv, .time, .ports, .qos, .radio, .mesh, .pins, .pair, .svc, .trace, .ctr, .draws] ⊆ ps) :
    Only ps s t.pairDown ↔ Only ps s t :=
  only_step h (State.pairDown_frame t)

theorem only_pairEntry {type} {reason} {b19} {w20} {value} (h : [.host] ⊆ ps) :
    Only ps s (t.pairEntry type reason b19 w20 value) ↔ Only ps s t :=
  only_step h (State.pairEntry_frame t type reason b19 w20 value)

theorem only_pairSend {m} (h : [.pair] ⊆ ps) : Only ps s (t.pairSend m) ↔ Only ps s t :=
  only_step h (State.pairSend_frame t m)

theorem only_partnerLost {reason} (h : [.ms, .host, .ports, .radio, .pins, .pair, .svc, .trace, .ctr, .draws] ⊆ ps) :
    Only ps s (t.partnerLost reason) ↔ Only ps s t :=
  only_step h (State.partnerLost_frame t reason)

theorem only_peerState {mode} {synced} (h : [.ms, .host, .nv, .time, .ports, .qos, .radio, .mesh, .pins, .pair, .svc, .trace,
    .ctr, .draws] ⊆ ps) :
    Only ps s (t.peerState mode synced) ↔ Only ps s t :=
  only_step h (State.peerState_frame t mode synced)

theorem only_pick {p} (h : [.qos] ⊆ ps) : Only ps s (t.pick p).1 ↔ Only ps s t :=
  only_step h (State.pick_frame t p)

theorem only_placeCopy {f} {c} {copy} (h : [.radio] ⊆ ps) : Only ps s (t.placeCopy f c copy) ↔ Only ps s t :=
  only_step h (State.placeCopy_frame t f c copy)

theorem only_portEvent {type} {port} {cage} {reason} {detail} (h : [.host] ⊆ ps) :
    Only ps s (t.portEvent type port cage reason detail) ↔ Only ps s t :=
  only_step h (State.portEvent_frame t type port cage reason detail)

theorem only_powerUp (h : everything ⊆ ps) : Only ps s t.powerUp ↔ Only ps s t :=
  only_step h (State.powerUp_pending t)

theorem only_processHeld {p} (h : [.host, .nv, .procs, .radio, .mesh, .pair, .ctr, .draws] ⊆ ps) :
    Only ps s (t.processHeld p) ↔ Only ps s t :=
  only_step h (State.processHeld_frame t p)

theorem only_processorFails {p} (h : everything ⊆ ps) : Only ps s (t.processorFails p) ↔ Only ps s t :=
  only_step h (State.processorFails_pending t p)

theorem only_programBlock {x1} {data} (h : [.nv, .pair, .svc, .ctr] ⊆ ps) : Only ps s (t.programBlock x1 data) ↔ Only ps s t :=
  only_step h (State.programBlock_frame t x1 data)

theorem only_ptpRoles {n} (h : [.time] ⊆ ps) : Only ps s (t.ptpRoles n) ↔ Only ps s t :=
  only_step h (State.ptpRoles_frame t n)

theorem only_ptpSend {p} {c} {m} (h : [.time, .qos, .pair, .ctr] ⊆ ps) : Only ps s (t.ptpSend p c m) ↔ Only ps s t :=
  only_step h (State.ptpSend_frame t p c m)

theorem only_putWord {site} {word} (h : [.qos, .radio, .ctr] ⊆ ps) : Only ps s (t.putWord site word).1 ↔ Only ps s t :=
  only_step h (State.putWord_frame t site word)

theorem only_raise {f} {v} (h : [.host] ⊆ ps) : Only ps s (t.raise f v) ↔ Only ps s t :=
  only_step h (State.raise_frame t f v)

theorem only_reads {v} (h : [.host] ⊆ ps) : Only ps s (t.reads v) ↔ Only ps s t :=
  only_step h (State.reads_frame t v)

theorem only_receive {release} {r} (h : [.ms, .host, .pair] ⊆ ps) : Only ps s (t.receive release r) ↔ Only ps s t :=
  only_step h (State.receive_frame t release r)

theorem only_recoverBus {bus} {sda} (h : [.host, .ports, .radio, .pins, .ctr] ⊆ ps) :
    Only ps s (t.recoverBus bus sda) ↔ Only ps s t :=
  only_step h (State.recoverBus_frame t bus sda)

theorem only_reinit {kind} {slice} (h : [.fwd, .mesh, .ctr] ⊆ ps) : Only ps s (t.reinit kind slice) ↔ Only ps s t :=
  only_step h (State.reinit_frame t kind slice)

theorem only_releaseDue (h : [.ms, .host, .cfg, .nv, .time, .ports, .fwd, .qos, .radio, .mesh, .pins, .pair, .svc, .bist,
    .trace, .ctr, .draws] ⊆ ps) :
    Only ps s t.releaseDue ↔ Only ps s t :=
  only_step h (State.releaseDue_frame t)

theorem only_releaseGains {r} (h : [.radio] ⊆ ps) : Only ps s (t.releaseGains r) ↔ Only ps s t :=
  only_step h (State.releaseGains_frame t r)

theorem only_remapNode {h_} (h : [.host, .nv, .radio, .mesh, .pair, .ctr, .draws] ⊆ ps) :
    Only ps s (t.remapNode h_) ↔ Only ps s t :=
  only_step h (State.remapNode_frame t h_)

theorem only_removeNode {h_} {value} (h : [.host, .radio, .mesh, .pair, .ctr] ⊆ ps) :
    Only ps s (t.removeNode h_ value) ↔ Only ps s t :=
  only_step h (State.removeNode_frame t h_ value)

theorem only_resumeNodes (h : [.nv, .mesh] ⊆ ps) : Only ps s t.resumeNodes ↔ Only ps s t :=
  only_step h (State.resumeNodes_frame t)

theorem only_ringCmd {f} {n} (h : [.host] ⊆ ps) : Only ps s (t.ringCmd f n) ↔ Only ps s t :=
  only_step h (State.ringCmd_frame t f n)

theorem only_ringInj {f} {n} {c} (h : [.host] ⊆ ps) : Only ps s (t.ringInj f n c) ↔ Only ps s t :=
  only_step h (State.ringInj_frame t f n c)

theorem only_ringPunt {f} {n} {c} (h : [.host] ⊆ ps) : Only ps s (t.ringPunt f n c) ↔ Only ps s t :=
  only_step h (State.ringPunt_frame t f n c)

theorem only_ringRsp {f} {n} (h : [.host] ⊆ ps) : Only ps s (t.ringRsp f n) ↔ Only ps s t :=
  only_step h (State.ringRsp_frame t f n)

theorem only_sampleDue {i} {period} {body} {type} (h : [.trace, .ctr] ⊆ ps) :
    Only ps s (t.sampleDue i period body type) ↔ Only ps s t :=
  only_step h (State.sampleDue_frame t i period body type)

theorem only_securedRx {x1} (h : [.host, .nv, .procs, .fwd, .qos, .radio, .mesh, .pair, .ctr, .draws] ⊆ ps) :
    Only ps s (t.securedRx x1) ↔ Only ps s t :=
  only_step h (State.securedRx_frame t x1)

theorem only_securityEntry {type} {slot} {kind} {owner} {value} {flags} (h : [.host] ⊆ ps) :
    Only ps s (t.securityEntry type slot kind owner value flags) ↔ Only ps s t :=
  only_step h (State.securityEntry_frame t type slot kind owner value flags)

theorem only_sees10m {tb} {x2} (h : [.time, .pins] ⊆ ps) : Only ps s (t.sees10m tb x2) ↔ Only ps s t :=
  only_step h (State.sees10m_frame t tb x2)

theorem only_selectSources (h : [.time] ⊆ ps) : Only ps s t.selectSources ↔ Only ps s t :=
  only_step h (State.selectSources_frame t)

theorem only_selfCheck {e} {p} {tell} (h : [.ms, .host, .ports, .radio, .pins, .pair, .svc, .trace, .ctr, .draws] ⊆ ps) :
    Only ps s (t.selfCheck e p tell) ↔ Only ps s t :=
  only_step h (State.selfCheck_frame t e p tell)

theorem only_sendAck {x1} (h : [.svc, .ctr, .draws] ⊆ ps) : Only ps s (t.sendAck x1) ↔ Only ps s t :=
  only_step h (State.sendAck_frame t x1)

theorem only_sendConfig (h : [.pair, .draws] ⊆ ps) : Only ps s t.sendConfig ↔ Only ps s t :=
  only_step h (State.sendConfig_frame t)

theorem only_sendDcw {site} {op} {band} {act} {ack} {body} (h : [.qos, .radio, .ctr] ⊆ ps) :
    Only ps s (t.sendDcw site op band act ack body).1 ↔ Only ps s t :=
  only_step h (State.sendDcw_frame t site op band act ack body)

theorem only_sendGain {site} {n2} {gain} {timed} (h : [.qos, .radio, .ctr] ⊆ ps) :
    Only ps s (t.sendGain site n2 gain timed) ↔ Only ps s t :=
  only_step h (State.sendGain_frame t site n2 gain timed)

theorem only_sendOpenAck {x1} (h : [.svc, .ctr, .draws] ⊆ ps) : Only ps s (t.sendOpenAck x1) ↔ Only ps s t :=
  only_step h (State.sendOpenAck_frame t x1)

theorem only_sendSync {p} {c} {tb} (h : [.time, .qos, .pair, .ctr] ⊆ ps) : Only ps s (t.sendSync p c tb) ↔ Only ps s t :=
  only_step h (State.sendSync_frame t p c tb)

theorem only_setActive (h : [.pins] ⊆ ps) : Only ps s t.setActive ↔ Only ps s t :=
  only_step h (State.setActive_frame t)

theorem only_setAlive (h : [.pins] ⊆ ps) : Only ps s t.setAlive ↔ Only ps s t :=
  only_step h (State.setAlive_frame t)

theorem only_setBaseState {tb} {n} (h : [.host, .time] ⊆ ps) : Only ps s (t.setBaseState tb n) ↔ Only ps s t :=
  only_step h (State.setBaseState_frame t tb n)

theorem only_setDriving (h : [.host, .ports, .radio, .pins, .ctr, .draws] ⊆ ps) : Only ps s t.setDriving ↔ Only ps s t :=
  only_step h (State.setDriving_frame t)

theorem only_setItems {q} {l_} (h : [.qos] ⊆ ps) : Only ps s (t.setItems q l_) ↔ Only ps s t :=
  only_step h (State.setItems_frame t q l_)

theorem only_setRecv {r} (h : [.radio] ⊆ ps) : Only ps s (t.setRecv r) ↔ Only ps s t :=
  only_step h (State.setRecv_frame t r)

theorem only_setRings (h : [.ports, .pins] ⊆ ps) : Only ps s t.setRings ↔ Only ps s t :=
  only_step h (State.setRings_frame t)

theorem only_setSession {x1} (h : [.svc] ⊆ ps) : Only ps s (t.setSession x1) ↔ Only ps s t :=
  only_step h (State.setSession_frame t x1)

theorem only_setSynced (h : [.ms, .host, .pair] ⊆ ps) : Only ps s t.setSynced ↔ Only ps s t :=
  only_step h (State.setSynced_frame t)

theorem only_setWell {w} {x2} (h : [.host] ⊆ ps) : Only ps s (t.setWell w x2) ↔ Only ps s t :=
  only_step h (State.setWell_frame t w x2)

theorem only_settle {q} (h : [.qos, .ctr] ⊆ ps) : Only ps s (t.settle q) ↔ Only ps s t :=
  only_step h (State.settle_frame t q)

theorem only_settleCheck (h : [.ms, .host, .ports, .fwd, .qos, .radio, .pins, .pair, .svc, .trace, .ctr, .draws] ⊆ ps) :
    Only ps s t.settleCheck ↔ Only ps s t :=
  only_step h (State.settleCheck_frame t)

theorem only_settleFinals (h : [.ms, .host, .radio, .pair, .ctr, .draws] ⊆ ps) : Only ps s t.settleFinals ↔ Only ps s t :=
  only_step h (State.settleFinals_frame t)

theorem only_settleFrame {d} {h_} {id} {ok} (h : [.host, .radio, .mesh, .pair, .ctr] ⊆ ps) :
    Only ps s (t.settleFrame d h_ id ok) ↔ Only ps s t :=
  only_step h (State.settleFrame_frame t d h_ id ok)

theorem only_settleKeys {old} (h : [.host, .radio, .mesh, .pair, .ctr] ⊆ ps) :
    Only ps s (State.settleKeys old t) ↔ Only ps s t :=
  only_step h (State.settleKeys_frame old t)

theorem only_settleRecv {r} (h : [.radio] ⊆ ps) : Only ps s (t.settleRecv r) ↔ Only ps s t :=
  only_step h (State.settleRecv_frame t r)

theorem only_siteEvent {type} {site} {band} {reason} {channel} {value} (h : [.host] ⊆ ps) :
    Only ps s (t.siteEvent type site band reason channel value) ↔ Only ps s t :=
  only_step h (State.siteEvent_frame t type site band reason channel value)

theorem only_siteFault {site} {number} (h : [.host, .radio] ⊆ ps) : Only ps s (t.siteFault site number) ↔ Only ps s t :=
  only_step h (State.siteFault_frame t site number)

theorem only_siteUnlocked {site} (h : [.host, .radio] ⊆ ps) : Only ps s (t.siteUnlocked site) ↔ Only ps s t :=
  only_step h (State.siteUnlocked_frame t site)

theorem only_split {p} (h : [.qos, .ctr] ⊆ ps) : Only ps s (t.split p) ↔ Only ps s t :=
  only_step h (State.split_frame t p)

theorem only_startFrame {q} {i} {ecc} (h : [.host, .ports, .qos, .pair, .ctr] ⊆ ps) :
    Only ps s (t.startFrame q i ecc) ↔ Only ps s t :=
  only_step h (State.startFrame_frame t q i ecc)

theorem only_startSync (h : [.pair] ⊆ ps) : Only ps s t.startSync ↔ Only ps s t :=
  only_step h (State.startSync_frame t)

theorem only_supplied {vbat} {io18} {io33} (h : [.ms, .time, .pins, .power] ⊆ ps) :
    Only ps s (t.supplied vbat io18 io33) ↔ Only ps s t :=
  only_step h (State.supplied_frame t vbat io18 io33)

theorem only_svcArrives (h : [.svc, .ctr] ⊆ ps) : Only ps s t.svcArrives ↔ Only ps s t :=
  only_step h (State.svcArrives_frame t)

theorem only_svcAuthFail (h : [.ctr] ⊆ ps) : Only ps s t.svcAuthFail ↔ Only ps s t :=
  only_step h (State.svcAuthFail_frame t)

theorem only_svcSend {x1} {op} {block} {body} (h : [.svc, .ctr, .draws] ⊆ ps) :
    Only ps s (t.svcSend x1 op block body) ↔ Only ps s t :=
  only_step h (State.svcSend_frame t x1 op block body)

theorem only_switchRings (h : [.ports, .pins, .ctr, .draws] ⊆ ps) : Only ps s t.switchRings ↔ Only ps s t :=
  only_step h (State.switchRings_frame t)

theorem only_syncDone {n} {p} {origin} (h : [.time, .qos, .pair, .ctr] ⊆ ps) :
    Only ps s (t.syncDone n p origin) ↔ Only ps s t :=
  only_step h (State.syncDone_frame t n p origin)

theorem only_syncRx {n} {p} {m} (h : [.time, .qos, .pair, .ctr] ⊆ ps) : Only ps s (t.syncRx n p m) ↔ Only ps s t :=
  only_step h (State.syncRx_frame t n p m)

theorem only_take (h : [.snap, .ctr] ⊆ ps) : Only ps s t.take ↔ Only ps s t :=
  only_step h (State.take_frame t)

theorem only_takeDecoded {x1} (h : [.radio] ⊆ ps) : Only ps s (t.takeDecoded x1) ↔ Only ps s t :=
  only_step h (State.takeDecoded_frame t x1)

theorem only_takeDesc {f} (h : [.host] ⊆ ps) : Only ps s (t.takeDesc f) ↔ Only ps s t :=
  only_step h (State.takeDesc_frame t f)

theorem only_takeDown {p} {reason} (h : [.host, .ports, .radio, .ctr] ⊆ ps) : Only ps s (t.takeDown p reason) ↔ Only ps s t :=
  only_step h (State.takeDown_frame t p reason)

theorem only_takeOver (h : [.ms, .host, .nv, .time, .ports, .qos, .radio, .mesh, .pins, .pair, .svc, .trace, .ctr, .draws] ⊆ ps) :
    Only ps s t.takeOver ↔ Only ps s t :=
  only_step h (State.takeOver_frame t)

theorem only_takeSample {tb} {theta} (h : [.host, .time, .qos, .radio, .pair, .ctr, .draws] ⊆ ps) :
    Only ps s (t.takeSample tb theta) ↔ Only ps s t :=
  only_step h (State.takeSample_frame t tb theta)

theorem only_tellEntries (h : [.ms, .host] ⊆ ps) : Only ps s t.tellEntries ↔ Only ps s t :=
  only_step h (State.tellEntries_frame t)

theorem only_tellKeys (h : [.host, .nv, .radio, .mesh, .pair, .ctr] ⊆ ps) : Only ps s t.tellKeys ↔ Only ps s t :=
  only_step h (State.tellKeys_frame t)

theorem only_tellRails (h : [.host] ⊆ ps) : Only ps s t.tellRails ↔ Only ps s t :=
  only_step h (State.tellRails_frame t)

theorem only_tellSlices (h : [.ms, .host, .radio, .draws] ⊆ ps) : Only ps s t.tellSlices ↔ Only ps s t :=
  only_step h (State.tellSlices_frame t)

theorem only_tileLost {tile} (h : [.host, .ports, .radio, .pins, .ctr] ⊆ ps) : Only ps s (t.tileLost tile) ↔ Only ps s t :=
  only_step h (State.tileLost_frame t tile)

theorem only_timeEvent {type} {tb} {body} (h : [.host] ⊆ ps) : Only ps s (t.timeEvent type tb body) ↔ Only ps s t :=
  only_step h (State.timeEvent_frame t type tb body)

theorem only_toSolo {t_} (h : [.ms, .host, .ports, .radio, .pins, .pair, .svc, .trace, .ctr, .draws] ⊆ ps) :
    Only ps s (t.toSolo t_) ↔ Only ps s t :=
  only_step h (State.toSolo_frame t t_)

theorem only_toStandby {t_} (h : [.ms, .host, .ports, .radio, .pins, .pair, .svc, .trace, .ctr, .draws] ⊆ ps) :
    Only ps s (t.toStandby t_) ↔ Only ps s t :=
  only_step h (State.toStandby_frame t t_)

theorem only_tookBorder {d} {packet} (h : [.fwd] ⊆ ps) : Only ps s (t.tookBorder d packet) ↔ Only ps s t :=
  only_step h (State.tookBorder_frame t d packet)

theorem only_traceSlot {d} {slotIn} {traps} (h : [.trace, .ctr, .draws] ⊆ ps) :
    Only ps s (t.traceSlot d slotIn traps) ↔ Only ps s t :=
  only_step h (State.traceSlot_frame t d slotIn traps)

theorem only_unmask {f} {v} (h : [.host] ⊆ ps) : Only ps s (t.unmask f v) ↔ Only ps s t :=
  only_step h (State.unmask_frame t f v)

theorem only_updateEntry {type} {n2} {b} {value} (h : [.host] ⊆ ps) : Only ps s (t.updateEntry type n2 b value) ↔ Only ps s t :=
  only_step h (State.updateEntry_frame t type n2 b value)

theorem only_writeDrain {w} {word} (h : [.host] ⊆ ps) : Only ps s (t.writeDrain w word) ↔ Only ps s t :=
  only_step h (State.writeDrain_frame t w word)

theorem only_writeMboxCtrl {f} {word} (h : [.host] ⊆ ps) : Only ps s (t.writeMboxCtrl f word) ↔ Only ps s t :=
  only_step h (State.writeMboxCtrl_frame t f word)

theorem only_writeModeReq {word} (h : everything ⊆ ps) : Only ps s (t.writeModeReq word) ↔ Only ps s t :=
  only_step h (State.writeModeReq_pending t word)

theorem only_writePaced {p} {n} (h : [.host] ⊆ ps) : Only ps s (t.writePaced p n) ↔ Only ps s t :=
  only_step h (State.writePaced_frame t p n)

theorem only_writeReg {f} {bar} {off} {v} (h : everything ⊆ ps) : Only ps s (t.writeReg f bar off v) ↔ Only ps s t :=
  only_step h (State.writeReg_pending t f bar off v)

theorem only_writeResponse {f} {tag} {y} (h : [.host] ⊆ ps) : Only ps s (t.writeResponse f tag y) ↔ Only ps s t :=
  only_step h (State.writeResponse_frame t f tag y)

theorem only_writeRtcCtrl {word} (h : [.time] ⊆ ps) : Only ps s (t.writeRtcCtrl word) ↔ Only ps s t :=
  only_step h (State.writeRtcCtrl_frame t word)

theorem only_writeSnapCtrl {word} (h : [.snap, .ctr] ⊆ ps) : Only ps s (t.writeSnapCtrl word) ↔ Only ps s t :=
  only_step h (State.writeSnapCtrl_frame t word)

theorem only_writeWellCtrl {w} {word} (h : [.host] ⊆ ps) : Only ps s (t.writeWellCtrl w word) ↔ Only ps s t :=
  only_step h (State.writeWellCtrl_frame t w word)

theorem only_ms_update {x} (h : [.ms] ⊆ ps) : Only ps s { t with ms := x } ↔ Only ps s t :=
  only_step h (by and_intros <;> rfl)

theorem only_host_update {x} (h : [.host] ⊆ ps) : Only ps s { t with host := x } ↔ Only ps s t :=
  only_step h (by and_intros <;> rfl)

theorem only_nv_update {x} (h : [.nv] ⊆ ps) : Only ps s { t with nv := x } ↔ Only ps s t :=
  only_step h (by and_intros <;> rfl)

theorem only_procs_update {x} (h : [.procs] ⊆ ps) : Only ps s { t with procs := x } ↔ Only ps s t :=
  only_step h (by and_intros <;> rfl)

theorem only_time_update {x} (h : [.time] ⊆ ps) : Only ps s { t with time := x } ↔ Only ps s t :=
  only_step h (by and_intros <;> rfl)

theorem only_ports_update {x} (h : [.ports] ⊆ ps) : Only ps s { t with ports := x } ↔ Only ps s t :=
  only_step h (by and_intros <;> rfl)

theorem only_fwd_update {x} (h : [.fwd] ⊆ ps) : Only ps s { t with fwd := x } ↔ Only ps s t :=
  only_step h (by and_intros <;> rfl)

theorem only_qos_update {x} (h : [.qos] ⊆ ps) : Only ps s { t with qos := x } ↔ Only ps s t :=
  only_step h (by and_intros <;> rfl)

theorem only_mesh_update {x} (h : [.mesh] ⊆ ps) : Only ps s { t with mesh := x } ↔ Only ps s t :=
  only_step h (by and_intros <;> rfl)

theorem only_pins_update {x} (h : [.pins] ⊆ ps) : Only ps s { t with pins := x } ↔ Only ps s t :=
  only_step h (by and_intros <;> rfl)

theorem only_power_update {x} (h : [.power] ⊆ ps) : Only ps s { t with power := x } ↔ Only ps s t :=
  only_step h (by and_intros <;> rfl)

theorem only_jtag_update {x} (h : [.jtag] ⊆ ps) : Only ps s { t with jtag := x } ↔ Only ps s t :=
  only_step h (by and_intros <;> rfl)

theorem only_svc_update {x} (h : [.svc] ⊆ ps) : Only ps s { t with svc := x } ↔ Only ps s t :=
  only_step h (by and_intros <;> rfl)

theorem only_snap_update {x} (h : [.snap] ⊆ ps) : Only ps s { t with snap := x } ↔ Only ps s t :=
  only_step h (by and_intros <;> rfl)

theorem only_bist_update {x} (h : [.bist] ⊆ ps) : Only ps s { t with bist := x } ↔ Only ps s t :=
  only_step h (by and_intros <;> rfl)

theorem only_trace_update {x} (h : [.trace] ⊆ ps) : Only ps s { t with trace := x } ↔ Only ps s t :=
  only_step h (by and_intros <;> rfl)

theorem only_jtag_host_update {x} {y} (h : [.jtag, .host] ⊆ ps) : Only ps s { t with jtag := x, host := y } ↔ Only ps s t :=
  only_step h (by and_intros <;> rfl)

theorem only_ms_pins_nv_update {x} {y} {z} (h : [.ms, .pins, .nv] ⊆ ps) :
    Only ps s { t with ms := x, pins := y, nv := z } ↔ Only ps s t :=
  only_step h (by and_intros <;> rfl)

theorem only_procs_ms_update {x} {y} (h : [.procs, .ms] ⊆ ps) : Only ps s { t with procs := x, ms := y } ↔ Only ps s t :=
  only_step h (by and_intros <;> rfl)

theorem only_nv_cfg_ms_update {x} {y} {z} (h : [.nv, .cfg, .ms] ⊆ ps) :
    Only ps s { t with nv := x, cfg := y, ms := z } ↔ Only ps s t :=
  only_step h (by and_intros <;> rfl)

theorem only_ms_nv_update {x} {y} (h : [.ms, .nv] ⊆ ps) : Only ps s { t with ms := x, nv := y } ↔ Only ps s t :=
  only_step h (by and_intros <;> rfl)

theorem only_pins_time_update {x} {y} (h : [.pins, .time] ⊆ ps) : Only ps s { t with pins := x, time := y } ↔ Only ps s t :=
  only_step h (by and_intros <;> rfl)

theorem only_radio_bist_update {x} {y} (h : [.radio, .bist] ⊆ ps) : Only ps s { t with radio := x, bist := y } ↔ Only ps s t :=
  only_step h (by and_intros <;> rfl)

theorem only_mesh_radio_update {x} {y} (h : [.mesh, .radio] ⊆ ps) : Only ps s { t with mesh := x, radio := y } ↔ Only ps s t :=
  only_step h (by and_intros <;> rfl)

theorem only_power_pins_update {x} {y} (h : [.power, .pins] ⊆ ps) : Only ps s { t with power := x, pins := y } ↔ Only ps s t :=
  only_step h (by and_intros <;> rfl)

theorem only_foldl {α : Type} {g : State → α → State} {es : List α} (h : ∀ t e, Only ps t (g t e)) :
    Only ps s (es.foldl g t) ↔ Only ps s t :=
  only_iff_of_kept (Only.foldl h es t)

/-- A measurement is carried to the partner, left out, or acted on at once. -/
theorem only_measure {m} {act : State → State} (hact : ∀ t, Only ps t (act t)) (h : [.pair] ⊆ ps) :
    Only ps s (t.measure m act) ↔ Only ps s t := by
  refine only_iff_of_kept ?_
  unfold State.measure
  split
  · exact (only_carry h).2 (Only.refl ps t)
  · exact only_ite.2 (by split; exacts [Only.refl ps t, hact t])

/-- A word of a PRU is acted on or discarded, and answered either way. -/
theorem only_takeWord {site op len word clean} {act : State → Bytes → State} (hact : ∀ t b, Only ps t (act t b))
    (h : [.qos, .radio, .ctr] ⊆ ps) : Only ps s (t.takeWord site op len word clean act) ↔ Only ps s t := by
  refine only_iff_of_kept ?_
  unfold State.takeWord
  split
  next b _ =>
    rw [only_ite, only_dcwAnswer h, only_dcwAnswer h]
    split
    exacts [hact t b, Only.refl ps t]
  next => exact (only_dcwAnswer h).2 (Only.refl ps t)

end Operations

end Sys2Proof.Claims
/-! ### Register writes by access code -/

namespace Sys2Proof.Machine

theorem clampNat_mem (lo hi : Nat) (h : lo ≤ hi) (v : Nat) : lo ≤ clampNat lo hi v ∧ clampNat lo hi v ≤ hi := by
  unfold clampNat
  split
  · omega
  · split <;> omega

theorem clampNat_of_mem {lo hi v : Nat} (hlo : lo ≤ v) (hhi : v ≤ hi) : clampNat lo hi v = v := by
  unfold clampNat
  rw [if_neg (by omega), if_neg (by omega)]

/-- A write of another width or alignment is discarded (R68). -/
theorem exec_registerWrite_of_misfit (s : State) (f : Fin 17) (bar : Fin 4) (off v : BitVec 32) {w : Fin 9}
    (h : w.val ≠ 4 ∨ off.toNat % 4 ≠ 0) : exec (.registerWrite f bar off w v) s = .next s := by
  have hmisfit : ¬(s.answers && w.val == 4 && off.toNat % 4 == 0) = true := by
    simp only [Bool.and_eq_true, beq_iff_eq]
    omega
  exact congrArg Host.Outcome.next (if_neg hmisfit)

/-- An aligned word written through BAR0 of PF0 reaches the block at its offset (R68, R69). -/
theorem exec_registerWrite_pf0 {s : State} (hs : s.answers = true) (off v : BitVec 32) (h : off.toNat % 4 = 0) :
    exec (.registerWrite 0 0 off 4 v) s = .next (s.writePf0 off.toNat v.toNat) := by
  have hfits : (s.answers && true && off.toNat % 4 == 0) = true := by simp [hs, h]
  exact congrArg Host.Outcome.next (if_pos hfits)

theorem State.writePf0_mode (s : State) (off : Nat) (h : off < 0x1000) (v : Nat) :
    s.writePf0 (0x1000 + off) v = s.writeMode off v := by
  rw [State.writePf0, if_pos (by omega), Nat.add_sub_cancel_left]

theorem State.writePf0_pair (s : State) (off : Nat) (h : off < 0x1000) (v : Nat) :
    s.writePf0 (0x2000 + off) v = s.writePair off v := by
  rw [State.writePf0, if_neg (by omega), if_pos (by omega), Nat.add_sub_cancel_left]

theorem State.writePf0_power (s : State) (off : Nat) (h : off < 0x1000) (v : Nat) :
    s.writePf0 (0x4000 + off) v = { s with power := s.power.write off v } := by
  rw [State.writePf0, if_neg (by omega), if_neg (by omega), if_neg (by omega), if_pos (by omega), Nat.add_sub_cancel_left]

end Sys2Proof.Machine

namespace Sys2Proof.Claims

open Machine

/-- What is shown of the state that a command answers holds of the state it is known to answer. -/
theorem gives_of_next {c : Instr} {s t : State} {P : State → Prop} (h : exec c s = .next t) (ht : P t) : Gives c s P :=
  ⟨t, h, ht⟩

end Sys2Proof.Claims

section
open Sys2Proof Sys2Proof.Machine Sys2Proof.Claims

/-- Settles O6: each register is met in its block, and the block's equation says what the write does. -/
theorem registerWriteActsByAccessCode : Obligations.RegisterWriteActsByAccessCode := by
  intro s v hs
  have pf0 (off : BitVec 32) (h : off.toNat % 4 = 0) := exec_registerWrite_pf0 hs off v h
  refine ⟨fun f bar off w h => exec_registerWrite_of_misfit s f bar off v h, ?_, ?_, ?_, ?_, ?_⟩
  · exact (pf0 0x1000 rfl).trans (congrArg _ (s.writePf0_mode 0 (by omega) _))
  · exact (pf0 0x100C rfl).trans (congrArg _ (s.writePf0_mode 0x00C (by omega) _))
  · exact (pf0 0x4004 rfl).trans (congrArg _ (s.writePf0_power 0x004 (by omega) _))
  · have hwrite := (pf0 0x4018 rfl).trans (congrArg _ (s.writePf0_power 0x018 (by omega) _))
    have hwarn := clampNat_mem 60 120 (by omega) (bits v.toNat 0 8)
    have hhbm := clampNat_mem 60 95 (by omega) (bits v.toNat 8 8)
    have hpower (p : Power) : Only [.power] s { s with power := p } := (only_power_update (by decide)).2 (Only.refl _ s)
    exact gives_of_next hwrite ⟨hwarn.1, hwarn.2, hhbm.1, hhbm.2, clampNat_of_mem, hpower _⟩
  · have hwrite := (pf0 0x2020 rfl).trans (congrArg _ (s.writePf0_pair 0x020 (by omega) _))
    have hpair (f : Pair → Pair) : Only [.pair] s (s.modPair f) := (only_modPair (by decide)).2 (Only.refl _ s)
    exact gives_of_next hwrite ⟨hpair _, rfl, rfl, rfl, rfl⟩

end

/-! ### Commands of the catalogue -/

namespace Sys2Proof.Claims

open Machine

/-- A command of the mailbox keeps each part that its effect keeps, but for the mailbox, the staged commits and the pair link,
    which
reading, carrying and answering it touch. -/
theorem aciExec_only (k : AciSpec) (a : Aci) (s : State) {l : List Part} (hl : [.host, .nv, .pair] ⊆ l)
    (h : ∀ r s, Only l s (k.effect r s).1) : Only l s (k.exec a s) := by
  intro p hp
  have heffect (r : Req) (s : State) : p.same s (k.effect r s).1 := h r s p hp
  cases p
  case host | nv | pair => exact absurd (hl (by decide)) hp
  case ms => exact AciSpec.exec_ms k a s heffect
  case cfg => exact AciSpec.exec_cfg k a s heffect
  case procs => exact AciSpec.exec_procs k a s heffect
  case time => exact AciSpec.exec_time k a s heffect
  case ports => exact AciSpec.exec_ports k a s heffect
  case fwd => exact AciSpec.exec_fwd k a s heffect
  case qos => exact AciSpec.exec_qos k a s heffect
  case radio => exact AciSpec.exec_radio k a s heffect
  case mesh => exact AciSpec.exec_mesh k a s heffect
  case pins => exact AciSpec.exec_pins k a s heffect
  case power => exact AciSpec.exec_power k a s heffect
  case jtag => exact AciSpec.exec_jtag k a s heffect
  case svc => exact AciSpec.exec_svc k a s heffect
  case snap => exact AciSpec.exec_snap k a s heffect
  case bist => exact AciSpec.exec_bist k a s heffect
  case trace => exact AciSpec.exec_trace k a s heffect
  case ctr => exact AciSpec.exec_ctr k a s heffect
  case draws => exact AciSpec.exec_draws k a s heffect
  case pending => exact AciSpec.exec_pending k a s heffect

/-- The frame of a command that runs an entry of the catalogue (R690) follows from the frame of the entry's effect. -/
theorem Frame.of_aci {c : Instr} {k : AciSpec} {a : Aci} {l : List Part} (own : List Part)
    (hexec : ∀ s, exec c s = .next (k.exec a s)) (heffect : ∀ r s, AllSame s (k.effect r s).1 (others own))
    (hown : own ++ [.host, .nv, .pair] ⊆ l) : Frame c l :=
  .of_next hexec fun s => aciExec_only k a s (fun _ hp => hown (List.mem_append_right own hp)) fun r s =>
    Only.mono (Only.of_frame (heffect r s)) fun _ hp => hown (List.mem_append_left _ hp)

/-- A command whose list is every part but the queue keeps the queue. -/
theorem Frame.of_aci_pending {c : Instr} {k : AciSpec} {a : Aci} (hexec : ∀ s, exec c s = .next (k.exec a s))
    (heffect : ∀ r s, (k.effect r s).1.pending = s.pending) : Frame c everything :=
  .of_aci everything hexec heffect (by decide)

/-- PORT_OPTICS_IO leaves its access in the log of the buses, and the page select that came before it (R183). -/
theorem portOpticsIoSpec_only (ack : Bool) (data : Bytes) (r : Req) (s : State) :
    Only [.ports] s ((portOpticsIoSpec ack data).effect r s).1 := by
  simp (disch := decide) only [portOpticsIoSpec, only_ite, only_modCage, only_ports_update, Only.refl, ite_self]

theorem portMdioIoSpec_only (data : BitVec 16) (r : Req) (s : State) :
    Only [.ports] s ((portMdioIoSpec data).effect r s).1 := by
  simp (disch := decide) only [portMdioIoSpec, only_ports_update, Only.refl]

theorem sysWarmReset_frame (r) : Frame (.sysWarmReset r) everything :=
  .of_aci_pending (fun _ => rfl) sysWarmResetSpec_pending

theorem sysShutdown_frame (r) : Frame (.sysShutdown r) everything :=
  .of_aci_pending (fun _ => rfl) sysShutdownSpec_pending

theorem sysConfigClear_frame (r) : Frame (.sysConfigClear r) [.host, .nv, .pair] :=
  .of_aci [.nv] (fun _ => rfl) sysConfigClearSpec_frame (by decide)

theorem sysSetShares_frame (r) : Frame (.sysSetShares r) [.host, .cfg, .nv, .pair] :=
  .of_aci [.cfg, .nv] (fun _ => rfl) sysSetSharesSpec_frame (by decide)

theorem sysWellAssign_frame (r) : Frame (.sysWellAssign r) [.host, .cfg, .nv, .pair] :=
  .of_aci [.cfg, .nv] (fun _ => rfl) sysWellAssignSpec_frame (by decide)

theorem sysRingConfig_frame (r) : Frame (.sysRingConfig r) [.host, .nv, .pair] :=
  .of_aci [.host] (fun _ => rfl) sysRingConfigSpec_frame (by decide)

theorem tenantReset_frame (r) : Frame (.tenantReset r) [.host, .nv, .fwd, .radio, .mesh, .pair, .ctr] :=
  .of_aci [.host, .nv, .fwd, .radio, .mesh, .pair, .ctr] (fun _ => rfl) tenantResetSpec_frame (by decide)

theorem portSetSpeed_frame (r) : Frame (.portSetSpeed r) [.host, .cfg, .nv, .ports, .qos, .radio, .pair, .ctr] :=
  .of_aci [.host, .cfg, .nv, .ports, .qos, .radio, .ctr] (fun _ => rfl) portSetSpeedSpec_frame (by decide)

theorem portSetCutThrough_frame (r) : Frame (.portSetCutThrough r) [.host, .cfg, .nv, .ports, .pair] :=
  .of_aci [.cfg, .nv, .ports] (fun _ => rfl) portSetCutThroughSpec_frame (by decide)

theorem portSetPreempt_frame (r) : Frame (.portSetPreempt r) [.host, .cfg, .nv, .ports, .qos, .radio, .pair, .ctr] :=
  .of_aci [.host, .cfg, .nv, .ports, .qos, .radio, .ctr] (fun _ => rfl) portSetPreemptSpec_frame (by decide)

theorem portSetRadio_frame (r) : Frame (.portSetRadio r) [.host, .cfg, .nv, .ports, .qos, .radio, .pair, .ctr] :=
  .of_aci [.host, .cfg, .nv, .ports, .qos, .radio, .ctr] (fun _ => rfl) portSetRadioSpec_frame (by decide)

theorem portRingPair_frame (r) : Frame (.portRingPair r) [.host, .cfg, .nv, .ports, .pins, .pair] :=
  .of_aci [.cfg, .nv, .ports, .pins] (fun _ => rfl) portRingPairSpec_frame (by decide)

theorem portGetStatus_frame (r) : Frame (.portGetStatus r) [.host, .nv, .pair] :=
  .of_aci [] (fun _ => rfl) portGetStatusSpec_frame (by decide)

theorem portOpticsMap_frame (r) : Frame (.portOpticsMap r) [.host, .cfg, .nv, .ports, .radio, .pins, .pair, .ctr, .draws] :=
  .of_aci [.host, .cfg, .nv, .ports, .radio, .pins, .ctr, .draws] (fun _ => rfl) portOpticsMapSpec_frame (by decide)

theorem portOpticsIo_frame (r) (ack) (data) : Frame (.portOpticsIo r ack data) [.host, .nv, .ports, .pair] :=
  .of_next (fun _ => rfl) fun s => aciExec_only _ r s (by decide) fun q s => Only.mono (portOpticsIoSpec_only ack data q s)
    (by decide)

theorem portMdioIo_frame (r) (data) : Frame (.portMdioIo r data) [.host, .nv, .ports, .pair] :=
  .of_next (fun _ => rfl) fun s => aciExec_only _ r s (by decide) fun q s => Only.mono (portMdioIoSpec_only data q s) (by decide)

theorem tableCommit_frame (r) : Frame (.tableCommit r) [.host, .nv, .fwd, .pair] :=
  .of_aci [.fwd] (fun _ => rfl) tableCommitSpec_frame (by decide)

theorem tableStatus_frame (r) : Frame (.tableStatus r) [.host, .nv, .pair] :=
  .of_aci [] (fun _ => rfl) tableStatusSpec_frame (by decide)

theorem tableVrfConfig_frame (r) : Frame (.tableVrfConfig r) [.host, .nv, .fwd, .pair] :=
  .of_aci [.fwd] (fun _ => rfl) tableVrfConfigSpec_frame (by decide)

theorem tablePortL2_frame (r) : Frame (.tablePortL2 r) [.host, .nv, .fwd, .pair] :=
  .of_aci [.fwd] (fun _ => rfl) tablePortL2Spec_frame (by decide)

theorem tableVlanWrite_frame (r) : Frame (.tableVlanWrite r) [.host, .nv, .fwd, .pair] :=
  .of_aci [.fwd] (fun _ => rfl) tableVlanWriteSpec_frame (by decide)

theorem tableIntfWrite_frame (r) : Frame (.tableIntfWrite r) [.host, .nv, .fwd, .pair] :=
  .of_aci [.fwd] (fun _ => rfl) tableIntfWriteSpec_frame (by decide)

theorem tableMacWrite_frame (r) : Frame (.tableMacWrite r) [.host, .nv, .fwd, .pair] :=
  .of_aci [.fwd] (fun _ => rfl) tableMacWriteSpec_frame (by decide)

theorem tableMacRead_frame (r) : Frame (.tableMacRead r) [.host, .nv, .pair] :=
  .of_aci [] (fun _ => rfl) tableMacReadSpec_frame (by decide)

theorem tableMacFlush_frame (r) : Frame (.tableMacFlush r) [.host, .nv, .fwd, .pair, .ctr] :=
  .of_aci [.fwd, .ctr] (fun _ => rfl) tableMacFlushSpec_frame (by decide)

theorem tableNexthopWrite_frame (r) : Frame (.tableNexthopWrite r) [.host, .nv, .fwd, .pair] :=
  .of_aci [.fwd] (fun _ => rfl) tableNexthopWriteSpec_frame (by decide)

theorem tableRouteWrite_frame (r) : Frame (.tableRouteWrite r) [.host, .nv, .fwd, .pair] :=
  .of_aci [.fwd] (fun _ => rfl) tableRouteWriteSpec_frame (by decide)

theorem tableRuleWrite_frame (r) : Frame (.tableRuleWrite r) [.host, .nv, .fwd, .pair] :=
  .of_aci [.fwd] (fun _ => rfl) tableRuleWriteSpec_frame (by decide)

theorem tableMirrorWrite_frame (r) : Frame (.tableMirrorWrite r) [.host, .nv, .fwd, .pair] :=
  .of_aci [.fwd] (fun _ => rfl) tableMirrorWriteSpec_frame (by decide)

theorem qosSetLimits_frame (r) : Frame (.qosSetLimits r) [.host, .nv, .qos, .pair] :=
  .of_aci [.qos] (fun _ => rfl) qosSetLimitsSpec_frame (by decide)

theorem qosSetSched_frame (r) : Frame (.qosSetSched r) [.host, .nv, .qos, .pair] :=
  .of_aci [.qos] (fun _ => rfl) qosSetSchedSpec_frame (by decide)

theorem qosSetShaper_frame (r) : Frame (.qosSetShaper r) [.host, .nv, .qos, .pair] :=
  .of_aci [.qos] (fun _ => rfl) qosSetShaperSpec_frame (by decide)

theorem qosSetLaunch_frame (r) : Frame (.qosSetLaunch r) [.host, .nv, .qos, .pair] :=
  .of_aci [.qos] (fun _ => rfl) qosSetLaunchSpec_frame (by decide)

theorem qosSetClassMap_frame (r) : Frame (.qosSetClassMap r) [.host, .nv, .qos, .pair] :=
  .of_aci [.qos] (fun _ => rfl) qosSetClassMapSpec_frame (by decide)

theorem qosPolicerWrite_frame (r) : Frame (.qosPolicerWrite r) [.host, .nv, .qos, .pair] :=
  .of_aci [.qos] (fun _ => rfl) qosPolicerWriteSpec_frame (by decide)

theorem qosQueueFlush_frame (r) : Frame (.qosQueueFlush r) [.host, .nv, .qos, .pair, .ctr] :=
  .of_aci [.qos, .ctr] (fun _ => rfl) qosQueueFlushSpec_frame (by decide)

theorem qosQueueStatus_frame (r) : Frame (.qosQueueStatus r) [.host, .nv, .pair] :=
  .of_aci [] (fun _ => rfl) qosQueueStatusSpec_frame (by decide)

theorem qosCisternStatus_frame (r) : Frame (.qosCisternStatus r) [.host, .nv, .pair] :=
  .of_aci [] (fun _ => rfl) qosCisternStatusSpec_frame (by decide)

theorem timeBaseConfig_frame (r) : Frame (.timeBaseConfig r) [.host, .cfg, .nv, .time, .pair] :=
  .of_aci [.host, .cfg, .nv, .time] (fun _ => rfl) timeBaseConfigSpec_frame (by decide)

theorem timeGet_frame (r) : Frame (.timeGet r) [.host, .nv, .pair] :=
  .of_aci [] (fun _ => rfl) timeGetSpec_frame (by decide)

theorem timeStep_frame (r) : Frame (.timeStep r) [.host, .nv, .time, .qos, .radio, .pair, .ctr] :=
  .of_aci [.host, .time, .qos, .radio, .pair, .ctr] (fun _ => rfl) timeStepSpec_frame (by decide)

theorem timePtpConfig_frame (r) : Frame (.timePtpConfig r) [.host, .cfg, .nv, .time, .pair] :=
  .of_aci [.cfg, .nv, .time] (fun _ => rfl) timePtpConfigSpec_frame (by decide)

theorem timePortConfig_frame (r) : Frame (.timePortConfig r) [.host, .cfg, .nv, .pair] :=
  .of_aci [.cfg, .nv] (fun _ => rfl) timePortConfigSpec_frame (by decide)

theorem timePpsConfig_frame (r) : Frame (.timePpsConfig r) [.host, .cfg, .nv, .time, .pins, .pair] :=
  .of_aci [.cfg, .nv, .time, .pins] (fun _ => rfl) timePpsConfigSpec_frame (by decide)

theorem timeSynceConfig_frame (r) : Frame (.timeSynceConfig r) [.host, .cfg, .nv, .pair] :=
  .of_aci [.cfg, .nv] (fun _ => rfl) timeSynceConfigSpec_frame (by decide)

theorem timeSetTenantBase_frame (r) : Frame (.timeSetTenantBase r) [.host, .cfg, .nv, .radio, .pair] :=
  .of_aci [.cfg, .nv, .radio] (fun _ => rfl) timeSetTenantBaseSpec_frame (by decide)

theorem radioSiteConfig_frame (r) : Frame (.radioSiteConfig r) [.host, .cfg, .nv, .qos, .radio, .pair, .ctr] :=
  .of_aci [.cfg, .nv, .qos, .radio, .ctr] (fun _ => rfl) radioSiteConfigSpec_frame (by decide)

theorem radioDwellConfig_frame (r) : Frame (.radioDwellConfig r) [.host, .cfg, .nv, .radio, .pair] :=
  .of_aci [.cfg, .nv, .radio] (fun _ => rfl) radioDwellConfigSpec_frame (by decide)

theorem radioSiteStatus_frame (r) : Frame (.radioSiteStatus r) [.host, .nv, .pair, .draws] :=
  .of_aci [.draws] (fun _ => rfl) radioSiteStatusSpec_frame (by decide)

theorem radioFloorRead_frame (r) : Frame (.radioFloorRead r) [.host, .nv, .pair] :=
  .of_aci [] (fun _ => rfl) radioFloorReadSpec_frame (by decide)

theorem radioDwellRead_frame (r) : Frame (.radioDwellRead r) [.host, .nv, .pair] :=
  .of_aci [] (fun _ => rfl) radioDwellReadSpec_frame (by decide)

theorem radioSiteReset_frame (r) : Frame (.radioSiteReset r) [.host, .nv, .ports, .radio, .pair, .ctr] :=
  .of_aci [.host, .ports, .radio, .ctr] (fun _ => rfl) radioSiteResetSpec_frame (by decide)

theorem radioLoadingConfig_frame (r) : Frame (.radioLoadingConfig r) [.host, .nv, .radio, .pair] :=
  .of_aci [.radio] (fun _ => rfl) radioLoadingConfigSpec_frame (by decide)

theorem radioMapRead_frame (r) : Frame (.radioMapRead r) [.host, .nv, .pair, .draws] :=
  .of_aci [.draws] (fun _ => rfl) radioMapReadSpec_frame (by decide)

theorem schedDomainAllot_frame (r) : Frame (.schedDomainAllot r) [.host, .nv, .radio, .pair] :=
  .of_aci [.radio] (fun _ => rfl) schedDomainAllotSpec_frame (by decide)

theorem schedSiteAllot_frame (r) : Frame (.schedSiteAllot r) [.host, .nv, .radio, .pair] :=
  .of_aci [.radio] (fun _ => rfl) schedSiteAllotSpec_frame (by decide)

theorem schedLoadImage_frame (r) : Frame (.schedLoadImage r) [.host, .nv, .radio, .pair] :=
  .of_aci [.radio] (fun _ => rfl) schedLoadImageSpec_frame (by decide)

theorem schedActivate_frame (r) : Frame (.schedActivate r) [.host, .nv, .radio, .pair] :=
  .of_aci [.host, .radio, .pair] (fun _ => rfl) schedActivateSpec_frame (by decide)

theorem schedDeactivate_frame (r) : Frame (.schedDeactivate r) [.host, .nv, .radio, .pair] :=
  .of_aci [.host, .radio, .pair] (fun _ => rfl) schedDeactivateSpec_frame (by decide)

theorem schedUnload_frame (r) : Frame (.schedUnload r) [.host, .nv, .radio, .pair] :=
  .of_aci [.host, .radio, .pair] (fun _ => rfl) schedUnloadSpec_frame (by decide)

theorem schedStatus_frame (r) : Frame (.schedStatus r) [.host, .nv, .pair] :=
  .of_aci [] (fun _ => rfl) schedStatusSpec_frame (by decide)

theorem nodeDomainAssign_frame (r) : Frame (.nodeDomainAssign r) [.host, .cfg, .nv, .mesh, .pair] :=
  .of_aci [.cfg, .nv, .mesh] (fun _ => rfl) nodeDomainAssignSpec_frame (by decide)

theorem nodeDomainConfig_frame (r) : Frame (.nodeDomainConfig r) [.host, .nv, .mesh, .pair] :=
  .of_aci [.mesh] (fun _ => rfl) nodeDomainConfigSpec_frame (by decide)

theorem nodeDomainStatus_frame (r) : Frame (.nodeDomainStatus r) [.host, .nv, .pair] :=
  .of_aci [] (fun _ => rfl) nodeDomainStatusSpec_frame (by decide)

theorem nodeRead_frame (r) : Frame (.nodeRead r) [.host, .nv, .pair, .draws] :=
  .of_aci [.draws] (fun _ => rfl) nodeReadSpec_frame (by decide)

theorem nodeWrite_frame (r) : Frame (.nodeWrite r) [.host, .nv, .mesh, .pair] :=
  .of_aci [.mesh] (fun _ => rfl) nodeWriteSpec_frame (by decide)

theorem nodeRemove_frame (r) : Frame (.nodeRemove r) [.host, .nv, .radio, .mesh, .pair, .ctr] :=
  .of_aci [.host, .radio, .mesh, .pair, .ctr] (fun _ => rfl) nodeRemoveSpec_frame (by decide)

theorem nodeSend_frame (r) : Frame (.nodeSend r) [.host, .nv, .radio, .mesh, .pair, .ctr, .draws] :=
  .of_aci [.host, .nv, .radio, .mesh, .pair, .ctr, .draws] (fun _ => rfl) nodeSendSpec_frame (by decide)

theorem nodeDomainRekey_frame (r) : Frame (.nodeDomainRekey r) [.host, .nv, .radio, .mesh, .pair, .ctr] :=
  .of_aci [.host, .nv, .radio, .mesh, .pair, .ctr] (fun _ => rfl) nodeDomainRekeySpec_frame (by decide)

theorem nodeDistStart_frame (r) : Frame (.nodeDistStart r) [.host, .nv, .mesh, .pair] :=
  .of_aci [.host, .mesh, .pair] (fun _ => rfl) nodeDistStartSpec_frame (by decide)

theorem nodeDistStop_frame (r) : Frame (.nodeDistStop r) [.host, .nv, .mesh, .pair] :=
  .of_aci [.host, .mesh, .pair] (fun _ => rfl) nodeDistStopSpec_frame (by decide)

theorem keyTenantRootCreate_frame (r) : Frame (.keyTenantRootCreate r) [.host, .nv, .pair, .draws] :=
  .of_aci [.nv, .pair, .draws] (fun _ => rfl) keyTenantRootCreateSpec_frame (by decide)

theorem keyDomainKeyCreate_frame (r) : Frame (.keyDomainKeyCreate r) [.host, .nv, .pair] :=
  .of_aci [.nv] (fun _ => rfl) keyDomainKeyCreateSpec_frame (by decide)

theorem keyImport_frame (r) : Frame (.keyImport r) [.host, .nv, .radio, .mesh, .pair, .ctr, .draws] :=
  .of_aci [.host, .nv, .radio, .mesh, .pair, .ctr, .draws] (fun _ => rfl) keyImportSpec_frame (by decide)

theorem keyDestroy_frame (r) : Frame (.keyDestroy r) [.host, .nv, .pair] :=
  .of_aci [.nv] (fun _ => rfl) keyDestroySpec_frame (by decide)

theorem keySlotAssign_frame (r) : Frame (.keySlotAssign r) [.host, .nv, .pair] :=
  .of_aci [.nv] (fun _ => rfl) keySlotAssignSpec_frame (by decide)

theorem keySlotStatus_frame (r) : Frame (.keySlotStatus r) [.host, .nv, .pair] :=
  .of_aci [] (fun _ => rfl) keySlotStatusSpec_frame (by decide)

theorem keyReadPublic_frame (r) : Frame (.keyReadPublic r) [.host, .nv, .radio, .mesh, .pair, .ctr, .draws] :=
  .of_aci [.host, .nv, .radio, .mesh, .pair, .ctr, .draws] (fun _ => rfl) keyReadPublicSpec_frame (by decide)

theorem keyCacheShares_frame (r) : Frame (.keyCacheShares r) [.host, .nv, .mesh, .pair] :=
  .of_aci [.mesh] (fun _ => rfl) keyCacheSharesSpec_frame (by decide)

theorem keyMapRead_frame (r) : Frame (.keyMapRead r) [.host, .nv, .pair] :=
  .of_aci [] (fun _ => rfl) keyMapReadSpec_frame (by decide)

theorem pairConfig_frame (r) : Frame (.pairConfig r) [.host, .cfg, .nv, .pair] :=
  .of_aci [.cfg, .nv] (fun _ => rfl) pairConfigSpec_frame (by decide)

theorem pairGetStatus_frame (r) : Frame (.pairGetStatus r) [.host, .nv, .pair] :=
  .of_aci [] (fun _ => rfl) pairGetStatusSpec_frame (by decide)

theorem pairEquinox_frame (r) :
    Frame (.pairEquinox r) [.ms, .host, .nv, .ports, .radio, .pins, .pair, .svc, .trace, .ctr, .draws] :=
  .of_aci [.ms, .host, .ports, .radio, .pins, .pair, .svc, .trace, .ctr, .draws] (fun _ => rfl) pairEquinoxSpec_frame (by decide)

theorem pairLaneTrim_frame (r) : Frame (.pairLaneTrim r) [.host, .cfg, .nv, .pair] :=
  .of_aci [.cfg, .nv] (fun _ => rfl) pairLaneTrimSpec_frame (by decide)

theorem pairClear_frame (r) : Frame (.pairClear r) [.host, .nv, .pair] :=
  .of_aci [.pair] (fun _ => rfl) pairClearSpec_frame (by decide)

theorem pairResync_frame (r) : Frame (.pairResync r) [.ms, .host, .nv, .pair] :=
  .of_aci [.ms, .host, .pair] (fun _ => rfl) pairResyncSpec_frame (by decide)

theorem bistRun_frame (r) : Frame (.bistRun r) [.host, .nv, .ports, .pins, .pair, .bist, .ctr, .draws] :=
  .of_aci [.ports, .pins, .bist, .ctr, .draws] (fun _ => rfl) bistRunSpec_frame (by decide)

theorem bistStatus_frame (r) : Frame (.bistStatus r) [.host, .nv, .pair] :=
  .of_aci [] (fun _ => rfl) bistStatusSpec_frame (by decide)

theorem bistConfig_frame (r) : Frame (.bistConfig r) [.host, .cfg, .nv, .pair] :=
  .of_aci [.cfg, .nv] (fun _ => rfl) bistConfigSpec_frame (by decide)

theorem updateOpen_frame (r) : Frame (.updateOpen r) [.host, .nv, .pair, .svc, .ctr, .draws] :=
  .of_aci [.nv, .svc, .ctr, .draws] (fun _ => rfl) updateOpenSpec_frame (by decide)

theorem updateStatus_frame (r) : Frame (.updateStatus r) [.host, .nv, .pair] :=
  .of_aci [] (fun _ => rfl) updateStatusSpec_frame (by decide)

theorem updateInstall_frame (r) : Frame (.updateInstall r) [.host, .nv, .mesh, .pair, .svc, .ctr, .draws] :=
  .of_aci [.host, .mesh, .pair, .svc, .ctr, .draws] (fun _ => rfl) updateInstallSpec_frame (by decide)

theorem updateAbort_frame (r) : Frame (.updateAbort r) [.host, .nv, .pair, .svc, .ctr, .draws] :=
  .of_aci [.host, .pair, .svc, .ctr, .draws] (fun _ => rfl) updateAbortSpec_frame (by decide)

theorem updateBankInfo_frame (r) : Frame (.updateBankInfo r) [.host, .nv, .pair] :=
  .of_aci [] (fun _ => rfl) updateBankInfoSpec_frame (by decide)

theorem updateNodeImageDrop_frame (r) : Frame (.updateNodeImageDrop r) [.host, .nv, .mesh, .pair] :=
  .of_aci [.mesh] (fun _ => rfl) updateNodeImageDropSpec_frame (by decide)

theorem observeSnapshot_frame (r) : Frame (.observeSnapshot r) [.host, .nv, .pair, .snap, .ctr] :=
  .of_aci [.snap, .ctr] (fun _ => rfl) observeSnapshotSpec_frame (by decide)

theorem observeCounters_frame (r) : Frame (.observeCounters r) [.host, .nv, .pair] :=
  .of_aci [] (fun _ => rfl) observeCountersSpec_frame (by decide)

theorem observeTraceConfig_frame (r) : Frame (.observeTraceConfig r) [.host, .cfg, .nv, .pair, .trace] :=
  .of_aci [.cfg, .nv, .trace] (fun _ => rfl) observeTraceConfigSpec_frame (by decide)

end Sys2Proof.Claims

namespace Sys2Proof.Claims

open Machine

/-! ### Registers, doorbells and the test port

From here on, the frame of each command that runs no entry of the catalogue. The branches of its definition are taken one by one, and
in each the operations are peeled off, the outermost first, until the state before the command is left. -/

theorem unknownOpcode_frame (opcode) (r) : Frame (.unknownOpcode opcode r) [.host] :=
  .of_next (fun _ => rfl) fun s => by simp (disch := decide) only [Only.refl, only_ite, ite_self, only_takeDesc,
    only_writeResponse]

theorem modeReqSafe_frame (word) : Frame (.modeReqSafe word) everything :=
  .of_next (fun _ => rfl) fun s => by simp (disch := decide) only [Only.refl, only_ite, ite_self, only_writeModeReq]

theorem modeReqWarm_frame (word) : Frame (.modeReqWarm word) everything :=
  .of_next (fun _ => rfl) fun s => by simp (disch := decide) only [Only.refl, only_ite, ite_self, only_writeModeReq]

theorem mboxEnable_frame (f) (word) : Frame (.mboxEnable f word) [.host] :=
  .of_next (fun _ => rfl) fun s => by simp (disch := decide) only [Only.refl, only_ite, ite_self, only_writeMboxCtrl]

theorem cmdTail_frame (f) (count) : Frame (.cmdTail f count) [.host] :=
  .of_next (fun _ => rfl) fun s => by simp (disch := decide) only [Only.refl, only_ite, ite_self, only_ringCmd]

theorem rspHead_frame (f) (count) : Frame (.rspHead f count) [.host] :=
  .of_next (fun _ => rfl) fun s => by simp (disch := decide) only [Only.refl, only_ite, ite_self, only_ringRsp]

theorem puntTail_frame (f) (n) (count) : Frame (.puntTail f n count) [.host] :=
  .of_next (fun _ => rfl) fun s => by simp (disch := decide) only [Only.refl, only_ite, ite_self, only_ringPunt]

theorem injTail_frame (f) (n) (count) : Frame (.injTail f n count) [.host] :=
  .of_next (fun _ => rfl) fun s => by simp (disch := decide) only [Only.refl, only_ite, ite_self, only_ringInj]

theorem wellEnable_frame (f) (slot) (word) : Frame (.wellEnable f slot word) [.host] := by
  refine .of_next (fun _ => rfl) fun s => ?_
  split <;> simp (disch := decide) only [Only.refl, only_ite, ite_self, only_writeWellCtrl]

theorem drainDone_frame (f) (slot) (word) : Frame (.drainDone f slot word) [.host] := by
  refine .of_next (fun _ => rfl) fun s => ?_
  split <;> simp (disch := decide) only [Only.refl, only_ite, ite_self, only_writeDrain]

theorem drainClose_frame (f) (slot) (word) : Frame (.drainClose f slot word) [.host] := by
  refine .of_next (fun _ => rfl) fun s => ?_
  split <;> simp (disch := decide) only [Only.refl, only_ite, ite_self, only_writeDrain]

theorem snapTake_frame (word) : Frame (.snapTake word) [.snap, .ctr] :=
  .of_next (fun _ => rfl) fun s => by simp (disch := decide) only [Only.refl, only_ite, ite_self, only_writeSnapCtrl]

theorem rtcLoad_frame (word) : Frame (.rtcLoad word) [.time] :=
  .of_next (fun _ => rfl) fun s => by simp (disch := decide) only [Only.refl, only_ite, ite_self, only_writeRtcCtrl]

theorem rtcLoRead_frame : Frame .rtcLoRead [.host, .time] :=
  .of_next (fun _ => rfl) fun s => by simp (disch := decide) only [Only.refl, only_ite, ite_self, only_modRtc, only_reads]

theorem rtcHiRead_frame : Frame .rtcHiRead [.host, .time] :=
  .of_next (fun _ => rfl) fun s => by simp (disch := decide) only [Only.refl, only_ite, ite_self, only_modRtc, only_reads]

theorem epochLoRead_frame : Frame .epochLoRead [.host, .pair] :=
  .of_next (fun _ => rfl) fun s => by simp (disch := decide) only [Only.refl, only_ite, ite_self, only_modPair, only_reads]

theorem tempPeakRead_frame : Frame .tempPeakRead [.host, .power] :=
  .of_next (fun _ => rfl) fun s => by simp (disch := decide) only [Only.refl, only_ite, ite_self, only_reads, only_power_update]

theorem registerWrite_frame (f) (bar) (offset) (width) (value) : Frame (.registerWrite f bar offset width value) everything :=
  .of_next (fun _ => rfl) fun s => by simp (disch := decide) only [Only.refl, only_ite, ite_self, only_writeReg]

theorem msixUnmask_frame (f) (v) : Frame (.msixUnmask f v) [.host] :=
  .of_next (fun _ => rfl) fun s => by simp (disch := decide) only [Only.refl, only_ite, ite_self, only_unmask]

theorem functionLevelReset_frame (f) : Frame (.functionLevelReset f) [.host, .pair] :=
  .of_next (fun _ => rfl) fun s => by simp (disch := decide) only [Only.refl, only_ite, ite_self, only_flr]

theorem pciePerst_frame : Frame .pciePerst [.host, .pair] :=
  .of_next (fun _ => rfl) fun s => by simp (disch := decide) only [Only.refl, only_ite, ite_self, only_flr, only_host_update]

theorem jtagIdcode_frame : Frame .jtagIdcode [.host, .jtag] :=
  .of_next (fun _ => rfl) fun s => by simp (disch := decide) only [Only.refl, only_jtag_host_update]

theorem jtagSample_frame (cells) : Frame (.jtagSample cells) [.host, .jtag] :=
  .of_next (fun _ => rfl) fun s => by simp (disch := decide) only [Only.refl, only_jtag_host_update]

theorem jtagBypass_frame (code) : Frame (.jtagBypass code) [.jtag] :=
  .of_next (fun _ => rfl) fun s => by simp (disch := decide) only [Only.refl, only_ite, ite_self, only_jtag_update]

/-! ### Power, start, faults and reloads -/

theorem resetNLow_frame : Frame .resetNLow everything :=
  .of_next (fun _ => rfl) fun s => by simp (disch := decide) only [Only.refl, only_addCause, only_dormant, only_ms_update]

theorem powerFailWarning_frame : Frame .powerFailWarning [.ms, .nv, .pins] :=
  .of_next (fun _ => rfl) fun s => by simp (disch := decide) only [Only.refl, only_ite, ite_self, only_addCause, only_dropHolds,
    only_ms_pins_nv_update]

theorem powerFailDrainDone_frame : Frame .powerFailDrainDone everything :=
  .of_next (fun _ => rfl) fun s => by simp (disch := decide) only [Only.refl, only_ite, ite_self, only_dormant, only_ms_update]

theorem railOutOfRange_frame (rails) : Frame (.railOutOfRange rails) everything :=
  .of_next (fun _ => rfl) fun s => by simp (disch := decide) only [Only.refl, only_ite, ite_self, only_dormant, only_ms_update,
    only_power_update]

theorem bootStart_frame (b) : Frame (.bootStart b) everything := by
  refine .of_next (fun _ => rfl) fun s => ?_
  split <;> simp (disch := decide) only [Only.refl, only_ite, ite_self, only_bootChain, only_powerUp, only_supplied]

theorem processorsLoaded_frame :
    Frame .processorsLoaded [.ms, .host, .cfg, .nv, .procs, .time, .ports, .radio, .mesh, .pins, .pair, .ctr, .draws] := by
  refine .of_next (fun _ => rfl) fun s => ?_
  repeat' split
  all_goals simp +decide only [Only.refl, only_ite, ite_self, only_foldl, implies_true, only_advanceAll, only_bootSettings,
    only_resumeNodes, only_selectSources, only_setAlive, only_setDriving, only_setRings, only_tellEntries, only_tellKeys,
    only_tellRails, only_tellSlices, only_timeEvent, only_updateEntry, only_procs_ms_update]

theorem bootSelfTestDone_frame (failed) : Frame (.bootSelfTestDone failed) everything :=
  .of_next (fun _ => rfl) fun s => by simp (disch := decide) only [Only.refl, only_ite, ite_self, only_applySlices, only_crash,
    only_setRings, only_ms_update]

theorem bootComplete_frame : Frame .bootComplete [.ms, .host, .ports, .radio, .pins, .pair, .svc, .trace, .ctr, .draws] :=
  .of_next (fun _ => rfl) fun s => by simp (disch := decide) only [Only.refl, only_ite, ite_self, only_changeMode,
    only_leaveBoot]

theorem pairingWaitExpiry_frame :
    Frame .pairingWaitExpiry [.ms, .host, .ports, .radio, .pins, .pair, .svc, .trace, .ctr, .draws] :=
  .of_next (fun _ => rfl) fun s => by simp (disch := decide) only [Only.refl, only_ite, ite_self, only_toSolo]

theorem migrationDone_frame :
    Frame .migrationDone [.ms, .host, .cfg, .nv, .ports, .radio, .pins, .pair, .svc, .trace, .ctr, .draws] := by
  refine .of_next (fun _ => rfl) fun s => ?_
  dsimp only
  repeat' split
  all_goals simp (disch := decide) only [Only.refl, only_leaveBoot, only_setRings, only_nv_cfg_ms_update]

theorem migrationStepError_frame : Frame .migrationStepError everything :=
  .of_next (fun _ => rfl) fun s => by simp (disch := decide) only [Only.refl, only_failMigration]

theorem migrationTimeout_frame : Frame .migrationTimeout everything :=
  .of_next (fun _ => rfl) fun s => by simp (disch := decide) only [Only.refl, only_failMigration]

theorem lkgReached_frame : Frame .lkgReached [.ms, .nv] := by
  refine .of_next (fun _ => rfl) fun s => ?_
  split <;> simp (disch := decide) only [Only.refl, only_modBoot, only_ms_nv_update]

theorem processorFault_frame (p) : Frame (.processorFault p) everything :=
  .of_next (fun _ => rfl) fun s => by simp (disch := decide) only [Only.refl, only_processorFails]

theorem processorReloadDone_frame (p) :
    Frame (.processorReloadDone p) [.ms, .host, .nv, .procs, .radio, .mesh, .pair, .ctr, .draws] := by
  refine .of_next (fun _ => rfl) fun s => ?_
  repeat' split
  all_goals simp +decide only [Only.refl, only_foldl, implies_true, only_answerInternal, only_completeInternal,
    only_dropLoading, only_processHeld, only_settleFinals, only_procs_update]

theorem bscFault_frame : Frame .bscFault everything :=
  .of_next (fun _ => rfl) fun s => by simp (disch := decide) only [Only.refl, only_crash]

theorem dataLevelFault_frame (level) (number) (cause) :
    Frame (.dataLevelFault level number cause) [.host, .ports, .fwd, .qos, .radio, .pins, .ctr, .draws] :=
  .of_next (fun _ => rfl) fun s => by simp (disch := decide) only [Only.refl, only_ite, ite_self, only_beginReset,
    only_levelFault, only_switchRings]

theorem blockResetDone_frame (level) (number) (ok) :
    Frame (.blockResetDone level number ok) [.host, .ports, .pins, .ctr, .draws] :=
  .of_next (fun _ => rfl) fun s => by simp (disch := decide) only [Only.refl, only_ite, ite_self, only_draw, only_endReset,
    only_levelFault, only_switchRings]

theorem coreDieFault_frame (reservoir) (cause) :
    Frame (.coreDieFault reservoir cause) [.ms, .host, .ports, .radio, .pins, .pair, .svc, .trace, .ctr, .draws] := by
  refine .of_next (fun _ => rfl) fun s => ?_
  split <;> simp (disch := decide) only [Only.refl, only_ite, ite_self, only_abandonResets, only_changeMode, only_enterSafe,
    only_levelFault, only_ms_update]

theorem worldViolation_frame (region) (master) (write) (addr) : Frame (.worldViolation region master write addr) everything :=
  .of_next (fun _ => rfl) fun s => by simp (disch := decide) only [Only.refl, only_ite, ite_self, only_count,
    only_processorFails, only_securityEntry]

/-! ### The host interface -/

theorem commandDmaTimeout_frame (f) (ring) (addr) : Frame (.commandDmaTimeout f ring addr) [.host] :=
  .of_next (fun _ => rfl) fun s => by simp (disch := decide) only [Only.refl, only_ite, ite_self, only_alarm, only_mboxError]

theorem msixModerationTimer_frame (f) : Frame (.msixModerationTimer f) [.host] :=
  .of_next (fun _ => rfl) fun s => by simp (disch := decide) only [Only.refl, only_ite, ite_self, only_modMbox, only_raise]

theorem wellEntryWrite_frame (w) (badParity) : Frame (.wellEntryWrite w badParity) [.host] :=
  .of_next (fun _ => rfl) fun s => by simp (disch := decide) only [Only.refl, only_ite, ite_self, only_raise, only_setWell]

theorem pacedEntryDue_frame (key) : Frame (.pacedEntryDue key) [.host] := by
  refine .of_next (fun _ => rfl) fun s => ?_
  split <;> simp (disch := decide) only [Only.refl, only_ite, ite_self, only_writePaced, only_host_update]

theorem injectFrameRead_frame (f) (n) (descs) (frame) :
    Frame (.injectFrameRead f n descs frame) [.host, .fwd, .qos, .pair, .ctr, .draws] :=
  .of_next (fun _ => rfl) fun s => by simp (disch := decide) only [Only.refl, only_ite, ite_self, only_carry, only_inject,
    only_modInj, only_raise]

theorem puntCellArrival_frame (f) (n) : Frame (.puntCellArrival f n) [.host] :=
  .of_next (fun _ => rfl) fun s => by simp (disch := decide) only [Only.refl, only_ite, ite_self, only_modPunt, only_raise]

/-! ### Forwarding and the ports -/

theorem frameRx_frame (p) (frame) : Frame (.frameRx p frame) [.host, .fwd, .qos, .pair, .ctr, .draws] :=
  .of_next (fun _ => rfl) fun s => by simp (disch := decide) only [Only.refl, only_ite, ite_self, only_count, only_countIf,
    only_forwardRx, only_newId, only_qos_update]

theorem rxFrameEnd_frame (p) (fin) : Frame (.rxFrameEnd p fin) [.host, .fwd, .qos, .pair, .ctr] := by
  refine .of_next (fun _ => rfl) fun s => ?_
  split <;> simp (disch := decide) only [Only.refl, only_ite, ite_self, only_count, only_countIf, only_countRx, only_deliver,
    only_dropFrame, only_endCut, only_mapItem, only_qos_update]

theorem maintenanceSlot_frame (pipe) : Frame (.maintenanceSlot pipe) [.host, .fwd, .pair, .ctr] :=
  .of_next (fun _ => rfl) fun s => by simp (disch := decide) only [Only.refl, only_ite, ite_self, only_maintenance]

theorem generationBoundary_frame : Frame .generationBoundary [.host, .fwd, .qos, .ctr, .draws] := by
  refine .of_next (fun _ => rfl) fun s => ?_
  dsimp only
  repeat' split
  all_goals simp +decide only [Only.refl, only_foldl, implies_true, only_answerLater, only_finishTenantReset, only_gaugeLearned,
    only_fwd_update]

theorem cyclePlanStart_frame : Frame .cyclePlanStart [.qos] :=
  .of_next (fun _ => rfl) fun s => by simp (disch := decide) only [Only.refl, only_ite, ite_self, only_qos_update]

theorem egressSelect_frame (p) (inProgress) (ecc) :
    Frame (.egressSelect p inProgress ecc) [.host, .ports, .qos, .radio, .pair, .ctr] := by
  refine .of_next (fun _ => rfl) fun s => ?_
  dsimp only
  repeat' split
  all_goals simp +decide only [Only.refl, only_foldl, implies_true, only_finish, only_frameBoundary, only_modSched, only_pick,
    only_settle, only_split, only_startFrame]

theorem launchTimeReached_frame (q) : Frame (.launchTimeReached q) [.host, .time, .ports, .qos, .pair, .ctr] := by
  refine .of_next (fun _ => rfl) fun s => ?_
  split <;> simp (disch := decide) only [Only.refl, only_ite, ite_self, only_count, only_discardHead, only_launchChoice,
    only_setItems, only_settle, only_split, only_startFrame]

theorem launchHoldStart_frame (q) : Frame (.launchHoldStart q) [.ports, .qos, .ctr] := by
  refine .of_next (fun _ => rfl) fun s => ?_
  dsimp only
  repeat' split
  all_goals simp (disch := decide) only [Only.refl, only_count, only_modPort, only_split]

theorem linkUp_frame (p) : Frame (.linkUp p) [.host, .ports, .radio] :=
  .of_next (fun _ => rfl) fun s => by simp (disch := decide) only [Only.refl, only_bringUp]

theorem linkDown_frame (p) (reason) : Frame (.linkDown p reason) [.host, .ports, .radio, .ctr] :=
  .of_next (fun _ => rfl) fun s => by simp (disch := decide) only [Only.refl, only_ite, ite_self, only_modPort, only_takeDown]

theorem preemptVerifyTimeout_frame (p) : Frame (.preemptVerifyTimeout p) [.host, .ports] :=
  .of_next (fun _ => rfl) fun s => by simp (disch := decide) only [Only.refl, only_ite, ite_self, only_modPort, only_portEvent]

theorem preemptVerifyResponse_frame (p) : Frame (.preemptVerifyResponse p) [.ports] :=
  .of_next (fun _ => rfl) fun s => by simp (disch := decide) only [Only.refl, only_ite, ite_self, only_modPort]

theorem opticsProbe_frame (cage) (present) : Frame (.opticsProbe cage present) [.host, .ports] := by
  refine .of_next (fun _ => rfl) fun s => ?_
  split <;> simp (disch := decide) only [Only.refl, only_ite, ite_self, only_modCage, only_moduleUp, only_portEvent]

theorem opticsFlagPoll_frame (cage) (flags) : Frame (.opticsFlagPoll cage flags) [.host, .ports] := by
  refine .of_next (fun _ => rfl) fun s => ?_
  repeat' split
  all_goals simp +decide only [Only.refl, only_ite, ite_self, only_foldl, implies_true, only_modCage, only_moduleUp,
    only_portEvent]

theorem i2cStretchTimeout_frame (bus) (sda) : Frame (.i2cStretchTimeout bus sda) [.host, .ports, .radio, .pins, .ctr] :=
  .of_next (fun _ => rfl) fun s => by simp (disch := decide) only [Only.refl, only_ite, ite_self, only_recoverBus]

/-! ### Time -/

theorem activeInRise_frame : Frame .activeInRise [.ms, .host, .ports, .radio, .pins, .pair, .svc, .trace, .ctr, .draws] :=
  .of_next (fun _ => rfl) fun s => by simp (disch := decide) only [Only.refl, only_ite, ite_self, only_modPair, only_setDriving,
    only_toStandby, only_pins_update]

theorem offsetSample_frame (tb) (x) : Frame (.offsetSample tb x) [.pins, .host, .time, .qos, .radio, .pair, .ctr, .draws] := by
  refine .of_next (fun _ => rfl) fun s => ?_
  repeat' split
  all_goals simp (disch := decide) only [Only.refl, only_sees10m, only_takeSample]

theorem sourceLost_frame (tb) : Frame (.sourceLost tb) [.host, .time] :=
  .of_next (fun _ => rfl) fun s => by simp (disch := decide) only [Only.refl, only_ite, ite_self, only_modBase,
    only_setBaseState]

theorem ppsInEdge_frame : Frame .ppsInEdge [.host, .time, .qos, .radio, .pair, .ctr, .draws] :=
  .of_next (fun _ => rfl) fun s => by simp (disch := decide) only [Only.refl, only_ite, ite_self, only_alarm, only_count,
    only_takeSample, only_time_update]

theorem freq10mLost_frame : Frame .freq10mLost [.time, .pins] :=
  .of_next (fun _ => rfl) fun s => by simp (disch := decide) only [Only.refl, only_lose10m]

theorem ppsOutEdge_frame : Frame .ppsOutEdge [.time, .pins] :=
  .of_next (fun _ => rfl) fun s => by simp (disch := decide) only [Only.refl, only_ite, ite_self, only_pins_time_update]

theorem ptpMessageRx_frame (inst) (p) (msg) : Frame (.ptpMessageRx inst p msg) [.time, .qos, .pair, .ctr] := by
  refine .of_next (fun _ => rfl) fun s => ?_
  dsimp only
  repeat' split
  all_goals simp (disch := decide) only [Only.refl, only_modPtpPort, only_ptpRoles, only_ptpSend, only_syncDone, only_syncRx]

theorem ptpSyncTx_frame (p) : Frame (.ptpSyncTx p) [.time, .qos, .pair, .ctr] := by
  refine .of_next (fun _ => rfl) fun s => ?_
  dsimp only
  repeat' split
  all_goals simp (disch := decide) only [Only.refl, only_masterSends, only_sendSync]

/-! ### The schedule engine and the modem -/

theorem slotBoundary_frame (d) : Frame (.slotBoundary d) [.radio, .trace, .ctr, .draws] := by
  refine .of_next (fun _ => rfl) fun s => ?_
  split <;> simp (disch := decide) only [Only.refl, only_ite, ite_self, only_count, only_endWindows, only_modDomain,
    only_traceSlot]

theorem imageActivation_frame (d) : Frame (.imageActivation d) [.host, .radio, .pair, .ctr] := by
  refine .of_next (fun _ => rfl) fun s => ?_
  dsimp only
  repeat' split
  all_goals simp (disch := decide) only [Only.refl, only_activate, only_modDomain]

theorem deactivateDone_frame (d) : Frame (.deactivateDone d) [.host, .radio] := by
  refine .of_next (fun _ => rfl) fun s => ?_
  repeat' split
  all_goals simp +decide only [Only.refl, only_foldl, implies_true, only_answerLater, only_idleDomain]

theorem imageLoadDone_frame (d) (dmaOk) (image) :
    Frame (.imageLoadDone d dmaOk image) [.host, .nv, .radio, .mesh, .pair, .ctr, .draws] := by
  refine .of_next (fun _ => rfl) fun s => ?_
  dsimp only
  repeat' split
  all_goals simp (disch := decide) only [Only.refl, only_complete, only_loadImage, only_modDomain]

theorem txIssue_frame (d) (slot) (cell) :
    Frame (.txIssue d slot cell) [.host, .nv, .qos, .radio, .mesh, .pair, .ctr, .draws] := by
  refine .of_next (fun _ => rfl) fun s => ?_
  split <;> simp (disch := decide) only [Only.refl, only_ite, ite_self, only_issue, only_modDomain]

theorem ackIssue_frame (d) (id) : Frame (.ackIssue d id) [.host, .nv, .qos, .radio, .mesh, .pair, .ctr, .draws] := by
  refine .of_next (fun _ => rfl) fun s => ?_
  dsimp only
  repeat' split
  all_goals simp (disch := decide) only [Only.refl, only_act, only_buildAck, only_count, only_generate, only_modDomain]

theorem roeUplinkFrame_frame (p) (frame) (stampNs) : Frame (.roeUplinkFrame p frame stampNs) [.radio, .ctr] := by
  refine .of_next (fun _ => rfl) fun s => ?_
  split <;> simp (disch := decide) only [Only.refl, only_ite, ite_self, only_count, only_modSite]

theorem detection_frame (site) (d) : Frame (.detection site d) [.radio, .ctr] := by
  refine .of_next (fun _ => rfl) fun s => ?_
  dsimp only
  repeat' split
  all_goals simp (disch := decide) only [Only.refl, only_count, only_placeCopy]

theorem headerDecision_frame (id) (header) : Frame (.headerDecision id header) [.radio, .ctr] := by
  refine .of_next (fun _ => rfl) fun s => ?_
  split <;> simp (disch := decide) only [Only.refl, only_ite, ite_self, only_decideHeader, only_settleRecv]

theorem softValuesDelivered_frame (id) (site) (part) (erased) (values) :
    Frame (.softValuesDelivered id site part erased values) [.radio, .ctr] := by
  refine .of_next (fun _ => rfl) fun s => ?_
  split
  · exact Only.refl _ s
  · dsimp only
    split <;> simp (disch := decide) only [↓only_ite, ↓only_settleRecv, ↓only_releaseGains, ↓only_frameDelay, ↓only_count,
      Only.refl, ite_self]

theorem codewordReady_frame (id) (cw) : Frame (.codewordReady id cw) [.host, .radio, .ctr] := by
  refine .of_next (fun _ => rfl) fun s => ?_
  split <;> simp (disch := decide) only [Only.refl, only_ite, ite_self, only_chargeTick, only_setRecv]

theorem decodeDone_frame (id) (cw) (bits) (iters) (reliability) :
    Frame (.decodeDone id cw bits iters reliability) [.host, .nv, .radio, .mesh, .pair, .ctr, .draws] := by
  refine .of_next (fun _ => rfl) fun s => ?_
  dsimp only
  repeat' split
  all_goals simp (disch := decide) only [Only.refl, only_count, only_finishRecv, only_frameDecoded, only_setRecv,
    only_settleRecv]

theorem decodeAbandon_frame (id) (cw) : Frame (.decodeAbandon id cw) [.radio, .ctr] := by
  refine .of_next (fun _ => rfl) fun s => ?_
  split <;> simp (disch := decide) only [Only.refl, only_ite, ite_self, only_count, only_finishRecv]

/-! ### The mesh, the keys and MRAM -/

theorem securedFrameRx_frame (a) :
    Frame (.securedFrameRx a) [.host, .nv, .procs, .fwd, .qos, .radio, .mesh, .pair, .ctr, .draws] :=
  .of_next (fun _ => rfl) fun s => by simp (disch := decide) only [Only.refl, only_ite, ite_self, only_securedRx,
    only_takeDecoded]

theorem downlinkAckRx_frame (handle) (ack) :
    Frame (.downlinkAckRx handle ack) [.host, .nv, .radio, .mesh, .pair, .ctr, .draws] := by
  refine .of_next (fun _ => rfl) fun s => ?_
  dsimp only
  repeat' split
  all_goals simp (disch := decide) only [Only.refl, only_authenticate, only_heardFrom, only_settleFrame, only_takeDecoded,
    only_mesh_update]

theorem joinRequest_frame (a) : Frame (.joinRequest a) [.host, .nv, .procs, .radio, .mesh, .pair, .ctr, .draws] :=
  .of_next (fun _ => rfl) fun s => by simp (disch := decide) only [Only.refl, only_ite, ite_self, only_hold, only_joinRx,
    only_takeDecoded]

theorem joinTimeout_frame (handle) : Frame (.joinTimeout handle) [.host, .radio, .mesh, .pair, .ctr] := by
  refine .of_next (fun _ => rfl) fun s => ?_
  repeat' split
  all_goals simp (disch := decide) only [Only.refl, only_count, only_removeNode]

theorem borderPacket_frame (d) (packet) :
    Frame (.borderPacket d packet) [.host, .nv, .fwd, .radio, .mesh, .pair, .ctr, .draws] :=
  .of_next (fun _ => rfl) fun s => by simp (disch := decide) only [Only.refl, only_ite, ite_self, only_borderDown,
    only_tookBorder]

theorem reasmTimeout_frame (handle) (tag) : Frame (.reasmTimeout handle tag) [.mesh, .ctr] := by
  refine .of_next (fun _ => rfl) fun s => ?_
  dsimp only
  repeat' split
  all_goals simp (disch := decide) only [Only.refl, only_count, only_mesh_update]

theorem nodeSendDeadline_frame (fn) (tag) : Frame (.nodeSendDeadline fn tag) [.host, .mesh, .pair] := by
  refine .of_next (fun _ => rfl) fun s => ?_
  repeat' split
  all_goals simp (disch := decide) only [Only.refl, only_endSend]

theorem distEnd_frame (d) : Frame (.distEnd d) [.host, .mesh, .pair] := by
  refine .of_next (fun _ => rfl) fun s => ?_
  split <;> simp (disch := decide) only [Only.refl, only_ite, ite_self, only_endDist]

theorem nodeStoreScrub_frame (handle) (uncorrectable) :
    Frame (.nodeStoreScrub handle uncorrectable) [.host, .radio, .mesh, .pair, .ctr] := by
  refine .of_next (fun _ => rfl) fun s => ?_
  split <;> simp (disch := decide) only [Only.refl, only_ite, ite_self, only_meshAlarm, only_removeNode]

theorem mramCommitDone_frame : Frame .mramCommitDone [.host, .nv, .ports, .radio, .mesh, .pair, .ctr, .draws] := by
  refine .of_next (fun _ => rfl) fun s => ?_
  split <;> simp (disch := decide) only [Only.refl, only_ite, ite_self, only_commitOne, only_nv_update]

theorem keyStoreCommit_frame : Frame .keyStoreCommit [.host, .nv, .radio, .mesh, .pair, .ctr] := by
  refine .of_next (fun _ => rfl) fun s => ?_
  repeat' split
  all_goals simp +decide only [Only.refl, only_foldl, implies_true, only_answerLater, only_applyKey, only_count,
    only_settleKeys, only_nv_update]

theorem journalCompaction_frame : Frame .journalCompaction [.nv] :=
  .of_next (fun _ => rfl) fun s => by simp (disch := decide) only [Only.refl, only_ite, ite_self, only_nv_update]

/-! ### Radio sites -/

theorem echoSend_frame (site) : Frame (.echoSend site) [.qos, .radio, .ctr] :=
  .of_next (fun _ => rfl) fun s => by simp (disch := decide) only [Only.refl, only_ite, ite_self, only_modSite, only_sendDcw]

theorem gainDecision_frame (site) (antenna) (total) (clipped) (medianMdb) :
    Frame (.gainDecision site antenna total clipped medianMdb) [.qos, .radio, .ctr] :=
  .of_next (fun _ => rfl) fun s => by simp (disch := decide) only [Only.refl, only_ite, ite_self, only_sendGain]

theorem floorPeriod_frame (site) (band) (powers) : Frame (.floorPeriod site band powers) [.radio] :=
  .of_next (fun _ => rfl) fun s => by simp (disch := decide) only [Only.refl, only_ite, ite_self, only_modSite]

theorem floorWindowEnd_frame (site) (band) :
    Frame (.floorWindowEnd site band) [.host, .nv, .radio, .mesh, .pair, .ctr, .draws] := by
  refine .of_next (fun _ => rfl) fun s => ?_
  simp +decide only [Only.refl, only_foldl, implies_true, only_floorEnd, only_remapNode]

theorem tunerStepIssue_frame (site) (band) : Frame (.tunerStepIssue site band) [.qos, .radio, .ctr] :=
  .of_next (fun _ => rfl) fun s => by simp (disch := decide) only [Only.refl, only_ite, ite_self, only_count, only_modSite,
    only_sendDcw]

theorem dcwHello_frame (site) (body) (mac) : Frame (.dcwHello site body mac) [.host, .qos, .radio, .ctr] :=
  .of_next (fun _ => rfl) fun s => (only_takeWord (fun s body => by simp (disch := decide) only [Only.refl, only_ite, ite_self,
    only_goOnLoading, only_modSite, only_siteEvent, only_siteFault]) (by decide)).2 (Only.refl _ s)

theorem dcwReady_frame (site) (body) : Frame (.dcwReady site body) [.qos, .radio, .ctr] :=
  .of_next (fun _ => rfl) fun s => (only_takeWord (fun s body => by simp (disch := decide) only [Only.refl, only_ite, ite_self,
    only_configurePru, only_modSite]) (by decide)).2 (Only.refl _ s)

theorem dcwAck_frame (site) (body) : Frame (.dcwAck site body) [.qos, .radio, .ctr] := by
  refine .of_next (fun _ => rfl) fun s => (only_takeWord (fun s body => ?_) (by decide)).2 (Only.refl _ s)
  dsimp only
  repeat' split
  all_goals simp (disch := decide) only [Only.refl, only_count, only_goOnLoading, only_modSite]

theorem dcwTunerReport_frame (site) (band) (body) : Frame (.dcwTunerReport site band body) [.host, .qos, .radio, .ctr] :=
  .of_next (fun _ => rfl) fun s => (only_takeWord (fun s body => by simp (disch := decide) only [Only.refl, only_ite, ite_self,
    only_modSite, only_siteEvent]) (by decide)).2 (Only.refl _ s)

theorem dcwStatus_frame (site) (body) : Frame (.dcwStatus site body) [.host, .qos, .radio, .ctr] := by
  refine .of_next (fun _ => rfl) fun s => (only_takeWord (fun s body => ?_) (by decide)).2 (Only.refl _ s)
  dsimp only
  repeat' split
  all_goals simp (disch := decide) only [Only.refl, only_enterService, only_gauge, only_modSite, only_siteUnlocked]

theorem dcwEchoReply_frame (site) (body) (sentNs) (rxNs) :
    Frame (.dcwEchoReply site body sentNs rxNs) [.host, .ports, .qos, .radio, .pair, .ctr] := by
  refine .of_next (fun _ => rfl) fun s => (only_takeWord (fun s body => ?_) (by decide)).2 (Only.refl _ s)
  split <;> simp +decide only [Only.refl, implies_true, only_measure, only_modSite, only_applyDelay]

theorem dcwPruAlarm_frame (site) (body) : Frame (.dcwPruAlarm site body) [.host, .ports, .qos, .radio, .ctr] :=
  .of_next (fun _ => rfl) fun s => (only_takeWord (fun s body => by simp (disch := decide) only [Only.refl, only_ite, ite_self,
    only_count, only_loadFailed, only_modSite, only_siteEvent]) (by decide)).2 (Only.refl _ s)

theorem dcwRetryTimeout_frame (site) (wseq) : Frame (.dcwRetryTimeout site wseq) [.host, .ports, .qos, .radio, .ctr] := by
  refine .of_next (fun _ => rfl) fun s => ?_
  dsimp only
  repeat' split
  all_goals simp (disch := decide) only [Only.refl, only_count, only_leave, only_loadFailed, only_modSite, only_putWord]

theorem pruLoadTimeout_frame (site) (stage) : Frame (.pruLoadTimeout site stage) [.host, .ports, .radio, .ctr] :=
  .of_next (fun _ => rfl) fun s => by simp (disch := decide) only [Only.refl, only_ite, ite_self, only_loadFailed]

theorem statusTimeout_frame (site) : Frame (.statusTimeout site) [.host, .ports, .radio, .ctr] :=
  .of_next (fun _ => rfl) fun s => by simp (disch := decide) only [Only.refl, only_ite, ite_self, only_leave]

theorem basebandLaneFault_frame (lane) : Frame (.basebandLaneFault lane) [.host, .ports, .radio, .ctr] := by
  refine .of_next (fun _ => rfl) fun s => ?_
  split <;> simp (disch := decide) only [Only.refl, only_leave, only_modSite]

theorem basebandLaneRetestDone_frame (lane) (pass) : Frame (.basebandLaneRetestDone lane pass) [.host, .radio, .bist] := by
  refine .of_next (fun _ => rfl) fun s => ?_
  dsimp only
  repeat' split
  all_goals simp (disch := decide) only [Only.refl, only_alarm, only_modSite, only_siteEvent, only_siteFault,
    only_radio_bist_update]

theorem linkHoldExpiry_frame (site) : Frame (.linkHoldExpiry site) [.radio] :=
  .of_next (fun _ => rfl) fun s => by simp (disch := decide) only [Only.refl, only_modSite]

/-! ### The pair -/

theorem pairHello_frame (payload) : Frame (.pairHello payload) [.ms, .host, .pair] :=
  .of_next (fun _ => rfl) fun s => by simp (disch := decide) only [Only.refl, only_ite, ite_self, only_modPair, only_pairEntry,
    only_startSync, only_ms_update]

theorem pairHeartbeat_frame (mode) (synced) (faults) (cseq) :
    Frame (.pairHeartbeat mode synced faults cseq) [.ms, .host, .nv, .time, .ports, .qos, .radio, .mesh, .pins, .pair, .svc,
      .trace, .ctr, .draws] :=
  .of_next (fun _ => rfl) fun s => by simp (disch := decide) only [Only.refl, only_ite, ite_self, only_abortBefore,
    only_modPair, only_peerState, only_pins_update]

theorem pairDigest_frame (epoch) (digests) :
    Frame (.pairDigest epoch digests) [.ms, .host, .ports, .radio, .pins, .pair, .svc, .trace, .ctr, .draws] :=
  .of_next (fun _ => rfl) fun s => by simp (disch := decide) only [Only.refl, only_ite, ite_self, only_compareDigests,
    only_modPair]

theorem pairArbitrate_frame (m) :
    Frame (.pairArbitrate m) [.ms, .host, .ports, .fwd, .qos, .radio, .pins, .pair, .svc, .trace, .ctr, .draws] := by
  refine .of_next (fun _ => rfl) fun s => ?_
  dsimp only
  repeat' split
  all_goals simp (disch := decide) only [Only.refl, only_draw, only_modPair, only_outcome, only_selfCheck, only_settleCheck]

theorem pairEquinoxMsg_frame (m) :
    Frame (.pairEquinoxMsg m) [.ms, .host, .ports, .radio, .pins, .pair, .svc, .trace, .ctr, .draws] := by
  refine .of_next (fun _ => rfl) fun s => ?_
  repeat' split
  all_goals simp (disch := decide) only [Only.refl, only_abortSwap, only_agree]

theorem pairCommand_frame (opcode) (r) (release) :
    Frame (.pairCommand opcode r release) [.ms, .host, .cfg, .nv, .time, .ports, .fwd, .qos, .radio, .mesh, .pins, .pair,
      .svc, .bist, .trace, .ctr, .draws] := by
  refine .of_next (fun _ => rfl) fun s => ?_
  dsimp only
  repeat' split
  all_goals simp (disch := decide) only [Only.refl, only_dropSync, only_modMbox, only_modPair]

theorem pairCheck_frame (fn) (tag) (final) (status) (sub) :
    Frame (.pairCheck fn tag final status sub) [.ms, .host, .radio, .pair, .ctr, .draws] :=
  .of_next (fun _ => rfl) fun s => by simp (disch := decide) only [Only.refl, only_ite, ite_self, only_modPair, only_modTagged,
    only_settleFinals]

theorem pairEffect_frame (release) (e) : Frame (.pairEffect release e) [.ms, .host, .pair] :=
  .of_next (fun _ => rfl) fun s => by simp (disch := decide) only [Only.refl, only_ite, ite_self, only_receive]

theorem pairMeasure_frame (release) (m) : Frame (.pairMeasure release m) [.ms, .host, .pair] :=
  .of_next (fun _ => rfl) fun s => by simp (disch := decide) only [Only.refl, only_ite, ite_self, only_receive]

theorem pairLearn_frame (release) (pipe) (m) : Frame (.pairLearn release pipe m) [.ms, .host, .pair] :=
  .of_next (fun _ => rfl) fun s => by simp (disch := decide) only [Only.refl, only_ite, ite_self, only_receive]

theorem pairRetire_frame (release) (cell) (port) : Frame (.pairRetire release cell port) [.ms, .host, .pair] :=
  .of_next (fun _ => rfl) fun s => by simp (disch := decide) only [Only.refl, only_ite, ite_self, only_receive]

theorem pairSeed_frame (release) (seed) : Frame (.pairSeed release seed) [.ms, .host, .pair] :=
  .of_next (fun _ => rfl) fun s => by simp (disch := decide) only [Only.refl, only_ite, ite_self, only_receive]

theorem pairInject_frame (release) (x) : Frame (.pairInject release x) [.ms, .host, .pair] :=
  .of_next (fun _ => rfl) fun s => by simp (disch := decide) only [Only.refl, only_ite, ite_self, only_receive]

theorem pairKey_frame (payload) :
    Frame (.pairKey payload) [.ms, .host, .nv, .time, .ports, .qos, .radio, .mesh, .pins, .pair, .svc, .trace, .ctr, .draws] := by
  refine .of_next (fun _ => rfl) fun s => ?_
  repeat' split
  all_goals simp (disch := decide) only [Only.refl, only_modPair, only_pairDown]

theorem pairState_frame (payload) :
    Frame (.pairState payload) [.cfg, .nv, .time, .ports, .fwd, .qos, .radio, .mesh, .pins, .pair] := by
  refine .of_next (fun _ => rfl) fun s => ?_
  dsimp only
  repeat' split
  all_goals simp (disch := decide) only [Only.refl, only_copyConfig, only_mesh_radio_update]

theorem pairCellResend_frame : Frame .pairCellResend [.ctr] :=
  .of_next (fun _ => rfl) fun s => by simp (disch := decide) only [Only.refl, only_ite, ite_self, only_count]

theorem pairLinkTimeout_frame :
    Frame .pairLinkTimeout [.ms, .host, .nv, .time, .ports, .qos, .radio, .mesh, .pins, .pair, .svc, .trace, .ctr, .draws] :=
  .of_next (fun _ => rfl) fun s => by simp (disch := decide) only [Only.refl, only_pairDown]

theorem pairLaneFail_frame (lane) :
    Frame (.pairLaneFail lane) [.ms, .host, .nv, .time, .ports, .qos, .radio, .mesh, .pins, .pair, .svc, .trace, .ctr, .draws] :=
  .of_next (fun _ => rfl) fun s => by simp (disch := decide) only [Only.refl, only_ite, ite_self, only_modPair, only_pairDown,
    only_pairEntry]

theorem compareEpoch_frame :
    Frame .compareEpoch [.ms, .host, .cfg, .nv, .time, .ports, .fwd, .qos, .radio, .mesh, .pins, .pair, .svc, .bist, .trace,
      .ctr, .draws] :=
  .of_next (fun _ => rfl) fun s => by simp (disch := decide) only [Only.refl, only_ite, ite_self, only_digestsDue,
    only_pairSend, only_releaseDue]

theorem selfCheckDone_frame (fault) :
    Frame (.selfCheckDone fault) [.ms, .host, .ports, .fwd, .qos, .radio, .pins, .pair, .svc, .trace, .ctr, .draws] := by
  refine .of_next (fun _ => rfl) fun s => ?_
  split <;> simp (disch := decide) only [Only.refl, only_ite, ite_self, only_modPair, only_pairSend, only_settleCheck]

theorem selfCheckTimeout_frame :
    Frame .selfCheckTimeout [.ms, .host, .ports, .fwd, .qos, .radio, .pins, .pair, .svc, .trace, .ctr, .draws] := by
  refine .of_next (fun _ => rfl) fun s => ?_
  split <;> simp (disch := decide) only [Only.refl, only_modPair, only_settleCheck]

theorem syncPhaseDone_frame : Frame .syncPhaseDone [.ms, .host, .nv, .time, .ports, .radio, .pair, .bist, .draws] := by
  refine .of_next (fun _ => rfl) fun s => ?_
  repeat' split
  all_goals simp (disch := decide) only [Only.refl, only_alignClock, only_endConfig, only_modPair, only_pairSend,
    only_sendConfig, only_setSynced]

theorem syncConvergeTimeout_frame : Frame .syncConvergeTimeout [.qos, .ctr] := by
  refine .of_next (fun _ => rfl) fun s => ?_
  repeat' split
  all_goals simp +decide only [Only.refl, only_foldl, implies_true, only_count, only_flushPort, only_qos_update]

theorem activeInFall_frame :
    Frame .activeInFall [.ms, .host, .nv, .time, .ports, .qos, .radio, .mesh, .pins, .pair, .svc, .trace, .ctr, .draws] := by
  refine .of_next (fun _ => rfl) fun s => ?_
  dsimp only
  repeat' split
  all_goals simp (disch := decide) only [Only.refl, only_abortSwap, only_setActive, only_setDriving, only_takeOver,
    only_pins_update]

theorem takeoverWaitExpiry_frame :
    Frame .takeoverWaitExpiry [.ms, .host, .ports, .radio, .pins, .pair, .svc, .trace, .ctr, .draws] :=
  .of_next (fun _ => rfl) fun s => by simp (disch := decide) only [Only.refl, only_ite, ite_self, only_coldTake]

theorem partnerAliveLost_frame :
    Frame .partnerAliveLost [.ms, .host, .nv, .time, .ports, .qos, .radio, .mesh, .pins, .pair, .svc, .trace, .ctr, .draws] := by
  refine .of_next (fun _ => rfl) fun s => ?_
  dsimp only
  repeat' split
  all_goals simp (disch := decide) only [Only.refl, only_abortSwap, only_lostInSwap, only_partnerLost, only_pins_update]

theorem activeConflict_frame : Frame .activeConflict [.pins, .pair, .draws] :=
  .of_next (fun _ => rfl) fun s => by simp (disch := decide) only [Only.refl, only_ite, ite_self, only_drawOctets, only_modPair,
    only_pins_update]

theorem backoffExpiry_frame : Frame .backoffExpiry [.ms, .host, .ports, .radio, .pins, .pair, .svc, .trace, .ctr, .draws] :=
  .of_next (fun _ => rfl) fun s => by simp (disch := decide) only [Only.refl, only_ite, ite_self, only_enterSafe, only_modPair,
    only_pins_update]

theorem equinoxNotice_frame : Frame .equinoxNotice [.host] :=
  .of_next (fun _ => rfl) fun s => by simp (disch := decide) only [Only.refl, only_ite, ite_self, only_pairEntry]

theorem equinoxDecision_frame : Frame .equinoxDecision [.host, .pair, .ctr, .draws] :=
  .of_next (fun _ => rfl) fun s => by simp (disch := decide) only [Only.refl, only_ite, ite_self, only_agree, only_count,
    only_modPair, only_pairEntry, only_pairSend]

theorem equinoxEnter_frame : Frame .equinoxEnter [.ms, .host, .ports, .radio, .pins, .pair, .svc, .trace, .ctr, .draws] :=
  .of_next (fun _ => rfl) fun s => by simp (disch := decide) only [Only.refl, only_ite, ite_self, only_changeMode, only_modPair]

theorem radioStartHold_frame : Frame .radioStartHold [.pair] :=
  .of_next (fun _ => rfl) fun s => by simp (disch := decide) only [Only.refl, only_ite, ite_self, only_modPair]

theorem equinoxSwap_frame : Frame .equinoxSwap [.pins, .pair, .ctr] := by
  refine .of_next (fun _ => rfl) fun s => ?_
  repeat' split
  all_goals simp +decide only [Only.refl, only_foldl, implies_true, only_count, only_modPair, only_pins_update]

theorem equinoxConfirmTimeout_frame :
    Frame .equinoxConfirmTimeout [.ms, .host, .ports, .radio, .pins, .pair, .svc, .trace, .ctr, .draws] :=
  .of_next (fun _ => rfl) fun s => by simp (disch := decide) only [Only.refl, only_ite, ite_self, only_abortSwap, only_pairSend]

theorem equinoxComplete_frame : Frame .equinoxComplete [.ms, .host, .ports, .radio, .pins, .pair, .svc, .trace, .ctr, .draws] :=
  .of_next (fun _ => rfl) fun s => by simp (disch := decide) only [Only.refl, only_ite, ite_self, only_carry, only_changeMode,
    only_count, only_drawOctets, only_modPair, only_pairEntry, only_ms_update]

theorem equinoxAbort_frame : Frame .equinoxAbort [.ms, .host, .ports, .radio, .pins, .pair, .svc, .trace, .ctr, .draws] :=
  .of_next (fun _ => rfl) fun s => by simp (disch := decide) only [Only.refl, only_ite, ite_self, only_abortSwap]

theorem pipeTestStart_frame : Frame .pipeTestStart [.ports, .pair] := by
  refine .of_next (fun _ => rfl) fun s => ?_
  repeat' split
  all_goals simp (disch := decide) only [Only.refl, only_isolate, only_modPair]

theorem pipeTestDone_frame (pass) :
    Frame (.pipeTestDone pass) [.ms, .host, .ports, .fwd, .qos, .radio, .mesh, .pins, .pair, .svc, .trace, .ctr, .draws] := by
  refine .of_next (fun _ => rfl) fun s => ?_
  split <;> simp (disch := decide) only [Only.refl, only_ite, ite_self, only_bistEntry, only_count, only_isolate, only_modPair,
    only_outcome, only_pairSend, only_reinit]

/-! ### Self-test, the Service Port, observation and sensors -/

theorem bistRunDone_frame (pass) :
    Frame (.bistRunDone pass) [.host, .ports, .fwd, .mesh, .pins, .pair, .bist, .ctr, .draws] := by
  refine .of_next (fun _ => rfl) fun s => ?_
  split <;> simp (disch := decide) only [Only.refl, only_ite, ite_self, only_bistEntry, only_complete, only_count, only_isolate,
    only_reinit, only_switchRings, only_bist_update]

theorem astOpen_frame (frame) : Frame (.astOpen frame) [.svc, .ctr, .draws] := by
  refine .of_next (fun _ => rfl) fun s => ?_
  dsimp only
  repeat' split
  all_goals simp (disch := decide) only [Only.refl, only_bind, only_sendOpenAck, only_svcArrives, only_svcAuthFail]

theorem astData_frame (frame) : Frame (.astData frame) [.nv, .pair, .svc, .ctr, .draws] := by
  refine .of_next (fun _ => rfl) fun s => ?_
  dsimp only
  repeat' split
  all_goals simp (disch := decide) only [Only.refl, only_aesJob, only_count, only_programBlock, only_sendAck, only_setSession,
    only_svcArrives, only_svcAuthFail]

theorem astEnd_frame (frame) : Frame (.astEnd frame) [.host, .svc, .ctr, .draws] := by
  refine .of_next (fun _ => rfl) fun s => ?_
  dsimp only
  repeat' split
  all_goals simp (disch := decide) only [Only.refl, only_aesJob, only_setSession, only_svcArrives, only_svcAuthFail,
    only_svcSend, only_updateEntry]

theorem astAbort_frame (frame) : Frame (.astAbort frame) [.host, .pair, .svc, .ctr, .draws] := by
  refine .of_next (fun _ => rfl) fun s => ?_
  dsimp only
  repeat' split
  all_goals simp (disch := decide) only [Only.refl, only_aesJob, only_endSession, only_svcArrives, only_svcAuthFail]

theorem astAckTimer_frame : Frame .astAckTimer [.svc, .ctr, .draws] := by
  refine .of_next (fun _ => rfl) fun s => ?_
  split <;> simp (disch := decide) only [Only.refl, only_ite, ite_self, only_sendAck]

theorem sessionTimeout_frame : Frame .sessionTimeout [.host, .pair, .svc, .ctr, .draws] := by
  refine .of_next (fun _ => rfl) fun s => ?_
  split <;> simp (disch := decide) only [Only.refl, only_ite, ite_self, only_endSession]

theorem installDone_frame : Frame .installDone [.host, .nv, .pair, .svc, .ctr, .draws] := by
  refine .of_next (fun _ => rfl) fun s => ?_
  dsimp only
  repeat' split
  all_goals simp (disch := decide) only [Only.refl, only_endSession, only_finishInstall, only_modFlash]

theorem snapshotPeriodExpiry_frame : Frame .snapshotPeriodExpiry [.snap, .ctr] :=
  .of_next (fun _ => rfl) fun s => by simp (disch := decide) only [Only.refl, only_ite, ite_self, only_take]

theorem snapshotPublished_frame : Frame .snapshotPublished [.host, .snap, .ctr, .draws] := by
  refine .of_next (fun _ => rfl) fun s => ?_
  repeat' split
  all_goals simp +decide only [Only.refl, only_foldl, implies_true, only_answerLater, only_count, only_draw, only_snap_update]

theorem traceFrameSend_frame : Frame .traceFrameSend [.trace] :=
  .of_next (fun _ => rfl) fun s => by simp (disch := decide) only [Only.refl, only_ite, ite_self, only_trace_update]

theorem traceSampleTimer_frame : Frame .traceSampleTimer [.trace, .ctr, .draws] := by
  refine .of_next (fun _ => rfl) fun s => ?_
  repeat' split
  all_goals simp +decide only [Only.refl, only_foldl, implies_true, only_draw, only_gauge, only_sampleDue]

theorem sensorRead_frame (v) : Frame (.sensorRead v) [.host, .pins, .power] :=
  .of_next (fun _ => rfl) fun s => by simp (disch := decide) only [Only.refl, only_ite, ite_self, only_dieWarning,
    only_hbmWarning, only_power_pins_update]

theorem laneLockLost_frame (lane) : Frame (.laneLockLost lane) [.ports, .ctr] :=
  .of_next (fun _ => rfl) fun s => by simp (disch := decide) only [Only.refl, only_ite, ite_self, only_count, only_ports_update]

theorem laneLockAcquired_frame (lane) : Frame (.laneLockAcquired lane) [.ports] :=
  .of_next (fun _ => rfl) fun s => by simp (disch := decide) only [Only.refl, only_ite, ite_self, only_ports_update]

theorem pairLinkUp_frame : Frame .pairLinkUp [.pair] :=
  .of_next (fun _ => rfl) fun s => by simp (disch := decide) only [Only.refl, only_ite, ite_self, only_modPair, only_pairSend]

theorem refclkLost_frame (tile) : Frame (.refclkLost tile) [.host, .ports, .radio, .pins, .ctr] :=
  .of_next (fun _ => rfl) fun s => by simp (disch := decide) only [Only.refl, only_ite, ite_self, only_tileLost,
    only_pins_update]

theorem pciePerstRelease_frame : Frame .pciePerstRelease [.host] :=
  .of_next (fun _ => rfl) fun s => by simp (disch := decide) only [Only.refl, only_host_update]

theorem busMasterEnable_frame (f) (bit) : Frame (.busMasterEnable f bit) [.host] := by
  refine .of_next (fun _ => rfl) fun s => ?_
  repeat' split
  all_goals simp +decide only [Only.refl, only_ite, ite_self, only_foldl, implies_true, only_modMbox, only_setWell,
    only_writeResponse, only_host_update]

theorem servicePortModeTimer_frame : Frame .servicePortModeTimer [.svc] :=
  .of_next (fun _ => rfl) fun s => by simp (disch := decide) only [Only.refl, only_ite, ite_self, only_svc_update]

theorem servicePortForeignFrame_frame (frame) : Frame (.servicePortForeignFrame frame) [.svc, .ctr] :=
  .of_next (fun _ => rfl) fun s => by simp (disch := decide) only [Only.refl, only_ite, ite_self, only_count, only_svcArrives]

end Sys2Proof.Claims

/-! ### Every command -/

namespace Sys2Proof.Claims

open Machine

theorem exec_frame (c : Instr) : Frame c (parts c) := by
  cases c with
  | sysWarmReset r => exact sysWarmReset_frame r
  | sysShutdown r => exact sysShutdown_frame r
  | sysConfigClear r => exact sysConfigClear_frame r
  | sysSetShares r => exact sysSetShares_frame r
  | sysWellAssign r => exact sysWellAssign_frame r
  | sysRingConfig r => exact sysRingConfig_frame r
  | tenantReset r => exact tenantReset_frame r
  | portSetSpeed r => exact portSetSpeed_frame r
  | portSetCutThrough r => exact portSetCutThrough_frame r
  | portSetPreempt r => exact portSetPreempt_frame r
  | portSetRadio r => exact portSetRadio_frame r
  | portRingPair r => exact portRingPair_frame r
  | portGetStatus r => exact portGetStatus_frame r
  | portOpticsMap r => exact portOpticsMap_frame r
  | portOpticsIo r ack data => exact portOpticsIo_frame r ack data
  | portMdioIo r data => exact portMdioIo_frame r data
  | tableCommit r => exact tableCommit_frame r
  | tableStatus r => exact tableStatus_frame r
  | tableVrfConfig r => exact tableVrfConfig_frame r
  | tablePortL2 r => exact tablePortL2_frame r
  | tableVlanWrite r => exact tableVlanWrite_frame r
  | tableIntfWrite r => exact tableIntfWrite_frame r
  | tableMacWrite r => exact tableMacWrite_frame r
  | tableMacRead r => exact tableMacRead_frame r
  | tableMacFlush r => exact tableMacFlush_frame r
  | tableNexthopWrite r => exact tableNexthopWrite_frame r
  | tableRouteWrite r => exact tableRouteWrite_frame r
  | tableRuleWrite r => exact tableRuleWrite_frame r
  | tableMirrorWrite r => exact tableMirrorWrite_frame r
  | qosSetLimits r => exact qosSetLimits_frame r
  | qosSetSched r => exact qosSetSched_frame r
  | qosSetShaper r => exact qosSetShaper_frame r
  | qosSetLaunch r => exact qosSetLaunch_frame r
  | qosSetClassMap r => exact qosSetClassMap_frame r
  | qosPolicerWrite r => exact qosPolicerWrite_frame r
  | qosQueueFlush r => exact qosQueueFlush_frame r
  | qosQueueStatus r => exact qosQueueStatus_frame r
  | qosCisternStatus r => exact qosCisternStatus_frame r
  | timeBaseConfig r => exact timeBaseConfig_frame r
  | timeGet r => exact timeGet_frame r
  | timeStep r => exact timeStep_frame r
  | timePtpConfig r => exact timePtpConfig_frame r
  | timePortConfig r => exact timePortConfig_frame r
  | timePpsConfig r => exact timePpsConfig_frame r
  | timeSynceConfig r => exact timeSynceConfig_frame r
  | timeSetTenantBase r => exact timeSetTenantBase_frame r
  | radioSiteConfig r => exact radioSiteConfig_frame r
  | radioDwellConfig r => exact radioDwellConfig_frame r
  | radioSiteStatus r => exact radioSiteStatus_frame r
  | radioFloorRead r => exact radioFloorRead_frame r
  | radioDwellRead r => exact radioDwellRead_frame r
  | radioSiteReset r => exact radioSiteReset_frame r
  | radioLoadingConfig r => exact radioLoadingConfig_frame r
  | radioMapRead r => exact radioMapRead_frame r
  | schedDomainAllot r => exact schedDomainAllot_frame r
  | schedSiteAllot r => exact schedSiteAllot_frame r
  | schedLoadImage r => exact schedLoadImage_frame r
  | schedActivate r => exact schedActivate_frame r
  | schedDeactivate r => exact schedDeactivate_frame r
  | schedUnload r => exact schedUnload_frame r
  | schedStatus r => exact schedStatus_frame r
  | nodeDomainAssign r => exact nodeDomainAssign_frame r
  | nodeDomainConfig r => exact nodeDomainConfig_frame r
  | nodeDomainStatus r => exact nodeDomainStatus_frame r
  | nodeRead r => exact nodeRead_frame r
  | nodeWrite r => exact nodeWrite_frame r
  | nodeRemove r => exact nodeRemove_frame r
  | nodeSend r => exact nodeSend_frame r
  | nodeDomainRekey r => exact nodeDomainRekey_frame r
  | nodeDistStart r => exact nodeDistStart_frame r
  | nodeDistStop r => exact nodeDistStop_frame r
  | keyTenantRootCreate r => exact keyTenantRootCreate_frame r
  | keyDomainKeyCreate r => exact keyDomainKeyCreate_frame r
  | keyImport r => exact keyImport_frame r
  | keyDestroy r => exact keyDestroy_frame r
  | keySlotAssign r => exact keySlotAssign_frame r
  | keySlotStatus r => exact keySlotStatus_frame r
  | keyReadPublic r => exact keyReadPublic_frame r
  | keyCacheShares r => exact keyCacheShares_frame r
  | keyMapRead r => exact keyMapRead_frame r
  | pairConfig r => exact pairConfig_frame r
  | pairGetStatus r => exact pairGetStatus_frame r
  | pairEquinox r => exact pairEquinox_frame r
  | pairLaneTrim r => exact pairLaneTrim_frame r
  | pairClear r => exact pairClear_frame r
  | pairResync r => exact pairResync_frame r
  | bistRun r => exact bistRun_frame r
  | bistStatus r => exact bistStatus_frame r
  | bistConfig r => exact bistConfig_frame r
  | updateOpen r => exact updateOpen_frame r
  | updateStatus r => exact updateStatus_frame r
  | updateInstall r => exact updateInstall_frame r
  | updateAbort r => exact updateAbort_frame r
  | updateBankInfo r => exact updateBankInfo_frame r
  | updateNodeImageDrop r => exact updateNodeImageDrop_frame r
  | observeSnapshot r => exact observeSnapshot_frame r
  | observeCounters r => exact observeCounters_frame r
  | observeTraceConfig r => exact observeTraceConfig_frame r
  | unknownOpcode opcode r => exact unknownOpcode_frame opcode r
  | modeReqSafe word => exact modeReqSafe_frame word
  | modeReqWarm word => exact modeReqWarm_frame word
  | mboxEnable f word => exact mboxEnable_frame f word
  | cmdTail f count => exact cmdTail_frame f count
  | rspHead f count => exact rspHead_frame f count
  | puntTail f n count => exact puntTail_frame f n count
  | injTail f n count => exact injTail_frame f n count
  | wellEnable f slot word => exact wellEnable_frame f slot word
  | drainDone f slot word => exact drainDone_frame f slot word
  | drainClose f slot word => exact drainClose_frame f slot word
  | snapTake word => exact snapTake_frame word
  | rtcLoad word => exact rtcLoad_frame word
  | rtcLoRead => exact rtcLoRead_frame
  | rtcHiRead => exact rtcHiRead_frame
  | epochLoRead => exact epochLoRead_frame
  | tempPeakRead => exact tempPeakRead_frame
  | registerWrite f bar offset width value => exact registerWrite_frame f bar offset width value
  | msixUnmask f v => exact msixUnmask_frame f v
  | functionLevelReset f => exact functionLevelReset_frame f
  | pciePerst => exact pciePerst_frame
  | jtagIdcode => exact jtagIdcode_frame
  | jtagSample cells => exact jtagSample_frame cells
  | jtagBypass code => exact jtagBypass_frame code
  | resetNLow => exact resetNLow_frame
  | powerFailWarning => exact powerFailWarning_frame
  | powerFailDrainDone => exact powerFailDrainDone_frame
  | railOutOfRange rails => exact railOutOfRange_frame rails
  | bootStart b => exact bootStart_frame b
  | processorsLoaded => exact processorsLoaded_frame
  | bootSelfTestDone failed => exact bootSelfTestDone_frame failed
  | bootComplete => exact bootComplete_frame
  | pairingWaitExpiry => exact pairingWaitExpiry_frame
  | migrationDone => exact migrationDone_frame
  | migrationStepError => exact migrationStepError_frame
  | migrationTimeout => exact migrationTimeout_frame
  | lkgReached => exact lkgReached_frame
  | processorFault p => exact processorFault_frame p
  | processorReloadDone p => exact processorReloadDone_frame p
  | bscFault => exact bscFault_frame
  | dataLevelFault level number cause => exact dataLevelFault_frame level number cause
  | blockResetDone level number ok => exact blockResetDone_frame level number ok
  | coreDieFault reservoir cause => exact coreDieFault_frame reservoir cause
  | worldViolation region master write addr => exact worldViolation_frame region master write addr
  | commandDmaTimeout f ring addr => exact commandDmaTimeout_frame f ring addr
  | msixModerationTimer f => exact msixModerationTimer_frame f
  | wellEntryWrite w badParity => exact wellEntryWrite_frame w badParity
  | pacedEntryDue key => exact pacedEntryDue_frame key
  | injectFrameRead f n descs frame => exact injectFrameRead_frame f n descs frame
  | puntCellArrival f n => exact puntCellArrival_frame f n
  | frameRx p frame => exact frameRx_frame p frame
  | rxFrameEnd p fin => exact rxFrameEnd_frame p fin
  | maintenanceSlot pipe => exact maintenanceSlot_frame pipe
  | generationBoundary => exact generationBoundary_frame
  | cyclePlanStart => exact cyclePlanStart_frame
  | egressSelect p inProgress ecc => exact egressSelect_frame p inProgress ecc
  | launchTimeReached q => exact launchTimeReached_frame q
  | launchHoldStart q => exact launchHoldStart_frame q
  | linkUp p => exact linkUp_frame p
  | linkDown p reason => exact linkDown_frame p reason
  | preemptVerifyTimeout p => exact preemptVerifyTimeout_frame p
  | preemptVerifyResponse p => exact preemptVerifyResponse_frame p
  | opticsProbe cage present => exact opticsProbe_frame cage present
  | opticsFlagPoll cage flags => exact opticsFlagPoll_frame cage flags
  | i2cStretchTimeout bus sda => exact i2cStretchTimeout_frame bus sda
  | activeInRise => exact activeInRise_frame
  | offsetSample tb x => exact offsetSample_frame tb x
  | sourceLost tb => exact sourceLost_frame tb
  | ppsInEdge => exact ppsInEdge_frame
  | freq10mLost => exact freq10mLost_frame
  | ppsOutEdge => exact ppsOutEdge_frame
  | ptpMessageRx inst p msg => exact ptpMessageRx_frame inst p msg
  | ptpSyncTx p => exact ptpSyncTx_frame p
  | slotBoundary d => exact slotBoundary_frame d
  | imageActivation d => exact imageActivation_frame d
  | deactivateDone d => exact deactivateDone_frame d
  | imageLoadDone d dmaOk image => exact imageLoadDone_frame d dmaOk image
  | txIssue d slot cell => exact txIssue_frame d slot cell
  | ackIssue d id => exact ackIssue_frame d id
  | roeUplinkFrame p frame stampNs => exact roeUplinkFrame_frame p frame stampNs
  | detection site d => exact detection_frame site d
  | headerDecision id header => exact headerDecision_frame id header
  | softValuesDelivered id site part erased values => exact softValuesDelivered_frame id site part erased values
  | codewordReady id cw => exact codewordReady_frame id cw
  | decodeDone id cw bits iters reliability => exact decodeDone_frame id cw bits iters reliability
  | decodeAbandon id cw => exact decodeAbandon_frame id cw
  | securedFrameRx a => exact securedFrameRx_frame a
  | downlinkAckRx handle ack => exact downlinkAckRx_frame handle ack
  | joinRequest a => exact joinRequest_frame a
  | joinTimeout handle => exact joinTimeout_frame handle
  | borderPacket d packet => exact borderPacket_frame d packet
  | reasmTimeout handle tag => exact reasmTimeout_frame handle tag
  | nodeSendDeadline fn tag => exact nodeSendDeadline_frame fn tag
  | distEnd d => exact distEnd_frame d
  | nodeStoreScrub handle uncorrectable => exact nodeStoreScrub_frame handle uncorrectable
  | mramCommitDone => exact mramCommitDone_frame
  | keyStoreCommit => exact keyStoreCommit_frame
  | journalCompaction => exact journalCompaction_frame
  | echoSend site => exact echoSend_frame site
  | gainDecision site antenna total clipped medianMdb => exact gainDecision_frame site antenna total clipped medianMdb
  | floorPeriod site band powers => exact floorPeriod_frame site band powers
  | floorWindowEnd site band => exact floorWindowEnd_frame site band
  | tunerStepIssue site band => exact tunerStepIssue_frame site band
  | dcwHello site body mac => exact dcwHello_frame site body mac
  | dcwReady site body => exact dcwReady_frame site body
  | dcwAck site body => exact dcwAck_frame site body
  | dcwTunerReport site band body => exact dcwTunerReport_frame site band body
  | dcwStatus site body => exact dcwStatus_frame site body
  | dcwEchoReply site body sentNs rxNs => exact dcwEchoReply_frame site body sentNs rxNs
  | dcwPruAlarm site body => exact dcwPruAlarm_frame site body
  | dcwRetryTimeout site wseq => exact dcwRetryTimeout_frame site wseq
  | pruLoadTimeout site stage => exact pruLoadTimeout_frame site stage
  | statusTimeout site => exact statusTimeout_frame site
  | basebandLaneFault lane => exact basebandLaneFault_frame lane
  | basebandLaneRetestDone lane pass => exact basebandLaneRetestDone_frame lane pass
  | linkHoldExpiry site => exact linkHoldExpiry_frame site
  | pairHello payload => exact pairHello_frame payload
  | pairHeartbeat mode synced faults cseq => exact pairHeartbeat_frame mode synced faults cseq
  | pairDigest epoch digests => exact pairDigest_frame epoch digests
  | pairArbitrate m => exact pairArbitrate_frame m
  | pairEquinoxMsg m => exact pairEquinoxMsg_frame m
  | pairCommand opcode r release => exact pairCommand_frame opcode r release
  | pairCheck fn tag final status sub => exact pairCheck_frame fn tag final status sub
  | pairEffect release e => exact pairEffect_frame release e
  | pairMeasure release m => exact pairMeasure_frame release m
  | pairLearn release pipe m => exact pairLearn_frame release pipe m
  | pairRetire release cell port => exact pairRetire_frame release cell port
  | pairSeed release seed => exact pairSeed_frame release seed
  | pairInject release x => exact pairInject_frame release x
  | pairKey payload => exact pairKey_frame payload
  | pairState payload => exact pairState_frame payload
  | pairCellResend => exact pairCellResend_frame
  | pairLinkTimeout => exact pairLinkTimeout_frame
  | pairLaneFail lane => exact pairLaneFail_frame lane
  | compareEpoch => exact compareEpoch_frame
  | selfCheckDone fault => exact selfCheckDone_frame fault
  | selfCheckTimeout => exact selfCheckTimeout_frame
  | syncPhaseDone => exact syncPhaseDone_frame
  | syncConvergeTimeout => exact syncConvergeTimeout_frame
  | activeInFall => exact activeInFall_frame
  | takeoverWaitExpiry => exact takeoverWaitExpiry_frame
  | partnerAliveLost => exact partnerAliveLost_frame
  | activeConflict => exact activeConflict_frame
  | backoffExpiry => exact backoffExpiry_frame
  | equinoxNotice => exact equinoxNotice_frame
  | equinoxDecision => exact equinoxDecision_frame
  | equinoxEnter => exact equinoxEnter_frame
  | radioStartHold => exact radioStartHold_frame
  | equinoxSwap => exact equinoxSwap_frame
  | equinoxConfirmTimeout => exact equinoxConfirmTimeout_frame
  | equinoxComplete => exact equinoxComplete_frame
  | equinoxAbort => exact equinoxAbort_frame
  | pipeTestStart => exact pipeTestStart_frame
  | pipeTestDone pass => exact pipeTestDone_frame pass
  | bistRunDone pass => exact bistRunDone_frame pass
  | astOpen frame => exact astOpen_frame frame
  | astData frame => exact astData_frame frame
  | astEnd frame => exact astEnd_frame frame
  | astAbort frame => exact astAbort_frame frame
  | astAckTimer => exact astAckTimer_frame
  | sessionTimeout => exact sessionTimeout_frame
  | installDone => exact installDone_frame
  | snapshotPeriodExpiry => exact snapshotPeriodExpiry_frame
  | snapshotPublished => exact snapshotPublished_frame
  | traceFrameSend => exact traceFrameSend_frame
  | traceSampleTimer => exact traceSampleTimer_frame
  | sensorRead v => exact sensorRead_frame v
  | laneLockLost lane => exact laneLockLost_frame lane
  | laneLockAcquired lane => exact laneLockAcquired_frame lane
  | pairLinkUp => exact pairLinkUp_frame
  | refclkLost tile => exact refclkLost_frame tile
  | pciePerstRelease => exact pciePerstRelease_frame
  | busMasterEnable f bit => exact busMasterEnable_frame f bit
  | servicePortModeTimer => exact servicePortModeTimer_frame
  | servicePortForeignFrame frame => exact servicePortForeignFrame_frame frame

/-- The queue is listed for no command. -/
theorem parts_contains_pending (c : Instr) : (parts c).contains .pending = false := by
  cases c <;> rfl

theorem pending_not_mem_parts (c : Instr) : .pending ∉ parts c := by
  simpa using parts_contains_pending c

end Sys2Proof.Claims

section
open Sys2Proof Sys2Proof.Machine Sys2Proof.Claims

/-- Settles O58, command by command; the queue is one of the parts that no list holds. -/
theorem everyCommandKeepsTheOtherParts : Obligations.EveryCommandKeepsTheOtherParts := by
  intro c s t hnext
  have hkept : Only (parts c) s t := exec_frame c s t hnext
  exact ⟨hkept, hkept .pending (pending_not_mem_parts c)⟩

end

/-! PROOFS. The statements of the architecture: the commands of the system, generations of table writes, and faults of processors,
data levels and the core die. -/

/-! ### SYS_RING_CONFIG of a ring that still holds a frame -/

namespace Sys2Proof.Claims

open Machine

/-- A punt ring that was disabled with a frame in hand (R98): the first of the frame's two cells fills the one buffer posted,
so that the second finds none and counts in TRUNC_DROP (R100). -/
def cutRing : Ring :=
  { configured := true, log2 := 6, bufUnits := 1, tail := 1, bufs := [List.replicate 256 0]
    frames := [{ bytes := List.replicate 300 0, reason := 0, source := 0, rule := 0, stamp := none, arrived := 256 }] }

/-- M3 SOLO, with one descriptor in PF0's command ring, whose punt ring 0 is `cutRing`. -/
def cutState : State :=
  { State.reset with
    ms := { State.reset.ms with mode := .m3 }
    procs := { loaded := true }
    host := { mbox := [(0, { enable := true, cmdLog2 := 6, rspLog2 := 6, cmdTail := 1 })]
              busMaster := [(0, true)], punt := [(0, cutRing)] } }

/-- SYS_RING_CONFIG that enables punt ring 0 of PF0 again, with 64 entries and buffers of 256 bytes. -/
def enableRing : Aci :=
  { fn := 0, tagWord := 1, byte4 := 0, byte5 := 0, len := 16, buffer := 0, buf := []
    inl := [0x80, 6, 1] ++ List.replicate 45 0 }

theorem enableRing_accepted : accepted sysRingConfigSpec enableRing cutState = true := by decide +kernel

theorem enableRing_enables_punt :
    (sysRingConfigSpec.req enableRing cutState).fl 16 6 = false ∧ (sysRingConfigSpec.req enableRing cutState).fl 16 7 = true ∧
      (cutState.puntRing 0 0).enable = false := by decide +kernel

/-- The frame in hand runs to its end before the ring is enabled, and is counted there. -/
theorem enableRing_counts_truncDrop :
    ((sysRingConfigSpec.exec enableRing cutState).puntRing 0 0).truncDrop = 1 := by decide +kernel

theorem cutRing_truncDrop : (cutState.puntRing 0 0).truncDrop = 0 := by decide +kernel

end Sys2Proof.Claims

section
open Sys2Proof Sys2Proof.Machine Sys2Proof.Claims

/-- Refutes O18: SYS_RING_CONFIG, which the statement lets keep the counts of a disabled ring as it enables it again, first lets
the ring's frame in hand run to its end (R98). In `cutState` that frame finds no buffer, so TRUNC_DROP goes from 0 to 1 (R100). -/
theorem not_systemCommandsTakeEffect : ¬ Obligations.SystemCommandsTakeEffect := by
  rintro ⟨-, -, -, hring, -⟩
  obtain ⟨t, hexec, -, -, -, -, hpunt, -⟩ := hring enableRing cutState enableRing_accepted trivial
  have ht : sysRingConfigSpec.exec enableRing cutState = t := Host.Outcome.next.inj hexec
  obtain ⟨hpuntRing, hon, hoff⟩ := enableRing_enables_punt
  obtain ⟨-, -, -, -, -, -, -, hkept, -⟩ := (hpunt hpuntRing).2.1 hon hoff
  have hcounts : (t.puntRing 0 0).truncDrop = 1 := ht ▸ enableRing_counts_truncDrop
  exact absurd (hcounts.symm.trans (hkept.trans cutRing_truncDrop)) (by decide)

end

/-! ### Ports of a state, links that go down, and block resets that stand -/

namespace Sys2Proof.Machine

theorem tget_foldl_entries {α : Type} [DecidableEq α] (d : α) {P : α → Prop} (l : List (Nat × α)) (t : Tab α) (n : Nat)
    (hl : ∀ e ∈ l, P e.2) (ht : P (tget d t n)) : P (tget d (l.foldl (fun t e => tset d t e.1 e.2) t) n) := by
  induction l generalizing t with
  | nil => exact ht
  | cons e l ih =>
    refine ih (tset d t e.1 e.2) (fun x hx => hl x (List.mem_cons_of_mem _ hx)) ?_
    by_cases hn : n = e.1
    · rw [hn, tget_tset_self]
      exact hl e List.mem_cons_self
    · rwa [tget_tset_ne d t e.2 hn]

/-- What holds of every entry of a list, and of the default, holds of each value of its table. -/
theorem tget_listTab {α : Type} [DecidableEq α] (d : α) {P : α → Prop} {l : List (Nat × α)} (n : Nat)
    (hl : ∀ e ∈ l, P e.2) (hd : P d) : P (tget d (listTab d l) n) :=
  tget_foldl_entries d l [] n hl hd

theorem State.portSt_of_ports {s t : State} (h : t.ports = s.ports) (k : Nat) : t.portSt k = s.portSt k := by
  simp only [State.portSt, h]

/-- Whether a block reset stands is a matter of three tables. -/
theorem State.inBlockReset_congr {s t : State} (hst : t.ports.st = s.ports.st) (hlane : t.ports.laneReset = s.ports.laneReset)
    (hpipe : t.ports.pipeReset = s.ports.pipeReset) (l n : Nat) : t.inBlockReset l n = s.inBlockReset l n := by
  simp only [State.inBlockReset, State.portSt, hst, hlane, hpipe]

theorem State.inBlockReset_of_ports {s t : State} (h : t.ports = s.ports) (l n : Nat) : t.inBlockReset l n = s.inBlockReset l n :=
  inBlockReset_congr (by rw [h]) (by rw [h]) (by rw [h]) l n

/-- The state of a port once its link has gone down (R160, R168). -/
def PortSt.down (x : PortSt) : PortSt := { x with linkUp := false, preActive := false, verifyTries := 0, mmHolds := [] }

theorem State.takeDownFor_ports (s : State) (p reason siteReason : Nat) :
    (s.takeDownFor p reason siteReason).ports = if (s.portSt p).linkUp then (s.modPort p PortSt.down).ports else s.ports := by
  unfold State.takeDownFor
  split
  · dsimp only
    split <;> simp <;> rfl
  · rfl

theorem State.modPort_inBlockReset (s : State) (p l n : Nat) (f : PortSt → PortSt) (h : ∀ x, (f x).inReset = x.inReset) :
    (s.modPort p f).inBlockReset l n = s.inBlockReset l n := by
  unfold State.inBlockReset
  split
  case h_2 =>
    by_cases hn : n = p
    · rw [hn, modPort_portSt, h]
    · rw [modPort_portSt_ne s f hn]
  all_goals rfl

@[simp] theorem State.takeDownFor_inBlockReset (s : State) (p reason siteReason l n : Nat) :
    (s.takeDownFor p reason siteReason).inBlockReset l n = s.inBlockReset l n := by
  have hports := s.takeDownFor_ports p reason siteReason
  split at hports
  · rw [inBlockReset_of_ports hports, modPort_inBlockReset s p l n PortSt.down fun _ => rfl]
  · exact inBlockReset_of_ports hports l n

@[simp] theorem State.takeDown_inBlockReset (s : State) (p reason l n : Nat) :
    (s.takeDown p reason).inBlockReset l n = s.inBlockReset l n :=
  s.takeDownFor_inBlockReset p reason _ l n

/-- The link of the port is down, and the others are as they were. -/
theorem State.takeDownFor_linkUp (s : State) (p reason siteReason k : Nat) :
    ((s.takeDownFor p reason siteReason).portSt k).linkUp = (decide (k ≠ p) && (s.portSt k).linkUp) := by
  have hports := s.takeDownFor_ports p reason siteReason
  split at hports
  case isTrue hup =>
    rw [portSt_of_ports hports]
    by_cases hk : k = p
    · simp [hk, PortSt.down]
    · simp [modPort_portSt_ne s _ hk, hk]
  case isFalse hdown =>
    rw [portSt_of_ports hports]
    by_cases hk : k = p
    · simp [hk, hdown]
    · simp [hk]

/-- Operations that each take one link down, and no other up, leave every one of their links down. -/
theorem State.foldl_linkUp {g : State → Nat → State}
    (h : ∀ s p k, ((g s p).portSt k).linkUp = (decide (k ≠ p) && (s.portSt k).linkUp)) (l : List Nat) (s : State) (k : Nat) :
    ((l.foldl g s).portSt k).linkUp = (decide (k ∉ l) && (s.portSt k).linkUp) := by
  induction l generalizing s with
  | nil => simp
  | cons p l ih =>
    rw [List.foldl_cons, ih, h]
    by_cases hk : k = p <;> simp [hk]

/-- The ring pairs switch, and the ports stay as they are but for their pass-through. -/
theorem State.switchRings_ports (s : State) :
    s.switchRings.ports = { s.ports with passThrough := s.setRings.ports.passThrough } := by
  simp only [State.switchRings]
  rw [foldl_ports _ (fun acc k => by simp)]
  rfl

@[simp] theorem State.switchRings_portSt (s : State) (k : Nat) : s.switchRings.portSt k = s.portSt k := by
  simp only [State.portSt, switchRings_ports]

@[simp] theorem State.switchRings_inBlockReset (s : State) (l n : Nat) : s.switchRings.inBlockReset l n = s.inBlockReset l n := by
  simp only [State.inBlockReset, switchRings_portSt, switchRings_ports]

@[simp] theorem State.levelFault_inBlockReset (s : State) (level action number cause l n : Nat) :
    (s.levelFault level action number cause).inBlockReset l n = s.inBlockReset l n :=
  inBlockReset_of_ports (by simp) l n

@[simp] theorem State.levelFault_portSt (s : State) (level action number cause k : Nat) :
    (s.levelFault level action number cause).portSt k = s.portSt k :=
  portSt_of_ports (by simp) k

/-- An operation on ports that keeps every block reset, done for each of a list of them, keeps every block reset. -/
theorem State.foldl_inBlockReset {α : Type} {g : State → α → State} {l n : Nat}
    (h : ∀ s e, (g s e).inBlockReset l n = s.inBlockReset l n) (es : List α) (s : State) :
    (es.foldl g s).inBlockReset l n = s.inBlockReset l n := by
  induction es generalizing s with
  | nil => rfl
  | cons e es ih => exact (ih (g s e)).trans (h s e)

/-! ### Data levels -/

theorem State.resetPort_linkUp (s : State) (p k : Nat) :
    ((s.resetPort p).portSt k).linkUp = (decide (k ≠ p) && (s.portSt k).linkUp) := by
  have hports : ((s.takeDown p 8).flushPort p).ports = (s.takeDown p 8).ports := by simp
  exact (congrArg PortSt.linkUp (portSt_of_ports hports k)).trans (s.takeDownFor_linkUp p 8 _ k)

theorem State.modPort_linkUp (s : State) (p k : Nat) (f : PortSt → PortSt) (h : ∀ x, (f x).linkUp = x.linkUp) :
    ((s.modPort p f).portSt k).linkUp = (s.portSt k).linkUp := by
  by_cases hk : k = p
  · rw [hk, modPort_portSt, h]
  · rw [modPort_portSt_ne s f hk]

/-- A lane enters block reset: its lock is lost (R29, R178). -/
def State.loseLane (s : State) (lane : Nat) : State :=
  let s := s.countIf (tget false s.ports.laneLocked lane) (.lane lane .lockLoss)
  { s with ports := { s.ports with laneReset := tset false s.ports.laneReset lane true, laneLocked := tset false s.ports.laneLocked lane false } }

/-- A port of a pipe that enters block reset, which the reset of the pipe holds from then on (R29). -/
def State.resetPipePort (s : State) (p : Nat) : State := (s.resetPort p).modPort p fun x => { x with inReset := false }

/-- A pipe enters block reset (R29). -/
def State.losePipe (s : State) (pipe : Nat) : State :=
  { s with ports := { s.ports with pipeReset := tset false s.ports.pipeReset pipe true } }

theorem State.loseLane_inBlockReset (s : State) (lane : Nat) : (s.loseLane lane).inBlockReset 1 lane = true :=
  tget_tset_self false _ lane true

theorem State.losePipe_inBlockReset (s : State) (pipe : Nat) : (s.losePipe pipe).inBlockReset 3 pipe = true :=
  tget_tset_self false _ pipe true

theorem State.losePipe_portSt (s : State) (pipe k : Nat) : (s.losePipe pipe).portSt k = s.portSt k := rfl

/-- What a pipe has learned goes with its reset (log entry 27). -/
theorem State.resetPipe_macs (s : State) (pipe : Nat) {e : Nat × Option MacEntry} (h : e ∈ (s.resetPipe pipe).fwd.macs) :
    learnedIn pipe e = false := by
  have hkept : e ∈ s.fwd.macs.filter fun e => !learnedIn pipe e := h
  simpa using (List.mem_filter.1 hkept).2

theorem State.resetPipe_ports (s : State) (pipe : Nat) : (s.resetPipe pipe).ports = s.ports := by simp

theorem State.beginReset_lane (s : State) (lane : Nat) :
    s.beginReset 1 lane = ((s.loseLane lane).portsOnLane lane).foldl (fun s p => s.takeDownFor p 2 2) (s.loseLane lane) := rfl

theorem State.beginReset_port (s : State) (p : Nat) :
    s.beginReset 2 p = (s.resetPort p).modPort p fun x => { x with inReset := true } := rfl

theorem State.beginReset_pipe (s : State) (pipe : Nat) :
    s.beginReset 3 pipe = (((pipePorts pipe).foldl State.resetPipePort s).losePipe pipe).resetPipe pipe := by
  unfold State.losePipe State.resetPipePort State.beginReset
  rfl

/-- The ports of a lane are a matter of the settings. -/
theorem State.portsOnLane_of_cfg {s t : State} (h : t.cfg = s.cfg) (lane : Nat) : t.portsOnLane lane = s.portsOnLane lane := by
  simp only [State.portsOnLane, State.portLanes, State.portCfg, h]

theorem State.mem_pipePorts (pipe : Nat) (i : Fin 32) : 32 * pipe + i.val ∈ pipePorts pipe :=
  List.mem_map_of_mem (List.mem_range.2 i.isLt)

/-- The object that has failed is in block reset. -/
theorem State.beginReset_inBlockReset (s : State) {level number : Nat} (h : number < levelCount level) :
    (s.beginReset level number).inBlockReset level number = true := by
  match level with
  | 0 => cases h
  | 1 =>
    rw [beginReset_lane, foldl_inBlockReset fun s p => s.takeDownFor_inBlockReset p 2 2 1 number]
    exact loseLane_inBlockReset s number
  | 2 => exact congrArg PortSt.inReset (modPort_portSt ..)
  | 3 =>
    rw [beginReset_pipe, inBlockReset_of_ports (resetPipe_ports _ number)]
    exact losePipe_inBlockReset _ number
  | n + 4 => simp [levelCount] at h

theorem State.beginReset_lane_linkUp (s : State) (lane : Nat) {p : Nat} (hp : p ∈ s.portsOnLane lane) :
    ((s.beginReset 1 lane).portSt p).linkUp = false := by
  have hcfg : (s.loseLane lane).portsOnLane lane = s.portsOnLane lane := portsOnLane_of_cfg (by simp [State.loseLane]) lane
  rw [beginReset_lane, foldl_linkUp fun s p k => s.takeDownFor_linkUp p 2 2 k]
  simp [hcfg, hp]

theorem State.beginReset_port_linkUp (s : State) (p : Nat) : ((s.beginReset 2 p).portSt p).linkUp = false := by
  rw [beginReset_port, modPort_linkUp _ p p _ (by simp), resetPort_linkUp]
  simp

theorem State.resetPipePort_linkUp (s : State) (p k : Nat) :
    ((s.resetPipePort p).portSt k).linkUp = (decide (k ≠ p) && (s.portSt k).linkUp) :=
  (modPort_linkUp _ p k _ (by simp)).trans (s.resetPort_linkUp p k)

theorem State.beginReset_pipe_linkUp (s : State) (pipe : Nat) (i : Fin 32) :
    ((s.beginReset 3 pipe).portSt (32 * pipe + i.val)).linkUp = false := by
  rw [beginReset_pipe, portSt_of_ports (resetPipe_ports _ pipe), losePipe_portSt, foldl_linkUp resetPipePort_linkUp]
  simp [mem_pipePorts]

theorem State.beginReset_pipe_macs (s : State) (pipe : Nat) {e : Nat × Option MacEntry} (h : e ∈ (s.beginReset 3 pipe).fwd.macs) :
    learnedIn pipe e = false := by
  rw [beginReset_pipe] at h
  exact resetPipe_macs _ pipe h

/-! ### The end of a block reset -/

theorem State.levelFault_ports (s : State) (level action number cause : Nat) :
    (s.levelFault level action number cause).ports = s.ports := by simp

theorem State.draw_inBlockReset (s : State) (l n : Nat) : s.draw.2.inBlockReset l n = s.inBlockReset l n := rfl

/-- Only lanes, ports and pipes have block resets. -/
theorem State.level_of_inBlockReset {s : State} {l n : Nat} (h : s.inBlockReset l n = true) : l = 1 ∨ l = 2 ∨ l = 3 := by
  match l with
  | 0 => cases h
  | 1 | 2 | 3 => simp
  | l + 4 => cases h

/-- What the end of a block reset leaves at its object: no reset, and the object in service or out of it. -/
def State.ResetEnded (s : State) (l n : Nat) (out : Bool) : Prop :=
  s.inBlockReset l n = false ∧ (l = 1 → tget false s.ports.laneOut n = out) ∧ (l = 2 → (s.portSt n).outOfService = out) ∧
    (l = 3 → tget false s.ports.pipeOut n = out)

theorem State.endReset_ended (s : State) {l : Nat} (n : Nat) (out : Bool) (hl : l = 1 ∨ l = 2 ∨ l = 3) :
    (s.endReset l n out).ResetEnded l n out := by
  rcases hl with rfl | rfl | rfl
  all_goals simp [State.ResetEnded, State.endReset, State.inBlockReset]

theorem State.ResetEnded.tell {s : State} {l n : Nat} {out : Bool} (h : s.ResetEnded l n out) (level action number cause : Nat) :
    (s.levelFault level action number cause).switchRings.ResetEnded l n out := by
  simpa [State.ResetEnded, switchRings_ports] using h

end Sys2Proof.Machine
namespace Sys2Proof.Machine

/-! ### A core die fault abandons the resets, and the entry to M7 SAFE begins none -/

/-- No block reset stands after a core die fault (R29). -/
@[simp] theorem State.abandonResets_inBlockReset (s : State) (l n : Nat) : s.abandonResets.inBlockReset l n = false := by
  unfold State.inBlockReset
  split
  case h_2 =>
    refine tget_listTab (P := fun x : PortSt => x.inReset = false) {} n (fun e he => ?_) rfl
    obtain ⟨x, -, rfl⟩ := List.mem_map.1 he
    rfl
  all_goals rfl

@[simp] theorem State.portEvent_inBlockReset (s : State) (type port cage reason detail l n : Nat) :
    (s.portEvent type port cage reason detail).inBlockReset l n = s.inBlockReset l n :=
  inBlockReset_of_ports (by simp) l n

@[simp] theorem State.modCage_inBlockReset (s : State) (c l n : Nat) (f : CageSt → CageSt) :
    (s.modCage c f).inBlockReset l n = s.inBlockReset l n :=
  inBlockReset_congr rfl rfl rfl l n

@[simp] theorem State.resetCage_inBlockReset (s : State) (c l n : Nat) : (s.resetCage c).inBlockReset l n = s.inBlockReset l n := by
  unfold State.resetCage
  split
  · rw [foldl_inBlockReset fun s p => s.takeDown_inBlockReset p 7 l n, modCage_inBlockReset]
  · rfl

@[simp] theorem State.markCage_inBlockReset (bus : Nat) (s : State) (c l n : Nat) :
    (s.markCage bus c).inBlockReset l n = s.inBlockReset l n := by
  unfold State.markCage
  split
  · rw [portEvent_inBlockReset, modCage_inBlockReset]
  · rfl

/-- What a recovery of a bus does to cages and ports (R185, R186). -/
theorem State.recoverBus_inBlockReset (s : State) (bus : Nat) (sda : List Bool) (l n : Nat) :
    (s.recoverBus bus sda).inBlockReset l n = s.inBlockReset l n := by
  have hcages (t : State) : (((s.recovery bus sda).marked.foldl (State.markCage bus)
      ((s.recovery bus sda).reset.foldl State.resetCage t)).inBlockReset l n) = t.inBlockReset l n := by
    rw [foldl_inBlockReset fun s c => s.markCage_inBlockReset bus c l n,
      foldl_inBlockReset fun s c => s.resetCage_inBlockReset c l n]
  unfold State.recoverBus
  dsimp only
  split
  · exact hcages _
  · exact (portEvent_inBlockReset ..).trans (hcages _)

theorem State.recoverBus_activeOut (s : State) (bus : Nat) (sda : List Bool) :
    (s.recoverBus bus sda).pins.activeOut = s.pins.activeOut := by
  unfold State.recoverBus
  dsimp only
  split <;> simp

theorem State.wakeBus_inBlockReset (s : State) (b l n : Nat) : (s.wakeBus b).inBlockReset l n = s.inBlockReset l n := by
  unfold State.wakeBus
  split
  · rfl
  · exact recoverBus_inBlockReset ..

theorem State.wakeBus_activeOut (s : State) (b : Nat) : (s.wakeBus b).pins.activeOut = s.pins.activeOut := by
  unfold State.wakeBus
  split
  · rfl
  · exact recoverBus_activeOut ..

@[simp] theorem State.setDriving_inBlockReset (s : State) (l n : Nat) : s.setDriving.inBlockReset l n = s.inBlockReset l n := by
  unfold State.setDriving
  split
  · rfl
  · split
    · dsimp only
      rw [foldl_inBlockReset fun s b => s.wakeBus_inBlockReset b l n]
      exact inBlockReset_congr rfl rfl rfl l n
    · exact inBlockReset_congr rfl rfl rfl l n

theorem State.foldl_activeOut {α : Type} {g : State → α → State} (h : ∀ s e, (g s e).pins.activeOut = s.pins.activeOut)
    (es : List α) (s : State) : (es.foldl g s).pins.activeOut = s.pins.activeOut := by
  induction es generalizing s with
  | nil => rfl
  | cons e es ih => exact (ih (g s e)).trans (h s e)

@[simp] theorem State.setDriving_activeOut (s : State) : s.setDriving.pins.activeOut = s.pins.activeOut := by
  unfold State.setDriving
  split
  · rfl
  · split
    · dsimp only
      rw [foldl_activeOut State.wakeBus_activeOut]
    · rfl

@[simp] theorem State.switchRings_activeOut (s : State) : s.switchRings.pins.activeOut = s.pins.activeOut := by
  simp only [State.switchRings]
  rw [foldl_pins _ (fun acc k => by simp)]
  rfl

@[simp] theorem State.allDown_inBlockReset (s : State) (l n : Nat) : s.allDown.inBlockReset l n = s.inBlockReset l n :=
  foldl_inBlockReset (fun s p => s.takeDown_inBlockReset p 8 l n) ..

@[simp] theorem State.stopContexts_inBlockReset (s : State) (l n : Nat) : s.stopContexts.inBlockReset l n = s.inBlockReset l n :=
  inBlockReset_of_ports (by simp) l n

@[simp] theorem State.tellMode_inBlockReset (s : State) (old : Mode) (t l n : Nat) :
    (s.tellMode old t).inBlockReset l n = s.inBlockReset l n :=
  inBlockReset_of_ports (by simp) l n

@[simp] theorem State.setActive_inBlockReset (s : State) (l n : Nat) : s.setActive.inBlockReset l n = s.inBlockReset l n := rfl

@[simp] theorem State.setAlive_inBlockReset (s : State) (l n : Nat) : s.setAlive.inBlockReset l n = s.inBlockReset l n := rfl

@[simp] theorem State.setAlive_activeOut (s : State) : s.setAlive.pins.activeOut = s.pins.activeOut := rfl

@[simp] theorem State.setStart_inBlockReset (s : State) (l n : Nat) : s.setStart.inBlockReset l n = s.inBlockReset l n := rfl

@[simp] theorem State.sessionMode_inBlockReset (s : State) (new : Mode) (l n : Nat) :
    (s.sessionMode new).inBlockReset l n = s.inBlockReset l n :=
  inBlockReset_of_ports (by simp) l n

/-- A change of mode arrives (R42). -/
theorem State.changeMode_mode (s : State) (new : Mode) (t cause : Nat) (h : s.ms.inTransition = false) :
    (s.changeMode new t cause).ms.mode = new ∧ (s.changeMode new t cause).ms.safeCause = cause := by
  unfold State.changeMode
  rw [if_neg (by simp [h])]
  dsimp only
  split <;> simp

/-- ACTIVE_OUT is low in M7 SAFE (R39). -/
theorem State.setActive_of_m7 (s : State) (h : s.ms.mode = .m7) : s.setActive.pins.activeOut = false := by
  simp [State.setActive, h]

theorem State.changeMode_m7_activeOut (s : State) (t cause : Nat) (h : s.ms.inTransition = false) :
    (s.changeMode .m7 t cause).pins.activeOut = false := by
  unfold State.changeMode
  rw [if_neg (by simp [h])]
  simp [setActive_of_m7]

/-- A change of mode begins and ends no block reset. -/
theorem State.changeMode_inBlockReset (s : State) (new : Mode) (t cause l n : Nat) :
    (s.changeMode new t cause).inBlockReset l n = s.inBlockReset l n := by
  unfold State.changeMode
  split
  · rfl
  · dsimp only
    split <;> split
    all_goals
      simp only [tellMode_inBlockReset, stopContexts_inBlockReset, allDown_inBlockReset, setDriving_inBlockReset,
        switchRings_inBlockReset, setAlive_inBlockReset, setActive_inBlockReset]
      exact inBlockReset_of_ports (by simp) l n

theorem State.enterSafe_arrives (s : State) (cause : Nat) (h : s.ms.inTransition = false) :
    (s.enterSafe cause).ms.mode = .m7 ∧ (s.enterSafe cause).ms.safeCause = cause ∧ (s.enterSafe cause).pins.activeOut = false := by
  unfold State.enterSafe
  rw [if_neg (by simp [h])]
  have harrives := changeMode_mode (s.modPair fun p => { p with
    phase := 0, check := none, agreement := none, swapped := false, backoff := none }) .m7 18 cause (by simpa using h)
  exact ⟨harrives.1, harrives.2, changeMode_m7_activeOut _ 18 cause (by simpa using h)⟩

theorem State.enterSafe_inBlockReset (s : State) (cause l n : Nat) : (s.enterSafe cause).inBlockReset l n = s.inBlockReset l n := by
  unfold State.enterSafe
  split
  · rfl
  · exact (changeMode_inBlockReset ..).trans (inBlockReset_of_ports rfl l n)

end Sys2Proof.Machine

/-! ### Faults of the data levels and of the core die -/

namespace Sys2Proof.Claims

open Machine

/-- The state after a DATA_LEVEL_FAULT that begins a block reset (R29, R180). -/
def levelFaulted (s : State) (level number cause : Nat) : State := ((s.levelFault level 1 number cause).beginReset level number).switchRings

theorem dataLevelFault_discarded {s : State} {l : Fin 4} {n : Nat} (cause : Fin 7)
    (h : s.ms.mode = .m0 ∨ s.coreFailed = true ∨ levelCount l.val ≤ n ∨ s.levelBusy l.val n = true) :
    exec (.dataLevelFault l n cause) s = .next s :=
  congrArg Host.Outcome.next (if_pos h)

theorem dataLevelFault_begins {s : State} {l : Fin 4} {n : Nat} (cause : Fin 7) (hm : s.ms.mode ≠ .m0)
    (hcore : s.coreFailed = false) (hn : n < levelCount l.val) (hbusy : s.levelBusy l.val n = false) :
    exec (.dataLevelFault l n cause) s = .next (levelFaulted s l.val n cause.val) :=
  congrArg Host.Outcome.next (if_neg (by simp [hm, hcore, hbusy, hn]))

theorem levelFaulted_inBlockReset (s : State) {l n : Nat} (cause : Nat) (h : n < levelCount l) :
    (levelFaulted s l n cause).inBlockReset l n = true := by
  rw [levelFaulted, State.switchRings_inBlockReset, State.beginReset_inBlockReset _ h]

theorem levelFaulted_links_down (s : State) (l n cause : Nat) :
    (l = 2 → ((levelFaulted s l n cause).portSt n).linkUp = false) ∧
    (l = 1 → ∀ p ∈ s.portsOnLane n, ((levelFaulted s l n cause).portSt p).linkUp = false) ∧
    (l = 3 → ∀ i : Fin 32, ((levelFaulted s l n cause).portSt (32 * n + i.val)).linkUp = false) := by
  simp only [levelFaulted, State.switchRings_portSt]
  refine ⟨?_, ?_, ?_⟩
  · rintro rfl
    exact State.beginReset_port_linkUp ..
  · rintro rfl p hp
    have hcfg : (s.levelFault 1 1 n cause).portsOnLane n = s.portsOnLane n := State.portsOnLane_of_cfg (by simp) n
    exact State.beginReset_lane_linkUp _ n (hcfg ▸ hp)
  · rintro rfl i
    exact State.beginReset_pipe_linkUp ..

theorem levelFaulted_pipe_macs (s : State) (n cause : Nat) {e : Nat × Option MacEntry} (h : e ∈ (levelFaulted s 3 n cause).fwd.macs) :
    learnedIn n e = false :=
  State.beginReset_pipe_macs _ n (by simpa [levelFaulted] using h)

/-- A fault of a lane, port or pipe begins its block reset, or is discarded (R29, R180). -/
theorem dataLevelFault_resets (s : State) (l : Fin 4) (n : Nat) (cause : Fin 7) (hm : s.ms.mode ≠ .m0)
    (hcore : s.coreFailed = false) (hn : n < levelCount l.val) (hbusy : s.levelBusy l.val n = false) :
    Gives (.dataLevelFault l n cause) s fun t => t.inBlockReset l.val n = true ∧ (l.val = 2 → (t.portSt n).linkUp = false) ∧
      (l.val = 1 → ∀ p ∈ s.portsOnLane n, (t.portSt p).linkUp = false) ∧
      (l.val = 3 → (∀ i : Fin 32, (t.portSt (32 * n + i.val)).linkUp = false) ∧ ∀ e ∈ t.fwd.macs, learnedIn n e = false) := by
  obtain ⟨hport, hlane, hpipe⟩ := levelFaulted_links_down s l.val n cause.val
  refine ⟨_, dataLevelFault_begins cause hm hcore hn hbusy, levelFaulted_inBlockReset s cause.val hn, hport, hlane, fun hl => ?_⟩
  exact ⟨hpipe hl, fun e he => levelFaulted_pipe_macs s n cause.val (hl ▸ he)⟩

theorem blockResetDone_discarded {s : State} {l : Fin 4} {n : Nat} (ok : Bool) (h : s.inBlockReset l.val n = false) :
    exec (.blockResetDone l n ok) s = .next s :=
  congrArg Host.Outcome.next (if_pos (by simp [h]))

/-- BLOCK_RESET_DONE ends the reset, with the object in service or out of it (R180). -/
theorem blockResetDone_ends (s : State) (l : Fin 4) (n : Nat) (ok : Bool) (h : s.inBlockReset l.val n = true) :
    Gives (.blockResetDone l n ok) s fun t => t.ResetEnded l.val n (!ok) := by
  have hlevel := State.level_of_inBlockReset h
  have hexec : exec (.blockResetDone l n ok) s = .next _ := congrArg Host.Outcome.next (if_neg (by simp [h]))
  refine ⟨_, hexec, ?_⟩
  cases ok with
  | true => exact (State.endReset_ended s n false hlevel).tell l.val 2 n 0
  | false => exact (State.endReset_ended s.draw.2 n true hlevel).tell l.val 3 n _

/-- SAFE_CAUSE of a core die fault: 7 of the Reservoir, else 2 (R41). -/
def dieCause (reservoir : Bool) : Nat := if reservoir then 7 else 2

/-- What a core die fault does before any change of mode: it abandons the resets and is told; one of the Reservoir does neither. -/
def dieTold (s : State) (reservoir : Bool) (cause : Nat) : State :=
  if reservoir then s else s.abandonResets.levelFault 4 4 0 cause

/-- What M1 BOOT keeps of a core die fault until its chain ends: the cause for T10 (R42), and the entry, which waits for the processors. -/
def dieKept (s : State) (reservoir : Bool) (cause : Nat) : State :=
  let s := if s.procs.loaded || reservoir then dieTold s reservoir cause
    else { s.abandonResets with ms := { s.ms with dieFaults := s.ms.dieFaults ++ [cause] } }
  { s with ms := { s.ms with bootSafe := if s.ms.bootSafe = 2 then 2 else dieCause reservoir } }

theorem dieTold_ms (s : State) (reservoir : Bool) (cause : Nat) : (dieTold s reservoir cause).ms = s.ms := by
  unfold dieTold
  split
  · rfl
  · simp

theorem dieTold_inBlockReset (s : State) (cause l n : Nat) : (dieTold s false cause).inBlockReset l n = false := by
  simp [dieTold]

theorem dieKept_ms (s : State) (reservoir : Bool) (cause : Nat) :
    (dieKept s reservoir cause).ms = { s.ms with
      bootSafe := if s.ms.bootSafe = 2 then 2 else dieCause reservoir
      dieFaults := s.ms.dieFaults ++ (if s.procs.loaded || reservoir then [] else [cause]) } := by
  unfold dieKept
  dsimp only
  split
  · simp [dieTold_ms]
  · simp

theorem dieKept_only (s : State) (reservoir : Bool) (cause : Nat) : Only [.ms, .host, .ports] s (dieKept s reservoir cause) := by
  simp (disch := decide) only [dieKept, dieTold, only_ms_update, only_ite, only_levelFault, only_abandonResets, Only.refl, ite_self]

theorem dieKept_reservoir_ports (s : State) (cause : Nat) : (dieKept s true cause).ports = s.ports := by
  simp [dieKept, dieTold]

theorem dieKept_inBlockReset (s : State) (cause l n : Nat) : (dieKept s false cause).inBlockReset l n = false := by
  unfold dieKept
  dsimp only
  split
  · exact (State.inBlockReset_of_ports rfl l n).trans (dieTold_inBlockReset s cause l n)
  · exact (State.inBlockReset_of_ports rfl l n).trans (s.abandonResets_inBlockReset l n)

/-- In M1 BOOT the device enters M7 SAFE at once where the chain has ended, else when it does (T10). -/
theorem coreDieFault_m1 {s : State} (reservoir : Bool) (cause : Fin 7) (hm : s.ms.mode = .m1) :
    exec (.coreDieFault reservoir cause) s = .next (if s.ms.bootStep = 4 then
      (dieKept s reservoir cause.val).changeMode .m7 10 (dieKept s reservoir cause.val).ms.bootSafe else dieKept s reservoir cause.val) := by
  have hstep : (dieKept s reservoir cause.val).ms.bootStep = s.ms.bootStep := by rw [dieKept_ms]
  rw [← hstep]
  show execCoreDieFault reservoir cause s = _
  unfold execCoreDieFault
  rw [hm]
  rfl

theorem coreDieFault_m7 {s : State} (reservoir : Bool) (cause : Fin 7) (hm : s.ms.mode = .m7) :
    exec (.coreDieFault reservoir cause) s = .next (dieTold s reservoir cause.val) := by
  show execCoreDieFault reservoir cause s = _
  unfold execCoreDieFault
  rw [hm]
  rfl

theorem coreDieFault_running {s : State} (reservoir : Bool) (cause : Fin 7) (h0 : s.ms.mode ≠ .m0) (h1 : s.ms.mode ≠ .m1)
    (h7 : s.ms.mode ≠ .m7) :
    exec (.coreDieFault reservoir cause) s = .next ((dieTold s reservoir cause.val).enterSafe (dieCause reservoir)) := by
  show execCoreDieFault reservoir cause s = _
  unfold execCoreDieFault
  cases hm : s.ms.mode
  case m0 => exact absurd hm h0
  case m1 => exact absurd hm h1
  case m7 => exact absurd hm h7
  all_goals rfl

theorem coreDieFault_discarded {s : State} {reservoir : Bool} (cause : Fin 7)
    (h : s.ms.mode = .m0 ∨ s.ms.mode = .m7 ∧ reservoir = true) : exec (.coreDieFault reservoir cause) s = .next s := by
  rcases h with hm | ⟨hm, rfl⟩
  · show execCoreDieFault reservoir cause s = _
    unfold execCoreDieFault
    rw [hm]
  · exact coreDieFault_m7 true cause hm

/-- In every mode but M0 DORMANT a fault of the core die ends all block resets (R29). -/
theorem coreDieFault_ends_resets (s : State) (cause : Fin 7) (h0 : s.ms.mode ≠ .m0) :
    Gives (.coreDieFault false cause) s fun t => ∀ l n, t.inBlockReset l n = false := by
  by_cases h1 : s.ms.mode = .m1
  · refine ⟨_, coreDieFault_m1 false cause h1, fun l n => ?_⟩
    split
    · rw [State.changeMode_inBlockReset, dieKept_inBlockReset]
    · exact dieKept_inBlockReset ..
  by_cases h7 : s.ms.mode = .m7
  · exact ⟨_, coreDieFault_m7 false cause h7, fun l n => dieTold_inBlockReset ..⟩
  · refine ⟨_, coreDieFault_running false cause h0 h1 h7, fun l n => ?_⟩
    rw [State.enterSafe_inBlockReset, dieTold_inBlockReset]

/-- While the chain of M1 BOOT runs, the fault is kept for its end. -/
theorem coreDieFault_in_chain (s : State) (reservoir : Bool) (cause : Fin 7) (hm : s.ms.mode = .m1) (hstep : s.ms.bootStep ≠ 4) :
    exec (.coreDieFault reservoir cause) s = .next (dieKept s reservoir cause.val) := by
  rw [coreDieFault_m1 reservoir cause hm, if_neg hstep]

theorem coreDieFault_after_chain (s : State) (reservoir : Bool) (cause : Fin 7) (hm : s.ms.mode = .m1) (hstep : s.ms.bootStep = 4)
    (ht : s.ms.inTransition = false) : Gives (.coreDieFault reservoir cause) s fun t =>
      t.ms.mode = .m7 ∧ t.ms.safeCause = (if s.ms.bootSafe = 2 then 2 else dieCause reservoir) ∧ t.pins.activeOut = false := by
  have htransit : (dieKept s reservoir cause.val).ms.inTransition = false := by rw [dieKept_ms, ht]
  have harrives := State.changeMode_mode _ .m7 10 (dieKept s reservoir cause.val).ms.bootSafe htransit
  refine ⟨_, (coreDieFault_m1 reservoir cause hm).trans (by rw [if_pos hstep]), harrives.1, ?_, State.changeMode_m7_activeOut _ _ _ htransit⟩
  rw [harrives.2, dieKept_ms]

theorem coreDieFault_enters_safe (s : State) (reservoir : Bool) (cause : Fin 7) (h0 : s.ms.mode ≠ .m0) (h1 : s.ms.mode ≠ .m1)
    (h7 : s.ms.mode ≠ .m7) (ht : s.ms.inTransition = false) : Gives (.coreDieFault reservoir cause) s fun t =>
      t.ms.mode = .m7 ∧ t.ms.safeCause = dieCause reservoir ∧ t.pins.activeOut = false :=
  ⟨_, coreDieFault_running reservoir cause h0 h1 h7, State.enterSafe_arrives _ _ (by rw [dieTold_ms, ht])⟩

end Sys2Proof.Claims

section
open Sys2Proof Sys2Proof.Machine Sys2Proof.Claims

/-- Settles O40, level by level; what the rules leave to a choice of the model (log entries 26, 27 and 83) holds as the model has it. -/
theorem dataLevelFaultsResetTheirBlock : Obligations.DataLevelFaultsResetTheirBlock := by
  refine ⟨fun s l n cause => ⟨dataLevelFault_discarded cause, dataLevelFault_resets s l n cause⟩,
    fun s l n ok => ⟨blockResetDone_discarded ok, blockResetDone_ends s l n ok⟩, fun s reservoir cause => ⟨?_, ?_, ?_, ?_, ?_, ?_⟩⟩
  · exact coreDieFault_discarded cause
  · rintro hm rfl
    exact coreDieFault_m7 false cause hm
  · rintro hm rfl
    exact coreDieFault_ends_resets s cause hm
  · refine fun hm hstep => ⟨_, coreDieFault_in_chain s reservoir cause hm hstep, dieKept_only s reservoir cause.val, ?_, dieKept_ms s reservoir cause.val⟩
    rintro rfl
    exact dieKept_reservoir_ports ..
  · exact coreDieFault_after_chain s reservoir cause
  · exact coreDieFault_enters_safe s reservoir cause

end

/-! ### What a restart keeps -/

namespace Sys2Proof.Machine

/-- A step of the boot chain leaves the mode, fuses and flash banks, and takes no cause out of RESET_CAUSE (R41, R46). -/
structure State.BootKeeps (s t : State) : Prop where
  mode : t.ms.mode = s.ms.mode
  cause : ∀ k, s.ms.resetCause.getLsbD k = true → t.ms.resetCause.getLsbD k = true
  fuses : t.nv.fuses = s.nv.fuses
  flashA : t.nv.flashA = s.nv.flashA
  flashB : t.nv.flashB = s.nv.flashB

theorem State.BootKeeps.refl (s : State) : s.BootKeeps s := ⟨rfl, fun _ h => h, rfl, rfl, rfl⟩

theorem State.BootKeeps.trans {s t u : State} (hst : s.BootKeeps t) (htu : t.BootKeeps u) : s.BootKeeps u :=
  ⟨htu.mode.trans hst.mode, fun k h => htu.cause k (hst.cause k h), htu.fuses.trans hst.fuses, htu.flashA.trans hst.flashA,
    htu.flashB.trans hst.flashB⟩

/-- A cause that is added comes to those that were there. -/
theorem State.addCause_resetCause (s : State) (bit k : Nat) (h : s.ms.resetCause.getLsbD k = true) :
    (s.addCause bit).ms.resetCause.getLsbD k = true := by
  simp [State.addCause, h]

theorem State.readBlobs_bootKeeps (s : State) : s.BootKeeps s.readBlobs := by
  unfold State.readBlobs
  split <;> constructor <;> simp

theorem State.takeMark_bootKeeps (s : State) : s.BootKeeps s.takeMark := ⟨rfl, fun _ h => h, rfl, rfl, rfl⟩

theorem State.modBoot_bootKeeps (s : State) (bank : Bool) (f : BootRec → BootRec) : s.BootKeeps (s.modBoot bank f) := by
  cases bank <;> exact ⟨rfl, fun _ h => h, rfl, rfl, rfl⟩

theorem State.addCause_bootKeeps (s : State) (bit : Nat) : s.BootKeeps (s.addCause bit) :=
  ⟨rfl, s.addCause_resetCause bit, rfl, rfl, rfl⟩

theorem State.rejectBank_bootKeeps (s : State) (bank : Bool) (reason : Nat) : s.BootKeeps (s.rejectBank bank reason) := by
  have hrejected := (s.modBoot_bootKeeps bank fun r => { r with failed := true }).trans (addCause_bootKeeps _ 6)
  exact ⟨hrejected.mode, hrejected.cause, hrejected.fuses, hrejected.flashA, hrejected.flashB⟩

theorem State.tryBank_bootKeeps (s : State) (bank committed : Bool) : s.BootKeeps (s.tryBank bank committed).1 := by
  have htried := s.modBoot_bootKeeps bank fun r => { r with tried := r.tried + 1 }
  unfold State.tryBank
  dsimp only
  split
  · exact .refl s
  split
  · exact s.rejectBank_bootKeeps bank 5
  split
  · exact htried
  · exact htried.trans (rejectBank_bootKeeps ..)

theorem State.selectBank_bootKeeps (s : State) : s.BootKeeps s.selectBank.1 := by
  have hfirst := s.tryBank_bootKeeps s.committed true
  unfold State.selectBank
  dsimp only
  split
  · exact hfirst
  · exact hfirst.trans (tryBank_bootKeeps ..)

theorem State.takeSet_bootKeeps (s : State) (bank : Bool) (x : ImageSet) : s.BootKeeps (s.takeSet bank x) :=
  ⟨rfl, fun _ h => h, rfl, rfl, rfl⟩

theorem State.rewrap_bootKeeps (s : State) (x : ImageSet) : s.BootKeeps (s.rewrap x) := by
  unfold State.rewrap
  dsimp only
  split
  · exact .refl s
  · exact ⟨rfl, fun _ h => h, rfl, rfl, rfl⟩

theorem State.useBlob_bootKeeps (s : State) (b : Blob) : s.BootKeeps (s.useBlob b) := by
  unfold State.useBlob
  dsimp only
  split <;> exact ⟨rfl, fun _ h => h, rfl, rfl, rfl⟩

theorem State.chooseBlob_bootKeeps (s : State) (x : ImageSet) : s.BootKeeps (s.chooseBlob x) := by
  unfold State.chooseBlob
  split
  · exact useBlob_bootKeeps ..
  split
  case h_1 b _ =>
    have hused := s.useBlob_bootKeeps b
    exact ⟨hused.mode, hused.cause, hused.fuses, hused.flashA, hused.flashB⟩
  split
  · exact .refl s
  · exact ⟨rfl, fun _ h => h, rfl, rfl, rfl⟩

theorem State.changeMode_resetCause (s : State) (new : Mode) (t cause : Nat) :
    (s.changeMode new t cause).ms.resetCause = s.ms.resetCause := by
  have hstart (u : State) : u.setStart.ms.resetCause = u.ms.resetCause := rfl
  unfold State.changeMode
  split
  · rfl
  · dsimp only
    split <;> split <;> simp [hstart]

theorem State.writeMaps_bootKeeps (s : State) :
    s.BootKeeps { s.writeMaps with ms := { s.writeMaps.ms with bootStep := 1 } } := by
  unfold State.writeMaps
  exact ⟨rfl, fun _ h => h, rfl, rfl, rfl⟩

/-- The chain ends with a bank that runs, or waits for its clock, or goes on to M7 SAFE for want of a bank (R51, R55). -/
theorem State.bootChain_cases (s : State) (b : BootInput) :
    ∃ t, s.BootKeeps t ∧ (s.bootChain b = t ∨ s.bootChain b = t.changeMode .m7 10 3) := by
  unfold State.bootChain
  dsimp only
  generalize hpins : ({ s with pins := _ } : State) = sampled
  have hsampled : s.BootKeeps sampled := hpins ▸ ⟨rfl, fun _ h => h, rfl, rfl, rfl⟩
  have hread := hsampled.trans sampled.readBlobs_bootKeeps
  have hselected := (hread.trans (takeMark_bootKeeps _)).trans (selectBank_bootKeeps _)
  split
  · exact ⟨_, hread, .inl rfl⟩
  split
  · exact ⟨_, hselected, .inr rfl⟩
  case h_2 bank x _ =>
    have hset := ((hselected.trans (takeSet_bootKeeps _ bank x)).trans (rewrap_bootKeeps _ x)).trans (chooseBlob_bootKeeps _ x)
    exact ⟨_, hset.trans (writeMaps_bootKeeps _), .inl rfl⟩

theorem State.bootChain_mode (s : State) (b : BootInput) (h : s.ms.mode = .m1) :
    (s.bootChain b).ms.mode = .m1 ∨ (s.bootChain b).ms.mode = .m7 ∧ (s.bootChain b).ms.safeCause = 3 := by
  obtain ⟨t, hkeeps, heq | heq⟩ := s.bootChain_cases b
  · exact .inl (heq ▸ hkeeps.mode.trans h)
  rw [heq]
  cases ht : t.ms.inTransition with
  | true => simp [State.changeMode, ht, hkeeps.mode, h]
  | false => exact .inr (changeMode_mode t .m7 10 3 ht)

theorem State.bootChain_resetCause (s : State) (b : BootInput) (k : Nat) (h : s.ms.resetCause.getLsbD k = true) :
    (s.bootChain b).ms.resetCause.getLsbD k = true := by
  obtain ⟨t, hkeeps, heq | heq⟩ := s.bootChain_cases b
  · exact heq ▸ hkeeps.cause k h
  · rw [heq, changeMode_resetCause]
    exact hkeeps.cause k h

theorem State.bootChain_memories (s : State) (b : BootInput) :
    (s.bootChain b).nv.fuses = s.nv.fuses ∧ (s.bootChain b).nv.flashA = s.nv.flashA ∧ (s.bootChain b).nv.flashB = s.nv.flashB := by
  obtain ⟨t, hkeeps, heq | heq⟩ := s.bootChain_cases b
  · exact heq ▸ ⟨hkeeps.fuses, hkeeps.flashA, hkeeps.flashB⟩
  · have hnv : (t.changeMode .m7 10 3).nv = t.nv := by simp
    rw [heq, hnv]
    exact ⟨hkeeps.fuses, hkeeps.flashA, hkeeps.flashB⟩

/-- A warm reset starts the device afresh in M1 BOOT, with its cause in RESET_CAUSE (R46, R47). -/
theorem State.warmReset_ms (s : State) (cause t : Nat) :
    (s.warmReset cause t).ms.mode = .m1 ∧ (s.warmReset cause t).ms.resetCause = s.ms.resetCause ||| BitVec.ofNat 8 (2 ^ cause) := by
  simp [State.warmReset, State.noteMode, State.fresh, State.addCause]

end Sys2Proof.Machine

namespace Sys2Proof.Claims

open Machine

theorem warmReset_restarted (s : State) (cause t : Nat) : Restarted s (s.warmReset cause t) := by
  refine ⟨.inl (s.warmReset_ms cause t).1, ?_⟩
  simp [State.warmReset, State.fresh, Nvm.abandon, Rtc.kept, State.addCause, State.reset]

/-- The chain that follows a restart keeps what the restart kept. -/
theorem bootChain_restarted {s t : State} (b : BootInput) (hm : t.ms.mode = .m1) (h : Restarted s t) : Restarted s (t.bootChain b) := by
  obtain ⟨-, hfuses, hflashA, hflashB, hrtc, hfwd, hqos, hmesh, hprocs, hpending⟩ := h
  obtain ⟨hfuses', hflashA', hflashB'⟩ := t.bootChain_memories b
  refine ⟨t.bootChain_mode b hm, hfuses'.trans hfuses, hflashA'.trans hflashA, hflashB'.trans hflashB, ?_⟩
  simp [hrtc, hfwd, hqos, hmesh, hprocs, hpending]

/-- A fatal fault adds WARM_FAULT, and BOOT_RETRY in M1 BOOT, and resets the device (R21, R42). -/
theorem fatal_restarted (s : State) (h : s.ms.mode ≠ .m0) :
    Restarted s s.fatal ∧ s.fatal.ms.mode = .m1 ∧ s.fatal.ms.resetCause.getLsbD 4 = true := by
  have hcause (u : State) (t : Nat) : (u.warmReset 4 t).ms.resetCause.getLsbD 4 = true := by
    simp [(u.warmReset_ms 4 t).2]
  unfold State.fatal
  split
  case h_1 hm => exact absurd hm h
  case h_2 => exact ⟨warmReset_restarted (s.addCause 6) 4 6, ((s.addCause 6).warmReset_ms 4 6).1, hcause _ _⟩
  case h_3 => exact ⟨warmReset_restarted s 4 5, (s.warmReset_ms 4 5).1, hcause _ _⟩

theorem crash_restarted (s : State) (h : s.ms.mode ≠ .m0) : Restarted s s.crash ∧ s.crash.ms.resetCause.getLsbD 4 = true := by
  obtain ⟨hfatal, hmode, hcause⟩ := fatal_restarted s h
  have hcrash : s.crash = s.fatal.bootChain s.fatal.presented := if_neg h
  rw [hcrash]
  exact ⟨bootChain_restarted _ hmode hfatal, State.bootChain_resetCause _ _ 4 hcause⟩

/-- A restart is judged by what the device kept, which an entry or a count before it leaves as it was. -/
theorem Restarted.of_only {s u t : State} (hu : Only [.host, .ctr] s u) (h : Restarted u t) : Restarted s t := by
  have hnv : u.nv = s.nv := hu .nv (by decide)
  have htime : u.time = s.time := hu .time (by decide)
  have hpending : u.pending = s.pending := hu .pending (by decide)
  simpa only [Restarted, hnv, htime, hpending] using h

end Sys2Proof.Claims

/-! ### Responses and completion events at the mailboxes -/

namespace Sys2Proof.Machine

/-- What a function has in flight and ACCEPTED, whether a TENANT_RESET holds it, and CMD_HEAD: no response changes these. -/
def Mbox.queues (m : Mbox) : List CmdRef × List CmdRef × Bool × BitVec 16 := (m.inflight, m.accepted, m.tenantHeld, m.cmdHead)

/-- What an update of a mailbox leaves alone is as it was in every mailbox. -/
theorem State.modMbox_keeps {α : Type} (F : Mbox → α) (s : State) (f k : Nat) (g : Mbox → Mbox) (h : ∀ m, F (g m) = F m) :
    F ((s.modMbox f g).mbox k) = F (s.mbox k) := by
  by_cases hk : k = f
  · rw [hk, modMbox_mbox, h]
  · rw [modMbox_mbox_ne s g hk]

@[simp] theorem State.writeResponse_queues (s : State) (f tag : Nat) (y : Reply) (k : Nat) :
    ((s.writeResponse f tag y).mbox k).queues = (s.mbox k).queues := by
  unfold State.writeResponse
  dsimp only
  split
  · exact modMbox_keeps Mbox.queues s f k _ fun _ => rfl
  split
  · rw [raise_mbox]
    exact modMbox_keeps Mbox.queues s f k _ fun _ => rfl
  · exact modMbox_keeps Mbox.queues s f k _ fun _ => rfl

@[simp] theorem State.writeResponse_inflight (s : State) (f tag : Nat) (y : Reply) (k : Nat) :
    ((s.writeResponse f tag y).mbox k).inflight = (s.mbox k).inflight :=
  congrArg (·.1) (s.writeResponse_queues f tag y k)

@[simp] theorem State.writeResponse_accepted (s : State) (f tag : Nat) (y : Reply) (k : Nat) :
    ((s.writeResponse f tag y).mbox k).accepted = (s.mbox k).accepted :=
  congrArg (·.2.1) (s.writeResponse_queues f tag y k)

@[simp] theorem State.writeResponse_tenantHeld (s : State) (f tag : Nat) (y : Reply) (k : Nat) :
    ((s.writeResponse f tag y).mbox k).tenantHeld = (s.mbox k).tenantHeld :=
  congrArg (·.2.2.1) (s.writeResponse_queues f tag y k)

@[simp] theorem State.writeResponse_cmdHead (s : State) (f tag : Nat) (y : Reply) (k : Nat) :
    ((s.writeResponse f tag y).mbox k).cmdHead = (s.mbox k).cmdHead :=
  congrArg (·.2.2.2) (s.writeResponse_queues f tag y k)

theorem State.writeResponse_mbox_ne (s : State) {f k : Nat} (tag : Nat) (y : Reply) (hne : k ≠ f) :
    (s.writeResponse f tag y).mbox k = s.mbox k := by
  unfold State.writeResponse
  dsimp only
  split
  · exact modMbox_mbox_ne s _ hne
  split
  · exact (raise_mbox ..).trans (modMbox_mbox_ne s _ hne)
  · exact modMbox_mbox_ne s _ hne

@[simp] theorem State.writeResponse_well (s : State) (f tag : Nat) (y : Reply) (w : Nat) :
    (s.writeResponse f tag y).well w = s.well w := by
  unfold State.writeResponse
  dsimp only
  repeat' split
  all_goals simp

/-- A response descriptor is on top of the function's others, with TAG, STATUS, SUBCODE and results (R74). -/
theorem State.writeResponse_responds (s : State) (f tag : Nat) (y : Reply) (hdma : s.busMaster f = true) :
    ((s.writeResponse f tag y).mbox f).rspTail = (s.mbox f).rspTail + 1 ∧
      ∃ x, ((s.writeResponse f tag y).mbox f).responses = x :: (s.mbox f).responses ∧ x.tag = tag % 4096 ∧ x.status = y.status ∧
        x.sub = y.sub ∧ x.results = y.results := by
  unfold State.writeResponse
  dsimp only
  rw [if_neg (by simp [hdma])]
  split <;> simp

/-- The command of a list that a TAG and an opcode name is struck out. -/
def strike (l : List CmdRef) (tag opcode : Nat) : List CmdRef :=
  match l.find? fun c => c.tag == tag && c.opcode == opcode with
  | some ref => l.erase ref
  | none => l

/-- TAG and opcode, by which a response names its command. -/
def CmdRef.key (c : CmdRef) : Nat × Nat := (c.tag, c.opcode)

theorem strike_of_find {l : List CmdRef} {tag opcode : Nat} {ref : CmdRef}
    (h : (l.find? fun c => c.tag == tag && c.opcode == opcode) = some ref) : strike l tag opcode = l.erase ref := by
  simp [strike, h]

theorem strike_of_find_none {l : List CmdRef} {tag opcode : Nat}
    (h : (l.find? fun c => c.tag == tag && c.opcode == opcode) = none) : strike l tag opcode = l := by
  simp [strike, h]

@[simp] theorem strike_nil (tag opcode : Nat) : strike [] tag opcode = [] := rfl

/-- Of a list that holds the command's TAG and opcode, one entry with them is struck out. -/
theorem strike_perm {l : List CmdRef} {c : CmdRef} (h : c.key ∈ l.map CmdRef.key) :
    (l.map CmdRef.key).Perm (c.key :: (strike l c.tag c.opcode).map CmdRef.key) := by
  obtain ⟨d, hd, hkey⟩ := List.mem_map.1 h
  have hfinds : ((l.find? fun x => x.tag == c.tag && x.opcode == c.opcode)).isSome = true := by
    simp only [CmdRef.key, Prod.mk.injEq] at hkey
    exact List.find?_isSome.2 ⟨d, hd, by simp [hkey]⟩
  obtain ⟨ref, hfind⟩ := Option.isSome_iff_exists.1 hfinds
  have hsame : ref.key = c.key := by simpa [CmdRef.key] using List.find?_some hfind
  have hperm := (List.perm_cons_erase (List.mem_of_find?_eq_some hfind)).map CmdRef.key
  simpa [strike, hfind, hsame] using hperm

/-- When every command of a list has been struck out by its TAG and opcode, none is left. -/
theorem foldl_strike_eq_nil (refs : List CmdRef) (l : List CmdRef) (h : (l.map CmdRef.key).Perm (refs.map CmdRef.key)) :
    refs.foldl (fun l c => strike l c.tag c.opcode) l = [] := by
  induction refs generalizing l with
  | nil => simpa using h
  | cons c refs ih =>
    have hmem : c.key ∈ l.map CmdRef.key := h.mem_iff.2 List.mem_cons_self
    exact ih _ (((strike_perm hmem).symm.trans h).cons_inv)

theorem foldl_strike_reverse (l : List CmdRef) : l.reverse.foldl (fun l c => strike l c.tag c.opcode) l = [] :=
  foldl_strike_eq_nil _ _ ((List.reverse_perm l).symm.map CmdRef.key)

theorem State.mgcDown_of_procs {s t : State} (h : t.procs = s.procs) (f : Nat) : t.mgcDown f = s.mgcDown f := by
  simp only [State.mgcDown, h]

/-- A response takes its command out of those in flight, and any other than ACCEPTED leaves the accepted ones (R76, R79). -/
theorem State.answer_lists (s : State) (r : Req) (y : Reply) (hup : s.mgcDown r.fn = false) (hy : y.status ≠ stAccepted) :
    ((s.answer r y).mbox r.fn).inflight = strike (s.mbox r.fn).inflight r.tag r.opcode ∧
      ((s.answer r y).mbox r.fn).accepted = (s.mbox r.fn).accepted := by
  unfold State.answer
  simp only [hup, Bool.false_eq_true, if_false, hy]
  split
  case h_1 ref hfind =>
    rw [strike_of_find hfind]
    split <;> simp
  case h_2 hfind =>
    rw [strike_of_find_none hfind]
    simp

theorem State.mbox_of_host {s t : State} (h : t.host = s.host) (f : Nat) : t.mbox f = s.mbox f := by
  simp only [State.mbox, h]

@[simp] theorem State.completionEvent_mbox (s : State) (f tag opcode status sub : Nat) (result : Bytes) (well : Option Nat) (k : Nat) :
    (s.completionEvent f tag opcode status sub result well).mbox k = s.mbox k := by
  unfold State.completionEvent
  split <;> rfl

@[simp] theorem State.noteFinal_mbox (s : State) (ref : CmdRef) (f status sub : Nat) (result : Bytes) (k : Nat) :
    (s.noteFinal ref f status sub result).mbox k = s.mbox k :=
  mbox_of_host (by simp) k

/-- While an MGC runs, the final status of an ACCEPTED command takes it out of those (R95). -/
theorem State.complete_lists (s : State) (f tag opcode status sub : Nat) (hup : s.mgcDown f = false) :
    ((s.complete f tag opcode status sub).mbox f).accepted = strike (s.mbox f).accepted tag opcode ∧
      ((s.complete f tag opcode status sub).mbox f).inflight = (s.mbox f).inflight := by
  unfold State.complete
  simp only [hup, Bool.false_eq_true, if_false]
  split
  case h_1 ref hfind =>
    rw [strike_of_find hfind]
    split <;> simp
  case h_2 hfind =>
    rw [strike_of_find_none hfind]
    simp

theorem State.complete_mbox_ne (s : State) {f k : Nat} (tag opcode status sub : Nat) (hne : k ≠ f) :
    (s.complete f tag opcode status sub).mbox k = s.mbox k := by
  unfold State.complete
  split
  · dsimp only
    split
    · rw [noteFinal_mbox, modMbox_mbox_ne _ _ hne]
    · rw [completionEvent_mbox, modMbox_mbox_ne _ _ hne]
  · rfl

theorem State.answer_mbox_ne (s : State) (r : Req) (y : Reply) {k : Nat} (hne : k ≠ r.fn) : (s.answer r y).mbox k = s.mbox k := by
  unfold State.answer
  split
  · dsimp only
    split
    · rw [writeResponse_mbox_ne _ _ _ hne, modMbox_mbox_ne _ _ hne]
    · exact modMbox_mbox_ne _ _ hne
  · rfl

end Sys2Proof.Machine

/-! ### The reload of a processor -/

namespace Sys2Proof.Machine

/-- An operation done for each of a list of functions, which settles the mailbox of its function and touches no other, settles
every one of them. -/
theorem State.foldl_mboxes {g : State → Nat → State} {P Q : Mbox → Prop} (hPQ : ∀ m, P m → Q m)
    (hself : ∀ s f, s.mgcDown f = false → Q (s.mbox f) → P ((g s f).mbox f))
    (hother : ∀ s f k, k ≠ f → (g s f).mbox k = s.mbox k) (hprocs : ∀ s f, (g s f).procs = s.procs)
    (fs : List Nat) (s : State) (hup : ∀ f ∈ fs, s.mgcDown f = false) (hQ : ∀ f ∈ fs, Q (s.mbox f)) {f : Nat} (hf : f ∈ fs) :
    P ((fs.foldl g s).mbox f) := by
  have hkept (l : List Nat) (s : State) (k : Nat) (hk : k ∉ l) : (l.foldl g s).mbox k = s.mbox k := by
    induction l generalizing s with
    | nil => rfl
    | cons a l ih =>
      obtain ⟨hka, hkl⟩ := not_or.1 (mt List.mem_cons.2 hk)
      exact (ih (g s a) hkl).trans (hother s a k hka)
  induction fs generalizing s with
  | nil => cases hf
  | cons a fs ih =>
    have ha : P ((g s a).mbox a) := hself s a (hup a List.mem_cons_self) (hQ a List.mem_cons_self)
    by_cases hmem : f ∈ fs
    · refine ih (g s a) (fun k hk => ?_) (fun k hk => ?_) hmem
      · rw [mgcDown_of_procs (hprocs s a)]
        exact hup k (List.mem_cons_of_mem a hk)
      · by_cases hka : k = a
        · rw [hka]
          exact hPQ _ ha
        · rw [hother s a k hka]
          exact hQ k (List.mem_cons_of_mem a hk)
    · obtain rfl : f = a := (List.mem_cons.1 hf).resolve_right hmem
      rw [List.foldl_cons, hkept fs _ f hmem]
      exact ha

theorem State.failRef_inflight (f : Nat) (s : State) (c : CmdRef) (hup : s.mgcDown f = false) :
    ((State.failRef f s c).mbox f).inflight = strike (s.mbox f).inflight c.tag c.opcode :=
  (s.answer_lists _ _ hup (by decide)).1

theorem State.foldl_failRef_inflight (f : Nat) (refs : List CmdRef) (s : State) (hup : s.mgcDown f = false) :
    ((refs.foldl (State.failRef f) s).mbox f).inflight = refs.foldl (fun l c => strike l c.tag c.opcode) (s.mbox f).inflight := by
  induction refs generalizing s with
  | nil => rfl
  | cons c refs ih =>
    have hup' : (State.failRef f s c).mgcDown f = false := (mgcDown_of_procs (by simp [State.failRef]) f).trans hup
    rw [List.foldl_cons, List.foldl_cons, ih _ hup', failRef_inflight f s c hup]

/-- Each command that the MGC had read is answered (R23). -/
theorem State.answerInternal_inflight (s : State) (f : Nat) (hup : s.mgcDown f = false) :
    ((s.answerInternal f).mbox f).inflight = [] := by
  unfold State.answerInternal
  rw [modMbox_mbox]
  exact (foldl_failRef_inflight f _ s hup).trans (foldl_strike_reverse _)

theorem State.answerInternal_mbox_ne (s : State) (f k : Nat) (hne : k ≠ f) : (s.answerInternal f).mbox k = s.mbox k := by
  have hfold (refs : List CmdRef) (s : State) : (refs.foldl (State.failRef f) s).mbox k = s.mbox k := by
    induction refs generalizing s with
    | nil => rfl
    | cons c refs ih => exact (ih _).trans (s.answer_mbox_ne _ _ hne)
  unfold State.answerInternal
  rw [modMbox_mbox_ne _ _ hne, hfold]

theorem State.foldl_failAccepted_lists (f : Nat) (refs : List CmdRef) (s : State) (hup : s.mgcDown f = false) :
    ((refs.foldl (State.failAccepted f) s).mbox f).accepted = refs.foldl (fun l c => strike l c.tag c.opcode) (s.mbox f).accepted ∧
      ((refs.foldl (State.failAccepted f) s).mbox f).inflight = (s.mbox f).inflight := by
  induction refs generalizing s with
  | nil => exact ⟨rfl, rfl⟩
  | cons c refs ih =>
    have hup' : (State.failAccepted f s c).mgcDown f = false := (mgcDown_of_procs (by simp [State.failAccepted]) f).trans hup
    obtain ⟨haccepted, hinflight⟩ := s.complete_lists f c.tag c.opcode stInternal 0 hup
    obtain ⟨ihaccepted, ihinflight⟩ := ih _ hup'
    exact ⟨ihaccepted.trans (by rw [List.foldl_cons, ← haccepted]; rfl), ihinflight.trans hinflight⟩

/-- Of the mailboxes, what is done before the completion events of a reload touches none. -/
theorem State.foldl_failSend_mbox (f : Nat) (sends : List SendCmd) (s : State) (k : Nat) :
    (sends.foldl (State.failSend f) s).mbox k = s.mbox k :=
  mbox_of_host (by simp) k

/-- Each ACCEPTED command has its completion event (R23). -/
theorem State.completeInternal_lists (s : State) (f : Nat) (hup : s.mgcDown f = false) :
    ((s.completeInternal f).mbox f).accepted = [] ∧ ((s.completeInternal f).mbox f).inflight = (s.mbox f).inflight := by
  unfold State.completeInternal
  dsimp only
  generalize hsends : List.foldl (State.failSend f) s _ = t
  have hprocs : t.procs = s.procs := by simp [← hsends]
  have hmbox : t.mbox f = s.mbox f := hsends ▸ foldl_failSend_mbox f _ s f
  generalize hmesh : ({ t with mesh := _ } : State) = u
  have hu : u.mbox f = s.mbox f := hmesh ▸ hmbox
  have hupu : u.mgcDown f = false := by rw [mgcDown_of_procs (t := u) (s := s) (hmesh ▸ hprocs), hup]
  obtain ⟨haccepted, hinflight⟩ := foldl_failAccepted_lists f (u.mbox f).accepted.reverse u hupu
  exact ⟨haccepted.trans (foldl_strike_reverse _), hinflight.trans (by rw [hu])⟩

theorem State.completeInternal_mbox_ne (s : State) (f k : Nat) (hne : k ≠ f) : (s.completeInternal f).mbox k = s.mbox k := by
  have hfold (refs : List CmdRef) (s : State) : (refs.foldl (State.failAccepted f) s).mbox k = s.mbox k := by
    induction refs generalizing s with
    | nil => rfl
    | cons c refs ih => exact (ih _).trans (s.complete_mbox_ne _ _ _ _ hne)
  exact (hfold _ _).trans (foldl_failSend_mbox f _ s k)

theorem State.dropLoading_mbox (s : State) (f k : Nat) : (s.dropLoading f).mbox k = s.mbox k := rfl

@[simp] theorem State.pairEntry_mbox (s : State) (type reason b19 w20 value k : Nat) :
    (s.pairEntry type reason b19 w20 value).mbox k = s.mbox k := by
  simp [State.pairEntry]

@[simp] theorem State.diverged_mbox (s : State) (sub tag opcode k : Nat) : (s.diverged sub tag opcode).mbox k = s.mbox k := by
  simp only [State.diverged, pairEntry_mbox]
  exact mbox_of_host (by simp) k

@[simp] theorem State.dropSync_mbox (s : State) (reason restart : Nat) (now : Bool) (k : Nat) :
    (s.dropSync reason restart now).mbox k = s.mbox k := by
  unfold State.dropSync
  split
  · rfl
  · dsimp only
    split
    · rw [pairEntry_mbox]
      rfl
    · rfl

@[simp] theorem State.modPair_mbox (s : State) (f : Pair → Pair) (k : Nat) : (s.modPair f).mbox k = s.mbox k := rfl

@[simp] theorem State.undoLoad_mbox (s : State) (f tag k : Nat) : (s.undoLoad f tag).mbox k = s.mbox k := rfl

@[simp] theorem State.draw_mbox (s : State) (k : Nat) : s.draw.2.mbox k = s.mbox k := rfl

/-- The settlement of final statuses writes completion events, and takes no command out of a mailbox. -/
theorem State.settleFinal_mbox (s : State) (x : Final) (k : Nat) : (s.settleFinal x).mbox k = s.mbox k := by
  unfold State.settleFinal
  dsimp only
  repeat' split
  all_goals simp

@[simp] theorem State.settleFinals_mbox (s : State) (k : Nat) : s.settleFinals.mbox k = s.mbox k := by
  have hdone (t : State) (x : Final) : (t.settleDone x).mbox k = t.mbox k := by
    unfold State.settleDone
    split
    · exact t.settleFinal_mbox x k
    · rfl
  have hfold (l : List Final) (t : State) : (l.foldl State.settleDone t).mbox k = t.mbox k := by
    induction l generalizing t with
    | nil => rfl
    | cons x l ih => exact (ih _).trans (hdone t x)
  exact hfold _ s

/-- The requests that a reload held are processed without a change of the processors' states. -/
theorem State.processHeld_reloading (s : State) (p : Nat) : (s.processHeld p).procs.reloading = s.procs.reloading := by
  unfold State.processHeld
  dsimp only
  rw [foldl_procs _ fun t x => by split <;> simp]

/-- An MGC that runs again owes nothing for its functions (R23). -/
def State.reloadMgc (s : State) (p : Nat) : State :=
  ((servedBy p).foldl (fun s f => (s.completeInternal f).dropLoading f) ((servedBy p).foldl State.answerInternal s)).settleFinals

theorem State.reloadMgc_procs (s : State) (p : Nat) : (s.reloadMgc p).procs = s.procs := by
  simp [State.reloadMgc]

theorem State.reloadMgc_owes_nothing (s : State) (p f : Nat) (hf : f ∈ servedBy p) (hup : ∀ k ∈ servedBy p, s.mgcDown k = false) :
    ((s.reloadMgc p).mbox f).inflight = [] ∧ ((s.reloadMgc p).mbox f).accepted = [] := by
  have hanswered (k : Nat) (hk : k ∈ servedBy p) : (((servedBy p).foldl State.answerInternal s).mbox k).inflight = [] :=
    foldl_mboxes (P := fun m => m.inflight = []) (Q := fun _ => True) (fun _ _ => trivial)
      (fun t k hup _ => t.answerInternal_inflight k hup) (fun t a k hne => t.answerInternal_mbox_ne a k hne)
      (fun t k => by simp) _ s hup (fun _ _ => trivial) hk
  unfold State.reloadMgc
  rw [settleFinals_mbox]
  refine foldl_mboxes (g := fun t k => (t.completeInternal k).dropLoading k) (P := fun m => m.inflight = [] ∧ m.accepted = []) (Q := fun m => m.inflight = []) (fun _ h => h.1)
    (fun t k hup hnone => ?_) (fun t a k hne => t.completeInternal_mbox_ne a k hne) (fun t k => by simp) _ _ (fun k hk => ?_) hanswered hf
  · obtain ⟨haccepted, hinflight⟩ := t.completeInternal_lists k hup
    exact ⟨hinflight.trans hnone, haccepted⟩
  · exact (mgcDown_of_procs (by simp) k).trans (hup k hk)

end Sys2Proof.Machine

/-! ### Faults of processors and accesses across the world boundary -/

namespace Sys2Proof.Claims

open Machine

/-- The processor is reloaded from now on (R22). -/
def startReload (s : State) (p : Nat) : State := { s with procs := { s.procs with reloading := s.procs.reloading ++ [p] } }

theorem processorFails_reloads {s : State} {p : Nat} (hm : s.ms.mode ≠ .m0) (h0 : p ≠ 0) (hloaded : s.procs.loaded = true)
    (hp : p ∉ s.procs.reloading) (h8 : p ≠ 8 ∨ s.ms.mode ≠ .m4 ∧ s.ms.mode ≠ .m5 ∧ s.ms.mode ≠ .m6) :
    s.processorFails p = startReload s p := by
  have hunpaired : ¬ (p = 0 ∨ p = 8 ∧ (s.ms.mode == .m4 || s.ms.mode == .m5 || s.ms.mode == .m6) = true) := by
    rcases h8 with h8 | ⟨h4, h5, h6⟩
    · simp [h0, h8]
    · simp [h0, h4, h5, h6]
  simp only [State.processorFails]
  rw [if_neg (by simp [hm, hloaded]), if_neg hunpaired, if_neg (by simpa using hp), startReload]

theorem processorFails_restarts {s : State} {p : Nat} (hm : s.ms.mode ≠ .m0)
    (h : p = 0 ∨ s.procs.loaded = true ∧ p = 8 ∧ (s.ms.mode = .m4 ∨ s.ms.mode = .m5 ∨ s.ms.mode = .m6)) :
    s.processorFails p = s.crash := by
  simp only [State.processorFails]
  rw [if_neg, if_pos]
  · rcases h with h | ⟨-, h8, hpair⟩
    · exact .inl h
    · exact .inr ⟨h8, by simpa [or_assoc] using hpair⟩
  · rcases h with h | ⟨hloaded, -⟩
    · simp [hm, h]
    · simp [hm, hloaded]

/-- The failure of the BSC, and in a pair of the PRC, restarts the device (R21, R42). -/
theorem processorFault_restarts {s : State} (p : Fin 9) (hm : s.ms.mode ≠ .m0)
    (h : p.val = 0 ∨ s.procs.loaded = true ∧ p.val = 8 ∧ (s.ms.mode = .m4 ∨ s.ms.mode = .m5 ∨ s.ms.mode = .m6)) :
    Gives (.processorFault p) s fun t => Restarted s t ∧ t.ms.resetCause.getLsbD 4 = true :=
  ⟨s.crash, congrArg Host.Outcome.next (processorFails_restarts hm h), crash_restarted s hm⟩

theorem processorFault_not_loaded {s : State} {p : Fin 9} (h0 : p.val ≠ 0) (h : s.procs.loaded = false) :
    exec (.processorFault p) s = .next s :=
  congrArg Host.Outcome.next (if_pos (.inr ⟨h0, by simp [h]⟩))

theorem processorReloadDone_discarded {s : State} {p : Fin 9} (h : p.val ∉ s.procs.reloading) :
    exec (.processorReloadDone p) s = .next s :=
  congrArg Host.Outcome.next (if_pos (by simpa using h))

theorem mem_servedBy {p : Nat} (f : Fin 17) (h : mgcOf f.val = p) : f.val ∈ servedBy p :=
  List.mem_filter.2 ⟨List.mem_range.2 f.isLt, by simp [h]⟩

/-- The state in which a processor runs again, before it does what its reload left to it. -/
def reloaded (s : State) (p : Nat) : State := { s with procs := { s.procs with reloading := s.procs.reloading.filter (· != p) } }

theorem reloaded_up {s : State} {p f : Nat} (h : f ∈ servedBy p) : (reloaded s p).mgcDown f = false := by
  have hf : mgcOf f = p := by simpa using (List.mem_filter.1 h).2
  simp [State.mgcDown, reloaded, hf]

/-- What a processor does as it runs again: an MGC answers what it owes, an MCC takes up what it held (R23, R24). -/
def reloadEnds (s : State) (p : Nat) : State :=
  if p = 1 ∨ p = 2 then (reloaded s p).reloadMgc p else if 4 ≤ p ∧ p ≤ 7 then (reloaded s p).processHeld p else reloaded s p

theorem processorReloadDone_ends {s : State} {p : Fin 9} (h : p.val ∈ s.procs.reloading) :
    exec (.processorReloadDone p) s = .next (reloadEnds s p.val) :=
  congrArg Host.Outcome.next (if_neg (by simpa using h))

theorem reloadEnds_reloading (s : State) (p : Nat) : p ∉ (reloadEnds s p).procs.reloading := by
  have hfilter : p ∉ (reloaded s p).procs.reloading := by simp [reloaded]
  unfold reloadEnds
  split
  · rwa [State.reloadMgc_procs]
  split
  · rwa [State.processHeld_reloading]
  · exact hfilter

/-- A processor that has been reloaded is no longer in reload, and an MGC has nothing in flight left (R23). -/
theorem processorReloadDone_settles (s : State) (p : Fin 9) (h : p.val ∈ s.procs.reloading) :
    Gives (.processorReloadDone p) s fun t => p.val ∉ t.procs.reloading ∧
      ((p.val = 1 ∨ p.val = 2) → ∀ f : Fin 17, mgcOf f.val = p.val → (t.mbox f.val).inflight = [] ∧ (t.mbox f.val).accepted = []) := by
  refine ⟨_, processorReloadDone_ends h, reloadEnds_reloading s p.val, fun hmgc f hf => ?_⟩
  rw [reloadEnds, if_pos hmgc]
  exact State.reloadMgc_owes_nothing _ _ _ (mem_servedBy f hf) fun k hk => reloaded_up hk

/-- What the refusal of an access leaves before its processor fails: a count and an entry (R491). -/
def violationTold (s : State) (m : Nat) (w : Bool) (addr : Nat) : State :=
  (s.count (.worldViolations m)).securityEntry 0x0403 0 0 0 addr (m + 16 * b2n w)

theorem violationTold_only (s : State) (m : Nat) (w : Bool) (addr : Nat) : Only [.host, .ctr] s (violationTold s m w addr) := by
  simp (disch := decide) only [violationTold, only_securityEntry, only_count, Only.refl]

theorem violationTold_counter (s : State) (m : Nat) (w : Bool) (addr : Nat) :
    (violationTold s m w addr).counter (.worldViolations m) = (s.counter (.worldViolations m) + 1) % 2 ^ 32 := by
  have hctr : (violationTold s m w addr).ctr = (s.count (.worldViolations m)).ctr := by simp [violationTold]
  unfold State.counter
  rw [hctr]
  exact s.count_counter (.worldViolations m) 1

theorem worldViolation_allowed {s : State} {region : Fin 256} {m : Nat} {w : Bool} {addr : BitVec 64} (hm : m < 16)
    (h : s.ms.maps.refuses region.val m w addr.toNat = false) : exec (.worldViolation region m w addr) s = .next s :=
  congrArg Host.Outcome.next (if_pos (.inr (by simp [Nat.mod_eq_of_lt hm, h])))

theorem worldViolation_refused {s : State} {region : Fin 256} {m : Nat} {w : Bool} {addr : BitVec 64} (hm : m < 16)
    (h0 : s.ms.mode ≠ .m0) (h : s.ms.maps.refuses region.val m w addr.toNat = true) :
    exec (.worldViolation region m w addr) s =
      .next (if m < 9 then (violationTold s m w addr.toNat).processorFails m else violationTold s m w addr.toNat) := by
  show execWorldViolation region m w addr s = _
  simp only [execWorldViolation, Nat.mod_eq_of_lt hm, h, h0]
  rfl

/-- An access of the BSC that the map refuses restarts the device. -/
theorem worldViolation_restarts {s : State} (region : Fin 256) (w : Bool) (addr : BitVec 64) (h0 : s.ms.mode ≠ .m0)
    (h : s.ms.maps.refuses region.val 0 w addr.toNat = true) :
    Gives (.worldViolation region 0 w addr) s fun t => Restarted s t ∧ t.ms.resetCause.getLsbD 4 = true := by
  have htold := violationTold_only s 0 w addr.toNat
  have hms : (violationTold s 0 w addr.toNat).ms = s.ms := htold .ms (by decide)
  have hmode : (violationTold s 0 w addr.toNat).ms.mode ≠ .m0 := by rwa [hms]
  obtain ⟨hrestarted, hcause⟩ := crash_restarted _ hmode
  have hexec : exec (.worldViolation region 0 w addr) s = .next (violationTold s 0 w addr.toNat).crash := by
    rw [worldViolation_refused (by decide) h0 h, if_pos (by decide), processorFails_restarts hmode (.inl rfl)]
  exact ⟨_, hexec, Restarted.of_only htold hrestarted, hcause⟩

/-- An access of another processor that the map refuses reloads it. -/
theorem worldViolation_reloads {s : State} (region : Fin 256) {m : Nat} (w : Bool) (addr : BitVec 64) (h0 : s.ms.mode ≠ .m0)
    (h : s.ms.maps.refuses region.val m w addr.toNat = true) (h1 : 1 ≤ m) (h8 : m < 8) (hloaded : s.procs.loaded = true)
    (hm : m ∉ s.procs.reloading) :
    Gives (.worldViolation region m w addr) s fun t => Only [.host, .ctr, .procs] s t ∧
      t.procs = { s.procs with reloading := s.procs.reloading ++ [m] } ∧
      t.counter (.worldViolations m) = (s.counter (.worldViolations m) + 1) % 2 ^ 32 := by
  have htold := violationTold_only s m w addr.toNat
  have hms : (violationTold s m w addr.toNat).ms = s.ms := htold .ms (by decide)
  have hprocs : (violationTold s m w addr.toNat).procs = s.procs := htold .procs (by decide)
  have hreloads := processorFails_reloads (s := violationTold s m w addr.toNat) (p := m) (by rwa [hms]) (by omega)
    (by rwa [hprocs]) (by rwa [hprocs]) (.inl (by omega))
  have hexec : exec (.worldViolation region m w addr) s = .next (startReload (violationTold s m w addr.toNat) m) := by
    rw [worldViolation_refused (by omega) h0 h, if_pos (by omega), hreloads]
  refine ⟨_, hexec, ?_, ?_, violationTold_counter s m w addr.toNat⟩
  · exact (only_procs_update (by decide)).2 (htold.mono (by decide))
  · simp only [startReload, hprocs]

/-- An access of a hardware master that the map refuses is counted. -/
theorem worldViolation_counted {s : State} (region : Fin 256) {m : Nat} (w : Bool) (addr : BitVec 64) (h0 : s.ms.mode ≠ .m0)
    (hm : m < 16) (h : s.ms.maps.refuses region.val m w addr.toNat = true) (h9 : 9 ≤ m) :
    Gives (.worldViolation region m w addr) s fun t => Only [.host, .ctr] s t ∧
      t.counter (.worldViolations m) = (s.counter (.worldViolations m) + 1) % 2 ^ 32 :=
  ⟨_, (worldViolation_refused hm h0 h).trans (congrArg _ (if_neg (by omega))), violationTold_only s m w addr.toNat,
    violationTold_counter s m w addr.toNat⟩

/-- The entry that governs an address decides on an access there (R489). -/
theorem refuses_of_governs {maps : WorldMaps} {r : Region} {k addr : Nat} (m : Nat) (w : Bool) (h : maps.governs addr = some (k, r)) :
    maps.refuses k m w addr = maps.denies r m w := by
  simp [WorldMaps.refuses, h]

/-- Only master 0 is let into a secure region, a master only with its bit of the mask; else the map lets the access pass (R489, R490). -/
theorem refuses_by_entry {maps : WorldMaps} {r : Region} {k addr : Nat} (m : Nat) (w : Bool) (h : maps.governs addr = some (k, r)) :
    (r.area.isSome = true → m ≠ 0 → maps.refuses k m w addr = true) ∧
    ((if w then r.writeMask else r.readMask).testBit m = false → maps.refuses k m w addr = true) ∧
    (r.area = none → (if w then r.writeMask else r.readMask).testBit m = true → maps.refuses k m w addr = false) := by
  rw [refuses_of_governs m w h]
  unfold WorldMaps.denies
  refine ⟨fun hsecure hm => ?_, fun hmask => ?_, fun hopen hmask => ?_⟩
  · simp [hsecure, hm]
  · rw [hmask]
    simp
  · rw [hmask]
    simp [hopen]

end Sys2Proof.Claims

section
open Sys2Proof Sys2Proof.Machine Sys2Proof.Claims

/-- Settles O39: restarts, reloads, and the region map (log entry 128), each by its own lemma. -/
theorem processorFaultsReloadOrRestart : Obligations.ProcessorFaultsReloadOrRestart := by
  intro s hm
  refine ⟨⟨_, rfl, crash_restarted s hm⟩, processorFault_restarts 0 hm (.inl rfl),
    fun hloaded hpair => processorFault_restarts 8 hm (.inr ⟨hloaded, rfl, hpair⟩),
    fun p h0 h => processorFault_not_loaded h0 h,
    fun p h0 hloaded hp h8 => congrArg Host.Outcome.next (processorFails_reloads hm h0 hloaded hp h8),
    fun p h => processorReloadDone_discarded h, processorReloadDone_settles s,
    fun region m w addr hlt => ⟨worldViolation_allowed hlt, ?_, worldViolation_reloads region w addr hm,
      worldViolation_counted region w addr hm hlt⟩,
    fun r k addr m w hgoverns => refuses_by_entry m w hgoverns⟩
  rintro hrefused rfl
  exact worldViolation_restarts region w addr hm hrefused

end

/-! ### Accepted commands -/

namespace Sys2Proof.Machine

@[simp] theorem State.takeDesc_mbox (s : State) (f : Nat) :
    (s.takeDesc f).mbox f = { s.mbox f with cmdHead := (s.mbox f).cmdHead + 1 } := by
  have hmbox : (s.takeDesc f).host.mbox = (s.modMbox f fun m => { m with cmdHead := m.cmdHead + 1 }).host.mbox := by
    unfold State.takeDesc
    dsimp only
    split <;> rfl
  unfold State.mbox
  rw [hmbox]
  exact s.modMbox_mbox f _

theorem State.takeDesc_busMaster (s : State) (f k : Nat) : (s.takeDesc f).busMaster k = s.busMaster k := by
  unfold State.takeDesc State.busMaster
  dsimp only
  split <;> rfl

end Sys2Proof.Machine

namespace Sys2Proof.Claims

open Machine

/-- Reading a descriptor changes the host interface only. -/
theorem started_eq (c : AciSpec) (a : Aci) (s : State) : ∃ h, started c a s = { s with host := h } := ⟨_, rfl⟩

theorem started_mbox (c : AciSpec) (a : Aci) (s : State) :
    (started c a s).mbox a.fn.val = { s.mbox a.fn.val with
      cmdHead := (s.mbox a.fn.val).cmdHead + 1, inflight := ref c a s :: (s.mbox a.fn.val).inflight } := by
  rw [started, State.modMbox_mbox, taken, State.takeDesc_mbox]

/-- What an accepted command has passed (R72 to R80, R545). -/
structure Accepted (c : AciSpec) (a : Aci) (s : State) : Prop where
  canRead : s.canRead a.fn.val = true
  desc : descCheck c a (taken a s) = none
  share : (s.mbox a.fn.val).mine.length < s.share a.fn.val
  free : s.fenced (c.req a s) = false
  params : c.params (c.req a s) (taken a s) = none
  here : c.carries (c.req a s) (taken a s) = false
  check : c.check (c.req a s) (started c a s) = none

theorem accepted_iff {c : AciSpec} {a : Aci} {s : State} : accepted c a s = true ↔ Accepted c a s := by
  simp only [accepted, mayStart, reads, Bool.and_eq_true, Bool.not_eq_true', Option.isNone_iff_eq_none, decide_eq_true_eq]
  constructor
  · rintro ⟨⟨⟨⟨⟨⟨hread, hdesc⟩, hshare⟩, hfree⟩, hparams⟩, hhere⟩, hcheck⟩
    exact ⟨hread, hdesc, hshare, hfree, hparams, hhere, hcheck⟩
  · rintro ⟨hread, hdesc, hshare, hfree, hparams, hhere, hcheck⟩
    exact ⟨⟨⟨⟨⟨⟨hread, hdesc⟩, hshare⟩, hfree⟩, hparams⟩, hhere⟩, hcheck⟩

theorem start_runs {c : AciSpec} {r : Req} {s : State} (h : c.check r s = none) : c.start r false s = c.run r s := by
  simp [AciSpec.start, h]

/-- An accepted command runs when its descriptor is read. -/
theorem Accepted.exec_eq {c : AciSpec} {a : Aci} {s : State} (h : Accepted c a s) :
    c.exec a s = c.run (c.req a s) (started c a s) := by
  have hmine : ((s.takeDesc a.fn.val).mbox a.fn.val).mine = (s.mbox a.fn.val).mine := by
    rw [State.takeDesc_mbox]
    rfl
  have hshare : ¬ (s.takeDesc a.fn.val).share a.fn.val ≤ ((s.takeDesc a.fn.val).mbox a.fn.val).mine.length := by
    rw [hmine]
    exact Nat.not_le.2 h.share
  have hfree : (s.takeDesc a.fn.val).fenced (c.req a s) = false := by
    have hfree := h.free
    unfold State.fenced at hfree ⊢
    rwa [show (c.req a s).fn = a.fn.val from rfl, hmine]
  have hdesc : descCheck c a (s.takeDesc a.fn.val) = none := h.desc
  have hparams : c.params (c.req a s) (s.takeDesc a.fn.val) = none := h.params
  have hhere : c.carries (c.req a s) (s.takeDesc a.fn.val) = false := h.here
  unfold AciSpec.exec
  simp only [h.canRead, hdesc, hshare, hfree, hparams, hhere, Bool.not_true, Bool.false_eq_true, if_false]
  exact start_runs h.check

/-- A command with a deferred answer has its first effect, and no more. -/
theorem run_deferred {c : AciSpec} {r : Req} {s : State} (h : (c.effect r s).2.deferred = true) : c.run r s = (c.effect r s).1 := by
  simp [AciSpec.run, h]

/-- The MGC of a function whose descriptor is read runs, and its DMA is allowed (R22, R67). -/
theorem Accepted.served {c : AciSpec} {a : Aci} {s : State} (h : Accepted c a s) :
    s.mgcDown a.fn.val = false ∧ s.busMaster a.fn.val = true := by
  have hread := h.canRead
  simp only [State.canRead, State.readable, Bool.and_eq_true, Bool.not_eq_true'] at hread
  exact ⟨hread.1.2, hread.1.1.1.1.1.2⟩

/-- The response of a command in flight, as its STATUS is not ACCEPTED: it lies on top of the function's others (R74, R76). -/
theorem answer_responds {s : State} {r : Req} {y : Reply} (hup : s.mgcDown r.fn = false) (hdma : s.busMaster r.fn = true)
    {ref : CmdRef} (hfind : ((s.mbox r.fn).inflight.find? fun c => c.tag == r.tag && c.opcode == r.opcode) = some ref)
    (hown : ref.own = true) :
    ((s.answer r y).mbox r.fn).cmdHead = (s.mbox r.fn).cmdHead ∧ ((s.answer r y).mbox r.fn).rspTail = (s.mbox r.fn).rspTail + 1 ∧
      ∃ x, ((s.answer r y).mbox r.fn).responses = x :: (s.mbox r.fn).responses ∧ x.tag = r.tag % 4096 ∧ x.status = y.status ∧
        x.sub = y.sub ∧ x.results = y.results := by
  unfold State.answer
  rw [if_neg (by simp [hup]), hfind]
  dsimp only
  rw [if_pos hown]
  refine ⟨by simp, ?_⟩
  simpa using State.writeResponse_responds (s.modMbox r.fn _) r.fn r.tag y hdma

/-- The first command in flight is the one that was read last. -/
theorem find_started {c : AciSpec} {a : Aci} {s t : State} (h : t.mbox a.fn.val = (started c a s).mbox a.fn.val) :
    ((t.mbox a.fn.val).inflight.find? fun x => x.tag == (c.req a s).tag && x.opcode == (c.req a s).opcode) = some (ref c a s) := by
  rw [h, started_mbox]
  exact List.find?_cons_of_pos (by simp [ref, AciSpec.req, reqOf])

theorem req_tag (c : AciSpec) (a : Aci) (s : State) : (c.req a s).tag % 4096 = a.tagWord.toNat % 4096 := by
  simp [AciSpec.req, reqOf]

/-- An effect that leaves mailboxes, processors and DMA alone is answered at once (R74). -/
theorem Accepted.answer_responded {c : AciSpec} {a : Aci} {s t : State} (h : Accepted c a s) (y : Reply)
    (hmbox : t.mbox a.fn.val = (started c a s).mbox a.fn.val) (hprocs : t.procs = s.procs)
    (hdma : t.busMaster a.fn.val = s.busMaster a.fn.val) :
    Responded c a s (t.answer (c.req a s) y) y.status y.sub y.results := by
  obtain ⟨hup, hbus⟩ := h.served
  obtain ⟨hhead, htail, x, hx, htag, hstatus, hsub, hres⟩ := answer_responds (s := t) (r := c.req a s) (y := y)
    ((State.mgcDown_of_procs hprocs _).trans hup) (hdma.trans hbus) (find_started hmbox) rfl
  have hfn : (c.req a s).fn = a.fn.val := rfl
  rw [hfn, hmbox, started_mbox] at hhead htail hx
  exact ⟨hhead, htail, x, hx, htag.trans (req_tag c a s), hstatus, hsub, hres⟩

end Sys2Proof.Claims

/-! ### Generations of table writes -/

namespace Sys2Proof.Machine

/-- The last write of a commit has its effect (R221). -/
theorem lastWrites_concat (l : List TableWrite) (w : TableWrite) : ∃ k, lastWrites (l ++ [w]) = k ++ [w] := by
  induction l with
  | nil => exact ⟨[], rfl⟩
  | cons x l ih =>
    obtain ⟨k, hk⟩ := ih
    rw [List.cons_append, lastWrites]
    split
    · exact ⟨k, hk⟩
    · exact ⟨x :: k, by rw [hk, List.cons_append]⟩

theorem Tables.applyAll_concat (t : Tables) (l : List TableWrite) (w : TableWrite) : ∃ u : Tables, t.applyAll (l ++ [w]) = u.apply w := by
  obtain ⟨k, hk⟩ := lastWrites_concat l w
  exact ⟨k.foldl Tables.apply t, by rw [Tables.applyAll, hk, List.foldl_concat]⟩

theorem Tables.applyAll_concat_rule (t : Tables) (l : List TableWrite) (n : Nat) (v : Option Rule) :
    tget none (t.applyAll (l ++ [.rule n v])).rules n = v := by
  obtain ⟨u, hu⟩ := t.applyAll_concat l (.rule n v)
  rw [hu]
  exact tget_tset_self none u.rules n v

theorem Tables.applyAll_concat_route (t : Tables) (l : List TableWrite) (n : Nat) (v : Option Nat) :
    tget none (t.applyAll (l ++ [.route n v])).routes n = v := by
  obtain ⟨u, hu⟩ := t.applyAll_concat l (.route n v)
  rw [hu]
  exact tget_tset_self none u.routes n v

@[simp] theorem leBytes_length (n v : Nat) : (leBytes n v).length = n := by
  induction n generalizing v with
  | zero => rfl
  | succ n ih => simp [leBytes, ih]

/-- A number written in bytes is read back, modulo what the bytes hold. -/
theorem leNat_leBytes (n v : Nat) : leNat (leBytes n v) = v % 256 ^ n := by
  induction n generalizing v with
  | zero => simp [leBytes, leNat, Nat.mod_one]
  | succ n ih =>
    have hsplit : v % 256 ^ (n + 1) = v % 256 + 256 * (v / 256 % 256 ^ n) := by rw [Nat.pow_succ', Nat.mod_mul]
    rw [leBytes, leNat, ih, BitVec.toNat_ofNat, hsplit]

theorem leAt_leBytes_append (n v : Nat) (b : Bytes) : leAt (leBytes n v ++ b) 0 n = v % 256 ^ n := by
  rw [leAt, List.drop_zero, List.take_left' (leBytes_length n v), leNat_leBytes]

theorem leAt_append_left (a b : Bytes) (n : Nat) : leAt (a ++ b) a.length n = leAt b 0 n := by
  rw [leAt, leAt, List.drop_left, List.drop_zero]

/-- What a commit answers: the generation and the writes of it (R231). -/
theorem State.tableView_fields (s : State) (fn n : Nat) (gen : BitVec 32) :
    leAt (s.tableView fn n gen) 0 4 = gen.toNat ∧ leAt (s.tableView fn n gen) 4 2 = n % 65536 := by
  unfold State.tableView
  simp only [List.append_assoc]
  constructor
  · exact (leAt_leBytes_append 4 _ _).trans (Nat.mod_eq_of_lt gen.isLt)
  · exact (leAt_append_left (leBytes 4 gen.toNat) _ 2).trans (leAt_leBytes_append 2 n _)

/-! ### The boundary -/

/-- The generation that has waited longest no longer waits, and its maintenance slots are free again (R195). -/
def State.takeGen (s : State) (g : PendingGen) (rest : List PendingGen) : State :=
  { s with fwd := { s.fwd with pendingGens := rest, placed := s.fwd.placed.map fun e => (e.1, e.2 - g.need e.1) } }

/-- The answer to the command of a generation. -/
def State.answerGen (s : State) (g : PendingGen) (y : Reply) : State :=
  match g.cmd with
  | some (tag, op) => s.answerLater { fn := g.fn, opcode := op, tag := tag, fence := false, len := 0, buffer := 0, pl := [] } y
  | none => s

/-- The generation has become current in all pipes (R219, R222). -/
def State.makeCurrent (s : State) (g : PendingGen) (m : MacTab) (vs : Tab Nat) : State :=
  (List.range 8).foldl (fun s p => s.gaugeLearned p)
    { s with fwd := { s.fwd with tables := s.fwd.tables.applyAll g.writes, macs := m, victim := vs, generation := s.fwd.generation + 1,
                                 stale := s.fwd.stale ++ s.overtaken g.fn g.writes } }

theorem State.makeCurrent_fwd (s : State) (g : PendingGen) (m : MacTab) (vs : Tab Nat) :
    (s.makeCurrent g m vs).fwd = { s.fwd with
      tables := s.fwd.tables.applyAll g.writes, macs := m, victim := vs, generation := s.fwd.generation + 1
      stale := s.fwd.stale ++ s.overtaken g.fn g.writes } := by
  simp [State.makeCurrent]

@[simp] theorem State.answerGen_frame (s : State) (g : PendingGen) (y : Reply) :
    let t := s.answerGen g y
    t.ms = s.ms ∧ t.cfg = s.cfg ∧ t.nv = s.nv ∧ t.procs = s.procs ∧ t.time = s.time ∧ t.ports = s.ports ∧
    t.fwd = s.fwd ∧ t.qos = s.qos ∧ t.radio = s.radio ∧ t.mesh = s.mesh ∧ t.pins = s.pins ∧ t.power = s.power ∧
    t.jtag = s.jtag ∧ t.pair = s.pair ∧ t.svc = s.svc ∧ t.snap = s.snap ∧ t.bist = s.bist ∧ t.trace = s.trace ∧
    t.ctr = s.ctr ∧ t.draws = s.draws ∧ t.pending = s.pending := by
  unfold State.answerGen
  split <;> simp [State.answerLater]

theorem State.answerGen_fwd (s : State) (g : PendingGen) (y : Reply) : (s.answerGen g y).fwd = s.fwd := by simp

end Sys2Proof.Machine

namespace Sys2Proof.Claims

open Machine

theorem generationBoundary_none {s : State} (h : s.fwd.pendingGens = []) : exec .generationBoundary s = .next s := by
  show execGenerationBoundary s = _
  unfold execGenerationBoundary
  rw [h]

/-- What the boundary does with the generation that has waited longest. -/
def boundary (s : State) (g : PendingGen) (rest : List PendingGen) : State :=
  match staticWrites s.fwd.macs s.fwd.victim (lastWrites g.writes) with
  | none => (s.takeGen g rest).answerGen g { status := stNoResource, sub := 0x23 }
  | some (m, vs) =>
    let t := (s.takeGen g rest).makeCurrent g m vs
    match g.reset with
    | some tn => (t.finishTenantReset tn).answerGen g okReply
    | none => t.answerGen g (okWith (t.tableView g.fn g.writes.length t.fwd.generation))

theorem generationBoundary_waits {s : State} {g : PendingGen} {rest : List PendingGen} (h : s.fwd.pendingGens = g :: rest)
    (hp : s.isPlaced g = false) : exec .generationBoundary s = .next s := by
  show execGenerationBoundary s = _
  unfold execGenerationBoundary
  rw [h]
  simp [hp]

theorem generationBoundary_placed {s : State} {g : PendingGen} {rest : List PendingGen} (h : s.fwd.pendingGens = g :: rest)
    (hp : s.isPlaced g = true) : exec .generationBoundary s = .next (boundary s g rest) := by
  show execGenerationBoundary s = _
  unfold execGenerationBoundary boundary
  rw [h]
  simp only [hp]
  rfl

end Sys2Proof.Claims

/-! ### The end of a tenant's reset -/

namespace Sys2Proof.Machine

/-- What a flush of queues leaves alone: policers, class maps and shapers. -/
def Qos.settings (q : Qos) : Tab Policer × Tab ClassMap × Tab Shaper := (q.policers, q.maps, q.shapers)

theorem State.setItems_settings (s : State) (q : Nat) (l : List QItem) : (s.setItems q l).qos.settings = s.qos.settings := by
  unfold State.setItems State.clearDeficit
  dsimp only
  split <;> rfl

theorem State.letGo_settings (s : State) (id : Nat) : (s.letGo id).qos.settings = s.qos.settings := by
  unfold State.letGo
  split <;> rfl

theorem State.foldl_settings {α : Type} {g : State → α → State} (h : ∀ s e, (g s e).qos.settings = s.qos.settings) (l : List α)
    (s : State) : (l.foldl g s).qos.settings = s.qos.settings := by
  induction l generalizing s with
  | nil => rfl
  | cons e l ih => exact (ih (g s e)).trans (h s e)

theorem State.flushQueue_settings (s : State) (q : Nat) : (s.flushQueue q).qos.settings = s.qos.settings := by
  unfold State.flushQueue
  dsimp only
  split
  · rfl
  · have hqos (t : State) (n : Nat) : ((t.count (.queue q .flushed) n).gaugeQueue q).qos = t.qos := by simp
    rw [hqos, foldl_settings (fun t (i : QItem) => t.letGo_settings i.id), setItems_settings]

theorem State.flushTenant_settings (s : State) (tn : Nat) : (s.flushTenant tn).qos.settings = s.qos.settings :=
  foldl_settings State.flushQueue_settings _ s

/-- The state without the tenant's policers, which go with its rules and routes (R35). -/
def State.dropPolicers (s : State) (tn : Nat) : State :=
  { s with qos := { s.qos with policers := s.qos.policers.filter fun e => e.2.owner != tn } }

/-- The Wells of a tenant. -/
def State.tenantWells (s : State) (tn : Nat) : List Nat :=
  (s.cfg.wells.filter fun e => match e.2 with | some o => o.tenant == tn | none => false).map (·.1)

theorem State.mem_tenantWells {s : State} {tn : Nat} {e : Nat × Option WellOwner} (he : e ∈ s.cfg.wells) {o : WellOwner} (ho : e.2 = some o)
    (htn : o.tenant = tn) : e.1 ∈ s.tenantWells tn :=
  List.mem_map_of_mem (List.mem_filter.2 ⟨he, by simp [ho, htn]⟩)

/-- The queues' memory at the end of a tenant's reset (R35, R272). -/
theorem State.finishTenantReset_qos (s : State) (tn : Nat) :
    (s.finishTenantReset tn).qos = (((s.dropPolicers tn).flushTenant tn).factoryBundles tn).qos := by
  simp [State.finishTenantReset, State.dropPolicers]

theorem State.finishTenantReset_settings (s : State) (tn : Nat) :
    (∀ e ∈ (s.finishTenantReset tn).qos.policers, e.2.owner ≠ tn) ∧
    (s.finishTenantReset tn).qos.maps = tset {} s.qos.maps tn {} ∧
    ∀ e ∈ (s.finishTenantReset tn).qos.shapers, e ∈ s.qos.shapers ∧ (8 + 7 * tn ≤ e.1 % 128 → e.1 % 128 < 15 + 7 * tn → 32768 ≤ e.1) := by
  have hsettings := (s.dropPolicers tn).flushTenant_settings tn
  simp only [Qos.settings, Prod.mk.injEq] at hsettings
  obtain ⟨hpolicers, hmaps, hshapers⟩ := hsettings
  rw [finishTenantReset_qos]
  simp only [State.factoryBundles, hpolicers, hmaps, hshapers]
  refine ⟨fun e he => ?_, rfl, fun e he => ?_⟩
  · simpa using (List.mem_filter.1 he).2
  · obtain ⟨hmem, hown⟩ := List.mem_filter.1 he
    refine ⟨hmem, fun hlo hhi => ?_⟩
    simpa [hlo, hhi] using hown

/-- A Well of the tenant starts afresh (R35). -/
theorem State.foldl_clearWell (ws : List Nat) (s : State) {w : Nat} (hw : w ∈ ws) :
    (ws.foldl (fun s w => s.setWell w {}) s).well w = {} := by
  have hkept (l : List Nat) (t : State) (ht : t.well w = {}) : (l.foldl (fun s w => s.setWell w {}) t).well w = {} := by
    induction l generalizing t with
    | nil => exact ht
    | cons a l ih =>
      refine ih _ ?_
      by_cases h : w = a
      · rw [h, setWell_well]
      · rw [setWell_well_ne _ _ h, ht]
  induction ws generalizing s with
  | nil => cases hw
  | cons a ws ih =>
    rcases List.mem_cons.1 hw with rfl | hmem
    · exact hkept ws _ (setWell_well ..)
    · exact ih _ hmem

theorem State.draw_well (s : State) (w : Nat) : s.draw.2.well w = s.well w := rfl

/-- A Well of the tenant is cleared; the entry to the PF0 alarm Well, the last change of a Well, leaves it alone (R31, R35). -/
theorem State.finishTenantReset_well (s : State) (tn : Nat) {w : Nat} (hw : w ∈ s.tenantWells tn) (h4 : 4 ≤ w) :
    (s.finishTenantReset tn).well w = {} := by
  have hrings (t : State) (punt inject : Tab Ring) (paced : Tab (Option Paced)) (notices : List Notice) :
      State.well { t with host := { t.host with punt := punt, inject := inject, paced := paced, tenantNotice := notices } } w =
        t.well w := rfl
  have hcfg : (((s.dropPolicers tn).flushTenant tn).factoryBundles tn).tenantWells tn = s.tenantWells tn := by
    simp [State.tenantWells, State.dropPolicers]
  unfold State.finishTenantReset
  dsimp only
  rw [modMbox_well]
  refine (hrings _ _ _ _ _).trans ?_
  rw [State.alarm, produce_well_ne _ _ _ _ (by omega), draw_well, draw_well, draw_well]
  have hmem : w ∈ (((s.dropPolicers tn).flushTenant tn).factoryBundles tn).tenantWells tn := hcfg ▸ hw
  exact foldl_clearWell _ _ hmem

theorem State.finishTenantReset_tenantHeld (s : State) (tn : Nat) : ((s.finishTenantReset tn).mbox (tn + 1)).tenantHeld = false := by
  unfold State.finishTenantReset
  dsimp only
  rw [modMbox_mbox]

/-- The tenant's punt rings are disabled (R35). -/
theorem State.finishTenantReset_punt (s : State) (tn : Nat) {e : Nat × Ring} (he : e ∈ (s.finishTenantReset tn).host.punt)
    (htn : e.1 / 64 = tn + 1) : e.2.enable = false := by
  have hstop : ∃ l : Tab Ring, (s.finishTenantReset tn).host.punt = l.map fun e =>
      if e.1 / 64 = tn + 1 then (e.1, { e.2.disable with tail := e.2.head + BitVec.ofNat 16 e.2.bufs.length }) else e := ⟨_, rfl⟩
  obtain ⟨l, hl⟩ := hstop
  obtain ⟨x, -, rfl⟩ := List.mem_map.1 (hl ▸ he)
  split at htn
  case isTrue hx => simp [hx, Ring.disable]
  case isFalse hx => exact absurd htn hx

@[simp] theorem State.answerGen_tenantHeld (s : State) (g : PendingGen) (y : Reply) (k : Nat) :
    ((s.answerGen g y).mbox k).tenantHeld = (s.mbox k).tenantHeld := by
  unfold State.answerGen State.answerLater State.answer
  split
  · split
    · dsimp only
      split
      · exact (writeResponse_tenantHeld ..).trans (modMbox_keeps Mbox.tenantHeld _ _ _ _ (by simp))
      · exact modMbox_keeps Mbox.tenantHeld _ _ _ _ (by simp)
    · rfl
  · rfl

@[simp] theorem State.answerGen_well (s : State) (g : PendingGen) (y : Reply) (w : Nat) : (s.answerGen g y).well w = s.well w := by
  unfold State.answerGen State.answerLater State.answer
  split
  · split
    · dsimp only
      split <;> simp
    · rfl
  · rfl

@[simp] theorem State.raise_punt (s : State) (f v : Nat) : (s.raise f v).host.punt = s.host.punt := by
  unfold State.raise
  dsimp only
  repeat' split
  all_goals rfl

@[simp] theorem State.writeResponse_punt (s : State) (f tag : Nat) (y : Reply) : (s.writeResponse f tag y).host.punt = s.host.punt := by
  unfold State.writeResponse
  dsimp only
  split
  · rfl
  split
  · exact raise_punt ..
  · rfl

@[simp] theorem State.answerGen_punt (s : State) (g : PendingGen) (y : Reply) : (s.answerGen g y).host.punt = s.host.punt := by
  unfold State.answerGen State.answerLater State.answer
  split
  · split
    · dsimp only
      split
      · exact writeResponse_punt ..
      · rfl
    · rfl
  · rfl

end Sys2Proof.Machine

/-! ### Commits -/

namespace Sys2Proof.Machine

/-- A function's writes have become a generation that waits for its boundary (R219). -/
def State.queueGen (s : State) (r : Req) : State :=
  { s with fwd := { s.fwd with
      staged := s.fwd.staged.filter fun e => e.1 != r.fn
      stale := s.fwd.stale.filter (· != r.fn)
      pendingGens := s.fwd.pendingGens ++ [s.pendingGen r.fn (r.tag, r.opcode) (s.stagedOf r.fn)] } }

theorem State.commit_nothing {s : State} {r : Req} (hfits : s.overrun r.fn [] = false) (hnone : s.stagedOf r.fn = []) :
    s.commit r = (s, okWith (s.tableView r.fn 0 s.fwd.generation)) := by
  simp [State.commit, hnone, hfits]

theorem State.commit_queues {s : State} {r : Req} (hfits : s.overrun r.fn (s.stagedOf r.fn) = false) (hsome : s.stagedOf r.fn ≠ [])
    (hpass : s.commitCheck r.fn (s.stagedOf r.fn) = none) : s.commit r = (s.queueGen r, { deferred := true }) := by
  simp only [State.commit, hfits, List.isEmpty_iff, hsome, hpass, Bool.false_eq_true, if_false]
  rfl

/-- The host interface has no part in the check of a commit. -/
theorem State.commitCheck_host (s : State) (h : HostIf) (fn : Nat) (all : List TableWrite) :
    State.commitCheck { s with host := h } fn all = s.commitCheck fn all := rfl

end Sys2Proof.Machine

namespace Sys2Proof.Claims

open Machine

theorem only_started {ps : List Part} {s : State} (c : AciSpec) (a : Aci) (h : [.host] ⊆ ps) : Only ps s (started c a s) :=
  (only_modMbox h).2 ((only_takeDesc h).2 (Only.refl ps s))

/-- An effect that stages no journal record, and defers nothing, is followed by its response. -/
theorem run_answers {c : AciSpec} {r : Req} {s t : State} {y : Reply} (heffect : c.effect r s = (t, y)) (hnow : y.deferred = false)
    (hnv : t.nv = s.nv) :
    c.run r s = t.answer r { y with inBuffer := c.buffer && y.status == stOk && !y.results.isEmpty } := by
  simp [AciSpec.run, heffect, hnow, State.journalStaged, hnv]

/-- What a commit looks at is not part of the host interface. -/
theorem started_commit (c : AciSpec) (a : Aci) (s : State) (fn : Nat) (ws : List TableWrite) :
    (started c a s).fwd = s.fwd ∧ (started c a s).stagedOf fn = s.stagedOf fn ∧ (started c a s).overrun fn ws = s.overrun fn ws ∧
      (started c a s).commitCheck fn ws = s.commitCheck fn ws := by
  obtain ⟨h, hstarted⟩ := started_eq c a s
  rw [hstarted]
  exact ⟨rfl, rfl, rfl, s.commitCheck_host h fn ws⟩

theorem tableCommit_nothing {a : Aci} {s : State} (hacc : accepted tableCommitSpec a s = true) (hfits : s.overrun a.fn.val [] = false)
    (hnone : s.stagedOf a.fn.val = []) :
    Gives (.tableCommit a) s fun t => Only [.host] s t ∧
      ∃ res, Responded tableCommitSpec a s t stOk 0 res ∧ leAt res 0 4 = s.fwd.generation.toNat ∧ leAt res 4 2 = 0 := by
  have h := accepted_iff.1 hacc
  obtain ⟨hfwd, hstaged, hoverrun, -⟩ := started_commit tableCommitSpec a s a.fn.val []
  have heffect := State.commit_nothing (s := started tableCommitSpec a s) (r := tableCommitSpec.req a s) (hoverrun.trans hfits)
    (hstaged.trans hnone)
  obtain ⟨hgen, hcount⟩ := (started tableCommitSpec a s).tableView_fields a.fn.val 0 (started tableCommitSpec a s).fwd.generation
  refine ⟨_, congrArg Host.Outcome.next (h.exec_eq.trans (run_answers heffect rfl rfl)), ?_, _,
    h.answer_responded _ rfl rfl (State.takeDesc_busMaster ..), ?_, hcount⟩
  · exact (only_answerLater (by simp)).2 (only_started _ a (by simp))
  · rw [hfwd] at hgen
    exact hgen

/-- A commit that passes makes a generation. -/
theorem tableCommit_queues {a : Aci} {s : State} (hacc : accepted tableCommitSpec a s = true)
    (hfits : s.overrun a.fn.val (s.stagedOf a.fn.val) = false) (hsome : s.stagedOf a.fn.val ≠ [])
    (hpass : s.commitCheck a.fn.val (s.stagedOf a.fn.val) = none) :
    exec (.tableCommit a) s = .next ((started tableCommitSpec a s).queueGen (tableCommitSpec.req a s)) := by
  obtain ⟨hfwd, hstaged, hoverrun, hcheck⟩ := started_commit tableCommitSpec a s a.fn.val (s.stagedOf a.fn.val)
  have heffect : tableCommitSpec.effect (tableCommitSpec.req a s) (started tableCommitSpec a s) = _ :=
    State.commit_queues (hoverrun.trans hfits) (fun hnil => hsome (hstaged.symm.trans hnil)) (hcheck.trans hpass)
  have hrun := run_deferred (c := tableCommitSpec) (congrArg (·.2.deferred) heffect)
  exact congrArg Host.Outcome.next ((accepted_iff.1 hacc).exec_eq.trans (hrun.trans (congrArg Prod.fst heffect)))

theorem queueGen_fwd (c : AciSpec) (a : Aci) (s : State) (r : Req) :
    ((started c a s).queueGen r).fwd = { s.fwd with
      staged := s.fwd.staged.filter fun e => e.1 != r.fn
      stale := s.fwd.stale.filter (· != r.fn)
      pendingGens := s.fwd.pendingGens ++ [s.pendingGen r.fn (r.tag, r.opcode) (s.stagedOf r.fn)] } := by
  obtain ⟨h, hstarted⟩ := started_eq c a s
  rw [hstarted]
  rfl

theorem tableCommit_begins {a : Aci} {s : State} (hacc : accepted tableCommitSpec a s = true)
    (hfits : s.overrun a.fn.val (s.stagedOf a.fn.val) = false) (hsome : s.stagedOf a.fn.val ≠ [])
    (hpass : s.commitCheck a.fn.val (s.stagedOf a.fn.val) = none) :
    Gives (.tableCommit a) s fun t => Only [.host, .fwd] s t ∧ Unanswered tableCommitSpec a s t ∧ t.fwd = { s.fwd with
      staged := s.fwd.staged.filter fun e => e.1 != a.fn.val
      stale := s.fwd.stale.filter (· != a.fn.val)
      pendingGens := s.fwd.pendingGens ++ [s.pendingGen a.fn.val ((tableCommitSpec.req a s).tag, (tableCommitSpec.req a s).opcode)
        (s.stagedOf a.fn.val)] } := by
  have hmbox : ((started tableCommitSpec a s).queueGen (tableCommitSpec.req a s)).mbox a.fn.val =
      (started tableCommitSpec a s).mbox a.fn.val := rfl
  refine ⟨_, tableCommit_queues hacc hfits hsome hpass, ?_, ⟨?_, ?_⟩, queueGen_fwd ..⟩
  · exact (only_fwd_update (by simp)).2 (only_started _ a (by simp))
  · rw [hmbox, started_mbox]
  · rw [hmbox, started_mbox]
    exact List.mem_cons_self

end Sys2Proof.Claims

/-! ### What the boundary leaves -/

namespace Sys2Proof.Claims

open Machine

theorem only_answerGen {ps : List Part} {s t : State} {g : PendingGen} {y : Reply} (h : [.host] ⊆ ps) :
    Only ps s (t.answerGen g y) ↔ Only ps s t :=
  only_step h (State.answerGen_frame t g y)

theorem only_makeCurrent {ps : List Part} {s t : State} {g : PendingGen} {m : MacTab} {vs : Tab Nat} (h : [.fwd, .ctr] ⊆ ps) :
    Only ps s (t.makeCurrent g m vs) ↔ Only ps s t :=
  (only_foldl fun t _ => (only_gaugeLearned fun _ hp => h (List.mem_cons_of_mem _ hp)).2 (Only.refl ps t)).trans
    (only_fwd_update fun _ hp => h (List.mem_singleton.1 hp ▸ List.mem_cons_self))

/-- The waiting generation is current. -/
def current (s : State) (g : PendingGen) (rest : List PendingGen) (m : MacTab) (vs : Tab Nat) : State :=
  (s.takeGen g rest).makeCurrent g m vs

theorem only_current (s : State) (g : PendingGen) (rest : List PendingGen) (m : MacTab) (vs : Tab Nat) :
    Only [.fwd, .ctr] s (current s g rest m vs) :=
  (only_makeCurrent (by simp)).2 ((only_fwd_update (by simp)).2 (Only.refl _ s))

/-- What a generation that is current has changed in the tables. -/
theorem current_fwd (s : State) (g : PendingGen) (rest : List PendingGen) (m : MacTab) (vs : Tab Nat) :
    let u := (current s g rest m vs).fwd
    u.pendingGens = rest ∧ u.generation = s.fwd.generation + 1 ∧ u.tables = s.fwd.tables.applyAll g.writes ∧ u.macs = m ∧
      u.victim = vs := by
  dsimp only
  rw [current, State.makeCurrent_fwd]
  exact ⟨rfl, rfl, rfl, rfl, rfl⟩

/-- No static MAC finds a place: only the answer is given (R221). -/
theorem boundary_refused {s : State} {g : PendingGen} {rest : List PendingGen}
    (h : staticWrites s.fwd.macs s.fwd.victim (lastWrites g.writes) = none) :
    boundary s g rest = (s.takeGen g rest).answerGen g { status := stNoResource, sub := 0x23 } := by
  rw [boundary, h]

theorem boundary_current {s : State} {g : PendingGen} {rest : List PendingGen} {m : MacTab} {vs : Tab Nat}
    (h : staticWrites s.fwd.macs s.fwd.victim (lastWrites g.writes) = some (m, vs)) (hreset : g.reset = none) :
    boundary s g rest = (current s g rest m vs).answerGen g
      (okWith ((current s g rest m vs).tableView g.fn g.writes.length (current s g rest m vs).fwd.generation)) := by
  rw [boundary, h]
  dsimp only
  rw [hreset]
  rfl

theorem boundary_reset {s : State} {g : PendingGen} {rest : List PendingGen} {m : MacTab} {vs : Tab Nat} {tn : Nat}
    (h : staticWrites s.fwd.macs s.fwd.victim (lastWrites g.writes) = some (m, vs)) (hreset : g.reset = some tn) :
    boundary s g rest = ((current s g rest m vs).finishTenantReset tn).answerGen g okReply := by
  rw [boundary, h]
  dsimp only
  rw [hreset]
  rfl

theorem generationBoundary_refused {s : State} {g : PendingGen} {rest : List PendingGen} (hgens : s.fwd.pendingGens = g :: rest)
    (hplaced : s.isPlaced g = true) (h : staticWrites s.fwd.macs s.fwd.victim (lastWrites g.writes) = none) :
    Gives .generationBoundary s fun t => t.fwd = { s.fwd with
      pendingGens := rest, placed := s.fwd.placed.map fun e => (e.1, e.2 - g.need e.1) } := by
  refine ⟨_, generationBoundary_placed hgens hplaced, ?_⟩
  rw [boundary_refused h]
  simp [State.takeGen]

/-- A generation without a tenant's reset becomes current whole. -/
theorem generationBoundary_current {s : State} {g : PendingGen} {rest : List PendingGen} {m : MacTab} {vs : Tab Nat}
    (hgens : s.fwd.pendingGens = g :: rest) (hplaced : s.isPlaced g = true) (hreset : g.reset = none)
    (h : staticWrites s.fwd.macs s.fwd.victim (lastWrites g.writes) = some (m, vs)) :
    Gives .generationBoundary s fun t => Only [.host, .fwd, .ctr] s t ∧ t.fwd.pendingGens = rest ∧
      t.fwd.generation = s.fwd.generation + 1 ∧ t.fwd.tables = s.fwd.tables.applyAll g.writes ∧ t.fwd.macs = m ∧ t.fwd.victim = vs := by
  have hfwd : (boundary s g rest).fwd = (current s g rest m vs).fwd := by simp [boundary_current h hreset]
  have hcurrent := current_fwd s g rest m vs
  rw [← hfwd] at hcurrent
  refine ⟨_, generationBoundary_placed hgens hplaced, ?_, hcurrent⟩
  rw [boundary_current h hreset]
  exact (only_answerGen (by simp)).2 ((only_current s g rest m vs).mono (by simp))

/-- A generation of a TENANT_RESET ends that reset (R35). -/
theorem generationBoundary_reset {s : State} {g : PendingGen} {rest : List PendingGen} {m : MacTab} {vs : Tab Nat} {tn : Nat}
    (hgens : s.fwd.pendingGens = g :: rest) (hplaced : s.isPlaced g = true) (hreset : g.reset = some tn)
    (h : staticWrites s.fwd.macs s.fwd.victim (lastWrites g.writes) = some (m, vs)) :
    Gives .generationBoundary s fun t => Only [.host, .fwd, .qos, .ctr, .draws] s t ∧
      t.fwd.tables = s.fwd.tables.applyAll g.writes ∧ t.fwd.generation = s.fwd.generation + 1 ∧
      (t.mbox (tn + 1)).tenantHeld = false ∧ (∀ e ∈ t.qos.policers, e.2.owner ≠ tn) ∧
      t.qos.maps = tset {} s.qos.maps tn {} ∧
      (∀ e ∈ t.qos.shapers, e ∈ s.qos.shapers ∧ (8 + 7 * tn ≤ e.1 % 128 → e.1 % 128 < 15 + 7 * tn → 32768 ≤ e.1)) ∧
      (∀ e ∈ s.cfg.wells, ∀ o, e.2 = some o → o.tenant = tn → 4 ≤ e.1 → t.well e.1 = {}) ∧
      ∀ e ∈ t.host.punt, e.1 / 64 = tn + 1 → e.2.enable = false := by
  have hexec := generationBoundary_placed hgens hplaced
  refine ⟨_, hexec, generationBoundary_frame _ _ hexec, ?_⟩
  rw [boundary_reset h hreset]
  have honly := only_current s g rest m vs
  obtain ⟨-, hgen, htables, -, -⟩ := current_fwd s g rest m vs
  generalize current s g rest m vs = u at *
  have hqos : u.qos = s.qos := honly .qos (by decide)
  have hcfg : u.cfg = s.cfg := honly .cfg (by decide)
  obtain ⟨hpolicers, hmaps, hshapers⟩ := u.finishTenantReset_settings tn
  rw [hqos] at hmaps hshapers
  have hkept : ((u.finishTenantReset tn).answerGen g okReply).fwd = u.fwd := by simp
  have hkeptQos : ((u.finishTenantReset tn).answerGen g okReply).qos = (u.finishTenantReset tn).qos := by simp
  rw [hkept, hkeptQos, State.answerGen_tenantHeld, State.answerGen_punt]
  refine ⟨htables, hgen, u.finishTenantReset_tenantHeld tn, hpolicers, hmaps, hshapers, fun e he o ho htn h4 => ?_,
    fun e he htn => u.finishTenantReset_punt tn he htn⟩
  rw [State.answerGen_well]
  exact u.finishTenantReset_well tn (State.mem_tenantWells (hcfg ▸ he) ho htn) h4

/-- The end of a generation answers the command that made it, while that is in flight. -/
theorem answerGen_answered {c : AciSpec} {a : Aci} {s u : State} {g : PendingGen} (y : Reply) (hfn : g.fn = a.fn.val)
    (hcmd : g.cmd = some ((c.req a s).tag, (c.req a s).opcode)) (hmbox : u.mbox a.fn.val = (started c a s).mbox a.fn.val)
    (hup : u.mgcDown a.fn.val = false) (hdma : u.busMaster a.fn.val = true) :
    Answered a u (u.answerGen g y) y.status y.sub y.results := by
  rw [State.answerGen, hcmd, hfn]
  obtain ⟨-, -, x, hx, htag, hanswer⟩ := answer_responds (s := u) (y := y)
    (r := { fn := a.fn.val, opcode := (c.req a s).opcode, tag := (c.req a s).tag, fence := false, len := 0, buffer := 0, pl := [] })
    hup hdma (find_started hmbox) rfl
  exact ⟨x, hx, htag.trans (req_tag c a s), hanswer⟩

/-- The generation that a commit makes. -/
def commitGen (a : Aci) (s : State) : PendingGen :=
  s.pendingGen a.fn.val ((tableCommitSpec.req a s).tag, (tableCommitSpec.req a s).opcode) (s.stagedOf a.fn.val)

/-- A commit's generation, alone and placed, becomes current, and the boundary answers the commit (R219, R231). -/
theorem commitGen_completes {a : Aci} {s v : State} (hacc : Accepted tableCommitSpec a s)
    (hgens : v.fwd.pendingGens = [commitGen a s]) (hplaced : v.isPlaced (commitGen a s) = true)
    (hstatic : staticWrites v.fwd.macs v.fwd.victim (lastWrites (s.stagedOf a.fn.val)) ≠ none)
    (hmbox : v.mbox a.fn.val = (started tableCommitSpec a s).mbox a.fn.val) (hprocs : v.procs = s.procs)
    (hdma : v.busMaster a.fn.val = s.busMaster a.fn.val) :
    Gives .generationBoundary v fun u => ∃ res, Answered a v u stOk 0 res ∧
      u.fwd.tables = v.fwd.tables.applyAll (s.stagedOf a.fn.val) ∧ u.fwd.generation = v.fwd.generation + 1 ∧ u.fwd.pendingGens = [] ∧
      leAt res 0 4 = (v.fwd.generation + 1).toNat ∧ leAt res 4 2 = (s.stagedOf a.fn.val).length % 65536 := by
  obtain ⟨hup, hbus⟩ := hacc.served
  obtain ⟨⟨m, vs⟩, hplace⟩ := Option.ne_none_iff_exists'.1 hstatic
  refine ⟨_, generationBoundary_placed hgens hplaced, ?_⟩
  rw [boundary_current hplace rfl]
  obtain ⟨hrest, hgen, htables, -, -⟩ := current_fwd v (commitGen a s) [] m vs
  have honly := only_current v (commitGen a s) [] m vs
  generalize current v (commitGen a s) [] m vs = u at *
  have hhost : u.host = v.host := honly .host (by decide)
  have huprocs : u.procs = s.procs := (honly .procs (by decide)).trans hprocs
  have humbox : u.mbox a.fn.val = v.mbox a.fn.val := State.mbox_of_host hhost _
  have hudma : u.busMaster a.fn.val = v.busMaster a.fn.val := by rw [State.busMaster, hhost, State.busMaster]
  obtain ⟨x, hx, hanswer⟩ := answerGen_answered (g := commitGen a s) (okWith (u.tableView a.fn.val (s.stagedOf a.fn.val).length u.fwd.generation)) rfl rfl
    (humbox.trans hmbox) ((State.mgcDown_of_procs huprocs _).trans hup) ((hudma.trans hdma).trans hbus)
  obtain ⟨hview, hcount⟩ := u.tableView_fields a.fn.val (s.stagedOf a.fn.val).length u.fwd.generation
  rw [humbox] at hx
  refine ⟨_, ⟨x, hx, hanswer⟩, ?_, ?_, ?_, hview.trans (by rw [hgen]), hcount⟩
  · rw [State.answerGen_fwd]
    exact htables
  · rw [State.answerGen_fwd]
    exact hgen
  · rw [State.answerGen_fwd]
    exact hrest

theorem tableCommit_completes {a : Aci} {s : State} (hacc : accepted tableCommitSpec a s = true)
    (hfits : s.overrun a.fn.val (s.stagedOf a.fn.val) = false) (hsome : s.stagedOf a.fn.val ≠ [])
    (hpass : s.commitCheck a.fn.val (s.stagedOf a.fn.val) = none) (hfirst : s.fwd.pendingGens = [])
    (hstatic : staticWrites s.fwd.macs s.fwd.victim (lastWrites (s.stagedOf a.fn.val)) ≠ none) :
    Gives (.tableCommit a) s fun t => ∀ slots : Tab Nat,
      let v : State := { t with fwd := { t.fwd with placed := slots } }
      (∀ g ∈ v.fwd.pendingGens, v.isPlaced g = true) → Gives .generationBoundary v fun u =>
        ∃ res, Answered a t u stOk 0 res ∧ u.fwd.tables = s.fwd.tables.applyAll (s.stagedOf a.fn.val) ∧
          u.fwd.generation = s.fwd.generation + 1 ∧ u.fwd.pendingGens = [] ∧ leAt res 0 4 = (s.fwd.generation + 1).toNat ∧
          leAt res 4 2 = (s.stagedOf a.fn.val).length % 65536 := by
  refine ⟨_, tableCommit_queues hacc hfits hsome hpass, ?_⟩
  intro slots v hplaced
  have hfwd := queueGen_fwd tableCommitSpec a s (tableCommitSpec.req a s)
  have hgens : v.fwd.pendingGens = [commitGen a s] := by
    simp only [v, hfwd, hfirst]
    rfl
  have hmacs : v.fwd.macs = s.fwd.macs := by simp [v, hfwd]
  have hvictim : v.fwd.victim = s.fwd.victim := by simp [v, hfwd]
  have htables : v.fwd.tables = s.fwd.tables := by simp [v, hfwd]
  have hgeneration : v.fwd.generation = s.fwd.generation := by simp [v, hfwd]
  have hdone := commitGen_completes (accepted_iff.1 hacc) hgens (hplaced _ (hgens ▸ List.mem_singleton.2 rfl))
    (by rwa [hmacs, hvictim]) rfl rfl (State.takeDesc_busMaster ..)
  rw [htables, hgeneration] at hdone
  exact hdone

end Sys2Proof.Claims

section
open Sys2Proof Sys2Proof.Machine Sys2Proof.Claims

/-- Settles O22: the boundary takes the generation that has waited longest, and what becomes of it is said by cases: its entries are not
placed, its static MACs find no place, it ends no tenant's reset, or it ends one. -/
theorem generationsBecomeCurrentWhole : Obligations.GenerationsBecomeCurrentWhole := by
  refine ⟨fun a s => tableCommit_nothing, fun a s hacc hwhen => ?_, fun a s hacc hwhen => ?_, Tables.applyAll_concat_rule,
    Tables.applyAll_concat_route, fun _ => generationBoundary_none, fun _ _ _ => generationBoundary_waits,
    fun _ _ _ _ _ => generationBoundary_current, fun _ _ _ _ _ _ => generationBoundary_reset, fun _ _ _ => generationBoundary_refused⟩
  · obtain ⟨hfits, hsome, hpass⟩ := hwhen
    exact tableCommit_begins hacc hfits hsome hpass
  · obtain ⟨hfits, hsome, hpass, hfirst, hstatic⟩ := hwhen
    exact tableCommit_completes hacc hfits hsome hpass hfirst hstatic

end

/-! PROOFS. The statements of modes and start: the agreement of modes and outputs, MODE_REQ, resets, the start, migration, links and
lanes, and the roles of the pair. -/

/-! ### What a change of mode leaves -/

namespace Sys2Proof.Machine

/-- The pins but for those that the ring pairs and the I2C buses drive. -/
def Pins.apart (p : Pins) : Pins := { p with bypassHold := [], gpioPulses := [] }

/-- The pair's state but for what is on its way to the partner, or waits for it. -/
def Pair.apart (p : Pair) : Pair := { p with sent := [], cseq := 0, unacked := [], finals := [], releases := [] }

@[simp] theorem State.setRings_pins_apart (s : State) : s.setRings.pins.apart = s.pins.apart := rfl

@[simp] theorem State.switchRings_pins_apart (s : State) : s.switchRings.pins.apart = s.pins.apart := by
  simp only [State.switchRings]
  rw [foldl_pins _ (fun acc k => by simp), setRings_pins_apart]

theorem State.recoverBus_pins_apart (s : State) (bus : Nat) (sda : List Bool) : (s.recoverBus bus sda).pins.apart = s.pins.apart := by
  unfold State.recoverBus
  dsimp only
  split <;> simp [Pins.apart]

theorem State.wakeBus_pins_apart (s : State) (b : Nat) : (s.wakeBus b).pins.apart = s.pins.apart := by
  unfold State.wakeBus
  split
  · rfl
  · exact recoverBus_pins_apart ..

theorem State.foldl_pins_apart {α : Type} {g : State → α → State} (h : ∀ s e, (g s e).pins.apart = s.pins.apart) (es : List α)
    (s : State) : (es.foldl g s).pins.apart = s.pins.apart := by
  induction es generalizing s with
  | nil => rfl
  | cons e es ih => exact (ih (g s e)).trans (h s e)

@[simp] theorem State.setDriving_pins_apart (s : State) : s.setDriving.pins.apart = s.pins.apart := by
  unfold State.setDriving
  split
  · rfl
  split
  · exact foldl_pins_apart wakeBus_pins_apart ..
  · rfl

@[simp] theorem State.pairSend_apart (s : State) (m : PairMsg) : (s.pairSend m).pair.apart = s.pair.apart := by
  unfold State.pairSend
  split <;> rfl

@[simp] theorem State.carry_apart (s : State) (delay : Nat) (r : Release) : (s.carry delay r).pair.apart = s.pair.apart := by
  simp only [State.carry, pairSend_apart]
  rfl

@[simp] theorem State.complete_apart (s : State) (f tag opcode status sub : Nat) (result : Bytes) :
    (s.complete f tag opcode status sub result).pair.apart = s.pair.apart := by
  unfold State.complete
  split
  · dsimp only
    split
    · exact (pairSend_apart ..).trans rfl
    · simp
  · rfl

@[simp] theorem State.finishInstall_apart (s : State) (f tag st sub : Nat) (result : Bytes) :
    (s.finishInstall f tag st sub result).pair.apart = s.pair.apart := by
  unfold State.finishInstall
  split <;> simp

@[simp] theorem State.endSession_apart (s : State) (last : Nat) : (s.endSession last).pair.apart = s.pair.apart := by
  unfold State.endSession
  repeat' split
  all_goals simp [apply_ite State.pair, apply_ite Pair.apart]

@[simp] theorem State.sessionMode_apart (s : State) (new : Mode) : (s.sessionMode new).pair.apart = s.pair.apart := by
  unfold State.sessionMode
  repeat' split
  all_goals simp

/-- Of the pair's state, a change of mode touches what the end of a session sends, and no more. -/
@[simp] theorem State.changeMode_pair_apart (s : State) (new : Mode) (t cause : Nat) :
    (s.changeMode new t cause).pair.apart = s.pair.apart := by
  unfold State.changeMode
  split
  · rfl
  dsimp only
  split <;> split <;> simp

/-- ACTIVE_OUT on arrival in a mode, outside the power-fail drain (R39, R572). -/
def State.activeOutIn (s : State) (new : Mode) : Bool :=
  match new with
  | .m3 => s.pins.activeOut || (!s.pins.activeIn && s.pair.backoff.isNone)
  | .m4 | .m6 => s.pins.activeOut
  | _ => false

theorem State.changeMode_held (s : State) (new : Mode) (t cause : Nat) (h : s.ms.inTransition = true) : s.changeMode new t cause = s :=
  if_pos h

/-- START_MS is taken as the device leaves M1 BOOT or M2 MIGRATE (R41). -/
def State.depart (s : State) (new : Mode) : State :=
  if s.ms.mode == .m2 || (s.ms.mode == .m1 && new != .m2) then s.setStart else s

/-- The mode is taken up: sessions, outputs, ring pairs and optics masters follow it (R39, R60, R187). -/
def State.arrive (s : State) (new : Mode) (cause : Nat) : State :=
  let s := s.sessionMode new
  let s := { s with ms := { s.ms with mode := new, safeCause := cause,
                                      standbyHeld := s.ms.standbyHeld && new == Mode.m5, synced := s.ms.synced && (new == Mode.m5 || new == Mode.m6) } }
  (s.setActive.setAlive).switchRings.setDriving

theorem State.changeMode_eq (s : State) (new : Mode) (t cause : Nat) (h : s.ms.inTransition = false) :
    s.changeMode new t cause = (if new = .m7 then ((s.depart new).arrive new cause).allDown.stopContexts
      else (s.depart new).arrive new cause).tellMode s.ms.mode t :=
  if_neg (by simp [h])

/-- What follows the arrival leaves modes, pins and mailboxes' settings as they are. -/
theorem State.changeMode_ms_pins (s : State) (new : Mode) (t cause : Nat) (h : s.ms.inTransition = false) :
    (s.changeMode new t cause).ms = ((s.depart new).arrive new cause).ms ∧
      (s.changeMode new t cause).pins = ((s.depart new).arrive new cause).pins := by
  rw [changeMode_eq s new t cause h]
  split <;> simp

theorem State.depart_eq (s : State) (new : Mode) : ∃ n, s.depart new = { s with ms := { s.ms with startMs := n } } := by
  unfold State.depart
  split
  exacts [⟨_, rfl⟩, ⟨s.ms.startMs, rfl⟩]

theorem State.arrive_ms (s : State) (new : Mode) (cause : Nat) :
    (s.arrive new cause).ms = { s.ms with
      mode := new, safeCause := cause, standbyHeld := s.ms.standbyHeld && new == .m5
      synced := s.ms.synced && (new == .m5 || new == .m6) } := by
  simp [State.arrive]

theorem State.arrive_pins_apart (s : State) (new : Mode) (cause : Nat) (h : s.ms.inTransition = false) :
    (s.arrive new cause).pins.apart = { s.pins.apart with
      activeOut := s.activeOutIn new, aliveOut := new != .m0 && s.procs.loaded && !(new == .m7 && cause == 3) } := by
  have hbackoff : (s.sessionMode new).pair.backoff = s.pair.backoff :=
    (congrArg Pair.backoff (s.sessionMode_apart new) :)
  simp only [State.arrive, setDriving_pins_apart, switchRings_pins_apart, State.setActive, State.setAlive, State.noImage, hbackoff,
    sessionMode_frame, h]
  cases new <;> rfl

/-- Of the modes' record, a change of mode sets the mode, what goes with it, and START_MS. -/
theorem State.changeMode_ms (s : State) (new : Mode) (t cause : Nat) (h : s.ms.inTransition = false) :
    ∃ n, (s.changeMode new t cause).ms = { s.ms with
      mode := new, safeCause := cause, standbyHeld := s.ms.standbyHeld && new == .m5
      synced := s.ms.synced && (new == .m5 || new == .m6), startMs := n } := by
  obtain ⟨n, hn⟩ := s.depart_eq new
  refine ⟨n, ?_⟩
  rw [(changeMode_ms_pins s new t cause h).1, arrive_ms, hn]

/-- Of the pins, a change of mode sets ACTIVE_OUT and ALIVE_OUT, beside those of ring pairs and buses (R39, R55). -/
theorem State.changeMode_pins_apart (s : State) (new : Mode) (t cause : Nat) (h : s.ms.inTransition = false) :
    (s.changeMode new t cause).pins.apart = { s.pins.apart with
      activeOut := s.activeOutIn new, aliveOut := new != .m0 && s.procs.loaded && !(new == .m7 && cause == 3) } := by
  obtain ⟨n, hn⟩ := s.depart_eq new
  rw [(changeMode_ms_pins s new t cause h).2, hn]
  exact arrive_pins_apart _ new cause h

end Sys2Proof.Machine

/-! ### Modes and outputs agree after every operation -/

namespace Sys2Proof.Machine

/-- What the agreement of modes and outputs looks at. -/
def State.standing (s : State) : Mode × Nat × Bool × Bool × Bool × Bool :=
  (s.ms.mode, s.ms.safeCause, s.ms.standbyHeld, s.ms.synced, s.pins.activeOut, s.pins.aliveOut)

/-- What the agreement looks at is as it was. -/
theorem State.ModesAgree.congr {s t : State} (hs : s.ModesAgree) (h : t.standing = s.standing) : t.ModesAgree := by
  simp only [State.standing, Prod.mk.injEq] at h
  obtain ⟨hmode, hcause, hheld, hsynced, hactive, halive⟩ := h
  simpa only [State.ModesAgree, hmode, hcause, hheld, hsynced, hactive, halive] using hs

/-- An operation that keeps the modes' record and the pins keeps the agreement. -/
theorem State.ModesAgree.of_kept {s t : State} (hs : s.ModesAgree) (hms : t.ms = s.ms) (hpins : t.pins = s.pins) : t.ModesAgree :=
  hs.congr (by simp only [State.standing, hms, hpins])

theorem State.ModesAgree.foldl {α : Type} {g : State → α → State} (h : ∀ s e, s.ModesAgree → (g s e).ModesAgree) (es : List α)
    {s : State} (hs : s.ModesAgree) : (es.foldl g s).ModesAgree :=
  List.foldlRecOn es g hs fun t ht e _ => h t e ht

/-! Operations that keep what the agreement looks at. -/

@[simp] theorem State.setRings_standing (s : State) : s.setRings.standing = s.standing := rfl

theorem State.standing_of_apart {s t : State} (hms : t.ms = s.ms) (hpins : t.pins.apart = s.pins.apart) : t.standing = s.standing := by
  have hactive : t.pins.activeOut = s.pins.activeOut := (congrArg Pins.activeOut hpins :)
  have halive : t.pins.aliveOut = s.pins.aliveOut := (congrArg Pins.aliveOut hpins :)
  simp only [State.standing, hms, hactive, halive]

@[simp] theorem State.switchRings_standing (s : State) : s.switchRings.standing = s.standing :=
  standing_of_apart (by simp) (by simp)

@[simp] theorem State.setDriving_standing (s : State) : s.setDriving.standing = s.standing :=
  standing_of_apart (by simp) (by simp)

theorem State.recoverBus_standing (s : State) (bus : Nat) (sda : List Bool) : (s.recoverBus bus sda).standing = s.standing :=
  standing_of_apart (by simp) (recoverBus_pins_apart ..)

@[simp] theorem State.addCause_standing (s : State) (bit : Nat) : (s.addCause bit).standing = s.standing := rfl

@[simp] theorem State.noteMode_standing (s : State) (old : Mode) (t : Nat) : (s.noteMode old t).standing = s.standing := rfl

@[simp] theorem State.takeMark_standing (s : State) : s.takeMark.standing = s.standing := rfl

@[simp] theorem State.writeMaps_standing (s : State) : s.writeMaps.standing = s.standing := rfl

@[simp] theorem State.takeSet_standing (s : State) (bank : Bool) (x : ImageSet) : (s.takeSet bank x).standing = s.standing := rfl

@[simp] theorem State.readBlobs_standing (s : State) : s.readBlobs.standing = s.standing := by
  unfold State.readBlobs
  split
  · exact (setRings_standing _).trans rfl
  · exact (setRings_standing _).trans rfl

@[simp] theorem State.modBoot_standing (s : State) (bank : Bool) (f : BootRec → BootRec) : (s.modBoot bank f).standing = s.standing := by
  cases bank <;> rfl

@[simp] theorem State.rejectBank_standing (s : State) (bank : Bool) (reason : Nat) : (s.rejectBank bank reason).standing = s.standing :=
  modBoot_standing ..

@[simp] theorem State.tryBank_standing (s : State) (bank committed : Bool) : (s.tryBank bank committed).1.standing = s.standing := by
  unfold State.tryBank
  dsimp only
  repeat' split
  all_goals simp

@[simp] theorem State.selectBank_standing (s : State) : s.selectBank.1.standing = s.standing := by
  unfold State.selectBank
  dsimp only
  split <;> simp

@[simp] theorem State.rewrap_standing (s : State) (x : ImageSet) : (s.rewrap x).standing = s.standing := by
  unfold State.rewrap
  dsimp only
  split <;> rfl

@[simp] theorem State.useBlob_standing (s : State) (b : Blob) : (s.useBlob b).standing = s.standing := by
  unfold State.useBlob
  dsimp only
  split <;> rfl

@[simp] theorem State.chooseBlob_standing (s : State) (x : ImageSet) : (s.chooseBlob x).standing = s.standing := by
  unfold State.chooseBlob
  split
  · simp
  split
  · exact useBlob_standing ..
  split <;> rfl

/-! Changes of mode. -/

/-- The device arrives in a mode with its outputs as the mode has them; SAFE_CAUSE is set in M7 SAFE alone (R39, R41). -/
theorem State.ModesAgree.changeMode {s : State} (hs : s.ModesAgree) {new : Mode} (t : Nat) {cause : Nat} (h0 : new ≠ .m0)
    (hcause : new ≠ .m7 → cause = 0) : (s.changeMode new t cause).ModesAgree := by
  cases ht : s.ms.inTransition with
  | true => rwa [changeMode_held s new t cause ht]
  | false =>
    obtain ⟨n, hms⟩ := changeMode_ms s new t cause ht
    have hpins := changeMode_pins_apart s new t cause ht
    have hactive : (s.changeMode new t cause).pins.activeOut = s.activeOutIn new := (congrArg Pins.activeOut hpins :)
    simp only [State.ModesAgree, hms, hactive]
    cases new <;> simp_all [State.activeOutIn]

theorem State.ModesAgree.enterSafe {s : State} (hs : s.ModesAgree) (cause : Nat) : (s.enterSafe cause).ModesAgree := by
  unfold State.enterSafe
  split
  · exact hs
  · refine State.ModesAgree.changeMode ?_ 18 (by decide) (absurd rfl)
    exact hs.of_kept rfl rfl

theorem State.ModesAgree.toSolo {s : State} (hs : s.ModesAgree) (t : Nat) : (s.toSolo t).ModesAgree := by
  unfold State.toSolo
  split
  · exact hs
  · refine State.ModesAgree.changeMode ?_ t (by decide) fun _ => rfl
    exact hs.of_kept rfl rfl

/-- A standby is held in M5 alone (R565). -/
theorem State.ModesAgree.hold {s : State} (hs : s.ModesAgree) (h : s.ms.mode = .m5) :
    State.ModesAgree { s with ms := { s.ms with standbyHeld := true } } :=
  ⟨hs.1, fun _ => h, hs.2.2⟩

theorem State.ModesAgree.toStandby {s : State} (hs : s.ModesAgree) (t : Nat) : (s.toStandby t).ModesAgree := by
  unfold State.toStandby
  split
  · exact hs
  case isFalse ht =>
    dsimp only
    generalize hu : s.modPair _ = u
    have hagree : (u.changeMode .m5 t).ModesAgree := ModesAgree.changeMode (hu ▸ hs) t (by decide) fun _ => rfl
    split
    · exact hagree
    · have hmode : (u.changeMode .m5 t).ms.mode = .m5 := (u.changeMode_mode .m5 t 0 (hu ▸ by simpa using ht)).1
      exact (hagree.hold hmode).of_kept (by simp) (by simp)

theorem State.ModesAgree.leaveBoot {s : State} (hs : s.ModesAgree) : s.leaveBoot.ModesAgree := by
  unfold State.leaveBoot
  repeat' split
  · exact hs.toStandby 9
  · exact hs
  · exact hs.toSolo 8
  · exact hs.toSolo 8

/-! Starting afresh. -/

/-- The device started afresh holds nothing and drives nothing (R39, R46). -/
theorem State.fresh_agrees (s : State) (m : Mode) : (s.fresh m).ModesAgree := by
  simp [State.ModesAgree, State.fresh, Pins.inputs]

theorem State.powerUp_agrees (s : State) : s.powerUp.ModesAgree := s.fresh_agrees .m1

theorem State.warmReset_agrees (s : State) (cause t : Nat) : (s.warmReset cause t).ModesAgree := by
  unfold State.warmReset
  exact ((s.addCause cause).fresh_agrees .m1).congr (switchRings_standing _)

theorem State.ModesAgree.bootChain {s : State} (hs : s.ModesAgree) (b : BootInput) : (s.bootChain b).ModesAgree := by
  unfold State.bootChain
  dsimp only
  split
  · exact hs.congr (readBlobs_standing _)
  split
  · refine ModesAgree.changeMode (hs.congr ?_) 10 (by decide) (absurd rfl)
    rw [selectBank_standing, takeMark_standing, readBlobs_standing]
    rfl
  case h_2 bank x _ =>
    refine hs.congr (Eq.trans (b := (State.chooseBlob _ x).writeMaps.standing) rfl ?_)
    rw [writeMaps_standing, chooseBlob_standing, rewrap_standing, takeSet_standing, selectBank_standing, takeMark_standing,
      readBlobs_standing]
    rfl

theorem State.restart_agrees (s : State) (cause t : Nat) : (s.restart cause t).ModesAgree := (s.warmReset_agrees cause t).bootChain _

theorem State.ModesAgree.fatal {s : State} (hs : s.ModesAgree) : s.fatal.ModesAgree := by
  unfold State.fatal
  split
  exacts [hs, warmReset_agrees .., warmReset_agrees ..]

theorem State.ModesAgree.crash {s : State} (hs : s.ModesAgree) : s.crash.ModesAgree := by
  simp only [State.crash]
  split
  · exact hs
  · exact hs.fatal.bootChain _

theorem State.ModesAgree.processorFails {s : State} (hs : s.ModesAgree) (p : Nat) : (s.processorFails p).ModesAgree := by
  unfold State.processorFails
  dsimp only
  repeat' split
  exacts [hs, hs.crash, hs, hs]

theorem State.ModesAgree.failMigration {s : State} (hs : s.ModesAgree) : s.failMigration.ModesAgree := by
  unfold State.failMigration
  split
  exacts [restart_agrees .., hs]

theorem State.ModesAgree.writeModeReq {s : State} (hs : s.ModesAgree) (word : Nat) : (s.writeModeReq word).ModesAgree := by
  unfold State.writeModeReq
  repeat' split
  · exact hs.congr rfl
  · exact hs.congr rfl
  · exact restart_agrees ..
  · exact hs.congr rfl
  · refine State.ModesAgree.enterSafe ?_ 1
    exact hs.congr rfl
  · exact hs.congr rfl
  · exact hs.congr rfl

end Sys2Proof.Machine

/-! ### Modes and outputs agree after what the pair does -/

namespace Sys2Proof.Machine

/-- A standby that is no longer synchronised (R570). -/
theorem State.ModesAgree.desync {s : State} (hs : s.ModesAgree) :
    State.ModesAgree { s with ms := { s.ms with synced := false } } :=
  ⟨hs.1, hs.2.1, fun h => absurd h Bool.false_ne_true, hs.2.2.2⟩

/-- A standby that is no longer held (R565). -/
theorem State.ModesAgree.unhold {s : State} (hs : s.ModesAgree) :
    State.ModesAgree { s with ms := { s.ms with standbyHeld := false } } :=
  ⟨hs.1, fun h => absurd h Bool.false_ne_true, hs.2.2⟩

/-- ACTIVE_OUT as a mode of service has it (R39, R572). -/
theorem State.ModesAgree.drive {s : State} (hs : s.ModesAgree) (on : Bool)
    (h : on = true → s.ms.mode = .m3 ∨ s.ms.mode = .m4 ∨ s.ms.mode = .m6) :
    State.ModesAgree { s with pins := { s.pins with activeOut := on } } := by
  obtain ⟨hcause, hheld, hsynced, -, halive⟩ := hs
  exact ⟨hcause, hheld, hsynced, h, halive⟩

theorem State.ModesAgree.pairEntry {s : State} (hs : s.ModesAgree) (type reason b19 w20 value : Nat) :
    (s.pairEntry type reason b19 w20 value).ModesAgree := hs.of_kept (by simp) (by simp)

theorem State.ModesAgree.modPair {s : State} (hs : s.ModesAgree) (f : Pair → Pair) : (s.modPair f).ModesAgree := hs.of_kept rfl rfl

theorem State.ModesAgree.dropSync {s : State} (hs : s.ModesAgree) (reason restart : Nat) (now : Bool) :
    (s.dropSync reason restart now).ModesAgree := by
  unfold State.dropSync
  split
  · exact hs
  · dsimp only
    split
    · exact hs.desync.of_kept (by simp) (by simp)
    · exact hs.desync.of_kept rfl rfl

theorem State.ModesAgree.partnerLost {s : State} (hs : s.ModesAgree) (reason : Nat) : (s.partnerLost reason).ModesAgree := by
  unfold State.partnerLost
  split
  · exact ModesAgree.changeMode (hs.of_kept (by simp) (by simp)) 13 (by decide) fun _ => rfl
  · exact hs

theorem State.ModesAgree.abortSwap {s : State} (hs : s.ModesAgree) (kind : Nat) : (s.abortSwap kind).ModesAgree := by
  unfold State.abortSwap
  split
  · exact hs
  · refine ModesAgree.pairEntry ?_ ..
    generalize hu : State.count _ _ = u
    have hagree : u.ModesAgree := hu ▸ hs.of_kept (by simp) (by simp)
    split
    case isTrue hmode =>
      dsimp only
      generalize u.pair.wasActive = back
      have hdrive := hagree.drive back fun _ => .inr (.inr hmode)
      cases back
      · exact ModesAgree.changeMode (hdrive.of_kept (by simp) (by simp)) 17 (by decide) fun _ => rfl
      · exact ModesAgree.changeMode (hdrive.of_kept (by simp) (by simp)) 17 (by decide) fun _ => rfl
    case isFalse => exact hagree

theorem State.ModesAgree.abortBefore {s : State} (hs : s.ModesAgree) : s.abortBefore.ModesAgree := by
  unfold State.abortBefore
  split
  exacts [hs, hs.abortSwap 1]

theorem State.ModesAgree.settleFinal {s : State} (hs : s.ModesAgree) (x : Final) : (s.settleFinal x).ModesAgree := by
  unfold State.settleFinal
  dsimp only
  split
  · exact hs.modPair _
  split
  · split
    · exact hs.of_kept (by simp) (by simp)
    · exact hs.modPair _
  · generalize hu : State.diverged _ _ _ _ = u
    have hagree : u.ModesAgree := by
      subst hu
      split
      · exact hs.of_kept (by simp) (by simp)
      · exact hs.of_kept (by simp) (by simp)
    split
    · exact hagree.of_kept (by simp) (by simp)
    split
    · exact ModesAgree.dropSync (hagree.of_kept (by simp) (by simp)) ..
    · exact hagree

theorem State.ModesAgree.settleDone {s : State} (hs : s.ModesAgree) (x : Final) : (s.settleDone x).ModesAgree := by
  unfold State.settleDone
  split
  exacts [hs.settleFinal x, hs]

theorem State.ModesAgree.settleFinals {s : State} (hs : s.ModesAgree) : s.settleFinals.ModesAgree :=
  ModesAgree.foldl (fun _ x h => h.settleDone x) _ hs

theorem State.ModesAgree.takeOver {s : State} (hs : s.ModesAgree) : s.takeOver.ModesAgree := by
  unfold State.takeOver
  split
  · exact hs
  · refine ModesAgree.pairEntry (ModesAgree.settleFinals (ModesAgree.toSolo ?_ 14)) ..
    refine ModesAgree.of_kept (ModesAgree.desync (s := s.draw.2.ownAll.useShadow) (hs.of_kept (by simp) (by simp))) ?_ ?_
    · simp
    · simp

theorem State.ModesAgree.coldTake {s : State} (hs : s.ModesAgree) : s.coldTake.ModesAgree := by
  unfold State.coldTake
  split
  · exact hs
  · exact ModesAgree.toSolo (hs.modPair _) 14

theorem State.ModesAgree.lostInSwap {s : State} (hs : s.ModesAgree) (reason : Nat) : (s.lostInSwap reason).ModesAgree := by
  unfold State.lostInSwap
  split
  · exact hs
  split
  · exact (hs.abortSwap 1).partnerLost reason
  split
  · dsimp only
    generalize hu : State.changeMode _ _ _ = u
    have hagree : u.ModesAgree := hu ▸ ModesAgree.changeMode (hs.modPair _) 16 (by decide) fun _ => rfl
    refine ModesAgree.pairEntry (ModesAgree.settleFinals (ModesAgree.partnerLost ?_ reason)) ..
    exact hagree.of_kept (by simp) (by simp)
  · exact hs

theorem State.ModesAgree.pairDown {s : State} (hs : s.ModesAgree) : s.pairDown.ModesAgree := by
  unfold State.pairDown
  split
  · exact hs
  · dsimp only
    generalize hu : State.modPair s _ = u
    have hagree : State.ModesAgree { u with ms := { u.ms with standbyHeld := false } } := (hu ▸ hs.modPair _ : u.ModesAgree).unhold
    split
    · exact (hagree.abortSwap 1).partnerLost 2
    · exact hagree.lostInSwap 2
    · exact (hagree.abortSwap 1).dropSync ..
    · exact hagree.modPair _

theorem State.ModesAgree.selfCheck {s : State} (hs : s.ModesAgree) (e p : Nat) (tell : Bool) : (s.selfCheck e p tell).ModesAgree := by
  unfold State.selfCheck
  refine ModesAgree.abortBefore ?_
  split
  · exact hs.of_kept (by simp) (by simp)
  · exact hs.modPair _

theorem State.ModesAgree.mismatch {s : State} (hs : s.ModesAgree) (e p : Nat) : (s.mismatch e p).ModesAgree := by
  unfold State.mismatch
  dsimp only
  generalize hu : State.pace _ _ _ _ _ _ _ _ = u
  have hagree : u.ModesAgree := hu ▸ hs.of_kept (by simp) (by simp)
  split
  · split
    · exact hagree.dropSync ..
    · exact hagree.modPair _
  · exact hagree.selfCheck ..

theorem State.ModesAgree.compareDigests {s : State} (hs : s.ModesAgree) (e : Nat) (theirs : List (Nat × Nat)) :
    (s.compareDigests e theirs).ModesAgree := by
  unfold State.compareDigests
  dsimp only
  generalize hu : State.modPair s _ = u
  have hagree : u.ModesAgree := hu ▸ hs.modPair _
  refine ModesAgree.modPair ?_ _
  split
  · exact ModesAgree.foldl (fun _ p h => h.mismatch e p) _ hagree
  · exact hagree

theorem State.ModesAgree.digestsDue {s : State} (hs : s.ModesAgree) (n : Nat) : (s.digestsDue n).ModesAgree := by
  induction n generalizing s with
  | zero => exact hs
  | succ n ih =>
    simp only [State.digestsDue]
    split
    · exact hs
    · refine ih ?_
      split
      · exact hs.of_kept (by simp) (by simp)
      split
      · exact ModesAgree.compareDigests (hs.of_kept (by simp) (by simp)) ..
      · exact hs.of_kept (by simp) (by simp)

theorem State.ModesAgree.switchRings {s : State} (hs : s.ModesAgree) : s.switchRings.ModesAgree := hs.congr (switchRings_standing s)

theorem State.ModesAgree.outcome {s : State} (hs : s.ModesAgree) (result : Nat) (slice : Nat × Nat) (ports : List Nat) :
    (s.outcome result slice ports).ModesAgree := by
  unfold State.outcome
  dsimp only
  generalize hu : State.pairEntry _ _ _ _ _ _ = u
  have hagree : u.ModesAgree := hu ▸ hs.of_kept (by simp) (by simp)
  split
  · exact hagree.of_kept (by simp) (by simp)
  · split
    exacts [hagree.enterSafe 6, hagree.partnerLost 3]
  · split
    exacts [hagree, hagree.enterSafe 6]
  split
  · exact hagree.enterSafe 6
  refine ModesAgree.partnerLost ?_ 3
  split
  · exact ModesAgree.switchRings (hagree.of_kept (by simp) (by simp))
  · exact hagree

theorem State.ModesAgree.settleCheck {s : State} (hs : s.ModesAgree) : s.settleCheck.ModesAgree := by
  unfold State.settleCheck
  split
  · exact hs
  split
  · exact hs.outcome ..
  · exact hs

theorem State.ModesAgree.receive {s : State} (hs : s.ModesAgree) (release : Nat) (r : Release) : (s.receive release r).ModesAgree := by
  unfold State.receive
  dsimp only
  have htake := hs.modPair fun p => { p with releases := insertRelease p.releases release r }
  split
  · split
    · exact hs
    split
    · exact hs.dropSync ..
    · exact htake
  split
  · split
    exacts [htake, htake, hs]
  · exact hs

theorem State.ModesAgree.peerState {s : State} (hs : s.ModesAgree) (mode : Nat) (synced : Bool) : (s.peerState mode synced).ModesAgree := by
  unfold State.peerState
  split
  · exact hs
  split
  · split
    · split
      · exact ModesAgree.changeMode (hs.modPair _) 12 (by decide) fun _ => rfl
      · exact hs.modPair _
    · exact hs.modPair _
  · split
    · exact hs.modPair _
    · exact (hs.abortSwap 1).partnerLost 3
  · split
    · exact hs.of_kept (by simp) (by simp)
    · exact hs.dropSync ..
  · dsimp only
    generalize hu : (if (s.pair.wasActive && !synced) = true then s.abortBefore else s) = u
    have hagree : u.ModesAgree := by
      subst hu
      split
      exacts [hs.abortBefore, hs]
    split
    exacts [hagree, hagree.lostInSwap 3]
  · exact hs

/-- SYNCED is set in M5 alone (R569). -/
theorem State.ModesAgree.setSynced {s : State} (hs : s.ModesAgree) (h : s.ms.mode = .m5) : s.setSynced.ModesAgree := by
  have hset : State.ModesAgree { s with ms := { s.ms with synced := true } } := ⟨hs.1, hs.2.1, fun _ => .inl h, hs.2.2.2⟩
  exact hset.of_kept (by simp [State.setSynced]) (by simp [State.setSynced])

end Sys2Proof.Machine

/-! ### Modes and outputs agree after every command of the catalogue -/

namespace Sys2Proof.Machine

/-- The effect of a command of the catalogue keeps modes and outputs in agreement. -/
def AciSpec.Agrees (c : AciSpec) : Prop := ∀ (r : Req) (s : State), s.ModesAgree → (c.effect r s).1.ModesAgree

theorem AciSpec.agrees_of_kept {c : AciSpec} (hms : ∀ r s, (c.effect r s).1.ms = s.ms) (hpins : ∀ r s, (c.effect r s).1.pins = s.pins) :
    c.Agrees := fun r s hs => hs.of_kept (hms r s) (hpins r s)

theorem AciSpec.agrees_of_apart {c : AciSpec} (hms : ∀ r s, (c.effect r s).1.ms = s.ms)
    (hpins : ∀ r s, (c.effect r s).1.pins.apart = s.pins.apart) : c.Agrees :=
  fun r s hs => hs.congr (State.standing_of_apart (hms r s) (hpins r s))

@[simp] theorem portOpticsMapSpec_agrees : portOpticsMapSpec.Agrees := by
  refine AciSpec.agrees_of_apart (fun r s => by simp) fun r s => ?_
  dsimp only [portOpticsMapSpec]
  split
  · exact (State.foldl_pins_apart State.wakeBus_pins_apart ..).trans (congrArg Pins.apart (by simp))
  · exact congrArg Pins.apart (by simp)

@[simp] theorem portRingPairSpec_agrees : portRingPairSpec.Agrees :=
  AciSpec.agrees_of_apart (fun r s => by simp) fun r s => by simp [portRingPairSpec]

@[simp] theorem timePpsConfigSpec_agrees : timePpsConfigSpec.Agrees := by
  intro r s hs
  refine hs.congr ?_
  dsimp only [timePpsConfigSpec]
  split <;> simp [State.standing]

@[simp] theorem bistRunSpec_agrees : bistRunSpec.Agrees :=
  AciSpec.agrees_of_apart (fun r s => by simp) fun r s => by simp [bistRunSpec]

@[simp] theorem pairEquinoxSpec_agrees : pairEquinoxSpec.Agrees := by
  intro r s hs
  dsimp only [pairEquinoxSpec]
  split
  exacts [(hs.modPair _).abortBefore, hs.modPair _]

@[simp] theorem pairResyncSpec_agrees : pairResyncSpec.Agrees := by
  intro r s hs
  dsimp only [pairResyncSpec]
  split
  exacts [hs.dropSync 4 3 true, hs.modPair _]

@[simp] theorem sysWarmResetSpec_agrees : sysWarmResetSpec.Agrees :=
  fun _ _ _ => (State.restart_agrees _ 3 5).of_kept rfl rfl

@[simp] theorem sysShutdownSpec_agrees : sysShutdownSpec.Agrees := fun _ _ _ => (State.fresh_agrees _ .m0).congr rfl

theorem agrees_of_carried {c : AciSpec} (h : c ∈ carriedSpecs) : c.Agrees := by
  revert c
  simp [carriedSpecs, AciSpec.agrees_of_kept]

theorem agrees_of_own {c : AciSpec} (h : c ∈ ownSpecs) : c.Agrees := by
  revert c
  simp [ownSpecs, AciSpec.agrees_of_kept]

theorem carriedSpec_agrees {op : Nat} {c : AciSpec} (h : carriedSpec op = some c) : c.Agrees :=
  agrees_of_carried (List.mem_of_find?_eq_some h)

theorem specOf_agrees {op : Nat} {ack : Bool} {data : Bytes} {c : AciSpec} (h : specOf op ack data = some c) : c.Agrees := by
  have hmem := List.mem_of_find?_eq_some h
  simp only [List.mem_append, List.mem_cons, List.not_mem_nil, or_false] at hmem
  rcases hmem with (hcarried | hown) | rfl | rfl
  · exact agrees_of_carried hcarried
  · exact agrees_of_own hown
  · exact AciSpec.agrees_of_kept (fun r s => Claims.portOpticsIoSpec_only ack data r s .ms (by decide))
      fun r s => Claims.portOpticsIoSpec_only ack data r s .pins (by decide)
  · exact AciSpec.agrees_of_kept (fun r s => Claims.portMdioIoSpec_only _ r s .ms (by decide)) fun r s => Claims.portMdioIoSpec_only _ r s .pins (by decide)

theorem AciSpec.Agrees.run {c : AciSpec} (hc : c.Agrees) (r : Req) {s : State} (hs : s.ModesAgree) : (c.run r s).ModesAgree := by
  have hp := hc r s hs
  unfold AciSpec.run
  dsimp only
  generalize c.effect r s = p at hp ⊢
  split
  · exact hp
  split
  · exact hp.of_kept (by simp) (by simp)
  · exact hp.of_kept (by simp) (by simp)

theorem AciSpec.Agrees.start {c : AciSpec} (hc : c.Agrees) (r : Req) (carry : Bool) {s : State} (hs : s.ModesAgree) :
    (c.start r carry s).ModesAgree := by
  unfold AciSpec.start
  split
  · exact hs.of_kept (by simp) (by simp)
  split
  · exact hs.of_kept (by simp) (by simp)
  · exact hc.run r hs

theorem AciSpec.Agrees.exec {c : AciSpec} (hc : c.Agrees) (a : Aci) {s : State} (hs : s.ModesAgree) : (c.exec a s).ModesAgree := by
  unfold AciSpec.exec
  dsimp only
  split
  · exact hs
  generalize hu : s.takeDesc a.fn.val = u
  have hagree : u.ModesAgree := hu ▸ hs.of_kept (by simp) (by simp)
  split
  · exact hagree.of_kept (by simp) (by simp)
  split
  · exact hagree.of_kept (by simp) (by simp)
  split
  · exact hagree.of_kept (by simp) (by simp)
  split
  · exact hagree.of_kept (by simp) (by simp)
  · exact hc.start _ _ (hagree.of_kept (by simp) (by simp))

/-! What is carried, as it is checked, applied and released. -/

theorem State.ModesAgree.checkCarried {s : State} (hs : s.ModesAgree) (c : Carried) : (s.checkCarried c).ModesAgree := by
  unfold State.checkCarried
  split
  · exact hs
  · dsimp only
    split
    · exact hs.of_kept (by simp) (by simp)
    · exact hs.of_kept (by simp) (by simp)

theorem State.ModesAgree.applyCarried {s : State} (hs : s.ModesAgree) (c : Carried) : (s.applyCarried c).ModesAgree := by
  unfold State.applyCarried
  dsimp only
  generalize hu : State.modPair s _ = u
  have hagree : u.ModesAgree := hu ▸ hs.modPair _
  split
  next spec st hspec _ =>
    split
    · exact hagree.of_kept (by simp) (by simp)
    split
    · exact (carriedSpec_agrees hspec).run _ hagree
    · exact hagree.of_kept (by simp) (by simp)
  next => exact hagree

theorem State.ModesAgree.releaseDue {s : State} (hs : s.ModesAgree) : s.releaseDue.ModesAgree := by
  unfold State.releaseDue
  dsimp only
  refine ModesAgree.settleFinals (ModesAgree.foldl (fun _ x h => h.of_kept (by simp) (by simp)) _ (ModesAgree.modPair ?_ _))
  exact ModesAgree.foldl (fun _ c h => h.applyCarried c) _ (ModesAgree.foldl (fun _ c h => h.checkCarried c) _ hs)

/-! The passing of time. -/

theorem State.ModesAgree.startOne {s : State} (hs : s.ModesAgree) (f : Nat) (w : Waiting) : (s.startOne f w).ModesAgree := by
  unfold State.startOne
  dsimp only
  generalize hu : State.modMbox s f _ = u
  have hagree : u.ModesAgree := hu ▸ hs.of_kept (by simp) (by simp)
  split
  · exact hagree
  next c hspec =>
    split
    · exact hagree.of_kept (by simp) (by simp)
    · exact (specOf_agrees hspec).start _ _ (hagree.of_kept (by simp) (by simp))

theorem State.ModesAgree.startFn {s : State} (hs : s.ModesAgree) (f : Nat) : (s.startFn f).ModesAgree := by
  unfold State.startFn
  split
  · refine ModesAgree.foldl (fun t w h => ?_) _ hs
    split
    exacts [h.startOne f w, h]
  · exact hs

theorem State.idle_outputs (s : State) : s.idle.pins.activeOut = s.pins.activeOut ∧ s.idle.pins.aliveOut = s.pins.aliveOut := by
  unfold State.idle
  dsimp only
  split
  · simp only [modRtc_frame, and_self]
  · simp only [releaseDls_frame, announcesEnd_frame, modRtc_frame, and_self]

theorem State.ModesAgree.idle {s : State} (hs : s.ModesAgree) : s.idle.ModesAgree :=
  hs.congr (by simp only [State.standing, State.idle_frame, State.idle_outputs])

theorem State.ModesAgree.tick {s : State} (hs : s.ModesAgree) : s.tick.ModesAgree := by
  refine ModesAgree.idle ?_
  generalize hu : List.foldl _ s _ = u
  have hagree : u.ModesAgree := hu ▸ ModesAgree.foldl (fun _ (e : Nat × Mbox) h => h.startFn e.1) _ hs
  exact hagree.of_kept (by simp) (by simp)

end Sys2Proof.Machine

/-! ### Modes and outputs agree after every command -/

namespace Sys2Proof.Machine

theorem State.ModesAgree.setRings {s : State} (hs : s.ModesAgree) : s.setRings.ModesAgree := hs.congr rfl

theorem State.ModesAgree.complete {s : State} (hs : s.ModesAgree) (f tag opcode status sub : Nat) (result : Bytes) :
    (s.complete f tag opcode status sub result).ModesAgree := hs.of_kept (by simp) (by simp)

theorem State.ModesAgree.setDriving {s : State} (hs : s.ModesAgree) : s.setDriving.ModesAgree := hs.congr (setDriving_standing s)

theorem State.ModesAgree.setAlive {s : State} (hs : s.ModesAgree) : s.setAlive.ModesAgree := by
  obtain ⟨hcause, hheld, hsynced, hactive, -⟩ := hs
  exact ⟨hcause, hheld, hsynced, hactive, fun h => by simp_all [State.setAlive]⟩

@[simp] theorem State.tellEntries_standing (s : State) : s.tellEntries.standing = s.standing := by
  simp [State.tellEntries, State.standing]

@[simp] theorem State.tellDie_standing (s : State) : s.tellDie.standing = s.standing := by
  simp [State.tellDie, State.standing]

@[simp] theorem State.bootSettings_standing (s : State) : s.bootSettings.standing = s.standing :=
  standing_of_apart (by simp) (by simp)

@[simp] theorem State.tellSlices_standing (s : State) : s.tellSlices.standing = s.standing := by
  unfold State.tellSlices
  dsimp only
  generalize hu : List.foldl State.tellUnusable _ _ = u
  have hu' : u.standing = s.standing := hu ▸ standing_of_apart (by simp) (by simp)
  generalize hv : State.tellDie _ = v
  have hv' : v.standing = s.standing := by
    rw [← hv, tellDie_standing, ← hu']
    split
    · exact standing_of_apart (by simp) (by simp)
    · rfl
  exact (standing_of_apart (s := v) (by simp) (by simp)).trans hv'

theorem State.ModesAgree.tileLost {s : State} (hs : s.ModesAgree) (tile : Nat) : (s.tileLost tile).ModesAgree := by
  unfold State.tileLost
  dsimp only
  refine ModesAgree.setRings (hs.of_kept ?_ ?_)
  · simp
  · simp

theorem State.ModesAgree.lose10m {s : State} (hs : s.ModesAgree) : s.lose10m.ModesAgree := by
  refine hs.congr ?_
  simp [State.lose10m, State.standing]

theorem State.ModesAgree.sees10m {s : State} (hs : s.ModesAgree) (tb : Nat) (x : OffsetSample) : (s.sees10m tb x).ModesAgree := by
  unfold State.sees10m
  split
  · dsimp only
    generalize hu : State.modBase s tb _ = u
    have hagree : u.ModesAgree := hu ▸ hs.of_kept (by simp) (by simp)
    split
    · exact hagree.congr rfl
    · exact hagree.lose10m
  · exact hs

theorem State.ModesAgree.writePf0 {s : State} (hs : s.ModesAgree) (off v : Nat) : (s.writePf0 off v).ModesAgree := by
  unfold State.writePf0
  split
  · unfold State.writeMode
    split
    · exact hs.writeModeReq v
    · exact hs.congr rfl
    · exact hs
  · refine hs.of_kept ?_ ?_
    · simp [apply_ite State.ms]
    · simp [apply_ite State.pins]

theorem State.ModesAgree.writeReg {s : State} (hs : s.ModesAgree) (f bar off v : Nat) : (s.writeReg f bar off v).ModesAgree := by
  unfold State.writeReg
  split
  · split
    · exact hs.writePf0 off v
    · refine hs.of_kept ?_ ?_
      · simp [apply_ite State.ms]
      · simp [apply_ite State.pins]
  · refine hs.of_kept ?_ ?_
    · simp [apply_ite State.ms]
    · simp [apply_ite State.pins]

theorem State.ModesAgree.applySlices {s : State} (hs : s.ModesAgree) (l : List (Nat × Nat)) : (s.applySlices l).ModesAgree :=
  hs.of_kept (by simp) (by simp)

end Sys2Proof.Machine

namespace Sys2Proof.Claims
open Machine

/-- A command keeps modes and outputs in agreement. -/
def KeepsModes (c : Instr) : Prop := ∀ s t, s.ModesAgree → exec c s = .next t → t.ModesAgree

theorem keepsModes_of_frame {c : Instr} (h : ((parts c).contains .ms || (parts c).contains .pins) = false) : KeepsModes c := by
  intro s t hs ht
  obtain ⟨hms, hpins⟩ : .ms ∉ parts c ∧ .pins ∉ parts c := by simpa using h
  have honly := exec_frame c s t ht
  exact hs.of_kept (honly .ms hms) (honly .pins hpins)

theorem keepsModes_of_next {c : Instr} {f : State → State} (h : ∀ s, exec c s = .next (f s))
    (hf : ∀ s, s.ModesAgree → (f s).ModesAgree) : KeepsModes c :=
  fun s _ hs ht => Host.Outcome.next.inj ((h s).symm.trans ht) ▸ hf s hs

/-! Resets and the start. -/

theorem modeReq_keepsModes (w : BitVec 32) : KeepsModes (.modeReqSafe w) ∧ KeepsModes (.modeReqWarm w) := by
  have h (s : State) (hs : s.ModesAgree) : (if s.answers then s.writeModeReq w.toNat else s).ModesAgree := by
    split
    exacts [hs.writeModeReq _, hs]
  exact ⟨keepsModes_of_next (fun _ => rfl) h, keepsModes_of_next (fun _ => rfl) h⟩

theorem registerWrite_keepsModes (f : Fin 17) (bar : Fin 4) (offset : BitVec 32) (width : Fin 9) (value : BitVec 32) :
    KeepsModes (.registerWrite f bar offset width value) := by
  refine keepsModes_of_next (fun _ => rfl) fun s hs => ?_
  split
  exacts [hs.writeReg .., hs]

theorem resetNLow_keepsModes : KeepsModes .resetNLow :=
  keepsModes_of_next (fun _ => rfl) fun s _ => ((s.addCause 1).fresh_agrees .m0).congr rfl

theorem powerFailWarning_keepsModes : KeepsModes .powerFailWarning := by
  refine keepsModes_of_next (fun _ => rfl) fun s hs => ?_
  split
  · exact hs
  · obtain ⟨hcause, hheld, hsynced, -, halive⟩ := hs
    exact ⟨hcause, hheld, hsynced, fun h => absurd h Bool.false_ne_true, halive⟩

theorem powerFailDrainDone_keepsModes : KeepsModes .powerFailDrainDone := by
  refine keepsModes_of_next (fun _ => rfl) fun s hs => ?_
  split
  · exact (s.fresh_agrees .m0).congr rfl
  · exact hs

theorem railOutOfRange_keepsModes (rails : BitVec 10) : KeepsModes (.railOutOfRange rails) := by
  refine keepsModes_of_next (fun _ => rfl) fun s hs => ?_
  split
  · exact hs
  · exact (State.fresh_agrees _ .m0).congr rfl

theorem bootStart_keepsModes (b : BootInput) : KeepsModes (.bootStart b) := by
  refine keepsModes_of_next (fun _ => rfl) fun s hs => ?_
  split
  · split
    · exact (State.powerUp_agrees _).bootChain b
    · exact hs
  · split
    · exact hs.bootChain b
    · exact hs
  · exact hs

theorem bootSelfTestDone_keepsModes (l : List (Nat × Nat)) : KeepsModes (.bootSelfTestDone l) := by
  refine keepsModes_of_next (fun _ => rfl) fun s hs => ?_
  split
  · exact hs
  · dsimp only
    have hagree := hs.applySlices (s.failedSlices l)
    generalize State.applySlices s _ = u at hagree ⊢
    split
    · exact hagree.crash
    · exact State.ModesAgree.setRings (hagree.congr rfl)

theorem processorsLoaded_keepsModes : KeepsModes .processorsLoaded := by
  refine keepsModes_of_next (fun _ => rfl) fun s hs => ?_
  split
  · exact hs
  · dsimp only
    have hloaded : State.ModesAgree { s with procs := { s.procs with loaded := true }, ms := { s.ms with bootStep := 3 } } := hs.congr rfl
    generalize hu : State.setRings _ = u
    have hu' : u.ModesAgree := by
      subst hu
      refine State.ModesAgree.setRings (State.ModesAgree.of_kept (hloaded.setAlive.congr (State.bootSettings_standing _)) ?_ ?_)
      · simp
      · simp
    generalize hv : List.foldl (fun s x => State.updateEntry s _ _ _ _) _ _ = v
    have hv' : v.ModesAgree := by
      subst hv
      refine State.ModesAgree.of_kept (hu'.congr u.tellEntries_standing) ?_ ?_
      · simp
      · simp
    refine State.ModesAgree.setDriving (State.ModesAgree.of_kept (hv'.congr v.tellSlices_standing) ?_ ?_)
    · split <;> simp
    · split <;> simp

theorem bootComplete_keepsModes : KeepsModes .bootComplete := by
  refine keepsModes_of_next (fun _ => rfl) fun s hs => ?_
  split
  · exact hs
  split
  · exact hs.changeMode 10 (by decide) (absurd rfl)
  split
  · exact hs.changeMode 7 (by decide) fun _ => rfl
  · exact hs.leaveBoot

theorem pairingWaitExpiry_keepsModes : KeepsModes .pairingWaitExpiry := by
  refine keepsModes_of_next (fun _ => rfl) fun s hs => ?_
  split
  exacts [hs.toSolo 8, hs]

theorem migrationDone_keepsModes : KeepsModes .migrationDone := by
  refine keepsModes_of_next (fun _ => rfl) fun s hs => ?_
  split
  · exact hs
  split
  · exact hs
  · exact State.ModesAgree.leaveBoot (State.ModesAgree.setRings (hs.congr rfl))

theorem migrationFails_keepsModes : KeepsModes .migrationStepError ∧ KeepsModes .migrationTimeout :=
  ⟨keepsModes_of_next (fun _ => rfl) fun _ hs => hs.failMigration, keepsModes_of_next (fun _ => rfl) fun _ hs => hs.failMigration⟩

theorem lkgReached_keepsModes : KeepsModes .lkgReached := by
  refine keepsModes_of_next (fun _ => rfl) fun s hs => ?_
  split
  case h_5 => exact hs
  all_goals
    refine hs.congr (Eq.trans (b := State.standing ((s.modBoot _ _).modBoot _ _)) rfl ?_)
    simp only [State.modBoot_standing]

/-! Faults. -/

theorem processorFault_keepsModes (p : Fin 9) : KeepsModes (.processorFault p) :=
  keepsModes_of_next (fun _ => rfl) fun _ hs => hs.processorFails p.val

theorem bscFault_keepsModes : KeepsModes .bscFault := keepsModes_of_next (fun _ => rfl) fun _ hs => hs.crash

theorem worldViolation_keepsModes (region : Fin 256) (master : Nat) (write : Bool) (addr : BitVec 64) :
    KeepsModes (.worldViolation region master write addr) := by
  refine keepsModes_of_next (fun _ => rfl) fun s hs => ?_
  split
  · exact hs
  · dsimp only
    generalize hu : State.securityEntry _ _ _ _ _ _ _ = u
    have hagree : u.ModesAgree := hu ▸ hs.of_kept (by simp) (by simp)
    split
    exacts [hagree.processorFails _, hagree]

theorem dieTold_agrees {s : State} (hs : s.ModesAgree) (reservoir : Bool) (cause : Nat) : (dieTold s reservoir cause).ModesAgree := by
  unfold dieTold
  split
  · exact hs
  · exact hs.of_kept (by simp) (by simp)

theorem dieKept_agrees {s : State} (hs : s.ModesAgree) (reservoir : Bool) (cause : Nat) : (dieKept s reservoir cause).ModesAgree := by
  unfold dieKept
  dsimp only
  split
  · exact (dieTold_agrees hs reservoir cause).congr rfl
  · exact hs.congr rfl

theorem coreDieFault_keepsModes (reservoir : Bool) (cause : Fin 7) : KeepsModes (.coreDieFault reservoir cause) := by
  intro s t hs ht
  by_cases h0 : s.ms.mode = .m0
  · exact Host.Outcome.next.inj ((coreDieFault_discarded cause (.inl h0)).symm.trans ht) ▸ hs
  by_cases h1 : s.ms.mode = .m1
  · have hkept := dieKept_agrees hs reservoir cause.val
    refine Host.Outcome.next.inj ((coreDieFault_m1 reservoir cause h1).symm.trans ht) ▸ ?_
    split
    exacts [hkept.changeMode 10 (by decide) (absurd rfl), hkept]
  have htold := dieTold_agrees hs reservoir cause.val
  by_cases h7 : s.ms.mode = .m7
  · exact Host.Outcome.next.inj ((coreDieFault_m7 reservoir cause h7).symm.trans ht) ▸ htold
  · exact Host.Outcome.next.inj ((coreDieFault_running reservoir cause h0 h1 h7).symm.trans ht) ▸ htold.enterSafe _

theorem processorReloadDone_keepsModes (p : Fin 9) : KeepsModes (.processorReloadDone p) := by
  refine keepsModes_of_next (fun _ => rfl) fun s hs => ?_
  dsimp only
  split
  · exact hs
  split
  · exact State.ModesAgree.settleFinals (hs.of_kept (by simp) (by simp))
  split
  · exact hs.of_kept (by simp) (by simp)
  · exact hs.of_kept rfl rfl

theorem dataLevelFault_keepsModes (level : Fin 4) (number : Nat) (cause : Fin 7) : KeepsModes (.dataLevelFault level number cause) := by
  refine keepsModes_of_next (fun _ => rfl) fun s hs => ?_
  split
  · exact hs
  · exact State.ModesAgree.switchRings (hs.of_kept (by simp) (by simp))

theorem blockResetDone_keepsModes (level : Fin 4) (number : Nat) (ok : Bool) : KeepsModes (.blockResetDone level number ok) := by
  refine keepsModes_of_next (fun _ => rfl) fun s hs => ?_
  split
  · exact hs
  split
  · exact State.ModesAgree.switchRings (hs.of_kept (by simp) (by simp))
  · exact State.ModesAgree.switchRings (hs.of_kept (by simp) (by simp))

/-! Pins of buses, clocks and sensors. -/

theorem i2cStretchTimeout_keepsModes (bus : Fin 16) (sda : List Bool) : KeepsModes (.i2cStretchTimeout bus sda) := by
  refine keepsModes_of_next (fun _ => rfl) fun s hs => ?_
  split
  exacts [hs.congr (s.recoverBus_standing ..), hs]

theorem refclkLost_keepsModes (tile : Fin 9) : KeepsModes (.refclkLost tile) := by
  refine keepsModes_of_next (fun _ => rfl) fun s hs => ?_
  split
  · exact hs.congr rfl
  split
  · dsimp only
    split
    · exact hs.congr rfl
    · refine State.ModesAgree.tileLost ?_ tile.val
      exact hs.congr rfl
  · exact hs

theorem offsetSample_keepsModes (tb : Fin 8) (x : OffsetSample) : KeepsModes (.offsetSample tb x) := by
  refine keepsModes_of_next (fun _ => rfl) fun s hs => ?_
  split
  · split
    · exact (hs.sees10m tb.val x).of_kept (by simp) (by simp)
    · exact hs.sees10m tb.val x
  · exact hs

theorem freq10mLost_keepsModes : KeepsModes .freq10mLost := keepsModes_of_next (fun _ => rfl) fun _ hs => hs.lose10m

theorem ppsOutEdge_keepsModes : KeepsModes .ppsOutEdge := by
  refine keepsModes_of_next (fun _ => rfl) fun s hs => ?_
  split
  exacts [hs.congr rfl, hs]

theorem sensorRead_keepsModes (v : SensorReading) : KeepsModes (.sensorRead v) := by
  refine keepsModes_of_next (fun _ => rfl) fun s hs => ?_
  split
  · exact hs
  · exact hs.congr (by simp [State.standing])

theorem bistRunDone_keepsModes (pass : Bool) : KeepsModes (.bistRunDone pass) := by
  refine keepsModes_of_next (fun _ => rfl) fun s hs => ?_
  split
  · exact hs
  next x l _ =>
    dsimp only
    generalize hu : State.switchRings _ = u
    have hagree : u.ModesAgree := hu ▸ State.ModesAgree.switchRings (hs.of_kept (by simp) (by simp))
    have hfails (n : Nat) :
        (if n = 0 then u else (u.bistEntry 0x0C03 x.kind x.slice 0 n).count (.device .bistFails)).ModesAgree := by
      split
      · exact hagree
      · exact hagree.of_kept (by simp) (by simp)
    exact State.ModesAgree.complete (hfails _) ..

/-! The pair. -/

theorem activeInRise_keepsModes : KeepsModes .activeInRise := by
  refine keepsModes_of_next (fun _ => rfl) fun s hs => ?_
  dsimp only
  generalize hu : State.setDriving _ = u
  have hagree : u.ModesAgree := by
    subst hu
    refine State.ModesAgree.setDriving ?_
    split
    · exact hs.congr rfl
    · exact hs.congr rfl
  split
  exacts [hagree.toStandby 9, hagree]

theorem activeInFall_keepsModes : KeepsModes .activeInFall := by
  refine keepsModes_of_next (fun _ => rfl) fun s hs => ?_
  dsimp only
  have hagree : State.ModesAgree { s with pins := { s.pins with activeIn := false } } := hs.congr rfl
  split
  · split
    exacts [hagree.takeOver, hagree]
  · split
    · split
      exacts [(hagree.abortSwap 1).takeOver, hagree.abortSwap 1]
    · exact hagree
  next hm3 => exact hagree.drive _ fun _ => .inl hm3
  · exact hagree.setDriving

theorem takeoverWaitExpiry_keepsModes : KeepsModes .takeoverWaitExpiry := by
  refine keepsModes_of_next (fun _ => rfl) fun s hs => ?_
  split
  exacts [hs.coldTake, hs]

theorem partnerAliveLost_keepsModes : KeepsModes .partnerAliveLost := by
  refine keepsModes_of_next (fun _ => rfl) fun s hs => ?_
  dsimp only
  have hagree : State.ModesAgree { s with pins := { s.pins with aliveIn := false } } := hs.congr rfl
  split
  exacts [(hagree.abortSwap 1).partnerLost 1, hagree.lostInSwap 1, hagree]

theorem activeConflict_keepsModes : KeepsModes .activeConflict := by
  refine keepsModes_of_next (fun _ => rfl) fun s hs => ?_
  split
  · exact hs
  · refine State.ModesAgree.modPair (State.ModesAgree.drive ?_ false fun h => absurd h Bool.false_ne_true) _
    exact hs.of_kept (by simp) (by simp)

theorem backoffExpiry_keepsModes : KeepsModes .backoffExpiry := by
  refine keepsModes_of_next (fun _ => rfl) fun s hs => ?_
  split
  · exact hs
  dsimp only
  have hagree := hs.modPair fun p => { p with backoff := none, backoffRise := false }
  split
  next hmode =>
    split
    · exact hagree.enterSafe 6
    · exact hagree.drive true fun _ => hmode.imp id .inl
  next => exact hagree

theorem equinoxEnter_keepsModes : KeepsModes .equinoxEnter := by
  refine keepsModes_of_next (fun _ => rfl) fun s hs => ?_
  split
  · exact State.ModesAgree.changeMode (hs.modPair _) 15 (by decide) fun _ => rfl
  · exact hs

theorem equinoxSwap_keepsModes : KeepsModes .equinoxSwap := by
  refine keepsModes_of_next (fun _ => rfl) fun s hs => ?_
  split
  · exact hs
  next hnot =>
    have hmode : s.ms.mode = .m6 := of_not_not fun h => hnot (.inl h)
    exact (hs.drive (!s.pair.wasActive) fun _ => .inr (.inr hmode)).of_kept (by simp) (by simp)

theorem equinoxConfirmTimeout_keepsModes : KeepsModes .equinoxConfirmTimeout := by
  refine keepsModes_of_next (fun _ => rfl) fun s hs => ?_
  split
  · exact State.ModesAgree.abortSwap (hs.of_kept (by simp) (by simp)) 2
  · exact hs

theorem equinoxAbort_keepsModes : KeepsModes .equinoxAbort := keepsModes_of_next (fun _ => rfl) fun _ hs => hs.abortBefore

theorem equinoxComplete_keepsModes : KeepsModes .equinoxComplete := by
  refine keepsModes_of_next (fun _ => rfl) fun s hs => ?_
  split
  · exact hs
  next hnot =>
    have hstill : s.ms.inTransition = false := by simpa using fun h => hnot (.inr (.inr h))
    dsimp only
    refine State.ModesAgree.pairEntry ?_ ..
    generalize hu : State.count _ _ = u
    have hagree : u.ModesAgree := hu ▸ hs.of_kept (by simp) (by simp)
    have hu' : u.ms.inTransition = false := by rw [← hu]; simpa using hstill
    split
    · generalize hv : u.modPair _ = v
      have hmode : (v.changeMode .m5 16).ms.mode = .m5 := (v.changeMode_mode .m5 16 0 (hv ▸ hu')).1
      have hagree' : (v.changeMode .m5 16).ModesAgree :=
        State.ModesAgree.changeMode (hv ▸ hagree.modPair _) 16 (by decide) fun _ => rfl
      obtain ⟨hcause, hheld, -, hactive, halive⟩ := hagree'
      exact ⟨hcause, hheld, fun _ => .inl hmode, hactive, halive⟩
    · have h := State.ModesAgree.changeMode (hagree.modPair fun p => { p with phase := 0, peerPhase := 6, peerSynced := true }) 16
        (new := .m4) (cause := 0) (by decide) fun _ => rfl
      exact h.of_kept (by simp) (by simp)

theorem pairEquinoxMsg_keepsModes (m : EqxMsg) : KeepsModes (.pairEquinoxMsg m) := by
  refine keepsModes_of_next (fun _ => rfl) fun s hs => ?_
  split
  · exact hs
  split
  · split
    exacts [hs.of_kept (by simp) (by simp), hs]
  · split
    exacts [hs.abortSwap 2, hs.abortSwap 1]

theorem pairHello_keepsModes (payload : Bytes) : KeepsModes (.pairHello payload) := by
  refine keepsModes_of_next (fun _ => rfl) fun s hs => ?_
  split
  · exact hs
  dsimp only
  generalize hu : s.modPair _ = u
  have hagree : u.ModesAgree := hu ▸ hs.modPair _
  split
  · refine hagree.unhold.of_kept ?_ ?_
    · simp [apply_ite State.ms]
    · simp [apply_ite State.pins]
  · split
    next hmode =>
      split
      exacts [(hagree.hold hmode).pairEntry .., hagree.hold hmode]
    next =>
      split
      exacts [hagree.pairEntry .., hagree]

theorem pairHeartbeat_keepsModes (mode : Fin 8) (synced faults : Bool) (cseq : BitVec 32) :
    KeepsModes (.pairHeartbeat mode synced faults cseq) := by
  refine keepsModes_of_next (fun _ => rfl) fun s hs => ?_
  split
  · exact hs
  dsimp only
  refine State.ModesAgree.peerState ?_ ..
  split
  · refine State.ModesAgree.abortBefore ?_
    exact hs.congr rfl
  · exact hs.congr rfl

theorem pairLinkTimeout_keepsModes : KeepsModes .pairLinkTimeout := keepsModes_of_next (fun _ => rfl) fun _ hs => hs.pairDown

theorem pairLaneFail_keepsModes (lane : Fin 8) : KeepsModes (.pairLaneFail lane) := by
  refine keepsModes_of_next (fun _ => rfl) fun s hs => ?_
  split
  · exact hs
  dsimp only
  split
  · exact (hs.modPair _).pairDown
  split
  · exact (hs.modPair _).pairEntry ..
  · exact hs.modPair _

theorem pairDigest_keepsModes (epoch : Nat) (digests : List (Fin 256 × BitVec 64)) : KeepsModes (.pairDigest epoch digests) := by
  refine keepsModes_of_next (fun _ => rfl) fun s hs => ?_
  split
  · exact hs
  dsimp only
  split
  exacts [hs.compareDigests .., hs.modPair _]

theorem pairArbitrate_keepsModes (m : ArbMsg) : KeepsModes (.pairArbitrate m) := by
  refine keepsModes_of_next (fun _ => rfl) fun s hs => ?_
  split
  · exact hs
  split
  · exact hs.selfCheck ..
  split
  · exact (hs.modPair _).settleCheck
  split
  · exact State.ModesAgree.outcome (hs.of_kept (by simp) (by simp)) ..
  · exact hs

theorem selfCheckDone_keepsModes (fault : Bool) : KeepsModes (.selfCheckDone fault) := by
  refine keepsModes_of_next (fun _ => rfl) fun s hs => ?_
  split
  · split
    · exact hs
    · exact State.ModesAgree.settleCheck (hs.of_kept (by simp) (by simp))
  · exact hs

theorem selfCheckTimeout_keepsModes : KeepsModes .selfCheckTimeout := by
  refine keepsModes_of_next (fun _ => rfl) fun s hs => ?_
  split
  exacts [(hs.modPair _).settleCheck, hs]

theorem pairCommand_keepsModes (opcode : BitVec 16) (r : Aci) (release : Nat) : KeepsModes (.pairCommand opcode r release) := by
  refine keepsModes_of_next (fun _ => rfl) fun s hs => ?_
  split
  · exact hs
  split
  · exact hs.dropSync ..
  split
  · exact hs
  · exact hs.of_kept (by simp) (by simp)

theorem pairCheck_keepsModes (fn : Fin 17) (tag : BitVec 12) (final : Bool) (status : BitVec 16) (sub : Byte) :
    KeepsModes (.pairCheck fn tag final status sub) := by
  refine keepsModes_of_next (fun _ => rfl) fun s hs => ?_
  dsimp only
  split
  · exact hs
  split
  · exact hs.of_kept (by simp) (by simp)
  · exact (hs.modPair _).settleFinals

/-- What a message of the pair brings waits for its release (R548 to R555). -/
theorem received_keepsModes {c : Instr} (release : Nat) (r : Release)
    (h : ∀ s, exec c s = .next (if s.pair.linkUp then s.receive release r else s)) : KeepsModes c := by
  refine keepsModes_of_next h fun s hs => ?_
  split
  exacts [hs.receive .., hs]

theorem pairKey_keepsModes (payload : Bytes) : KeepsModes (.pairKey payload) := by
  refine keepsModes_of_next (fun _ => rfl) fun s hs => ?_
  split
  · exact hs
  split
  · exact hs.modPair _
  split
  exacts [hs.pairDown, hs.modPair _]

theorem pairState_keepsModes (payload : Bytes) : KeepsModes (.pairState payload) := by
  refine keepsModes_of_next (fun _ => rfl) fun s hs => ?_
  split
  · exact hs
  split
  · exact hs
  split
  · refine State.ModesAgree.setRings (hs.of_kept ?_ ?_)
    · simp
    · simp
  split
  exacts [hs.congr rfl, hs]

theorem syncPhaseDone_keepsModes : KeepsModes .syncPhaseDone := by
  refine keepsModes_of_next (fun _ => rfl) fun s hs => ?_
  split
  · exact hs
  split
  next hmode =>
    split
    · exact hs.of_kept (by simp) (by simp)
    · exact hs.of_kept (by simp) (by simp)
    · exact hs.modPair _
    · split
      exacts [hs.setSynced hmode, hs]
    · exact hs.modPair _
    · exact hs
  next =>
    split
    · split
      · exact hs.of_kept (by simp) (by simp)
      · exact hs.of_kept (by simp) (by simp)
      · exact hs.modPair _
      · exact hs
    · exact hs

theorem compareEpoch_keepsModes : KeepsModes .compareEpoch := by
  refine keepsModes_of_next (fun _ => rfl) fun s hs => ?_
  split
  · exact hs
  dsimp only
  refine State.ModesAgree.digestsDue (State.ModesAgree.releaseDue ?_) 16
  split
  · exact hs.of_kept (by simp) (by simp)
  · exact hs.of_kept (by simp) (by simp)

theorem pipeTestDone_keepsModes (pass : Bool) : KeepsModes (.pipeTestDone pass) := by
  refine keepsModes_of_next (fun _ => rfl) fun s hs => ?_
  split
  · exact hs
  dsimp only
  split
  · exact hs.of_kept (by simp) (by simp)
  · exact State.ModesAgree.outcome (hs.of_kept (by simp) (by simp)) ..

/-- Every command keeps modes and outputs in agreement. -/
theorem exec_keepsModes (c : Instr) : KeepsModes c := by
  cases c with
  | sysWarmReset a => exact keepsModes_of_next (fun _ => rfl) fun _ => sysWarmResetSpec_agrees.exec a
  | sysShutdown a => exact keepsModes_of_next (fun _ => rfl) fun _ => sysShutdownSpec_agrees.exec a
  | portOpticsMap a => exact keepsModes_of_next (fun _ => rfl) fun _ => portOpticsMapSpec_agrees.exec a
  | portRingPair a => exact keepsModes_of_next (fun _ => rfl) fun _ => portRingPairSpec_agrees.exec a
  | timePpsConfig a => exact keepsModes_of_next (fun _ => rfl) fun _ => timePpsConfigSpec_agrees.exec a
  | bistRun a => exact keepsModes_of_next (fun _ => rfl) fun _ => bistRunSpec_agrees.exec a
  | pairEquinox a => exact keepsModes_of_next (fun _ => rfl) fun _ => pairEquinoxSpec_agrees.exec a
  | pairResync a => exact keepsModes_of_next (fun _ => rfl) fun _ => pairResyncSpec_agrees.exec a
  | modeReqSafe w => exact (modeReq_keepsModes w).1
  | modeReqWarm w => exact (modeReq_keepsModes w).2
  | registerWrite f bar offset width value => exact registerWrite_keepsModes f bar offset width value
  | resetNLow => exact resetNLow_keepsModes
  | powerFailWarning => exact powerFailWarning_keepsModes
  | powerFailDrainDone => exact powerFailDrainDone_keepsModes
  | railOutOfRange rails => exact railOutOfRange_keepsModes rails
  | bootStart b => exact bootStart_keepsModes b
  | bootSelfTestDone l => exact bootSelfTestDone_keepsModes l
  | processorsLoaded => exact processorsLoaded_keepsModes
  | bootComplete => exact bootComplete_keepsModes
  | pairingWaitExpiry => exact pairingWaitExpiry_keepsModes
  | migrationDone => exact migrationDone_keepsModes
  | migrationStepError => exact migrationFails_keepsModes.1
  | migrationTimeout => exact migrationFails_keepsModes.2
  | lkgReached => exact lkgReached_keepsModes
  | processorFault p => exact processorFault_keepsModes p
  | bscFault => exact bscFault_keepsModes
  | worldViolation region master write addr => exact worldViolation_keepsModes region master write addr
  | coreDieFault reservoir cause => exact coreDieFault_keepsModes reservoir cause
  | processorReloadDone p => exact processorReloadDone_keepsModes p
  | dataLevelFault level number cause => exact dataLevelFault_keepsModes level number cause
  | blockResetDone level number ok => exact blockResetDone_keepsModes level number ok
  | i2cStretchTimeout bus sda => exact i2cStretchTimeout_keepsModes bus sda
  | refclkLost tile => exact refclkLost_keepsModes tile
  | offsetSample tb x => exact offsetSample_keepsModes tb x
  | freq10mLost => exact freq10mLost_keepsModes
  | ppsOutEdge => exact ppsOutEdge_keepsModes
  | sensorRead v => exact sensorRead_keepsModes v
  | bistRunDone pass => exact bistRunDone_keepsModes pass
  | activeInRise => exact activeInRise_keepsModes
  | activeInFall => exact activeInFall_keepsModes
  | takeoverWaitExpiry => exact takeoverWaitExpiry_keepsModes
  | partnerAliveLost => exact partnerAliveLost_keepsModes
  | activeConflict => exact activeConflict_keepsModes
  | backoffExpiry => exact backoffExpiry_keepsModes
  | equinoxEnter => exact equinoxEnter_keepsModes
  | equinoxSwap => exact equinoxSwap_keepsModes
  | equinoxConfirmTimeout => exact equinoxConfirmTimeout_keepsModes
  | equinoxAbort => exact equinoxAbort_keepsModes
  | equinoxComplete => exact equinoxComplete_keepsModes
  | pairEquinoxMsg m => exact pairEquinoxMsg_keepsModes m
  | pairHello payload => exact pairHello_keepsModes payload
  | pairHeartbeat mode synced faults cseq => exact pairHeartbeat_keepsModes mode synced faults cseq
  | pairLinkTimeout => exact pairLinkTimeout_keepsModes
  | pairLaneFail lane => exact pairLaneFail_keepsModes lane
  | pairDigest epoch digests => exact pairDigest_keepsModes epoch digests
  | pairArbitrate m => exact pairArbitrate_keepsModes m
  | selfCheckDone fault => exact selfCheckDone_keepsModes fault
  | selfCheckTimeout => exact selfCheckTimeout_keepsModes
  | pairCommand opcode r release => exact pairCommand_keepsModes opcode r release
  | pairCheck fn tag final status sub => exact pairCheck_keepsModes fn tag final status sub
  | pairEffect release e => exact received_keepsModes release (.effect e) fun _ => rfl
  | pairMeasure release m => exact received_keepsModes release (.measure m) fun _ => rfl
  | pairLearn release pipe m => exact received_keepsModes release _ fun _ => rfl
  | pairRetire release cell port => exact received_keepsModes release (.retire cell.toNat port.val) fun _ => rfl
  | pairSeed release seed => exact received_keepsModes release (.seed (leBytes 16 seed.toNat)) fun _ => rfl
  | pairInject release x => exact received_keepsModes release (.inject x) fun _ => rfl
  | pairKey payload => exact pairKey_keepsModes payload
  | pairState payload => exact pairState_keepsModes payload
  | syncPhaseDone => exact syncPhaseDone_keepsModes
  | compareEpoch => exact compareEpoch_keepsModes
  | pipeTestDone pass => exact pipeTestDone_keepsModes pass
  | _ => exact keepsModes_of_frame rfl

end Sys2Proof.Claims

section
open Sys2Proof Sys2Proof.Machine Sys2Proof.Claims

/-- Settles O59, by the agreement that each operation on modes and outputs keeps, the changes of mode first; a command outside
those operations touches neither. -/
theorem everyStepKeepsModesInAgreement : Obligations.EveryStepKeepsModesInAgreement := by
  intro s t hs hstep
  unfold step at hstep
  split at hstep
  · exact Host.Outcome.next.inj hstep ▸ hs.tick
  next c rest _ =>
    exact exec_keepsModes c { s with pending := rest } t (hs.congr rfl) hstep

end

/-! ### What reset leaves -/

namespace Sys2Proof.Machine

theorem State.reset_share : ∀ f : Fin 17, State.reset.share f.val = if f.val = 0 then 1024 else 192 := by decide

theorem State.reset_counter (c : Ctr) : State.reset.counter c = 0 := rfl

end Sys2Proof.Machine

section
open Sys2Proof Sys2Proof.Machine Sys2Proof.Claims

/-- Settles O3: the mailboxes, Wells, shares and counters are read from tables that reset leaves empty, the rest are fields of the reset
state. -/
theorem resetHoldsTheStatedValues : Obligations.ResetHoldsTheStatedValues :=
  ⟨rfl, rfl, rfl, rfl, rfl, rfl, rfl, by decide, fun f => ⟨rfl, rfl, rfl, State.reset_share f⟩, fun _ => ⟨rfl, rfl, rfl⟩,
    rfl, rfl, rfl, rfl, rfl, rfl, rfl, State.reset_counter⟩

/-- Settles O60: after reset the device is in M1 BOOT with nothing held, and drives neither output. -/
theorem resetHasModesInAgreement : Obligations.ResetHasModesInAgreement :=
  ⟨fun _ => rfl, fun h => absurd h Bool.false_ne_true, fun h => absurd h Bool.false_ne_true,
    fun h => absurd h Bool.false_ne_true, fun _ => nofun⟩

end

/-! ### The optics masters when ACTIVE_IN rises -/

namespace Sys2Proof.Machine

/-- A bus that is not yet recovered is, from what its SDA happens to show, which is a free value (R185; log entry 3). -/
theorem State.wakeBus_draws {s : State} {b : Nat} (hcages : (s.busCages b).isEmpty = false)
    (hbus : tget .untried s.ports.buses b = .untried) : (s.wakeBus b).draws = s.draws + 1 := by
  unfold State.wakeBus
  rw [if_neg (by simp [hcages, hbus])]
  simp [State.draw]

theorem State.le_wakeBus_draws (s : State) (b : Nat) : s.draws ≤ (s.wakeBus b).draws := by
  unfold State.wakeBus
  split
  · exact le_rfl
  · simp [State.draw]

theorem State.le_foldl_wakeBus_draws (bs : List Nat) (s : State) : s.draws ≤ (bs.foldl State.wakeBus s).draws := by
  induction bs generalizing s with
  | nil => exact le_rfl
  | cons b bs ih => exact (s.le_wakeBus_draws b).trans (ih (s.wakeBus b))

/-- When the masters begin to be driven, the bus of every cage of the map is recovered. -/
theorem State.setDriving_draws_lt {s : State} (hmay : s.mayDrive = true) (hstill : s.ports.driving = false)
    (hcages : (s.busCages 0).isEmpty = false) : s.draws < s.setDriving.draws := by
  unfold State.setDriving
  rw [if_neg (by simp [hmay, hstill]), if_pos hmay]
  dsimp only
  generalize hu : State.mk .. = u
  have hfirst : (u.wakeBus 0).draws = u.draws + 1 := wakeBus_draws (by rw [← hu]; exact hcages) (by rw [← hu]; rfl)
  have hrest := le_foldl_wakeBus_draws (List.range' 1 15) (u.wakeBus 0)
  have hdraws : u.draws = s.draws := by rw [← hu]
  have hrange : List.range 16 = 0 :: List.range' 1 15 := by decide
  rw [hrange, List.foldl_cons]
  omega

end Sys2Proof.Machine

namespace Sys2Proof.Claims
open Machine

/-- A device in M3 SOLO that does not drive its I2C masters yet, with a cage on bus 0. -/
def undriven : State :=
  { State.reset with
    ms := { State.reset.ms with mode := .m3 }
    cfg := { cages := [(0, some { master := 0, muxAddr := 0x70, muxChannel := 0, resetGpio := 1, firstPort := 0, portCount := 1,
                                  fast := false, muxResetGpio := 0xFF })] } }

theorem activeInRise_solo {s : State} (hmode : s.ms.mode = .m3) (hbackoff : s.pair.backoff = none) :
    exec .activeInRise s = .next (State.setDriving { s with pins := { s.pins with activeIn := true } }) := by
  show execActiveInRise s = _
  simp [execActiveInRise, hmode, hbackoff]

theorem activeInRise_undriven_draws : ∀ t, exec .activeInRise undriven = .next t → undriven.draws < t.draws := by
  intro t ht
  rw [← Host.Outcome.next.inj ((activeInRise_solo (s := undriven) rfl rfl).symm.trans ht)]
  exact State.setDriving_draws_lt (s := { undriven with pins := { undriven.pins with activeIn := true } }) rfl rfl (by decide)

end Sys2Proof.Claims

section
open Sys2Proof Sys2Proof.Machine Sys2Proof.Claims

/-- Refutes O56: where the masters are not driven yet in M3 SOLO, the rise of ACTIVE_IN begins to drive them, and the recovery of the
bus of a cage takes a free value, which is outside the parts that the statement allows. -/
theorem not_pairRolesChangeInOrder : ¬ Obligations.PairRolesChangeInOrder := by
  intro h
  obtain ⟨t, ht, -, -, hnot⟩ := (h.1 undriven).1
  obtain ⟨honly, -⟩ := hnot (by decide)
  have hdraws : t.draws = undriven.draws := honly .draws (by decide)
  exact absurd hdraws (activeInRise_undriven_draws t ht).ne'

end

/-! ### The chain of the start, stage by stage -/

namespace Sys2Proof.Machine

/-- The modes' record but for what the chain settles: RESET_CAUSE, what is to be told, the bank with its set and settings, the maps and
the step (R51). -/
def Modes.lasting (m : Modes) : Modes :=
  { m with resetCause := 0, noted := [], rejected := [], bank := false, blobVersion := 0, setVersion := 0, running := none,
           migrating := false, rewrapped := none, maps := {}, bootStep := 0, blobCause := 0, lkg := false }

/-- MRAM and fuses but for what the chain writes: the boot records, the blobs with their journal, and the key store. -/
def Nvm.lasting (n : Nvm) : Nvm :=
  { n with bootA := {}, bootB := {}, blob := none, oldBlob := none, journal := none, journalUsed := 0, keys := {} }

/-- What the chain of the start leaves of the modes' record and of MRAM. -/
def State.lasting (s : State) : Modes × Nvm := (s.ms.lasting, s.nv.lasting)

theorem State.lasting_eq {s t : State} (h : t.lasting = s.lasting) :
    t.ms.mode = s.ms.mode ∧ t.ms.inTransition = s.ms.inTransition ∧ t.ms.unclean = s.ms.unclean ∧ t.nv.cleanMark = s.nv.cleanMark ∧
      t.nv.leases = s.nv.leases ∧ t.nv.staged = s.nv.staged ∧ t.nv.fuses = s.nv.fuses := by
  have hms : t.ms.lasting = s.ms.lasting := congrArg Prod.fst h
  have hnv : t.nv.lasting = s.nv.lasting := congrArg Prod.snd h
  exact ⟨(congrArg Modes.mode hms :), (congrArg Modes.inTransition hms :), (congrArg Modes.unclean hms :), (congrArg Nvm.cleanMark hnv :),
    (congrArg Nvm.leases hnv :), (congrArg Nvm.staged hnv :), (congrArg Nvm.fuses hnv :)⟩

/-- The straps and clocks as the chain samples them (R662, R672). -/
def State.sampled (s : State) (b : BootInput) : State :=
  { s with pins := { s.pins with pairIdPin := b.pairId, pairId := b.pairId, refclkTile := b.refclkTile, refclkRc := b.refclkRc } }

/-- The chain up to the loop over the banks: the rings of the newest blob, and the clean mark. -/
def State.prepared (s : State) (b : BootInput) : State := (s.sampled b).readBlobs.takeMark

/-- The chain from a selected set on (R51 steps 3 and 4). -/
def State.adopt (s : State) (bank : Bool) (x : ImageSet) : State :=
  let s := (((s.takeSet bank x).rewrap x).chooseBlob x).writeMaps
  { s with ms := { s.ms with bootStep := 1 } }

theorem State.bootChain_unclocked {s : State} {b : BootInput} (h : b.refclkRc = false) : s.bootChain b = (s.sampled b).readBlobs :=
  if_pos (by simp [h])

theorem State.bootChain_clocked {s : State} {b : BootInput} (h : b.refclkRc = true) :
    s.bootChain b = (s.prepared b).selectBank.2.elim ((s.prepared b).selectBank.1.changeMode .m7 10 3)
      fun z => (s.prepared b).selectBank.1.adopt z.1 z.2 := by
  refine (if_neg (by simp [h])).trans ?_
  change (match (s.prepared b).selectBank.2 with | none => _ | some (bank, x) => _) = _
  cases (s.prepared b).selectBank.2 <;> rfl

theorem State.bootChain_noImage {s : State} {b : BootInput} (h : b.refclkRc = true) (hnone : (s.prepared b).selectBank.2 = none) :
    s.bootChain b = (s.prepared b).selectBank.1.changeMode .m7 10 3 := by
  rw [bootChain_clocked h, hnone]
  rfl

theorem State.bootChain_selected {s : State} {b : BootInput} {z : Bool × ImageSet} (h : b.refclkRc = true)
    (hsome : (s.prepared b).selectBank.2 = some z) : s.bootChain b = (s.prepared b).selectBank.1.adopt z.1 z.2 := by
  rw [bootChain_clocked h, hsome]
  rfl

/-! What each stage leaves. -/

@[simp] theorem State.readBlobs_lasting (s : State) : s.readBlobs.lasting = s.lasting := by
  unfold State.readBlobs
  split
  · simp [State.lasting]
  · simp only [State.lasting, setRings_frame]
    rfl

@[simp] theorem State.modBoot_lasting (s : State) (bank : Bool) (f : BootRec → BootRec) : (s.modBoot bank f).lasting = s.lasting := by
  cases bank <;> rfl

@[simp] theorem State.rejectBank_lasting (s : State) (bank : Bool) (reason : Nat) : (s.rejectBank bank reason).lasting = s.lasting :=
  modBoot_lasting ..

@[simp] theorem State.tryBank_lasting (s : State) (bank committed : Bool) : (s.tryBank bank committed).1.lasting = s.lasting := by
  unfold State.tryBank
  dsimp only
  repeat' split
  all_goals simp

@[simp] theorem State.selectBank_lasting (s : State) : s.selectBank.1.lasting = s.lasting := by
  unfold State.selectBank
  dsimp only
  split <;> simp

@[simp] theorem State.rewrap_lasting (s : State) (x : ImageSet) : (s.rewrap x).lasting = s.lasting := by
  unfold State.rewrap
  dsimp only
  split <;> rfl

@[simp] theorem State.useBlob_lasting (s : State) (b : Blob) : (s.useBlob b).lasting = s.lasting := by
  unfold State.useBlob
  dsimp only
  split <;> rfl

@[simp] theorem State.chooseBlob_lasting (s : State) (x : ImageSet) : (s.chooseBlob x).lasting = s.lasting := by
  unfold State.chooseBlob
  split
  · simp
  split
  · exact useBlob_lasting ..
  split <;> rfl

@[simp] theorem State.adopt_lasting (s : State) (bank : Bool) (x : ImageSet) : (s.adopt bank x).lasting = s.lasting :=
  calc (s.adopt bank x).lasting
    _ = (((s.takeSet bank x).rewrap x).chooseBlob x).lasting := rfl
    _ = (s.takeSet bank x).lasting := by rw [chooseBlob_lasting, rewrap_lasting]

theorem State.prepared_lasting (s : State) (b : BootInput) : (s.prepared b).lasting = s.takeMark.lasting := by
  have hread : (s.sampled b).readBlobs.lasting = s.lasting := readBlobs_lasting _
  have hms : (s.sampled b).readBlobs.ms.lasting = s.ms.lasting := congrArg Prod.fst hread
  have hnv : (s.sampled b).readBlobs.nv = s.nv := readBlobs_frame _ |>.2.1
  refine Prod.ext ?_ ?_
  · exact congrArg₂ (fun (m : Modes) c => { m with unclean := !c }) hms (congrArg Nvm.cleanMark hnv)
  · exact congrArg (fun (n : Nvm) => { n.lasting with cleanMark := false }) hnv

@[simp] theorem State.adopt_pins (s : State) (bank : Bool) (x : ImageSet) : (s.adopt bank x).pins = s.pins := by
  simp [State.adopt]

@[simp] theorem State.prepared_pins (s : State) (b : BootInput) : (s.prepared b).pins = (s.sampled b).readBlobs.pins := rfl

theorem State.readBlobs_pins_apart (s : State) : s.readBlobs.pins.apart = s.pins.apart := by
  unfold State.readBlobs
  split
  · exact (setRings_pins_apart _).trans rfl
  · exact (setRings_pins_apart _).trans rfl

/-- Without REFCLK_RC the chain stops with the rings, else it reads the clean mark; it ends with a set that runs, or asks for M7 SAFE. -/
theorem State.bootChain_stages (s : State) (b : BootInput) :
    ∃ t : State, t.lasting = (if b.refclkRc then s.takeMark else s).lasting ∧ t.pins = (s.sampled b).readBlobs.pins ∧ t.host = s.host ∧
      t.ports = (s.sampled b).readBlobs.ports ∧ t.procs = s.procs ∧ t.svc = s.svc ∧
      (s.bootChain b = t ∨ s.bootChain b = t.changeMode .m7 10 3) := by
  have hread : (s.sampled b).readBlobs.host = s.host ∧ (s.sampled b).readBlobs.procs = s.procs ∧ (s.sampled b).readBlobs.svc = s.svc := by
    simp [State.sampled]
  cases hclock : b.refclkRc with
  | false =>
    refine ⟨(s.sampled b).readBlobs, ?_, rfl, hread.1, rfl, hread.2.1, hread.2.2, .inl (bootChain_unclocked hclock)⟩
    rw [readBlobs_lasting]
    rfl
  | true =>
    cases hset : (s.prepared b).selectBank.2 with
    | none =>
      refine ⟨(s.prepared b).selectBank.1, ?_, ?_, ?_, ?_, ?_, ?_, .inr (bootChain_noImage hclock hset)⟩
      · rw [selectBank_lasting, prepared_lasting]
        rfl
      all_goals simp [State.prepared, State.sampled]
    | some z =>
      refine ⟨(s.prepared b).selectBank.1.adopt z.1 z.2, ?_, ?_, ?_, ?_, ?_, ?_, .inl (bootChain_selected hclock hset)⟩
      · rw [adopt_lasting, selectBank_lasting, prepared_lasting]
        rfl
      all_goals simp [State.adopt, State.prepared, State.sampled]

end Sys2Proof.Machine

/-! ### Triggers held by the power-fail drain -/

namespace Sys2Proof.Machine

theorem State.toSolo_held {s : State} (h : s.ms.inTransition = true) (t : Nat) : s.toSolo t = s := if_pos h

theorem State.toStandby_held {s : State} (h : s.ms.inTransition = true) (t : Nat) : s.toStandby t = s := if_pos h

theorem State.enterSafe_held {s : State} (h : s.ms.inTransition = true) (cause : Nat) : s.enterSafe cause = s := if_pos h

theorem State.takeOver_held {s : State} (h : s.ms.inTransition = true) : s.takeOver = s := if_pos h

theorem State.coldTake_held {s : State} (h : s.ms.inTransition = true) : s.coldTake = s := if_pos h

theorem State.lostInSwap_held {s : State} (h : s.ms.inTransition = true) (reason : Nat) : s.lostInSwap reason = s := if_pos h

theorem State.abortSwap_held {s : State} (h : s.ms.inTransition = true) (kind : Nat) : s.abortSwap kind = s := if_pos (by simp [h])

theorem State.partnerLost_held {s : State} (h : s.ms.inTransition = true) (reason : Nat) : s.partnerLost reason = s :=
  if_neg (by simp [h])

/-! BYPASS_HOLD. -/

/-- Every BYPASS_HOLD is low. -/
def State.HoldsLow (s : State) : Prop := ∀ k, tget false s.pins.bypassHold k = false

theorem State.switchRings_pins (s : State) : s.switchRings.pins = s.setRings.pins := foldl_pins _ (fun acc k => by simp) ..

/-- In the power-fail drain no hold is driven (R49). -/
theorem State.HoldsLow.setRings {s : State} (h : s.HoldsLow) (hdrain : s.ms.inTransition = true) : s.setRings.HoldsLow := by
  have hlevel (k : Nat) : s.holdLevel k = false := by
    unfold State.holdLevel
    split <;> simp [hdrain]
  have hstep (t : Tab Bool) (ht : ∀ n, tget false t n = false) (k : Nat) (_ : k ∈ List.range 16) (n : Nat) :
      tget false (tset false t k (s.holdLevel k)) n = false := by
    by_cases hkn : n = k
    · rw [hkn, tget_tset_self, hlevel]
    · rw [tget_tset_ne _ _ _ hkn, ht]
  exact List.foldlRecOn (motive := fun t => ∀ n, tget false t n = false) (List.range 16) _ h hstep

theorem State.HoldsLow.switchRings {s : State} (h : s.HoldsLow) (hdrain : s.ms.inTransition = true) : s.switchRings.HoldsLow := by
  intro k
  rw [switchRings_pins]
  exact h.setRings hdrain k

theorem State.HoldsLow.readBlobs {s : State} (h : s.HoldsLow) (hdrain : s.ms.inTransition = true) : s.readBlobs.HoldsLow := by
  unfold State.readBlobs
  split
  · exact HoldsLow.setRings h hdrain
  · exact HoldsLow.setRings h hdrain

theorem State.warmReset_inTransition (s : State) (cause t : Nat) : (s.warmReset cause t).ms.inTransition = s.ms.inTransition := by
  simp [State.warmReset, State.noteMode]

theorem State.warmReset_holdsLow (s : State) (cause t : Nat) (hdrain : s.ms.inTransition = true) : (s.warmReset cause t).HoldsLow := by
  unfold State.warmReset
  exact HoldsLow.switchRings (fun _ => rfl) hdrain

/-- A warm reset in the power-fail drain leaves the drain as it is, and the holds low (R43, R49). -/
theorem State.fatal_drains (s : State) (hmode : s.ms.mode ≠ .m0) (hdrain : s.ms.inTransition = true) :
    s.fatal.ms.inTransition = true ∧ s.fatal.HoldsLow := by
  unfold State.fatal
  split
  case h_1 h0 => exact absurd h0 hmode
  case h_2 => exact ⟨(warmReset_inTransition ..).trans hdrain, warmReset_holdsLow _ _ _ hdrain⟩
  case h_3 => exact ⟨(warmReset_inTransition ..).trans hdrain, warmReset_holdsLow _ _ _ hdrain⟩

theorem State.bootChain_drains {s : State} (b : BootInput) (hdrain : s.ms.inTransition = true) (hlow : s.HoldsLow) :
    (s.bootChain b).ms.inTransition = true ∧ (s.bootChain b).HoldsLow := by
  obtain ⟨t, hlasting, hpins, -, -, -, -, hcases⟩ := s.bootChain_stages b
  have ht : t.ms.inTransition = true := by
    rw [(lasting_eq hlasting).2.1]
    split <;> exact hdrain
  have hchain : s.bootChain b = t := hcases.elim id fun h => h.trans (changeMode_held t .m7 10 3 ht)
  have hread : (s.sampled b).readBlobs.HoldsLow := HoldsLow.readBlobs hlow hdrain
  rw [hchain]
  exact ⟨ht, fun k => by rw [hpins]; exact hread k⟩

end Sys2Proof.Machine

namespace Sys2Proof.Claims
open Machine

theorem dormant_is_dormant (s : State) : Dormant s { s.dormant with ms := { s.dormant.ms with armed := true } } :=
  ⟨rfl, rfl, rfl, rfl, rfl, rfl, rfl, rfl, rfl, rfl, rfl, rfl, rfl, rfl⟩

theorem resetNLow_dormant (s : State) : Gives .resetNLow s fun t => Dormant s t ∧ t.ms.resetCause = s.ms.resetCause ||| 2 :=
  ⟨_, rfl, dormant_is_dormant (s.addCause 1), rfl⟩

theorem railOutOfRange_dormant (s : State) {rails : BitVec 10} (h : rails ≠ 0) : Gives (.railOutOfRange rails) s fun t =>
    Dormant s t ∧ t.power.railFault = s.power.railFault ||| rails ∧ t.ms.resetCause = s.ms.resetCause :=
  ⟨_, congrArg Host.Outcome.next (if_neg h), ⟨rfl, rfl, rfl, rfl, rfl, rfl, rfl, rfl, rfl, rfl, rfl, rfl, rfl, rfl⟩, rfl, rfl⟩

theorem powerFailWarning_drains (s : State) (h0 : s.ms.mode ≠ .m0) (hstill : s.ms.inTransition = false) :
    Gives .powerFailWarning s fun t => Only [.ms, .nv, .pins] s t ∧
      t.ms = { s.ms with inTransition := true, resetCause := s.ms.resetCause ||| 4 } ∧ t.pins.activeOut = false ∧
      t.pins.bypassHold = [] ∧ t.nv = { s.nv with keys := { s.nv.keys with staged := [], commitAt := none } } := by
  have hwarned : exec .powerFailWarning s = _ := congrArg Host.Outcome.next (if_neg (by simp [h0, hstill]))
  exact ⟨_, hwarned, exec_frame .powerFailWarning s _ hwarned, rfl, rfl, rfl, rfl⟩

/-- What a trigger in the power-fail drain leaves: the mode, the drain, and ACTIVE_OUT low. -/
def Drains (s t : State) : Prop :=
  t.ms.mode = s.ms.mode ∧ t.ms.inTransition = true ∧ (s.pins.activeOut = false → t.pins.activeOut = false)

theorem drains_of_standing {s t : State} (hdrain : t.ms.inTransition = true) (h : t.standing = s.standing) : Drains s t := by
  simp only [State.standing, Prod.mk.injEq] at h
  obtain ⟨hmode, -, -, -, hactive, -⟩ := h
  exact ⟨hmode, hdrain, fun hlow => hactive.trans hlow⟩

theorem leaveBoot_drains {s : State} (hdrain : s.ms.inTransition = true) : Drains s s.leaveBoot := by
  unfold State.leaveBoot
  repeat' split
  · rw [State.toStandby_held hdrain]
    exact drains_of_standing hdrain rfl
  · exact drains_of_standing hdrain rfl
  · rw [State.toSolo_held hdrain]
    exact drains_of_standing hdrain rfl
  · rw [State.toSolo_held hdrain]
    exact drains_of_standing hdrain rfl

section
variable {s : State} (hdrain : s.ms.inTransition = true)
include hdrain

theorem bootComplete_drains : Gives .bootComplete s (Drains s) := by
  refine ⟨_, rfl, ?_⟩
  repeat' split
  · exact drains_of_standing hdrain rfl
  · rw [State.changeMode_held _ _ _ _ hdrain]
    exact drains_of_standing hdrain rfl
  · rw [State.changeMode_held _ _ _ _ hdrain]
    exact drains_of_standing hdrain rfl
  · exact leaveBoot_drains hdrain

theorem pairingWaitExpiry_drains : Gives .pairingWaitExpiry s (Drains s) := by
  refine ⟨_, rfl, ?_⟩
  rw [State.toSolo_held hdrain, ite_self]
  exact drains_of_standing hdrain rfl

theorem migrationDone_drains : Gives .migrationDone s (Drains s) := by
  refine ⟨_, rfl, ?_⟩
  split
  · exact drains_of_standing hdrain rfl
  split
  · exact drains_of_standing hdrain rfl
  · exact leaveBoot_drains (s := State.setRings _) hdrain

theorem activeInRise_drains : Gives .activeInRise s (Drains s) := by
  refine ⟨_, rfl, ?_⟩
  dsimp only
  generalize hu : State.setDriving _ = u
  have hu' : u.standing = s.standing ∧ u.ms.inTransition = true := by
    subst hu
    rw [State.setDriving_standing]
    split
    · exact ⟨rfl, by simpa using hdrain⟩
    · exact ⟨rfl, by simpa using hdrain⟩
  rw [State.toStandby_held hu'.2, ite_self]
  exact drains_of_standing hu'.2 hu'.1

theorem activeInFall_drains : Gives .activeInFall s (Drains s) := by
  refine ⟨_, rfl, ?_⟩
  dsimp only
  have hheld : Drains s { s with pins := { s.pins with activeIn := false } } := drains_of_standing hdrain rfl
  split
  · rw [State.takeOver_held (by exact hdrain), ite_self]
    exact hheld
  · rw [State.abortSwap_held (by exact hdrain), State.takeOver_held (by exact hdrain), ite_self, ite_self]
    exact hheld
  · exact ⟨rfl, hdrain, fun _ => by simp [State.setActive, hdrain]⟩
  · exact drains_of_standing (by simpa using hdrain) (State.setDriving_standing _)

theorem takeoverWaitExpiry_drains : Gives .takeoverWaitExpiry s (Drains s) := by
  refine ⟨_, rfl, ?_⟩
  rw [State.coldTake_held hdrain, ite_self]
  exact drains_of_standing hdrain rfl

theorem partnerAliveLost_drains : Gives .partnerAliveLost s (Drains s) := by
  refine ⟨_, rfl, ?_⟩
  dsimp only
  have hheld : Drains s { s with pins := { s.pins with aliveIn := false } } := drains_of_standing hdrain rfl
  split
  · rw [State.abortSwap_held (by exact hdrain), State.partnerLost_held (by exact hdrain)]
    exact hheld
  · rw [State.lostInSwap_held (by exact hdrain)]
    exact hheld
  · exact hheld

theorem backoffExpiry_drains : Gives .backoffExpiry s (Drains s) :=
  ⟨s, congrArg Host.Outcome.next (if_pos (by simp [hdrain])), drains_of_standing hdrain rfl⟩

theorem equinoxEnter_drains : Gives .equinoxEnter s (Drains s) :=
  ⟨s, congrArg Host.Outcome.next (if_neg (by simp [hdrain])), drains_of_standing hdrain rfl⟩

theorem equinoxComplete_drains : Gives .equinoxComplete s (Drains s) :=
  ⟨s, congrArg Host.Outcome.next (if_pos (by simp [hdrain])), drains_of_standing hdrain rfl⟩

theorem dieTold_drains (reservoir : Bool) (cause : Nat) : (dieTold s reservoir cause).ms.inTransition = true ∧
    (dieTold s reservoir cause).standing = s.standing := by
  unfold dieTold
  split
  · exact ⟨hdrain, rfl⟩
  · exact ⟨by simpa using hdrain, State.standing_of_apart (by simp) (by simp)⟩

theorem dieKept_drains (reservoir : Bool) (cause : Nat) : (dieKept s reservoir cause).ms.inTransition = true ∧
    (dieKept s reservoir cause).standing = s.standing := by
  unfold dieKept
  dsimp only
  split
  · exact dieTold_drains hdrain reservoir cause
  · exact ⟨hdrain, rfl⟩

theorem coreDieFault_drains (reservoir : Bool) (cause : Fin 7) : Gives (.coreDieFault reservoir cause) s (Drains s) := by
  by_cases h0 : s.ms.mode = .m0
  · exact ⟨s, coreDieFault_discarded cause (.inl h0), drains_of_standing hdrain rfl⟩
  obtain ⟨hkept, hkept'⟩ := dieKept_drains hdrain reservoir cause.val
  obtain ⟨htold, htold'⟩ := dieTold_drains hdrain reservoir cause.val
  by_cases h1 : s.ms.mode = .m1
  · refine ⟨_, coreDieFault_m1 reservoir cause h1, ?_⟩
    rw [State.changeMode_held _ _ _ _ hkept, ite_self]
    exact drains_of_standing hkept hkept'
  by_cases h7 : s.ms.mode = .m7
  · exact ⟨_, coreDieFault_m7 reservoir cause h7, drains_of_standing htold htold'⟩
  · refine ⟨_, coreDieFault_running reservoir cause h0 h1 h7, ?_⟩
    rw [State.enterSafe_held htold]
    exact drains_of_standing htold htold'

theorem bscFault_drains (h0 : s.ms.mode ≠ .m0) :
    Gives .bscFault s fun t => t.ms.inTransition = true ∧ ∀ k, tget false t.pins.bypassHold k = false := by
  obtain ⟨hstill, hlow⟩ := s.fatal_drains h0 hdrain
  have hcrash : s.crash = s.fatal.bootChain s.fatal.presented := if_neg h0
  refine ⟨s.crash, rfl, ?_⟩
  rw [hcrash]
  exact State.bootChain_drains _ hstill hlow

end

end Sys2Proof.Claims

section
open Sys2Proof Sys2Proof.Machine Sys2Proof.Claims

/-- Settles O35: in the power-fail drain every change of mode is held, so that a trigger leaves the mode and the drain as they are. -/
theorem resetsEnterDormant : Obligations.ResetsEnterDormant := by
  intro s
  refine ⟨resetNLow_dormant s, fun _ => railOutOfRange_dormant s, rfl, powerFailWarning_drains s, fun hdrain => ?_, fun hstill => ?_,
    fun hdrain => ⟨congrArg Host.Outcome.next (if_pos (.inr hdrain)), ?_, bscFault_drains hdrain⟩⟩
  · exact ⟨_, congrArg Host.Outcome.next (if_pos hdrain), dormant_is_dormant s⟩
  · exact congrArg Host.Outcome.next (if_neg (by simp [hstill]))
  · simp only [List.forall_mem_cons, List.not_mem_nil, false_imp_iff, implies_true, and_true]
    exact ⟨bootComplete_drains hdrain, pairingWaitExpiry_drains hdrain, migrationDone_drains hdrain, activeInRise_drains hdrain,
      activeInFall_drains hdrain, takeoverWaitExpiry_drains hdrain, partnerAliveLost_drains hdrain, backoffExpiry_drains hdrain,
      equinoxEnter_drains hdrain, equinoxComplete_drains hdrain, coreDieFault_drains hdrain false 0, coreDieFault_drains hdrain true 0⟩

end

/-! ### The selection of a bank -/

namespace Sys2Proof.Machine

/-- What the loop over the banks judges, and what the set selected leaves of it: the running bank and set, the boot records, the
flash. -/
def State.banks (s : State) : Bool × Option ImageSet × BootRec × BootRec × FlashBank × FlashBank :=
  (s.ms.bank, s.ms.running, s.nv.bootA, s.nv.bootB, s.nv.flashA, s.nv.flashB)

@[simp] theorem State.rewrap_banks (s : State) (x : ImageSet) : (s.rewrap x).banks = s.banks := by
  unfold State.rewrap
  dsimp only
  split <;> rfl

@[simp] theorem State.useBlob_banks (s : State) (b : Blob) : (s.useBlob b).banks = s.banks := by
  unfold State.useBlob
  dsimp only
  split <;> rfl

@[simp] theorem State.chooseBlob_banks (s : State) (x : ImageSet) : (s.chooseBlob x).banks = s.banks := by
  unfold State.chooseBlob
  split
  · simp
  split
  · exact useBlob_banks ..
  split <;> rfl

theorem State.adopt_banks (s : State) (bank : Bool) (x : ImageSet) :
    (s.adopt bank x).banks = (bank, some x, s.nv.bootA, s.nv.bootB, s.nv.flashA, s.nv.flashB) :=
  calc (s.adopt bank x).banks
    _ = (((s.takeSet bank x).rewrap x).chooseBlob x).banks := rfl
    _ = (s.takeSet bank x).banks := by rw [chooseBlob_banks, rewrap_banks]

theorem State.signerOk_congr {s t : State} (h : t.nv.fuses = s.nv.fuses) (b : Bytes) : t.signerOk b = s.signerOk b := by
  unfold State.signerOk
  rw [h]

theorem State.verify_congr {s t : State} (h : t.nv.fuses = s.nv.fuses) (b : Bytes) (len : Nat) : t.verify b len = s.verify b len := by
  unfold State.verify
  rw [signerOk_congr h]

/-- The header check looks at flash and fuses alone. -/
theorem State.checkBank_congr {s t : State} (hfuses : t.nv.fuses = s.nv.fuses) (hA : t.nv.flashA = s.nv.flashA)
    (hB : t.nv.flashB = s.nv.flashB) (bank : Bool) : t.checkBank bank = s.checkBank bank := by
  have hflash : t.flash bank = s.flash bank := by simp only [State.flash, hA, hB]
  unfold State.checkBank
  dsimp only
  rw [hflash, verify_congr hfuses]

theorem State.BootKeeps.checkBank {s t : State} (h : s.BootKeeps t) (bank : Bool) : t.checkBank bank = s.checkBank bank :=
  checkBank_congr h.fuses h.flashA h.flashB bank

theorem State.prepared_nv (s : State) (b : BootInput) : (s.prepared b).nv = { s.nv with cleanMark := false } :=
  congrArg (fun n : Nvm => { n with cleanMark := false }) (readBlobs_frame (s.sampled b)).2.1

theorem State.prepared_bootRec (s : State) (b : BootInput) (bank : Bool) : (s.prepared b).bootRec bank = s.bootRec bank := by
  simp only [State.bootRec, prepared_nv]

theorem State.prepared_committed (s : State) (b : BootInput) : (s.prepared b).committed = s.committed := by
  simp only [State.committed, prepared_nv]

theorem State.prepared_checkBank (s : State) (b : BootInput) (bank : Bool) : (s.prepared b).checkBank bank = s.checkBank bank :=
  checkBank_congr (by rw [prepared_nv]) (by rw [prepared_nv]) (by rw [prepared_nv]) bank

/-- A committed bank that has tries left, or is last known good, and passes its check is selected (R53). -/
theorem State.selectBank_committed {s : State} {x : ImageSet} (hfailed : (s.bootRec s.committed).failed = false)
    (htries : (s.bootRec s.committed).tried < 3 ∨ (s.bootRec s.committed).lkg = true) (hcheck : s.checkBank s.committed = .inr x) :
    s.selectBank = (s.modBoot s.committed fun r => { r with tried := r.tried + 1 }, some (s.committed, x)) := by
  have hleft : ¬(3 ≤ (s.bootRec s.committed).tried ∧ (!(s.bootRec s.committed).lkg) = true) := fun ⟨hspent, hnot⟩ =>
    htries.elim (fun h => Nat.not_le.2 h hspent) fun h => by simp [h] at hnot
  have htried : (s.modBoot s.committed fun r => { r with tried := r.tried + 1 }).checkBank s.committed = .inr x :=
    ((s.modBoot_bootKeeps ..).checkBank _).trans hcheck
  have htry : s.tryBank s.committed true = (s.modBoot s.committed fun r => { r with tried := r.tried + 1 }, some x) := by
    unfold State.tryBank
    dsimp only
    rw [if_neg (by simp [hfailed]), if_neg hleft, htried]
  unfold State.selectBank
  dsimp only
  rw [htry]

/-- A bank that does not pass its check is not selected. -/
theorem State.tryBank_rejected {s : State} {bank : Bool} (committed : Bool) (h : ∃ e, s.checkBank bank = .inl e) :
    (s.tryBank bank committed).2 = none := by
  obtain ⟨e, he⟩ := h
  have htried : (s.modBoot bank fun r => { r with tried := r.tried + 1 }).checkBank bank = .inl e :=
    ((s.modBoot_bootKeeps ..).checkBank _).trans he
  unfold State.tryBank
  dsimp only
  rw [htried]
  split
  · rfl
  split
  · rfl
  · rfl

theorem State.selectBank_none {s : State} (h : ∀ bank, ∃ e, s.checkBank bank = .inl e) : s.selectBank.2 = none := by
  have hother : ∃ e, (s.tryBank s.committed true).1.checkBank (!s.committed) = .inl e :=
    (h (!s.committed)).imp fun e he => ((s.tryBank_bootKeeps ..).checkBank _).trans he
  unfold State.selectBank
  dsimp only
  rw [tryBank_rejected true (h s.committed)]
  simp only [tryBank_rejected false hother, Option.map_none]

/-! What the whole chain leaves. -/

theorem State.changeMode_pairId (s : State) (new : Mode) (t cause : Nat) : (s.changeMode new t cause).pins.pairId = s.pins.pairId := by
  cases ht : s.ms.inTransition with
  | true => rw [changeMode_held s new t cause ht]
  | false => exact (congrArg Pins.pairId (changeMode_pins_apart s new t cause ht) :)

theorem State.changeMode_unclean (s : State) (new : Mode) (t cause : Nat) : (s.changeMode new t cause).ms.unclean = s.ms.unclean := by
  cases ht : s.ms.inTransition with
  | true => rw [changeMode_held s new t cause ht]
  | false =>
    obtain ⟨n, hms⟩ := changeMode_ms s new t cause ht
    rw [hms]

theorem State.bootChain_pairId (s : State) (b : BootInput) : (s.bootChain b).pins.pairId = b.pairId := by
  obtain ⟨t, -, hpins, -, -, -, -, hcases⟩ := s.bootChain_stages b
  have ht : t.pins.pairId = b.pairId := by
    rw [hpins]
    exact (congrArg Pins.pairId (s.sampled b).readBlobs_pins_apart :)
  rcases hcases with h | h
  · rw [h, ht]
  · rw [h, changeMode_pairId, ht]

/-- The clean mark is read and erased (R48). -/
theorem State.bootChain_mark (s : State) {b : BootInput} (hclock : b.refclkRc = true) :
    (s.bootChain b).ms.unclean = (!s.nv.cleanMark) ∧ (s.bootChain b).nv.cleanMark = false := by
  obtain ⟨t, hlasting, -, -, -, -, -, hcases⟩ := s.bootChain_stages b
  rw [hclock, if_pos rfl] at hlasting
  obtain ⟨-, -, hunclean, hmark, -⟩ := lasting_eq hlasting
  rcases hcases with h | h
  · rw [h]
    exact ⟨hunclean, hmark⟩
  · have hnv : (t.changeMode .m7 10 3).nv = t.nv := by simp
    rw [h, hnv, changeMode_unclean]
    exact ⟨hunclean, hmark⟩

theorem State.readBlobs_ms (s : State) : s.readBlobs.ms.mode = s.ms.mode ∧ s.readBlobs.ms.bootStep = s.ms.bootStep := by
  unfold State.readBlobs
  split <;> simp

/-- The chain ends in M1 with the step it has reached, or in M7 SAFE for want of a bank. -/
theorem State.bootChain_ends {s : State} (b : BootInput) (hmode : s.ms.mode = .m1) (hstep : s.ms.bootStep = 0)
    (hstill : s.ms.inTransition = false) :
    (s.bootChain b).ms.mode = .m1 ∧ ((s.bootChain b).ms.bootStep = if b.refclkRc then 1 else 0) ∨
      (s.bootChain b).ms.mode = .m7 ∧ (s.bootChain b).ms.safeCause = 3 := by
  cases hclock : b.refclkRc with
  | false =>
    rw [bootChain_unclocked hclock, (s.sampled b).readBlobs_ms.1, (s.sampled b).readBlobs_ms.2]
    exact .inl ⟨hmode, hstep⟩
  | true =>
    have hlasting : (s.prepared b).selectBank.1.lasting = s.takeMark.lasting := by rw [selectBank_lasting, prepared_lasting]
    cases hset : (s.prepared b).selectBank.2 with
    | none =>
      rw [bootChain_noImage hclock hset]
      exact .inr (changeMode_mode _ .m7 10 3 ((lasting_eq hlasting).2.1.trans hstill))
    | some z =>
      rw [bootChain_selected hclock hset]
      have hadopt := (lasting_eq ((adopt_lasting (s.prepared b).selectBank.1 z.1 z.2).trans hlasting)).1
      exact .inl ⟨hadopt.trans hmode, rfl⟩

end Sys2Proof.Machine

namespace Sys2Proof.Claims
open Machine

theorem supplied_railInRange (s : State) (vbat io18 io33 : Bool) : (s.supplied vbat io18 io33).power.railInRange = 0x3FF := by
  unfold State.supplied
  dsimp only
  repeat' split
  all_goals rfl

theorem bootStart_dormant (s : State) (b : BootInput) (hmode : s.ms.mode = .m0) (harmed : s.ms.armed = true) :
    Gives (.bootStart b) s fun t => t.pins.pairId = b.pairId ∧ t.power.railInRange = 0x3FF ∧
      (t.ms.mode = .m1 ∧ (t.ms.bootStep = if b.refclkRc then 1 else 0) ∨ t.ms.mode = .m7 ∧ t.ms.safeCause = 3) := by
  generalize hu : s.supplied b.vbatKept (!s.power.railInRange.getLsbD 8) (!s.power.railInRange.getLsbD 9) = u
  have hstart : exec (.bootStart b) s = .next (u.powerUp.bootChain b) := by
    show execBootStart b s = _
    simp only [execBootStart, hmode, harmed, if_true, hu]
  have hpower : u.powerUp.power.railInRange = 0x3FF := by
    rw [← hu]
    exact supplied_railInRange ..
  refine ⟨_, hstart, State.bootChain_pairId .., ?_, State.bootChain_ends b rfl rfl rfl⟩
  rw [(State.bootChain_frame u.powerUp b).2.2.2.2.2.1, hpower]

theorem bootStart_chain {s : State} (b : BootInput) (hmode : s.ms.mode = .m1) (hstep : s.ms.bootStep = 0) :
    exec (.bootStart b) s = .next (s.bootChain b) := by
  show execBootStart b s = _
  simp only [execBootStart, hmode, hstep, if_true]

theorem bootStart_selects {s : State} {b : BootInput} {x : ImageSet} (hmode : s.ms.mode = .m1) (hclock : b.refclkRc = true)
    (hfailed : (s.bootRec s.committed).failed = false)
    (htries : (s.bootRec s.committed).tried < 3 ∨ (s.bootRec s.committed).lkg = true) (hcheck : s.checkBank s.committed = .inr x) :
    let t := s.bootChain b
    t.ms.mode = .m1 ∧ t.ms.bootStep = 1 ∧ t.ms.bank = s.committed ∧ t.ms.running = some x ∧
      t.fallback = false ∧ t.ms.maps.locked = true ∧ t.ms.maps.blocks = (List.range 27).map blockWorld ∧ t.ms.maps.regions.length = 256 ∧
      (t.bootRec s.committed).tried = (s.bootRec s.committed).tried + 1 := by
  generalize hc : s.committed = c at *
  have hselect : (s.prepared b).selectBank = ((s.prepared b).modBoot c fun r => { r with tried := r.tried + 1 }, some (c, x)) := by
    rw [← hc, ← s.prepared_committed b]
    exact State.selectBank_committed (by rw [State.prepared_committed, State.prepared_bootRec, hc, hfailed])
      (by rw [State.prepared_committed, State.prepared_bootRec, hc]; exact htries)
      (by rw [State.prepared_committed, State.prepared_checkBank, hc, hcheck])
  generalize hu : (s.prepared b).modBoot c (fun r => { r with tried := r.tried + 1 }) = u at hselect
  have hchain : s.bootChain b = u.adopt c x :=
    (State.bootChain_selected hclock (congrArg Prod.snd hselect)).trans (by rw [hselect])
  have hmode' : (u.adopt c x).ms.mode = .m1 := by
    have hlasting : (u.adopt c x).lasting = s.takeMark.lasting := by
      rw [State.adopt_lasting, ← hu, State.modBoot_lasting, State.prepared_lasting]
    exact (State.lasting_eq hlasting).1.trans hmode
  have hbanks := u.adopt_banks c x
  simp only [State.banks, Prod.mk.injEq] at hbanks
  obtain ⟨hbank, hrunning, hbootA, hbootB, hflashA, hflashB⟩ := hbanks
  have hrec : (u.adopt c x).bootRec c = { s.bootRec c with tried := (s.bootRec c).tried + 1 } := by
    have hadopt : (u.adopt c x).bootRec c = u.bootRec c := by simp only [State.bootRec, hbootA, hbootB]
    rw [hadopt, ← hu, State.modBoot_bootRec, State.prepared_bootRec]
  have hcommitted : (u.adopt c x).committed = c := by
    have hadopt : (u.adopt c x).committed = u.committed := by simp only [State.committed, hbootA, hbootB, hflashA, hflashB]
    have htried : u.committed = (s.prepared b).committed := by
      rw [← hu]
      cases c <;> rfl
    rw [hadopt, htried, State.prepared_committed, hc]
  dsimp only
  rw [hchain]
  exact ⟨hmode', rfl, hbank, hrunning, by simp [State.fallback, hbank, hcommitted], rfl, rfl, by simp [State.adopt, State.writeMaps],
    by rw [hrec]⟩

theorem bootStart_noImage {s : State} {b : BootInput} (hclock : b.refclkRc = true) (hstill : s.ms.inTransition = false)
    (h : ∀ bank, ∃ e, s.checkBank bank = .inl e) : (s.bootChain b).ms.mode = .m7 ∧ (s.bootChain b).ms.safeCause = 3 := by
  have hnone : (s.prepared b).selectBank.2 = none :=
    State.selectBank_none fun bank => (h bank).imp fun e he => (s.prepared_checkBank b bank).trans he
  have hlasting : (s.prepared b).selectBank.1.lasting = s.takeMark.lasting := by rw [State.selectBank_lasting, State.prepared_lasting]
  rw [State.bootChain_noImage hclock hnone]
  exact State.changeMode_mode _ .m7 10 3 ((State.lasting_eq hlasting).2.1.trans hstill)

end Sys2Proof.Claims

section
open Sys2Proof Sys2Proof.Machine Sys2Proof.Claims

/-- Settles O36: the chain by its stages, the loop over the banks by what the check of each bank says. -/
theorem startSelectsABank : Obligations.StartSelectsABank := by
  intro s b
  refine ⟨bootStart_dormant s b, fun hmode harmed => ?_, fun hmode hstep => ?_, fun hmode hstep hclock => ?_⟩
  · show execBootStart b s = _
    simp [execBootStart, hmode, harmed]
  · show execBootStart b s = _
    simp [execBootStart, hmode, hstep]
  · have hmark := s.bootChain_mark hclock
    exact ⟨_, bootStart_chain b hmode hstep, s.bootChain_pairId b, hmark.1, hmark.2,
      fun _ hfailed htries hcheck => bootStart_selects hmode hclock hfailed htries hcheck,
      fun hstill h => bootStart_noImage hclock hstill h⟩

end

/-! ### The mailboxes in a change of mode -/

namespace Sys2Proof.Machine

@[simp] theorem State.produce_hostMbox (s : State) (w source type : Nat) (body : Bytes) :
    (s.produce w source type body).host.mbox = s.host.mbox := by
  unfold State.produce
  split <;> rfl

@[simp] theorem State.portEvent_hostMbox (s : State) (type port cage reason detail : Nat) :
    (s.portEvent type port cage reason detail).host.mbox = s.host.mbox := produce_hostMbox ..

theorem State.foldl_hostMbox {α : Type} {g : State → α → State} (h : ∀ s e, (g s e).host.mbox = s.host.mbox) (es : List α) (s : State) :
    (es.foldl g s).host.mbox = s.host.mbox := by
  induction es generalizing s with
  | nil => rfl
  | cons e es ih => exact (ih (g s e)).trans (h s e)

@[simp] theorem State.siteEvent_hostMbox (s : State) (type site band reason channel : Nat) (value : Int) :
    (s.siteEvent type site band reason channel value).host.mbox = s.host.mbox := foldl_hostMbox (fun s w => by simp) ..

@[simp] theorem State.siteOut_hostMbox (s : State) (site reason : Nat) : (s.siteOut site reason).host.mbox = s.host.mbox := by
  unfold State.siteOut
  dsimp only
  split <;> simp

theorem State.takeDownFor_hostMbox (s : State) (p reason siteReason : Nat) :
    (s.takeDownFor p reason siteReason).host.mbox = s.host.mbox := by
  unfold State.takeDownFor
  split
  · dsimp only
    generalize hu : State.portEvent _ _ _ _ _ = u
    have hu' : u.host.mbox = s.host.mbox := by simp [← hu]
    split <;> simp [hu']
  · rfl

@[simp] theorem State.takeDown_hostMbox (s : State) (p reason : Nat) : (s.takeDown p reason).host.mbox = s.host.mbox :=
  takeDownFor_hostMbox ..

@[simp] theorem State.resetCage_hostMbox (s : State) (c : Nat) : (s.resetCage c).host.mbox = s.host.mbox := by
  unfold State.resetCage
  split
  · exact foldl_hostMbox (fun s p => by simp) ..
  · rfl

@[simp] theorem State.markCage_hostMbox (bus : Nat) (s : State) (c : Nat) : (State.markCage bus s c).host.mbox = s.host.mbox := by
  unfold State.markCage
  split <;> simp

theorem State.recoverBus_hostMbox (s : State) (bus : Nat) (sda : List Bool) : (s.recoverBus bus sda).host.mbox = s.host.mbox := by
  have hmarked (u : State) : ((s.recovery bus sda).marked.foldl (State.markCage bus) u).host.mbox = u.host.mbox :=
    foldl_hostMbox (fun s c => by simp) ..
  have hreset (u : State) : ((s.recovery bus sda).reset.foldl State.resetCage u).host.mbox = u.host.mbox :=
    foldl_hostMbox (fun s c => by simp) ..
  unfold State.recoverBus
  dsimp only
  split <;> simp [hmarked, hreset]

@[simp] theorem State.setDriving_hostMbox (s : State) : s.setDriving.host.mbox = s.host.mbox := by
  have hwake (u : State) (b : Nat) : (u.wakeBus b).host.mbox = u.host.mbox := by
    unfold State.wakeBus
    split
    · rfl
    · exact recoverBus_hostMbox ..
  unfold State.setDriving
  split
  · rfl
  split
  · dsimp only
    rw [foldl_hostMbox hwake]
  · rfl

@[simp] theorem State.allDown_hostMbox (s : State) : s.allDown.host.mbox = s.host.mbox := foldl_hostMbox (fun s p => by simp) ..

@[simp] theorem State.tellMode_hostMbox (s : State) (old : Mode) (t : Nat) : (s.tellMode old t).host.mbox = s.host.mbox := by
  unfold State.tellMode
  simp [State.putEntry, State.setWell]

/-- A change of mode in which no session ends leaves the mailboxes alone. -/
theorem State.changeMode_hostMbox (s : State) (new : Mode) (t cause : Nat) (h : s.svc.session = none) :
    (s.changeMode new t cause).host.mbox = s.host.mbox := by
  cases ht : s.ms.inTransition with
  | true => rw [changeMode_held s new t cause ht]
  | false =>
    obtain ⟨n, hn⟩ := s.depart_eq new
    have hsession : (s.depart new).sessionMode new = s.depart new := by simp [State.sessionMode, hn, h]
    have hdepart : (s.depart new).host = s.host := by rw [hn]
    have harrive : ((s.depart new).arrive new cause).host.mbox = s.host.mbox := by
      simp only [State.arrive, hsession, setDriving_hostMbox, switchRings_frame, State.setAlive, State.setActive, hdepart]
    rw [changeMode_eq s new t cause ht, tellMode_hostMbox, ← harrive]
    split <;> simp

/-- The chain of the start leaves the mailboxes as they are; a session cannot be open in it. -/
theorem State.bootChain_hostMbox (s : State) (b : BootInput) (h : s.svc.session = none) : (s.bootChain b).host.mbox = s.host.mbox := by
  obtain ⟨t, -, -, hhost, -, -, hsvc, hcases⟩ := s.bootChain_stages b
  rcases hcases with hchain | hchain
  · rw [hchain, hhost]
  · rw [hchain, changeMode_hostMbox t .m7 10 3 (by rw [hsvc, h]), hhost]

end Sys2Proof.Machine

/-! ### MODE_REQ and the reset commands -/

namespace Sys2Proof.Machine

/-- What a warm reset keeps of pins and MRAM, and the mailboxes it empties (R43, R46, R65). -/
theorem State.warmReset_keeps (s : State) (cause t : Nat) :
    (s.warmReset cause t).pins.refclkRc = s.pins.refclkRc ∧ (s.warmReset cause t).nv = s.nv.abandon ∧
      (s.warmReset cause t).time.duration = s.time.duration ∧ (s.warmReset cause t).host.mbox = [] ∧
      (s.warmReset cause t).svc.session = none := by
  unfold State.warmReset
  dsimp only
  generalize hu : State.noteMode _ _ _ = u
  have hpins : u.pins = s.pins.inputs := by rw [← hu]; rfl
  have hclock : u.switchRings.pins.refclkRc = u.pins.refclkRc := (congrArg Pins.refclkRc u.switchRings_pins_apart :)
  refine ⟨by rw [hclock, hpins]; rfl, ?_, ?_, ?_, ?_⟩
  all_goals
    simp only [switchRings_frame]
    rw [← hu]
    rfl

/-- A restart adds its cause to RESET_CAUSE, and keeps the clean mark for its own entry (R41, R48). -/
theorem State.restart_keeps (s : State) (cause t : Nat) :
    (s.restart cause t).nv.leases = s.nv.leases ∧ (s.restart cause t).nv.staged = [] ∧
      (s.restart cause t).time.duration = s.time.duration ∧ (s.restart cause t).host.mbox = [] := by
  obtain ⟨-, hnv, hduration, hmbox, hsession⟩ := s.warmReset_keeps cause t
  unfold State.restart
  dsimp only
  generalize s.warmReset cause t = u at *
  obtain ⟨v, hlasting, -, -, -, -, -, hcases⟩ := u.bootChain_stages u.presented
  obtain ⟨-, -, -, -, hleases, hstaged, -⟩ := lasting_eq hlasting
  have hchain : (u.bootChain u.presented).nv = v.nv := hcases.elim (congrArg State.nv) fun h => by simp [h]
  have hmark : ∀ w : State, w = (if u.presented.refclkRc = true then u.takeMark else u) →
      w.nv.leases = u.nv.leases ∧ w.nv.staged = u.nv.staged := by
    rintro _ rfl
    split <;> exact ⟨rfl, rfl⟩
  obtain ⟨hleases', hstaged'⟩ := hmark _ rfl
  refine ⟨?_, ?_, ?_, (u.bootChain_hostMbox _ hsession).trans hmbox⟩
  · rw [hchain, hleases, hleases', hnv]
    rfl
  · rw [hchain, hstaged, hstaged', hnv]
    rfl
  · rw [(bootChain_frame u _).2.1, hduration]

end Sys2Proof.Machine

namespace Sys2Proof.Claims
open Machine

theorem restart_restarted (s : State) (cause t : Nat) : Restarted s (s.restart cause t) :=
  bootChain_restarted _ (s.warmReset_ms cause t).1 (warmReset_restarted s cause t)

theorem restart_resetCause (s : State) : (s.restart 3 5).ms.resetCause.getLsbD 3 = true :=
  State.bootChain_resetCause _ _ 3 (by simp [(s.warmReset_ms 3 5).2])

/-! MODE_REQ (R45). -/

theorem modeReqOk_iff (n : Nat) : modeReqOk n = true ↔
    bits n 16 16 = 0x4D52 ∧ ((bit n 4 = true ∧ bits n 0 4 = 0) ∨ (bit n 4 = false ∧ bits n 0 4 = 7)) := by
  unfold modeReqOk
  cases bit n 4 <;> simp

theorem writeModeReq_refused {s : State} {n : Nat} (h : modeReqOk n = false) : s.writeModeReq n = s.setResult 3 := if_pos (by simp [h])

theorem writeModeReq_busy {s : State} {n : Nat} (h : modeReqOk n = true) (ht : s.ms.inTransition = true) :
    s.writeModeReq n = s.setResult 4 := by simp [State.writeModeReq, h, ht]

theorem writeModeReq_safe {s : State} {n : Nat} (h : modeReqOk n = true) (ht : s.ms.inTransition = false) (hsafe : bit n 4 = false) :
    s.writeModeReq n = if s.safeMode then (s.setResult 1).enterSafe 1 else if s.ms.mode = .m7 then s.setResult 1 else s.setResult 2 := by
  simp [State.writeModeReq, h, ht, hsafe]

theorem writeModeReq_warm {s : State} {n : Nat} (h : modeReqOk n = true) (ht : s.ms.inTransition = false) (hwarm : bit n 4 = true) :
    s.writeModeReq n = if s.warmMode then (s.setResult 1).restart 3 5 else s.setResult 2 := by
  simp [State.writeModeReq, h, ht, hwarm]

/-- T18 on request: what the entry to M7 SAFE leaves of the request, the pair and the outputs. -/
theorem enterSafe_requested (s : State) (ht : s.ms.inTransition = false) :
    let t := (s.setResult 1).enterSafe 1
    t.ms.mode = .m7 ∧ t.ms.safeCause = 1 ∧ t.ms.reqResult = 1 ∧ t.ms.synced = false ∧ t.pins.activeOut = false ∧ t.pair.phase = 0 := by
  obtain ⟨hmode, hcause, hactive⟩ := (s.setResult 1).enterSafe_arrives 1 ht
  dsimp only
  have henter : (s.setResult 1).enterSafe 1 = ((s.setResult 1).modPair fun p =>
      { p with phase := 0, check := none, agreement := none, swapped := false, backoff := none }).changeMode .m7 18 1 :=
    if_neg (by simp [State.setResult, ht])
  rw [henter] at hmode hcause hactive ⊢
  generalize hu : State.modPair _ _ = u at hmode hcause hactive ⊢
  have hu' : u.ms.inTransition = false ∧ u.ms.reqResult = 1 ∧ u.pair.phase = 0 := by
    rw [← hu]
    exact ⟨ht, rfl, rfl⟩
  obtain ⟨n, hms⟩ := State.changeMode_ms u .m7 18 1 hu'.1
  have hphase : (u.changeMode .m7 18 1).pair.phase = u.pair.phase := (congrArg Pair.phase (u.changeMode_pair_apart .m7 18 1) :)
  refine ⟨hmode, hcause, ?_, ?_, hactive, hphase.trans hu'.2.2⟩
  · rw [hms]
    exact hu'.2.1
  · rw [hms]
    simp

theorem restart_requested (s : State) : let t := (s.setResult 1).restart 3 5
    (t.ms.mode = .m1 ∨ t.ms.mode = .m7 ∧ t.ms.safeCause = 3) ∧ t.ms.resetCause.getLsbD 3 = true ∧ t.nv.fuses = s.nv.fuses ∧
      t.time.rtc.count = s.time.rtc.count ∧ t.fwd.tables = State.reset.fwd.tables := by
  obtain ⟨hmode, hfuses, -, -, hrtc, hfwd, -⟩ := restart_restarted (s.setResult 1) 3 5
  exact ⟨hmode, restart_resetCause _, hfuses, hrtc, congrArg Fwd.tables hfwd⟩

theorem modeReq_writes {c : Instr} {w : BitVec 32} {s : State} (hanswers : s.answers = true)
    (hc : c = .modeReqSafe w ∨ c = .modeReqWarm w) : exec c s = .next (s.writeModeReq w.toNat) := by
  rcases hc with rfl | rfl
  · exact congrArg Host.Outcome.next (if_pos hanswers)
  · exact congrArg Host.Outcome.next (if_pos hanswers)

end Sys2Proof.Claims

section
open Sys2Proof Sys2Proof.Machine Sys2Proof.Claims

/-- Settles O5, by the branches of the write in their order: key and fields, transition, mode. -/
theorem modeRequestIsJudgedInOrder : Obligations.ModeRequestIsJudgedInOrder := by
  intro s w hanswers key ask c hc
  have hwrites := modeReq_writes hanswers hc
  have hasked (hkey : key = 0x4D52) (h : ask true 0 ∨ ask false 7) : modeReqOk w.toNat = true := (modeReqOk_iff _).2 ⟨hkey, h⟩
  simp only [Gives, hwrites]
  refine ⟨fun h => ?_, fun hkey h ht => ?_, fun hkey hsafe ht => ?_, fun hkey hwarm ht => ?_⟩
  · have hbad : modeReqOk w.toNat = false := by
      rw [← Bool.not_eq_true, modeReqOk_iff]
      exact fun ⟨hkey, hfields⟩ => h.elim (· hkey) (· hfields)
    exact congrArg Host.Outcome.next (writeModeReq_refused hbad)
  · exact congrArg Host.Outcome.next (writeModeReq_busy (hasked hkey h) ht)
  · rw [writeModeReq_safe (hasked hkey (.inr hsafe)) ht hsafe.1]
    refine ⟨fun hmode => ?_, fun hmode => ?_, fun hmode => ?_⟩
    · have hleaves : s.safeMode = true := by simpa [State.safeMode, or_assoc] using hmode
      rw [if_pos hleaves]
      exact ⟨_, rfl, enterSafe_requested s ht⟩
    · simp [State.safeMode, hmode, State.setResult]
    · rcases hmode with hmode | hmode | hmode
      all_goals simp [State.safeMode, hmode, State.setResult]
  · rw [writeModeReq_warm (hasked hkey (.inl hwarm)) ht hwarm.1]
    refine ⟨fun hmode => by simp [State.warmMode, hmode, State.setResult], fun h0 h1 => ?_⟩
    rw [if_pos (by simp [State.warmMode, h0, h1])]
    exact ⟨_, rfl, restart_requested s⟩

end

/-! SYS_WARM_RESET and SYS_SHUTDOWN (R62, R63). -/

namespace Sys2Proof.Claims
open Machine

/-- The response of a reset command lies on top of its ring before the device is reset. -/
theorem Accepted.lastResponse {c : AciSpec} {a : Aci} {s t : State} (h : Accepted c a s)
    (hmbox : t.mbox a.fn.val = (started c a s).mbox a.fn.val) (hprocs : t.procs = s.procs)
    (hdma : t.busMaster a.fn.val = s.busMaster a.fn.val) :
    ∃ y, (t.answer (c.req a s) okReply).lastResponse a.fn.val = [(a.fn.val, y)] ∧ y.tag = a.tagWord.toNat % 4096 ∧ y.status = stOk := by
  obtain ⟨-, -, y, hy, htag, hstatus, -⟩ := h.answer_responded okReply hmbox hprocs hdma
  refine ⟨y, ?_, htag, hstatus⟩
  unfold State.lastResponse
  rw [hy]
  rfl

theorem started_busMaster (c : AciSpec) (a : Aci) (s : State) : (started c a s).busMaster a.fn.val = s.busMaster a.fn.val := by
  have htaken : (started c a s).busMaster a.fn.val = (s.takeDesc a.fn.val).busMaster a.fn.val := rfl
  rw [htaken, State.takeDesc_busMaster]

/-- The nodes and the clean mark are saved where the command asks for it (R48, R62). -/
def saved (save : Bool) (s : State) : State := if save then s.saveNodes else s

theorem saved_keeps (save : Bool) (s : State) : (saved save s).host = s.host ∧ (saved save s).procs = s.procs ∧
    (saved save s).time = s.time ∧ (saved save s).pins = s.pins ∧ (saved save s).pending = s.pending ∧
    (saved save s).nv.fuses = s.nv.fuses ∧ (saved save s).nv.leases = s.nv.leases ∧
    (save = true → (saved save s).nv.cleanMark = true) := by
  cases save <;> simp [saved, State.saveNodes]

theorem saved_answers (c : AciSpec) {a : Aci} {s : State} (h : Accepted c a s) (save : Bool) :
    ∃ y, ((saved save (started c a s)).answer (c.req a s) okReply).lastResponse a.fn.val = [(a.fn.val, y)] ∧
      y.tag = a.tagWord.toNat % 4096 ∧ y.status = stOk := by
  obtain ⟨hhost, hprocs, -⟩ := saved_keeps save (started c a s)
  refine h.lastResponse ?_ (hprocs.trans (by simp [started, taken])) (Eq.trans ?_ (started_busMaster c a s))
  · rw [State.mbox, State.mbox, hhost]
  · rw [State.busMaster, State.busMaster, hhost]

/-- What a reset command has kept when its response is written. -/
theorem saved_answer_keeps (c : AciSpec) (a : Aci) (s : State) (save : Bool) :
    let t := (saved save (started c a s)).answer (c.req a s) okReply
    t.time = s.time ∧ t.pins = s.pins ∧ t.pending = s.pending ∧ t.nv.fuses = s.nv.fuses ∧ t.nv.leases = s.nv.leases ∧
      (save = true → t.nv.cleanMark = true) := by
  obtain ⟨-, -, htime, hpins, hpending, hfuses, hleases, hmark⟩ := saved_keeps save (started c a s)
  simp only [State.answer_frame, htime, hpins, hpending, hfuses, hleases]
  refine ⟨?_, ?_, ?_, ?_, ?_, hmark⟩
  all_goals simp [started, taken]

theorem sysWarmReset_restarts {a : Aci} {s : State} (hacc : accepted sysWarmResetSpec a s = true) :
    Gives (.sysWarmReset a) s fun t =>
      (∃ y, t.host.parting = [(a.fn.val, y)] ∧ y.tag = a.tagWord.toNat % 4096 ∧ y.status = stOk) ∧
      (t.ms.mode = .m1 ∨ t.ms.mode = .m7 ∧ t.ms.safeCause = 3) ∧ t.ms.resetCause.getLsbD 3 = true ∧
      (s.pins.refclkRc = true → t.nv.cleanMark = false ∧
        ((sysWarmResetSpec.req a s).fl 16 0 = true → t.ms.unclean = false)) ∧
      t.mesh.nodes = [] ∧ t.nv.fuses = s.nv.fuses ∧ t.nv.leases = s.nv.leases ∧ t.nv.staged = [] ∧
      t.time.duration = s.time.duration ∧ t.time.rtc.count = s.time.rtc.count ∧ t.pending = s.pending ∧ (t.mbox 0).enable = false := by
  have hacc' := accepted_iff.1 hacc
  have hrun : exec (.sysWarmReset a) s = .next (sysWarmResetSpec.effect (sysWarmResetSpec.req a s) (started sysWarmResetSpec a s)).1 :=
    congrArg Host.Outcome.next (hacc'.exec_eq.trans (run_deferred rfl))
  refine ⟨_, hrun, ?_⟩
  generalize hsave : (sysWarmResetSpec.req a s).fl 16 0 = save
  have hresponse := saved_answers sysWarmResetSpec hacc' save
  obtain ⟨htime, hpins, hpending, hfuses, hleases, hmark⟩ := saved_answer_keeps sysWarmResetSpec a s save
  generalize hu : (saved save (started sysWarmResetSpec a s)).answer (sysWarmResetSpec.req a s) okReply = u at *
  have heffect : (sysWarmResetSpec.effect (sysWarmResetSpec.req a s) (started sysWarmResetSpec a s)).1 =
      { u.restart 3 5 with host := { (u.restart 3 5).host with parting := u.lastResponse a.fn.val } } := by
    rw [← hu, ← hsave]
    rfl
  obtain ⟨hmode, hfuses', -, -, hrtc, -, -, hmesh, -, hpending'⟩ := restart_restarted u 3 5
  obtain ⟨hleases', hstaged, hduration, hmbox⟩ := u.restart_keeps 3 5
  rw [heffect]
  refine ⟨hresponse, hmode, restart_resetCause u, fun hclock => ?_, congrArg Mesh.nodes hmesh, hfuses'.trans hfuses, hleases'.trans hleases,
    hstaged, hduration.trans (congrArg Time.duration htime), hrtc.trans (congrArg (·.rtc.count) htime), hpending'.trans hpending, ?_⟩
  · have hwarm := u.warmReset_keeps 3 5
    have hclock' : (u.warmReset 3 5).presented.refclkRc = true := by rw [State.presented, hwarm.1, hpins, hclock]
    obtain ⟨hunclean, herased⟩ := (u.warmReset 3 5).bootChain_mark hclock'
    refine ⟨herased, fun h => hunclean.trans ?_⟩
    rw [hwarm.2.1]
    simp [Nvm.abandon, hmark h]
  · show (tget {} (u.restart 3 5).host.mbox 0 : Mbox).enable = false
    rw [hmbox]
    rfl

theorem sysShutdown_dormant {a : Aci} {s : State} (hacc : accepted sysShutdownSpec a s = true) :
    Gives (.sysShutdown a) s fun t =>
      (∃ y, t.host.parting = [(a.fn.val, y)] ∧ y.tag = a.tagWord.toNat % 4096 ∧ y.status = stOk) ∧
      t.ms.mode = .m0 ∧ t.ms.armed = false ∧ t.ms.resetCause.getLsbD 7 = true ∧ t.nv.cleanMark = true ∧
      t.pins.activeOut = false ∧ t.pins.aliveOut = false ∧ t.nv.fuses = s.nv.fuses ∧ t.time.rtc.count = s.time.rtc.count ∧
      t.pending = s.pending := by
  have hacc' := accepted_iff.1 hacc
  have hrun : exec (.sysShutdown a) s = .next (sysShutdownSpec.effect (sysShutdownSpec.req a s) (started sysShutdownSpec a s)).1 :=
    congrArg Host.Outcome.next (hacc'.exec_eq.trans (run_deferred rfl))
  refine ⟨_, hrun, ?_⟩
  have hresponse := saved_answers sysShutdownSpec hacc' true
  obtain ⟨htime, -, hpending, hfuses, -, hmark⟩ := saved_answer_keeps sysShutdownSpec a s true
  generalize hu : (saved true (started sysShutdownSpec a s)).answer (sysShutdownSpec.req a s) okReply = u at *
  have heffect : (sysShutdownSpec.effect (sysShutdownSpec.req a s) (started sysShutdownSpec a s)).1 =
      { (u.addCause 7).dormant with
        ms := { (u.addCause 7).dormant.ms with armed := false }
        host := { (u.addCause 7).dormant.host with
          parting := u.lastResponse a.fn.val
          partingEntry := changeBody u.ms.mode .m0 3 0 0 false } } := by
    rw [← hu]
    rfl
  rw [heffect]
  refine ⟨hresponse, rfl, rfl, ?_, hmark rfl, rfl, rfl, hfuses, congrArg (·.rtc.count) htime, hpending⟩
  simp [State.dormant, State.fresh, State.addCause]

end Sys2Proof.Claims

section
open Sys2Proof Sys2Proof.Machine Sys2Proof.Claims

/-- Settles O17: the response is written to the ring and kept for the host, then the device restarts from what the command saved. -/
theorem resetCommandsAnswerThenRestart : Obligations.ResetCommandsAnswerThenRestart :=
  ⟨fun _ _ => sysWarmReset_restarts, fun _ _ => sysShutdown_dormant⟩

end

/-! ### The steps of the start after the bank is selected -/

namespace Sys2Proof.Machine

/-- MRAM and fuses but for the key store. -/
def Nvm.offKeys (n : Nvm) : Nvm := { n with keys := {} }

theorem Nvm.offKeys_leases (n : Nvm) : n.offKeys.leases = n.leases := rfl

theorem State.foldl_offKeys {α : Type} {g : State → α → State} (h : ∀ s e, (g s e).nv.offKeys = s.nv.offKeys) (es : List α) (s : State) :
    (es.foldl g s).nv.offKeys = s.nv.offKeys := by
  induction es generalizing s with
  | nil => rfl
  | cons e es ih => exact (ih (g s e)).trans (h s e)

@[simp] theorem State.setSlot_offKeys (s : State) (n : Nat) (x : KeySlot) : (s.setSlot n x).nv.offKeys = s.nv.offKeys := rfl

theorem State.markUnusable_offKeys (s : State) (n : Nat) : (s.markUnusable n).nv.offKeys = s.nv.offKeys := by
  unfold State.markUnusable
  simp only [settleKeys_frame, securityEntry_frame]
  rfl

/-- The check of the tags at the M1 entry writes the key store alone (R498). -/
theorem State.tellKeys_offKeys (s : State) : s.tellKeys.nv.offKeys = s.nv.offKeys := by
  unfold State.tellKeys
  dsimp only
  rw [foldl_offKeys markUnusable_offKeys]
  split
  · rfl
  next n bad _ =>
    have hmarks (u : State) : (bad.foldl (fun s i => s.securityEntry 0x0401 i (s.keySlot i).kind (s.keySlot i).owner 0) u).nv = u.nv :=
      foldl_nv _ (fun s i => by simp) ..
    simp only [securityEntry_frame, settleKeys_frame, hmarks]

/-! The epochs of the domains (R454). -/

/-- An epoch that has advanced, with its first lease. -/
def Lease.advanced (l : Lease) : Lease := { epoch := (l.epoch + 1) % 2 ^ 32, leaseEnd := 65536 }

theorem State.foldl_leases {g : State → Nat → State} {f : Tab Lease → Nat → Tab Lease}
    (h : ∀ s d, (g s d).nv.leases = f s.nv.leases d) (ds : List Nat) (s : State) :
    (ds.foldl g s).nv.leases = ds.foldl f s.nv.leases := by
  induction ds generalizing s with
  | nil => rfl
  | cons d ds ih => exact (ih (g s d)).trans (congrArg (ds.foldl f) (h s d))

theorem State.advanceAll_leases (s : State) :
    s.advanceAll.nv.leases = (List.range 64).foldl (fun t d => tset {} t d (tget {} t d).advanced) s.nv.leases := by
  unfold State.advanceAll
  exact foldl_leases (fun u d => by simp [Lease.advanced, State.lease]) ..

/-- Entries below a bound are each updated once, the others not at all. -/
theorem tget_foldl_range {α : Type} [DecidableEq α] (dflt : α) (f : α → α) (t : Tab α) (n d : Nat) :
    tget dflt ((List.range n).foldl (fun t d => tset dflt t d (f (tget dflt t d))) t) d =
      if d < n then f (tget dflt t d) else tget dflt t d := by
  induction n with
  | zero => rfl
  | succ n ih =>
    rw [List.range_succ, List.foldl_append]
    by_cases hd : d = n
    · subst hd
      simp [ih]
    · have hlt : d < n + 1 ↔ d < n := by omega
      simp [tget_tset_ne _ _ _ hd, ih, hlt]

theorem State.advanceAll_lease (s : State) (d : Fin 64) : s.advanceAll.lease d.val = (s.lease d.val).advanced := by
  unfold State.lease
  rw [advanceAll_leases, tget_foldl_range, if_pos d.isLt]

theorem State.resumeNodes_nv (s : State) : s.resumeNodes.nv = { s.nv with resume := [] } := by
  simp [State.resumeNodes]

/-! What the entries told at the load of the processors leave of the modes' record. -/

theorem State.tellDie_ms (s : State) : s.tellDie.ms = { s.ms with dieFaults := [] } := by
  simp [State.tellDie]

theorem State.tellSlices_ms (s : State) : s.tellSlices.ms = { s.ms with dieFaults := [] } := by
  unfold State.tellSlices
  dsimp only
  generalize hu : List.foldl State.tellUnusable _ _ = u
  have hu' : u.ms = s.ms := by simp [← hu]
  have hdie : (ite (u.sliceCause = 2) (u.levelFault 4 4 0 5) u).tellDie.ms = { s.ms with dieFaults := [] } := by
    rw [tellDie_ms]
    split <;> simp [hu']
  simp [hdie]

theorem State.tellEntries_ms (s : State) : s.tellEntries.ms = { s.ms with noted := [] } := by
  simp [State.tellEntries]

theorem State.bootSettings_cfg {s : State} {b : Blob} (hblob : s.nv.blob = some b) (hcause : s.ms.blobCause = 0) :
    s.bootSettings.cfg = s.effective b := by
  simp [State.bootSettings, hblob, hcause]

theorem Pins.apart_aliveOut (p : Pins) : p.apart.aliveOut = p.aliveOut := rfl

/-! Leaving M1 BOOT. -/

theorem State.toSolo_mode {s : State} (h : s.ms.inTransition = false) (t : Nat) : (s.toSolo t).ms.mode = .m3 := by
  unfold State.toSolo
  rw [if_neg (by simp [h])]
  exact (changeMode_mode _ .m3 t 0 (by simpa using h)).1

theorem State.toStandby_mode {s : State} (h : s.ms.inTransition = false) (t : Nat) : (s.toStandby t).ms.mode = .m5 := by
  unfold State.toStandby
  rw [if_neg (by simp [h])]
  dsimp only
  generalize hu : s.modPair _ = u
  have hmode : (u.changeMode .m5 t).ms.mode = .m5 := (changeMode_mode u .m5 t 0 (by rw [← hu]; exact h)).1
  split
  · exact hmode
  · simpa using hmode

theorem State.leaveBoot_mode {s : State} (h : s.ms.inTransition = false) :
    (s.cfg.pair.pairingEn = false → s.leaveBoot.ms.mode = .m3) ∧
      (s.cfg.pair.pairingEn = true → s.pins.activeIn = true → s.leaveBoot.ms.mode = .m5) ∧
      (s.cfg.pair.pairingEn = true → s.pins.activeIn = false → s.pins.pairId = false → s.leaveBoot.ms.mode = .m3) ∧
      (s.cfg.pair.pairingEn = true → s.pins.activeIn = false → s.pins.pairId = true →
        s.leaveBoot = { s with ms := { s.ms with bootStep := 4 } }) := by
  unfold State.leaveBoot
  refine ⟨fun hpair => ?_, fun hpair hactive => ?_, fun hpair hactive hid => ?_, fun hpair hactive hid => ?_⟩
  · rw [if_neg (by simp [hpair]), toSolo_mode h]
  · rw [if_pos hpair, if_pos hactive, toStandby_mode h]
  · rw [if_pos hpair, if_neg (by simp [hactive]), if_neg (by simp [hid]), toSolo_mode h]
  · rw [if_pos hpair, if_neg (by simp [hactive]), if_pos hid]

end Sys2Proof.Machine

namespace Sys2Proof.Claims
open Machine

/-! The self-test (R627 to R633). -/

theorem Restarted.congr {s u t : State} (hnv : u.nv = s.nv) (htime : u.time = s.time) (hpending : u.pending = s.pending)
    (h : Restarted u t) : Restarted s t := by
  simpa only [Restarted, hnv, htime, hpending] using h

/-- SAFE_CAUSE for T10 after the self-test: what the slices call for, unless a core die fault stands. -/
def testedCause (s : State) : Nat :=
  if s.sliceCause = 2 ∨ s.ms.bootSafe = 2 then 2 else if s.sliceCause = 7 then 7 else s.ms.bootSafe

/-- Step 6 follows, with the cause kept for T10. -/
def tested (s : State) : State := { s with ms := { s.ms with bootStep := 2, bootSafe := testedCause s } }

theorem sliceCause_core {s : State} (h : (13, 0) ∈ s.bist.unusable) : s.sliceCause = 2 := by
  simp [State.sliceCause, h]

theorem sliceCause_nil (s : State) : (s.applySlices []).sliceCause = 0 := rfl

theorem bootSelfTestDone_crashes {s : State} {l : List (Nat × Nat)} (hmode : s.ms.mode = .m1) (hstep : s.ms.bootStep = 1)
    (hcrypto : (s.applySlices (s.failedSlices l)).noCrypto = true) : Gives (.bootSelfTestDone l) s (Restarted s) := by
  generalize hu : s.applySlices (s.failedSlices l) = u at hcrypto
  have hexec : exec (.bootSelfTestDone l) s = .next u.crash := by
    show execBootSelfTestDone l s = _
    simp [execBootSelfTestDone, hmode, hstep, hu, hcrypto]
  have hrestart := crash_restarted u (by rw [← hu, (State.applySlices_frame ..).1, hmode]; decide)
  exact ⟨_, hexec, hrestart.1.congr (by simp [← hu]) (by simp [← hu]) (by simp [← hu])⟩

theorem bootSelfTestDone_passes {s : State} {l : List (Nat × Nat)} (hmode : s.ms.mode = .m1) (hstep : s.ms.bootStep = 1)
    (hcrypto : (s.applySlices (s.failedSlices l)).noCrypto = false) : Gives (.bootSelfTestDone l) s fun t =>
      Only [.ms, .ports, .qos, .radio, .pins, .bist] s t ∧ t.ms.mode = .m1 ∧ t.ms.bootStep = 2 ∧ t.bist.unusable = s.failedSlices l ∧
        t.bist.spared = sparing (s.failedSlices l) ∧ ((13, 0) ∈ s.failedSlices l → t.ms.bootSafe = 2) ∧
        (s.failedSlices l = [] → t.ms.bootSafe = s.ms.bootSafe) := by
  have hexec : exec (.bootSelfTestDone l) s = .next (State.setRings (tested (s.applySlices (s.failedSlices l)))) := by
    show execBootSelfTestDone l s = _
    simp only [execBootSelfTestDone, hmode, hstep, hcrypto, tested, testedCause]
    rfl
  refine ⟨_, hexec, ?_⟩
  generalize s.failedSlices l = failed
  have hms : (s.applySlices failed).ms = s.ms := by simp
  refine ⟨?_, ?_, rfl, rfl, rfl, fun hcore => ?_, fun hnone => ?_⟩
  · simp (disch := decide) only [tested, only_setRings, only_ms_update, only_applySlices, Only.refl]
  · simp [tested, hmode]
  · have hcause : (s.applySlices failed).sliceCause = 2 := sliceCause_core hcore
    simp [tested, testedCause, hcause]
  · subst hnone
    simp only [State.setRings_frame, tested, testedCause, sliceCause_nil, hms]
    split <;> simp_all

/-! The load of the processors (R44, R51, R454, R457). -/

/-- The processors run, with the settings in force (R51 steps 6 and 7). -/
def settingsTaken (s : State) : State :=
  let s := { s with procs := { s.procs with loaded := true }, ms := { s.ms with bootStep := 3 } }
  (s.setAlive.bootSettings).selectSources.setRings

/-- What the start had to tell goes to the Wells (R44, R501, R624, R634, R683). -/
def startTold (s : State) : State :=
  let s := s.tellEntries.tellRails
  let s := s.ms.rejected.foldl (fun s x => s.updateEntry 0x0B03 x.1 x.2.1 x.2.2) s
  let s := s.tellSlices.tellKeys
  s.ms.holdovers.foldl (fun s x => s.timeEvent 0x0501 x.1 (leBytes 1 x.1 ++ leBytes 1 (x.2 + 12))) s

/-- The epochs go on from where they stand: advanced after an unclean end, else resumed (R454, R457). -/
def epochsTaken (u : State) : State := if u.ms.unclean then u.advanceAll else u.resumeNodes

/-- PROCESSORS_LOADED in its place: the settings, what is told, the epochs, and the drive of ACTIVE_OUT. -/
def loadTaken (s : State) : State := (epochsTaken (startTold (settingsTaken s))).setDriving

theorem execProcessorsLoaded_eq (s : State) :
    execProcessorsLoaded s = .next (if s.ms.mode ≠ .m1 ∨ s.ms.bootStep ≠ 2 then s else loadTaken s) := by
  unfold execProcessorsLoaded loadTaken epochsTaken startTold settingsTaken
  with_reducible rfl

theorem processorsLoaded_eq {s : State} (hmode : s.ms.mode = .m1) (hstep : s.ms.bootStep = 2) :
    exec .processorsLoaded s = .next (loadTaken s) :=
  (execProcessorsLoaded_eq s).trans (congrArg Host.Outcome.next (if_neg (by simp [hmode, hstep])))

theorem settingsTaken_keeps (s : State) : (settingsTaken s).ms = { s.ms with bootStep := 3 } ∧
    (settingsTaken s).procs = { s.procs with loaded := true } ∧ (settingsTaken s).nv = s.nv := by
  simp [settingsTaken, State.setAlive]

theorem settings_aliveOut (u : State) : u.bootSettings.selectSources.setRings.pins.aliveOut = u.pins.aliveOut := by
  rw [← Pins.apart_aliveOut, State.setRings_pins_apart, Pins.apart_aliveOut]
  simp

theorem settingsTaken_aliveOut {s : State} (hmode : s.ms.mode = .m1) : (settingsTaken s).pins.aliveOut = true := by
  refine (settings_aliveOut _).trans ?_
  simp [State.setAlive, State.noImage, hmode]

theorem settingsTaken_cfg {s : State} {b : Blob} (hblob : s.nv.blob = some b) (hcause : s.ms.blobCause = 0) :
    (settingsTaken s).cfg = s.effective b := by
  simp only [settingsTaken, State.setRings_frame, State.selectSources_frame]
  exact State.bootSettings_cfg hblob hcause

theorem startTold_keeps (s : State) : (startTold s).ms = { s.ms with noted := [], dieFaults := [] } ∧ (startTold s).procs = s.procs ∧
    (startTold s).pins = s.pins ∧ (startTold s).cfg = s.cfg := by
  simp [startTold, State.tellSlices_ms, State.tellEntries_ms]

theorem startTold_leases (s : State) : (startTold s).nv.leases = s.nv.leases := by
  rw [← Nvm.offKeys_leases, ← Nvm.offKeys_leases s.nv]
  simp [startTold, State.tellKeys_offKeys]

theorem epochsTaken_frame (u : State) : (epochsTaken u).ms = u.ms ∧ (epochsTaken u).procs = u.procs ∧ (epochsTaken u).pins = u.pins ∧
    (epochsTaken u).cfg = u.cfg := by
  unfold epochsTaken
  split <;> simp

theorem epochsTaken_unclean {u : State} (h : u.ms.unclean = true) (d : Fin 64) : (epochsTaken u).lease d.val = (u.lease d.val).advanced := by
  rw [epochsTaken, if_pos h, State.advanceAll_lease]

theorem epochsTaken_clean {u : State} (h : u.ms.unclean = false) : (epochsTaken u).nv = { u.nv with resume := [] } := by
  rw [epochsTaken, if_neg (by simp [h]), State.resumeNodes_nv]

/-- The last two actions of the load: the epochs, and the drive of ACTIVE_OUT. -/
theorem setDriving_epochsTaken (u : State) : (epochsTaken u).setDriving.ms = u.ms ∧ (epochsTaken u).setDriving.procs = u.procs ∧
    (epochsTaken u).setDriving.pins.aliveOut = u.pins.aliveOut ∧ (epochsTaken u).setDriving.cfg = u.cfg ∧
    (epochsTaken u).setDriving.nv = (epochsTaken u).nv := by
  obtain ⟨hms, hprocs, hpins, hcfg⟩ := epochsTaken_frame u
  generalize epochsTaken u = v at *
  have hdrives : v.setDriving.pins.aliveOut = v.pins.aliveOut := by
    rw [← Pins.apart_aliveOut, State.setDriving_pins_apart, Pins.apart_aliveOut]
  simp [hms, hprocs, hpins, hcfg, hdrives]

theorem processorsLoaded_starts {s : State} (hmode : s.ms.mode = .m1) (hstep : s.ms.bootStep = 2) :
    Gives .processorsLoaded s fun t => t.procs.loaded = true ∧ t.ms.mode = .m1 ∧ t.ms.bootStep = 3 ∧
      t.ms.noted = [] ∧ t.pins.aliveOut = true ∧
      (∀ b, s.nv.blob = some b → s.ms.blobCause = 0 → t.cfg = s.effective b) ∧
      (s.ms.unclean = true → ∀ d : Fin 64, t.lease d.val = { epoch := ((s.lease d.val).epoch + 1) % 2 ^ 32, leaseEnd := 65536 }) ∧
      (s.ms.unclean = false → t.nv.resume = [] ∧ t.nv.leases = s.nv.leases) := by
  refine ⟨_, processorsLoaded_eq hmode hstep, ?_⟩
  obtain ⟨hums, huprocs, hunv⟩ := settingsTaken_keeps s
  have hualive := settingsTaken_aliveOut hmode
  have hucfg {b : Blob} := settingsTaken_cfg (s := s) (b := b)
  unfold loadTaken
  generalize settingsTaken s = u at *
  obtain ⟨hvms, hvprocs, hvpins, hvcfg⟩ := startTold_keeps u
  have hvleases : (startTold u).nv.leases = s.nv.leases := by rw [startTold_leases, hunv]
  generalize startTold u = v at *
  obtain ⟨hms, hprocs, halive, hcfg, hnv⟩ := setDriving_epochsTaken v
  rw [hvms, hums] at hms
  have hunclean : v.ms.unclean = s.ms.unclean := by rw [hvms, hums]
  refine ⟨by rw [hprocs, hvprocs, huprocs], by rw [hms]; exact hmode, by rw [hms], by rw [hms], by rw [halive, hvpins, hualive],
    fun b hblob hcause => by rw [hcfg, hvcfg, hucfg hblob hcause], fun h d => ?_, fun h => ?_⟩
  · rw [State.lease, hnv]
    refine (epochsTaken_unclean (hunclean.trans h) d).trans ?_
    rw [State.lease, hvleases]
    rfl
  · rw [hnv, epochsTaken_clean (hunclean.trans h)]
    exact ⟨rfl, hvleases⟩

/-! The end of the chain (R42). -/

theorem bootComplete_leaves {s : State} (hmode : s.ms.mode = .m1) (hstep : s.ms.bootStep = 3) (hstill : s.ms.inTransition = false) :
    Gives .bootComplete s fun t =>
      (s.safeBoot ≠ 0 → t.ms.mode = .m7 ∧ t.ms.safeCause = s.safeBoot) ∧
      (s.safeBoot = 0 → s.ms.migrating = true → t.ms.mode = .m2) ∧
      (s.safeBoot = 0 → s.ms.migrating = false →
        (s.cfg.pair.pairingEn = false → t.ms.mode = .m3) ∧
        (s.cfg.pair.pairingEn = true → s.pins.activeIn = true → t.ms.mode = .m5) ∧
        (s.cfg.pair.pairingEn = true → s.pins.activeIn = false → s.pins.pairId = false → t.ms.mode = .m3) ∧
        (s.cfg.pair.pairingEn = true → s.pins.activeIn = false → s.pins.pairId = true →
          t = { s with ms := { s.ms with bootStep := 4 } })) := by
  refine ⟨_, congrArg Host.Outcome.next (if_neg (by simp [hmode, hstep])), fun hsafe => ?_, fun hsafe hmigrate => ?_, fun hsafe hmigrate => ?_⟩
  · rw [if_pos hsafe]
    exact State.changeMode_mode s .m7 10 s.safeBoot hstill
  · rw [if_neg (not_not.2 hsafe), if_pos hmigrate]
    exact (State.changeMode_mode s .m2 7 0 hstill).1
  · rw [if_neg (not_not.2 hsafe), if_neg (by simp [hmigrate])]
    exact State.leaveBoot_mode hstill

end Sys2Proof.Claims

section
open Sys2Proof Sys2Proof.Machine Sys2Proof.Claims

/-- Settles O37: each step of the start from its own equation. -/
theorem startStepsFollowInOrder : Obligations.StartStepsFollowInOrder := by
  intro s hmode
  refine ⟨fun l hstep => ⟨bootSelfTestDone_crashes hmode hstep, bootSelfTestDone_passes hmode hstep⟩, processorsLoaded_starts hmode,
    bootComplete_leaves hmode, fun hstep hstill hactive => ?_, fun hwaits => ?_⟩
  · have hwait : exec .pairingWaitExpiry s = .next (s.toSolo 8) := congrArg Host.Outcome.next (if_pos (by simp [hmode, hstep, hactive]))
    exact ⟨_, hwait, State.toSolo_mode hstill 8⟩
  · refine congrArg Host.Outcome.next (if_neg ?_)
    rintro ⟨-, hstep, hactive⟩
    exact hwaits.elim (· hstep) fun h => by simp [h] at hactive

end

/-! ### Migration and the last known good mark -/

namespace Sys2Proof.Machine

/-! Of the modes' record, a change of mode leaves what migration set (R56). -/

theorem State.changeMode_migrated (s : State) (new : Mode) (t cause : Nat) :
    (s.changeMode new t cause).ms.migrating = s.ms.migrating ∧ (s.changeMode new t cause).ms.blobVersion = s.ms.blobVersion := by
  rcases Bool.eq_false_or_eq_true s.ms.inTransition with h | h
  · rw [changeMode_held s new t cause h]
    exact ⟨rfl, rfl⟩
  · obtain ⟨n, hms⟩ := s.changeMode_ms new t cause h
    rw [hms]
    exact ⟨rfl, rfl⟩

theorem State.toSolo_migrated (s : State) (t : Nat) :
    (s.toSolo t).ms.migrating = s.ms.migrating ∧ (s.toSolo t).ms.blobVersion = s.ms.blobVersion := by
  unfold State.toSolo
  split
  · exact ⟨rfl, rfl⟩
  · dsimp only
    generalize hu : State.modPair _ _ = u
    have hms : u.ms = s.ms := by simp [← hu]
    rw [← hms]
    exact u.changeMode_migrated .m3 t 0

theorem State.toStandby_migrated (s : State) (t : Nat) :
    (s.toStandby t).ms.migrating = s.ms.migrating ∧ (s.toStandby t).ms.blobVersion = s.ms.blobVersion := by
  unfold State.toStandby
  split
  · exact ⟨rfl, rfl⟩
  · dsimp only
    generalize hu : State.modPair _ _ = u
    have hms : u.ms = s.ms := by simp [← hu]
    have hkept := u.changeMode_migrated .m5 t 0
    rw [hms] at hkept
    split
    · exact hkept
    · simpa using hkept

theorem State.leaveBoot_migrated (s : State) :
    s.leaveBoot.ms.migrating = s.ms.migrating ∧ s.leaveBoot.ms.blobVersion = s.ms.blobVersion := by
  unfold State.leaveBoot
  repeat' split
  exacts [s.toStandby_migrated 9, ⟨rfl, rfl⟩, s.toSolo_migrated 8, s.toSolo_migrated 8]

/-- With ACTIVE_IN high the start is left for M5 STANDBY or M3 SOLO, by PAIRING_EN (R42). -/
theorem State.leaveBoot_partner {s : State} (hstill : s.ms.inTransition = false) (hactive : s.pins.activeIn = true) :
    s.cfg.pair.pairingEn = true ↔ s.leaveBoot.ms.mode = .m5 := by
  obtain ⟨halone, hpaired, -⟩ := leaveBoot_mode hstill
  refine ⟨fun h => hpaired h hactive, fun h => ?_⟩
  by_contra hpair
  rw [halone (by simpa using hpair)] at h
  cases h

/-! A boot record that is marked failed stays so through the chain (R53). -/

theorem State.modBoot_failed {s : State} {bank other : Bool} {f : BootRec → BootRec} (hf : ∀ r, r.failed = true → (f r).failed = true)
    (h : (s.bootRec bank).failed = true) : ((s.modBoot other f).bootRec bank).failed = true := by
  by_cases hbank : bank = other
  · subst hbank
    rw [modBoot_bootRec]
    exact hf _ h
  · rw [show bank = !other by cases bank <;> cases other <;> simp_all] at h ⊢
    rwa [modBoot_bootRec_not]

theorem State.rejectBank_failed {s : State} {bank : Bool} (other : Bool) (reason : Nat) (h : (s.bootRec bank).failed = true) :
    ((s.rejectBank other reason).bootRec bank).failed = true :=
  modBoot_failed (other := other) (f := fun r => { r with failed := true }) (fun _ _ => rfl) h

theorem State.tryBank_failed {s : State} {bank : Bool} (other committed : Bool) (h : (s.bootRec bank).failed = true) :
    ((s.tryBank other committed).1.bootRec bank).failed = true := by
  have htried := modBoot_failed (other := other) (f := fun r => { r with tried := r.tried + 1 }) (fun _ h => h) h
  unfold State.tryBank
  dsimp only
  repeat' split
  exacts [h, rejectBank_failed other 5 h, htried, rejectBank_failed other _ htried]

theorem State.selectBank_failed {s : State} {bank : Bool} (h : (s.bootRec bank).failed = true) :
    (s.selectBank.1.bootRec bank).failed = true := by
  have hfirst := tryBank_failed s.committed true h
  unfold State.selectBank
  dsimp only
  split
  · exact hfirst
  · exact tryBank_failed _ false hfirst

theorem State.bootRec_congr {s t : State} (h : t.nv = s.nv) (bank : Bool) : t.bootRec bank = s.bootRec bank := by
  unfold State.bootRec
  rw [h]

theorem State.adopt_bootRec (s : State) (bank : Bool) (x : ImageSet) (b : Bool) : (s.adopt bank x).bootRec b = s.bootRec b := by
  obtain ⟨-, -, hA, hB, -, -⟩ : _ ∧ _ ∧ _ ∧ _ ∧ _ ∧ _ := by simpa only [banks, Prod.mk.injEq] using s.adopt_banks bank x
  rw [State.bootRec, hA, hB, State.bootRec]

theorem State.bootChain_failed {s : State} {bank : Bool} (b : BootInput) (h : (s.bootRec bank).failed = true) :
    ((s.bootChain b).bootRec bank).failed = true := by
  rcases Bool.eq_false_or_eq_true b.refclkRc with hclock | hclock
  · have hselected : ((s.prepared b).selectBank.1.bootRec bank).failed = true :=
      selectBank_failed (by rw [prepared_bootRec]; exact h)
    cases hbank : (s.prepared b).selectBank.2 with
    | none =>
      rw [bootChain_noImage hclock hbank, bootRec_congr (s := (s.prepared b).selectBank.1) (by simp)]
      exact hselected
    | some z =>
      rw [bootChain_selected hclock hbank, adopt_bootRec]
      exact hselected
  · rw [bootChain_unclocked hclock, bootRec_congr (s := s) (by simp; rfl)]
    exact h

theorem State.restart_failed {s : State} {bank : Bool} (cause t : Nat) (h : (s.bootRec bank).failed = true) :
    ((s.restart cause t).bootRec bank).failed = true := by
  refine bootChain_failed _ ?_
  have habandon : (s.warmReset cause t).bootRec bank = s.bootRec bank := by
    rw [State.bootRec, (s.warmReset_keeps cause t).2.1]
    rfl
  rw [habandon]
  exact h

end Sys2Proof.Machine

namespace Sys2Proof.Claims
open Machine

theorem migrates_iff (s : State) : s.migrates = true ↔ s.ms.mode = .m2 ∧ s.ms.bootStep = 3 := by
  simp [State.migrates]

/-! MIGRATION_DONE (R56). -/

theorem le_foldl_max {l : List Nat} {x : Nat} (m : Nat) (h : x ∈ l) : x ≤ l.foldl max m :=
  List.foldl_max (l := l) (a := m) ▸ (List.le_max?_getD_of_mem h).trans (le_max_right ..)

/-- The blob that a migration commits: the settings converted, under a sequence number above those there are. -/
def convertedBlob (s : State) (b : Blob) : Blob :=
  { seq := (s.blobs.map (·.seq)).foldl max 0 + 1, version := s.ms.setVersion
    cfg := (migrateCfg b.version s.ms.setVersion (s.effective b)).getD (s.effective b) }

/-- The state in which a migrated device leaves M2 MIGRATE. -/
def migrated (s : State) (b : Blob) : State :=
  State.setRings { s with
    nv := { s.nv with blob := some (convertedBlob s b), oldBlob := some { b with cfg := s.effective b }, journal := none, journalUsed := 0 }
    cfg := (convertedBlob s b).cfg
    ms := { s.ms with blobVersion := s.ms.setVersion, migrating := false } }

theorem migrationDone_eq {s : State} {b : Blob} (hmigrates : s.migrates = true) (hblob : s.nv.blob = some b) :
    exec .migrationDone s = .next (migrated s b).leaveBoot := by
  show execMigrationDone s = _
  unfold execMigrationDone
  rw [if_neg (by simp [hmigrates]), hblob]
  rfl

theorem convertedBlob_newest {s : State} (b : Blob) : ∀ x ∈ s.blobs, x.seq < (convertedBlob s b).seq := fun _ hx =>
  Nat.lt_succ_of_le (le_foldl_max 0 (List.mem_map_of_mem hx))

theorem migrationDone_commits {s : State} {b : Blob} (hmigrates : s.migrates = true) (hblob : s.nv.blob = some b) :
    Gives .migrationDone s fun t =>
      (∃ new, t.nv.blob = some new ∧ new.version = s.ms.setVersion ∧ new.ok = true ∧ ∀ x ∈ s.blobs, x.seq < new.seq) ∧
        t.nv.oldBlob = some { b with cfg := s.effective b } ∧ t.nv.journal = none ∧ t.ms.migrating = false ∧
        t.ms.blobVersion = s.ms.setVersion ∧ (s.pins.activeIn = true → s.ms.inTransition = false → (t.cfg.pair.pairingEn = true ↔ t.ms.mode = .m5)) := by
  refine ⟨_, migrationDone_eq hmigrates hblob, ?_⟩
  have hnv : (migrated s b).leaveBoot.nv = (migrated s b).nv := by simp
  have hcfg : (migrated s b).leaveBoot.cfg = (migrated s b).cfg := by simp
  obtain ⟨hdone, hversion⟩ := (migrated s b).leaveBoot_migrated
  dsimp only
  rw [hnv, hcfg, hdone, hversion]
  exact ⟨⟨convertedBlob s b, rfl, rfl, rfl, convertedBlob_newest b⟩, rfl, rfl, rfl, rfl,
    fun hactive hstill => State.leaveBoot_partner (s := migrated s b) hstill hactive⟩

/-! A migration that fails (R53, R56). -/

theorem failMigration_restarts {s : State} (hmigrates : s.migrates = true) : Restarted s s.failMigration ∧
    (s.failMigration.bootRec s.ms.bank).failed = true ∧ s.failMigration.ms.resetCause.getLsbD 5 = true := by
  have hfails : s.failMigration = (s.modBoot s.ms.bank fun r => { r with failed := true }).restart 5 11 := if_pos hmigrates
  have hmarked : ((s.modBoot s.ms.bank fun r => { r with failed := true }).bootRec s.ms.bank).failed = true := by
    rw [State.modBoot_bootRec]
  rw [hfails]
  refine ⟨?_, State.restart_failed 5 11 hmarked, State.bootChain_resetCause _ _ 5 (by simp [(State.warmReset_ms _ 5 11).2])⟩
  generalize hu : s.modBoot s.ms.bank _ = u at hmarked ⊢
  obtain ⟨hmode, hfuses, hA, hB, hrtc, hrest⟩ := restart_restarted u 5 11
  have hkept := s.modBoot_bootKeeps s.ms.bank fun r => { r with failed := true }
  have htime : u.time = s.time := by simp [← hu]
  have hpending : u.pending = s.pending := by simp [← hu]
  rw [hu] at hkept
  rw [hkept.fuses] at hfuses
  rw [hkept.flashA] at hA
  rw [hkept.flashB] at hB
  rw [htime] at hrtc
  rw [hpending] at hrest
  exact ⟨hmode, hfuses, hA, hB, hrtc, hrest⟩

theorem migrationFails {s : State} (hmigrates : s.migrates = true) (c : Instr) (hc : c = .migrationStepError ∨ c = .migrationTimeout) :
    Gives c s fun t => Restarted s t ∧ (t.bootRec s.ms.bank).failed = true ∧ t.ms.resetCause.getLsbD 5 = true := by
  rcases hc with rfl | rfl
  · exact ⟨_, rfl, failMigration_restarts hmigrates⟩
  · exact ⟨_, rfl, failMigration_restarts hmigrates⟩

theorem migration_idle {s : State} (hmode : s.ms.mode ≠ .m2) :
    exec .migrationDone s = .next s ∧ exec .migrationStepError s = .next s ∧ exec .migrationTimeout s = .next s := by
  have hidle : s.migrates = false := by simp [State.migrates, hmode]
  have hfail : s.failMigration = s := if_neg (by simp [hidle])
  exact ⟨congrArg Host.Outcome.next (if_pos (by simp [hidle])), congrArg Host.Outcome.next hfail, congrArg Host.Outcome.next hfail⟩

/-! LKG_REACHED (R57, R602). -/

/-- The keys that the first mark of an image set revokes: those it names, but for its own. -/
def revokedBy (x : ImageSet) : BitVec 4 := BitVec.ofNat 4 (x.revoke - if bit x.revoke x.signKey then 2 ^ x.signKey else 0)

theorem revokedBy_getLsbD {x : ImageSet} (hkey : x.signKey < 4) (hrevoke : x.revoke < 16) (k : Fin 4) :
    (revokedBy x).getLsbD k.val = (bit x.revoke k.val && decide (k.val ≠ x.signKey)) := by
  have hall : ∀ (r : Fin 16) (g k : Fin 4), (BitVec.ofNat 4 (r.val - if bit r.val g.val then 2 ^ g.val else 0)).getLsbD k.val =
      (bit r.val k.val && decide (k.val ≠ g.val)) := by decide
  exact hall ⟨x.revoke, hrevoke⟩ ⟨x.signKey, hkey⟩ k

/-- The boot records once the running bank is last known good, and the other is not. -/
def marked (s : State) : State :=
  (s.modBoot s.ms.bank fun r => { r with tried := 0, lkg := true }).modBoot (!s.ms.bank) fun r => { r with lkg := false }

/-- LKG_REACHED in a mode in which the device serves. -/
def lkgTaken (s : State) (x : ImageSet) : State :=
  { marked s with
    ms := { (marked s).ms with lkg := true }
    nv := { (marked s).nv with
      oldBlob := none
      fuses := { (marked s).nv.fuses with
        revoked := if !(s.bootRec s.ms.bank).lkg then (marked s).nv.fuses.revoked ||| revokedBy x else (marked s).nv.fuses.revoked } } }

theorem lkgReached_eq {s : State} {x : ImageSet} (hrun : s.ms.running = some x)
    (hmode : s.ms.mode = .m3 ∨ s.ms.mode = .m4 ∨ s.ms.mode = .m5 ∨ s.ms.mode = .m6) : exec .lkgReached s = .next (lkgTaken s x) := by
  show execLkgReached s = _
  unfold execLkgReached
  rcases hmode with hmode | hmode | hmode | hmode
  all_goals
    rw [hmode, hrun]
    rfl

theorem marked_bootRec (s : State) : (marked s).bootRec s.ms.bank = { s.bootRec s.ms.bank with tried := 0, lkg := true } ∧
    (marked s).bootRec (!s.ms.bank) = { s.bootRec (!s.ms.bank) with lkg := false } := by
  have hother := State.modBoot_bootRec_not (s.modBoot s.ms.bank fun r => { r with tried := 0, lkg := true }) (!s.ms.bank)
    fun r => { r with lkg := false }
  rw [Bool.not_not] at hother
  refine ⟨hother.trans (by rw [State.modBoot_bootRec]), ?_⟩
  rw [marked, State.modBoot_bootRec, State.modBoot_bootRec_not]

theorem marked_fuses (s : State) : (marked s).nv.fuses = s.nv.fuses :=
  ((s.modBoot_bootKeeps ..).trans (State.modBoot_bootKeeps ..)).fuses

theorem lkgReached_marks {s : State} {x : ImageSet} (hrun : s.ms.running = some x)
    (hmode : s.ms.mode = .m3 ∨ s.ms.mode = .m4 ∨ s.ms.mode = .m5 ∨ s.ms.mode = .m6) :
    Gives .lkgReached s fun t => Only [.ms, .nv] s t ∧ t.ms = { s.ms with lkg := true } ∧
        t.bootRec s.ms.bank = { s.bootRec s.ms.bank with tried := 0, lkg := true } ∧
        t.bootRec (!s.ms.bank) = { s.bootRec (!s.ms.bank) with lkg := false } ∧ t.nv.oldBlob = none ∧
        ((s.bootRec s.ms.bank).lkg = true → t.nv.fuses = s.nv.fuses) ∧
        ((s.bootRec s.ms.bank).lkg = false → ∀ k : Fin 4, x.signKey < 4 → x.revoke < 16 → t.nv.fuses.revoked.getLsbD k.val =
          (s.nv.fuses.revoked.getLsbD k.val || (bit x.revoke k.val && decide (k.val ≠ x.signKey)))) := by
  refine ⟨_, lkgReached_eq hrun hmode, ?_⟩
  have hms : (marked s).ms = s.ms := by simp [marked]
  have hfuses := marked_fuses s
  obtain ⟨hown, hother⟩ := marked_bootRec s
  refine ⟨?_, by rw [lkgTaken, hms], hown, hother, rfl, fun hlkg => ?_, fun hnot k hkey hrevoke => ?_⟩
  · simp (disch := decide) only [lkgTaken, marked, only_ms_nv_update, only_modBoot, Only.refl]
  · simp only [lkgTaken, hlkg, hfuses]
    rfl
  · simp only [lkgTaken, hnot, hfuses]
    rw [← revokedBy_getLsbD hkey hrevoke k]
    exact BitVec.getLsbD_or

end Sys2Proof.Claims

section
open Sys2Proof Sys2Proof.Machine Sys2Proof.Claims

/-- Settles O38: conversion, failure and mark each from the equation of its event. -/
theorem migrationAndLastKnownGood : Obligations.MigrationAndLastKnownGood := by
  intro s
  refine ⟨fun hmode hstep => ?_, migration_idle, fun x => lkgReached_marks⟩
  have hmigrates := (migrates_iff s).2 ⟨hmode, hstep⟩
  exact ⟨fun b => migrationDone_commits hmigrates, migrationFails hmigrates⟩

end

/-! ### Links and lanes -/

namespace Sys2Proof.Machine

/-! A lost context leaves the sites as they are. -/

@[simp] theorem State.releaseGains_sites (s : State) (r : Recv) : (s.releaseGains r).radio.sites = s.radio.sites := rfl

@[simp] theorem State.setRecv_sites (s : State) (r : Recv) : (s.setRecv r).radio.sites = s.radio.sites := rfl

@[simp] theorem State.settleRecv_sites (s : State) (r : Recv) : (s.settleRecv r).radio.sites = s.radio.sites := by
  unfold State.settleRecv
  split <;> rfl

@[simp] theorem State.loseContext_sites (which : Copied → Bool) (s : State) (r : Recv) :
    (State.loseContext which s r).radio.sites = s.radio.sites := by
  unfold State.loseContext
  dsimp only
  repeat' split
  all_goals simp

theorem State.foldl_sites {α : Type} {g : State → α → State} (h : ∀ s e, (g s e).radio.sites = s.radio.sites) (es : List α) (s : State) :
    (es.foldl g s).radio.sites = s.radio.sites := by
  induction es generalizing s with
  | nil => rfl
  | cons e es ih => exact (ih (g s e)).trans (h s e)

@[simp] theorem State.loseContexts_sites (s : State) (site : Nat) : (s.loseContexts site).radio.sites = s.radio.sites :=
  foldl_sites (loseContext_sites _) ..

theorem State.site_congr {s t : State} (h : t.radio.sites = s.radio.sites) (n : Nat) : t.site n = s.site n := by
  unfold State.site
  rw [h]

/-- A site that goes out is down, or stays in its fault (R318). -/
theorem State.siteOut_state (s : State) (n reason : Nat) : ((s.siteOut n reason).site n).state = .down ∨ ((s.siteOut n reason).site n).state = .fault := by
  unfold State.siteOut
  dsimp only
  generalize hu : State.modSite _ _ _ = u
  have hdown : (u.site n).state = .down ∨ (u.site n).state = .fault := by
    rw [← hu, modSite_site]
    dsimp only
    split <;> simp
  have hsites : ((u.loseContexts n).siteEvent 0x0802 n 0xFF reason).site n = u.site n := site_congr (by simp) n
  split
  · rw [hsites]
    exact hdown
  · exact hdown

/-! The link of a port comes up (R160, R169). -/

theorem State.siteLinkUp_portSt (s : State) (p k : Nat) : (s.siteLinkUp p).portSt k = s.portSt k := portSt_of_ports (by simp) k

theorem State.siteLinkUp_none {s : State} {p : Nat} (h : s.portSite p = none) : s.siteLinkUp p = s := by
  unfold State.siteLinkUp
  rw [h]

/-- Preemption is active at once, or after its verification (R169). -/
theorem State.preemptEval_portSt (s : State) (p : Nat) :
    let on := (s.portSt p).linkUp && (s.portCfg p).preEnable && (s.portCfg p).site.isNone
    (s.preemptEval p).portSt p = { s.portSt p with
      preActive := on && !(s.portCfg p).preVerify, verifyTries := if on && (s.portCfg p).preVerify then 1 else 0 } :=
  modPort_portSt ..

theorem State.preemptEval_portSt_ne (s : State) {p k : Nat} (h : k ≠ p) : (s.preemptEval p).portSt k = s.portSt k :=
  modPort_portSt_ne s _ h

theorem State.preemptEval_cfg (s : State) (p : Nat) : (s.preemptEval p).cfg = s.cfg := by simp

/-! The link of a port goes down (R168). -/

/-- The link's own state, its counter and its entry, without the site that the port serves. -/
def State.linkLost (s : State) (p reason : Nat) : State :=
  ((s.modPort p PortSt.down).count (.port p .linkDownEvents)).portEvent 0x0602 p (s.portCageNo p) reason

theorem State.takeDown_eq {s : State} {p : Nat} (h : (s.portSt p).linkUp = true) (reason : Nat) :
    s.takeDown p reason = (s.portSite p).elim (s.linkLost p reason)
      fun n => (s.linkLost p reason).siteOut n (if 1 ≤ reason ∧ reason ≤ 5 then 1 else 2) := by
  unfold State.takeDown State.takeDownFor
  rw [if_pos h]
  change (match State.portSite (s.linkLost p reason) p with | some _ => _ | none => _) = _
  rw [show State.portSite (s.linkLost p reason) p = s.portSite p by simp [linkLost, State.portSite, State.portCfg]]
  cases s.portSite p <;> rfl

theorem State.takeDown_idle {s : State} {p : Nat} (h : (s.portSt p).linkUp = false) (reason : Nat) : s.takeDown p reason = s :=
  if_neg (by simp [h])

theorem State.takeDown_portSt {s : State} {p : Nat} (h : (s.portSt p).linkUp = true) (reason : Nat) :
    (s.takeDown p reason).portSt p = (s.portSt p).down := by
  have hports : (s.takeDown p reason).ports = (s.modPort p PortSt.down).ports := (s.takeDownFor_ports p reason _).trans (if_pos h)
  rw [portSt_of_ports hports, modPort_portSt]

theorem State.takeDown_ctr {s : State} {p : Nat} (h : (s.portSt p).linkUp = true) (reason : Nat) :
    (s.takeDown p reason).ctr = (s.count (.port p .linkDownEvents)).ctr := by
  have hlost : (s.linkLost p reason).ctr = (s.count (.port p .linkDownEvents)).ctr := by
    simp only [linkLost, portEvent_frame]
    rfl
  rw [takeDown_eq h reason]
  cases s.portSite p with
  | none => exact hlost
  | some n =>
    rw [Option.elim_some]
    simp only [siteOut_frame]
    exact hlost

theorem State.counter_congr {s t : State} (h : t.ctr = s.ctr) (c : Ctr) : t.counter c = s.counter c := by
  unfold State.counter
  rw [h]

/-! A lane whose lock is lost (R178, R189). -/

theorem State.portLanes_congr {s t : State} (h : t.cfg = s.cfg) (p : Nat) : t.portLanes p = s.portLanes p := by
  simp only [State.portLanes, State.portCfg, h]

theorem State.passFrom_congr {s t : State} (hcfg : t.cfg = s.cfg) (hpass : t.ports.passThrough = s.ports.passThrough) (k : Nat) :
    t.passFrom k = s.passFrom k := by
  unfold State.passFrom
  simp only [hcfg, hpass, portLanes_congr hcfg]

theorem State.squelched_unlocked {s : State} {k l : Nat} (hpass : s.passFrom k = some l) (hlock : tget false s.ports.laneLocked l = false) :
    s.squelched k = true := by
  simp [State.squelched, hpass, hlock]

end Sys2Proof.Machine

namespace Sys2Proof.Claims
open Machine

/-! LINK_UP (R160, R168). -/

/-- The conditions under which the link of a port comes up. -/
def mayComeUp (s : State) (p : Nat) : Bool :=
  let c := s.portCfg p
  s.inService && c.adminUp && !(match c.site with | some n => (s.site n).held | none => false) && decide (c.mode ≠ 0) &&
    s.portUsable p && s.macPassed p && s.lanesLocked p && s.moduleReady p && !(s.portSt p).linkUp

/-- The link is up, and its entry is told; preemption and the site of the port follow. -/
def linkTaken (s : State) (p : Nat) : State :=
  (s.modPort p fun x => { x with linkUp := true, localFault := false, remoteFault := false }).portEvent 0x0601 p (s.portCageNo p) 0

theorem bringUp_idle {s : State} {p : Nat} (h : mayComeUp s p = false) : s.bringUp p = s :=
  if_neg (fun hmay => absurd (h.symm.trans hmay) (by decide))

theorem bringUp_eq {s : State} {p : Nat} (h : mayComeUp s p = true) : s.bringUp p = ((linkTaken s p).preemptEval p).siteLinkUp p := if_pos h

theorem linkTaken_portSt (s : State) (p : Nat) :
    (linkTaken s p).portSt p = { s.portSt p with linkUp := true, localFault := false, remoteFault := false } := by
  unfold linkTaken
  rw [State.portSt_of_ports (by simp only [State.portEvent_frame]; rfl), State.modPort_portSt]

theorem linkTaken_portSt_ne (s : State) {p k : Nat} (h : k ≠ p) : (linkTaken s p).portSt k = s.portSt k := by
  unfold linkTaken
  rw [State.portSt_of_ports (by simp only [State.portEvent_frame]; rfl), State.modPort_portSt_ne s _ h]

theorem linkTaken_portCfg (s : State) (p : Nat) : (linkTaken s p).portCfg p = s.portCfg p := by
  simp [linkTaken, State.portCfg]

theorem linkUp_comesUp {s : State} {p : Fin 256} (h : mayComeUp s p.val = true) : Gives (.linkUp p) s fun t => Only [.host, .ports, .radio] s t ∧
    t.portSt p.val = { s.portSt p.val with
      linkUp := true, localFault := false, remoteFault := false
      preActive := (s.portCfg p.val).preEnable && (s.portCfg p.val).site.isNone && !(s.portCfg p.val).preVerify
      verifyTries := if (s.portCfg p.val).preEnable && (s.portCfg p.val).site.isNone && (s.portCfg p.val).preVerify then 1 else 0 } ∧
    (∀ k, k ≠ p.val → t.portSt k = s.portSt k) ∧ ((s.portCfg p.val).site = none → t.radio = s.radio) := by
  refine ⟨_, congrArg Host.Outcome.next (bringUp_eq h), exec_frame (.linkUp p) s _ (congrArg Host.Outcome.next (bringUp_eq h)), ?_, fun k hk => ?_,
    fun hsite => ?_⟩
  · rw [State.siteLinkUp_portSt, State.preemptEval_portSt, linkTaken_portSt, linkTaken_portCfg]
    rfl
  · rw [State.siteLinkUp_portSt, State.preemptEval_portSt_ne _ hk, linkTaken_portSt_ne s hk]
  · have hnone : ((linkTaken s p.val).preemptEval p.val).portSite p.val = none := by
      rw [State.portSite, State.portCfg, State.preemptEval_cfg]
      exact (congrArg PortCfg.site (linkTaken_portCfg s p.val)).trans hsite
    rw [State.siteLinkUp_none hnone]
    simp [linkTaken]

/-! LINK_DOWN (R168). -/

theorem linkDown_eq {s : State} {p : Fin 256} (h : (s.portSt p.val).linkUp = true) (reason : Fin 8) : exec (.linkDown p reason) s =
    .next ((s.takeDown p.val reason.val).modPort p.val fun x => { x with localFault := reason.val == 4, remoteFault := reason.val == 5 }) :=
  congrArg Host.Outcome.next (if_pos h)

theorem linkDown_goesDown {s : State} {p : Fin 256} (reason : Fin 8) (h : (s.portSt p.val).linkUp = true) :
    Gives (.linkDown p reason) s fun t => Only [.host, .ports, .radio, .ctr] s t ∧
      (let y := t.portSt p.val
       y.linkUp = false ∧ y.preActive = false ∧ y.mmHolds = [] ∧ y.localFault = (reason.val == 4) ∧
        y.remoteFault = (reason.val == 5)) ∧
      t.counter (.port p.val .linkDownEvents) = (s.counter (.port p.val .linkDownEvents) + 1) % 2 ^ 32 ∧
      (∀ n, s.portSite p.val = some n → (t.site n).state = .down ∨ (t.site n).state = .fault) ∧
      (s.portSite p.val = none → t.radio = s.radio) := by
  refine ⟨_, linkDown_eq h reason, exec_frame (.linkDown p reason) s _ (linkDown_eq h reason), ?_, ?_, fun n hsite => ?_, fun hsite => ?_⟩
  · rw [State.modPort_portSt, State.takeDown_portSt h]
    exact ⟨rfl, rfl, rfl, rfl, rfl⟩
  · have hctr : ((s.takeDown p.val reason.val).modPort p.val fun x =>
        { x with localFault := reason.val == 4, remoteFault := reason.val == 5 }).ctr = (s.count (.port p.val .linkDownEvents)).ctr :=
      s.takeDown_ctr h reason.val
    rw [State.counter_congr hctr, State.count_counter]
    rfl
  · rw [State.takeDown_eq h, hsite]
    exact State.siteOut_state _ n _
  · rw [State.takeDown_eq h, hsite]
    simp [State.linkLost]

/-! The verification of preemption (R169). -/

theorem verifyTimeout_ends {s : State} {p : Fin 256} (h : 3 ≤ (s.portSt p.val).verifyTries) : Gives (.preemptVerifyTimeout p) s fun t =>
    Only [.host, .ports] s t ∧ t.portSt p.val = { s.portSt p.val with verifyTries := 0 } := by
  have hexec : exec (.preemptVerifyTimeout p) s =
      .next ((s.modPort p.val fun x => { x with verifyTries := 0 }).portEvent 0x0607 p.val (s.portCageNo p.val) 0) :=
    congrArg Host.Outcome.next ((if_neg (by omega)).trans (if_neg (by omega)))
  refine ⟨_, hexec, exec_frame (.preemptVerifyTimeout p) s _ hexec, ?_⟩
  rw [State.portSt_of_ports (s := s.modPort p.val fun x => { x with verifyTries := 0 }) (by simp), State.modPort_portSt]

/-! LANE_LOCK_LOST (R189). -/

theorem laneLockLost_squelches {s : State} {l : Fin 512} (hmode : s.ms.mode ≠ .m0) (hlock : tget false s.ports.laneLocked l.val = true) :
    Gives (.laneLockLost l) s fun t => Only [.ports, .ctr] s t ∧
      t.ports = { s.ports with laneLocked := tset false s.ports.laneLocked l.val false } ∧
      t.counter (.lane l.val .lockLoss) = (s.counter (.lane l.val .lockLoss) + 1) % 2 ^ 32 ∧
      ∀ k, s.passFrom k = some l.val → t.squelched k = true := by
  have hexec : exec (.laneLockLost l) s = .next (State.count
      { s with ports := { s.ports with laneLocked := tset false s.ports.laneLocked l.val false } } (.lane l.val .lockLoss)) :=
    congrArg Host.Outcome.next (if_pos ⟨hmode, hlock⟩)
  refine ⟨_, hexec, exec_frame (.laneLockLost l) s _ hexec, by simp, State.count_counter .., fun k hpass => ?_⟩
  refine State.squelched_unlocked ((State.passFrom_congr rfl rfl k).trans hpass) ?_
  exact tget_tset_self false s.ports.laneLocked l.val false

end Sys2Proof.Claims

section
open Sys2Proof Sys2Proof.Machine Sys2Proof.Claims

/-- Settles O46: each event by its own condition. -/
theorem linksAndLanesFollowTheirEvents : Obligations.LinksAndLanesFollowTheirEvents := by
  refine ⟨fun s p => ⟨fun h => congrArg Host.Outcome.next (bringUp_idle h), linkUp_comesUp, fun reason h => ?_, linkDown_goesDown,
    fun h => ⟨congrArg Host.Outcome.next (if_pos h), congrArg Host.Outcome.next (if_pos h)⟩, fun h => ?_, verifyTimeout_ends,
    fun h => congrArg Host.Outcome.next (if_neg h)⟩, fun s l hmode => ⟨laneLockLost_squelches hmode, fun h => ?_, fun hclock hreset => ?_, fun h => ?_⟩⟩
  · exact congrArg Host.Outcome.next ((if_neg (by simp [h])).trans (State.takeDown_idle h _))
  · exact congrArg Host.Outcome.next ((if_neg (by omega)).trans (if_pos (by omega)))
  · exact congrArg Host.Outcome.next (if_neg (by simp [h]))
  · exact congrArg Host.Outcome.next (if_pos ⟨hmode, hclock, by simp [hreset]⟩)
  · exact congrArg Host.Outcome.next (if_neg fun ⟨_, hclock, hreset⟩ => h.elim (by simp [hclock]) hreset)

end

/-! PROOFS. The statements of the host interface: descriptors and checks, mailboxes and doorbells, Wells, messages, injected and punted
frames, function resets, and a plan in which nothing is commanded. -/

/-! ### Descriptors that stay in their ring, and the checks of a command -/

namespace Sys2Proof.Machine

theorem State.canRead_full {s : State} {f : Nat} (h : (s.mbox f).rspSize ≤ (s.mbox f).rspUsed) : s.canRead f = false := by
  have hroom : decide ((s.mbox f).rspUsed < (s.mbox f).rspSize) = false := decide_eq_false (Nat.not_lt.2 h)
  simp [State.canRead, State.readable, hroom]

theorem AciSpec.exec_unread (c : AciSpec) {a : Aci} {s : State} (h : s.canRead a.fn.val = false) : c.exec a s = s :=
  if_pos (by simp [h])

theorem execUnknownOpcode_unread (op : BitVec 16) {a : Aci} {s : State} (h : s.canRead a.fn.val = false) :
    exec (.unknownOpcode op a) s = .next s :=
  congrArg Host.Outcome.next (if_pos (by simp [h]))

/-- The MGC of a function whose descriptor is read runs, and its DMA is allowed (R22, R67). -/
theorem State.canRead_served {s : State} {f : Nat} (h : s.canRead f = true) : s.mgcDown f = false ∧ s.busMaster f = true := by
  simp only [State.canRead, State.readable, Bool.and_eq_true, Bool.not_eq_true'] at h
  exact ⟨h.1.2, h.1.1.1.1.1.2⟩

/-! The first failure of a list of checks. -/

@[simp] theorem firstOf_some (e : Nat × Nat) (l : List Chk) : firstOf (some e :: l) = some e := rfl
@[simp] theorem firstOf_none (l : List Chk) : firstOf (none :: l) = firstOf l := rfl
@[simp] theorem firstOf_nil : firstOf [] = none := rfl
@[simp] theorem failIf_true (st sub : Nat) : failIf true st sub = some (st, sub) := rfl
@[simp] theorem failIf_false (st sub : Nat) : failIf false st sub = none := rfl

end Sys2Proof.Machine

namespace Sys2Proof.Claims

open Machine

/-- The command is refused: its function's ring took one response with this STATUS and SUBCODE, and nothing but the host interface
changed. -/
def Refused (c : AciSpec) (a : Aci) (s t : State) (st sub : Nat) : Prop := Responded c a s t st sub [] ∧ Only [.host] s t

/-- A refusal before the command is in flight. -/
theorem refused_of_writeResponse {c : AciSpec} {a : Aci} {s : State} (hread : s.canRead a.fn.val = true) (st sub : Nat) :
    Refused c a s ((taken a s).writeResponse a.fn.val (c.req a s).tag { status := st, sub := sub }) st sub := by
  have hbus : (taken a s).busMaster a.fn.val = true := (State.takeDesc_busMaster ..).trans (State.canRead_served hread).2
  obtain ⟨htail, x, hx, htag, hanswer⟩ := (taken a s).writeResponse_responds a.fn.val (c.req a s).tag { status := st, sub := sub } hbus
  have hmbox : (taken a s).mbox a.fn.val = _ := s.takeDesc_mbox a.fn.val
  refine ⟨⟨?_, ?_, x, ?_, htag.trans (req_tag c a s), hanswer⟩, ?_⟩
  · rw [State.writeResponse_cmdHead, hmbox]
  · rw [htail, hmbox]
  · rw [hx, hmbox]
  · exact (only_writeResponse (by simp)).2 ((only_takeDesc (by simp)).2 (Only.refl _ s))

/-- A refusal of a command in flight. -/
theorem refused_of_answer {c : AciSpec} {a : Aci} {s : State} (hread : s.canRead a.fn.val = true) (st sub : Nat) :
    Refused c a s ((started c a s).answer (c.req a s) { status := st, sub := sub }) st sub := by
  obtain ⟨hup, hbus⟩ := State.canRead_served hread
  have hprocs : (started c a s).procs = s.procs := by
    obtain ⟨h, hstarted⟩ := started_eq c a s
    rw [hstarted]
  obtain ⟨hhead, htail, x, hx, htag, hanswer⟩ := answer_responds (s := started c a s) (r := c.req a s) (y := { status := st, sub := sub })
    ((State.mgcDown_of_procs hprocs _).trans hup) ((State.takeDesc_busMaster ..).trans hbus) (find_started rfl) rfl
  have hfn : (c.req a s).fn = a.fn.val := rfl
  rw [hfn, started_mbox] at hhead htail hx
  exact ⟨⟨hhead, htail, x, hx, htag.trans (req_tag c a s), hanswer⟩, (only_answerLater (by simp)).2 (only_started c a (by simp))⟩

/-! What reading a descriptor leaves of what the checks look at. -/

theorem taken_mine (a : Aci) (s : State) : ((taken a s).mbox a.fn.val).mine = (s.mbox a.fn.val).mine := by
  rw [taken, State.takeDesc_mbox]
  rfl

theorem taken_tagInUse (a : Aci) (s : State) (tag : Nat) : (taken a s).tagInUse a.fn.val tag = s.tagInUse a.fn.val tag := by
  unfold State.tagInUse
  rw [taken_mine, taken, State.takeDesc_mbox]

theorem taken_fenced (c : AciSpec) (a : Aci) (s : State) : (taken a s).fenced (c.req a s) = s.fenced (c.req a s) := by
  unfold State.fenced
  rw [show (c.req a s).fn = a.fn.val from rfl, taken_mine]

/-! What the device does with a descriptor that it reads, by the first check that fails (R80). -/

section
variable {c : AciSpec} {a : Aci} {s : State}

theorem refused_by_descCheck {e : Nat × Nat} (hread : s.canRead a.fn.val = true) (hdesc : descCheck c a (taken a s) = some e) :
    Refused c a s (c.exec a s) e.1 e.2 := by
  have hexec : c.exec a s = (taken a s).writeResponse a.fn.val (c.req a s).tag { status := e.1, sub := e.2 } := by
    unfold taken at hdesc
    unfold AciSpec.exec
    rw [if_neg (by simp [hread])]
    simp only [hdesc]
    rfl
  exact hexec ▸ refused_of_writeResponse hread e.1 e.2

theorem refused_by_share {e : Nat × Nat} (hread : s.canRead a.fn.val = true) (hdesc : descCheck c a (taken a s) = none)
    (hshare : s.share a.fn.val ≤ (s.mbox a.fn.val).mine.length) (he : c.overShare (c.req a s) (taken a s) = e) :
    Refused c a s (c.exec a s) e.1 e.2 := by
  have hover : (taken a s).share a.fn.val ≤ ((taken a s).mbox a.fn.val).mine.length := (taken_mine a s).symm ▸ hshare
  have hexec : c.exec a s = (taken a s).writeResponse a.fn.val (c.req a s).tag { status := e.1, sub := e.2 } := by
    unfold taken at hdesc hover he
    unfold AciSpec.exec
    rw [if_neg (by simp [hread])]
    simp only [hdesc, if_pos hover, he]
    rfl
  exact hexec ▸ refused_of_writeResponse hread e.1 e.2

theorem mayStart_iff : mayStart c a s = true ↔ s.canRead a.fn.val = true ∧ descCheck c a (taken a s) = none ∧
    (s.mbox a.fn.val).mine.length < s.share a.fn.val ∧ s.fenced (c.req a s) = false := by
  simp only [mayStart, reads, Bool.and_eq_true, Bool.not_eq_true', Option.isNone_iff_eq_none, decide_eq_true_eq, and_assoc]

/-- A command that may start goes by its parameters, and then by whether it is carried. -/
theorem exec_of_mayStart (h : mayStart c a s = true) : c.exec a s =
    match c.params (c.req a s) (taken a s) with
    | some e => (taken a s).writeResponse a.fn.val (c.req a s).tag { status := e.1, sub := e.2 }
    | none => c.start (c.req a s) (c.carries (c.req a s) (taken a s)) ((taken a s).modMbox a.fn.val fun m =>
        { m with inflight := { (c.req a s).ref with carried := c.carries (c.req a s) (taken a s) } :: m.inflight }) := by
  obtain ⟨hread, hdesc, hshare, hfree⟩ := mayStart_iff.1 h
  have hunder : ¬ (taken a s).share a.fn.val ≤ ((taken a s).mbox a.fn.val).mine.length :=
    Nat.not_le.2 ((taken_mine a s).symm ▸ hshare)
  have hfree' : ¬ (taken a s).fenced (c.req a s) = true := by simp [taken_fenced, hfree]
  unfold taken at hdesc hunder hfree' ⊢
  unfold AciSpec.exec
  rw [if_neg (by simp [hread])]
  simp only [hdesc, if_neg hunder, if_neg hfree'] <;> rfl

theorem refused_by_params {e : Nat × Nat} (h : mayStart c a s = true) (hparams : c.params (c.req a s) (taken a s) = some e) :
    Refused c a s (c.exec a s) e.1 e.2 := by
  rw [exec_of_mayStart h, hparams]
  exact refused_of_writeResponse (mayStart_iff.1 h).1 e.1 e.2

theorem refused_by_check {e : Nat × Nat} (h : mayStart c a s = true) (hparams : c.params (c.req a s) (taken a s) = none)
    (hhere : c.carries (c.req a s) (taken a s) = false) (hcheck : c.check (c.req a s) (started c a s) = some e) :
    Refused c a s (c.exec a s) e.1 e.2 := by
  have hstart : c.start (c.req a s) false (started c a s) = (started c a s).answer (c.req a s) { status := e.1, sub := e.2 } := by
    simp [AciSpec.start, hcheck]
  rw [exec_of_mayStart h, hparams, hhere]
  exact hstart ▸ refused_of_answer (mayStart_iff.1 h).1 e.1 e.2

/-! The failures of the descriptor's own fields (R80 steps 1 to 3; log entry 92). -/

theorem descCheck_tagRange {t : State} (h : 4096 ≤ a.tagWord.toNat) : descCheck c a t = some (stBadParam, 0x02) := by
  simp [descCheck, badIf, h]

theorem descCheck_reserved {t : State} (htag : a.tagWord.toNat < 4096) (h : a.byte4.toNat / 2 ≠ 0 ∨ a.byte5 ≠ 0) :
    descCheck c a t = some (stBadParam, 0x01) := by
  have hset : (a.byte4.toNat / 2 != 0 || a.byte5 != 0) = true := by simpa using h
  simp only [descCheck, badIf, decide_eq_false (Nat.not_le.2 htag), hset, failIf_false, failIf_true, firstOf_none, firstOf_some]

theorem descCheck_tagInUse {t : State} (htag : a.tagWord.toNat < 4096) (h4 : a.byte4.toNat / 2 = 0) (h5 : a.byte5 = 0)
    (h : t.tagInUse a.fn.val a.tagWord.toNat = true) : descCheck c a t = some (stBadParam, 0x03) := by
  simp [descCheck, badIf, Nat.not_le.2 htag, Nat.mod_eq_of_lt htag, h4, h5, h]

/-! The failures of the parameters and of the object (R80 steps 4 to 6; log entry 7). -/

variable {r : Req} {t : State}

theorem params_reserved (h : (c.rsv r.pl).all (maskZero r.pl) = false) : c.params r t = some (stBadParam, 0x01) := by
  simp [AciSpec.params, badIf, h]

theorem params_eq_par (h : (c.rsv r.pl).all (maskZero r.pl) = true) : c.params r t = firstOf [c.par r t] := by
  simp [AciSpec.params, badIf, h]

theorem params_none_reserved (h : c.params r t = none) : (c.rsv r.pl).all (maskZero r.pl) = true := by
  by_contra hset
  simp [params_reserved (Bool.eq_false_iff.2 hset)] at h

/-- What the object answers, once the parameters have passed: it is foreign to the function, or not free, or neither. -/
theorem objects_eq (hrsv : (c.rsv r.pl).all (maskZero r.pl) = true) (hpar : c.par r t = none) : c.objects r t =
    if r.fn ≠ 0 ∧ c.owned r t = false then some (stDenied, if c.pf0Only then 0x01 else 0x02) else c.free r t := by
  simp only [AciSpec.objects, badIf, hrsv, hpar, Bool.not_true, failIf_false, firstOf_none]
  by_cases hforeign : r.fn ≠ 0 ∧ c.owned r t = false
  · simp [hforeign, bne_iff_ne.2 hforeign.1]
  · have hown : (r.fn != 0 && !c.owned r t) = false := by simpa using hforeign
    rw [if_neg hforeign, hown, failIf_false, firstOf_none]
    cases c.free r t <;> rfl

theorem overShare_badParam {sub : Nat} (h : c.objects r t = some (stBadParam, sub)) : c.overShare r t = (stBadParam, sub) := by
  simp [AciSpec.overShare, h]

theorem overShare_busy (h : ∀ sub, c.objects r t ≠ some (stBadParam, sub)) : c.overShare r t = (stBusy, 0x01) := by
  unfold AciSpec.overShare
  split
  next st sub hobjects => exact if_neg fun hst : st = stBadParam => h sub (by rw [hobjects, hst])
  next => rfl

theorem check_denied_foreign (hrsv : (c.rsv r.pl).all (maskZero r.pl) = true) (hpar : c.par r t = none) (hfn : r.fn ≠ 0)
    (hpf0 : c.pf0Only = false) (howned : c.owned r t = false) : c.check r t = some (stDenied, 0x02) := by
  simp [AciSpec.check, objects_eq hrsv hpar, hfn, hpf0, howned]

theorem check_denied_pf0 (hrsv : (c.rsv r.pl).all (maskZero r.pl) = true) (hpar : c.par r t = none) (hfree : c.free r t = none)
    (hfn : r.fn ≠ 0) (hpf0 : c.pf0Only = true) : c.check r t = some (stDenied, 0x01) := by
  have hvf : (r.fn != 0) = true := bne_iff_ne.2 hfn
  simp only [AciSpec.check, objects_eq hrsv hpar, hpf0, hfree, hvf, Bool.and_self, failIf_true, if_true]
  split <;> rfl

theorem check_notInMode (hrsv : (c.rsv r.pl).all (maskZero r.pl) = true) (hpar : c.par r t = none) (hfree : c.free r t = none)
    (hdenied : c.denied r t = none) (hfn : r.fn = 0) (hmode : c.modes.contains t.ms.mode = false) :
    c.check r t = some (stNotInMode, 0) := by
  have hrefuses : c.modeAccepts r t = false := by simp only [AciSpec.modeAccepts, hmode, Bool.false_and]
  simp [AciSpec.check, objects_eq hrsv hpar, hfn, hfree, hdenied, hrefuses]

end

end Sys2Proof.Claims

section
open Sys2Proof Sys2Proof.Machine Sys2Proof.Claims

/-- Settles O12: without a free response slot no descriptor of the function can be read. -/
theorem fullResponseRingStopsReading : Obligations.FullResponseRingStopsReading := by
  intro c a s hfull
  have hunread : s.canRead a.fn.val = false := State.canRead_full hfull
  exact ⟨c.exec_unread hunread, fun op => execUnknownOpcode_unread op hunread⟩

/-- Settles O14: the first failure among the checks of the descriptor, of the share, of the parameters and of the command is found, and
what the device does with a descriptor is said by that failure (log entries 7 and 92). -/
theorem firstFailedCheckAnswers : Obligations.FirstFailedCheckAnswers := by
  intro c a s hread refuses r
  have hdesc (e : Nat × Nat) (h : descCheck c a (taken a s) = some e) : refuses e.1 e.2 := refused_by_descCheck hread h
  refine ⟨fun h => hdesc _ (descCheck_tagRange h), fun htag h => hdesc _ (descCheck_reserved htag h),
    fun htag h4 h5 h => hdesc _ (descCheck_tagInUse htag h4 h5 ((taken_tagInUse ..).trans h)), hdesc, fun hpass hshare => ⟨?_, ?_⟩,
    fun hstart => ⟨fun h => refused_by_params hstart (params_reserved h), fun hrsv e h => refused_by_params hstart ?_,
      fun hpass hhere => ?_⟩⟩
  · exact fun sub h => refused_by_share hread hpass hshare (overShare_badParam h)
  · exact fun h => refused_by_share hread hpass hshare (overShare_busy h)
  · rw [params_eq_par hrsv, h, firstOf_some]
  · have hrsv := params_none_reserved hpass
    have hcheck (e : Nat × Nat) (h : c.check r (started c a s) = some e) : refuses e.1 e.2 := refused_by_check hstart hpass hhere h
    exact ⟨hcheck, fun hpf0 hfn hpar hfree => hcheck _ (check_denied_pf0 hrsv hpar hfree hfn hpf0),
      fun hpf0 hfn hpar howned => hcheck _ (check_denied_foreign hrsv hpar hfn hpf0 howned),
      fun _ hfn hpar hfree hdenied hmode => hcheck _ (check_notInMode hrsv hpar hfree hdenied hfn hmode)⟩

end

/-! ### The passing of time -/

namespace Sys2Proof.Machine

/-! What starts in a plan keeps the queue. -/

/-- The effect of a command of the catalogue keeps the queue. -/
def AciSpec.KeepsQueue (c : AciSpec) : Prop := ∀ (r : Req) (s : State), (c.effect r s).1.pending = s.pending

theorem keepsQueue_of_carried {c : AciSpec} (h : c ∈ carriedSpecs) : c.KeepsQueue := by
  revert c
  simp [carriedSpecs, AciSpec.KeepsQueue]

theorem keepsQueue_of_own {c : AciSpec} (h : c ∈ ownSpecs) : c.KeepsQueue := by
  revert c
  simp [ownSpecs, AciSpec.KeepsQueue]

theorem specOf_keepsQueue {op : Nat} {ack : Bool} {data : Bytes} {c : AciSpec} (h : specOf op ack data = some c) : c.KeepsQueue := by
  have hmem := List.mem_of_find?_eq_some h
  simp only [List.mem_append, List.mem_cons, List.not_mem_nil, or_false] at hmem
  rcases hmem with (hcarried | hown) | rfl | rfl
  · exact keepsQueue_of_carried hcarried
  · exact keepsQueue_of_own hown
  · exact fun r s => Claims.portOpticsIoSpec_only ack data r s .pending (by decide)
  · exact fun r s => Claims.portMdioIoSpec_only _ r s .pending (by decide)

theorem State.startOne_pending (s : State) (f : Nat) (w : Waiting) : (s.startOne f w).pending = s.pending := by
  unfold State.startOne
  dsimp only
  split
  · simp
  next c hspec =>
    split
    · simp
    · exact (AciSpec.start_pending c _ _ _ (specOf_keepsQueue hspec)).trans (by simp)

theorem State.startFn_pending (s : State) (f : Nat) : (s.startFn f).pending = s.pending := by
  unfold State.startFn
  split
  · refine foldl_pending _ (fun t w => ?_) ..
    split
    exacts [t.startOne_pending f w, rfl]
  · rfl

theorem State.tick_pending (s : State) : s.tick.pending = s.pending := by
  simp [State.tick, foldl_pending _ fun t (e : Nat × Mbox) => t.startFn_pending e.1]

/-! Of the clocks, only the plan itself moves the duration counter. -/

/-- A fold of operations that each leave a reading of the state leaves it. -/
theorem State.foldl_keeps {α β : Type} (F : State → β) {g : State → α → State} (h : ∀ s e, F (g s e) = F s) (es : List α) (s : State) :
    F (es.foldl g s) = F s := by
  induction es generalizing s with
  | nil => rfl
  | cons e es ih => exact (ih (g s e)).trans (h s e)

theorem State.ptpRoles_duration (s : State) (n : Nat) : (s.ptpRoles n).time.duration = s.time.duration := by
  unfold State.ptpRoles
  refine foldl_keeps (fun t => t.time.duration) (fun t p => ?_) ..
  rfl

theorem State.announceEnds_duration (s : State) (p : Nat) : (s.announceEnds p).time.duration = s.time.duration := by
  unfold State.announceEnds
  dsimp only
  split
  · split
    · exact (ptpRoles_duration ..).trans rfl
    · rfl
  · rfl

theorem State.announcesEnd_duration (s : State) : s.announcesEnd.time.duration = s.time.duration :=
  foldl_keeps (fun t => t.time.duration) announceEnds_duration ..

theorem State.releaseDls_time (s : State) : s.releaseDls.time = s.time := by simp

/-- A cycle plan takes 128 counts of the duration counter, which stands still in M0 (R143). -/
theorem State.idle_duration (s : State) :
    s.idle.time.duration = if s.ms.mode = .m0 then s.time.duration else s.time.duration + 128 := by
  unfold State.idle
  generalize hclock : s.modRtc Rtc.advance = u
  have hmode : u.ms.mode = s.ms.mode := hclock ▸ congrArg Modes.mode (by simp)
  have hduration : u.time.duration = s.time.duration := hclock ▸ modRtc_duration s _
  dsimp only
  rw [hmode]
  split
  · exact hduration
  · rw [releaseDls_time, announcesEnd_duration]
    exact congrArg (· + 128) hduration

/-- Where no command waits, a plan ends the recoveries of buses and lets time pass, and does nothing else. -/
theorem State.tick_of_none_waiting {s : State} (h : ∀ e ∈ s.host.mbox, e.2.waiting = []) : s.tick = s.busesBack.idle := by
  have hnone : (s.host.mbox.filter fun e => !e.2.waiting.isEmpty) = [] :=
    List.filter_eq_nil_iff.2 fun e he => by simp [h e he]
  rw [State.tick, hnone, List.foldl_nil]

end Sys2Proof.Machine

section
open Sys2Proof Sys2Proof.Machine Sys2Proof.Claims

/-- Settles O2: a step of an empty queue is a plan; what may start in it keeps the queue, and without that only time passes. -/
theorem emptyQueueLetsTimePass : Obligations.EmptyQueueLetsTimePass := by
  intro s hempty
  have hstep : step s = .next s.tick := by rw [step, hempty]
  refine ⟨s.tick, hstep, s.tick_pending.trans hempty, fun hnone => ?_⟩
  have hduration := s.busesBack.idle_duration
  rw [State.tick_of_none_waiting hnone]
  refine ⟨fun h => hduration.trans ?_, fun h => hduration.trans ?_, by simp, by simp, by simp⟩
  · simp [h]
  · simp [h]

end

/-! ### Function resets and the endpoint -/

namespace Sys2Proof.Machine

/-- Operations done for each of a list of functions, each of which settles the mailbox of its function and touches no other, settle
every one of them. -/
theorem State.foldl_settles {g : State → Nat → State} {P : Mbox → Prop} (hself : ∀ s f, P ((g s f).mbox f))
    (hother : ∀ s f k, k ≠ f → (g s f).mbox k = s.mbox k) (fs : List Nat) (s : State) {f : Nat} (hf : P (s.mbox f) ∨ f ∈ fs) :
    P ((fs.foldl g s).mbox f) := by
  induction fs generalizing s with
  | nil => exact hf.resolve_right (List.not_mem_nil)
  | cons a fs ih =>
    refine ih (g s a) ?_
    by_cases ha : f = a
    · exact .inl (ha ▸ hself s f)
    · exact hf.imp (fun h => (hother s a f ha).symm ▸ h) fun h => (List.mem_cons.1 h).resolve_left ha

/-- A mailbox after the reset of its function: disabled, with nothing in flight or ACCEPTED, and an empty ring (R103). -/
def Mbox.Stopped (m : Mbox) : Prop := m.enable = false ∧ m.inflight = [] ∧ m.accepted = [] ∧ m.cmdTail = m.cmdHead

/-- The reset of one function, as a reset of PF0 does it for each (R103). -/
def State.resetFn (s : State) (f : Nat) : State := (s.flrOne f).dropResponses f

theorem State.flr_eq (s : State) (f : Nat) : s.flr f = (if f = 0 then List.range 17 else [f]).foldl State.resetFn s := rfl

/-- What of a mailbox a reset of its function clears, before the responses of commands in flight are dropped. -/
def Mbox.cleared (m : Mbox) : Mbox :=
  { m with enable := false, cmdTail := m.cmdHead, heldRsp := [], accepted := [], unraised := 0, life := m.life + 1 }

theorem State.flrOne_mbox (s : State) (f k : Nat) : (s.flrOne f).mbox k = (s.modMbox f Mbox.cleared).mbox k :=
  foldl_keeps (g := fun s w => s.setWell w ((s.well w).stop (isCredit w))) (fun t => t.mbox k) (fun _ _ => rfl) ..

theorem State.resetFn_stops (s : State) (f : Nat) : ((s.resetFn f).mbox f).Stopped := by
  have hmbox : (s.resetFn f).mbox f = { (s.flrOne f).mbox f with inflight := [] } := modMbox_mbox ..
  rw [hmbox, flrOne_mbox, modMbox_mbox]
  exact ⟨rfl, rfl, rfl, rfl⟩

theorem State.resetFn_mbox_ne (s : State) (f k : Nat) (h : k ≠ f) : (s.resetFn f).mbox k = s.mbox k := by
  have hmbox : (s.resetFn f).mbox k = (s.flrOne f).mbox k := modMbox_mbox_ne _ _ h
  rw [hmbox, flrOne_mbox, modMbox_mbox_ne _ _ h]

/-- PF0's reset acts on every function (R103). -/
theorem State.flr_stops (s : State) (f : Nat) (g : Fin 17) (h : f = 0 ∨ g.val = f) : ((s.flr f).mbox g.val).Stopped := by
  rw [flr_eq]
  refine foldl_settles resetFn_stops resetFn_mbox_ne _ _ (.inr ?_)
  split
  next => exact List.mem_range.2 g.isLt
  next h0 => exact List.mem_singleton.2 (h.resolve_left h0)

/-- The endpoint of PF0 as PCIE_PERST_N holds it in reset (R665). -/
def State.holdEndpoint (s : State) : State := { s with host := { s.host with perst := true, busMaster := [], msix := [] } }

theorem State.holdEndpoint_mbox (s : State) (k : Nat) : s.holdEndpoint.mbox k = s.mbox k := rfl

theorem State.holdEndpoint_busMaster (s : State) (k : Nat) : s.holdEndpoint.busMaster k = false := rfl

theorem State.holdEndpoint_perst (s : State) : s.holdEndpoint.host.perst = true := rfl

theorem State.holdEndpoint_answers (s : State) : s.holdEndpoint.answers = false := by simp [State.answers, State.holdEndpoint]

/-! Bus Master Enable (R67). -/

theorem State.raise_busMaster (s : State) (f v k : Nat) : (s.raise f v).busMaster k = s.busMaster k := by
  unfold State.raise
  dsimp only
  repeat' split
  all_goals rfl

theorem State.writeResponse_busMaster (s : State) (f tag : Nat) (y : Reply) (k : Nat) :
    (s.writeResponse f tag y).busMaster k = s.busMaster k := by
  unfold State.writeResponse
  dsimp only
  split
  · rfl
  split
  · exact raise_busMaster ..
  · rfl

/-- The function's DMA is allowed, or not. -/
def State.gate (s : State) (f : Nat) (b : Bool) : State := { s with host := { s.host with busMaster := tset false s.host.busMaster f b } }

theorem State.gate_busMaster (s : State) (f : Nat) (b : Bool) : (s.gate f b).busMaster f = b := tget_tset_self ..

theorem State.gate_busMaster_ne (s : State) {f k : Nat} (b : Bool) (h : k ≠ f) : (s.gate f b).busMaster k = s.busMaster k :=
  tget_tset_ne _ _ _ h

/-- Waiting entries of a credit Well take the credit that there is (R92). -/
def State.spendWell (s : State) (w : Nat) : State := s.setWell w (if (s.well w).enable then (s.well w).spend else s.well w)

/-- What waited for the function's DMA leaves: responses, and of PF0 the entries of its credit Wells (R67). -/
def State.flushHeld (s : State) (f : Nat) : State :=
  let t := (s.mbox f).heldRsp.reverse.foldl (fun s h => s.writeResponse f h.1 h.2) (s.modMbox f fun m => { m with heldRsp := [] })
  if f = 0 then [0, 1, 2, 3].foldl State.spendWell t else t

theorem State.flushHeld_busMaster (s : State) (f k : Nat) : (s.flushHeld f).busMaster k = s.busMaster k := by
  have hwells (u : State) (l : List Nat) : (l.foldl State.spendWell u).busMaster k = u.busMaster k :=
    foldl_keeps (g := State.spendWell) (·.busMaster k) (fun _ _ => rfl) l u
  have hresponses (u : State) (l : List (Nat × Reply)) :
      (l.foldl (fun s h => s.writeResponse f h.1 h.2) u).busMaster k = u.busMaster k :=
    foldl_keeps (g := fun s (h : Nat × Reply) => s.writeResponse f h.1 h.2) (·.busMaster k)
      (fun t h => t.writeResponse_busMaster f h.1 h.2 k) l u
  unfold State.flushHeld
  dsimp only
  split
  · rw [hwells, hresponses, modMbox_busMaster]
  · rw [hresponses, modMbox_busMaster]

end Sys2Proof.Machine

namespace Sys2Proof.Claims

open Machine

theorem busMasterEnable_gates {s : State} (f : Fin 17) (b : Bool) (hs : s.answers = true) :
    exec (.busMasterEnable f b) s = .next (if b then (s.gate f.val b).flushHeld f.val else s.gate f.val b) := by
  refine congrArg Host.Outcome.next ((if_neg (by simp [hs])).trans ?_)
  cases b <;> rfl

theorem pciePerst_resets {s : State} (h : s.host.perst = false) :
    exec .pciePerst s = .next (s.flr 0).holdEndpoint :=
  congrArg Host.Outcome.next (if_neg (by simp [h]))

end Sys2Proof.Claims

section
open Sys2Proof Sys2Proof.Machine Sys2Proof.Claims

/-- Settles O7: a reset stops each mailbox that it names, one function after the other; PCIE_PERST_N resets PF0, and what Bus Master Enable
lets go changes no function's gate. -/
theorem functionResetsStopMailboxes : Obligations.FunctionResetsStopMailboxes := by
  intro s
  refine ⟨fun f hs => ?_, fun h => ?_, rfl, fun f b hs => ?_⟩
  · have hexec : exec (.functionLevelReset f) s = .next (s.flr f.val) := congrArg Host.Outcome.next (if_pos hs)
    exact ⟨_, hexec, functionLevelReset_frame f _ _ hexec, fun g hg => s.flr_stops f.val g (hg.imp_right (congrArg Fin.val))⟩
  · have hexec := pciePerst_resets h
    refine ⟨_, hexec, pciePerst_frame _ _ hexec, State.holdEndpoint_perst _, State.holdEndpoint_answers _,
      fun g => ⟨?_, State.holdEndpoint_busMaster ..⟩⟩
    rw [State.holdEndpoint_mbox]
    exact (s.flr_stops 0 g (.inl rfl)).1
  · have hexec := busMasterEnable_gates f b hs
    have hgate (k : Nat) : State.busMaster (if b then (s.gate f.val b).flushHeld f.val else s.gate f.val b) k = (s.gate f.val b).busMaster k := by
      split
      exacts [State.flushHeld_busMaster .., rfl]
    exact ⟨_, hexec, busMasterEnable_frame f b _ _ hexec, (hgate f.val).trans (s.gate_busMaster f.val b),
      fun g hg => (hgate g).trans (s.gate_busMaster_ne b hg)⟩

end

/-! ### Mailboxes and doorbells -/

namespace Sys2Proof.Machine

/-! Two updates of one object of a table are one. -/

theorem tput_tput {α : Type} (t : Tab α) (n : Nat) (v w : α) : tput (tput t n v) n w = tput t n w := by
  induction t with
  | nil => simp [tput]
  | cons e t ih =>
    by_cases hlt : n < e.1
    · simp [tput, hlt]
    by_cases heq : n = e.1
    · simp [tput, heq]
    · simp [tput, hlt, heq, ih]

theorem tset_tset {α : Type} [DecidableEq α] {d : α} (t : Tab α) (n : Nat) {v w : α} (hv : v ≠ d) (hw : w ≠ d) :
    tset d (tset d t n v) n w = tset d t n w := by
  simp only [tset, if_neg hv, if_neg hw, tput_tput]

/-- Two updates of one mailbox are one, where neither leaves it as after reset. -/
theorem State.modMbox_modMbox {s : State} {f : Nat} {g k : Mbox → Mbox} (hg : g (s.mbox f) ≠ {}) (hk : k (g (s.mbox f)) ≠ {}) :
    (s.modMbox f g).modMbox f k = s.modMbox f fun m => k (g m) := by
  unfold State.mbox at hg hk
  unfold State.modMbox tmod
  dsimp only
  rw [tget_tset_self, tset_tset _ _ hg hk]

theorem State.mboxError_mbox_ne (s : State) {f k : Nat} (g : Mbox → Mbox) (h : k ≠ f) : (s.mboxError f g).mbox k = s.mbox k := by
  unfold State.mboxError
  dsimp only
  split
  · exact (raise_mbox ..).trans (modMbox_mbox_ne s g h)
  · exact modMbox_mbox_ne s g h

@[simp] theorem State.raise_inject (s : State) (f v : Nat) : (s.raise f v).host.inject = s.host.inject := by
  unfold State.raise
  dsimp only
  repeat' split
  all_goals rfl

theorem State.mboxError_rings (s : State) (f : Nat) (g : Mbox → Mbox) :
    (s.mboxError f g).host.punt = s.host.punt ∧ (s.mboxError f g).host.inject = s.host.inject := by
  unfold State.mboxError
  dsimp only
  split
  · exact ⟨raise_punt .., raise_inject ..⟩
  · exact ⟨rfl, rfl⟩

theorem Mbox.validRings_iff (m : Mbox) : m.validRings = true ↔ m.cmdBase.toNat % 4096 = 0 ∧ m.rspBase.toNat % 4096 = 0 ∧
    6 ≤ m.cmdLog2.toNat ∧ m.cmdLog2.toNat ≤ 12 ∧ 6 ≤ m.rspLog2.toNat ∧ m.rspLog2.toNat ≤ 12 := by
  simp [Mbox.validRings, and_assoc]

/-- MBOX_CTRL takes its two interrupt enables, whatever else the write does (R71). -/
def Mbox.takeIrqs (word : Nat) (m : Mbox) : Mbox := { m with rspIrqEn := bit word 1, errIrqEn := bit word 2 }

theorem State.writeMboxCtrl_starts {s : State} {f word : Nat} (henable : bit word 0 = true) (hoff : (s.mbox f).enable = false)
    (hrings : (s.mbox f).validRings = true) : s.writeMboxCtrl f word = s.modMbox f fun m => { m with
      enable := true, rspIrqEn := bit word 1, errIrqEn := bit word 2, cmdHead := 0, rspTail := 0, cmdTail := 0,
      rspHead := 0, unraised := 0, responses := [] } := by
  have hset : (s.mbox f).takeIrqs word ≠ {} := by
    intro hreset
    obtain ⟨-, -, hlog, -⟩ := (s.mbox f).validRings_iff.1 hrings
    have hzero : (s.mbox f).cmdLog2 = 0 := congrArg Mbox.cmdLog2 hreset
    simp [hzero] at hlog
  unfold State.writeMboxCtrl
  simp only [henable, hoff, hrings, Bool.not_false, Bool.and_self, if_true]
  exact modMbox_modMbox hset (by simp)

theorem State.writeMboxCtrl_fails {s : State} {f word : Nat} (henable : bit word 0 = true) (hoff : (s.mbox f).enable = false)
    (hrings : (s.mbox f).validRings = false) : s.writeMboxCtrl f word =
      (s.modMbox f (Mbox.takeIrqs word)).mboxError f fun m => { m with enable := false, configError := true } := by
  unfold State.writeMboxCtrl
  simp only [henable, hoff, hrings, Bool.not_false, Bool.and_self, if_true, Bool.false_eq_true, if_false]
  rfl

/-! A doorbell of a punt or inject ring (R72; log entry 130). -/

theorem Ring.doorbell_taken {x : Ring} {used : Nat} {n : BitVec 16} (hon : x.enable = true) (hused : used ≤ (n - x.head).toNat)
    (hsize : (n - x.head).toNat ≤ 2 ^ x.log2) : x.doorbell used n = some { x with tail := n } :=
  if_pos (by simp only [hon, hused, hsize, decide_true, Bool.and_self])

theorem Ring.doorbell_refused {x : Ring} {used : Nat} {n : BitVec 16}
    (h : x.enable = false ∨ 2 ^ x.log2 < (n - x.head).toNat ∨ (n - x.head).toNat < used) : x.doorbell used n = none := by
  refine if_neg fun htaken => ?_
  simp only [Bool.and_eq_true, decide_eq_true_eq] at htaken
  obtain ⟨⟨hon, hused⟩, hsize⟩ := htaken
  rcases h with hoff | hover | hbehind
  · exact absurd (hoff.symm.trans hon) (by decide)
  · omega
  · omega

end Sys2Proof.Machine

namespace Sys2Proof.Claims

open Machine

theorem mboxEnable_writes {s : State} {f : Fin 17} (w : BitVec 32) (h : s.answers = true) :
    exec (.mboxEnable f w) s = .next (s.writeMboxCtrl f.val w.toNat) :=
  congrArg Host.Outcome.next (if_pos h)

theorem mailboxEnableRestartsTheCounts : MailboxEnableRestartsTheCounts := by
  intro s f w hs hoff henable m usable
  refine ⟨fun h => ?_, fun h => ?_⟩
  · rw [mboxEnable_writes w hs, State.writeMboxCtrl_starts henable hoff (m.validRings_iff.2 h)]
  · have hwrite := State.writeMboxCtrl_fails henable hoff (Bool.eq_false_iff.2 fun hv => h (m.validRings_iff.1 hv))
    refine ⟨_, (mboxEnable_writes w hs).trans (congrArg _ hwrite), ?_, ?_, ?_, fun g hg => ?_⟩
    · exact (only_mboxError (by simp)).2 ((only_modMbox (by simp)).2 (Only.refl _ s))
    · rw [State.mboxError_mbox]
    · rw [State.mboxError_mbox]
    · rw [State.mboxError_mbox_ne _ _ hg, State.modMbox_mbox_ne _ _ hg]

/-- A doorbell is discarded with DOORBELL_ERROR, and no count and no ring changes (R72). -/
def Discarded (f : Fin 17) (s t : State) : Prop :=
  Only [.host] s t ∧ (t.mbox f.val).doorbellError = true ∧ (t.mbox f.val).cmdTail = (s.mbox f.val).cmdTail ∧
    (t.mbox f.val).rspHead = (s.mbox f.val).rspHead ∧ t.host.punt = s.host.punt ∧ t.host.inject = s.host.inject

theorem discarded_doorbell (f : Fin 17) (s : State) : Discarded f s (s.mboxError f.val fun m => { m with doorbellError := true }) := by
  obtain ⟨hpunt, hinject⟩ := s.mboxError_rings f.val fun m => { m with doorbellError := true }
  refine ⟨(only_mboxError (by simp)).2 (Only.refl _ s), ?_, ?_, ?_, hpunt, hinject⟩
  all_goals rw [State.mboxError_mbox]

theorem doorbellsStayWithinTheRing : DoorbellsStayWithinTheRing := by
  intro s f n c hs m refused
  have hrefused {i : Instr} (hexec : exec i s = .next (s.mboxError f.val fun m => { m with doorbellError := true })) : refused i :=
    ⟨_, hexec, discarded_doorbell f s⟩
  have hcmd : exec (.cmdTail f c) s = .next (s.ringCmd f.val c) := congrArg Host.Outcome.next (if_pos hs)
  have hrsp : exec (.rspHead f c) s = .next (s.ringRsp f.val c) := congrArg Host.Outcome.next (if_pos hs)
  have hpunt : exec (.puntTail f n c) s = .next (s.ringPunt f.val n.val c) := congrArg Host.Outcome.next (if_pos hs)
  have hinj : exec (.injTail f n c) s = .next (s.ringInj f.val n.val c) := congrArg Host.Outcome.next (if_pos hs)
  refine ⟨fun h => hcmd.trans (congrArg _ (if_pos h)), fun h => hrefused (hcmd.trans (congrArg _ (if_neg (Nat.not_le.2 h)))),
    fun h => hrsp.trans (congrArg _ (if_pos h)), fun h => hrefused (hrsp.trans (congrArg _ (if_neg (Nat.not_le.2 h)))),
    ⟨fun hon hsize hused => ?_, fun h => ?_⟩, fun hon hsize => ?_, fun h => ?_⟩
  · rw [hpunt, State.ringPunt, Ring.doorbell_taken hon hused hsize]
    rfl
  · refine hrefused (hpunt.trans ?_)
    rw [State.ringPunt, Ring.doorbell_refused h]
  · rw [hinj, State.ringInj, Ring.doorbell_taken hon (Nat.zero_le _) hsize]
    rfl
  · refine hrefused (hinj.trans ?_)
    rw [State.ringInj, Ring.doorbell_refused (h.imp_right .inl)]

end Sys2Proof.Claims

section
open Sys2Proof Sys2Proof.Machine Sys2Proof.Claims

/-- Settles O9: ENABLE by whether the rings can be used, each doorbell by whether its count stays within the ring (log entry 130). -/
theorem mailboxesStartAndStayInTheirRings : Obligations.MailboxesStartAndStayInTheirRings :=
  ⟨mailboxEnableRestartsTheCounts, doorbellsStayWithinTheRing⟩

end

/-! ### Wells -/

namespace Sys2Proof.Machine

theorem isCredit_of_lt {n : Nat} (h : n < 4) : isCredit n = true := decide_eq_true h

theorem isCredit_of_le {n : Nat} (h : 4 ≤ n) : isCredit n = false := decide_eq_false (Nat.not_lt.2 h)

theorem Well.done_other {w : Well} {credit : Bool} {gen : Nat} (h : gen ≠ w.readyGen.toNat) : w.done credit gen = w :=
  if_neg (Ne.symm h)

/-- DONE of the closed bank's generation, at a Well whose entries wait for no credit. -/
theorem Well.done_overwrite {w : Well} {gen : Nat} (h : gen = w.readyGen.toNat) :
    w.done false gen = { w with ready := [], creditOut := w.creditOut - w.ready.length } := by
  simp [Well.done, h]

/-- At a credit Well DONE returns the credits of what it drains, and waiting entries take them while the Well is enabled (R91, R92). -/
theorem Well.done_credit {w : Well} {gen : Nat} (h : gen = w.readyGen.toNat) :
    (w.done true gen).ready = [] ∧ (w.done true gen).fill = w.fill ∧ (w.enable = true →
      (w.done true gen).staged = w.staged ++ w.waiting.take (w.size - (w.creditOut - w.ready.length))) := by
  unfold Well.done
  rw [if_pos h.symm]
  cases w.enable
  · simp
  · simp [Well.spend, Well.size]

/-- The bits of a Well's control word, as ENABLE is set in it. -/
theorem State.writeWellCtrl_enables {s : State} {n word : Nat} (h4 : 4 ≤ n) (hoff : (s.well n).enable = false)
    (hset : bit word 0 = true) (hfault : ∀ o, s.wellOwner n = some o → o.fault = false) :
    s.writeWellCtrl n word = s.setWell n (Well.start { s.well n with
      notice := bit word 2, vector := if bits word 8 8 < vectorCount (s.wellFn n) then bits word 8 8 else 0
      log2 := max 7 (bits word 3 4), timeBase := bits word 16 3, enable := true } false) := by
  unfold State.writeWellCtrl
  simp only [hoff, hset, isCredit_of_le h4, if_true, Bool.false_eq_true, if_false]
  split
  next o ho => simp [hfault o ho]
  next => rfl

/-- A write to DRAIN with DONE alone, or with CLOSE alone (R91). -/
theorem State.writeDrain_done {s : State} {n word : Nat} (hdone : bit word 0 = true) (hclose : bit word 1 = false) :
    s.writeDrain n word = s.setWell n ((s.well n).done (isCredit n) (bits word 16 16)) := by
  simp [State.writeDrain, hdone, hclose]

theorem State.writeDrain_close {s : State} {n word : Nat} (hdone : bit word 0 = false) (hclose : bit word 1 = true) :
    s.writeDrain n word = s.setWell n (s.well n).closeReq := by
  simp [State.writeDrain, hdone, hclose]

theorem Well.closeReq_empty {w : Well} (h : w.fill = []) : w.closeReq = w := by
  simp [Well.closeReq, h]

theorem Well.closeReq_refused {w : Well} (hfill : w.fill ≠ []) (hready : w.ready ≠ []) :
    w.closeReq = { w with closeRefused := true } := by
  simp [Well.closeReq, hfill, hready]

theorem Well.closeReq_closes {w : Well} (hfill : w.fill ≠ []) (hready : w.ready = []) : w.closeReq = w.close := by
  simp [Well.closeReq, hfill, hready]

/-- The oldest staged entry lies in the fill bank, and TOTAL and POISONED count it (R89, R93). -/
def Well.takeEntry (w : Well) (e : WellEntry) (rest : List WellEntry) (bad : Bool) : Well :=
  { w with staged := rest, fill := { e with poison := bad } :: w.fill, total := w.total + 1
           poisoned := if bad then w.poisoned + 1 else w.poisoned }

/-- The Well after the Pump's write of its oldest staged entry, before the fill bank is closed (R94). -/
def Well.wrote (w : Well) (e : WellEntry) (rest : List WellEntry) (bad : Bool) : Well :=
  { w.takeEntry e rest bad with levelHit := w.levelHit || decide (w.fill.length + 1 = w.level) }

theorem Well.wrote_eq (w : Well) (e : WellEntry) (rest : List WellEntry) (bad : Bool) :
    (if (w.takeEntry e rest bad).fill.length = (w.takeEntry e rest bad).level then { w.takeEntry e rest bad with levelHit := true }
      else w.takeEntry e rest bad) = w.wrote e rest bad := by
  have hcond : (w.takeEntry e rest bad).fill.length = (w.takeEntry e rest bad).level ↔ w.fill.length + 1 = w.level := Iff.rfl
  unfold Well.wrote
  by_cases h : w.fill.length + 1 = w.level
  · rw [if_pos (hcond.2 h), decide_eq_true h, Bool.or_true]
  · rw [if_neg (mt hcond.1 h), decide_eq_false h, Bool.or_false]
    rfl

/-- The Pump's write, and the close of a fill bank that it fills: the other bank is drained, or its generation is discarded (R89, R90). -/
theorem Well.pump_eq {w : Well} {e : WellEntry} {rest : List WellEntry} (bad : Bool) (h : w.staged = e :: rest) :
    w.pump bad = if w.size ≤ w.fill.length + 1 then
        (if w.ready.isEmpty then w.wrote e rest bad else (w.wrote e rest bad).overwrite).close
      else w.wrote e rest bad := by
  have hpump : w.pump bad =
      let u := if (w.takeEntry e rest bad).fill.length = (w.takeEntry e rest bad).level then { w.takeEntry e rest bad with levelHit := true }
        else w.takeEntry e rest bad
      if u.size ≤ u.fill.length then (if u.ready.isEmpty then u else u.overwrite).close else u := by
    unfold Well.pump
    rw [h]
    rfl
  rw [hpump, Well.wrote_eq]
  rfl

end Sys2Proof.Machine
namespace Sys2Proof.Claims

open Machine

theorem wellControlActsOnItsOwnWell : WellControlActsOnItsOwnWell := by
  intro s f slot w n hs hreach x
  have hdone : exec (.drainDone f slot w) s = .next (s.writeDrain n w.toNat) := by
    refine congrArg Host.Outcome.next ?_
    simp only [hreach, hs, if_true]
  have hclose : exec (.drainClose f slot w) s = .next (s.writeDrain n w.toNat) := hdone
  have henable : exec (.wellEnable f slot w) s = .next (s.writeWellCtrl n w.toNat) := by
    refine congrArg Host.Outcome.next ?_
    simp only [hreach, hs, if_true]
  have hwell (y : Well) : Only [.host] s (s.setWell n y) := (only_setWell (by simp)).2 (Only.refl _ s)
  refine ⟨fun h4 hoff hset hfault => ?_, fun hdo hno h4 => ⟨fun h => ?_, fun h => ?_⟩, fun hlt hdo hno h => ?_,
    fun hno hdo => ⟨fun h => ?_, fun hfill hready => ?_, fun hfill hready => ?_⟩⟩
  · refine ⟨_, henable.trans (congrArg _ (State.writeWellCtrl_enables h4 hoff hset hfault)), hwell _,
      fun k hk => State.setWell_well_ne s _ hk, ?_⟩
    rw [State.setWell_well]
    exact ⟨rfl, rfl, rfl, rfl, rfl, rfl, rfl, rfl, rfl, rfl, rfl⟩
  · rw [hdone, State.writeDrain_done hdo hno, isCredit_of_le h4, Well.done_overwrite h]
  · rw [hdone, State.writeDrain_done hdo hno, Well.done_other h]
  · obtain ⟨hready, hfill, hstaged⟩ := Well.done_credit h
    refine ⟨_, hdone.trans (congrArg _ (State.writeDrain_done hdo hno)), hwell _, ?_⟩
    rw [State.setWell_well, isCredit_of_lt hlt]
    exact ⟨hready, hfill, hstaged⟩
  · rw [hclose, State.writeDrain_close hno hdo, Well.closeReq_empty h]
  · rw [hclose, State.writeDrain_close hno hdo, Well.closeReq_refused hfill hready]
  · rw [hclose, State.writeDrain_close hno hdo, Well.closeReq_closes hfill hready]
    rfl

theorem wellEntryWrite_writes {s : State} {w : Fin 1024} (bad : Bool) (hdma : s.busMaster (s.wellFn w.val) = true) :
    Gives (.wellEntryWrite w bad) s fun t => Only [.host] s t ∧ ∀ k, t.well k = (s.setWell w.val ((s.well w.val).pump bad)).well k := by
  have hexec : exec (.wellEntryWrite w bad) s = .next
      (if (s.well w.val).notices then (s.setWell w.val ((s.well w.val).pump bad)).raise (s.wellFn w.val) (s.well w.val).vector
        else s.setWell w.val ((s.well w.val).pump bad)) := congrArg Host.Outcome.next (if_neg (by simp [hdma]))
  refine ⟨_, hexec, wellEntryWrite_frame w bad _ _ hexec, fun k => ?_⟩
  split
  · exact State.raise_well ..
  · rfl

theorem pumpFillsAndClosesBanks : PumpFillsAndClosesBanks := by
  intro s w e rest bad hstaged x
  refine ⟨fun h => congrArg Host.Outcome.next (if_pos (by simp [h])), fun hdma => ?_⟩
  obtain ⟨t, hexec, honly, hwells⟩ := wellEntryWrite_writes bad hdma
  refine ⟨t, hexec, honly, fun k hk => (hwells k).trans (State.setWell_well_ne s _ hk), ?_⟩
  rw [hwells, State.setWell_well, Well.pump_eq bad hstaged]
  have hlevel : x.fill.length + 1 = x.level → (x.wrote e rest bad).levelHit = true := fun h => by simp [Well.wrote, h]
  have hlevel : x.fill.length + 1 = x.level → (x.wrote e rest bad).levelHit = true := fun h => by simp [Well.wrote, h]
  by_cases hfull : x.size ≤ x.fill.length + 1
  · have hroom {P : Prop} (h : x.fill.length + 1 < x.size) : P := absurd hfull (Nat.not_le.2 h)
    rw [if_pos hfull]
    by_cases hready : x.ready = []
    · rw [if_pos (List.isEmpty_iff.2 hready)]
      exact ⟨rfl, rfl, rfl, hroom, fun _ => ⟨rfl, rfl, rfl, rfl, fun _ => rfl, fun h => absurd hready h⟩, hlevel⟩
    · rw [if_neg (mt List.isEmpty_iff.1 hready)]
      exact ⟨rfl, rfl, rfl, hroom, fun _ => ⟨rfl, rfl, rfl, rfl, fun h => absurd h hready, fun _ => ⟨rfl, rfl⟩⟩, hlevel⟩
  · rw [if_neg hfull]
    exact ⟨rfl, rfl, rfl, fun _ => ⟨rfl, rfl, rfl, rfl⟩, fun h => absurd h hfull, hlevel⟩

end Sys2Proof.Claims

section
open Sys2Proof Sys2Proof.Machine Sys2Proof.Claims

/-- Settles O10: the control words of a Well by what they do to it, the Pump by whether the fill bank has room, and then by whether the
other bank is drained (log entry 88). -/
theorem wellsFillAndClose : Obligations.WellsFillAndClose := ⟨wellControlActsOnItsOwnWell, pumpFillsAndClosesBanks⟩

end

/-! ### Messages, failed accesses and paced entries -/

namespace Sys2Proof.Machine

/-- The vector of a function in the MSI-X table (R97). -/
def State.vector (s : State) (f v : Nat) : MsixVec := tget {} s.host.msix (256 * f + v)

/-- A message that nothing keeps back is sent once (R97). -/
theorem State.raise_sends {s : State} {f v : Nat} (hv : v < vectorCount f) (hmask : (s.vector f v).masked = false)
    (hdma : s.busMaster f = true) : (s.raise f v).host.messages = (f, v) :: s.host.messages := by
  unfold State.vector at hmask
  unfold State.raise
  dsimp only
  rw [if_neg (Nat.not_le.2 hv), if_neg (by simp only [hmask, hdma, Bool.not_true, Bool.or_self, Bool.false_eq_true, not_false_eq_true])]

/-- An unmasked vector is pending no longer, and a message that was pending is sent (R97). -/
theorem State.unmask_sends {s : State} (f v : Nat) (hdma : s.busMaster f = true) :
    (s.unmask f v).vector f v = { s.vector f v with masked := false, pending := false } ∧
    (s.unmask f v).host.messages = if (s.vector f v).pending then (f, v) :: s.host.messages else s.host.messages := by
  unfold State.unmask State.vector
  dsimp only
  rw [if_pos hdma]
  split <;> exact ⟨tget_tset_self .., rfl⟩

end Sys2Proof.Machine

namespace Sys2Proof.Claims

open Machine

theorem msixSendsPendingMessages : MsixSendsPendingMessages := by
  intro s f v hdma
  refine ⟨fun hs hv => ?_, fun hirq hpending htimer hmask hv => ?_⟩
  · have hexec : exec (.msixUnmask f v) s = .next (s.unmask f.val v.val) := congrArg Host.Outcome.next (if_pos (by simp [hs, hv]))
    obtain ⟨hvector, hmessages⟩ := s.unmask_sends f.val v.val hdma
    exact ⟨_, hexec, msixUnmask_frame f v _ _ hexec, hvector, fun h => hmessages.trans (if_pos h),
      fun h => hmessages.trans (if_neg (Bool.eq_false_iff.1 h))⟩
  · have hexec : exec (.msixModerationTimer f) s =
        .next ((s.modMbox f.val fun m => { m with unraised := 0 }).raise f.val (s.mbox f.val).rspVector.toNat) :=
      congrArg Host.Outcome.next (if_pos (by simpa [hirq, hpending] using htimer))
    refine ⟨_, hexec, msixModerationTimer_frame f _ _ hexec, ?_, State.raise_sends hv hmask hdma⟩
    rw [State.raise_mbox, State.modMbox_mbox]

theorem commandDmaTimeout_fails {s : State} (f : Fin 17) (ring : Bool) (a : BitVec 64)
    (h : (s.mbox f.val).enable = true ∨ (s.mbox f.val).inflight ≠ []) :
    Gives (.commandDmaTimeout f ring a) s fun t => Only [.host] s t ∧ (t.mbox f.val).enable = false ∧
      (t.mbox f.val).dmaError = true ∧ ∀ g, g ≠ f.val → t.mbox g = s.mbox g := by
  have hruns : ((s.mbox f.val).enable || !(s.mbox f.val).inflight.isEmpty) = true := by simpa using h
  have hexec : exec (.commandDmaTimeout f ring a) s = .next ((s.mboxError f.val fun m => { m with enable := false, dmaError := true }).alarm
      0 0x0002 (leBytes 1 f.val ++ leBytes 1 (b2n ring) ++ leBytes 8 a.toNat)) := congrArg Host.Outcome.next (if_pos hruns)
  refine ⟨_, hexec, commandDmaTimeout_frame f ring a _ _ hexec, ?_, ?_, fun g hg => ?_⟩
  · rw [State.alarm, State.produce_mbox, State.mboxError_mbox]
  · rw [State.alarm, State.produce_mbox, State.mboxError_mbox]
  · rw [State.alarm, State.produce_mbox, State.mboxError_mbox_ne _ _ hg]

theorem pacedEntryDue_ends {s : State} {k : Nat} {p : Paced} (hp : tget none s.host.paced k = some p) (hrunning : p.running = true)
    (hnone : p.events = 0) : exec (.pacedEntryDue k) s =
      .next { s with host := { s.host with paced := tset none s.host.paced k (some { p with running := false }) } } := by
  refine congrArg Host.Outcome.next ?_
  simp only [hp, hrunning, hnone, Bool.not_true, Bool.false_eq_true, if_false, if_true]

theorem pacedEntryDue_writes {s : State} {k : Nat} {p : Paced} (hp : tget none s.host.paced k = some p) (hrunning : p.running = true)
    (hsome : p.events ≠ 0) : Gives (.pacedEntryDue k) s fun t => Only [.host] s t ∧
      tget none t.host.paced k = some { p with events := 0 } := by
  let u := s.writePaced p p.events
  have hexec : exec (.pacedEntryDue k) s =
      .next { u with host := { u.host with paced := tset none u.host.paced k (some { p with events := 0 }) } } := by
    refine congrArg Host.Outcome.next ?_
    simp only [hp, hrunning, hsome, Bool.not_true, Bool.false_eq_true, if_false]
    rfl
  refine ⟨_, hexec, pacedEntryDue_frame k _ _ hexec, ?_⟩
  dsimp only
  exact tget_tset_self ..

end Sys2Proof.Claims

section
open Sys2Proof Sys2Proof.Machine Sys2Proof.Claims

/-- Settles O11: the two sources of a pending message, a failed access, and a paced entry by whether events came in its second. -/
theorem messagesFailuresAndPacedEntries : Obligations.MessagesFailuresAndPacedEntries :=
  ⟨msixSendsPendingMessages, fun _ f ring a => commandDmaTimeout_fails f ring a,
    fun _ _ _ hp hrunning => ⟨pacedEntryDue_ends hp hrunning, pacedEntryDue_writes hp hrunning⟩⟩

end

/-! ### Injected and punted frames -/

namespace Sys2Proof.Machine

/-! A frame that its queue takes (R251 to R253). -/

@[simp] theorem State.clearDeficit_queue (s : State) (q k : Nat) : (s.clearDeficit q).queue k = s.queue k := by
  unfold State.clearDeficit
  dsimp only
  split <;> rfl

@[simp] theorem State.setItems_queue (s : State) (q : Nat) (l : List QItem) : (s.setItems q l).queue q = { s.queue q with items := l } := by
  rw [State.setItems, clearDeficit_queue]
  exact tget_tmod_self {} s.qos.queues q fun x => { x with items := l }

@[simp] theorem State.gaugeQueue_queue (s : State) (q k : Nat) : (s.gaugeQueue q).queue k = s.queue k := by
  simp [State.queue]

theorem State.settle_off {s : State} {q : Nat} (h : (s.queue q).launchEn = false) : s.settle q = s := if_neg (by simp [h])

theorem State.append_items {s : State} {q : Nat} (x : QItem) (h : (s.queue q).launchEn = false) :
    ((s.append q x).queue q).items = (s.queue q).items ++ [x] := by
  unfold State.append
  dsimp only
  generalize hstored : ({ s with qos := _ } : State) = u
  have hqueue : u.queue q = s.queue q := hstored ▸ rfl
  have hoff : (((u.setItems q ((u.queue q).items ++ [x])).gaugeQueue q).queue q).launchEn = false := by simp [hqueue, h]
  rw [settle_off hoff, ite_self, gaugeQueue_queue, setItems_queue, hqueue]

/-- Fewer cells are found where more are (R253). -/
theorem State.noCell_mono {s : State} {m n : Nat} (hle : m ≤ n) (h : s.noCell n = false) : s.noCell m = false := by
  simp only [State.noCell, Bool.and_eq_false_iff, decide_eq_false_iff_not] at h ⊢
  omega

theorem State.takeIn_admits {s : State} {pipe q colour : Nat} {x : QItem} (hfits : s.fits q x.cells colour = true)
    (hroom : s.noCell x.cells = false) : s.takeIn pipe q colour x = (s.append q x, true) := by
  have hnew : s.noCell (s.newCells x) = false := noCell_mono (Nat.sub_le ..) hroom
  simp [State.takeIn, hfits, hnew]

/-- The frame as it is queued: padded to 60 bytes (R102). -/
def padded (y : Injected) : Bytes := if y.frame.length < 60 then fit 60 y.frame else y.frame

/-- An injected frame for a queue of an ordinary port, which takes it, lies behind the others there. -/
theorem State.inject_queued {s : State} {y : Injected} (hdirect : y.lookup = false) (hradio : s.isRadio (y.queue / 128) = false)
    (hlaunch : (s.queue y.queue).launchEn = false) (hfits : s.fits y.queue (cellsOf ((padded y).length + 4)) 0 = true)
    (hroom : s.noCell (cellsOf ((padded y).length + 4)) = false) :
    ((s.inject y).queue y.queue).items = (s.queue y.queue).items ++
      [{ id := s.qos.nextId, bytes := (padded y), cells := cellsOf ((padded y).length + 4) }] := by
  let x : QItem := { id := s.qos.nextId, bytes := (padded y), cells := cellsOf ((padded y).length + 4) }
  have hinject : s.inject y = (s.newId.2.takeIn (y.queue / 4096) y.queue 0 x).1 := by
    have hqueue : (s.newId.2.queue y.queue).launchEn = false := hlaunch
    unfold State.inject
    simp only [hdirect, Bool.false_eq_true, if_false, hqueue, hradio]
    rfl
  have htaken : s.newId.2.takeIn (y.queue / 4096) y.queue 0 x = (s.newId.2.append y.queue x, true) :=
    takeIn_admits (s := s.newId.2) hfits hroom
  rw [hinject, htaken]
  exact append_items (s := s.newId.2) x hlaunch

/-! The frame at INJ_HEAD is read and judged (R101, R102). -/

/-- The ring after `k` descriptors with the status `code`. -/
def Ring.judged (x : Ring) (k code : Nat) : Ring :=
  { x with head := x.head + BitVec.ofNat 16 k, statuses := (x.head.toNat % 2 ^ x.log2, code) :: x.statuses
           injError := if code = 0 then x.injError else x.injError + 1 }

/-- The ring takes the status, and raises its vector. -/
def State.judgeFrame (s : State) (f n k code : Nat) : State :=
  let t := s.modInj f n (·.judged k code)
  if (s.injRing f n).irqEn then t.raise f (s.injRing f n).vector else t

/-- A message changes neither a ring nor anything outside the host interface. -/
theorem State.raise_eq (s : State) (f v : Nat) :
    ∃ h, s.raise f v = { s with host := h } ∧ h.punt = s.host.punt ∧ h.inject = s.host.inject := by
  unfold State.raise
  dsimp only
  split
  · exact ⟨s.host, rfl, rfl, rfl⟩
  split
  · exact ⟨_, rfl, rfl, rfl⟩
  · exact ⟨_, rfl, rfl, rfl⟩

theorem State.judgeFrame_eq (s : State) (f n k code : Nat) : ∃ h, s.judgeFrame f n k code = { s with host := h } ∧
    h.punt = s.host.punt ∧ tget {} h.inject (ringKey f n) = (s.injRing f n).judged k code := by
  have hring : (s.modInj f n (·.judged k code)).injRing f n = (s.injRing f n).judged k code := modInj_injRing ..
  unfold State.judgeFrame
  dsimp only
  split
  · obtain ⟨h, hraise, hpunt, hinject⟩ := (s.modInj f n (·.judged k code)).raise_eq f (s.injRing f n).vector
    exact ⟨h, hraise, hpunt, hinject ▸ hring⟩
  · exact ⟨_, rfl, rfl, hring⟩

/-- What admission looks at, but for the frames of the punt rings, is not part of the host interface (R249, R253). -/
theorem State.noCell_host (s : State) {h : HostIf} (hpunt : h.punt = s.host.punt) (n : Nat) :
    State.noCell { s with host := h } n = s.noCell n := by
  have hcrossing (pipe : Nat) : State.crossing { s with host := h } pipe = s.crossing pipe := by
    simp only [State.crossing, hpunt]
  have hfree : State.freeCells { s with host := h } = s.freeCells := by
    unfold State.freeCells
    rw [funext hcrossing]
    rfl
  rw [State.noCell, State.noCell, hfree]

theorem State.pairSend_releases (s : State) (m : PairMsg) : (s.pairSend m).pair.releases = s.pair.releases := by
  unfold State.pairSend
  split <;> rfl

theorem State.carry_releases (s : State) (delay : Nat) (r : Release) :
    (s.carry delay r).pair.releases = insertRelease s.pair.releases (s.epoch + delay) r := by
  unfold State.carry
  dsimp only
  rw [pairSend_releases]
  rfl

/-! Cells of punted frames (R100). -/

/-- The last cell of a frame goes to its buffer, and the frame is complete. -/
theorem Ring.cell_last {x : Ring} {p : PuntFrame} {rest : List PuntFrame} (hframes : x.frames = p :: rest)
    (hdropping : x.dropping = false) (hlast : p.bytes.length ≤ p.arrived + 256) (hfree : x.freeBufs ≠ 0) :
    x.cell.1 = { (x.addCell p ((p.bytes.drop p.arrived).take 256)).writeBack p false with frames := rest, dropping := false } := by
  simp only [Ring.cell, hframes, hdropping, hlast, hfree, decide_true, decide_false, Bool.and_false, Bool.false_eq_true, if_true,
    if_false]

/-- A frame of one cell, with no buffer open, takes one buffer. -/
theorem Ring.cell_whole {x : Ring} {p : PuntFrame} {rest : List PuntFrame} (hframes : x.frames = p :: rest)
    (hdropping : x.dropping = false) (harrived : p.arrived = 0) (hshort : p.bytes.length ≤ 256) (hbufs : x.bufs = [])
    (hfree : x.freeBufs ≠ 0) :
    x.cell.1 = { ({ x with bufs := [p.bytes] }).writeBack p false with frames := rest, dropping := false } := by
  have hcell : (p.bytes.drop p.arrived).take 256 = p.bytes := by simp [harrived, List.take_of_length_le hshort]
  have hadd : x.addCell p p.bytes = { x with bufs := [p.bytes] } := by simp [Ring.addCell, harrived, hbufs]
  rw [cell_last hframes hdropping (harrived ▸ hshort) hfree, hcell, hadd]

/-- A frame whose first cell finds no buffer is dropped. -/
theorem Ring.cell_noBuffer {x : Ring} {p : PuntFrame} {rest : List PuntFrame} (hframes : x.frames = p :: rest)
    (hdropping : x.dropping = false) (harrived : p.arrived = 0) (hfree : x.freeBufs = 0) :
    x.cell.1 = if p.bytes.length ≤ 256 then { x with nobufDrop := x.nobufDrop + 1, frames := rest, dropping := false }
      else { x with nobufDrop := x.nobufDrop + 1, frames := { p with arrived := 256 } :: rest, dropping := true } := by
  simp only [Ring.cell, hframes, hdropping, harrived, hfree, Nat.zero_mod, Nat.zero_add, decide_true, Bool.and_self, if_true,
    Bool.false_eq_true, if_false, decide_eq_true_eq]

/-- A frame that finds no buffer for a later cell is dropped, and its buffers are written back unused. -/
theorem Ring.cell_truncated {x : Ring} {p : PuntFrame} {rest : List PuntFrame} (hframes : x.frames = p :: rest)
    (hdropping : x.dropping = false) (hbegun : p.arrived ≠ 0) (hnext : p.arrived % x.bufSize = 0) (hfree : x.freeBufs = 0) :
    ∃ l b, x.cell.1 = { x.writeBack p true with truncDrop := x.truncDrop + 1, frames := l, dropping := b } := by
  simp only [Ring.cell, hframes, hdropping, hnext, hfree, hbegun, decide_true, Bool.and_self, if_true, Bool.false_eq_true, if_false]
  split
  · exact ⟨_, _, rfl⟩
  · exact ⟨_, _, rfl⟩

/-- Each buffer of the frame is written back once. -/
theorem Ring.writeBack_written_length (x : Ring) (p : PuntFrame) (discard : Bool) :
    (x.writeBack p discard).written.length = x.written.length + x.bufs.length := by
  simp [Ring.writeBack, Nat.add_comm]

/-- The ring after a cell: a message about it does not change it. -/
theorem puntCellArrival_next {s : State} {f : Fin 17} {n : Fin 64} (hconf : (s.puntRing f.val n.val).configured = true)
    (hdma : s.busMaster f.val = true) :
    ∃ t, exec (.puntCellArrival f n) s = .next t ∧ t.puntRing f.val n.val = (s.puntRing f.val n.val).cell.1 := by
  refine ⟨_, congrArg Host.Outcome.next (if_pos (by rw [hconf, hdma]; rfl)), ?_⟩
  have hring (u : State) (v : Nat) : (u.raise f.val v).puntRing f.val n.val = u.puntRing f.val n.val :=
    congrArg (fun l => tget ({} : Ring) l (ringKey f.val n.val)) (State.raise_punt u f.val v)
  dsimp only
  split
  · rw [hring, State.modPunt_puntRing]
  · exact State.modPunt_puntRing ..

end Sys2Proof.Machine

namespace Sys2Proof.Claims

open Machine

/-- What becomes of the frame once it is judged: a refused one goes nowhere, the active device of a pair carries it, M3 SOLO injects it
(R102, R555). -/
def injected (u : State) (code : Nat) (y : Injected) : State :=
  if code ≠ 0 then u else if u.ms.mode == .m4 then u.carry 64 (.inject y) else u.inject y

/-- The frame that descriptors and what their buffers hold present (R101). -/
def presented (f : Nat) (descs : List Bytes) (frame : Bytes) : Injected :=
  let d := descs.headD []
  { fn := f, lookup := injFlag d 2, queue := bits (leAt d 12 2) 0 15, frame := frame
    launch := if injFlag d 3 then some (leAt d 16 6 * 1000000000 + leAt d 22 4) else none }

theorem carry_injRing (s : State) (delay : Nat) (r : Release) (f n : Nat) :
    (s.carry delay r).injRing f n = s.injRing f n := by
  have hhost : (s.carry delay r).host = s.host := ((only_carry (by decide)).2 (Only.refl [.pair] s)) .host (by decide)
  exact congrArg (fun h : HostIf => tget {} h.inject (ringKey f n)) hhost

theorem injectFrameRead_reads {s : State} {f : Fin 17} {n : Fin 64} {read : List Bytes} (given : Bytes)
    (hon : (s.injRing f.val n.val).enable = true) (hdma : s.busMaster f.val = true) (hsome : injDescs read ≠ [])
    (hposted : (injDescs read).length ≤ ((s.injRing f.val n.val).tail - (s.injRing f.val n.val).head).toNat)
    (heof : injFlag ((injDescs read).getLastD []) 1 = true) (hmode : s.ms.mode = .m3 ∨ s.ms.mode = .m4) :
    let frame := fit (sumNat ((injDescs read).map injLen)) given
    let code := s.injStatus f.val (injDescs read) frame
    exec (.injectFrameRead f n read given) s =
      .next (injected (s.judgeFrame f.val n.val (injDescs read).length code) code (presented f.val (injDescs read) frame)) := by
  intro frame code
  refine congrArg Host.Outcome.next ((if_neg ?_).trans rfl)
  have hlen : (injDescs read).length ≠ 0 := mt List.length_eq_zero_iff.1 hsome
  have hroom : ¬ ((s.injRing f.val n.val).tail - (s.injRing f.val n.val).head).toNat < (injDescs read).length := Nat.not_lt.2 hposted
  rcases hmode with hmode | hmode <;> simp [hmode, hon, hdma, hlen, heof, hroom, -BitVec.toNat_sub, -List.getLastD_eq_getLast?]

theorem injected_refused (u : State) {code : Nat} (y : Injected) (h : code ≠ 0) : injected u code y = u := if_pos h

theorem injected_carried {u : State} (y : Injected) (h : u.ms.mode = .m4) : injected u 0 y = u.carry 64 (.inject y) := by
  simp [injected, h]

theorem injected_solo {u : State} (y : Injected) (h : u.ms.mode = .m3) : injected u 0 y = u.inject y := by
  simp [injected, h]

section
variable {s : State} {h : HostIf} {code : Nat} {y : Injected}

/-- The ring of a frame that is refused or carried is the judged one. -/
theorem injected_injRing {f n : Nat} (hjudged : code ≠ 0 ∨ s.ms.mode = .m4) :
    (injected { s with host := h } code y).injRing f n = tget {} h.inject (ringKey f n) := by
  by_cases hcode : code = 0
  · subst hcode
    rw [injected_carried (u := { s with host := h }) y (hjudged.resolve_left (absurd rfl)), carry_injRing]
    rfl
  · rw [injected_refused _ y hcode]
    rfl

theorem injected_refused_only (hcode : code ≠ 0) : Only [.host] s (injected { s with host := h } code y) := by
  rw [injected_refused _ y hcode]
  exact (only_host_update (by decide)).2 (Only.refl _ s)

theorem injected_carried_only (hcode : code = 0) (hmode : s.ms.mode = .m4) :
    Only [.host, .pair] s (injected { s with host := h } code y) ∧
      (injected { s with host := h } code y).pair.releases = insertRelease s.pair.releases (s.epoch + 64) (.inject y) := by
  subst hcode
  rw [injected_carried (u := { s with host := h }) y hmode]
  exact ⟨(only_carry (by decide)).2 ((only_host_update (by decide)).2 (Only.refl _ s)), State.carry_releases ..⟩

theorem injected_solo_items (hpunt : h.punt = s.host.punt) (hcode : code = 0) (hmode : s.ms.mode = .m3) (hdirect : y.lookup = false)
    (hradio : s.isRadio (y.queue / 128) = false) (hlaunch : (s.queue y.queue).launchEn = false)
    (hfits : s.fits y.queue (cellsOf ((padded y).length + 4)) 0 = true) (hroom : s.noCell (cellsOf ((padded y).length + 4)) = false) :
    ((injected { s with host := h } code y).queue y.queue).items = (s.queue y.queue).items ++
      [{ id := s.qos.nextId, bytes := padded y, cells := cellsOf ((padded y).length + 4) }] := by
  subst hcode
  rw [injected_solo (u := { s with host := h }) y hmode]
  exact State.inject_queued (s := { s with host := h }) hdirect hradio hlaunch hfits ((s.noCell_host hpunt _).trans hroom)

end

end Sys2Proof.Claims

section
open Sys2Proof Sys2Proof.Machine Sys2Proof.Claims

/-- Settles O34: a frame that is refused is consumed up to its first EOF and takes the first refusal that applies (log entries 99
and 130). The judged ring lies in the host interface, at which admission to a queue does not look but for the punt rings. -/
theorem injectedAndPuntedFrames : Obligations.InjectedAndPuntedFrames := by
  unfold Obligations.InjectedAndPuntedFrames
  refine ⟨?inject, ?punt⟩
  case inject =>
    intro s f n read given x descs frame code d q y hon hdma hsome hposted heof hmode
    obtain ⟨h, hu, hpunt, hring⟩ := s.judgeFrame_eq f.val n.val descs.length code
    have hexec : exec (.injectFrameRead f n read given) s = .next (injected { s with host := h } code y) :=
      (injectFrameRead_reads given hon hdma hsome hposted heof hmode).trans (by rw [hu]; rfl)
    clear_value code frame
    refine gives_of_next hexec ⟨injectFrameRead_frame f n read given s _ hexec, fun hjudged => ?ring, fun hcode => ?refused,
      fun hcode hmode => ?carried, fun hcode hmode hdirect hradio hlaunch => ?queued⟩
    case ring =>
      simp only [injected_injRing hjudged, hring]
      exact ⟨rfl, rfl, rfl, rfl⟩
    case refused => exact injected_refused_only hcode
    case carried => exact injected_carried_only hcode hmode
    case queued =>
      intro b cells hfits hroom
      exact injected_solo_items (y := y) hpunt hcode hmode hdirect hradio hlaunch hfits hroom
  case punt =>
    intro s f n p rest x hconf hdma hframes hdropping
    obtain ⟨t, hexec, hring⟩ := puntCellArrival_next (n := n) hconf hdma
    refine gives_of_next hexec ⟨puntCellArrival_frame f n s t hexec, ?_⟩
    simp only [hring]
    refine ⟨fun harrived hshort hbufs hfree => ?whole, fun harrived hfree => ?atStart, fun hbegun hnext hfree => ?inMiddle⟩
    case whole =>
      rw [Ring.cell_whole hframes hdropping harrived hshort hbufs hfree]
      exact ⟨rfl, rfl, rfl, rfl, by simp [Ring.writeBack, -BitVec.toNat_add]⟩
    case atStart =>
      rw [Ring.cell_noBuffer hframes hdropping harrived hfree]
      split
      · exact ⟨rfl, rfl, rfl, fun hlong => by omega⟩
      · exact ⟨rfl, rfl, rfl, fun _ => rfl⟩
    case inMiddle =>
      obtain ⟨l, b, hcell⟩ := Ring.cell_truncated hframes hdropping hbegun hnext hfree
      rw [hcell]
      exact ⟨rfl, rfl, Ring.writeBack_written_length ..⟩

end

/-! PROOFS. The statements of ports and lanes: modules, buses and sensors, the settings and queries of ports, and the frames that are
received and sent. -/

/-! ### Modules -/

namespace Sys2Proof.Machine

theorem State.cageSt_of_ports {s t : State} (h : t.ports = s.ports) (k : Nat) : t.cageSt k = s.cageSt k := by
  simp only [State.cageSt, h]

/-- The data paths that a module activates, one for each port that its cage serves (R182). -/
def State.pathsOf (s : State) (c : Cage) : List (Nat × Nat) := c.portsOf.map fun p => (p, (s.portCfg p).mode)

theorem State.moduleUp_eq {s : State} {n : Nat} {c : Cage} (h : tget none s.cfg.cages n = some c) :
    s.moduleUp n = s.modCage n fun y => { y with ready := true, paths := s.pathsOf c } := by
  unfold State.moduleUp
  rw [h]
  rfl

theorem State.moduleUp_cageSt_ne (s : State) {n k : Nat} (h : k ≠ n) : (s.moduleUp n).cageSt k = s.cageSt k := by
  unfold State.moduleUp
  split
  · exact modCage_cageSt_ne s _ h
  · rfl

/-- A module appears, and is brought to ModuleReady, or disappears (R182). -/
def State.moduleProbed (s : State) (n : Nat) (present : Bool) : State :=
  let t := s.modCage n fun _ => { present := present, fault := (s.cageSt n).fault && !present }
  if present then t.moduleUp n else t

theorem State.moduleProbed_cageSt {s : State} {n : Nat} {c : Cage} (h : tget none s.cfg.cages n = some c) (present : Bool) :
    (s.moduleProbed n present).cageSt n =
      if present then { present := true, ready := true, paths := s.pathsOf c } else { fault := (s.cageSt n).fault } := by
  cases present with
  | false => simp [moduleProbed]
  | true =>
    have hcage (g : CageSt → CageSt) : tget none (s.modCage n g).cfg.cages n = some c := h
    simp only [moduleProbed, if_true, moduleUp_eq (hcage _), modCage_cageSt]
    simp [pathsOf, State.portCfg, State.modCage]

theorem State.moduleProbed_cageSt_ne (s : State) {n k : Nat} (h : k ≠ n) (present : Bool) :
    (s.moduleProbed n present).cageSt k = s.cageSt k := by
  unfold State.moduleProbed
  dsimp only
  split
  · rw [moduleUp_cageSt_ne _ h, modCage_cageSt_ne s _ h]
  · exact modCage_cageSt_ne s _ h

/-- The flags of a module are noted, and one that was reset is brought to ModuleReady again (R182, R186). -/
def State.flagsNoted (s : State) (n : Nat) (flags : List (Nat × Byte)) : State :=
  let t := s.modCage n fun y => { y with flags := flags }
  if (s.cageSt n).ready then t else t.moduleUp n

theorem State.flagsNoted_cageSt {s : State} {n : Nat} {c : Cage} (h : tget none s.cfg.cages n = some c) (flags : List (Nat × Byte)) :
    (s.flagsNoted n flags).cageSt n = if (s.cageSt n).ready then { s.cageSt n with flags := flags }
      else { s.cageSt n with flags := flags, ready := true, paths := s.pathsOf c } := by
  have hcage (g : CageSt → CageSt) : tget none (s.modCage n g).cfg.cages n = some c := h
  unfold State.flagsNoted
  dsimp only
  split
  · rw [modCage_cageSt]
  · rw [moduleUp_eq (hcage _), modCage_cageSt, modCage_cageSt]
    rfl

theorem State.flagsNoted_host (s : State) (n : Nat) (flags : List (Nat × Byte)) : (s.flagsNoted n flags).host = s.host := by
  unfold State.flagsNoted
  dsimp only
  split <;> simp [State.modCage]

/-- A flag byte that is newly set is reported (R186); `x` is the module's state before. -/
def State.flagTold (c : Cage) (n : Nat) (x : CageSt) (s : State) (f : Nat × Byte) : State :=
  if f.2 == 0 || x.flags.contains f then s else s.portEvent 0x0605 c.firstPort n f.1 f.2.toNat

theorem State.foldl_flagTold_ports (c : Cage) (n : Nat) (x : CageSt) (flags : List (Nat × Byte)) (s : State) :
    (flags.foldl (State.flagTold c n x) s).ports = s.ports :=
  foldl_ports _ (fun s f => by unfold State.flagTold; split <;> simp) flags s

theorem State.foldl_flagTold_known (c : Cage) (n : Nat) {x : CageSt} {flags : List (Nat × Byte)} (h : ∀ f ∈ flags, f ∈ x.flags)
    (s : State) : flags.foldl (State.flagTold c n x) s = s := by
  induction flags generalizing s with
  | nil => rfl
  | cons f flags ih =>
    rw [List.foldl_cons, State.flagTold, if_pos (by simp [h f List.mem_cons_self])]
    exact ih (fun g hg => h g (List.mem_cons_of_mem f hg)) s

end Sys2Proof.Machine

namespace Sys2Proof.Claims

open Machine

variable {s : State} {cage : Fin 128} {c : Cage}

/-! OPTICS_PROBE and OPTICS_FLAG_POLL (R182, R185, R186). -/

theorem opticsProbe_same (present : Bool) (hcage : tget none s.cfg.cages cage.val = some c) (h : present = (s.cageSt cage.val).present) :
    exec (.opticsProbe cage present) s = .next s := by
  change execOpticsProbe cage present s = _
  simp [execOpticsProbe, hcage, h]

theorem opticsProbe_changes {present : Bool} (hcage : tget none s.cfg.cages cage.val = some c) (hdrive : s.ports.driving = true)
    (hbus : tget .untried s.ports.buses c.master ≠ .outOfService) (h : present ≠ (s.cageSt cage.val).present) :
    exec (.opticsProbe cage present) s = .next ((s.moduleProbed cage.val present).portEvent (if present then 0x0603 else 0x0604)
      c.firstPort cage.val 0) := by
  change execOpticsProbe cage present s = _
  simp [execOpticsProbe, hcage, hdrive, hbus, h, State.moduleProbed]

theorem opticsProbe_takes {present : Bool} (hcage : tget none s.cfg.cages cage.val = some c) (hdrive : s.ports.driving = true)
    (hbus : tget .untried s.ports.buses c.master ≠ .outOfService) (h : present ≠ (s.cageSt cage.val).present) :
    Gives (.opticsProbe cage present) s fun t => Only [.host, .ports] s t ∧
      t.cageSt cage.val = (if present then { present := true, ready := true, paths := s.pathsOf c }
        else { fault := (s.cageSt cage.val).fault }) ∧ ∀ k, k ≠ cage.val → t.cageSt k = s.cageSt k := by
  have hexec := opticsProbe_changes hcage hdrive hbus h
  have hports (k : Nat) := State.cageSt_of_ports (s := s.moduleProbed cage.val present)
    (t := (s.moduleProbed cage.val present).portEvent (if present then 0x0603 else 0x0604) c.firstPort cage.val 0) (by simp) k
  exact gives_of_next hexec ⟨exec_frame (.opticsProbe cage present) s _ hexec, (hports _).trans (State.moduleProbed_cageSt hcage present),
    fun k hk => (hports k).trans (s.moduleProbed_cageSt_ne hk present)⟩

theorem opticsFlagPoll_absent (flags : List (Nat × Byte)) (hcage : tget none s.cfg.cages cage.val = some c)
    (h : (s.cageSt cage.val).present = false) : exec (.opticsFlagPoll cage flags) s = .next s := by
  change execOpticsFlagPoll cage flags s = _
  simp [execOpticsFlagPoll, hcage, h]

theorem opticsFlagPoll_polls (flags : List (Nat × Byte)) (hcage : tget none s.cfg.cages cage.val = some c) (hdrive : s.ports.driving = true)
    (hpresent : (s.cageSt cage.val).present = true) (hfault : (s.cageSt cage.val).fault = false)
    (hout : tget .untried s.ports.buses c.master ≠ .outOfService) (hback : tget .untried s.ports.buses c.master ≠ .recovering) :
    exec (.opticsFlagPoll cage flags) s =
      .next (flags.foldl (State.flagTold c cage.val (s.cageSt cage.val)) (s.flagsNoted cage.val flags)) := by
  change execOpticsFlagPoll cage flags s = _
  simp only [execOpticsFlagPoll, hcage]
  rw [if_neg (by simp [hdrive, hpresent, hfault, hout, hback])]
  rfl

theorem opticsFlagPoll_takes (flags : List (Nat × Byte)) (hcage : tget none s.cfg.cages cage.val = some c) (hdrive : s.ports.driving = true)
    (hpresent : (s.cageSt cage.val).present = true) (hfault : (s.cageSt cage.val).fault = false)
    (hout : tget .untried s.ports.buses c.master ≠ .outOfService) (hback : tget .untried s.ports.buses c.master ≠ .recovering) :
    Gives (.opticsFlagPoll cage flags) s fun t => Only [.host, .ports] s t ∧
      t.cageSt cage.val = (if (s.cageSt cage.val).ready then { s.cageSt cage.val with flags := flags }
        else { s.cageSt cage.val with flags := flags, ready := true, paths := s.pathsOf c }) ∧
      ((∀ f ∈ flags, f ∈ (s.cageSt cage.val).flags) → t.host = s.host) := by
  have hexec := opticsFlagPoll_polls flags hcage hdrive hpresent hfault hout hback
  refine gives_of_next hexec ⟨exec_frame (.opticsFlagPoll cage flags) s _ hexec, ?_, fun hknown => ?_⟩
  · rw [State.cageSt_of_ports (State.foldl_flagTold_ports ..), State.flagsNoted_cageSt hcage]
  · rw [State.foldl_flagTold_known c cage.val hknown, State.flagsNoted_host]

end Sys2Proof.Claims

/-! ### Buses -/

namespace Sys2Proof.Machine

theorem State.portEvent_ports (s : State) (type port cage reason detail : Nat) :
    (s.portEvent type port cage reason detail).ports = s.ports := by simp

theorem State.takeDown_buses (s : State) (p reason : Nat) : (s.takeDown p reason).ports.buses = s.ports.buses := by
  unfold State.takeDown
  rw [takeDownFor_ports]
  split <;> rfl

theorem State.resetCage_buses (s : State) (n : Nat) : (s.resetCage n).ports.buses = s.ports.buses := by
  unfold State.resetCage
  split
  · exact foldl_keeps (fun s => s.ports.buses) (fun s p => s.takeDown_buses p 7) ..
  · rfl

theorem State.markCage_buses (bus : Nat) (s : State) (n : Nat) : (State.markCage bus s n).ports.buses = s.ports.buses := by
  unfold State.markCage
  split
  · rw [portEvent_ports]
    rfl
  · rfl

/-- The recovery of a bus brings it back or leaves it out of service, and leaves the state of every other bus (R185). -/
theorem State.recoverBus_buses (s : State) (bus : Nat) (sda : List Bool) : (s.recoverBus bus sda).ports.buses =
    tset .untried s.ports.buses bus (if (s.recovery bus sda).inService then .recovering else .outOfService) := by
  have hmarked (u : State) := foldl_keeps (fun s => s.ports.buses) (markCage_buses bus) (s.recovery bus sda).marked u
  have hreset (u : State) := foldl_keeps (fun s => s.ports.buses) resetCage_buses (s.recovery bus sda).reset u
  unfold State.recoverBus
  dsimp only
  generalize hv : ((s.recovery bus sda).marked.foldl (State.markCage bus) _ : State) = v
  have hbuses : v.ports.buses = tset .untried s.ports.buses bus (if (s.recovery bus sda).inService then .recovering else .outOfService) := by
    rw [← hv, hmarked, hreset]
  simp only [apply_ite State.ports, portEvent_ports, ite_self, hbuses]

/-- A bus whose SDA stays low through the three attempts of nine clocks, and that has no multiplexer to reset, is given up (R185). -/
theorem State.recovery_stuck {s : State} {bus : Nat} (h : s.busCages bus = []) :
    s.recovery bus (List.replicate 33 false) = { inService := false } := by
  have hloop : recoverLoop 3 (List.replicate 33 false) = (false, []) := by decide
  unfold State.recovery
  rw [hloop, h]
  rfl

/-- A recovery that finds SDA high does no more than mark the bus. -/
theorem State.recoverBus_quiet (s : State) (bus : Nat) :
    s.recoverBus bus [] = { s with ports := { s.ports with buses := tset .untried s.ports.buses bus .recovering } } := rfl

end Sys2Proof.Machine

namespace Sys2Proof.Claims

open Machine

variable {s : State} {bus : Fin 16}

/-! I2C_STRETCH_TIMEOUT (R185). -/

theorem i2cStretchTimeout_recovers (sda : List Bool) (hdrive : s.ports.driving = true)
    (hbus : tget .untried s.ports.buses bus.val ≠ .outOfService) :
    exec (.i2cStretchTimeout bus sda) s = .next (s.recoverBus bus.val sda) :=
  congrArg Host.Outcome.next (if_pos (by simp [hdrive, hbus]))

theorem recoverBus_bus (s : State) (bus : Nat) (sda : List Bool) : tget .untried (s.recoverBus bus sda).ports.buses bus =
    if (s.recovery bus sda).inService then .recovering else .outOfService := by
  rw [State.recoverBus_buses, tget_tset_self]

theorem i2cStretchTimeout_ends (hdrive : s.ports.driving = true) (hbus : tget .untried s.ports.buses bus.val ≠ .outOfService) :
    (∀ sda, Gives (.i2cStretchTimeout bus sda) s fun t => tget .untried t.ports.buses bus.val =
      (if (s.recovery bus.val sda).inService then .recovering else .outOfService)) ∧
    (Gives (.i2cStretchTimeout bus []) s fun t => tget .untried t.ports.buses bus.val = .recovering ∧ Only [.ports] s t) ∧
    (s.busCages bus.val = [] → Gives (.i2cStretchTimeout bus (List.replicate 33 false)) s fun t =>
      tget .untried t.ports.buses bus.val = .outOfService) := by
  have hexec (sda : List Bool) := i2cStretchTimeout_recovers sda hdrive hbus
  refine ⟨fun sda => gives_of_next (hexec sda) (recoverBus_bus s bus.val sda), gives_of_next (hexec []) ⟨recoverBus_bus s bus.val [], ?_⟩,
    fun hnone => gives_of_next (hexec _) ?_⟩
  · rw [State.recoverBus_quiet]
    exact (only_ports_update (by decide)).2 (Only.refl _ s)
  · rw [recoverBus_bus, State.recovery_stuck hnone]
    rfl

end Sys2Proof.Claims

/-! ### Reference clocks -/

namespace Sys2Proof.Machine

/-- Loss of lock of one lane: it is unlocked, and no other lane is locked. -/
theorem State.unlockLane_laneLocked (s : State) (l k : Nat) :
    tget false (s.unlockLane l).ports.laneLocked k = (decide (k ≠ l) && tget false s.ports.laneLocked k) := by
  unfold State.unlockLane
  by_cases hk : k = l
  · subst hk
    split
    · simp [State.count]
    · simp_all
  · split
    · simpa [State.count, hk] using tget_tset_ne false s.ports.laneLocked false hk
    · simp [hk]

theorem State.unlockLanes_laneLocked (l : List Nat) (s : State) (k : Nat) :
    tget false (l.foldl State.unlockLane s).ports.laneLocked k = (decide (k ∉ l) && tget false s.ports.laneLocked k) := by
  induction l generalizing s with
  | nil => simp
  | cons n l ih =>
    rw [List.foldl_cons, ih, unlockLane_laneLocked]
    by_cases hk : k = n <;> simp [hk]

theorem State.foldl_takeDownFor_laneLocked (l : List Nat) (reason siteReason : Nat) (s : State) :
    (l.foldl (fun s p => s.takeDownFor p reason siteReason) s).ports.laneLocked = s.ports.laneLocked := by
  induction l generalizing s with
  | nil => rfl
  | cons p l ih =>
    rw [List.foldl_cons, ih, takeDownFor_ports]
    split <;> rfl

/-- The lanes of a tile. -/
def tileLanes (tile : Nat) : List Nat := (List.range 64).map (64 * tile + ·)

/-- The lanes of a tile have lost their lock. -/
def State.lanesLost (s : State) (tile : Nat) : State := (tileLanes tile).foldl State.unlockLane s

/-- The ports of a tile that hold a setting. -/
def State.portsOnTile (s : State) (tile : Nat) : List Nat := (s.cfg.ports.map (·.1)).filter fun p => p / 32 == tile

theorem State.lanesLost_cfg (s : State) (tile : Nat) : (s.lanesLost tile).cfg = s.cfg :=
  foldl_cfg _ (fun s l => by simp) _ s

theorem State.tileLost_eq (s : State) (tile : Nat) : s.tileLost tile =
    ((s.portsOnTile tile).foldl (fun s p => s.takeDownFor p 2 2) (s.lanesLost tile)).setRings := by
  have hcfg := s.lanesLost_cfg tile
  unfold State.lanesLost tileLanes at *
  simp only [State.tileLost, State.portsOnTile, hcfg]

theorem State.setRings_laneLocked (s : State) : s.setRings.ports.laneLocked = s.ports.laneLocked := rfl

theorem State.setRings_refclkTile (s : State) : s.setRings.pins.refclkTile = s.pins.refclkTile := rfl

theorem State.setRings_portSt (s : State) (k : Nat) : s.setRings.portSt k = s.portSt k := rfl

theorem State.tileLost_laneLocked (s : State) (tile : Nat) (i : Fin 64) :
    tget false (s.tileLost tile).ports.laneLocked (64 * tile + i.val) = false := by
  have hmem : 64 * tile + i.val ∈ tileLanes tile := List.mem_map_of_mem (List.mem_range.2 i.isLt)
  rw [tileLost_eq, setRings_laneLocked, foldl_takeDownFor_laneLocked, lanesLost, unlockLanes_laneLocked]
  simp [hmem]

theorem State.tileLost_linkUp (s : State) {tile p : Nat} (hp : p ∈ s.cfg.ports.map (·.1)) (htile : p / 32 = tile) :
    ((s.tileLost tile).portSt p).linkUp = false := by
  have hmem : p ∈ s.portsOnTile tile := List.mem_filter.2 ⟨hp, beq_iff_eq.2 htile⟩
  rw [tileLost_eq, setRings_portSt, foldl_linkUp fun s p k => s.takeDownFor_linkUp p 2 2 k]
  simp [hmem]

theorem State.tileLost_refclkTile (s : State) (tile : Nat) : (s.tileLost tile).pins.refclkTile = s.pins.refclkTile := by
  rw [tileLost_eq, setRings_refclkTile, foldl_pins _ (fun s p => by simp)]
  exact congrArg Pins.refclkTile (foldl_pins _ (fun s l => by simp) _ s)

/-- The tile has no REFCLK any more. -/
def State.clockStopped (s : State) (tile : Nat) : State :=
  { s with pins := { s.pins with refclkTile := s.pins.refclkTile &&& ~~~BitVec.ofNat 8 (2 ^ tile) } }

theorem State.clockStopped_refclkTile (s : State) {tile : Nat} (h : tile < 8) : (s.clockStopped tile).pins.refclkTile.getLsbD tile = false := by
  simp only [clockStopped, BitVec.getLsbD_and, BitVec.getLsbD_not, BitVec.getLsbD_ofNat]
  simp [h, Nat.testBit_two_pow_self]

end Sys2Proof.Machine

namespace Sys2Proof.Claims

open Machine

/-! REFCLK_LOST (R672). -/

theorem refclkLost_again {s : State} {tile : Fin 9} (h : tile.val < 8) (hlost : s.pins.refclkTile.getLsbD tile.val = false) :
    exec (.refclkLost tile) s = .next s :=
  congrArg Host.Outcome.next ((if_neg (by omega)).trans (if_neg (by simp [hlost])))

theorem refclkLost_stops {s : State} {tile : Fin 9} (h : tile.val < 8) (hclock : s.pins.refclkTile.getLsbD tile.val = true)
    (hmode : s.ms.mode ≠ .m0) : exec (.refclkLost tile) s = .next ((s.clockStopped tile.val).tileLost tile.val) :=
  congrArg Host.Outcome.next (((if_neg (by omega)).trans (if_pos hclock)).trans (if_neg hmode))

theorem refclkLost_tile {s : State} {tile : Fin 9} (h : tile.val < 8) (hclock : s.pins.refclkTile.getLsbD tile.val = true)
    (hmode : s.ms.mode ≠ .m0) : Gives (.refclkLost tile) s fun t =>
      Only [.host, .ports, .radio, .pins, .ctr] s t ∧ t.pins.refclkTile.getLsbD tile.val = false ∧
      (∀ i : Fin 64, tget false t.ports.laneLocked (64 * tile.val + i.val) = false) ∧
      ∀ p ∈ s.cfg.ports.map (·.1), p / 32 = tile.val → (t.portSt p).linkUp = false := by
  have hexec := refclkLost_stops h hclock hmode
  refine gives_of_next hexec ⟨exec_frame (.refclkLost tile) s _ hexec, ?_, fun i => State.tileLost_laneLocked _ tile.val i,
    fun p hp htile => State.tileLost_linkUp (s.clockStopped tile.val) hp htile⟩
  rw [State.tileLost_refclkTile, s.clockStopped_refclkTile h]

end Sys2Proof.Claims

/-! ### Sensors -/

namespace Sys2Proof.Machine

/-! A warning against its threshold (R679). -/

theorem warnStep_hot {active : Bool} {limit : Nat} {temp : Int} (h : (16 * limit : Int) ≤ temp) :
    (warnStep active limit temp).1 = true ∧ (active = false → (warnStep active limit temp).2 = 0x0201) := by
  cases active with
  | false => simp [warnStep, h]
  | true =>
    have hwarm : ¬ temp < 16 * ((limit : Int) - 5) := by omega
    simp [warnStep, hwarm]

theorem warnStep_cool {active : Bool} {limit : Nat} {temp : Int} (h : temp < 16 * ((limit : Int) - 5)) :
    (warnStep active limit temp).1 = false := by
  have hcold : ¬ (16 * limit : Int) ≤ temp := by omega
  cases active <;> simp [warnStep, h, hcold]

/-! The readings, before the warnings. -/

/-- A reading of 125 degrees C on a die trips (R679). -/
def tripped (v : SensorReading) : Bool := (v.core ++ v.rc ++ v.tiles).any fun t => decide (2000 ≤ t)

/-- The readings are taken, and the trip. -/
def State.sensed (s : State) (v : SensorReading) : State :=
  let p := s.power.peak (hottest (v.core ++ v.rc ++ v.tiles ++ v.reservoir))
  { s with
    power := { p with
      tempCore := tempReg p.tempCore v.core
      tempRc := tempReg p.tempRc v.rc
      tempReservoir := tempReg p.tempReservoir v.reservoir
      watts := BitVec.ofNat 16 v.watts
      railMv := v.railMv.take 10
      tripSeen := p.tripSeen || tripped v }
    pins := { s.pins with thermtrip := s.pins.thermtrip || tripped v } }

/-- The peak is of the temperatures alone. -/
theorem Power.peak_eq (p : Power) (t : Option Int) : ∃ x any, p.peak t = { p with tempPeak := x, peakAny := any } := by
  unfold Power.peak
  split
  · exact ⟨_, _, rfl⟩
  split
  · exact ⟨_, p.peakAny, rfl⟩
  · exact ⟨_, _, rfl⟩

/-- What the warnings look at is not changed by the readings. -/
theorem State.sensed_power (s : State) (v : SensorReading) :
    let p := (s.sensed v).power
    p.warnC = s.power.warnC ∧ p.hbmWarnC = s.power.hbmWarnC ∧ p.warnActive = s.power.warnActive ∧
      p.tripSeen = (s.power.tripSeen || tripped v) := by
  obtain ⟨x, any, hpeak⟩ := s.power.peak_eq (hottest (v.core ++ v.rc ++ v.tiles ++ v.reservoir))
  simp only [sensed, hpeak]
  trivial

theorem State.sensed_tempCore (s : State) {v : SensorReading} {x : Int} {l : List Int} (h : v.core = x :: l) :
    (s.sensed v).power.tempCore = BitVec.ofInt 16 (l.foldl max x) := by
  simp only [sensed, tempReg, h, hottest]

/-! The warnings of the dies and of the Reservoir: each has its own two latches, and an entry. -/

theorem State.thermalEntry_power (s : State) (type die : Nat) (temp : Int) : (s.thermalEntry type die temp).power = s.power := by simp

theorem State.dieWarning_power {s : State} {v : SensorReading} {t : Int} (h : hottest (v.core ++ v.rc) = some t) :
    let w := warnStep s.power.warnActive s.power.warnC t
    (s.dieWarning v).power = { s.power with warnActive := w.1, warnHit := s.power.warnHit || w.2 == 0x0201 } := by
  unfold State.dieWarning
  rw [h]
  simp only [apply_ite State.power, thermalEntry_power, ite_self]

theorem State.dieWarning_none {s : State} {v : SensorReading} (h : hottest (v.core ++ v.rc) = none) : s.dieWarning v = s := by
  unfold State.dieWarning
  rw [h]

theorem State.hbmWarning_power {s : State} {v : SensorReading} {t : Int} (h : hottest v.reservoir = some t) :
    let w := warnStep s.power.hbmWarnActive s.power.hbmWarnC t
    (s.hbmWarning v).power = { s.power with hbmWarnActive := w.1, hbmWarnHit := s.power.hbmWarnHit || w.2 == 0x0201 } := by
  unfold State.hbmWarning
  rw [h]
  simp only [apply_ite State.power, thermalEntry_power, ite_self]

theorem State.hbmWarning_none {s : State} {v : SensorReading} (h : hottest v.reservoir = none) : s.hbmWarning v = s := by
  unfold State.hbmWarning
  rw [h]

/-- The state but for the latches of the dies' warning. -/
theorem State.dieWarning_keeps (s : State) (v : SensorReading) :
    ∃ a b, (s.dieWarning v).power = { s.power with warnActive := a, warnHit := b } := by
  cases h : hottest (v.core ++ v.rc) with
  | none => exact ⟨s.power.warnActive, s.power.warnHit, by rw [dieWarning_none h]⟩
  | some t => exact ⟨_, _, dieWarning_power h⟩

/-- The state but for the latches of the Reservoir's warning. -/
theorem State.hbmWarning_keeps (s : State) (v : SensorReading) :
    ∃ a b, (s.hbmWarning v).power = { s.power with hbmWarnActive := a, hbmWarnHit := b } := by
  cases h : hottest v.reservoir with
  | none => exact ⟨s.power.hbmWarnActive, s.power.hbmWarnHit, by rw [hbmWarning_none h]⟩
  | some t => exact ⟨_, _, hbmWarning_power h⟩

/-- The readings and both warnings. -/
def State.sensorTaken (s : State) (v : SensorReading) : State := ((s.sensed v).dieWarning v).hbmWarning v

theorem State.sensorTaken_pins (s : State) (v : SensorReading) :
    (s.sensorTaken v).pins = { s.pins with thermtrip := s.pins.thermtrip || tripped v } := by
  simp only [sensorTaken, hbmWarning_frame, dieWarning_frame]
  rfl

/-- The warnings leave the readings and the trip. -/
theorem State.sensorTaken_readings (s : State) (v : SensorReading) :
    let p := (s.sensorTaken v).power
    p.watts = BitVec.ofNat 16 v.watts ∧ p.railMv = v.railMv.take 10 ∧ p.tempCore = (s.sensed v).power.tempCore ∧
      p.tripSeen = (s.power.tripSeen || tripped v) := by
  obtain ⟨-, -, -, htrip⟩ := s.sensed_power v
  obtain ⟨a, b, hdie⟩ := (s.sensed v).dieWarning_keeps v
  obtain ⟨c, d, hhbm⟩ := ((s.sensed v).dieWarning v).hbmWarning_keeps v
  simp only [sensorTaken, hhbm, hdie, htrip]
  simp [sensed]

theorem State.sensorTaken_warn (s : State) {v : SensorReading} {x : Int} (h : hottest (v.core ++ v.rc) = some x) :
    let p := (s.sensorTaken v).power
    ((16 * s.power.warnC : Int) ≤ x → p.warnActive = true ∧ (s.power.warnActive = false → p.warnHit = true)) ∧
      (x < 16 * ((s.power.warnC : Int) - 5) → p.warnActive = false) := by
  obtain ⟨hlimit, -, hactive, -⟩ := s.sensed_power v
  obtain ⟨c, d, hhbm⟩ := ((s.sensed v).dieWarning v).hbmWarning_keeps v
  simp only [sensorTaken, hhbm, dieWarning_power h, hlimit, hactive]
  refine ⟨fun hhot => ⟨(warnStep_hot hhot).1, fun hoff => ?_⟩, warnStep_cool⟩
  simp [(warnStep_hot hhot).2 hoff]

theorem State.sensorTaken_hbmWarn (s : State) {v : SensorReading} {x : Int} (h : hottest v.reservoir = some x)
    (hhot : (16 * s.power.hbmWarnC : Int) ≤ x) : (s.sensorTaken v).power.hbmWarnActive = true := by
  obtain ⟨-, hlimit, -, -⟩ := s.sensed_power v
  obtain ⟨a, b, hdie⟩ := (s.sensed v).dieWarning_keeps v
  simp only [sensorTaken, hbmWarning_power h, hdie, hlimit]
  exact (warnStep_hot hhot).1

theorem tripped_of_mem {v : SensorReading} (h : ∃ x ∈ v.core ++ v.rc ++ v.tiles, 2000 ≤ x) : tripped v = true := by
  obtain ⟨x, hx, hhot⟩ := h
  exact List.any_eq_true.2 ⟨x, hx, decide_eq_true hhot⟩

theorem tripped_of_lt {v : SensorReading} (h : ∀ x ∈ v.core ++ v.rc ++ v.tiles, x < 2000) : tripped v = false :=
  List.any_eq_false.2 fun x hx => by simpa using h x hx

end Sys2Proof.Machine

namespace Sys2Proof.Claims

open Machine

/-! SENSOR_READ (R679, R682). -/

theorem sensorRead_takes {s : State} (v : SensorReading) (hmode : s.ms.mode ≠ .m0) : Gives (.sensorRead v) s fun t =>
    Only [.host, .pins, .power] s t ∧ t.power.watts = BitVec.ofNat 16 v.watts ∧ t.power.railMv = v.railMv.take 10 ∧
      (∀ x l, v.core = x :: l → t.power.tempCore = BitVec.ofInt 16 (l.foldl max x)) ∧
      ((∃ x ∈ v.core ++ v.rc ++ v.tiles, 2000 ≤ x) → t.pins.thermtrip = true ∧ t.power.tripSeen = true) ∧
      ((∀ x ∈ v.core ++ v.rc ++ v.tiles, x < 2000) → t.pins = s.pins ∧ t.power.tripSeen = s.power.tripSeen) ∧
      (∀ x, hottest (v.core ++ v.rc) = some x →
        ((16 * s.power.warnC : Int) ≤ x → t.power.warnActive = true ∧ (s.power.warnActive = false → t.power.warnHit = true)) ∧
        (x < 16 * ((s.power.warnC : Int) - 5) → t.power.warnActive = false)) ∧
      (∀ x, hottest v.reservoir = some x → (16 * s.power.hbmWarnC : Int) ≤ x → t.power.hbmWarnActive = true) := by
  have hexec : exec (.sensorRead v) s = .next (s.sensorTaken v) := congrArg Host.Outcome.next (if_neg hmode)
  obtain ⟨hwatts, hrail, htemp, htrip⟩ := s.sensorTaken_readings v
  refine gives_of_next hexec ⟨exec_frame (.sensorRead v) s _ hexec, hwatts, hrail, fun x l hcore => htemp.trans (s.sensed_tempCore hcore),
    fun hhot => ?_, fun hcool => ?_, fun x hx => s.sensorTaken_warn hx, fun x hx => s.sensorTaken_hbmWarn hx⟩
  · rw [s.sensorTaken_pins, htrip, tripped_of_mem hhot]
    simp
  · rw [s.sensorTaken_pins, htrip, tripped_of_lt hcool]
    simp

end Sys2Proof.Claims

section
open Sys2Proof Sys2Proof.Machine Sys2Proof.Claims

/-- Settles O47: a bus that its recovery brings back stays in recovery after the event (log entry 22). -/
theorem opticsClocksAndSensors : Obligations.OpticsClocksAndSensors := by
  refine ⟨fun s cage c hcage hdrive => ⟨fun present hbus hnew => opticsProbe_takes hcage hdrive hbus hnew, opticsProbe_same _ hcage rfl,
      fun flags hpresent hfault hout hback => opticsFlagPoll_takes flags hcage hdrive hpresent hfault hout hback,
      fun flags habsent => opticsFlagPoll_absent flags hcage habsent⟩,
    fun s bus hdrive hbus => i2cStretchTimeout_ends hdrive hbus, fun s => rfl,
    fun s tile htile => ⟨refclkLost_again htile, refclkLost_tile htile⟩,
    fun s v => ⟨fun hmode => congrArg Host.Outcome.next (if_pos hmode), sensorRead_takes v⟩⟩

end

/-! ### Settings and queries that are accepted -/

namespace Sys2Proof.Machine

/-- What no entry touches: all of the host interface but the Wells and the paced entries. -/
def HostIf.apart (h : HostIf) : HostIf := { h with wells := [], paced := [] }

@[simp] theorem State.produce_hostApart (s : State) (w source type : Nat) (body : Bytes) :
    (s.produce w source type body).host.apart = s.host.apart := by
  unfold State.produce
  split <;> rfl

@[simp] theorem State.portEvent_hostApart (s : State) (type port cage reason detail : Nat) :
    (s.portEvent type port cage reason detail).host.apart = s.host.apart := produce_hostApart ..

@[simp] theorem State.siteEvent_hostApart (s : State) (type site band reason channel : Nat) (value : Int) :
    (s.siteEvent type site band reason channel value).host.apart = s.host.apart :=
  foldl_keeps (fun s => s.host.apart) (fun s w => by simp) ..

/-- The answer of a command is written from parts of the state that the operations on ports leave alone. -/
structure Steady (s t : State) : Prop where
  host : t.host.apart = s.host.apart
  procs : t.procs = s.procs
  nv : t.nv = s.nv
  cfg : t.cfg = s.cfg
  ms : t.ms = s.ms

theorem Steady.refl (s : State) : Steady s s := ⟨rfl, rfl, rfl, rfl, rfl⟩

theorem Steady.trans {s t u : State} (hst : Steady s t) (htu : Steady t u) : Steady s u :=
  ⟨htu.host.trans hst.host, htu.procs.trans hst.procs, htu.nv.trans hst.nv, htu.cfg.trans hst.cfg, htu.ms.trans hst.ms⟩

theorem Steady.foldl {α : Type} {g : State → α → State} (h : ∀ s e, Steady s (g s e)) (es : List α) (s : State) :
    Steady s (es.foldl g s) := by
  induction es generalizing s with
  | nil => exact Steady.refl s
  | cons e es ih => exact (h s e).trans (ih (g s e))

theorem Steady.ite {s t u : State} {b : Prop} [Decidable b] (ht : Steady s t) (hu : Steady s u) : Steady s (if b then t else u) := by
  split
  · exact ht
  · exact hu

theorem State.answer_eq (s : State) (r : Req) (y : Reply) : s.answer r y = { s with host := (s.answer r y).host } := by
  have hframe := s.answer_frame r y
  generalize s.answer r y = t at hframe
  cases t
  simp_all

theorem State.unstored_congr {s t : State} (h : t.ms = s.ms) : t.unstored = s.unstored := by
  simp only [State.unstored, h]

theorem State.mbox_of_apart {s t : State} (h : t.host.apart = s.host.apart) (f : Nat) : t.mbox f = s.mbox f := by
  have hmbox : t.host.apart.mbox = s.host.apart.mbox := by rw [h]
  exact congrArg (tget {} · f) hmbox

theorem State.busMaster_of_apart {s t : State} (h : t.host.apart = s.host.apart) (f : Nat) : t.busMaster f = s.busMaster f := by
  have hmaster : t.host.apart.busMaster = s.host.apart.busMaster := by rw [h]
  exact congrArg (tget false · f) hmaster

/-- One record more is staged (R512). -/
theorem State.journalStaged_concat {s t : State} {c : Cfg} {y : Option (Req × Reply)}
    (h : t.nv = { s.nv with staged := s.nv.staged ++ [.journal c y] }) : t.journalStaged = s.journalStaged + 1 := by
  simp [State.journalStaged, h]

end Sys2Proof.Machine

namespace Sys2Proof.Claims

open Machine

/-- From `u` to `v` a setting has taken effect: the state is otherwise as its answer needs it, and the record of a setting that
the blob holds is staged (R50, R512, R696). -/
structure Staged (u v : State) : Prop where
  host : v.host.apart = u.host.apart
  procs : v.procs = u.procs
  nv : v.nv = if u.unstored then u.nv else { u.nv with staged := u.nv.staged ++ [.journal v.cfg none] }

/-- A setting is stored between operations that leave the answer's parts alone. -/
theorem Staged.of_store {u w v : State} {f : Cfg → Cfg} (hw : Steady u w) (hv : Steady (w.store f) v) : Staged u v := by
  have hunstored : State.unstored { w with cfg := f w.cfg } = u.unstored := State.unstored_congr hw.ms
  have hstore : (w.store f).nv = if u.unstored then u.nv else { u.nv with staged := u.nv.staged ++ [.journal (w.store f).cfg none] } := by
    simp only [State.store, hunstored, ← hw.nv]
    split <;> rfl
  refine ⟨hv.host.trans (Eq.trans ?_ hw.host), hv.procs.trans (Eq.trans (by simp) hw.procs), ?_⟩
  · simp
  · rw [hv.nv, hv.cfg, hstore]

theorem Accepted.unanswered {c : AciSpec} {a : Aci} {s t : State} (h : t.mbox a.fn.val = (started c a s).mbox a.fn.val) :
    Unanswered c a s t := by
  rw [Unanswered, h, started_mbox]
  exact ⟨rfl, List.mem_cons_self⟩

/-- An accepted setting is answered at once where no blob is in force, and else with the commit of its record. -/
theorem Accepted.exec_setting {c : AciSpec} {a : Aci} {s v : State} (h : Accepted c a s) (hbuffer : c.buffer = false)
    (heffect : c.effect (c.req a s) (started c a s) = (v, okReply)) (hv : Staged (started c a s) v) :
    ∃ host nv, c.exec a s = { v with host := host, nv := nv } ∧
      (s.unstored = true → nv = s.nv ∧ Responded c a s { v with host := host, nv := nv } stOk 0 []) ∧
      (s.unstored = false → Unanswered c a s { v with host := host, nv := nv } ∧
        nv = { s.nv with staged := s.nv.staged ++ [.journal v.cfg (some (c.req a s, {}))] }) := by
  have hrun : c.exec a s = if (started c a s).journalStaged < v.journalStaged then v.replyAfterCommit (c.req a s) {}
      else v.answer (c.req a s) {} := by
    rw [h.exec_eq]
    simp [AciSpec.run, heffect, hbuffer, okReply]
  have hmbox := State.mbox_of_apart hv.host a.fn.val
  cases hstored : s.unstored with
  | true =>
    have hnv : v.nv = s.nv := hv.nv.trans (if_pos hstored)
    have hexec : c.exec a s = v.answer (c.req a s) {} := hrun.trans
      (if_neg (by simp [State.journalStaged, hnv, started, taken, State.modMbox]))
    refine ⟨_, v.nv, hexec.trans (v.answer_eq _ _), fun _ => ⟨hnv, ?_⟩, fun hfalse => Bool.noConfusion hfalse⟩
    rw [← v.answer_eq]
    exact h.answer_responded {} hmbox hv.procs ((State.busMaster_of_apart hv.host _).trans (started_busMaster c a s))
  | false =>
    have hnv : v.nv = { s.nv with staged := s.nv.staged ++ [.journal v.cfg none] } := hv.nv.trans
      (if_neg (by simp [State.unstored_congr (s := s) (t := started c a s) rfl, hstored]))
    have hlate : v.replyAfterCommit (c.req a s) {} =
        { v with nv := { s.nv with staged := s.nv.staged ++ [.journal v.cfg (some (c.req a s, {}))] } } := by
      simp [State.replyAfterCommit, hnv]
    have hmore : (started c a s).journalStaged < v.journalStaged :=
      Nat.lt_of_lt_of_eq (Nat.lt_succ_self _) (State.journalStaged_concat (s := started c a s) hnv).symm
    exact ⟨v.host, _, hrun.trans ((if_pos hmore).trans hlate), fun htrue => Bool.noConfusion htrue,
      fun _ => ⟨Accepted.unanswered hmbox, rfl⟩⟩

theorem only_host_nv {l : List Part} {s v : State} (h : Only (.host :: .cfg :: .nv :: l) s v) (host : HostIf) (nv : Nvm) :
    Only (.host :: .cfg :: .nv :: l) s { v with host := host, nv := nv } := by
  intro p hp
  have hsame := h p hp
  cases p
  case host | nv => exact absurd hp (by simp)
  all_goals exact hsame

/-- A command of the catalogue stores a setting, when its effect is one. -/
theorem stores_of_effect {c : AciSpec} {cmd : Aci → Instr} {l : List Part} {E : Req → State → State → Prop}
    {when_ : Req → State → Prop} (hexec : ∀ a s, exec (cmd a) s = .next (c.exec a s)) (hbuffer : c.buffer = false) (own : List Part)
    (hframe : ∀ r s, AllSame s (c.effect r s).1 (others own)) (hown : .host :: own ⊆ .host :: .cfg :: .nv :: l)
    (h : ∀ a s, Accepted c a s → when_ (c.req a s) s → ∃ v, c.effect (c.req a s) (started c a s) = (v, okReply) ∧
      Staged (started c a s) v ∧ ∀ host nv, E (c.req a s) s { v with host := host, nv := nv }) :
    Stores c cmd l E when_ := by
  intro a s hacc hwhen
  have hacc := accepted_iff.1 hacc
  obtain ⟨v, heffect, hstaged, hE⟩ := h a s hacc hwhen
  have honly : Only (.host :: .cfg :: .nv :: l) s v := by
    have hkept := Only.of_frame (hframe (c.req a s) (started c a s))
    rw [heffect] at hkept
    exact (only_started c a (by simp)).trans (Only.mono hkept fun _ hp => hown (List.mem_cons_of_mem _ hp))
  obtain ⟨host, nv, hnext, hnow, hlater⟩ := hacc.exec_setting hbuffer heffect hstaged
  refine gives_of_next (hexec a s) ?_
  rw [hnext]
  exact ⟨only_host_nv honly host nv, hE host nv, hnow, hlater⟩

theorem only_host_set {l : List Part} {s v : State} (h : Only (.host :: l) s v) (host : HostIf) :
    Only (.host :: l) s { v with host := host } := by
  intro p hp
  have hsame := h p hp
  cases p
  case host => exact absurd hp (by simp)
  all_goals exact hsame

/-- A command of the catalogue is answered OK at once with its results, when its effect leaves what the answer is written from. -/
theorem does_of_effect {c : AciSpec} {cmd : Aci → Instr} {l : List Part} {E : Req → State → State → Bytes → Prop}
    {when_ : Req → State → Prop} (hexec : ∀ a s, exec (cmd a) s = .next (c.exec a s))
    (h : ∀ a s, Accepted c a s → when_ (c.req a s) s → ∃ v res, c.effect (c.req a s) (started c a s) = (v, okWith res) ∧
      Steady (started c a s) v ∧ Only (.host :: l) s v ∧ ∀ host, E (c.req a s) s { v with host := host } res) :
    Does c cmd stOk l E when_ := by
  intro a s hacc hwhen
  have hacc := accepted_iff.1 hacc
  obtain ⟨v, res, heffect, hsteady, honly, hE⟩ := h a s hacc hwhen
  refine gives_of_next (hexec a s) ?_
  rw [hacc.exec_eq, run_answers heffect rfl hsteady.nv]
  refine ⟨res, hacc.answer_responded _ (State.mbox_of_apart hsteady.host _) hsteady.procs
    ((State.busMaster_of_apart hsteady.host _).trans (started_busMaster c a s)), ?_, ?_⟩
  · rw [State.answer_eq]
    exact only_host_set honly _
  · rw [State.answer_eq]
    exact hE _

/-- A query is such a command that changes nothing. -/
theorem reads_of_effect {c : AciSpec} {cmd : Aci → Instr} {R : Req → State → Bytes → Prop}
    (hexec : ∀ a s, exec (cmd a) s = .next (c.exec a s))
    (h : ∀ a s, ∃ res, c.effect (c.req a s) (started c a s) = (started c a s, okWith res) ∧ R (c.req a s) s res) : Reads c cmd R := by
  intro a s hacc
  refine does_of_effect (E := fun r s _ res => R r s res) (when_ := fun _ _ => True) hexec (fun a s _ _ => ?_) a s hacc trivial
  obtain ⟨res, heffect, hres⟩ := h a s
  exact ⟨_, res, heffect, Steady.refl _, only_started c a (by simp), fun _ => hres⟩

end Sys2Proof.Claims

/-! ### Queries of ports and accesses of buses -/

namespace Sys2Proof.Machine

/-! The flags of a number that is built from its lowest bit up. -/

theorem bit_low (b : Bool) (n : Nat) : bit (b2n b + 2 * n) 0 = b := by
  cases b <;> simp [bit, b2n]

theorem bit_high (b : Bool) (n i : Nat) : bit (b2n b + 2 * n) (i + 1) = bit n i := by
  have hlow : b2n b < 2 := by cases b <;> decide
  have hhalf : (b2n b + 2 * n) / 2 = n := by omega
  rw [bit, bit, Nat.pow_succ', ← Nat.div_div_eq_div_mul, hhalf]

/-- The first byte of a port's status, of which the role takes two bits (R188). -/
theorem statusFlags_bits (up lf rf pre pass : Bool) {role : Nat} (h : role < 4) :
    let v := (b2n up + 2 * b2n lf + 4 * b2n rf + 8 * b2n pre + 16 * role + 64 * b2n pass) % 256
    bit v 0 = up ∧ bit v 1 = lf ∧ bit v 2 = rf ∧ bit v 3 = pre := by
  have hone (b : Bool) : b2n b < 2 := by cases b <;> decide
  have hnest : (b2n up + 2 * b2n lf + 4 * b2n rf + 8 * b2n pre + 16 * role + 64 * b2n pass) % 256 =
      b2n up + 2 * (b2n lf + 2 * (b2n rf + 2 * (b2n pre + 2 * (role + 4 * b2n pass)))) := by
    have := hone up; have := hone lf; have := hone rf; have := hone pre; have := hone pass
    omega
  simp only [hnest, bit_high, bit_low, and_self]

/-- What a port is to its site or its ring pair, in two bits (R188). -/
theorem State.portStatus_bytes (s : State) (p : Nat) : ∃ role pass locked cage number, role < 4 ∧ s.portStatus p =
    leBytes 1 (b2n (s.portSt p).linkUp + 2 * b2n (s.portSt p).localFault + 4 * b2n (s.portSt p).remoteFault +
      8 * b2n (s.portSt p).preActive + 16 * role + 64 * b2n pass) ++ leBytes 1 (s.portCfg p).mode ++ leBytes 1 (s.portCfg p).firstLane ++
      leBytes 1 locked ++ leBytes 1 cage ++ leBytes 1 number ++ leBytes 2 (s.portCfg p).maxFrame ++ List.replicate 16 0 := by
  refine ⟨_, _, _, _, _, ?_, rfl⟩
  repeat' split
  all_goals omega

end Sys2Proof.Machine

namespace Sys2Proof.Claims

open Machine

theorem portGetStatus_reads : Reads portGetStatusSpec .portGetStatus fun r s res =>
    let p := r.f 16 1
    res.length = 24 ∧ bit (byteAt res 0) 0 = (s.portSt p).linkUp ∧ bit (byteAt res 0) 1 = (s.portSt p).localFault ∧
      bit (byteAt res 0) 2 = (s.portSt p).remoteFault ∧ bit (byteAt res 0) 3 = (s.portSt p).preActive ∧
      byteAt res 1 = (s.portCfg p).mode % 256 ∧ byteAt res 2 = (s.portCfg p).firstLane % 256 ∧
      leAt res 6 2 = (s.portCfg p).maxFrame % 65536 := by
  refine reads_of_effect (fun _ _ => rfl) fun a s => ⟨_, rfl, ?_⟩
  obtain ⟨host, hstarted⟩ := started_eq portGetStatusSpec a s
  generalize (portGetStatusSpec.req a s).f 16 1 = p
  obtain ⟨role, pass, locked, cage, number, hrole, hbytes⟩ := (started portGetStatusSpec a s).portStatus_bytes p
  rw [hbytes, hstarted]
  obtain ⟨hup, hlocal, hremote, hpre⟩ := statusFlags_bits (s.portSt p).linkUp (s.portSt p).localFault (s.portSt p).remoteFault
    (s.portSt p).preActive pass hrole
  refine ⟨by simp, hup, hlocal, hremote, hpre, rfl, rfl, ?_⟩
  rw [List.append_assoc]
  exact (leAt_append_left _ _ 2).trans (leAt_leBytes_append 2 _ _)

/-- A write is answered with no results, and a read with its data. -/
theorem ioReply_eq (w : Bool) (d : Bytes) : (if w then okReply else okWith d) = okWith (if w then [] else d) := by
  cases w <;> rfl

/-- The access of PORT_OPTICS_IO: the cage, whether it writes, the data, and BANK and PAGE (R183). -/
structure OpticsIo where
  cage : Nat
  write : Bool
  addr : Nat
  data : Bytes
  page : Nat × Nat
  /-- The access reaches beyond the lower half of the module's memory. -/
  paged : Bool

/-- The access that a command asks for, with the module's data. -/
def opticsIo (r : Req) (data : Bytes) : OpticsIo :=
  let w := r.bl 0 7
  let d := if w then r.pl.drop 4 else fit 128 data
  { cage := r.bb 0 0 7, write := w, addr := r.b 1 3, data := d, page := (r.b 1 1, r.b 2 1)
    paged := decide (128 < r.b 3 1 + (if w then d.length else min 128 (256 - r.b 3 1))) }

/-- The page is selected first, where it differs (R183). -/
def OpticsIo.select (x : OpticsIo) (s : State) : List (Nat × Bool × Nat × Bytes) :=
  if x.paged && (s.cageSt x.cage).page != some x.page then [(x.cage, true, 126, leBytes 1 x.page.1 ++ leBytes 1 x.page.2)] else []

/-- The access is made. -/
def OpticsIo.made (x : OpticsIo) (s : State) : State :=
  let t : State := { s with ports := { s.ports with busLog := (x.cage, x.write, x.addr, x.data) :: x.select s ++ s.ports.busLog } }
  if x.paged then t.modCage x.cage fun y => { y with page := some x.page } else t

theorem OpticsIo.made_steady (x : OpticsIo) (s : State) : Steady s (x.made s) :=
  Steady.ite ⟨rfl, rfl, rfl, rfl, rfl⟩ ⟨rfl, rfl, rfl, rfl, rfl⟩

theorem OpticsIo.made_only (x : OpticsIo) (s : State) : Only [.ports] s (x.made s) := by
  unfold OpticsIo.made
  simp (disch := decide) only [only_ite, only_modCage, only_ports_update, Only.refl, ite_self]

theorem OpticsIo.made_plain {x : OpticsIo} (s : State) (h : x.paged = false) :
    (x.made s).ports = { s.ports with busLog := (x.cage, x.write, x.addr, x.data) :: s.ports.busLog } := by
  simp [OpticsIo.made, OpticsIo.select, h]

theorem OpticsIo.made_busLog {x : OpticsIo} (s : State) (h : x.paged = true) :
    (x.made s).ports.busLog = (x.cage, x.write, x.addr, x.data) ::
      (if (s.cageSt x.cage).page = some x.page then [] else [(x.cage, true, 126, leBytes 1 x.page.1 ++ leBytes 1 x.page.2)]) ++
        s.ports.busLog := by
  simp [OpticsIo.made, OpticsIo.select, h, State.modCage]

theorem OpticsIo.made_cageSt {x : OpticsIo} (s : State) (h : x.paged = true) :
    (x.made s).cageSt x.cage = { s.cageSt x.cage with page := some x.page } := by
  rw [OpticsIo.made, if_pos h, State.modCage_cageSt]
  rfl

theorem OpticsIo.made_cageSt_ne (x : OpticsIo) (s : State) {k : Nat} (h : k ≠ x.cage) : (x.made s).cageSt k = s.cageSt k := by
  unfold OpticsIo.made
  dsimp only
  split
  · rw [State.modCage_cageSt_ne _ _ h]
    rfl
  · rfl

theorem OpticsIo.made_ports (x : OpticsIo) (s : State) :
    (x.made s).ports = { s.ports with cages := (x.made s).ports.cages, busLog := (x.made s).ports.busLog } := by
  unfold OpticsIo.made
  dsimp only
  split <;> rfl

theorem portOpticsIo_does (ack : Bool) (data : Bytes) : Does (portOpticsIoSpec ack data) (fun a => .portOpticsIo a ack data) stOk [.ports]
    fun r s t res =>
      let w := r.bl 0 7
      let d := if w then r.pl.drop 4 else fit 128 data
      let c := r.bb 0 0 7
      let page := (r.b 1 1, r.b 2 1)
      let paged := 128 < r.b 3 1 + (if w then d.length else min 128 (256 - r.b 3 1))
      t.ports = { s.ports with cages := t.ports.cages, busLog := t.ports.busLog } ∧ (∀ k, k ≠ c → t.cageSt k = s.cageSt k) ∧
        (¬paged → t.ports = { s.ports with busLog := (c, w, r.b 1 3, d) :: s.ports.busLog }) ∧
        (paged → t.cageSt c = { s.cageSt c with page := some page } ∧ t.ports.busLog = (c, w, r.b 1 3, d) ::
          (if (s.cageSt c).page = some page then [] else [(c, true, 126, leBytes 1 page.1 ++ leBytes 1 page.2)]) ++ s.ports.busLog) ∧
        res = if w then [] else d := by
  refine does_of_effect (fun _ _ => rfl) fun a s _ _ => ?_
  have honly := only_started (ps := [.host, .ports]) (portOpticsIoSpec ack data) a (s := s) (by decide)
  obtain ⟨host, hstarted⟩ := started_eq (portOpticsIoSpec ack data) a s
  rw [hstarted] at honly ⊢
  generalize (portOpticsIoSpec ack data).req a s = r
  let x := opticsIo r data
  have hports : Only [.host, .ports] s (x.made { s with host := host }) :=
    honly.trans (Only.mono (x.made_only _) (by decide))
  refine ⟨x.made { s with host := host }, _, Prod.ext rfl (ioReply_eq x.write x.data), x.made_steady _, hports, fun h => ?_⟩
  exact ⟨x.made_ports _, fun k hk => x.made_cageSt_ne _ hk, fun hplain => x.made_plain _ (decide_eq_false hplain),
    fun hpaged => ⟨x.made_cageSt _ (decide_eq_true hpaged), x.made_busLog _ (decide_eq_true hpaged)⟩, rfl⟩

theorem portMdioIo_does (data : BitVec 16) : Does (portMdioIoSpec data) (fun a => .portMdioIo a data) stOk [.ports] fun r s t res =>
    let w := r.fl 16 3
    let d := if w then leBytes 2 (r.f 22 2) else leBytes 2 data.toNat
    t.ports = { s.ports with busLog := (128 + r.fb 16 0 2, w, r.f 17 2 + 65536 * r.f 20 2 + 2 ^ 32 * r.fb 16 2 1, d) :: s.ports.busLog } ∧
      res = if w then [] else d := by
  refine does_of_effect (fun _ _ => rfl) fun a s _ _ => ?_
  have honly := only_started (ps := [.host, .ports]) (portMdioIoSpec data) a (s := s) (by decide)
  exact ⟨_, _, Prod.ext rfl (ioReply_eq _ _), ⟨rfl, rfl, rfl, rfl, rfl⟩, (only_ports_update (by decide)).2 honly, fun _ => ⟨rfl, rfl⟩⟩

end Sys2Proof.Claims

section
open Sys2Proof Sys2Proof.Machine Sys2Proof.Claims

/-- Settles O20: the status by its bytes, and each access by the entries that it leaves in the log of the buses. -/
theorem portQueriesAndBusAccesses : Obligations.PortQueriesAndBusAccesses :=
  ⟨portGetStatus_reads, portOpticsIo_does, portMdioIo_does⟩

end

/-! ### Operations on ports that settings use -/

namespace Sys2Proof.Machine

@[simp] theorem State.siteOut_hostApart (s : State) (site reason : Nat) : (s.siteOut site reason).host.apart = s.host.apart := by
  unfold State.siteOut
  dsimp only
  split <;> simp

@[simp] theorem State.takeDownFor_hostApart (s : State) (p reason siteReason : Nat) :
    (s.takeDownFor p reason siteReason).host.apart = s.host.apart := by
  unfold State.takeDownFor
  split
  · dsimp only
    generalize hu : State.portEvent _ _ _ _ _ = u
    have hu' : u.host.apart = s.host.apart := by simp [← hu]
    split <;> simp [hu']
  · rfl

theorem State.takeDown_steady (s : State) (p reason : Nat) : Steady s (s.takeDown p reason) :=
  ⟨takeDownFor_hostApart .., by simp, by simp, by simp, by simp⟩

theorem State.siteOut_steady (s : State) (site reason : Nat) : Steady s (s.siteOut site reason) :=
  ⟨by simp, by simp, by simp, by simp, by simp⟩

theorem State.siteFresh_steady (s : State) (site : Nat) : Steady s (s.siteFresh site) :=
  ⟨by simp, by simp, by simp, by simp, by simp⟩

theorem State.flushPort_steady (s : State) (p : Nat) : Steady s (s.flushPort p) :=
  ⟨by simp, by simp, by simp, by simp, by simp⟩

theorem State.repath_steady (s : State) (p : Nat) : Steady s (s.repath p) :=
  ⟨by simp, by simp, by simp, by simp, by simp⟩

theorem State.modSched_steady (s : State) (p : Nat) (f : Sched → Sched) : Steady s (s.modSched p f) := ⟨rfl, rfl, rfl, rfl, rfl⟩

theorem State.preemptEval_steady (s : State) (p : Nat) : Steady s (s.preemptEval p) :=
  ⟨by simp, by simp, by simp, by simp, by simp⟩

theorem State.frameBoundary_steady (s : State) (p : Nat) : Steady s (s.frameBoundary p) := by
  unfold State.frameBoundary
  refine Steady.ite (Steady.refl s) ?_
  have hfree (f : Sched → Sched) : Steady s (if (s.sched p).preDue then (s.modSched p f).preemptEval p else s.modSched p f) :=
    Steady.ite ((s.modSched_steady p f).trans (State.preemptEval_steady _ p)) (s.modSched_steady p f)
  exact Steady.ite ((hfree _).trans (State.takeDown_steady _ p 6)) (hfree _)

/-! A frame boundary (R172, R174). -/

theorem State.takeDown_linkUp (s : State) (p reason k : Nat) :
    ((s.takeDown p reason).portSt k).linkUp = (decide (k ≠ p) && (s.portSt k).linkUp) := s.takeDownFor_linkUp p reason _ k

theorem State.takeDownFor_portSt_ne (s : State) {p k : Nat} (reason siteReason : Nat) (h : k ≠ p) :
    (s.takeDownFor p reason siteReason).portSt k = s.portSt k := by
  have hports := s.takeDownFor_ports p reason siteReason
  split at hports
  · exact (portSt_of_ports hports k).trans (modPort_portSt_ne s _ h)
  · exact portSt_of_ports hports k

/-- A port that sends a frame keeps its settings until the frame ends. -/
theorem State.frameBoundary_busy {s : State} {p : Nat} (h : (s.sched p).sending ≠ none) : s.frameBoundary p = s :=
  if_pos (by simp [Option.isSome_iff_ne_none.2 h])

/-- What waits for the frame boundary no longer does, and new settings of preemption act (R174). -/
def State.boundaryMet (s : State) (p : Nat) : State :=
  let t := s.modSched p fun c => { c with preDue := false, downDue := false }
  if (s.sched p).preDue then t.preemptEval p else t

/-- A frame boundary that something waits for (R172, R174). -/
theorem State.frameBoundary_free {s : State} {p : Nat} (hfree : (s.sched p).sending = none)
    (hdue : ((s.sched p).preDue || (s.sched p).downDue) = true) : s.frameBoundary p =
      if (s.sched p).downDue && !(s.portCfg p).adminUp then (s.boundaryMet p).takeDown p 6 else s.boundaryMet p := by
  have hcfg : (s.boundaryMet p).portCfg p = s.portCfg p := by
    unfold State.boundaryMet
    dsimp only
    split <;> simp [State.portCfg]
  rw [← hcfg]
  exact if_neg (by simp [hfree, hdue])

theorem State.boundaryMet_portSt_ne (s : State) {p k : Nat} (h : k ≠ p) : (s.boundaryMet p).portSt k = s.portSt k := by
  unfold State.boundaryMet
  dsimp only
  split
  · exact preemptEval_portSt_ne _ h
  · rfl

theorem State.boundaryMet_linkUp (s : State) (p : Nat) : ((s.boundaryMet p).portSt p).linkUp = (s.portSt p).linkUp := by
  unfold State.boundaryMet
  dsimp only
  split
  · rw [preemptEval_portSt]
    rfl
  · rfl

/-- A frame boundary that nothing waits for, or that is not there yet. -/
theorem State.frameBoundary_idle {s : State} {p : Nat}
    (h : (s.sched p).sending ≠ none ∨ ((s.sched p).preDue || (s.sched p).downDue) = false) : s.frameBoundary p = s := by
  rcases h with hbusy | hnone
  · exact frameBoundary_busy hbusy
  · exact if_pos (by simp [hnone])

/-- Only the port itself meets its frame boundary. -/
theorem State.frameBoundary_portSt_ne (s : State) {p k : Nat} (h : k ≠ p) : (s.frameBoundary p).portSt k = s.portSt k := by
  by_cases hidle : (s.sched p).sending ≠ none ∨ ((s.sched p).preDue || (s.sched p).downDue) = false
  · rw [frameBoundary_idle hidle]
  obtain ⟨hfree, hdue⟩ := not_or.1 hidle
  rw [frameBoundary_free (not_not.1 hfree) (Bool.not_eq_false _ ▸ hdue)]
  split
  · exact (takeDownFor_portSt_ne _ _ _ h).trans (boundaryMet_portSt_ne s h)
  · exact boundaryMet_portSt_ne s h

/-- At a frame boundary the link of a port goes down that is due to, and not administratively up (R172). -/
theorem State.frameBoundary_linkUp (s : State) (p : Nat) : ((s.frameBoundary p).portSt p).linkUp =
    ((s.portSt p).linkUp && ((s.sched p).sending.isSome || !(s.sched p).downDue || (s.portCfg p).adminUp)) := by
  by_cases hidle : (s.sched p).sending ≠ none ∨ ((s.sched p).preDue || (s.sched p).downDue) = false
  · rw [frameBoundary_idle hidle]
    rcases hidle with hbusy | hnone
    · simp [Option.isSome_iff_ne_none.2 hbusy]
    · simp [(Bool.or_eq_false_iff.1 hnone).2]
  obtain ⟨hfree, hdue⟩ := not_or.1 hidle
  rw [frameBoundary_free (not_not.1 hfree) (Bool.not_eq_false _ ▸ hdue), not_not.1 hfree]
  split
  case isTrue hdown =>
    obtain ⟨hdown, hadmin⟩ := Bool.and_eq_true_iff.1 hdown
    have hadmin : (s.portCfg p).adminUp = false := by simpa using hadmin
    simp [takeDown_linkUp, hdown, hadmin]
  case isFalse hup =>
    rw [boundaryMet_linkUp]
    cases hdown : (s.sched p).downDue <;> simp_all

/-- At a free frame boundary new settings of preemption act (R174). -/
theorem State.frameBoundary_preempt {s : State} {p : Nat} (hfree : (s.sched p).sending = none) (hpre : (s.sched p).preDue = true)
    (hdown : (s.sched p).downDue = false) : (s.frameBoundary p).portSt p = (s.preemptEval p).portSt p := by
  rw [frameBoundary_free hfree (by simp [hpre]), hdown, if_neg (by simp), boundaryMet, if_pos hpre, preemptEval_portSt, preemptEval_portSt]
  rfl

/-! What else leaves links and lanes as they are. -/

theorem State.flushPort_ports (s : State) (p : Nat) : (s.flushPort p).ports = s.ports := by simp

theorem State.store_ports (s : State) (f : Cfg → Cfg) : (s.store f).ports = s.ports := by simp

theorem State.repath_portSt (s : State) (p k : Nat) : (s.repath p).portSt k = s.portSt k := by
  unfold State.repath State.moduleUp
  repeat' split
  all_goals rfl

theorem State.siteFresh_ports (s : State) (site : Nat) : (s.siteFresh site).ports = s.ports := by simp

end Sys2Proof.Machine

/-! ### PORT_SET_SPEED -/

namespace Sys2Proof.Machine

/-- The settings of a port that PORT_SET_SPEED gives (R171). -/
def speedOf (r : Req) (old : PortCfg) : PortCfg :=
  { old with mode := r.fb 17 0 4, firstLane := r.fb 18 0 6, adminUp := r.fl 19 0, anEn := r.fl 19 1, maxFrame := r.f 20 2 }

/-- The lanes of the port change. -/
def relanes (r : Req) (old : PortCfg) : Bool := r.fb 17 0 4 != old.mode || r.fb 18 0 6 != old.firstLane || r.fl 19 1 != old.anEn

/-- The configuration with new settings of a port, and without its cut-through pairs where MAX_FRAME changes (R172). -/
def Cfg.withSpeed (c : Cfg) (r : Req) (p : Nat) (old : PortCfg) : Cfg :=
  { c with
    ports := tset {} c.ports p (speedOf r old)
    cutThrough := if r.f 20 2 != old.maxFrame then c.cutThrough.filter fun e => e.1 / 256 != p && e.1 % 256 != p else c.cutThrough }

/-- A port whose lanes change loses its link and its frames. -/
def State.relaned (s : State) (b : Bool) (p : Nat) : State := if b then (s.takeDown p 8).flushPort p else s

/-- Changes of cut-through pairs that wait fall away with the pairs. -/
def State.cutsEnded (s : State) (b : Bool) (p : Nat) : State := if b then s.cutEnds p else s

/-- A port that is taken down goes down at its next frame boundary. -/
def State.downNext (s : State) (b : Bool) (p : Nat) : State :=
  if b then (s.modSched p fun c => { c with downDue := true }).frameBoundary p else s

/-- The data path of a port whose lanes change follows its mode. -/
def State.repathed (s : State) (b : Bool) (p : Nat) : State := if b then s.repath p else s

/-- PORT_SET_SPEED (R171, R172). -/
def State.setSpeed (s : State) (r : Req) : State :=
  let p := r.f 16 1
  let old := s.portCfg p
  let t := (s.relaned (relanes r old) p).store fun c => c.withSpeed r p old
  ((t.cutsEnded (r.f 20 2 != old.maxFrame) p).downNext (!r.fl 19 0) p).repathed (relanes r old) p

theorem portSetSpeed_effect (r : Req) (s : State) : portSetSpeedSpec.effect r s = (s.setSpeed r, okReply) := rfl

variable (s : State) (r : Req) (b : Bool) (p : Nat)

theorem State.relaned_steady : Steady s (s.relaned b p) :=
  Steady.ite ((s.takeDown_steady p 8).trans (State.flushPort_steady _ p)) (Steady.refl s)

theorem State.cutsEnded_steady : Steady s (s.cutsEnded b p) := Steady.ite ⟨rfl, rfl, rfl, rfl, rfl⟩ (Steady.refl s)

theorem State.downNext_steady : Steady s (s.downNext b p) :=
  Steady.ite ((s.modSched_steady p _).trans (State.frameBoundary_steady _ p)) (Steady.refl s)

theorem State.repathed_steady : Steady s (s.repathed b p) := Steady.ite (s.repath_steady p) (Steady.refl s)

/-- What follows the storing of the setting. -/
theorem State.speed_follows (q : Bool) (d : Bool) : Steady s (((s.cutsEnded b p).downNext d p).repathed q p) :=
  ((s.cutsEnded_steady b p).trans (State.downNext_steady _ d p)).trans (State.repathed_steady _ q p)

theorem State.setSpeed_cfg : (s.setSpeed r).cfg = s.cfg.withSpeed r (r.f 16 1) (s.portCfg (r.f 16 1)) := by
  unfold State.setSpeed
  dsimp only
  rw [(speed_follows ..).cfg, store_cfg, (relaned_steady ..).cfg]

theorem Cfg.withSpeed_port (c : Cfg) (old : PortCfg) : tget {} (c.withSpeed r p old).ports p = speedOf r old := tget_tset_self ..

theorem Cfg.withSpeed_port_ne (c : Cfg) (old : PortCfg) {k : Nat} (h : k ≠ p) : tget {} (c.withSpeed r p old).ports k = tget {} c.ports k :=
  tget_tset_ne _ _ _ h

theorem Cfg.withSpeed_cuts (c : Cfg) (old : PortCfg) (h : r.f 20 2 = old.maxFrame) : (c.withSpeed r p old).cutThrough = c.cutThrough := by
  simp [withSpeed, h]

theorem Cfg.withSpeed_noCuts (c : Cfg) (old : PortCfg) (h : r.f 20 2 ≠ old.maxFrame) :
    ∀ e ∈ (c.withSpeed r p old).cutThrough, e.1 / 256 ≠ p ∧ e.1 % 256 ≠ p := by
  simp [withSpeed, h]

theorem State.relaned_linkUp : ((s.relaned b p).portSt p).linkUp = (!b && (s.portSt p).linkUp) := by
  cases b with
  | false => rfl
  | true => simp [relaned, portSt_of_ports (flushPort_ports ..), takeDown_linkUp]

theorem State.cutsEnded_portSt (k : Nat) : (s.cutsEnded b p).portSt k = s.portSt k := by
  unfold State.cutsEnded
  split <;> rfl

theorem State.cutsEnded_sched (k : Nat) : (s.cutsEnded b p).sched k = s.sched k := by
  unfold State.cutsEnded
  split <;> rfl

theorem State.repathed_portSt (k : Nat) : (s.repathed b p).portSt k = s.portSt k := by
  unfold State.repathed
  split
  · exact s.repath_portSt p k
  · rfl

theorem State.downNext_linkUp : ((s.downNext b p).portSt p).linkUp =
    ((s.portSt p).linkUp && (!b || (s.sched p).sending.isSome || (s.portCfg p).adminUp)) := by
  cases b with
  | false => simp [downNext]
  | true =>
    rw [downNext, if_pos rfl, frameBoundary_linkUp, modSched_sched]
    simp [State.portSt, State.portCfg, State.modSched]

theorem State.store_sched (f : Cfg → Cfg) (k : Nat) : (s.store f).sched k = s.sched k := by
  simp [State.sched]

/-- The link goes down with a change of lanes, or with ADMIN_UP 0 where no frame is being sent (R172). -/
theorem State.setSpeed_linkDown (h : relanes r (s.portCfg (r.f 16 1)) = true ∨ r.fl 19 0 = false ∧ (s.sched (r.f 16 1)).sending = none) :
    ((s.setSpeed r).portSt (r.f 16 1)).linkUp = false := by
  have hadmin (t : State) (ht : t.cfg = s.cfg) (old : PortCfg) (c : Bool) :
      (((t.store fun c => c.withSpeed r (r.f 16 1) old).cutsEnded c (r.f 16 1)).portCfg (r.f 16 1)).adminUp = r.fl 19 0 := by
    rw [State.portCfg, (cutsEnded_steady ..).cfg, store_cfg, Cfg.withSpeed_port]
    rfl
  unfold State.setSpeed
  dsimp only
  rw [repathed_portSt, downNext_linkUp, hadmin _ (relaned_steady ..).cfg, cutsEnded_portSt, cutsEnded_sched, store_sched,
    portSt_of_ports (store_ports ..), relaned_linkUp]
  rcases h with hlane | ⟨hoff, hidle⟩
  · simp [hlane]
  · cases hlane : relanes r (s.portCfg (r.f 16 1))
    · simp [hoff, relaned, hidle]
    · simp

/-- A port that sends a frame goes down when the frame ends. -/
theorem State.setSpeed_waits (hlane : relanes r (s.portCfg (r.f 16 1)) = false) (hoff : r.fl 19 0 = false)
    (hbusy : (s.sched (r.f 16 1)).sending ≠ none) :
    { (s.setSpeed r).ports with cutWait := s.ports.cutWait } = s.ports ∧ ((s.setSpeed r).sched (r.f 16 1)).downDue = true := by
  unfold State.setSpeed
  simp only [hlane, hoff, relaned, repathed, downNext, Bool.not_false, if_true, Bool.false_eq_true, if_false]
  rw [frameBoundary_busy (by rw [modSched_sched, cutsEnded_sched, store_sched]; exact hbusy), modSched_sched]
  refine ⟨?_, rfl⟩
  simp only [State.modSched, cutsEnded]
  split <;> simp [State.cutEnds]

end Sys2Proof.Machine

namespace Sys2Proof.Machine

theorem relanes_iff {r : Req} {old : PortCfg} :
    relanes r old = true ↔ r.fb 17 0 4 ≠ old.mode ∨ r.fb 18 0 6 ≠ old.firstLane ∨ r.fl 19 1 ≠ old.anEn := by
  simp [relanes, or_assoc]

theorem State.portCfg_of_cfg {s t : State} (h : t.cfg = s.cfg) (p : Nat) : t.portCfg p = s.portCfg p := by
  rw [State.portCfg, h]
  rfl

/-! ### PORT_SET_PREEMPT (R174) -/

/-- The settings of preemption that the command gives. -/
def preemptOf (r : Req) (old : PortCfg) : PortCfg :=
  { old with preEnable := r.fl 17 0, preVerify := r.fl 17 1, addFrag := r.fb 17 2 2, verifyMs := r.f 18 1 }

/-- The setting is stored, and due at the port's frame boundary. -/
def State.preemptDue (s : State) (r : Req) : State :=
  (s.store fun c => { c with ports := tmod {} c.ports (r.f 16 1) (preemptOf r) }).modSched (r.f 16 1) fun c => { c with preDue := true }

theorem portSetPreempt_effect (r : Req) (s : State) :
    portSetPreemptSpec.effect r s = ((s.preemptDue r).frameBoundary (r.f 16 1), okReply) := rfl

theorem State.preemptDue_cfg (s : State) (r : Req) :
    (s.preemptDue r).cfg = { s.cfg with ports := tmod {} s.cfg.ports (r.f 16 1) (preemptOf r) } := by
  exact store_cfg ..

theorem State.preemptDue_portCfg (s : State) (r : Req) : (s.preemptDue r).portCfg (r.f 16 1) = preemptOf r (s.portCfg (r.f 16 1)) := by
  rw [State.portCfg, preemptDue_cfg, tget_tmod_self]
  rfl

theorem State.preemptDue_portCfg_ne (s : State) (r : Req) {k : Nat} (h : k ≠ r.f 16 1) : (s.preemptDue r).portCfg k = s.portCfg k := by
  rw [State.portCfg, preemptDue_cfg, tget_tmod_ne _ _ _ h]
  rfl

theorem State.preemptDue_ports (s : State) (r : Req) : (s.preemptDue r).ports = s.ports := by simp [State.preemptDue]

theorem State.preemptDue_sched (s : State) (r : Req) :
    (s.preemptDue r).sched (r.f 16 1) = { s.sched (r.f 16 1) with preDue := true } := by
  rw [State.preemptDue, modSched_sched, store_sched]

/-- Preemption is evaluated afresh with the new settings, where no frame is being sent (R168, R174). -/
theorem State.preemptDue_boundary {s : State} {r : Req} (hsite : s.portSite (r.f 16 1) = none)
    (hfree : (s.sched (r.f 16 1)).sending = none) (hdown : (s.sched (r.f 16 1)).downDue = false) :
    let x := ((s.preemptDue r).frameBoundary (r.f 16 1)).portSt (r.f 16 1)
    x.preActive = ((s.portSt (r.f 16 1)).linkUp && r.fl 17 0 && !r.fl 17 1) ∧
      x.verifyTries = (if (s.portSt (r.f 16 1)).linkUp && r.fl 17 0 && r.fl 17 1 then 1 else 0) := by
  have hsched := s.preemptDue_sched r
  have hnoSite : (preemptOf r (s.portCfg (r.f 16 1))).site = none := hsite
  dsimp only
  rw [frameBoundary_preempt (by rw [hsched]; exact hfree) (by rw [hsched]) (by rw [hsched]; exact hdown), preemptEval_portSt,
    preemptDue_portCfg, portSt_of_ports (s.preemptDue_ports r), hnoSite]
  simp [preemptOf]

/-- A port that sends a frame takes the new settings when the frame ends. -/
theorem State.preemptDue_waits {s : State} {r : Req} (hbusy : (s.sched (r.f 16 1)).sending ≠ none) :
    (s.preemptDue r).frameBoundary (r.f 16 1) = s.preemptDue r :=
  frameBoundary_busy (by rw [preemptDue_sched]; exact hbusy)

end Sys2Proof.Machine

namespace Sys2Proof.Claims

open Machine

/-! What it means that the checks of a command's payload find nothing. -/

theorem firstOf_cons_eq_none {e : Chk} {l : List Chk} : firstOf (e :: l) = none ↔ e = none ∧ firstOf l = none := by
  cases e <;> simp

theorem badIf_eq_none {b : Bool} {sub : Nat} : badIf b sub = none ↔ b = false := by
  cases b <;> simp [badIf, failIf]

theorem params_none_par {c : AciSpec} {r : Req} {t : State} (h : c.params r t = none) : c.par r t = none :=
  (firstOf_cons_eq_none.1 (firstOf_cons_eq_none.1 h).2).1

theorem portSetSpeed_stores : Stores portSetSpeedSpec .portSetSpeed [.ports, .qos, .radio, .ctr] fun r s t =>
    let p := r.f 16 1
    let old := s.portCfg p
    t.portCfg p = { old with mode := r.fb 17 0 4, firstLane := r.fb 18 0 6, adminUp := r.fl 19 0, anEn := r.fl 19 1,
                             maxFrame := r.f 20 2 } ∧
      (∀ k, k ≠ p → t.portCfg k = s.portCfg k) ∧
      (let relane := r.fb 17 0 4 ≠ old.mode ∨ r.fb 18 0 6 ≠ old.firstLane ∨ r.fl 19 1 ≠ old.anEn
       (relane ∨ r.fl 19 0 = false ∧ (s.sched p).sending = none → (t.portSt p).linkUp = false) ∧
       (¬relane → r.fl 19 0 = false → (s.sched p).sending ≠ none →
         { t.ports with cutWait := s.ports.cutWait } = s.ports ∧ (t.sched p).downDue = true)) ∧
      (r.f 20 2 = old.maxFrame → t.cfg.cutThrough = s.cfg.cutThrough) ∧
      (r.f 20 2 ≠ old.maxFrame → ∀ e ∈ t.cfg.cutThrough, e.1 / 256 ≠ p ∧ e.1 % 256 ≠ p) := by
  refine stores_of_effect (fun _ _ => rfl) rfl [.host, .cfg, .nv, .ports, .qos, .radio, .ctr] portSetSpeedSpec_frame (by decide)
    fun a s _ _ =>
    ⟨_, portSetSpeed_effect .., Staged.of_store (State.relaned_steady ..) (State.speed_follows ..),
      fun host' nv => ?_⟩
  obtain ⟨host, hstarted⟩ := started_eq portSetSpeedSpec a s
  rw [hstarted]
  generalize portSetSpeedSpec.req a s = r
  have hcfg := State.setSpeed_cfg { s with host := host } r
  simp only [State.portCfg, hcfg, ← relanes_iff, ne_eq, Bool.not_eq_true]
  exact ⟨Cfg.withSpeed_port .., fun k hk => Cfg.withSpeed_port_ne _ _ _ _ hk,
    ⟨fun h => State.setSpeed_linkDown _ r h, fun hlane hoff hbusy => State.setSpeed_waits _ r hlane hoff hbusy⟩,
    fun h => Cfg.withSpeed_cuts _ _ _ _ h, fun h => Cfg.withSpeed_noCuts _ _ _ _ h⟩

theorem portSetCutThrough_stores : Stores portSetCutThroughSpec .portSetCutThrough [.ports] fun r s t =>
    let pair := 256 * r.f 16 1 + r.f 17 1
    t.cfg = { s.cfg with cutThrough := tset false s.cfg.cutThrough pair (r.fl 18 0) } ∧
      t.ports = { s.ports with cutWait := s.ports.cutWait ++
        (if s.ms.mode = .m3 ∧ s.unstored = false then [(pair, tget false s.cfg.cutThrough pair)] else []) } := by
  refine stores_of_effect (fun _ _ => rfl) rfl [.cfg, .nv, .ports] portSetCutThroughSpec_frame (by decide) fun a s _ _ =>
    ⟨_, rfl, Staged.of_store (Steady.refl _) (Steady.ite ⟨rfl, rfl, rfl, rfl, rfl⟩ (Steady.refl _)),
      fun host' nv => ?_⟩
  obtain ⟨host, hstarted⟩ := started_eq portSetCutThroughSpec a s
  rw [hstarted]
  have hunstored : State.unstored { s with host := host } = s.unstored := rfl
  simp only [hunstored, Bool.and_eq_true, beq_iff_eq, Bool.not_eq_true']
  split
  · exact ⟨State.store_cfg .., by simp⟩
  · exact ⟨State.store_cfg .., by simp⟩

theorem portSetPreempt_stores : Stores portSetPreemptSpec .portSetPreempt [.ports, .qos, .radio, .ctr] fun r s t =>
    let p := r.f 16 1
    t.portCfg p = { s.portCfg p with preEnable := r.fl 17 0, preVerify := r.fl 17 1, addFrag := r.fb 17 2 2, verifyMs := r.f 18 1 } ∧
      (∀ k, k ≠ p → t.portCfg k = s.portCfg k ∧ t.portSt k = s.portSt k) ∧
      ((s.sched p).sending = none → (s.sched p).downDue = false →
        (t.portSt p).preActive = ((s.portSt p).linkUp && r.fl 17 0 && !r.fl 17 1) ∧
        (t.portSt p).verifyTries = (if (s.portSt p).linkUp && r.fl 17 0 && r.fl 17 1 then 1 else 0)) ∧
      ((s.sched p).sending ≠ none → t.ports = s.ports ∧ (t.sched p).preDue = true) := by
  refine stores_of_effect (fun _ _ => rfl) rfl [.host, .cfg, .nv, .ports, .qos, .radio, .ctr] portSetPreemptSpec_frame (by decide)
    fun a s hacc _ =>
    ⟨_, portSetPreempt_effect .., Staged.of_store (Steady.refl _) ((State.modSched_steady ..).trans (State.frameBoundary_steady ..)),
      fun host' nv => ?_⟩
  have hsite : s.portSite ((portSetPreemptSpec.req a s).f 16 1) = none := by
    obtain ⟨hnone, -⟩ := firstOf_cons_eq_none.1 (params_none_par hacc.params)
    exact Option.isSome_eq_false_iff.1 (badIf_eq_none.1 hnone) |> Option.isNone_iff_eq_none.1
  obtain ⟨host, hstarted⟩ := started_eq portSetPreemptSpec a s
  rw [hstarted]
  generalize portSetPreemptSpec.req a s = r at hsite
  have hcfg := (State.frameBoundary_steady (State.preemptDue { s with host := host } r) (r.f 16 1)).cfg
  refine ⟨(State.portCfg_of_cfg hcfg _).trans (State.preemptDue_portCfg { s with host := host } r),
    fun k hk => ⟨(State.portCfg_of_cfg hcfg k).trans (State.preemptDue_portCfg_ne { s with host := host } r hk),
      (State.frameBoundary_portSt_ne _ hk).trans (State.portSt_of_ports (State.preemptDue_ports { s with host := host } r) k)⟩,
    fun hfree hdown => State.preemptDue_boundary (s := { s with host := host }) hsite hfree hdown, fun hbusy => ?_⟩
  rw [State.preemptDue_waits (s := { s with host := host }) hbusy]
  exact ⟨State.preemptDue_ports { s with host := host } r,
    congrArg Sched.preDue (State.preemptDue_sched { s with host := host } r)⟩

end Sys2Proof.Claims

/-! ### PORT_SET_RADIO (R175) -/

namespace Sys2Proof.Machine

/-- The settings of a port that becomes a radio port. -/
def radioOf (r : Req) (old : PortCfg) : PortCfg := { old with site := some (r.fb 17 0 7), maxFrame := 9600, preEnable := false }

/-- The configuration with a new radio port. -/
def Cfg.withRadio (c : Cfg) (r : Req) : Cfg :=
  { c with
    ports := tmod {} c.ports (r.f 16 1) (radioOf r)
    portTime := tmod {} c.portTime (r.f 16 1) fun x => { x with tb := 0 }
    cutThrough := c.cutThrough.filter fun e => e.1 / 256 != r.f 16 1 && e.1 % 256 != r.f 16 1 }

/-- The configuration with a port released from its site. -/
def Cfg.released (c : Cfg) (r : Req) : Cfg :=
  { c with ports := tmod {} c.ports (r.f 16 1) fun x => { x with site := none } }

/-- The queues of a port take their factory limits. -/
def State.limitsOf (s : State) (p : Nat) (limits : Tab (Option QLimits)) : State :=
  { s with qos := { s.qos with limits := limits.filter fun e => e.1 / 128 != p } }

/-- What the port and the site do before the port is a radio port. -/
def State.radioPrepared (s : State) (r : Req) : State :=
  (((s.takeDown (r.f 16 1) 8).cutEnds (r.f 16 1)).siteFresh (r.fb 17 0 7)).limitsOf (r.f 16 1) s.qos.limits

/-- What the site does before its port is released. -/
def State.radioLeft (s : State) (r : Req) : State := (s.siteOut (r.fb 17 0 7) 7).limitsOf (r.f 16 1) s.qos.limits

variable {s : State} {r : Req}

theorem portSetRadio_enable (h : r.fl 17 7 = true) :
    portSetRadioSpec.effect r s = ((s.radioPrepared r).store fun c => c.withRadio r, okReply) := if_pos h

theorem portSetRadio_release (h : r.fl 17 7 = false) (hsite : (s.portSite (r.f 16 1)).isSome = true) :
    portSetRadioSpec.effect r s = ((s.radioLeft r).store fun c => c.released r, okReply) := by
  have hsome : ¬(s.portSite (r.f 16 1)).isNone = true := by rw [Option.isNone_eq_false_iff.2 hsite]; simp
  exact (if_neg (by simp [h])).trans (if_neg hsome)

theorem portSetRadio_idle (h : r.fl 17 7 = false) (hsite : s.portSite (r.f 16 1) = none) :
    portSetRadioSpec.effect r s = (s, okReply) :=
  (if_neg (by simp [h])).trans (if_pos (by rw [hsite]; rfl))

variable (s r)

theorem State.radioPrepared_steady : Steady s (s.radioPrepared r) :=
  have hcut : Steady (s.takeDown (r.f 16 1) 8) ((s.takeDown (r.f 16 1) 8).cutEnds (r.f 16 1)) := ⟨rfl, rfl, rfl, rfl, rfl⟩
  have hfresh := (s.takeDown_steady (r.f 16 1) 8).trans (hcut.trans (State.siteFresh_steady _ (r.fb 17 0 7)))
  hfresh.trans ⟨rfl, rfl, rfl, rfl, rfl⟩

theorem State.radioLeft_steady : Steady s (s.radioLeft r) :=
  (s.siteOut_steady (r.fb 17 0 7) 7).trans ⟨rfl, rfl, rfl, rfl, rfl⟩

theorem State.radioPrepared_linkUp : ((s.radioPrepared r).portSt (r.f 16 1)).linkUp = false := by
  have hports : (s.radioPrepared r).ports = ((s.takeDown (r.f 16 1) 8).cutEnds (r.f 16 1)).ports := siteFresh_ports ..
  have hdown := s.takeDown_linkUp (r.f 16 1) 8 (r.f 16 1)
  rw [portSt_of_ports hports]
  simpa [State.cutEnds, State.portSt] using hdown

theorem tget_tmod {α : Type} [DecidableEq α] (d : α) (t : Tab α) (n m : Nat) (f : α → α) :
    tget d (tmod d t n f) m = if m = n then f (tget d t n) else tget d t m := by
  split
  next h => rw [h, tget_tmod_self]
  next h => exact tget_tmod_ne d t f h

theorem Cfg.withRadio_port (c : Cfg) (k : Nat) :
    tget {} (c.withRadio r).ports k = if k = r.f 16 1 then radioOf r (tget {} c.ports (r.f 16 1)) else tget {} c.ports k := tget_tmod ..

theorem Cfg.released_port (c : Cfg) (k : Nat) : tget {} (c.released r).ports k =
    if k = r.f 16 1 then { tget {} c.ports (r.f 16 1) with site := none } else tget {} c.ports k :=
  tget_tmod {} c.ports (r.f 16 1) k fun x => { x with site := none }

theorem Steady.stored_portCfg {s u : State} (h : Steady s u) (f : Cfg → Cfg) (k : Nat) :
    (u.store f).portCfg k = tget {} (f s.cfg).ports k := by
  rw [State.portCfg, State.store_cfg, h.cfg]

end Sys2Proof.Machine

namespace Sys2Proof.Claims

open Machine

theorem portSetRadio_stores : Stores portSetRadioSpec .portSetRadio [.ports, .qos, .radio, .ctr] (fun r s t =>
    let p := r.f 16 1
    (r.fl 17 7 = true → (t.portCfg p).site = some (r.fb 17 0 7) ∧ (t.portCfg p).maxFrame = 9600 ∧
      (t.portCfg p).preEnable = false ∧ (t.portSt p).linkUp = false) ∧
    (r.fl 17 7 = false → t.portCfg p = { s.portCfg p with site := none }) ∧ ∀ k, k ≠ p → t.portCfg k = s.portCfg k)
    fun r s => r.fl 17 7 = true ∨ (s.portSite (r.f 16 1)).isSome = true := by
  refine stores_of_effect (fun _ _ => rfl) rfl [.host, .cfg, .nv, .ports, .qos, .radio, .ctr] portSetRadioSpec_frame (by decide)
    fun a s _ hwhen => ?_
  obtain ⟨host, hstarted⟩ := started_eq portSetRadioSpec a s
  rw [hstarted]
  generalize portSetRadioSpec.req a s = r at hwhen
  cases hon : r.fl 17 7 with
  | true =>
    have hport (k : Nat) := (Steady.stored_portCfg (State.radioPrepared_steady { s with host := host } r) (·.withRadio r) k).trans
      (Cfg.withRadio_port ..)
    refine ⟨_, portSetRadio_enable hon, Staged.of_store (State.radioPrepared_steady ..) (Steady.refl _), fun host' nv => ⟨fun _ => ?_,
      fun h => Bool.noConfusion h, fun k hk => ?_⟩⟩
    · have hself := (hport (r.f 16 1)).trans (if_pos rfl)
      refine ⟨congrArg PortCfg.site hself, congrArg PortCfg.maxFrame hself, congrArg PortCfg.preEnable hself, ?_⟩
      exact (congrArg PortSt.linkUp (State.portSt_of_ports (State.store_ports ..) _)).trans (State.radioPrepared_linkUp ..)
    · exact (hport k).trans (if_neg hk)
  | false =>
    have hsite : (s.portSite (r.f 16 1)).isSome = true := by simpa [hon] using hwhen
    have hport (k : Nat) := (Steady.stored_portCfg (State.radioLeft_steady { s with host := host } r) (·.released r) k).trans
      (Cfg.released_port ..)
    refine ⟨_, portSetRadio_release hon hsite, Staged.of_store (State.radioLeft_steady ..) (Steady.refl _), fun host' nv =>
      ⟨fun h => Bool.noConfusion h, fun _ => (hport _).trans (if_pos rfl), fun k hk => (hport k).trans (if_neg hk)⟩⟩

theorem portSetRadio_unchanged (a : Aci) (s : State) (hacc : accepted portSetRadioSpec a s = true)
    (hoff : (portSetRadioSpec.req a s).fl 17 7 = false) (hsite : s.portSite ((portSetRadioSpec.req a s).f 16 1) = none) :
    Gives (.portSetRadio a) s fun t => Responded portSetRadioSpec a s t stOk 0 [] ∧ Only [.host] s t := by
  have hdoes : Does portSetRadioSpec .portSetRadio stOk [] (fun _ _ _ res => res = [])
      fun r s => r.fl 17 7 = false ∧ s.portSite (r.f 16 1) = none :=
    does_of_effect (fun _ _ => rfl) fun a s _ hwhen =>
      ⟨_, [], portSetRadio_idle hwhen.1 hwhen.2, Steady.refl _, only_started _ a (by simp), fun _ => rfl⟩
  obtain ⟨t, hexec, res, hresponded, honly, hres⟩ := hdoes a s hacc ⟨hoff, hsite⟩
  exact ⟨t, hexec, hres ▸ hresponded, honly⟩

end Sys2Proof.Claims

/-! ### PORT_RING_PAIR (R177) and PORT_OPTICS_MAP (R181) -/

namespace Sys2Proof.Machine

/-- A table that is written at every number below `n`. -/
theorem tget_foldl_tset_range {α : Type} [DecidableEq α] (d : α) (g : Nat → α) (t : Tab α) (n k : Nat) :
    tget d ((List.range n).foldl (fun t k => tset d t k (g k)) t) k = if k < n then g k else tget d t k := by
  induction n with
  | zero => rfl
  | succ n ih =>
    rw [List.range_succ, List.foldl_append]
    by_cases hk : k = n
    · subst hk
      simp
    · have hlt : k < n + 1 ↔ k < n := by omega
      simp [tget_tset_ne _ _ _ hk, ih, hlt]

/-- A table of which only some entries stay. -/
theorem tget_filter {α : Type} (d : α) (q : Nat → Bool) (t : Tab α) (n : Nat) :
    tget d (t.filter fun e => q e.1) n = if q n then tget d t n else d := by
  induction t with
  | nil => simp [tget]
  | cons e t ih =>
    by_cases hn : e.1 = n
    · subst hn
      cases hq : q e.1 <;> simp_all [tget]
    · cases hq : q e.1 <;> simp [hq, tget, hn, ih]

variable (s : State) (r : Req)

theorem State.setRings_steady : Steady s s.setRings := ⟨rfl, rfl, rfl, rfl, rfl⟩

/-- The pins and the pass-throughs stand as the rules have them. -/
theorem State.setRings_levels (k : Fin 16) : tget false s.setRings.pins.bypassHold k.val = s.holdLevel k.val ∧
    tget false s.setRings.ports.passThrough k.val = s.passLevel k.val := by
  have hhold := tget_foldl_tset_range false s.holdLevel s.pins.bypassHold 16 k.val
  have hpass := tget_foldl_tset_range false s.passLevel s.ports.passThrough 16 k.val
  rw [if_pos k.isLt] at hhold hpass
  exact ⟨hhold, hpass⟩

/-! Recovery keeps what an answer is written from. -/

theorem State.portEvent_steady (type port cage reason detail : Nat) : Steady s (s.portEvent type port cage reason detail) :=
  ⟨by simp, by simp, by simp, by simp, by simp⟩

theorem State.modCage_steady (c : Nat) (f : CageSt → CageSt) : Steady s (s.modCage c f) := ⟨rfl, rfl, rfl, rfl, rfl⟩

theorem State.resetCage_steady (c : Nat) : Steady s (s.resetCage c) := by
  unfold State.resetCage
  split
  · exact (s.modCage_steady c _).trans (Steady.foldl (fun s p => s.takeDown_steady p 7) _ _)
  · exact Steady.refl s

theorem State.markCage_steady (bus c : Nat) : Steady s (s.markCage bus c) := by
  unfold State.markCage
  split
  · exact (s.modCage_steady c _).trans (portEvent_steady ..)
  · exact Steady.refl s

theorem State.recoverBus_steady (bus : Nat) (sda : List Bool) : Steady s (s.recoverBus bus sda) := by
  unfold State.recoverBus
  dsimp only
  generalize hu : ({ s with ports := _, pins := _ } : State) = u
  have hdriven : Steady s u := by rw [← hu]; exact ⟨rfl, rfl, rfl, rfl, rfl⟩
  have hreset := hdriven.trans (Steady.foldl (fun s c => s.resetCage_steady c) (s.recovery bus sda).reset u)
  have hmarked := hreset.trans (Steady.foldl (fun s c => s.markCage_steady bus c) (s.recovery bus sda).marked _)
  exact Steady.ite hmarked (hmarked.trans (portEvent_steady ..))

theorem State.draw_steady : Steady s s.draw.2 := ⟨rfl, rfl, rfl, rfl, rfl⟩

theorem State.wakeBus_steady (b : Nat) : Steady s (s.wakeBus b) :=
  Steady.ite (Steady.refl s) (s.draw_steady.trans (State.recoverBus_steady ..))

/-! A bus that is used for the first time (R185). -/

/-- Cages hang on the bus, and it was not used yet. -/
def State.firstUse (s : State) (b : Nat) : Prop := tget .untried s.ports.buses b = .untried ∧ s.busCages b ≠ []

theorem State.busCages_of_cfg {s t : State} (h : t.cfg = s.cfg) (b : Nat) : t.busCages b = s.busCages b := by
  unfold State.busCages
  rw [h]

theorem State.wakeBus_known {s : State} {b : Nat} (h : ¬s.firstUse b) : s.wakeBus b = s := by
  refine if_pos ?_
  by_cases huntried : tget .untried s.ports.buses b = .untried
  · simp [not_not.1 fun hcages => h ⟨huntried, hcages⟩]
  · simp [huntried]

theorem State.wakeBus_buses {s : State} {b : Nat} (h : s.firstUse b) : ∃ state : BusState,
    (state = .recovering ∨ state = .outOfService) ∧ (s.wakeBus b).ports.buses = tset .untried s.ports.buses b state := by
  obtain ⟨huntried, hcages⟩ := h
  have hwake : s.wakeBus b = s.draw.2.recoverBus b ((List.range 64).map fun i => bit s.draw.1 i) := if_neg (by simp [huntried, hcages])
  refine ⟨_, ?_, (congrArg (·.ports.buses) hwake).trans (recoverBus_buses ..)⟩
  split
  · exact .inl rfl
  · exact .inr rfl

theorem State.wakeBus_bus_ne {b k : Nat} (h : k ≠ b) :
    tget .untried (s.wakeBus b).ports.buses k = tget .untried s.ports.buses k := by
  by_cases hfirst : s.firstUse b
  · obtain ⟨state, -, hbuses⟩ := State.wakeBus_buses hfirst
    rw [hbuses, tget_tset_ne _ _ _ h]
  · rw [wakeBus_known hfirst]

/-- The first `n` buses are woken in turn. -/
def State.wakeBuses (s : State) (n : Nat) : State := (List.range n).foldl State.wakeBus s

theorem State.wakeBuses_succ (n : Nat) : s.wakeBuses (n + 1) = (s.wakeBuses n).wakeBus n := by
  simp [State.wakeBuses, List.range_succ]

theorem State.wakeBuses_steady (n : Nat) : Steady s (s.wakeBuses n) := Steady.foldl (fun s b => s.wakeBus_steady b) _ s

/-- A bus is as it was until its turn. -/
theorem State.wakeBuses_before {n k : Nat} (h : n ≤ k) :
    tget .untried (s.wakeBuses n).ports.buses k = tget .untried s.ports.buses k := by
  induction n with
  | zero => rfl
  | succ n ih => rw [wakeBuses_succ, wakeBus_bus_ne _ (by omega), ih (by omega)]

/-- And as it is woken from then on. -/
theorem State.wakeBuses_after {n k : Nat} (h : k < n) :
    tget .untried (s.wakeBuses n).ports.buses k = tget .untried ((s.wakeBuses k).wakeBus k).ports.buses k := by
  induction n with
  | zero => omega
  | succ n ih =>
    rw [wakeBuses_succ]
    by_cases hk : k = n
    · rw [hk]
    · rw [wakeBus_bus_ne _ hk, ih (by omega)]

theorem State.wakeBuses_firstUse (n : Nat) : (s.wakeBuses n).firstUse n ↔ s.firstUse n := by
  rw [firstUse, wakeBuses_before s (le_refl n), State.busCages_of_cfg (s.wakeBuses_steady n).cfg, firstUse]

theorem State.wakeBuses_first {n k : Nat} (h : k < n) (hfirst : s.firstUse k) :
    tget .untried (s.wakeBuses n).ports.buses k = .recovering ∨ tget .untried (s.wakeBuses n).ports.buses k = .outOfService := by
  obtain ⟨state, hstate, hbuses⟩ := State.wakeBus_buses ((s.wakeBuses_firstUse k).2 hfirst)
  rw [wakeBuses_after s h, hbuses, tget_tset_self]
  exact hstate

theorem State.wakeBuses_known {n k : Nat} (h : k < n) (hknown : ¬s.firstUse k) :
    tget .untried (s.wakeBuses n).ports.buses k = tget .untried s.ports.buses k := by
  rw [wakeBuses_after s h, State.wakeBus_known fun hfirst => hknown ((s.wakeBuses_firstUse k).1 hfirst), wakeBuses_before s (le_refl k)]

/-- The map of the cages that the command gives (R181). -/
def cageMap (r : Req) : Tab (Option Cage) := (List.range 128).foldl (fun t c => tset none t c (cageOf r c)) []

/-- The map is stored. -/
def State.mapStored (s : State) (r : Req) : State := s.store fun c => { c with cages := cageMap r }

/-- A cage that the map changes loses its state (R185). -/
def State.mapped (s : State) (r : Req) : State :=
  let t := s.mapStored r
  let kept := s.ports.cages.filter fun e => tget none t.cfg.cages e.1 == tget none s.cfg.cages e.1
  { t with ports := { t.ports with cages := kept } }

theorem portOpticsMap_effect : portOpticsMapSpec.effect r s =
    (if (s.mapped r).ports.driving then (s.mapped r).wakeBuses 16 else s.mapped r, okReply) := rfl

theorem State.mapStored_ports : (s.mapStored r).ports = s.ports := store_ports ..

theorem State.mapped_st : (s.mapped r).ports.st = s.ports.st := (congrArg Ports.st (s.mapStored_ports r) :)

theorem State.mapped_buses : (s.mapped r).ports.buses = s.ports.buses := (congrArg Ports.buses (s.mapStored_ports r) :)

theorem State.mapped_driving : (s.mapped r).ports.driving = s.ports.driving := (congrArg Ports.driving (s.mapStored_ports r) :)

theorem cageMap_cage (k : Fin 128) : tget none (cageMap r) k.val = cageOf r k.val :=
  (tget_foldl_tset_range none (cageOf r) [] 128 k.val).trans (if_pos k.isLt)

theorem State.mapped_cages : (s.mapped r).cfg.cages = cageMap r := by
  have hcfg : (s.mapped r).cfg = { s.cfg with cages := cageMap r } := store_cfg ..
  rw [hcfg]

theorem State.mapped_cage (k : Fin 128) : tget none (s.mapped r).cfg.cages k.val = cageOf r k.val := by
  rw [mapped_cages, cageMap_cage]

theorem State.mapped_cageSt (k : Nat) : (s.mapped r).cageSt k =
    if tget none (s.mapped r).cfg.cages k = tget none s.cfg.cages k then s.cageSt k else {} := by
  have hkept := tget_filter {} (fun c => tget none (s.mapped r).cfg.cages c == tget none s.cfg.cages c) s.ports.cages k
  simp only [beq_iff_eq] at hkept
  exact hkept

end Sys2Proof.Machine

namespace Sys2Proof.Claims

open Machine

theorem portRingPair_stores : Stores portRingPairSpec .portRingPair [.ports, .pins] fun r s t =>
    t.cfg = { s.cfg with rings := tset none s.cfg.rings (r.fb 16 0 4) (if r.fl 16 7 then some (r.f 17 1, r.f 18 1) else none) } ∧
      ∀ k : Fin 16, tget false t.pins.bypassHold k.val = t.holdLevel k.val ∧ tget false t.ports.passThrough k.val = t.passLevel k.val := by
  refine stores_of_effect (fun _ _ => rfl) rfl [.cfg, .nv, .ports, .pins] portRingPairSpec_frame (by decide) fun a s _ _ =>
    ⟨_, rfl, Staged.of_store (Steady.refl _) (State.setRings_steady _), fun host' nv => ?_⟩
  obtain ⟨host, hstarted⟩ := started_eq portRingPairSpec a s
  rw [hstarted]
  exact ⟨State.store_cfg .., fun k => State.setRings_levels _ k⟩

theorem portOpticsMap_stores : Stores portOpticsMapSpec .portOpticsMap [.ports, .radio, .pins, .ctr, .draws] fun r s t =>
    (∀ k : Fin 128, tget none t.cfg.cages k.val = cageOf r k.val) ∧
    (s.ports.driving = false → t.ports.st = s.ports.st ∧ t.ports.buses = s.ports.buses ∧
      ∀ k : Fin 128, t.cageSt k.val = if tget none t.cfg.cages k.val = tget none s.cfg.cages k.val then s.cageSt k.val else {}) ∧
    (s.ports.driving = true → ∀ b : Fin 16,
      let first := tget .untried s.ports.buses b.val = .untried ∧ t.busCages b.val ≠ []
      (first → tget .untried t.ports.buses b.val = .recovering ∨ tget .untried t.ports.buses b.val = .outOfService) ∧
      (¬first → tget .untried t.ports.buses b.val = tget .untried s.ports.buses b.val)) := by
  refine stores_of_effect (fun _ _ => rfl) rfl [.host, .cfg, .nv, .ports, .radio, .pins, .ctr, .draws] portOpticsMapSpec_frame (by decide)
    fun a s _ _ => ⟨_, portOpticsMap_effect .., Staged.of_store (Steady.refl _) (Steady.ite ?_ ⟨rfl, rfl, rfl, rfl, rfl⟩),
      fun host' nv => ?_⟩
  · exact Steady.trans (t := State.mapped ..) ⟨rfl, rfl, rfl, rfl, rfl⟩ (State.wakeBuses_steady _ 16)
  obtain ⟨host, hstarted⟩ := started_eq portOpticsMapSpec a s
  rw [hstarted]
  generalize portOpticsMapSpec.req a s = r
  have hcages := State.mapped_cage { s with host := host } r
  have hbuses := State.mapped_buses { s with host := host } r
  rw [State.mapped_driving]
  cases hdrive : s.ports.driving with
  | false =>
    rw [if_neg (by simp)]
    exact ⟨hcages, fun _ => ⟨State.mapped_st { s with host := host } r, hbuses,
      fun k => State.mapped_cageSt { s with host := host } r k.val⟩, fun h => Bool.noConfusion h⟩
  | true =>
    rw [if_pos rfl]
    have hcfg := (State.wakeBuses_steady (State.mapped { s with host := host } r) 16).cfg
    have hwake := fun b : Fin 16 => State.wakeBuses_first (State.mapped { s with host := host } r) b.isLt
    have hknown := fun b : Fin 16 => State.wakeBuses_known (State.mapped { s with host := host } r) b.isLt
    have hfirst (b : Nat) : (State.mapped { s with host := host } r).firstUse b ↔ tget .untried s.ports.buses b = .untried ∧
        (State.wakeBuses (State.mapped { s with host := host } r) 16).busCages b ≠ [] := by
      rw [State.firstUse, hbuses, State.busCages_of_cfg hcfg]
    simp only [← hcfg, hfirst, hbuses] at hcages hwake hknown
    generalize State.wakeBuses (State.mapped { s with host := host } r) 16 = w at hcages hwake hknown ⊢
    exact ⟨hcages, fun h => Bool.noConfusion h, fun _ b => ⟨hwake b, hknown b⟩⟩

end Sys2Proof.Claims

section
open Sys2Proof Sys2Proof.Machine Sys2Proof.Claims

/-- Settles O19: each setting is stored between operations on its port, its rings or its buses, which leave alone what the answer is
written from. -/
theorem portSettingsTakeEffect : Obligations.PortSettingsTakeEffect :=
  ⟨portSetSpeed_stores, portSetCutThrough_stores, portSetPreempt_stores, portSetRadio_stores, portSetRadio_unchanged,
    portRingPair_stores, portOpticsMap_stores⟩

end

/-! ### Counters of ports beside other counters -/

namespace Sys2Proof.Machine

theorem Ctr.slot_port (p : Nat) (k : PortCtr) : (Ctr.port p k).slot = 8192 + p * 25 + k.ctorIdx := rfl

theorem PortCtr.ctorIdx_lt (k : PortCtr) : k.ctorIdx < 25 := by
  cases k <;> decide

theorem ctrBlock_beyond_ports : ∀ b : Fin 17, ((ctrBlock (b.val + 2)).any fun e => decide (14848 ≤ e.2.2 / 8)) = true := by
  decide

theorem Ctr.place_block (c : Ctr) : 1 ≤ c.place.1 ∧ c.place.1 ≤ 18 := by
  cases c <;> simp [Ctr.place]

/-- The other blocks lie behind that of the ports (R645). -/
theorem Ctr.slot_beyond_ports {c : Ctr} (h : c.place.1 ≠ 1) : 14848 ≤ c.slot := by
  obtain ⟨hfirst, hlast⟩ := c.place_block
  have hblock := ctrBlock_beyond_ports ⟨c.place.1 - 2, by omega⟩
  rw [show c.place.1 - 2 + 2 = c.place.1 by omega] at hblock
  obtain ⟨⟨n, per, off⟩, hfound, hoff⟩ := (Option.any_eq_true ..).1 hblock
  rw [Ctr.slot, ctrSlotAt, hfound]
  have hoff := of_decide_eq_true hoff
  dsimp only at hoff ⊢
  omega

/-- A counter of a port has its slot to itself. -/
theorem Ctr.slot_ne_port {p : Nat} {k : PortCtr} {c : Ctr} (hp : p < 256) (h : c.place ≠ (Ctr.port p k).place) :
    (Ctr.port p k).slot ≠ c.slot := by
  have hk := k.ctorIdx_lt
  by_cases hblock : c.place.1 = 1
  · cases c with
    | port p' k' =>
      have hk' := k'.ctorIdx_lt
      have hother : ¬(p' = p ∧ k'.ctorIdx = k.ctorIdx) := fun ⟨hp, hk⟩ => h (by simp [Ctr.place, hp, hk])
      rw [Ctr.slot_port, Ctr.slot_port]
      omega
    | _ => simp [Ctr.place] at hblock
  · have hbeyond := Ctr.slot_beyond_ports hblock
    rw [Ctr.slot_port]
    omega

variable {s : State} {p : Nat} {k : PortCtr} {c : Ctr}

theorem State.count_aside (hp : p < 256) (h : c.place ≠ (Ctr.port p k).place) (n : Nat) :
    (s.count c n).counter (.port p k) = s.counter (.port p k) := s.count_counter_ne n (Ctr.slot_ne_port hp h)

theorem State.gauge_aside (hp : p < 256) (h : c.place ≠ (Ctr.port p k).place) (v : Nat) :
    (s.gauge c v).counter (.port p k) = s.counter (.port p k) := by
  simp [State.gauge, State.counter, tget_tset_ne _ _ _ (Ctr.slot_ne_port hp h)]

theorem State.count_port_aside {p' : Nat} {x : PortCtr} (hp : p < 256) (h : x.ctorIdx ≠ k.ctorIdx) (n : Nat) :
    (s.count (.port p' x) n).counter (.port p k) = s.counter (.port p k) := count_aside hp (fun hplace => h (congrArg (·.2.2) hplace)) n

theorem State.count_queue_aside (hp : p < 256) (q : Nat) (x : QueueCtr) (n : Nat) :
    (s.count (.queue q x) n).counter (.port p k) = s.counter (.port p k) := count_aside hp (by simp [Ctr.place]) n

theorem State.gaugeQueue_aside (hp : p < 256) (q : Nat) : (s.gaugeQueue q).counter (.port p k) = s.counter (.port p k) := by
  rw [State.gaugeQueue, gauge_aside hp (by simp [Ctr.place]), gauge_aside hp (by simp [Ctr.place])]

/-! ### The queues beside what is charged and counted -/

/-- The Cistern and the queues, without the store of frames, the shapers and the policers, which are charged as frames pass. -/
def Qos.lines (q : Qos) : Qos := { q with stored := [], retired := [], shapers := [], policers := [] }

section
variable {s t : State}

theorem State.queue_of_lines (h : t.qos.lines = s.qos.lines) (q : Nat) : t.queue q = s.queue q := by
  have hqueues : t.qos.lines.queues = s.qos.lines.queues := by rw [h]
  exact congrArg (tget {} · q) hqueues

theorem State.sched_of_lines (h : t.qos.lines = s.qos.lines) (p : Nat) : t.sched p = s.sched p := by
  have hscheds : t.qos.lines.scheds = s.qos.lines.scheds := by rw [h]
  exact congrArg (tget {} · p) hscheds

theorem State.sent_of_lines (h : t.qos.lines = s.qos.lines) : t.qos.sent = s.qos.sent := by
  have hsent : t.qos.lines.sent = s.qos.lines.sent := by rw [h]
  exact hsent

end

@[simp] theorem State.letGo_lines (s : State) (id : Nat) : (s.letGo id).qos.lines = s.qos.lines := by
  unfold State.letGo
  split <;> rfl

@[simp] theorem State.chargeShaper_lines (s : State) (level index len : Nat) : (s.chargeShaper level index len).qos.lines = s.qos.lines := by
  unfold State.chargeShaper
  dsimp only
  split <;> rfl

@[simp] theorem State.retireCell_lines (s : State) (cell port : Nat) : (s.retireCell cell port).qos.lines = s.qos.lines := by
  unfold State.retireCell
  dsimp only
  split
  · rfl
  · generalize hv : (State.alarm _ 7 0x0711 _ : State) = v
    have hlines : v.qos.lines = s.qos.lines := by
      rw [← hv]
      simp [Qos.lines]
    split <;> simpa [State.gauge] using hlines

@[simp] theorem State.cellError_lines (s : State) (p id : Nat) (e : CellEcc) : (s.cellError p id e).qos.lines = s.qos.lines := by
  unfold State.cellError
  dsimp only
  split
  · rfl
  split
  · simp [State.count]
  · rw [retireCell_lines]
    split <;> rfl

end Sys2Proof.Machine

/-! ### Egress -/

namespace Sys2Proof.Machine

/-! A queue's frames are set (R251). -/

theorem State.setItems_queue_ne (s : State) {q k : Nat} (l : List QItem) (h : k ≠ q) : (s.setItems q l).queue k = s.queue k := by
  rw [State.setItems, clearDeficit_queue]
  exact tget_tmod_ne {} s.qos.queues (fun x => { x with items := l }) h

theorem State.setItems_launchEn (s : State) (q k : Nat) (l : List QItem) : ((s.setItems q l).queue k).launchEn = (s.queue k).launchEn := by
  by_cases h : k = q
  · rw [h, setItems_queue]
  · rw [setItems_queue_ne s l h]

@[simp] theorem State.setItems_sent (s : State) (q : Nat) (l : List QItem) : (s.setItems q l).qos.sent = s.qos.sent := by
  unfold State.setItems State.clearDeficit
  dsimp only
  split <;> rfl

theorem State.count_queue (s : State) (c : Ctr) (n k : Nat) : (s.count c n).queue k = s.queue k := rfl

theorem State.count_sent (s : State) (c : Ctr) (n : Nat) : (s.count c n).qos.sent = s.qos.sent := rfl

theorem State.gaugeQueue_sent (s : State) (q : Nat) : (s.gaugeQueue q).qos.sent = s.qos.sent := by simp

/-! Without launch queues nothing is to settle, and nothing becomes due. -/

theorem State.foldl_settle_off {s : State} (h : ∀ q, (s.queue q).launchEn = false) (qs : List Nat) :
    qs.foldl (fun s q => s.settle q) s = s := by
  induction qs with
  | nil => rfl
  | cons q qs ih => rw [List.foldl_cons, settle_off (h q), ih]

theorem State.dueNow_off {s : State} {q : Nat} (h : (s.queue q).launchEn = false) : s.dueNow q = s := by
  unfold State.dueNow
  split
  · exact if_neg (by simp [h])
  · rfl

theorem State.duesNow_off {s : State} (h : ∀ q, (s.queue q).launchEn = false) (p : Nat) : s.duesNow p = s := by
  unfold State.duesNow
  generalize s.busyQueues p = qs
  induction qs with
  | nil => rfl
  | cons q qs ih => rw [List.foldl_cons, dueNow_off (h q), ih]

/-! The choice of a port's express queue (R261). -/

/-- The first eligible queue of a falling list is the highest. -/
theorem State.firstEligible_highest {s : State} {q : Nat} {i : QItem} {qs : List Nat} (hfalling : qs.Pairwise (· > ·)) (hq : q ∈ qs)
    (hi : s.eligible q = some i) (hhigher : ∀ k ∈ qs, q < k → s.eligible k = none) : s.firstEligible qs = some (q, i) := by
  induction qs with
  | nil => cases hq
  | cons k qs ih =>
    obtain ⟨hbelow, hfalling⟩ := List.pairwise_cons.1 hfalling
    unfold State.firstEligible
    rcases List.mem_cons.1 hq with rfl | hq
    · rw [hi]
    · rw [hhigher k List.mem_cons_self (hbelow q hq)]
      exact ih hfalling hq fun k hk => hhigher k (List.mem_cons_of_mem _ hk)

theorem State.selectExpress_highest {s : State} {p : Nat} {k : Fin 8} {i : QItem} (hi : s.eligible (128 * p + k.val) = some i)
    (hhigher : ∀ j : Fin 8, k < j → s.eligible (128 * p + j.val) = none) : s.selectExpress p = some (128 * p + k.val, i) := by
  refine firstEligible_highest ?_ ?_ hi fun q hq hlt => ?_
  · rw [List.pairwise_map]
    exact List.pairwise_lt_range.imp_of_mem fun ha hb hab => by simp at ha hb; omega
  · exact List.mem_map.2 ⟨7 - k.val, by simp; omega, by omega⟩
  · obtain ⟨j, hj, rfl⟩ := List.mem_map.1 hq
    exact hhigher ⟨7 - j, by omega⟩ (by simp [Fin.lt_def]; omega)

theorem State.pick_express {s : State} {p : Nat} {f : Nat × QItem} (hoff : ∀ q, (s.queue q).launchEn = false)
    (hf : s.selectExpress p = some f) : s.pick p = (s.modSched p fun _ => s.sched p, some f) := by
  unfold State.pick State.choose
  rw [duesNow_off hoff, hf]

/-! The head of a queue begins to leave (R261, R265). -/

/-- The shapers of a queue are charged. -/
def State.charge (s : State) (q len : Nat) : State :=
  if !s.isRadio (q / 128) then
    let s := if (s.queue q).launchEn then s else s.chargeShaper 0 q len
    let s := if 8 ≤ q % 128 && q % 128 < 120 then s.chargeShaper 1 (bundleIndex q) len else s
    if 8 ≤ q % 128 then s.chargeShaper 2 (q / 128) len else s
  else s

theorem State.charge_lines (s : State) (q len : Nat) : (s.charge q len).qos.lines = s.qos.lines := by
  unfold State.charge
  dsimp only
  split
  · split <;> split <;> split <;> simp
  · rfl

theorem State.charge_ctr (s : State) (q len : Nat) : (s.charge q len).ctr = s.ctr := by
  unfold State.charge
  dsimp only
  split
  · split <;> split <;> split <;> simp
  · rfl

/-- The frame has left its queue and is charged. -/
def State.taken (s : State) (q : Nat) (i : QItem) : State :=
  let t := (s.setItems q ((s.queue q).items.drop 1)).charge q (s.charged (q / 128) i)
  let t := if i.late then t.count (.queue q .lateSent) else t
  t.modSched (q / 128) fun c => { c with sending := some (q, i) }

theorem State.start_eq (s : State) (q : Nat) (i : QItem) : s.start q i = ((s.taken q i).settle q).noteStart (q / 128) i.id := rfl

variable {s : State} {q : Nat} (i : QItem)

theorem State.modSched_lines {s t : State} (h : t.qos.lines = s.qos.lines) (p : Nat) (f : Sched → Sched) :
    (t.modSched p f).qos.lines = (s.modSched p f).qos.lines :=
  congrArg (fun x : Qos => { x with scheds := tmod {} x.scheds p f }) h

/-- A queue without its head, which is being sent. -/
def State.headSent (s : State) (q : Nat) (i : QItem) : State :=
  (s.setItems q ((s.queue q).items.drop 1)).modSched (q / 128) fun c => { c with sending := some (q, i) }

theorem State.taken_lines (s : State) (q : Nat) (i : QItem) : (s.taken q i).qos.lines = (s.headSent q i).qos.lines := by
  unfold State.taken State.headSent
  dsimp only
  refine modSched_lines ?_ ..
  split
  · exact charge_lines ..
  · exact charge_lines ..

theorem State.start_lines (hoff : ∀ q, (s.queue q).launchEn = false) : (s.start q i).qos.lines = (s.headSent q i).qos.lines := by
  have htaken : ((s.taken q i).queue q).launchEn = false := by
    rw [queue_of_lines (s.taken_lines q i)]
    exact (s.setItems_launchEn q q _).trans (hoff q)
  rw [start_eq, settle_off htaken, ← taken_lines]
  simp

theorem State.start_queue (hoff : ∀ q, (s.queue q).launchEn = false) (k : Nat) :
    (s.start q i).queue k = (s.setItems q ((s.queue q).items.drop 1)).queue k := queue_of_lines (start_lines i hoff) k

theorem State.start_sending (hoff : ∀ q, (s.queue q).launchEn = false) : ((s.start q i).sched (q / 128)).sending = some (q, i) := by
  rw [sched_of_lines (start_lines i hoff), headSent, modSched_sched]

theorem State.start_sent (hoff : ∀ q, (s.queue q).launchEn = false) : (s.start q i).qos.sent = s.qos.sent :=
  (sent_of_lines (start_lines i hoff)).trans (setItems_sent ..)

theorem State.start_counter (hoff : ∀ q, (s.queue q).launchEn = false) {p : Nat} (hp : p < 256) (k : PortCtr) :
    (s.start q i).counter (.port p k) = s.counter (.port p k) := by
  have htaken : ((s.taken q i).queue q).launchEn = false := by
    rw [queue_of_lines (s.taken_lines q i)]
    exact (s.setItems_launchEn q q _).trans (hoff q)
  have hcharged (u : State) (len : Nat) : ((u.setItems q ((s.queue q).items.drop 1)).charge q len).counter (.port p k) =
      u.counter (.port p k) := counter_congr (by rw [charge_ctr]; simp) _
  have hcount : (s.taken q i).counter (.port p k) = s.counter (.port p k) := by
    unfold State.taken
    dsimp only
    split
    · exact (count_queue_aside hp ..).trans (hcharged ..)
    · exact hcharged ..
  rw [start_eq, settle_off htaken, ← hcount]
  exact counter_congr (by simp) _

/-! A frame is on the wire (R190, R284). -/

theorem State.emit_qos (s : State) (q : Nat) (i : QItem) :
    (s.emit q i).qos = { s.qos with sent := (q / 128, withFcs i.bytes i.stomp) :: s.qos.sent } := by
  unfold State.emit
  dsimp only
  split <;> rfl

@[simp] theorem State.emit_queue (s : State) (q : Nat) (i : QItem) (k : Nat) : (s.emit q i).queue k = s.queue k := by
  rw [State.queue, emit_qos]
  rfl

@[simp] theorem State.emit_sched (s : State) (q : Nat) (i : QItem) (p : Nat) : (s.emit q i).sched p = s.sched p := by
  rw [State.sched, emit_qos]
  rfl

theorem State.emit_sent (s : State) (q : Nat) (i : QItem) : (s.emit q i).qos.sent = (q / 128, withFcs i.bytes i.stomp) :: s.qos.sent := by
  rw [emit_qos]

/-- The counters of a frame that is sent. -/
def State.emitCounted (s : State) (q : Nat) (i : QItem) : State :=
  let n := (withFcs i.bytes i.stomp).length
  let t := (s.count (.port (q / 128) .txFrames)).count (.port (q / 128) .txOctets) n
  let t := (t.count (.queue q .txFrames)).count (.queue q .txOctets) n
  if i.stomp then t.count (.port (q / 128) .txStomped) else t

theorem State.emit_ctr (s : State) (q : Nat) (i : QItem) : (s.emit q i).ctr = (s.emitCounted q i).ctr := rfl

theorem State.emit_counter (s : State) (q : Nat) (i : QItem) (hp : q / 128 < 256) :
    (s.emit q i).counter (.port (q / 128) .txFrames) = (s.counter (.port (q / 128) .txFrames) + 1) % 2 ^ 64 := by
  have hstomped (u : State) : (if i.stomp then u.count (.port (q / 128) .txStomped) else u).counter (.port (q / 128) .txFrames) =
      u.counter (.port (q / 128) .txFrames) := by
    split
    · exact count_port_aside hp (by decide) 1
    · rfl
  rw [counter_congr (s.emit_ctr q i), emitCounted, hstomped, count_queue_aside hp, count_queue_aside hp, count_port_aside hp (by decide),
    count_counter]
  rfl

/-! The frame that was being sent has ended. -/

/-- The frame is gone, and a preempted one goes on, but not under a hold (R267). -/
def State.freed (s : State) (p : Nat) (i : QItem) : State :=
  let back := (s.sched p).preempted
  let t := if i.launch.isSome then s.modPort p fun x => { x with mmHolds := x.mmHolds.filter (· != i.id) } else s
  let held := (t.modSched p fun c => { c with sending := none }).mmHold p
  (t.letGo i.id).modSched p fun c => { c with sending := if held then none else back, preempted := if held then back else none }

variable {p : Nat} {i}

theorem State.finish_eq (h : (s.sched p).sending = some (q, i)) (hcomplete : i.complete = true) :
    s.finish p = (s.freed p i).gaugeQueue q := by
  unfold State.finish
  rw [h]
  exact if_neg (by simp [hcomplete])

theorem State.freed_lines (s : State) (p : Nat) (i : QItem) :
    { (s.freed p i).qos.lines with scheds := [] } = { s.qos.lines with scheds := [] } := by
  have hmod (u : State) (f : Sched → Sched) : { (u.modSched p f).qos.lines with scheds := [] } = { u.qos.lines with scheds := [] } := rfl
  unfold State.freed
  dsimp only
  rw [hmod, letGo_lines]
  split <;> rfl

theorem State.freed_ctr (s : State) (p : Nat) (i : QItem) : (s.freed p i).ctr = s.ctr := by
  unfold State.freed
  dsimp only
  split <;> simp

theorem State.finish_queue (h : (s.sched p).sending = some (q, i)) (hcomplete : i.complete = true) (k : Nat) :
    (s.finish p).queue k = s.queue k := by
  rw [finish_eq h hcomplete, gaugeQueue_queue]
  have hqueues : { (s.freed p i).qos.lines with scheds := [] }.queues = { s.qos.lines with scheds := [] }.queues := by rw [freed_lines]
  exact congrArg (tget {} · k) hqueues

theorem State.finish_sent (h : (s.sched p).sending = some (q, i)) (hcomplete : i.complete = true) :
    (s.finish p).qos.sent = s.qos.sent := by
  have hsent : { (s.freed p i).qos.lines with scheds := [] }.sent = { s.qos.lines with scheds := [] }.sent := by rw [freed_lines]
  rw [finish_eq h hcomplete, gaugeQueue_sent]
  exact hsent

theorem State.finish_counter (h : (s.sched p).sending = some (q, i)) (hcomplete : i.complete = true) (hp : p < 256) (k : PortCtr) :
    (s.finish p).counter (.port p k) = s.counter (.port p k) := by
  rw [finish_eq h hcomplete, gaugeQueue_aside hp]
  exact counter_congr (s.freed_ctr p i) _

/-! An ECC error of a cell (R248). -/

theorem State.cellError_counter (s : State) (p id : Nat) (e : CellEcc) {p' : Nat} (hp : p' < 256) (k : PortCtr) :
    (s.cellError p id e).counter (.port p' k) = s.counter (.port p' k) := by
  have hcount (u : State) : (u.count (.bank (e.cell.toNat / 8192) e.uncorrectable)).counter (.port p' k) = u.counter (.port p' k) :=
    count_aside hp (by simp [Ctr.place]) 1
  have hretire (u : State) (cell : Nat) : (u.retireCell cell p).counter (.port p' k) = u.counter (.port p' k) := by
    unfold State.retireCell
    dsimp only
    split
    · rfl
    · rw [gauge_aside hp (by simp [Ctr.place])]
      exact counter_congr (by split <;> simp) _
  unfold State.cellError
  dsimp only
  split
  · exact hcount s
  split
  · exact (counter_congr (by simp) _).trans (hcount s)
  · rw [hretire]
    refine Eq.trans (counter_congr ?_ _) (hcount s)
    split <;> rfl

theorem State.discardHead_eq (hoff : ∀ q, (s.queue q).launchEn = false) (q : Nat) (i : QItem) :
    s.discardHead q i = ((s.setItems q ((s.queue q).items.drop 1)).letGo i.id).gaugeQueue q := by
  unfold State.discardHead
  rw [settle_off]
  rw [queue_of_lines (letGo_lines ..), setItems_launchEn, hoff]

theorem State.discardHead_items (hoff : ∀ q, (s.queue q).launchEn = false) (q : Nat) (i : QItem) :
    ((s.discardHead q i).queue q).items = (s.queue q).items.drop 1 := by
  rw [discardHead_eq hoff, gaugeQueue_queue, queue_of_lines (letGo_lines ..), setItems_queue]

theorem State.discardHead_sent (hoff : ∀ q, (s.queue q).launchEn = false) (q : Nat) (i : QItem) :
    (s.discardHead q i).qos.sent = s.qos.sent := by
  rw [discardHead_eq hoff, gaugeQueue_sent, sent_of_lines (letGo_lines ..), setItems_sent]

theorem State.discardHead_counter (hoff : ∀ q, (s.queue q).launchEn = false) (q : Nat) (i : QItem) {p : Nat} (hp : p < 256)
    (k : PortCtr) : (s.discardHead q i).counter (.port p k) = s.counter (.port p k) := by
  rw [discardHead_eq hoff, gaugeQueue_aside hp]
  exact counter_congr (by simp) _

/-! The chosen frame starts (R161, R163, R248). -/

theorem State.leaves_flags (s : State) (p : Nat) (i : QItem) : (s.leaves p i).stomp = i.stomp ∧ (s.leaves p i).complete = i.complete := by
  unfold State.leaves
  split
  · exact ⟨rfl, rfl⟩
  split <;> exact ⟨rfl, rfl⟩

theorem State.corrected_stomp (s : State) (p : Nat) (i : QItem) : (s.corrected p i).stomp = i.stomp := by
  unfold State.corrected
  split
  · dsimp only
    split <;> rfl
  · rfl

theorem State.startFrame_sends (hup : (s.portSt (q / 128)).linkUp = true) (hcomplete : i.complete = true)
    (hlen : i.bytes.length + 4 ≤ (s.portCfg (q / 128)).maxFrame) : s.startFrame q i none =
      (s.start q (s.corrected (q / 128) (s.leaves (q / 128) i))).emit q (s.corrected (q / 128) (s.leaves (q / 128) i)) := by
  unfold State.startFrame
  dsimp only
  rw [if_neg (by simp [hup]), if_neg (by simp), if_neg (by omega), Bool.or_false, if_pos hcomplete, if_pos hcomplete]

theorem State.startFrame_down (hdown : (s.portSt (q / 128)).linkUp = false) (hcomplete : i.complete = true) (ecc : Option CellEcc) :
    s.startFrame q i ecc = ((s.start q i).count (.port (q / 128) .txLinkDownDrop)).finish (q / 128) := by
  unfold State.startFrame
  simp [hdown, hcomplete]

theorem State.startFrame_uncorrectable (hup : (s.portSt (q / 128)).linkUp = true) {e : CellEcc} (he : e.uncorrectable = true)
    (hbegun : e.begun = false) : s.startFrame q i (some e) =
      ((s.cellError (q / 128) i.id e).discardHead q i).count (.port (q / 128) .cellEccDrop) := by
  unfold State.startFrame
  simp [hup, he, hbegun]

end Sys2Proof.Machine

namespace Sys2Proof.Claims

open Machine

variable {s : State} {p : Fin 256}

theorem egressSelect_idle (h : s.inService = false ∨ s.portUsable p.val = false) (busy : Bool) (ecc : Option CellEcc) :
    exec (.egressSelect p busy ecc) s = .next s :=
  congrArg Host.Outcome.next (if_pos (by simpa using h))

/-- A port that sends nothing takes the head of its highest eligible express queue; the choice changes nothing but how the
schedulers are listed. -/
theorem egressSelect_starts {k : Fin 8} {i : QItem} (hserves : s.inService = true) (husable : s.portUsable p.val = true)
    (hidle : (s.sched p.val).sending = none) (hoff : ∀ q, (s.queue q).launchEn = false) (hi : s.eligible (128 * p.val + k.val) = some i)
    (hhigher : ∀ j : Fin 8, k < j → s.eligible (128 * p.val + j.val) = none) (ecc : Option CellEcc) :
    ∃ scheds, exec (.egressSelect p false ecc) s =
      .next (State.startFrame { s with qos := { s.qos with scheds := scheds } } (128 * p.val + k.val) i ecc) := by
  have hfound := State.selectExpress_highest hi hhigher
  have hpicked : s.pickExpress p.val = some (128 * p.val + k.val, i) := by rw [State.pickExpress, State.duesNow_off hoff, hfound]
  have hexec : exec (.egressSelect p false ecc) s = execEgressSelect p false ecc s := rfl
  rw [hexec, execEgressSelect]
  dsimp only
  rw [if_neg (by simp [hserves, husable]), hidle]
  dsimp only
  rw [State.foldl_settle_off hoff]
  cases (s.sched p.val).preempted with
  | some back =>
    rw [hpicked]
    exact ⟨s.qos.scheds, rfl⟩
  | none =>
    rw [State.pick_express hoff hfound]
    exact ⟨_, rfl⟩

end Sys2Proof.Claims

namespace Sys2Proof.Machine

variable {s : State} {p : Fin 256} {k : Fin 8} {i : QItem}

theorem queue_port (p : Nat) (k : Fin 8) : (128 * p + k.val) / 128 = p := by omega

/-- The head of an express queue is sent whole. -/
theorem State.startFrame_sent (hoff : ∀ q, (s.queue q).launchEn = false) (hup : (s.portSt p.val).linkUp = true)
    (hcomplete : i.complete = true) (hlen : i.bytes.length + 4 ≤ (s.portCfg p.val).maxFrame) :
    let q := 128 * p.val + k.val
    let t := s.startFrame q i none
    (t.queue q).items = (s.queue q).items.drop 1 ∧ (t.sched p.val).sending = some (q, s.corrected p.val (s.leaves p.val i)) ∧
      t.qos.sent = (p.val, withFcs (s.corrected p.val (s.leaves p.val i)).bytes i.stomp) :: s.qos.sent ∧
      (∀ j, j ≠ q → (t.queue j).items = (s.queue j).items) ∧
      t.counter (.port p.val .txFrames) = (s.counter (.port p.val .txFrames) + 1) % 2 ^ 64 := by
  have hport := queue_port p.val k
  have hsends := State.startFrame_sends (s := s) (q := 128 * p.val + k.val) (i := i) (by rwa [hport]) hcomplete (by rwa [hport])
  rw [hport] at hsends
  dsimp only
  rw [hsends]
  generalize hj : s.corrected p.val (s.leaves p.val i) = j
  have hstomp : j.stomp = i.stomp := by rw [← hj, corrected_stomp, (s.leaves_flags p.val i).1]
  have hsending := State.start_sending (q := 128 * p.val + k.val) j hoff
  have hcounter := State.emit_counter (s.start (128 * p.val + k.val) j) (128 * p.val + k.val) j (by omega)
  rw [hport] at hsending hcounter
  rw [start_counter j hoff p.isLt] at hcounter
  refine ⟨?_, ?_, ?_, fun x hx => ?_, hcounter⟩
  · rw [emit_queue, start_queue j hoff, setItems_queue]
  · rw [emit_sched, hsending]
  · rw [emit_sent, start_sent j hoff, hport, hstomp]
  · rw [emit_queue, start_queue j hoff, setItems_queue_ne _ _ hx]

/-- With the link down the frame leaves its queue unsent, and is counted (R161). -/
theorem State.startFrame_linkDown (hoff : ∀ q, (s.queue q).launchEn = false) (hdown : (s.portSt p.val).linkUp = false)
    (hcomplete : i.complete = true) :
    let q := 128 * p.val + k.val
    let t := s.startFrame q i none
    (t.queue q).items = (s.queue q).items.drop 1 ∧ t.qos.sent = s.qos.sent ∧
      t.counter (.port p.val .txLinkDownDrop) = (s.counter (.port p.val .txLinkDownDrop) + 1) % 2 ^ 32 := by
  have hport := queue_port p.val k
  have hdrops := State.startFrame_down (s := s) (q := 128 * p.val + k.val) (i := i) (by rwa [hport]) hcomplete none
  have hsending := State.start_sending (q := 128 * p.val + k.val) i hoff
  rw [hport] at hdrops hsending
  have hcounted : (((s.start (128 * p.val + k.val) i).count (.port p.val .txLinkDownDrop)).sched p.val).sending =
      some (128 * p.val + k.val, i) := hsending
  dsimp only
  rw [hdrops, finish_queue hcounted hcomplete, finish_sent hcounted hcomplete, finish_counter hcounted hcomplete p.isLt, count_counter,
    start_counter i hoff p.isLt, count_queue, count_sent, start_queue i hoff, setItems_queue, start_sent i hoff]
  exact ⟨rfl, rfl, rfl⟩

/-- A frame with an uncorrectable cell leaves its queue unsent, where its egress had not begun (R248). -/
theorem State.startFrame_eccDrop (hoff : ∀ q, (s.queue q).launchEn = false) (hup : (s.portSt p.val).linkUp = true) {e : CellEcc}
    (he : e.uncorrectable = true) (hbegun : e.begun = false) :
    let q := 128 * p.val + k.val
    let t := s.startFrame q i (some e)
    (t.queue q).items = (s.queue q).items.drop 1 ∧ t.qos.sent = s.qos.sent ∧
      t.counter (.port p.val .cellEccDrop) = (s.counter (.port p.val .cellEccDrop) + 1) % 2 ^ 32 := by
  have hport := queue_port p.val k
  have hdrops := State.startFrame_uncorrectable (s := s) (q := 128 * p.val + k.val) (i := i) (by rwa [hport]) he hbegun
  rw [hport] at hdrops
  have hlines := s.cellError_lines p.val i.id e
  have hoff' (q : Nat) : ((s.cellError p.val i.id e).queue q).launchEn = false := by rw [queue_of_lines hlines, hoff]
  dsimp only
  rw [hdrops, count_counter, discardHead_counter hoff' _ _ p.isLt, cellError_counter _ _ _ _ p.isLt, count_queue, count_sent,
    discardHead_items hoff', discardHead_sent hoff', queue_of_lines hlines, sent_of_lines hlines]
  exact ⟨rfl, rfl, rfl⟩

end Sys2Proof.Machine

section
open Sys2Proof Sys2Proof.Machine Sys2Proof.Claims

/-- Settles O44: the port takes the head of the highest eligible express queue, which is sent, or dropped and counted. -/
theorem egressSendsTheHighestExpress : Obligations.EgressSendsTheHighestExpress := by
  refine fun s p => ⟨fun busy ecc h => egressSelect_idle h busy ecc, fun k i hserves husable hidle hoff hi hhigher hcomplete hlen => ?_⟩
  have hstarts := egressSelect_starts hserves husable hidle hoff hi hhigher
  refine ⟨fun hup => ?_, fun hdown => ?_, fun e hup he hbegun => ?_⟩
  · obtain ⟨scheds, hexec⟩ := hstarts none
    refine gives_of_next hexec ⟨?_, State.startFrame_sent (s := { s with qos := { s.qos with scheds := scheds } }) hoff hup hcomplete hlen⟩
    exact (only_startFrame (by decide)).2 ((only_qos_update (by decide)).2 (Only.refl _ s))
  · obtain ⟨scheds, hexec⟩ := hstarts none
    exact gives_of_next hexec (State.startFrame_linkDown (s := { s with qos := { s.qos with scheds := scheds } }) hoff hdown hcomplete)
  · obtain ⟨scheds, hexec⟩ := hstarts (some e)
    exact gives_of_next hexec (State.startFrame_eccDrop (s := { s with qos := { s.qos with scheds := scheds } }) hoff hup he hbegun)

end

/-! ### The end of a received frame -/

namespace Sys2Proof.Machine

/-- What reception has in hand, the number of the next frame, and a counter of a port. -/
def State.reception (s : State) (p : Nat) (k : PortCtr) : Tab (Option RxHand) × Nat × Nat :=
  (s.qos.rx, s.qos.nextId, s.counter (.port p k))

/-- Counters of received frames by their size and their FCS (R190). -/
abbrev PortCtr.judges (k : PortCtr) : Prop := k.ctorIdx < 6

section
variable {p : Nat} {k : PortCtr} (hp : p < 256)

theorem State.modSched_reception (s : State) (n : Nat) (f : Sched → Sched) : (s.modSched n f).reception p k = s.reception p k := rfl

theorem State.setItems_reception (s : State) (q : Nat) (l : List QItem) : (s.setItems q l).reception p k = s.reception p k := by
  unfold State.setItems State.clearDeficit
  dsimp only
  split <;> rfl

theorem State.letGo_reception (s : State) (id : Nat) : (s.letGo id).reception p k = s.reception p k := by
  unfold State.letGo
  split <;> rfl

include hp

/-- No other counter is this one. -/
theorem State.count_reception (s : State) {c : Ctr} (h : c.place ≠ (Ctr.port p k).place) (n : Nat) :
    (s.count c n).reception p k = s.reception p k := by
  rw [State.reception, count_aside hp h]
  rfl

theorem State.count_queue_reception (s : State) (q : Nat) (x : QueueCtr) (n : Nat) :
    (s.count (.queue q x) n).reception p k = s.reception p k := s.count_reception hp (by simp [Ctr.place]) n

theorem State.count_pipe_reception (s : State) (pipe : Nat) (x : PipeCtr) (n : Nat) :
    (s.count (.pipe pipe x) n).reception p k = s.reception p k := s.count_reception hp (by simp [Ctr.place]) n

theorem State.gaugeQueue_reception (s : State) (q : Nat) : (s.gaugeQueue q).reception p k = s.reception p k := by
  rw [State.reception, gaugeQueue_aside hp]
  simp [State.reception]

variable (hk : k.judges)
include hk

/-- The other counters of a port count what is sent, and what the MAC merge and the FEC meet. -/
theorem State.count_port_reception (s : State) (p' : Nat) {x : PortCtr} (hx : 6 ≤ x.ctorIdx) (n : Nat) :
    (s.count (.port p' x) n).reception p k = s.reception p k := by
  unfold PortCtr.judges at hk
  exact s.count_reception hp (fun h => by have := congrArg (·.2.2) h; simp only [Ctr.place] at this; omega) n

theorem State.settleList_reception (q now : Nat) (late up : Bool) (l : List QItem) (s : State) :
    (s.settleList q now late up l).reception p k = s.reception p k := by
  induction l generalizing s with
  | nil => exact s.setItems_reception q []
  | cons i l ih =>
    unfold State.settleList
    split
    · exact s.setItems_reception q _
    · rw [ih, letGo_reception, count_queue_reception hp]
    · split
      · rw [ih, letGo_reception, s.count_port_reception hp hk _ (by decide)]
      split
      · exact s.setItems_reception q _
      · rw [ih, letGo_reception, count_queue_reception hp]

theorem State.settle_reception (s : State) (q : Nat) : (s.settle q).reception p k = s.reception p k := by
  unfold State.settle
  dsimp only
  split
  · rw [gaugeQueue_reception hp, settleList_reception hp hk]
  · rfl

theorem State.emit_reception (s : State) (q : Nat) (i : QItem) : (s.emit q i).reception p k = s.reception p k := by
  have hqos : (s.emit q i).reception p k = (s.emitCounted q i).reception p k := by
    rw [State.reception, counter_congr (s.emit_ctr q i), emit_qos, State.reception]
    unfold State.emitCounted
    dsimp only
    split <;> rfl
  rw [hqos]
  unfold State.emitCounted
  dsimp only
  split
  · rw [State.count_port_reception hp hk _ _ (by decide), State.count_queue_reception hp, State.count_queue_reception hp,
      State.count_port_reception hp hk _ _ (by decide), s.count_port_reception hp hk _ (by decide)]
  · rw [State.count_queue_reception hp, State.count_queue_reception hp, State.count_port_reception hp hk _ _ (by decide),
      s.count_port_reception hp hk _ (by decide)]

theorem State.endCutQueue_reception (id : Nat) (rest : Bytes) (keep : Option Nat) (cells : Nat) (stomp : Bool) (s : State) (q : Nat) :
    (State.endCutQueue id rest keep cells stomp s q).reception p k = s.reception p k := by
  have hout (u : State) (j : QItem) : ((if (u.portSt (q / 128)).linkUp then u.emit q j else
      u.count (.port (q / 128) .txLinkDownDrop)).gaugeQueue q).reception p k = u.reception p k := by
    rw [gaugeQueue_reception hp]
    split
    · exact emit_reception hp hk u q j
    · exact u.count_port_reception hp hk _ (by decide) 1
  unfold State.endCutQueue
  dsimp only
  split
  · exact hout _ _
  · exact hout _ _
  · rfl

theorem State.endCut_reception (s : State) (id : Nat) (queues : List Nat) (rest : Bytes) (keep : Option Nat) (cells : Nat) (stomp : Bool) :
    (s.endCut id queues rest keep cells stomp).reception p k = s.reception p k :=
  foldl_keeps (·.reception p k) (fun s q => endCutQueue_reception hp hk id rest keep cells stomp s q) queues s

theorem State.dropFrame_reception (s : State) (id : Nat) (queues : List Nat) :
    (s.dropFrame id queues).reception p k = s.reception p k := by
  refine foldl_keeps (·.reception p k) (fun s q => ?_) queues s
  have hgone (n : Nat) (u : State) : ((List.replicate n id).foldl (fun s i => s.letGo i) u).reception p k = u.reception p k :=
    foldl_keeps (·.reception p k) letGo_reception _ u
  rw [gaugeQueue_reception hp, settle_reception hp hk, hgone, setItems_reception]

omit hk in
theorem State.mapItem_reception (s : State) (id : Nat) (queues : List Nat) (f : QItem → QItem) :
    (s.mapItem id queues f).reception p k = s.reception p k := by
  refine foldl_keeps (·.reception p k) (fun s q => ?_) queues s
  rw [gaugeQueue_reception hp, modSched_reception, setItems_reception]

omit hk in
theorem State.punt_reception (s : State) (pipe fn ring : Nat) (f : PuntFrame) : (s.punt pipe fn ring f).reception p k = s.reception p k := by
  unfold State.punt
  dsimp only
  split
  · rfl
  split
  · exact count_pipe_reception hp ..
  split
  · exact count_pipe_reception hp ..
  · rfl

omit hk in
theorem State.crossBorder_reception (s : State) (pipe : Nat) (l : List (Nat × Bytes)) :
    (s.crossBorder pipe l).reception p k = s.reception p k := by
  refine foldl_keeps (·.reception p k) (fun s e => ?_) l s
  split
  · exact count_pipe_reception hp ..
  · rfl

omit hk in
theorem State.deliver_reception (s : State) (port : Nat) (h : RxHand) (rest : Bytes) :
    (s.deliver port h rest).reception p k = s.reception p k := by
  unfold State.deliver
  dsimp only
  rw [crossBorder_reception hp]
  exact foldl_keeps (·.reception p k) (fun s x => punt_reception hp ..) _ s

/-- The counts of the MAC merge at a frame's end (R190). -/
def State.mergeCounted (s : State) (port : Nat) (fin : RxEnd) : State :=
  let t := s.count (.port port .mmFragRx) fin.frags
  let t := if fin.assemblyErr then t.count (.port port .mmAssemblyErr) else if fin.frags = 0 then t else t.count (.port port .mmAssemblyOk)
  t.count (.port port .mmSmdErr) fin.smdErrs

/-- The counts of the FEC at a frame's end, where the mode has codewords (R158, R190). -/
def State.fecCounted (s : State) (port : Nat) (fin : RxEnd) : State :=
  if !modeFec (s.portCfg port).mode then s else
  let t := (s.count (.port port .fecCorrectedCw) fin.fecCorrected).count (.port port .fecUncorrectedCw) fin.fecUncorrected
  ((t.portLanes port).zip fin.fecSymbols).foldl (fun s e => s.count (.lane e.1 .fecSymbolErr) e.2) t

omit hp hk in
theorem State.countRx_eq (s : State) (port : Nat) (fin : RxEnd) : s.countRx port fin = (s.mergeCounted port fin).fecCounted port fin := rfl

theorem State.mergeCounted_reception (s : State) (port : Nat) (fin : RxEnd) :
    (s.mergeCounted port fin).reception p k = s.reception p k := by
  have hfrags := s.count_port_reception hp hk port (x := .mmFragRx) (by decide) fin.frags
  unfold State.mergeCounted
  dsimp only
  rw [State.count_port_reception hp hk _ _ (by decide)]
  split
  · exact (State.count_port_reception hp hk _ _ (by decide) 1).trans hfrags
  split
  · exact hfrags
  · exact (State.count_port_reception hp hk _ _ (by decide) 1).trans hfrags

theorem State.fecCounted_reception (s : State) (port : Nat) (fin : RxEnd) : (s.fecCounted port fin).reception p k = s.reception p k := by
  unfold State.fecCounted
  dsimp only
  split
  · rfl
  · refine (foldl_keeps (·.reception p k) (fun s e => s.count_reception hp (by simp [Ctr.place]) _) _ _).trans ?_
    exact (State.count_port_reception hp hk _ _ (by decide) _).trans (s.count_port_reception hp hk _ (by decide) _)

theorem State.countRx_reception (s : State) (port : Nat) (fin : RxEnd) : (s.countRx port fin).reception p k = s.reception p k := by
  rw [countRx_eq, fecCounted_reception hp hk, mergeCounted_reception hp hk]

end

end Sys2Proof.Machine

namespace Sys2Proof.Machine

/-- The frame's FCS and its codewords are good (R162, R165). -/
def goodEnd (fin : RxEnd) (fec : Bool) : Bool := fin.fcsOk && !fin.assemblyErr && (fin.fecUncorrected == 0 || !fec)

theorem goodEnd_iff {fin : RxEnd} {fec : Bool} :
    goodEnd fin fec = true ↔ fin.fcsOk = true ∧ fin.assemblyErr = false ∧ (fin.fecUncorrected = 0 ∨ fec = false) := by
  simp [goodEnd, and_assoc]

/-- A fragment of the MAC merge, which is not counted as one (R190). -/
def mergedEnd (fin : RxEnd) : Bool := fin.preemptable && (fin.assemblyErr || fin.frags != 0)

theorem mergedEnd_iff {fin : RxEnd} : mergedEnd fin = true ↔ fin.preemptable = true ∧ (fin.assemblyErr = true ∨ fin.frags ≠ 0) := by
  simp [mergedEnd]

/-- The counter of a frame by its size and whether it is good (R165, R167, R190). -/
def rxVerdict (len top : Nat) (good merged : Bool) : Option PortCtr :=
  if len < 64 then if good then some .rxRunt else if merged then none else some .rxFragment
  else if top < len then some .rxOversize
  else if good then some .rxFramesOk else some .rxFcsErr

/-- The frame is not in hand any more, its octets are counted and its cells are known. -/
def State.rxEnded (s : State) (p : Nat) (fin : RxEnd) (h : RxHand) : State :=
  let len := h.bytes.length + fin.rest.length
  let t : State := { s with qos := { s.qos with rx := tset none s.qos.rx (rxKey p fin.preemptable) none } }
  let t := (t.countRx p fin).count (.port p .rxOctets) len
  let size (y : Stored) : Stored := { y with cells := cellsOf (min len h.top) }
  { t with qos := { t.qos with stored := tmod none t.qos.stored h.id fun x => x.map size } }

/-- The frame is counted. -/
def State.noted (s : State) (p : Nat) (verdict : Option PortCtr) : State :=
  match verdict with
  | some x => s.count (.port p x)
  | none => s

/-- A bad frame ends stomped where its egress has begun, and leaves its queues (R165, R166, R251). -/
def State.rejected (s : State) (h : RxHand) (rest : Bytes) (keep : Option Nat) (cells : Nat) : State :=
  (s.endCut h.id h.queues rest keep cells true).dropFrame h.id h.queues

/-- An entry whose bytes have all arrived. -/
def QItem.whole (rest : Bytes) (len : Nat) (i : QItem) : QItem :=
  if i.complete then i
  else { i with bytes := completeBytes i.bytes rest i.truncate, complete := true, cutThrough := false,
                cells := cellsOf (if i.truncate = 0 then len else min len i.truncate) }

/-- A good frame is complete, on its queues and for its punts and the border function (R165, R251). -/
def State.completed (s : State) (p : Nat) (h : RxHand) (rest : Bytes) (len cells : Nat) : State :=
  ((s.endCut h.id h.queues rest none cells false).mapItem h.id h.queues (QItem.whole rest len)).deliver p h rest

/-- The frame is judged by its size and whether it is good. -/
def State.endJudged (s : State) (p : Nat) (h : RxHand) (rest : Bytes) (len : Nat) (good merged : Bool) : State :=
  let cells := cellsOf (min len h.top)
  if len < 64 then
    (if good then s.count (.port p .rxRunt) else s.countIf (!merged) (.port p .rxFragment)).rejected h rest none cells
  else if h.top < len then (s.count (.port p .rxOversize)).rejected h rest (some (h.top - 4)) cells
  else if !good then (s.count (.port p .rxFcsErr)).rejected h rest none cells
  else (s.count (.port p .rxFramesOk)).completed p h rest len cells

theorem State.endJudged_eq (s : State) (p : Nat) (h : RxHand) (rest : Bytes) (len : Nat) (good merged : Bool) :
    s.endJudged p h rest len good merged =
      let cells := cellsOf (min len h.top)
      let u := s.noted p (rxVerdict len h.top good merged)
      if 64 ≤ len ∧ len ≤ h.top ∧ good = true then u.completed p h rest len cells
      else u.rejected h rest (if 64 ≤ len ∧ h.top < len then some (h.top - 4) else none) cells := by
  unfold State.endJudged rxVerdict
  dsimp only
  by_cases hshort : len < 64
  · have hlow : ¬64 ≤ len := by omega
    cases good <;> cases merged <;> simp [hshort, hlow, State.noted, State.countIf]
  have hlow : 64 ≤ len := by omega
  by_cases hlong : h.top < len
  · have hhigh : ¬len ≤ h.top := by omega
    simp [hshort, hlow, hlong, hhigh, State.noted]
  have hhigh : len ≤ h.top := by omega
  cases good <;> simp [hshort, hlow, hlong, hhigh, State.noted]

end Sys2Proof.Machine

namespace Sys2Proof.Claims

open Machine

variable {s : State} {p : Fin 256} {fin : RxEnd}

theorem rxFrameEnd_idle (h : tget none s.qos.rx (rxKey p.val fin.preemptable) = none ∨ s.inService = false) :
    exec (.rxFrameEnd p fin) s = .next s := by
  have hnone : (if s.inService then tget none s.qos.rx (rxKey p.val fin.preemptable) else none) = none := by
    rcases h with hnone | hidle
    · rw [hnone, ite_self]
    · rw [hidle]; rfl
  have hexec : exec (.rxFrameEnd p fin) s = execRxFrameEnd p fin s := rfl
  rw [hexec, execRxFrameEnd]
  dsimp only
  rw [hnone]

/-- The end of a frame in hand, with `len` its length and `good` whether it is good. -/
theorem rxFrameEnd_ends {h : RxHand} (hserves : s.inService = true) (hh : tget none s.qos.rx (rxKey p.val fin.preemptable) = some h) :
    let len := h.bytes.length + fin.rest.length
    let good := goodEnd fin (modeFec (s.portCfg p.val).mode)
    let cells := cellsOf (min len h.top)
    let u := (s.rxEnded p.val fin h).noted p.val (rxVerdict len h.top good (mergedEnd fin))
    exec (.rxFrameEnd p fin) s = .next (if 64 ≤ len ∧ len ≤ h.top ∧ good = true then u.completed p.val h fin.rest len cells
      else u.rejected h fin.rest (if 64 ≤ len ∧ h.top < len then some (h.top - 4) else none) cells) := by
  have hexec : exec (.rxFrameEnd p fin) s = .next (match if s.inService then tget none s.qos.rx (rxKey p.val fin.preemptable) else none with
    | none => s
    | some h => (s.rxEnded p.val fin h).endJudged p.val h fin.rest (h.bytes.length + fin.rest.length)
        (goodEnd fin (modeFec (s.portCfg p.val).mode)) (mergedEnd fin)) := rfl
  dsimp only
  rw [hexec, if_pos hserves, hh, ← State.endJudged_eq]

end Sys2Proof.Claims

namespace Sys2Proof.Machine

section
variable {p : Nat} {k : PortCtr} (hp : p < 256) (hk : k.judges)
include hp hk

theorem State.rejected_reception (s : State) (h : RxHand) (rest : Bytes) (keep : Option Nat) (cells : Nat) :
    (s.rejected h rest keep cells).reception p k = s.reception p k := by
  rw [rejected, dropFrame_reception hp hk, endCut_reception hp hk]

theorem State.completed_reception (s : State) (port : Nat) (h : RxHand) (rest : Bytes) (len cells : Nat) :
    (s.completed port h rest len cells).reception p k = s.reception p k := by
  rw [completed, deliver_reception hp, mapItem_reception hp, endCut_reception hp hk]

/-- A counter that is not the one of the octets. -/
theorem State.rxEnded_counter (hother : PortCtr.rxOctets.ctorIdx ≠ k.ctorIdx) (s : State) (fin : RxEnd) (h : RxHand) :
    (s.rxEnded p fin h).counter (.port p k) = s.counter (.port p k) := by
  have hcounted (u : State) (n : Nat) : ((u.countRx p fin).count (.port p .rxOctets) n).counter (.port p k) = u.counter (.port p k) :=
    (count_port_aside hp hother n).trans (congrArg (·.2.2) (u.countRx_reception hp hk p fin))
  exact hcounted ..

omit hk in
theorem State.rxEnded_octets (s : State) (fin : RxEnd) (h : RxHand) : (s.rxEnded p fin h).counter (.port p .rxOctets) =
    (s.counter (.port p .rxOctets) + (h.bytes.length + fin.rest.length)) % 2 ^ 64 := by
  have hcounted (u : State) (n : Nat) : ((u.countRx p fin).count (.port p .rxOctets) n).counter (.port p .rxOctets) =
      (u.counter (.port p .rxOctets) + n) % 2 ^ 64 := by
    have hreception := u.countRx_reception (k := .rxOctets) hp (by decide) p fin
    have hsame : (u.countRx p fin).counter (.port p .rxOctets) = u.counter (.port p .rxOctets) := congrArg (·.2.2) hreception
    rw [count_counter, hsame]
    rfl
  exact hcounted ..

end

theorem State.rxEnded_rx (s : State) (p : Nat) (fin : RxEnd) (h : RxHand) :
    (s.rxEnded p fin h).qos.rx = tset none s.qos.rx (rxKey p fin.preemptable) none := by
  simp [State.rxEnded, State.count]

theorem State.rxEnded_queue (s : State) (p : Nat) (fin : RxEnd) (h : RxHand) (q : Nat) : (s.rxEnded p fin h).queue q = s.queue q := by
  simp [State.rxEnded, State.count, State.queue]

theorem State.rxEnded_sched (s : State) (p : Nat) (fin : RxEnd) (h : RxHand) (n : Nat) : (s.rxEnded p fin h).sched n = s.sched n := by
  simp [State.rxEnded, State.count, State.sched]

theorem State.noted_qos (s : State) (p : Nat) (v : Option PortCtr) : (s.noted p v).qos = s.qos := by
  cases v <;> rfl

theorem State.noted_counter_self (s : State) (p : Nat) (x : PortCtr) : (s.noted p (some x)).counter (.port p x) =
    wrapAdd (Ctr.port p x).width (s.counter (.port p x)) 1 := count_counter ..

theorem State.noted_counter_ne {p : Nat} {k : PortCtr} (hp : p < 256) (s : State) {v : Option PortCtr}
    (h : ∀ x, v = some x → x.ctorIdx ≠ k.ctorIdx) : (s.noted p v).counter (.port p k) = s.counter (.port p k) := by
  cases v with
  | none => rfl
  | some x => exact count_port_aside hp (h x rfl) 1

/-! The one queue of a frame whose egress has not begun. -/

variable {s : State} {q id : Nat} {i : QItem}

theorem State.endCut_idle (hsending : (s.sched (q / 128)).sending = none) (hpreempted : (s.sched (q / 128)).preempted = none)
    (rest : Bytes) (keep : Option Nat) (cells : Nat) (stomp : Bool) : s.endCut id [q] rest keep cells stomp = s := by
  simp [State.endCut, State.endCutQueue, hsending, hpreempted]

theorem State.mapItem_items (hi : (s.queue q).items = [i]) (hid : i.id = id) (f : QItem → QItem) :
    ((s.mapItem id [q] f).queue q).items = [f i] := by
  have hmod (u : State) (g : Sched → Sched) : (u.modSched (q / 128) g).queue q = u.queue q := rfl
  unfold State.mapItem
  rw [List.foldl_cons, List.foldl_nil]
  dsimp only
  rw [gaugeQueue_queue, hmod, setItems_queue]
  simp [hi, hid]

theorem State.settle_empty (h : (s.queue q).items = []) : ((s.settle q).queue q).items = [] := by
  unfold State.settle
  dsimp only
  split
  · rw [gaugeQueue_queue, h, settleList, setItems_queue]
  · exact h

theorem State.dropFrame_items (hi : (s.queue q).items = [i]) (hid : i.id = id) : ((s.dropFrame id [q]).queue q).items = [] := by
  have hgone (n : Nat) (u : State) : ((List.replicate n id).foldl (fun s i => s.letGo i) u).queue q = u.queue q :=
    foldl_keeps (·.queue q) (fun s i => queue_of_lines (s.letGo_lines i) q) _ u
  unfold State.dropFrame
  rw [List.foldl_cons, List.foldl_nil]
  dsimp only
  rw [gaugeQueue_queue]
  refine settle_empty ?_
  rw [hgone, setItems_queue]
  simp [hi, hid]

theorem State.deliver_nothing (s : State) (p : Nat) {h : RxHand} (hpunts : h.punts = []) (hborders : h.borders = []) (rest : Bytes) :
    s.deliver p h rest = s := by
  simp [State.deliver, State.crossBorder, hpunts, hborders]

variable {h : RxHand} (hqueues : h.queues = [q]) (hi : (s.queue q).items = [i]) (hid : i.id = h.id)
  (hsending : (s.sched (q / 128)).sending = none) (hpreempted : (s.sched (q / 128)).preempted = none)
include hqueues hi hid hsending hpreempted

theorem State.completed_items (hpunts : h.punts = []) (hborders : h.borders = []) (p : Nat) (rest : Bytes) (len cells : Nat) :
    ((s.completed p h rest len cells).queue q).items = [i.whole rest len] := by
  rw [completed, deliver_nothing _ p hpunts hborders, hqueues, endCut_idle hsending hpreempted, mapItem_items hi hid]

theorem State.rejected_items (rest : Bytes) (keep : Option Nat) (cells : Nat) : ((s.rejected h rest keep cells).queue q).items = [] := by
  rw [rejected, hqueues, endCut_idle hsending hpreempted, dropFrame_items hi hid]

end Sys2Proof.Machine

/-! The counter of the verdict. -/

namespace Sys2Proof.Machine

variable {len top : Nat} {good merged : Bool}

theorem rxVerdict_ok (hlow : 64 ≤ len) (hhigh : len ≤ top) : rxVerdict len top true merged = some .rxFramesOk := by
  rw [rxVerdict, if_neg (by omega), if_neg (by omega), if_pos rfl]

theorem rxVerdict_bad (hlow : 64 ≤ len) (hhigh : len ≤ top) : rxVerdict len top false merged = some .rxFcsErr := by
  rw [rxVerdict, if_neg (by omega), if_neg (by omega), if_neg (by simp)]

theorem rxVerdict_oversize (hlow : 64 ≤ len) (hlong : top < len) : rxVerdict len top good merged = some .rxOversize := by
  rw [rxVerdict, if_neg (by omega), if_pos hlong]

theorem rxVerdict_short (hshort : len < 64) : rxVerdict len top good merged =
    if good then some .rxRunt else if merged then none else some .rxFragment := if_pos hshort

/-- No verdict counts octets. -/
theorem rxVerdict_octets {x : PortCtr} (h : rxVerdict len top good merged = some x) : x.ctorIdx ≠ PortCtr.rxOctets.ctorIdx := by
  unfold rxVerdict at h
  split at h
  · cases good <;> cases merged <;> simp at h <;> subst h <;> decide
  split at h
  · cases h
    decide
  · cases good <;> simp at h <;> subst h <;> decide

end Sys2Proof.Machine

namespace Sys2Proof.Machine

/-- The state after a frame's end: the frame, of length `len`, is counted under its verdict, and completed or rejected. -/
def State.rxJudged (s : State) (p : Nat) (fin : RxEnd) (h : RxHand) (len : Nat) (good merged : Bool) : State :=
  let u := (s.rxEnded p fin h).noted p (rxVerdict len h.top good merged)
  if 64 ≤ len ∧ len ≤ h.top ∧ good = true then u.completed p h fin.rest len (cellsOf (min len h.top))
  else u.rejected h fin.rest (if 64 ≤ len ∧ h.top < len then some (h.top - 4) else none) (cellsOf (min len h.top))

variable {s : State} {p : Nat} {fin : RxEnd} {h : RxHand} {len : Nat} {good merged : Bool}

theorem State.rxJudged_reception {k : PortCtr} (hp : p < 256) (hk : k.judges) : (s.rxJudged p fin h len good merged).reception p k =
    ((s.rxEnded p fin h).noted p (rxVerdict len h.top good merged)).reception p k := by
  unfold State.rxJudged
  dsimp only
  split
  · exact completed_reception hp hk ..
  · exact rejected_reception hp hk ..

theorem State.rxJudged_rx (hp : p < 256) : tget none (s.rxJudged p fin h len good merged).qos.rx (rxKey p fin.preemptable) = none := by
  have hrx : (s.rxJudged p fin h len good merged).qos.rx = _ := congrArg (·.1) (rxJudged_reception (k := .rxOctets) hp (by decide))
  rw [hrx, State.reception, noted_qos, rxEnded_rx, tget_tset_self]

theorem State.rxJudged_octets (hp : p < 256) : (s.rxJudged p fin h len good merged).counter (.port p .rxOctets) =
    (s.counter (.port p .rxOctets) + (h.bytes.length + fin.rest.length)) % 2 ^ 64 := by
  have hcounter : (s.rxJudged p fin h len good merged).counter (.port p .rxOctets) = _ :=
    congrArg (·.2.2) (rxJudged_reception (k := .rxOctets) hp (by decide))
  rw [hcounter, State.reception, noted_counter_ne hp _ fun x hx => rxVerdict_octets hx, rxEnded_octets hp]

/-- The counter of the verdict counts the frame. -/
theorem State.rxJudged_counted {k : PortCtr} (hp : p < 256) (hk : k.judges) (hother : PortCtr.rxOctets.ctorIdx ≠ k.ctorIdx)
    (hverdict : rxVerdict len h.top good merged = some k) : (s.rxJudged p fin h len good merged).counter (.port p k) =
      wrapAdd (Ctr.port p k).width (s.counter (.port p k)) 1 := by
  have hcounter : (s.rxJudged p fin h len good merged).counter (.port p k) = _ := congrArg (·.2.2) (rxJudged_reception hp hk)
  rw [hcounter, State.reception, hverdict, noted_counter_self, rxEnded_counter hp hk hother]

/-- A fragment of the MAC merge is not counted. -/
theorem State.rxJudged_uncounted {k : PortCtr} (hp : p < 256) (hk : k.judges) (hother : PortCtr.rxOctets.ctorIdx ≠ k.ctorIdx)
    (hverdict : rxVerdict len h.top good merged = none) : (s.rxJudged p fin h len good merged).counter (.port p k) =
      s.counter (.port p k) := by
  have hcounter : (s.rxJudged p fin h len good merged).counter (.port p k) = _ := congrArg (·.2.2) (rxJudged_reception hp hk)
  rw [hcounter, State.reception, hverdict]
  exact rxEnded_counter hp hk hother ..

theorem State.queue_of_qos {s t : State} (h : t.qos = s.qos) (q : Nat) : t.queue q = s.queue q := by
  rw [State.queue, h]
  rfl

theorem State.sched_of_qos {s t : State} (h : t.qos = s.qos) (p : Nat) : t.sched p = s.sched p := by
  rw [State.sched, h]
  rfl

theorem State.noted_queue (s : State) (p : Nat) (fin : RxEnd) (h : RxHand) (v : Option PortCtr) (q : Nat) :
    ((s.rxEnded p fin h).noted p v).queue q = s.queue q := (queue_of_qos (noted_qos ..) q).trans (rxEnded_queue ..)

theorem State.noted_sched (s : State) (p : Nat) (fin : RxEnd) (h : RxHand) (v : Option PortCtr) (n : Nat) :
    ((s.rxEnded p fin h).noted p v).sched n = s.sched n := (sched_of_qos (noted_qos ..) n).trans (rxEnded_sched ..)

variable {q : Nat} {i : QItem} (hqueues : h.queues = [q]) (hi : (s.queue q).items = [i]) (hid : i.id = h.id)
  (hsending : (s.sched (q / 128)).sending = none) (hpreempted : (s.sched (q / 128)).preempted = none)
include hqueues hi hid hsending hpreempted

/-- A good frame becomes complete on its queue. -/
theorem State.rxJudged_completes (hpunts : h.punts = []) (hborders : h.borders = []) (hlow : 64 ≤ len) (hhigh : len ≤ h.top)
    (hgood : good = true) : ((s.rxJudged p fin h len good merged).queue q).items = [i.whole fin.rest len] := by
  unfold State.rxJudged
  dsimp only
  rw [if_pos ⟨hlow, hhigh, hgood⟩]
  exact completed_items hqueues (by rwa [noted_queue]) hid (by rwa [noted_sched]) (by rwa [noted_sched]) hpunts hborders ..

/-- A bad one leaves it. -/
theorem State.rxJudged_leaves (hbad : ¬(64 ≤ len ∧ len ≤ h.top ∧ good = true)) :
    ((s.rxJudged p fin h len good merged).queue q).items = [] := by
  unfold State.rxJudged
  dsimp only
  rw [if_neg hbad]
  exact rejected_items hqueues (by rwa [noted_queue]) hid (by rwa [noted_sched]) (by rwa [noted_sched]) ..

end Sys2Proof.Machine

section
open Sys2Proof Sys2Proof.Machine Sys2Proof.Claims

/-- Settles O42: the frame is counted under its verdict, and its entry is completed or removed; nothing else that a frame's end does
touches a counter of received frames. -/
theorem frameEndJudgesTheFrame : Obligations.FrameEndJudgesTheFrame := by
  refine fun s p fin => ⟨rxFrameEnd_idle, fun h hserves hh => ?_⟩
  have hexec := rxFrameEnd_ends hserves hh
  simp only [← goodEnd_iff, ← mergedEnd_iff, Bool.not_eq_true]
  generalize hlen : h.bytes.length + fin.rest.length = len at hexec ⊢
  generalize goodEnd fin (modeFec (s.portCfg p.val).mode) = good at hexec ⊢
  have hcounted {k : PortCtr} := State.rxJudged_counted (s := s) (p := p.val) (fin := fin) (h := h) (len := len) (good := good)
    (merged := mergedEnd fin) (k := k) p.isLt
  refine gives_of_next (t := s.rxJudged p.val fin h len good (mergedEnd fin)) hexec ⟨State.rxJudged_rx p.isLt,
    hlen ▸ State.rxJudged_octets p.isLt, fun hlow hhigh hgood => ?_, fun hlow hhigh hgood => ?_, fun hlow hlong => ?_,
    fun hshort hgood => ?_, fun hshort hgood hmerged => ?_, fun hshort hgood hmerged => ?_,
    fun q i hqueues hpunts hborders hi hid hcomplete hsending hpreempted => ⟨fun hlow hhigh hgood => ?_, fun hbad => ?_⟩⟩
  · exact hcounted (by decide) (by decide) (hgood ▸ rxVerdict_ok hlow hhigh)
  · exact hcounted (by decide) (by decide) (hgood ▸ rxVerdict_bad hlow hhigh)
  · exact hcounted (by decide) (by decide) (rxVerdict_oversize hlow hlong)
  · exact hcounted (by decide) (by decide) ((rxVerdict_short hshort).trans (by rw [hgood, if_pos rfl]))
  · exact State.rxJudged_uncounted p.isLt (by decide) (by decide) ((rxVerdict_short hshort).trans (by simp [hgood, hmerged]))
  · exact hcounted (by decide) (by decide) ((rxVerdict_short hshort).trans (by simp [hgood, hmerged]))
  · rw [State.rxJudged_completes hqueues hi hid hsending hpreempted hpunts hborders hlow hhigh hgood, QItem.whole,
      if_neg (by simp [hcomplete])]
  · refine State.rxJudged_leaves hqueues hi hid hsending hpreempted fun ⟨hlow, hhigh, hgood⟩ => ?_
    rcases hbad with hshort | hlong | hnot
    · omega
    · omega
    · exact Bool.noConfusion (hgood.symm.trans hnot)

end

/-! ### The first cell of a received frame -/

namespace Sys2Proof.Machine

/-! What a source lookup leaves as it is (R208, R209, R211). -/

/-- The tables and what crosses to the border function, without the requests that the pipes gather. -/
def Fwd.known (f : Fwd) : Fwd := { f with learnQ := [], refresh := [] }

theorem State.hostApart_ite {s t u : State} {b : Bool} (ht : t.host.apart = s.host.apart) (hu : u.host.apart = s.host.apart) :
    (if b then t else u).host.apart = s.host.apart := by
  split
  · exact ht
  · exact hu

theorem State.pace_hostApart (s : State) (obj well source type : Nat) (body : Bytes) (countAt countLen : Nat) :
    (s.pace obj well source type body countAt countLen).host.apart = s.host.apart := by
  have hwrite (p : Paced) (n : Nat) : (s.writePaced p n).host.apart = s.host.apart := produce_hostApart ..
  exact hostApart_ite rfl (hwrite ..)

theorem State.queueLearn_kept (s : State) (pipe : Nat) (r : LearnReq) :
    (s.queueLearn pipe r).host.apart = s.host.apart ∧ (s.queueLearn pipe r).fwd.known = s.fwd.known := by
  unfold State.queueLearn
  dsimp only
  split
  · exact ⟨rfl, rfl⟩
  split
  · exact ⟨pace_hostApart .., by simp [State.count]⟩
  · exact ⟨rfl, rfl⟩

theorem State.decideLearn_kept (s : State) (pipe : Nat) (r : LearnReq) :
    (s.decideLearn pipe r).host.apart = s.host.apart ∧ (s.decideLearn pipe r).fwd.known = s.fwd.known := by
  unfold State.decideLearn
  split
  · simp
  split
  · exact ⟨rfl, rfl⟩
  · exact s.queueLearn_kept pipe r

theorem State.sourceLookup_kept (s : State) (pipe port mac vlan : Nat) (may : Bool) :
    let t := s.sourceLookup pipe port mac vlan may
    t.host.apart = s.host.apart ∧ t.fwd.known = s.fwd.known := by
  unfold State.sourceLookup
  dsimp only
  split
  · split
    · exact s.decideLearn_kept ..
    · exact ⟨rfl, rfl⟩
  split
  · split <;> exact ⟨rfl, rfl⟩
  split
  · exact s.decideLearn_kept ..
  split <;> exact ⟨rfl, rfl⟩

/-- A state with other host, forwarding, pair and counter parts, which lookup and admission see as the same. -/
structure LooksAlike (s t : State) : Prop where
  parts : t = { s with host := t.host, fwd := t.fwd, pair := t.pair, ctr := t.ctr }
  host : t.host.apart = s.host.apart
  fwd : t.fwd.known = s.fwd.known

theorem State.sourceLookup_alike (s : State) (pipe port mac vlan : Nat) (may : Bool) :
    LooksAlike s (s.sourceLookup pipe port mac vlan may) := by
  have hframe := s.sourceLookup_frame pipe port mac vlan may
  obtain ⟨hhost, hfwd⟩ := s.sourceLookup_kept pipe port mac vlan may
  refine ⟨?_, hhost, hfwd⟩
  generalize s.sourceLookup pipe port mac vlan may = t at hframe
  cases t
  simp_all

section
variable {s t : State} (h : LooksAlike s t)
include h

theorem LooksAlike.qos : t.qos = s.qos := by rw [h.parts]
theorem LooksAlike.cfg : t.cfg = s.cfg := by rw [h.parts]
theorem LooksAlike.ports : t.ports = s.ports := by rw [h.parts]

theorem LooksAlike.tables : t.fwd.tables = s.fwd.tables := by
  have hknown : t.fwd.known.tables = s.fwd.known.tables := by rw [h.fwd]
  exact hknown

theorem LooksAlike.macs : t.fwd.macs = s.fwd.macs := by
  have hknown : t.fwd.known.macs = s.fwd.known.macs := by rw [h.fwd]
  exact hknown

theorem LooksAlike.fits (q cells colour : Nat) : t.fits q cells colour = s.fits q cells colour := by
  rw [h.parts]
  rfl

theorem LooksAlike.noCell (cells : Nat) : t.noCell cells = s.noCell cells := by
  have hpunt : t.host.apart.punt = s.host.apart.punt := by rw [h.host]
  have hborder : t.fwd.known.border = s.fwd.known.border := by rw [h.fwd]
  have hcrossing (pipe : Nat) : t.crossing pipe = s.crossing pipe := by
    have hpunt : t.host.punt = s.host.punt := hpunt
    have hborder : t.fwd.border = s.fwd.border := hborder
    rw [State.crossing, State.crossing, hpunt, hborder]
  have hfree : t.freeCells = s.freeCells := by
    unfold State.freeCells State.usable State.storedCells State.inHand
    rw [funext hcrossing, h.qos]
  rw [State.noCell, State.noCell, hfree, h.qos]

theorem LooksAlike.macLookup (pipe mac vlan : Nat) : t.macLookup pipe mac vlan = s.macLookup pipe mac vlan := by
  rw [State.macLookup, State.macLookup, h.macs]

theorem LooksAlike.isRadio (p : Nat) : t.isRadio p = s.isRadio p := by
  rw [State.isRadio, State.portSite, State.portCfg, h.cfg]
  rfl

theorem LooksAlike.cutNow (pair : Nat) : t.cutNow pair = s.cutNow pair := by
  rw [State.cutNow, State.cutNow, h.ports, h.cfg]

theorem LooksAlike.queue (q : Nat) : t.queue q = s.queue q := State.queue_of_qos h.qos q

end

/-! A frame is looked up where no rule and no session is set (R201, R217, R225, R256). -/

/-- The class queue of a looked-up frame at a port. -/
def Looked.queueAt (l : Looked) (m : ClassMap) (p : Nat) : Nat :=
  128 * p + (8 + 7 * l.tenant + m.pick l.parsed (l.routed || l.inPort.isNone))

theorem State.lookedUp_plain {s : State} {l : Looked} {c : Copy} (hrules : s.fwd.tables.rules = []) (hmirrors : s.fwd.tables.mirrors = [])
    (hverdict : l.verdict = { copies := [c] }) : s.lookedUp l =
      let x := s.enqueueCopy l (l.queueAt (tget {} s.qos.maps l.tenant) c.port) 0 c
      (x.1, { queues := x.2.toList, punts := [], borders := [] }) := by
  have hrule (key : Bool → Bytes) : s.fwd.tables.ruleFor l.tenant key = none := by rw [Tables.ruleFor, hrules]; rfl
  have hcandidates (inPort : Option Nat) (b : Bytes) (copies : List Copy) : s.fwd.tables.candidates none inPort b copies = [] := by
    rw [Tables.candidates, hmirrors]
    rfl
  unfold State.lookedUp
  simp only [hrule, State.hitRule, Looked.act, State.policeHit, hverdict, Option.bind_none, Bool.false_eq_true, if_false, hcandidates,
    State.mirrorAll, State.countDrop]
  rfl

/-- A queue that takes the copy holds it behind the others. -/
theorem State.enqueueCopy_admits {s : State} {l : Looked} {q p : Nat} {c : Copy} (hradio : s.isRadio c.port = false)
    (hin : l.inPort = some p) (hcut : s.cutNow (256 * p + q / 128) = false) (hlaunch : (s.queue q).launchEn = false)
    (hfits : s.fits q l.cells 0 = true) (hroom : s.noCell l.cells = false) : s.enqueueCopy l q 0 c =
      (s.append q { l.item with
        bytes := c.bytes, cells := l.cells, launch := none, cutThrough := false
        total := if l.item.maxLen < l.item.total then l.item.maxLen else l.item.total + c.bytes.length - l.item.bytes.length }, some q) := by
  have hcutOk : s.cutOk l q = false := by simp [State.cutOk, hin, hcut]
  unfold State.enqueueCopy
  dsimp only
  have hunlaunched : (if (s.queue q).launchEn then l.item.launch else none) = none := if_neg (by simp [hlaunch])
  rw [if_neg (by simp [hradio]), hcutOk, hunlaunched, takeIn_admits hfits hroom, if_pos rfl]

/-! The first cell is looked up, and the frame is held (R159, R194). -/

/-- Nothing is left to do for a frame at its end. -/
def Handed.nothing : Handed := { queues := [], punts := [], borders := [] }

/-- The entry of a frame with the number `id`. -/
def State.rxItem (s : State) (p id : Nat) (frame : RxFrame) : QItem :=
  let b := frame.bytes.take 256
  { id := id, bytes := b, cells := cellsOf (if frame.ends then b.length else (s.portCfg p).maxFrame), complete := false,
    maxLen := (s.portCfg p).maxFrame, total := if frame.ends then b.length else frame.len, tc := some (p, s.rxStamp p frame.stamp) }

/-- What becomes of the first cell of a frame, apart from its being held. -/
def State.firstCell (s : State) (p : Nat) (frame : RxFrame) : State × Handed :=
  let b := frame.bytes.take 256
  let t := s.newId.2
  if (parseFrame b).etype = 0x8808 then ((t.count (.port p .rxPause)).countIf (t.isRadio p) (.port p .rxRadioForeign), .nothing)
  else if t.isRadio p then (if isSiteRoe b then t else t.count (.port p .rxRadioForeign), .nothing)
  else t.forwardRx p b (if frame.ends then b.length else frame.len) (if frame.ends then b.length else (s.portCfg p).maxFrame)
    (s.rxItem p s.qos.nextId frame)

/-- The frame in hand. -/
def State.rxHand (s : State) (p : Nat) (frame : RxFrame) (h : Handed) : RxHand :=
  { id := s.qos.nextId, bytes := frame.bytes.take 256, queues := h.queues, punts := h.punts, borders := h.borders,
    stamp := s.rxStamp p frame.stamp, top := (s.portCfg p).maxFrame }

/-- A frame is held until its end. -/
def State.keepRx (s : State) (key : Nat) (h : RxHand) : State := { s with qos := { s.qos with rx := tset none s.qos.rx key (some h) } }

theorem State.keepRx_rx (s : State) (key : Nat) (h : RxHand) : tget none (s.keepRx key h).qos.rx key = some h :=
  tget_tset_self none s.qos.rx key (some h)

end Sys2Proof.Machine

namespace Sys2Proof.Claims

open Machine

variable {s : State} {p : Fin 256} {frame : RxFrame}

theorem frameRx_idle (h : s.inService = false ∨ (s.portSt p.val).linkUp = false ∨ s.portUsable p.val = false) :
    exec (.frameRx p frame) s = .next s :=
  congrArg Host.Outcome.next (if_pos (by simpa [or_assoc] using h))

theorem frameRx_holds (hserves : s.inService = true) (hup : (s.portSt p.val).linkUp = true) (husable : s.portUsable p.val = true) :
    exec (.frameRx p frame) s = .next ((s.firstCell p.val frame).1.keepRx (rxKey p.val frame.preemptable)
      (s.rxHand p.val frame (s.firstCell p.val frame).2)) := by
  refine congrArg Host.Outcome.next ((if_neg (by simp [hserves, hup, husable])).trans ?_)
  unfold State.firstCell
  dsimp only
  split
  · rfl
  split
  · rfl
  · rfl

end Sys2Proof.Claims

/-! The number of the next frame stands while a frame is looked up and queued. -/

namespace Sys2Proof.Machine

theorem nextId_of_reception {s t : State} (h : t.reception 0 .rxOctets = s.reception 0 .rxOctets) : t.qos.nextId = s.qos.nextId :=
  congrArg (·.2.1) h

theorem State.append_nextId (s : State) (q : Nat) (x : QItem) : (s.append q x).qos.nextId = s.qos.nextId := by
  unfold State.append
  dsimp only
  generalize hu : ({ s with qos := _ } : State) = u
  have hnext : u.qos.nextId = s.qos.nextId := by rw [← hu]
  have hset := nextId_of_reception (u.setItems_reception q ((u.queue q).items ++ [x]))
  have hgauge := (nextId_of_reception (State.gaugeQueue_reception (by decide) (u.setItems q ((u.queue q).items ++ [x])) q)).trans
    (hset.trans hnext)
  split
  · exact (nextId_of_reception (State.settle_reception (by decide) (by decide) ..)).trans hgauge
  · exact hgauge

theorem nextId_ite {α : Type} {b : Prop} [Decidable b] {x y : State × α} {n : Nat} (hx : x.1.qos.nextId = n) (hy : y.1.qos.nextId = n) :
    (if b then x else y).1.qos.nextId = n := by
  split
  · exact hx
  · exact hy

theorem State.takeIn_nextId (s : State) (pipe q colour : Nat) (x : QItem) : (s.takeIn pipe q colour x).1.qos.nextId = s.qos.nextId := by
  unfold State.takeIn
  exact nextId_ite rfl (nextId_ite rfl (s.append_nextId q x))

theorem State.police_nextId (s : State) (n : Nat) (p : Parsed) (len : Nat) : (s.police n p len).1.qos.nextId = s.qos.nextId :=
  nextId_ite rfl (nextId_ite rfl rfl)

theorem State.mirrorCopy_nextId (s : State) (pipe id len : Nat) (x : QItem) (n : Nat) (b : Bytes) :
    (s.mirrorCopy pipe id len x n b).1.qos.nextId = s.qos.nextId := by
  have hcopied (y : State × Bool) (hy : y.1.qos.nextId = s.qos.nextId) :
      (if y.2 then y.1 else y.1.count (.mirror n false)).qos.nextId = s.qos.nextId := by
    split <;> exact hy
  exact nextId_ite rfl (hcopied _ (takeIn_nextId ..))

theorem State.mirrorAll_nextId (pipe id len : Nat) (x : QItem) (cs : List Candidate) (s : State) (made : Nat) (qs : List Nat)
    (ps : List PuntHead) : (s.mirrorAll pipe id len x cs made qs ps).1.qos.nextId = s.qos.nextId := by
  induction cs generalizing s made qs ps with
  | nil => rfl
  | cons c cs ih =>
    have hsample : (s.sample c.session).1.qos.nextId = s.qos.nextId := rfl
    unfold State.mirrorAll
    dsimp only
    split
    · exact ih ..
    split
    · exact (ih ..).trans hsample
    · rw [ih, mirrorCopy_nextId, hsample]

theorem State.enqueueCopy_nextId (s : State) (l : Looked) (q colour : Nat) (c : Copy) :
    (s.enqueueCopy l q colour c).1.qos.nextId = s.qos.nextId := by
  unfold State.enqueueCopy
  dsimp only
  split
  · rfl
  · exact takeIn_nextId ..

theorem foldl_copyOut_nextId (l : Looked) (queueOf : Nat → Nat) (colour : Nat) (cs : List Copy) (acc : State × List Nat) :
    (cs.foldl (copyOut l queueOf colour) acc).1.qos.nextId = acc.1.qos.nextId := by
  induction cs generalizing acc with
  | nil => rfl
  | cons c cs ih => exact (ih _).trans (acc.1.enqueueCopy_nextId l _ colour c)

theorem State.policeHit_nextId (s : State) (l : Looked) (r : Option (Nat × Rule)) : (s.policeHit l r).1.qos.nextId = s.qos.nextId := by
  unfold State.policeHit
  split
  · split
    · exact police_nextId ..
    · rfl
  · rfl

theorem State.hitRule_nextId (s : State) (r : Option (Nat × Rule)) : (s.hitRule r).qos.nextId = s.qos.nextId := by
  unfold State.hitRule
  split <;> rfl

theorem State.countDrop_nextId (s : State) (pipe : Nat) (c : Option PipeCtr) : (s.countDrop pipe c).qos.nextId = s.qos.nextId := by
  cases c <;> rfl

theorem State.lookedUp_nextId (s : State) (l : Looked) : (s.lookedUp l).1.qos.nextId = s.qos.nextId := by
  unfold State.lookedUp
  dsimp only
  rw [foldl_copyOut_nextId]
  dsimp only
  rw [countDrop_nextId, mirrorAll_nextId, policeHit_nextId, hitRule_nextId]

/-- A frame that does not enter its VLAN is dropped and counted (R199, R200). -/
theorem State.forwardRx_vlanDrop {s : State} {p : Nat} {b : Bytes}
    (h : let x := parseFrame b
      let l2 : PortL2 := tget {} s.fwd.portL2 p
      let plain := !x.tagged || x.vid == 0
      plain = true ∧ l2.untagged = false ∨ plain = false ∧ l2.tagged = false ∨
        tget none s.fwd.tables.vlans (if plain then l2.pvid else x.vid) = none) (len room : Nat) (item : QItem) :
    s.forwardRx p b len room item = (s.count (.pipe (p / 32) .vlanDrop), .nothing) := by
  unfold State.forwardRx
  dsimp only at h ⊢
  generalize (!(parseFrame b).tagged || (parseFrame b).vid == 0) = plain at h ⊢
  rcases h with ⟨hplain, hoff⟩ | ⟨hplain, hoff⟩ | hnone
  · exact if_pos (by simp [hplain, hoff])
  · exact if_pos (by simp [hplain, hoff])
  · rw [hnone, ite_self]
    rfl

theorem State.forwardRx_nextId (s : State) (p : Nat) (b : Bytes) (len room : Nat) (item : QItem) :
    (s.forwardRx p b len room item).1.qos.nextId = s.qos.nextId := by
  have hsource (pipe mac vlan : Nat) (may : Bool) : (s.sourceLookup pipe p mac vlan may).qos.nextId = s.qos.nextId := by
    rw [(s.sourceLookup_alike pipe p mac vlan may).qos]
  have hdrawn (u : State) (routed : Bool) : (if routed then u.draw else (0, u)).2.qos.nextId = u.qos.nextId := by
    split <;> rfl
  unfold State.forwardRx
  dsimp only
  refine nextId_ite rfl ?_
  generalize (if (!(parseFrame b).tagged || (parseFrame b).vid == 0) = true then (tget {} s.fwd.portL2 p : PortL2).pvid
    else (parseFrame b).vid) = vlan
  cases tget none s.fwd.tables.vlans vlan with
  | none => rfl
  | some v => exact nextId_ite rfl (nextId_ite rfl ((lookedUp_nextId ..).trans ((hdrawn ..).trans (hsource ..))))

theorem State.firstCell_nextId (s : State) (p : Nat) (frame : RxFrame) : (s.firstCell p frame).1.qos.nextId = s.qos.nextId + 1 := by
  unfold State.firstCell
  dsimp only
  split
  · cases s.newId.2.isRadio p <;> rfl
  split
  · split <;> rfl
  · exact forwardRx_nextId ..

end Sys2Proof.Machine

/-! A frame is bridged to a station of its pipe's MAC table (R198 to R201). -/

namespace Sys2Proof.Machine

/-- The frame has no VLAN tag of its own (R199). -/
def rxPlain (b : Bytes) : Bool := !(parseFrame b).tagged || (parseFrame b).vid == 0

/-- The VLAN of a received frame (R199). -/
def State.rxVlan (s : State) (p : Nat) (b : Bytes) : Nat := if rxPlain b then (tget {} s.fwd.portL2 p : PortL2).pvid else (parseFrame b).vid

/-- The state after the source lookup of a received frame. -/
def State.sourceKnown (s : State) (p : Nat) (b : Bytes) (v : Vlan) : State :=
  s.sourceLookup (p / 32) p (parseFrame b).src (s.rxVlan p b)
    ((tget {} s.fwd.portL2 p : PortL2).learn && v.learn && !isGroup (parseFrame b).src)

/-- A frame that is bridged, at step 6. -/
def bridged (p vlan : Nat) (b : Bytes) (v : Vlan) (verdict : Verdict) (len room : Nat) (item : QItem) : Looked :=
  { pipe := p / 32, inPort := some p, tenant := v.tenant, vlan := vlan, routed := false, parsed := parseFrame b, bytes := b,
    verdict := verdict, len := len, room := room, cells := cellsOf room, item := item }

variable {s : State} {p : Nat} {b : Bytes} {v : Vlan} {e : MacEntry}

theorem State.forwardRx_bridged
    (hport : (if rxPlain b then (tget {} s.fwd.portL2 p : PortL2).untagged else (tget {} s.fwd.portL2 p : PortL2).tagged) = true)
    (hvlan : tget none s.fwd.tables.vlans (s.rxVlan p b) = some v) (hmember : bit v.members p = true)
    (hintf : s.fwd.tables.intfAt p (s.rxVlan p b) = none) (len room : Nat) (item : QItem) : s.forwardRx p b len room item =
      (s.sourceKnown p b v).lookedUp (bridged p (s.rxVlan p b) b v
        ((s.sourceKnown p b v).bridge (p / 32) p (s.rxVlan p b) v (parseFrame b) b) len room item) := by
  have henters : (rxPlain b && !(tget {} s.fwd.portL2 p : PortL2).untagged ||
      !rxPlain b && !(tget {} s.fwd.portL2 p : PortL2).tagged) = false := by
    cases hplain : rxPlain b <;> simp_all
  refine (if_neg (Bool.eq_false_iff.1 henters)).trans ?_
  unfold State.rxVlan rxPlain at hvlan hintf
  rw [hvlan, hintf]
  exact (if_neg (by simp [hmember])).trans rfl

/-- The one copy of a frame for a known station (R201). -/
theorem State.bridge_known {pipe vlan : Nat} {x : Parsed} (hgroup : isGroup x.dst = false) (he : s.macLookup pipe x.dst vlan = some e)
    (hdrop : e.drop = false) (hother : e.port ≠ p) : s.bridge pipe p vlan v x b =
      { copies := [{ port := e.port, bytes := bridgeTags b x vlan (bit v.untagged e.port) }] } := by
  unfold State.bridge
  simp [hgroup, he, hdrop, hother]

/-- A frame of the VLAN's members that is for the station of `e` by the MAC table of its pipe, and whose queue `q` takes it, where no
rule and no mirror session is set. -/
structure Bridges (s : State) (p : Nat) (b : Bytes) (v : Vlan) (e : MacEntry) (q room : Nat) : Prop where
  port : (if rxPlain b then (tget {} s.fwd.portL2 p : PortL2).untagged else (tget {} s.fwd.portL2 p : PortL2).tagged) = true
  vlan : tget none s.fwd.tables.vlans (s.rxVlan p b) = some v
  member : bit v.members p = true
  intf : s.fwd.tables.intfAt p (s.rxVlan p b) = none
  rules : s.fwd.tables.rules = []
  mirrors : s.fwd.tables.mirrors = []
  unicast : isGroup (parseFrame b).dst = false
  known : s.macLookup (p / 32) (parseFrame b).dst (s.rxVlan p b) = some e
  kept : e.drop = false
  other : e.port ≠ p
  ordinary : s.isRadio e.port = false
  stored : s.cutNow (256 * p + e.port) = false
  class_ : q = 128 * e.port + (8 + 7 * v.tenant + (tget {} s.qos.maps v.tenant : ClassMap).pick (parseFrame b) false)
  atPort : q / 128 = e.port
  unlaunched : (s.queue q).launchEn = false
  fits : s.fits q (cellsOf room) 0 = true
  room : s.noCell (cellsOf room) = false

/-- The entry of a frame at its egress port, whose bytes leave as `out`. -/
def QItem.leaving (i : QItem) (out : Bytes) (room : Nat) : QItem :=
  { i with bytes := out, cells := cellsOf room, launch := none, cutThrough := false
           total := if i.maxLen < i.total then i.maxLen else i.total + out.length - i.bytes.length }

/-- The frame takes the queue of its class at the station's port. -/
theorem State.forwardRx_known {q room : Nat} (h : Bridges s p b v e q room) (len : Nat) (item : QItem) :
    s.forwardRx p b len room item = ((s.sourceKnown p b v).append q
      (item.leaving (bridgeTags b (parseFrame b) (s.rxVlan p b) (bit v.untagged e.port)) room),
      { queues := [q], punts := [], borders := [] }) := by
  have halike : LooksAlike s (s.sourceKnown p b v) := sourceLookup_alike ..
  have hbridge := State.bridge_known (b := b) (v := v) h.unicast ((halike.macLookup ..).trans h.known) h.kept h.other
  have hrules := halike.tables.symm ▸ h.rules
  have hmirrors := halike.tables.symm ▸ h.mirrors
  have hqueue (l : Looked) (hl : l.tenant = v.tenant ∧ l.parsed = parseFrame b ∧ (l.routed || l.inPort.isNone) = false) :
      l.queueAt (tget {} (s.sourceKnown p b v).qos.maps l.tenant) e.port = q := by
    obtain ⟨htenant, hparsed, hrouted⟩ := hl
    rw [Looked.queueAt, htenant, hparsed, hrouted, halike.qos, h.class_]
  rw [forwardRx_bridged h.port h.vlan h.member h.intf, hbridge, lookedUp_plain hrules hmirrors rfl]
  dsimp only
  rw [hqueue _ ⟨rfl, rfl, rfl⟩, enqueueCopy_admits ((halike.isRadio _).trans h.ordinary) rfl
    ((halike.cutNow _).trans (h.atPort ▸ h.stored)) ((congrArg Queue.launchEn (halike.queue q)).trans h.unlaunched)
    ((halike.fits ..).trans h.fits) ((halike.noCell _).trans h.room)]
  rfl

end Sys2Proof.Machine

namespace Sys2Proof.Machine

/-! The frames that are only held and counted (R176, R199, R200, R273). -/

variable {s : State} {p : Nat} {frame : RxFrame}

theorem State.firstCell_pause (h : (parseFrame (frame.bytes.take 256)).etype = 0x8808) : s.firstCell p frame =
    ((s.newId.2.count (.port p .rxPause)).countIf (s.isRadio p) (.port p .rxRadioForeign), .nothing) := if_pos h

theorem State.firstCell_foreign (h : (parseFrame (frame.bytes.take 256)).etype ≠ 0x8808) (hradio : s.isRadio p = true)
    (hforeign : isSiteRoe (frame.bytes.take 256) = false) :
    s.firstCell p frame = (s.newId.2.count (.port p .rxRadioForeign), .nothing) :=
  (if_neg h).trans ((if_pos hradio).trans (by rw [hforeign]; rfl))

theorem State.firstCell_forwarded (h : (parseFrame (frame.bytes.take 256)).etype ≠ 0x8808) (hordinary : s.isRadio p = false) :
    s.firstCell p frame = s.newId.2.forwardRx p (frame.bytes.take 256) (if frame.ends then (frame.bytes.take 256).length else frame.len)
      (if frame.ends then (frame.bytes.take 256).length else (s.portCfg p).maxFrame) (s.rxItem p s.qos.nextId frame) :=
  (if_neg h).trans (if_neg (Bool.eq_false_iff.1 hordinary))

theorem State.countIf_aside {k x : PortCtr} (hp : p < 256) (h : x.ctorIdx ≠ k.ctorIdx) (b : Bool) :
    (s.countIf b (.port p x)).counter (.port p k) = s.counter (.port p k) := by
  unfold State.countIf
  split
  · exact count_port_aside hp h 1
  · rfl

/-- A queue that holds a frame after its source lookup holds it behind the others. -/
theorem State.sourceKnown_append {q : Nat} (p : Nat) (b : Bytes) (v : Vlan) (x : QItem) (h : (s.queue q).launchEn = false) :
    (((s.sourceKnown p b v).append q x).queue q).items = (s.queue q).items ++ [x] := by
  have hqueue : (s.sourceKnown p b v).queue q = s.queue q := (sourceLookup_alike ..).queue q
  rw [append_items x (by rw [hqueue, h]), hqueue]

end Sys2Proof.Machine

namespace Sys2Proof.Claims

open Machine

variable {s : State} {p : Fin 256} {frame : RxFrame}

/-- The frame is held under its number, on these queues. -/
theorem keepRx_held (u : State) (h : Handed) : ∃ x : RxHand,
    tget none (u.keepRx (rxKey p.val frame.preemptable) (s.rxHand p.val frame h)).qos.rx (rxKey p.val frame.preemptable) = some x ∧
      x.id = s.qos.nextId ∧ x.bytes = frame.bytes.take 256 ∧ x.queues = h.queues ∧ x.stamp = s.rxStamp p.val frame.stamp ∧
      x.top = (s.portCfg p.val).maxFrame := ⟨_, State.keepRx_rx .., rfl, rfl, rfl, rfl, rfl⟩

/-- A frame whose first cell is dropped, and counted by one counter. -/
theorem counted_only (c : Ctr) (key : Nat) (h : RxHand) : Only [.qos, .ctr] s ((s.newId.2.count c).keepRx key h) := by
  simp (disch := decide) only [State.keepRx, only_qos_update, only_count, only_newId, Only.refl]

end Sys2Proof.Claims

section
open Sys2Proof Sys2Proof.Machine Sys2Proof.Claims

/-- Settles O41: the first cell is dropped and counted, or goes through the lookup, and the frame is held either way; the lookup of a
frame for a known station comes down to one copy on one queue. -/
theorem receivedFramesAreLookedUp : Obligations.ReceivedFramesAreLookedUp := by
  refine fun s p frame => ⟨frameRx_idle, fun hserves hup husable => ?_⟩
  have hexec := frameRx_holds (frame := frame) hserves hup husable
  refine ⟨gives_of_next hexec ⟨frameRx_frame p frame s _ hexec, ?_, _, keepRx_held ..⟩, fun hpause => ?_, fun htype hradio hforeign => ?_,
    fun htype hordinary hvlan => ?_, fun htype hordinary hport v e hvlan hmember hintf hrules hmirrors hgroup he hdrop hother hradio hcut
      hlaunch hqport hfits hroom => ?_⟩
  · exact Nat.lt_of_lt_of_eq (Nat.lt_succ_self _) (s.firstCell_nextId p.val frame).symm
  · rw [State.firstCell_pause hpause] at hexec
    refine gives_of_next hexec ⟨?_, keepRx_held .., (State.countIf_aside p.isLt (by decide) _).trans (State.count_counter ..)⟩
    simp (disch := decide) only [State.keepRx, only_qos_update, only_countIf, only_count, only_newId, Only.refl]
  · rw [State.firstCell_foreign htype hradio hforeign] at hexec
    exact gives_of_next hexec ⟨counted_only _ _ _, keepRx_held .., State.count_counter ..⟩
  · rw [State.firstCell_forwarded htype hordinary, State.forwardRx_vlanDrop (s := s.newId.2) hvlan] at hexec
    exact gives_of_next hexec ⟨counted_only _ _ _, keepRx_held .., State.count_counter ..⟩
  · have hbridges : Bridges s.newId.2 p.val (frame.bytes.take 256) v e _
        (if frame.ends then (frame.bytes.take 256).length else (s.portCfg p.val).maxFrame) :=
      ⟨hport, hvlan, hmember, hintf, hrules, hmirrors, hgroup, he, hdrop, hother, hradio, hcut, rfl, hqport, hlaunch, hfits, hroom⟩
    rw [State.firstCell_forwarded htype hordinary, State.forwardRx_known hbridges] at hexec
    exact gives_of_next hexec ⟨keepRx_held .., State.sourceKnown_append (s := s.newId.2) p.val (frame.bytes.take 256) v _ hlaunch⟩

end
